-- ==== Sys2Proof/Word.lean ====
section
/-! DEFINITION. The word types of the machine and the type of sparse maps in which its state is held. -/

namespace Sys2Proof

/-- A register, latch or operand entry (03 R84): 64 bits. -/
abbrev W64 := BitVec 64
/-- The smallest addressable unit (04 R92). -/
abbrev Byte := BitVec 8
/-- One bit for each thread of a sheet of up to 128 threads (02 R29). -/
abbrev Mask := BitVec 128
/-- A sparse map: keys strictly rising, no entry equal to what an unlisted key reads as (Machine/Bits.lean). -/
abbrev SMap (α : Type) := List (Nat × α)

end Sys2Proof
end

