-- ==== Sys2Proof/Machine/Bits.lean ====
section
/-! DEFINITION. Helpers below the machine: byte order (R92, R144: little-endian), bit fields of words, signed values,
thread masks, and the sparse maps in which State holds what has many places. -/

namespace Sys2Proof

/-- The `k` little-endian bytes of `n` (R92). -/
def leBytes : Nat → Nat → List Byte
  | 0, _ => []
  | k + 1, n => BitVec.ofNat 8 n :: leBytes k (n / 256)

/-- The number whose little-endian bytes are given (R92). -/
def leNat : List Byte → Nat
  | [] => 0
  | b :: bs => b.toNat + 256 * leNat bs

/-- Bits `lo + n - 1` to `lo` of a number. -/
def bits (x lo n : Nat) : Nat := x / 2 ^ lo % 2 ^ n

/-- The index c of R192 of a physical address, 0 to 127: its die, stack and channel. -/
def homeIndex (pa : Nat) : Nat := (bits pa 7 7).xor ((bits pa 14 7).xor (bits pa 21 7))

/-- One bit of a number. -/
def bitAt (x k : Nat) : Bool := x / 2 ^ k % 2 == 1

/-- 1 for true, 0 for false. -/
def ofBool (b : Bool) : Nat := if b then 1 else 0

/-- A number as the 64 bits of a register. -/
def w64 (n : Nat) : W64 := BitVec.ofNat 64 n

/-- An integer as the 64 bits of a register, modulo 2^64. -/
def w64i (n : Int) : W64 := BitVec.ofInt 64 n

/-- The low `k` bits of `n` read as a two's-complement integer. -/
def signed (k n : Nat) : Int := if 2 ^ (k - 1) ≤ n % 2 ^ k then (n % 2 ^ k : Nat) - (2 ^ k : Nat) else (n % 2 ^ k : Nat)

/-- Sign extension of the low `k` bits to 64. -/
def sext64 (k n : Nat) : W64 := w64i (signed k n)

/-- `n` rounded up to a multiple of `k`. -/
def ceilDiv (n k : Nat) : Nat := (n + k - 1) / k

/-- The least of a list of numbers, by a starting value. -/
def minList (d : Nat) (l : List Nat) : Nat := l.foldl Nat.min d

/-- The greatest of a list of numbers, by a starting value. -/
def maxList (d : Nat) (l : List Nat) : Nat := l.foldl Nat.max d

/-- The sum of a list of numbers. -/
def sumList (l : List Nat) : Nat := l.foldl (· + ·) 0

/-! ## Thread masks -/

namespace Mask

/-- Whether thread `t` is in the mask. -/
def has (m : Mask) (t : Nat) : Bool := m.getLsbD t

/-- The mask of the threads that satisfy `f`. -/
def ofFn (f : Nat → Bool) : Mask :=
  (List.range 128).foldl (fun m t => if f t then m ||| BitVec.ofNat 128 (2 ^ t) else m) 0

/-- The threads of the mask in ascending order. -/
def threads (m : Mask) : List Nat := (List.range 128).filter m.has

/-- The lowest-numbered thread. -/
def lowest (m : Mask) : Option Nat := m.threads.head?

/-- Threads `0` to `n - 1`. -/
def firstN (n : Nat) : Mask := BitVec.ofNat 128 (2 ^ n - 1)

end Mask

/-! ## Sparse maps -/

/-- The value listed at key `k`. -/
def lookup {α : Type} (m : SMap α) (k : Nat) : Option α :=
  match m with
  | [] => none
  | (k', v) :: r => if k' = k then some v else lookup r k

/-- The value at key `k`, `d` where none is listed. -/
def getD {α : Type} (m : SMap α) (d : α) (k : Nat) : α := (lookup m k).getD d

/-- The map without key `k`. -/
def drop {α : Type} (m : SMap α) (k : Nat) : SMap α := m.filter (fun e => e.1 != k)

/-- The map with `(k, v)` put before the first greater key. -/
def insertAt {α : Type} (m : SMap α) (k : Nat) (v : α) : SMap α :=
  match m with
  | [] => [(k, v)]
  | e :: r => if k < e.1 then (k, v) :: e :: r else e :: insertAt r k v

/-- The map with `v` at key `k`. -/
def put {α : Type} (m : SMap α) (k : Nat) (v : α) : SMap α := insertAt (drop m k) k v

/-- The map with `v` at key `k`, where `d` is what an unlisted key reads as. -/
def setD {α : Type} [DecidableEq α] (m : SMap α) (d : α) (k : Nat) (v : α) : SMap α :=
  if v = d then drop m k else put m k v

/-- Keys strictly rising. -/
def rising {α : Type} : SMap α → Bool
  | [] => true
  | [_] => true
  | a :: b :: r => decide (a.1 < b.1) && rising (b :: r)

/-- The canonical form: keys strictly rising, no entry equal to the value of an unlisted key. -/
def canonical {α : Type} [DecidableEq α] (d : α) (m : SMap α) : Bool := rising m && m.all (fun e => e.2 != d)

/-- The keys of a map. -/
def keys {α : Type} (m : SMap α) : List Nat := m.map (·.1)

/-- The values of a map, in key order. -/
def vals {α : Type} (m : SMap α) : List α := m.map (·.2)

end Sys2Proof
end

