-- ==== Sys2Proof/Config.lean ====
section
/-! DEFINITION. What one device fixes: the counts of R11, R17 and R19, and the values that the spec leaves open,
each an opaque constant, so that no proof can lean on a value of it (log 2, 16, 17, 22). -/

namespace Sys2Proof.Config

/-- Compute dies (R11). -/
abbrev numDies : Nat := 4
/-- Clusters, 48 to a die (R17). -/
abbrev numClusters : Nat := 192
/-- Cores, 8 to a cluster (R17). -/
abbrev numCores : Nat := 1536
/-- Partitions (R311). -/
abbrev numPartitions : Nat := 40
/-- Virtual functions (R351). -/
abbrev numVfs : Nat := 1024
/-- Bytes of device memory (R192): addresses 0 to 2^39 - 1. -/
abbrev devMemTop : Nat := 2 ^ 39

/-- The free values: what the spec leaves open, drawn with the counter `freeCtr` of the state (log 2). -/
opaque freeNat : Nat → Nat
/-- The time in ns within which a device performs a store at its home, once it is performed at its L1 (R57, R205: finite, and
not stated; log 3). -/
opaque homeBound : Nat
/-- The time in ns within which a device performs the oldest access of a sheet that may be performed (R57: finite, and not
stated; log 3). -/
opaque performBound : Nat
/-- The firmware version that service 0 answers (R463): not given by the spec (log 22). -/
opaque firmwareVersion : BitVec 32
/-- Where firmware places a translation (R349): the address, in the address space of a virtual function, of the memory that the
driver has reserved, for the object with a digest, for whole cores or half-cores (log 16). -/
opaque reservedBase : Nat → Nat → Bool → Nat
/-- The management core's library for operations of later profiles (R288): unit, opcode, modifier, x0 to x3 and the
trigger value of one thread give q, w and the flags, or `none` where no emulation exists (log 22). -/
opaque emulation : Nat → Nat → Nat → List W64 → Option (W64 × W64 × BitVec 6)
/-- The AES-256-GCM key that the roots of trust of two devices have agreed on for a session (R360), by its identifier: their
attested keys are not in the spec (log 17). -/
opaque sessionKey : Nat → BitVec 256

end Sys2Proof.Config
end

