-- ==== Sys2Proof/Syntax.lean ====
section
/-! DEFINITION. The steps of the machine: one constructor of `Instr` for each row of the opcode table, the 186
operations of 05_opcode_map with their modifier fields, and the 108 events with the unit each one happens at. -/

namespace Sys2Proof

/-- A guard (R74, R95): SENSE with its predicate. -/
inductive Guard where
  | always
  | ifTrue (p : Fin 16)
  | ifFalse (p : Fin 16)
  | ifUndecided (p : Fin 16)
  deriving DecidableEq, Repr

/-- What a trigger move carries beside its operation: guard, source code (R97) and its UNI bit (R66). -/
structure Head where
  guard : Guard
  src : BitVec 10
  uni : Bool
  deriving DecidableEq, Repr

/-- The units of R61, in the order of their numbers. -/
inductive FUnit where
  | ala | alb | imu | fpa | fpb | xfu | lsa | lsb | sal | bru | mxe | cfe | cpy | syn | sys
  deriving DecidableEq, Repr

/-- The units of the ALU catalogue (R117). -/
inductive AluUnit where
  | ala | alb | sal
  deriving DecidableEq, Repr

/-- The units of the FPU catalogue (R117). -/
inductive FpuUnit where
  | fpa | fpb
  deriving DecidableEq, Repr

/-- The units of the LSU catalogue (R117). -/
inductive LsuUnit where
  | lsa | lsb
  deriving DecidableEq, Repr

/-! ## Modifier fields (R118 to R135) -/

/-- `.x1` and `.m32` (R120). -/
structure X1M32 where
  x1 : Bool
  m32 : Bool
  deriving DecidableEq, Repr

/-- BFX (R120). -/
structure BfxMod where
  x1 : Bool
  m32 : Bool
  sgn : Bool
  deriving DecidableEq, Repr

/-- LEA (R120): the scale shift. -/
structure LeaMod where
  x1 : Bool
  m32 : Bool
  scale : Fin 4
  deriving DecidableEq, Repr

/-- Source width of SEXT and ZEXT (R120). -/
inductive ExtWidth where
  | b8 | b16 | b32
  deriving DecidableEq, Repr

/-- Rounding field of the FPU (R123). -/
inductive Rnd where
  | rne | rtz | rup | rdn
  deriving DecidableEq, Repr

/-- Type field of the FPU (R123). -/
inductive FType where
  | f32 | f64 | f16 | bf16
  deriving DecidableEq, Repr

/-- Relation of FCMP and IVCMP (R123). -/
inductive Rel where
  | eq | lt | le | ne
  deriving DecidableEq, Repr

structure FpRnd where
  ty : FType
  rnd : Rnd
  deriving DecidableEq, Repr

structure FpRel where
  ty : FType
  rel : Rel
  deriving DecidableEq, Repr

/-- FCVTI and ICVTF (R123). -/
structure FpInt where
  i32 : Bool
  ty : FType
  rnd : Rnd
  deriving DecidableEq, Repr

/-- FSGN (R123): copy, negated, exclusive-or sign, absolute value. -/
inductive SgnOp where
  | cs | ns | xs | abs
  deriving DecidableEq, Repr

structure FpSgn where
  ty : FType
  op : SgnOp
  deriving DecidableEq, Repr

/-- Type field of the XFU functions (R125). -/
inductive XType where
  | f32 | f16 | bf16
  deriving DecidableEq, Repr

/-- Narrow formats (R125). -/
inductive NFmt where
  | e4m3 | e3m2 | e2m3 | e2m1 | int8 | int4 | int2
  deriving DecidableEq, Repr

/-- CVTN (R125): `.nan` is assigned with E4M3 only (WellFormed). -/
structure CvtnMod where
  fmt : NFmt
  nan : Bool
  deriving DecidableEq, Repr

/-- VOTE (R125). -/
inductive VoteKind where
  | all | any | uni
  deriving DecidableEq, Repr

/-- RDMAX (R125). -/
structure MaxMod where
  m32 : Bool
  uns : Bool
  deriving DecidableEq, Repr

/-- RDFSUM (R125). -/
structure RdfMod where
  dbl : Bool
  rnd : Rnd
  deriving DecidableEq, Repr

/-- Plain access sizes (R127): 1, 2, 4 and 8 bytes. -/
inductive LdSize where
  | b | h | s | d
  deriving DecidableEq, Repr

/-- Spaces (R127): global, A, W, a peer's A. -/
inductive Space where
  | g | a | w | pa
  deriving DecidableEq, Repr

/-- Scopes (R127). -/
inductive Scope where
  | wg | cl | dev | sys
  deriving DecidableEq, Repr

structure LdMod where
  nox : Bool
  size : LdSize
  space : Space
  deriving DecidableEq, Repr

structure LdpMod where
  nox : Bool
  space : Space
  deriving DecidableEq, Repr

structure LdxMod where
  nox : Bool
  pat : Fin 4
  space : Space
  deriving DecidableEq, Repr

/-- LDA and STL: the size is 4 bytes, or 8 with `dbl`. -/
structure LdaMod where
  scope : Scope
  dbl : Bool
  space : Space
  deriving DecidableEq, Repr

/-- Scopes of atomics (R127): 01 is reserved. -/
inductive AScope where
  | wg | dev | sys
  deriving DecidableEq, Repr

/-- Spaces of atomics (R127): 10 is reserved. -/
inductive ASpace where
  | g | a | pa
  deriving DecidableEq, Repr

structure AtomMod where
  scope : AScope
  dbl : Bool
  space : ASpace
  deriving DecidableEq, Repr

structure Acas2Mod where
  scope : AScope
  space : ASpace
  deriving DecidableEq, Repr

/-- The undecided rule of BRP, BRANY and BRALL (R128). -/
inductive ERule where
  | uf | ut | ux
  deriving DecidableEq, Repr

/-- Accumulator tile names c0 to c7. -/
abbrev Tile := Fin 8
/-- Limb names k0 to k15. -/
abbrev Limb := Fin 16

structure MmaMod where
  tile : Tile
  fresh : Bool
  reuse : Bool
  deriving DecidableEq, Repr

structure MxfMod where
  tile : Tile
  fresh : Bool
  deriving DecidableEq, Repr

/-- DCOPY to DSCAT (R131). -/
structure CpyMod where
  scope : Scope
  ch1 : Bool
  deriving DecidableEq, Repr

/-- Barrier level (R134). -/
inductive BarLevel where
  | wg | cl | grid | sh
  deriving DecidableEq, Repr

/-- FENCE halves (R135): 00 is reserved. -/
inductive Halves where
  | acq | rel | ar
  deriving DecidableEq, Repr

structure FenceMod where
  scope : Scope
  halves : Halves
  deriving DecidableEq, Repr

/-! ## Bundles -/

/-- The 38 bits of a move (R95) with the UNI bit of its slot. -/
structure Move where
  sense : BitVec 2
  pred : BitVec 4
  dst : BitVec 10
  src : BitVec 10
  opc : BitVec 7
  mod : BitVec 5
  uni : Bool
  deriving DecidableEq, Repr

/-- The formats of a move bundle (R92): a wide long-immediate bundle holds five moves and its constant. -/
inductive Format where
  | narrow
  | wide
  | wideLimm (mode : BitVec 2) (c : BitVec 32)
  deriving DecidableEq, Repr

/-- A move bundle (R94, R100, R102). -/
structure Bundle where
  format : Format
  stall : BitVec 4
  le : Bool
  dp : Bool
  slots : List Move
  deriving DecidableEq, Repr

/-- A marker bundle (R103). -/
structure Marker where
  thresh : BitVec 8
  mark : BitVec 16
  ecyc : BitVec 40
  stall : BitVec 4
  le : Bool
  dp : Bool
  deriving DecidableEq, Repr

/-! ## What the events carry -/

/-- Where an uncorrectable error shows (R282): a move of a sheet, an engine command or copy, a sector written back. -/
inductive ErrTarget where
  | move (sid slot : Nat)
  | command (core e : Nat)
  | sector (pa : Nat)
  /-- the write of a row of a reduction round (R238) -/
  | round (part g roff : Nat)
  deriving DecidableEq, Repr

/-- Who misses in translation (R308): a parked sheet or a stopped engine command. -/
inductive Requester where
  | sheet (sid : Nat)
  | command (core e : Nat)
  deriving DecidableEq, Repr

/-- What an invalidation names (R306). -/
inductive TlbSel where
  | all
  | ident (vf : Nat)
  | page (vf vpage : Nat)
  deriving DecidableEq, Repr

/-- Management registers without behaviour of their own (R354); `seqTable` is the memory reserved for a pre-copy session (R362);
`deviceNo` and `route` are firmware's (R359), `reserved` what a request to a reserved group names. -/
inductive MgmtReg where
  | fdisp (part : Nat)
  | wdlim (part : Nat)
  | troot (vf : Nat)
  | enga
  | dirty (part : Nat)
  | seqTable (part : Nat)
  | firmware
  | deviceNo
  | route (dev : Nat)
  | reserved (group : Nat)
  deriving DecidableEq, Repr

/-- Who reads a counter (R330): a virtual function of the partition or the operator. -/
inductive Reader where
  | tenant (vf : Nat)
  | operator
  deriving DecidableEq, Repr

/-- The four record rings of a partition (R336). -/
structure RingKind where
  trace : Bool
  operator : Bool
  deriving DecidableEq, Repr

/-- A ring descriptor (R336). -/
structure RingDesc where
  base : Nat
  cap : Nat
  en : Bool
  wr : BitVec 32
  rd : BitVec 32
  deriving DecidableEq, Repr

/-- Where a soft error is corrected (R282): the partition that it counts for, and the core whose block corrects it. -/
structure EccPlace where
  part : Nat
  core : Nat
  deriving DecidableEq, Repr

/-- What a read through a host port names (R210, R351, R354): a place of device memory, a register of a virtual function's page, a table
entry or register of the management core, the digest bound to a partition and the SERIAL in force, as attestation reports them
(R340). -/
inductive HostTarget where
  | memory (pa : Nat)
  | page (vf off : Nat)
  | register (r : MgmtReg)
  | partition (part : Nat)
  | core (core : Nat)
  | function (vf : Nat)
  | group (part g : Nat)
  | ring (part : Nat) (r : RingKind)
  | session (part : Nat)
  | attestation (part : Nat)
  deriving DecidableEq, Repr

/-- A migration message (R362): 24 bytes of header, the ciphertext, the tag. -/
structure PageMsg where
  header : BitVec 192
  cipher : List Byte
  tag : BitVec 128
  deriving DecidableEq, Repr

/-- Integer and bitwise read-modify-write operations (R367, R372). -/
inductive RmwOp where
  | add | min | max | minu | maxu | and | or | xor | xchg | cas | fadd
  deriving DecidableEq, Repr

/-- What a peer device asks for (R356). -/
inductive PeerDevReq where
  | load (pa n : Nat)
  | store (pa : Nat) (bytes : List Byte)
  | atomic (op : RmwOp) (dbl : Bool) (pa : Nat) (v cmp : W64)
  | acas2 (pa : Nat) (v cmp : BitVec 128)
  | copyWrite (pa : Nat) (bytes : List Byte)
  | contribution (part group roff rank : Nat) (bytes : List Byte)
  deriving DecidableEq, Repr

/-- One constructor for each row of spec/opcode_table.json. The operations carry the unit where their catalogue has
more than one, the head of the trigger move, and the modifier. -/
inductive Instr where
  /-- ADD, ALU opcode 0x01 (R374). -/
  | add (u : AluUnit) (h : Head) (m : X1M32)
  /-- SUB, ALU opcode 0x02 (R444). -/
  | sub (u : AluUnit) (h : Head) (m : X1M32)
  /-- RSUB, ALU opcode 0x03 (R444). -/
  | rsub (u : AluUnit) (h : Head) (m : X1M32)
  /-- AND, ALU opcode 0x04 (R374). -/
  | and (u : AluUnit) (h : Head) (m : X1M32)
  /-- OR, ALU opcode 0x05 (R444). -/
  | or (u : AluUnit) (h : Head) (m : X1M32)
  /-- XOR, ALU opcode 0x06 (R444). -/
  | xor (u : AluUnit) (h : Head) (m : X1M32)
  /-- ANDN, ALU opcode 0x07 (R374). -/
  | andn (u : AluUnit) (h : Head) (m : X1M32)
  /-- SHL, ALU opcode 0x08 (R455). -/
  | shl (u : AluUnit) (h : Head) (m : X1M32)
  /-- SHR, ALU opcode 0x09 (R455). -/
  | shr (u : AluUnit) (h : Head) (m : X1M32)
  /-- SAR, ALU opcode 0x0A (R455). -/
  | sar (u : AluUnit) (h : Head) (m : X1M32)
  /-- ROL, ALU opcode 0x0B (R455). -/
  | rol (u : AluUnit) (h : Head) (m : X1M32)
  /-- MIN, ALU opcode 0x0C (R436). -/
  | min (u : AluUnit) (h : Head) (m : X1M32)
  /-- MAX, ALU opcode 0x0D (R436). -/
  | max (u : AluUnit) (h : Head) (m : X1M32)
  /-- MINU, ALU opcode 0x0E (R436). -/
  | minu (u : AluUnit) (h : Head) (m : X1M32)
  /-- MAXU, ALU opcode 0x0F (R436). -/
  | maxu (u : AluUnit) (h : Head) (m : X1M32)
  /-- ABS, ALU opcode 0x10 (R371). -/
  | abs (u : AluUnit) (h : Head) (m32 : Bool)
  /-- SEL, ALU opcode 0x11 (R456). -/
  | sel (u : AluUnit) (h : Head) (m : X1M32)
  /-- CEQ, ALU opcode 0x12 (R386). -/
  | ceq (u : AluUnit) (h : Head) (m : X1M32)
  /-- CNE, ALU opcode 0x13 (R386). -/
  | cne (u : AluUnit) (h : Head) (m : X1M32)
  /-- CLT, ALU opcode 0x14 (R386). -/
  | clt (u : AluUnit) (h : Head) (m : X1M32)
  /-- CLE, ALU opcode 0x15 (R386). -/
  | cle (u : AluUnit) (h : Head) (m : X1M32)
  /-- CLTU, ALU opcode 0x16 (R386). -/
  | cltu (u : AluUnit) (h : Head) (m : X1M32)
  /-- CLEU, ALU opcode 0x17 (R386). -/
  | cleu (u : AluUnit) (h : Head) (m : X1M32)
  /-- POPC, ALU opcode 0x18 (R448). -/
  | popc (u : AluUnit) (h : Head) (m32 : Bool)
  /-- CLZ, ALU opcode 0x19 (R371). -/
  | clz (u : AluUnit) (h : Head) (m32 : Bool)
  /-- CTZ, ALU opcode 0x1A (R371). -/
  | ctz (u : AluUnit) (h : Head) (m32 : Bool)
  /-- BREV, ALU opcode 0x1B (R371). -/
  | brev (u : AluUnit) (h : Head) (m32 : Bool)
  /-- BFX, ALU opcode 0x1C (R377). -/
  | bfx (u : AluUnit) (h : Head) (m : BfxMod)
  /-- BFI, ALU opcode 0x1D (R377). -/
  | bfi (u : AluUnit) (h : Head) (m : X1M32)
  /-- PERM, ALU opcode 0x1E (R447). -/
  | perm (u : AluUnit) (h : Head) (x1 : Bool)
  /-- LEA, ALU opcode 0x1F (R431). -/
  | lea (u : AluUnit) (h : Head) (m : LeaMod)
  /-- SEXT, ALU opcode 0x20 (R446). -/
  | sext (u : AluUnit) (h : Head) (m : ExtWidth)
  /-- ZEXT, ALU opcode 0x21 (R446). -/
  | zext (u : AluUnit) (h : Head) (m : ExtWidth)
  /-- PAND, ALU opcode 0x22 (R445). -/
  | pand (u : AluUnit) (h : Head) (x1 : Bool)
  /-- POR, ALU opcode 0x23 (R445). -/
  | por (u : AluUnit) (h : Head) (x1 : Bool)
  /-- PNOT, ALU opcode 0x24 (R445). -/
  | pnot (u : AluUnit) (h : Head)
  /-- PSURE, ALU opcode 0x25 (R445). -/
  | psure (u : AluUnit) (h : Head)
  /-- POSS, ALU opcode 0x26 (R445). -/
  | poss (u : AluUnit) (h : Head)
  /-- PASS, ALU opcode 0x27 (R446). -/
  | pass (u : AluUnit) (h : Head)
  /-- MUL, IMU opcode 0x01 (R435). -/
  | mul (h : Head) (m : X1M32)
  /-- MULH, IMU opcode 0x02 (R435). -/
  | mulh (h : Head) (m : X1M32)
  /-- MULHU, IMU opcode 0x03 (R435). -/
  | mulhu (h : Head) (m : X1M32)
  /-- MAD, IMU opcode 0x04 (R435). -/
  | mad (h : Head) (m32 : Bool)
  /-- MULW, IMU opcode 0x05 (R435). -/
  | mulw (h : Head) (m : X1M32)
  /-- MULWU, IMU opcode 0x06 (R435). -/
  | mulwu (h : Head) (m : X1M32)
  /-- DIV, IMU opcode 0x07 (R400). -/
  | div (h : Head) (m : X1M32)
  /-- DIVU, IMU opcode 0x08 (R400). -/
  | divu (h : Head) (m : X1M32)
  /-- REM, IMU opcode 0x09 (R453). -/
  | rem (h : Head) (m : X1M32)
  /-- REMU, IMU opcode 0x0A (R453). -/
  | remu (h : Head) (m : X1M32)
  /-- FADD, FPU opcode 0x01 (R406). -/
  | fadd (u : FpuUnit) (h : Head) (m : FpRnd)
  /-- FSUB, FPU opcode 0x02 (R406). -/
  | fsub (u : FpuUnit) (h : Head) (m : FpRnd)
  /-- FMUL, FPU opcode 0x03 (R406). -/
  | fmul (u : FpuUnit) (h : Head) (m : FpRnd)
  /-- FFMA, FPU opcode 0x04 (R406). -/
  | ffma (u : FpuUnit) (h : Head) (m : FpRnd)
  /-- FMIN, FPU opcode 0x05 (R411). -/
  | fmin (u : FpuUnit) (h : Head) (ty : FType)
  /-- FMAX, FPU opcode 0x06 (R411). -/
  | fmax (u : FpuUnit) (h : Head) (ty : FType)
  /-- FCMP, FPU opcode 0x07 (R408). -/
  | fcmp (u : FpuUnit) (h : Head) (m : FpRel)
  /-- FCLASS, FPU opcode 0x08 (R407). -/
  | fclass (u : FpuUnit) (h : Head) (ty : FType)
  /-- FCVT, FPU opcode 0x09 (R409). -/
  | fcvt (u : FpuUnit) (h : Head) (m : FpRnd)
  /-- FCVTI, FPU opcode 0x0A (R409). -/
  | fcvti (u : FpuUnit) (h : Head) (m : FpInt)
  /-- ICVTF, FPU opcode 0x0B (R409). -/
  | icvtf (u : FpuUnit) (h : Head) (m : FpInt)
  /-- FRND, FPU opcode 0x0C (R412). -/
  | frnd (u : FpuUnit) (h : Head) (m : FpRnd)
  /-- FSGN, FPU opcode 0x0D (R413). -/
  | fsgn (u : FpuUnit) (h : Head) (m : FpSgn)
  /-- IVADD, FPU opcode 0x10 (R415). -/
  | ivadd (u : FpuUnit) (h : Head)
  /-- IVSUB, FPU opcode 0x11 (R415). -/
  | ivsub (u : FpuUnit) (h : Head)
  /-- IVMUL, FPU opcode 0x12 (R415). -/
  | ivmul (u : FpuUnit) (h : Head)
  /-- IVFMA, FPU opcode 0x13 (R415). -/
  | ivfma (u : FpuUnit) (h : Head)
  /-- IVSQR, FPU opcode 0x14 (R415). -/
  | ivsqr (u : FpuUnit) (h : Head)
  /-- IVHULL, FPU opcode 0x15 (R420). -/
  | ivhull (u : FpuUnit) (h : Head)
  /-- IVMEET, FPU opcode 0x16 (R420). -/
  | ivmeet (u : FpuUnit) (h : Head)
  /-- IVMID, FPU opcode 0x17 (R419). -/
  | ivmid (u : FpuUnit) (h : Head)
  /-- IVWID, FPU opcode 0x18 (R419). -/
  | ivwid (u : FpuUnit) (h : Head)
  /-- IVCMP, FPU opcode 0x19 (R417). -/
  | ivcmp (u : FpuUnit) (h : Head) (r : Rel)
  /-- IVMAKE, FPU opcode 0x1A (R421). -/
  | ivmake (u : FpuUnit) (h : Head)
  /-- IVLO, FPU opcode 0x1B (R419). -/
  | ivlo (u : FpuUnit) (h : Head)
  /-- IVHI, FPU opcode 0x1C (R419). -/
  | ivhi (u : FpuUnit) (h : Head)
  /-- IVBIS, FPU opcode 0x1D (R416). -/
  | ivbis (u : FpuUnit) (h : Head)
  /-- IVABS, FPU opcode 0x1E (R415). -/
  | ivabs (u : FpuUnit) (h : Head)
  /-- IVIN, FPU opcode 0x1F (R417). -/
  | ivin (u : FpuUnit) (h : Head)
  /-- RCP, XFU opcode 0x01 (R450). -/
  | rcp (h : Head) (ty : XType)
  /-- RSQ, XFU opcode 0x02 (R450). -/
  | rsq (h : Head) (ty : XType)
  /-- SQRT, XFU opcode 0x03 (R450). -/
  | sqrt (h : Head) (ty : XType)
  /-- EXP2, XFU opcode 0x04 (R404). -/
  | exp2 (h : Head) (ty : XType)
  /-- LOG2, XFU opcode 0x05 (R404). -/
  | log2 (h : Head) (ty : XType)
  /-- SIN, XFU opcode 0x06 (R458). -/
  | sin (h : Head) (ty : XType)
  /-- COS, XFU opcode 0x07 (R389). -/
  | cos (h : Head) (ty : XType)
  /-- TANH, XFU opcode 0x08 (R458). -/
  | tanh (h : Head) (ty : XType)
  /-- IVRCP, XFU opcode 0x09 (R418). -/
  | ivrcp (h : Head)
  /-- IVSQRT, XFU opcode 0x0A (R418). -/
  | ivsqrt (h : Head)
  /-- IVEXP2, XFU opcode 0x0B (R418). -/
  | ivexp2 (h : Head)
  /-- IVLOG2, XFU opcode 0x0C (R418). -/
  | ivlog2 (h : Head)
  /-- CVTN, XFU opcode 0x0D (R393). -/
  | cvtn (h : Head) (m : CvtnMod)
  /-- CVTW, XFU opcode 0x0E (R394). -/
  | cvtw (h : Head) (f : NFmt)
  /-- SHFI, XFU opcode 0x0F (R457). -/
  | shfi (h : Head)
  /-- SHUP, XFU opcode 0x10 (R457). -/
  | shup (h : Head) (wrap : Bool)
  /-- SHDN, XFU opcode 0x11 (R457). -/
  | shdn (h : Head) (wrap : Bool)
  /-- SHXR, XFU opcode 0x12 (R457). -/
  | shxr (h : Head)
  /-- VOTE, XFU opcode 0x13 (R466). -/
  | vote (h : Head) (k : VoteKind)
  /-- BALLOT, XFU opcode 0x14 (R375). -/
  | ballot (h : Head)
  /-- RDSUM, XFU opcode 0x15 (R451). -/
  | rdsum (h : Head) (m32 : Bool)
  /-- RDMAX, XFU opcode 0x16 (R451). -/
  | rdmax (h : Head) (m : MaxMod)
  /-- RDFSUM, XFU opcode 0x17 (R451). -/
  | rdfsum (h : Head) (m : RdfMod)
  /-- LD, LSU opcode 0x01 (R427). -/
  | ld (u : LsuUnit) (h : Head) (m : LdMod)
  /-- LDS, LSU opcode 0x02 (R427). -/
  | lds (u : LsuUnit) (h : Head) (m : LdMod)
  /-- LDP, LSU opcode 0x03 (R429). -/
  | ldp (u : LsuUnit) (h : Head) (m : LdpMod)
  /-- ST, LSU opcode 0x04 (R460). -/
  | st (u : LsuUnit) (h : Head) (m : LdMod)
  /-- STP, LSU opcode 0x05 (R460). -/
  | stp (u : LsuUnit) (h : Head) (m : LdpMod)
  /-- LDX, LSU opcode 0x06 (R430). -/
  | ldx (u : LsuUnit) (h : Head) (m : LdxMod)
  /-- LDA, LSU opcode 0x07 (R428). -/
  | lda (u : LsuUnit) (h : Head) (m : LdaMod)
  /-- STL, LSU opcode 0x08 (R462). -/
  | stl (u : LsuUnit) (h : Head) (m : LdaMod)
  /-- LDIV, LSU opcode 0x09 (R429). -/
  | ldiv (u : LsuUnit) (h : Head) (m : LdpMod)
  /-- STIV, LSU opcode 0x0A (R461). -/
  | stiv (u : LsuUnit) (h : Head) (m : LdpMod)
  /-- AADD, LSU opcode 0x0B (R367). -/
  | aadd (u : LsuUnit) (h : Head) (m : AtomMod)
  /-- AMIN, LSU opcode 0x0C (R367). -/
  | amin (u : LsuUnit) (h : Head) (m : AtomMod)
  /-- AMAX, LSU opcode 0x0D (R367). -/
  | amax (u : LsuUnit) (h : Head) (m : AtomMod)
  /-- AMINU, LSU opcode 0x0E (R367). -/
  | aminu (u : LsuUnit) (h : Head) (m : AtomMod)
  /-- AMAXU, LSU opcode 0x0F (R367). -/
  | amaxu (u : LsuUnit) (h : Head) (m : AtomMod)
  /-- AAND, LSU opcode 0x10 (R367). -/
  | aand (u : LsuUnit) (h : Head) (m : AtomMod)
  /-- AOR, LSU opcode 0x11 (R367). -/
  | aor (u : LsuUnit) (h : Head) (m : AtomMod)
  /-- AXOR, LSU opcode 0x12 (R367). -/
  | axor (u : LsuUnit) (h : Head) (m : AtomMod)
  /-- AXCHG, LSU opcode 0x13 (R367). -/
  | axchg (u : LsuUnit) (h : Head) (m : AtomMod)
  /-- ACAS, LSU opcode 0x14 (R372). -/
  | acas (u : LsuUnit) (h : Head) (m : AtomMod)
  /-- ACAS2, LSU opcode 0x15 (R372). -/
  | acas2 (u : LsuUnit) (h : Head) (m : Acas2Mod)
  /-- AFADD, LSU opcode 0x16 (R367). -/
  | afadd (u : LsuUnit) (h : Head) (m : AtomMod)
  /-- QSYNC, LSU opcode 0x17 (R203). -/
  | qsync (u : LsuUnit) (h : Head)
  /-- PREF, LSU opcode 0x18 (R449). -/
  | pref (u : LsuUnit) (h : Head) (pin : Bool)
  /-- BR, BRU opcode 0x01 (R379). -/
  | br (h : Head)
  /-- BRI, BRU opcode 0x02 (R379). -/
  | bri (h : Head)
  /-- CALL, BRU opcode 0x03 (R379). -/
  | call (h : Head)
  /-- RET, BRU opcode 0x04 (R454). -/
  | ret (h : Head)
  /-- BRP, BRU opcode 0x05 (R381). -/
  | brp (h : Head) (r : ERule)
  /-- BRP3, BRU opcode 0x06 (R381). -/
  | brp3 (h : Head)
  /-- BRANY, BRU opcode 0x07 (R381). -/
  | brany (h : Head) (r : ERule)
  /-- BRALL, BRU opcode 0x08 (R381). -/
  | brall (h : Head) (r : ERule)
  /-- LOOP, BRU opcode 0x09 (R432). -/
  | loop (h : Head)
  /-- LBRK, BRU opcode 0x0A (R425). -/
  | lbrk (h : Head)
  /-- EXIT, BRU opcode 0x0B (R403). -/
  | exit (h : Head)
  /-- YIELD, BRU opcode 0x0C (R467). -/
  | yield (h : Head)
  /-- MMA, MXE opcode 0x01 (R438). -/
  | mma (h : Head) (m : MmaMod)
  /-- MMAB, MXE opcode 0x02 (R438). -/
  | mmab (h : Head) (m : MmaMod)
  /-- MMAI, MXE opcode 0x03 (R438). -/
  | mmai (h : Head) (m : MmaMod)
  /-- MXZERO, MXE opcode 0x04 (R443). -/
  | mxzero (h : Head) (m : MxfMod)
  /-- MXDRAIN, MXE opcode 0x05 (R440). -/
  | mxdrain (h : Head) (c : Tile)
  /-- MXRED, MXE opcode 0x06 (R442). -/
  | mxred (h : Head) (c : Tile)
  /-- MXLD, MXE opcode 0x07 (R441). -/
  | mxld (h : Head) (m : MxfMod)
  /-- MXST, MXE opcode 0x08 (R441). -/
  | mxst (h : Head) (c : Tile)
  /-- MXREL, MXE opcode 0x09 (R443). -/
  | mxrel (h : Head) (c : Tile)
  /-- CPACK, CFE opcode 0x01 (R390). -/
  | cpack (h : Head) (d : Limb)
  /-- CPACKV, CFE opcode 0x02 (R390). -/
  | cpackv (h : Head) (d : Limb)
  /-- CMUL, CFE opcode 0x03 (R385). -/
  | cmul (h : Head) (d : Limb)
  /-- CMAC, CFE opcode 0x04 (R385). -/
  | cmac (h : Head) (d : Limb)
  /-- CSQR, CFE opcode 0x05 (R385). -/
  | csqr (h : Head) (d : Limb)
  /-- CADD, CFE opcode 0x06 (R384). -/
  | cadd (h : Head) (d : Limb)
  /-- CSUB, CFE opcode 0x07 (R384). -/
  | csub (h : Head) (d : Limb)
  /-- CSHL, CFE opcode 0x08 (R384). -/
  | cshl (h : Head) (d : Limb)
  /-- CEXT, CFE opcode 0x09 (R387). -/
  | cext (h : Head)
  /-- CEXTV, CFE opcode 0x0A (R387). -/
  | cextv (h : Head)
  /-- CGW, CFE opcode 0x0B (R388). -/
  | cgw (h : Head)
  /-- CCLR, CFE opcode 0x0C (R384). -/
  | cclr (h : Head) (d : Limb)
  /-- CBIG, CFE opcode 0x0D (R385). -/
  | cbig (h : Head) (d : Limb)
  /-- DCOPY, CPY opcode 0x01 (R398). -/
  | dcopy (h : Head) (m : CpyMod)
  /-- DFILL, CPY opcode 0x02 (R398). -/
  | dfill (h : Head) (m : CpyMod)
  /-- DGATH, CPY opcode 0x03 (R398). -/
  | dgath (h : Head) (m : CpyMod)
  /-- DSCAT, CPY opcode 0x04 (R398). -/
  | dscat (h : Head) (m : CpyMod)
  /-- DSTAT, CPY opcode 0x05 (R402). -/
  | dstat (h : Head) (ch1 : Bool)
  /-- BAR, SYN opcode 0x01 (R376). -/
  | bar (h : Head) (l : BarLevel)
  /-- BARA, SYN opcode 0x02 (R376). -/
  | bara (h : Head) (l : BarLevel)
  /-- BARW, SYN opcode 0x03 (R376). -/
  | barw (h : Head) (l : BarLevel)
  /-- BOINIT, SYN opcode 0x04 (R263). -/
  | boinit (h : Head)
  /-- BOARR, SYN opcode 0x05 (R263). -/
  | boarr (h : Head) (peer : Bool)
  /-- BOEXP, SYN opcode 0x06 (R263). -/
  | boexp (h : Head)
  /-- BOWAIT, SYN opcode 0x07 (R264). -/
  | bowait (h : Head)
  /-- BOTEST, SYN opcode 0x08 (R262). -/
  | botest (h : Head) (peer : Bool)
  /-- BOINV, SYN opcode 0x09 (R263). -/
  | boinv (h : Head)
  /-- FENCE, SYS opcode 0x01 (R410). -/
  | fence (h : Head) (m : FenceMod)
  /-- ACQ, SYS opcode 0x02 (R373). -/
  | acq (h : Head) (sc : Scope)
  /-- REL, SYS opcode 0x03 (R452). -/
  | rel (h : Head) (sc : Scope)
  /-- TRAP, SYS opcode 0x04 (R464). -/
  | trap (h : Head)
  /-- BRK, SYS opcode 0x05 (R382). -/
  | brk (h : Head)
  /-- CSRRD, SYS opcode 0x06 (R392). -/
  | csrrd (h : Head)
  /-- CSRWR, SYS opcode 0x07 (R392). -/
  | csrwr (h : Head)
  /-- LAUNCH, SYS opcode 0x08 (R424). -/
  | launch (h : Head)
  /-- LWAIT, SYS opcode 0x09 (R433). -/
  | lwait (h : Head)
  /-- IVSPAWN, SYS opcode 0x0A (R423). -/
  | ivspawn (h : Head)
  /-- SVC, SYS opcode 0x0B (R463). -/
  | svc (h : Head)
  /-- TSTAMP, SYS opcode 0x0C (R465). -/
  | tstamp (h : Head)
  /-- YIELDS, SYS opcode 0x0D (R468). -/
  | yields (h : Head)
  /-- BUNDLE_ISSUE (R64). -/
  | bundleIssue (b : Bundle)
  /-- MARKER_BUNDLE (R334). -/
  | markerBundle (m : Marker)
  /-- RESULT_LANDING (R70). -/
  | resultLanding (sid : Nat) (u : FUnit) (t : Nat)
  /-- LOAD_PERFORMED (R199). -/
  | loadPerformed (sid : Nat) (k : Nat)
  /-- DIVIDE_COMPLETE (R401). -/
  | divideComplete (sid : Nat) (t : Nat)
  /-- STORE_PERFORMED_AT_L1 (R199). -/
  | storePerformedAtL1 (sid : Nat) (k : Nat)
  /-- STORE_PERFORMED_AT_HOME (R205). -/
  | storePerformedAtHome (k : Nat)
  /-- HOME_INVALIDATION (R193). -/
  | homeInvalidation (core : Nat) (word : Nat)
  /-- L2_LINE_EVICTION (R193). -/
  | l2LineEviction (line : Nat)
  /-- XPCFG_WRITE (R188). -/
  | xpcfgWrite (sid : Nat)
  /-- BANK_FORMAT_WRITE (R180). -/
  | bankFormatWrite (sid : Nat)
  /-- COMMAND_ISSUE (R221). -/
  | commandIssue (core : Nat) (e : Nat)
  /-- RESERVATION_GRANT (R254). -/
  | reservationGrant (cl : Nat)
  /-- OPERANDS_CONSUMED (R223). -/
  | operandsConsumed (core : Nat) (e : Nat)
  /-- COMMAND_COMPLETION (R223). -/
  | commandCompletion (core : Nat) (e : Nat)
  /-- STATUS_LANDING (R224). -/
  | statusLanding (sid : Nat) (u : FUnit)
  /-- BYTE_ARRIVAL (R251). -/
  | byteArrival (k : Nat)
  /-- BOWAIT_TIMEOUT (R264). -/
  | bowaitTimeout (sid : Nat)
  /-- ROUND_CLOSE (R238). -/
  | roundClose (part : Nat) (g : Nat) (roff : Nat)
  /-- GROUP_ARRIVAL (R263). -/
  | groupArrival (k : Nat)
  /-- ROUND_FAILURE (R480). -/
  | roundFailure (part : Nat) (g : Nat) (roff : Nat)
  /-- LATE_CAUSE_STOP (R225). -/
  | lateCauseStop (sid : Nat)
  /-- COMMAND_CANCEL (R225). -/
  | commandCancel (core : Nat) (e : Nat)
  /-- COMMAND_RESUME (R244). -/
  | commandResume (core : Nat) (e : Nat)
  /-- FAULT_HANDLING (R279). -/
  | faultHandling (sid : Nat)
  /-- EMULATION (R288). -/
  | emulation (sid : Nat)
  /-- RESUMED_BUNDLE (R287). -/
  | resumedBundle (sid : Nat)
  /-- DEBUGGER_RESUME (R279). -/
  | debuggerResume (sid : Nat)
  /-- DEBUGGER_SKIP (R279). -/
  | debuggerSkip (sid : Nat)
  /-- DEBUGGER_TERMINATE (R279). -/
  | debuggerTerminate (sid : Nat)
  /-- WATCHDOG (R281). -/
  | watchdog (sid : Nat)
  /-- SOFT_ERROR_CORRECTED (R282). -/
  | softErrorCorrected (x : EccPlace)
  /-- UNCORRECTABLE (R282). -/
  | uncorrectable (x : ErrTarget)
  /-- SAMPLE_RECORD (R337). -/
  | sampleRecord (part : Nat) (n : Nat) (sid : Nat) (slot : Nat)
  /-- SVC_ANSWER (R463). -/
  | svcAnswer (sid : Nat) (v : W64)
  /-- LAUNCH_SUBMISSION (R351). -/
  | launchSubmission (vf : Nat) (size : Nat) (v : W64)
  /-- LAUNCH_ACCEPTANCE (R41). -/
  | launchAcceptance (k : Nat)
  /-- SPAWNED_LAUNCH (R51). -/
  | spawnedLaunch (k : Nat)
  /-- DISPATCH_BATCH (R273). -/
  | dispatchBatch (part : Nat)
  /-- WORKGROUP_START (R45). -/
  | workgroupStart (w : Nat)
  /-- SHEET_EXIT (R47). -/
  | sheetExit (sid : Nat)
  /-- GRID_RETIRE (R47). -/
  | gridRetire (g : Nat)
  /-- GRID_TERMINATION (R48). -/
  | gridTermination (g : Nat)
  /-- FUNCTION_LEVEL_RESET (R353). -/
  | functionLevelReset (vf : Nat)
  /-- SCRUB_START (R196). -/
  | scrubStart (core : Nat) (col : Nat)
  /-- SCRUB_COMPLETE (R197). -/
  | scrubComplete (core : Nat) (col : Nat)
  /-- CLASS_G_REQUEST (R290). -/
  | classGRequest (part : Nat)
  /-- GRAPH_BOUNDARY_STOP (R292). -/
  | graphBoundaryStop (part : Nat)
  /-- CLASS_G_ESCALATION (R294). -/
  | classGEscalation (part : Nat)
  /-- CLASS_D_REQUEST (R295). -/
  | classDRequest (part : Nat)
  /-- DRAIN_POINT_STOP (R295). -/
  | drainPointStop (sid : Nat)
  /-- FORCED_STOP_DEADLINE (R295). -/
  | forcedStopDeadline (part : Nat)
  /-- CONTEXT_SAVE (R296). -/
  | contextSave (part : Nat) (reassign : Bool)
  /-- CONTEXT_RESTORE (R301). -/
  | contextRestore (part : Nat)
  /-- REDIRECTED_REQUEST (R268). -/
  | redirectedRequest (k : Nat)
  /-- DISCARDED_REQUEST (R270). -/
  | discardedRequest (k : Nat)
  /-- CONTEXT_KILL (R323). -/
  | contextKill (part : Nat)
  /-- PAGE_WALK (R305). -/
  | pageWalk (core : Nat) (vf : Nat) (vpage : Nat)
  /-- PAGE_REQUEST_ENQUEUE (R308). -/
  | pageRequestEnqueue (x : Requester)
  /-- PAGE_REQUEST_MAPPED (R308). -/
  | pageRequestMapped (port : Nat) (die : Nat) (k : Nat)
  /-- PAGE_REQUEST_REFUSED (R308). -/
  | pageRequestRefused (port : Nat) (die : Nat) (k : Nat)
  /-- TRANSLATION_INVALIDATION (R306). -/
  | translationInvalidation (port : Nat) (x : TlbSel)
  /-- PARTITION_TABLE_WRITE (R312). -/
  | partitionTableWrite (port : Nat) (part : Nat) (v : BitVec 256)
  /-- CORE_ASSIGNMENT_WRITE (R313). -/
  | coreAssignmentWrite (port : Nat) (core : Nat) (v : BitVec 16)
  /-- CORE_ASSIGNMENT_EFFECT (R314). -/
  | coreAssignmentEffect (core : Nat)
  /-- VF_ASSIGNMENT_WRITE (R315). -/
  | vfAssignmentWrite (port : Nat) (vf : Nat) (part : Nat)
  /-- REDUCTION_GROUP_WRITE (R236). -/
  | reductionGroupWrite (port : Nat) (part : Nat) (g : Nat) (v : BitVec 512)
  /-- PIN_RELEASE (R194). -/
  | pinRelease (part : Nat)
  /-- MANAGEMENT_REGISTER_WRITE (R354). -/
  | managementRegisterWrite (port : Nat) (r : MgmtReg) (v : BitVec 128)
  /-- MEMORY_REQUEST_ARRIVAL (R316). -/
  | memoryRequestArrival (ch : Nat) (cls : Nat) (n : Nat) (sector : Nat)
  /-- MEMORY_REQUEST_SERVE (R316). -/
  | memoryRequestServe (ch : Nat)
  /-- NETWORK_SECTOR_GRANT (R317). -/
  | networkSectorGrant (core : Nat)
  /-- REFILL_PERIOD_END (R318). -/
  | refillPeriodEnd (core : Nat)
  /-- BUDGET_PERIOD (R319). -/
  | budgetPeriod
  /-- POWER_LIMIT_MEASURES (R320). -/
  | powerLimitMeasures (exceeded : Bool)
  /-- PAIR_BALANCE (R322). -/
  | pairBalance (pair : Nat) (lower : Nat) (upper : Nat)
  /-- BOOST_LEASE_REQUEST (R323). -/
  | boostLeaseRequest (port : Nat) (part : Nat) (mhz : Nat) (dur : Nat)
  /-- LEASE_EXPIRY (R323). -/
  | leaseExpiry (part : Nat)
  /-- LEASE_RETRY (R323). -/
  | leaseRetry (part : Nat)
  /-- VOLTAGE_VOTE (R324). -/
  | voltageVote (rail : Nat) (part : Nat) (mv : Nat)
  /-- CLOCK_STEP_CONFIRM (R325). -/
  | clockStepConfirm (core : Nat)
  /-- RAIL_FALL (R325). -/
  | railFall (rail : Nat)
  /-- COUNTER_READ (R342). -/
  | counterRead (who : Reader) (part : Nat) (n : Nat)
  /-- COUNTER_LOW_READ (R331). -/
  | counterLowRead (who : Reader) (part : Nat) (n : Nat)
  /-- COUNTER_HIGH_READ (R331). -/
  | counterHighRead (who : Reader) (part : Nat) (n : Nat)
  /-- PCSEL_WRITE (R329). -/
  | pcselWrite (part : Nat) (n : Nat) (v : W64)
  /-- RING_DESCRIPTOR_WRITE (R336). -/
  | ringDescriptorWrite (port : Nat) (part : Nat) (r : RingKind) (d : RingDesc)
  /-- RING_READ_ADVANCE (R336). -/
  | ringReadAdvance (part : Nat) (r : RingKind) (n : Nat)
  /-- POLICY_SUBMIT (R339). -/
  | policySubmit (port : Nat) (bytes : List Byte)
  /-- LERR_READ (R352). -/
  | lerrRead (vf : Nat)
  /-- IRQST_WRITE (R351). -/
  | irqstWrite (vf : Nat) (v : W64)
  /-- SEMAPHORE_READ (R355). -/
  | semaphoreRead (port : Nat) (g : Nat) (tie : Bool)
  /-- SEMAPHORE_RELEASE (R355). -/
  | semaphoreRelease (port : Nat) (g : Nat)
  /-- PORT_LINK_DOWN (R355). -/
  | portLinkDown (port : Nat)
  /-- LINK_TRAINING (R357). -/
  | linkTraining (port : Nat) (v : BitVec 5)
  /-- HOST_POSTED_WRITE (R210). -/
  | hostPostedWrite (port : Nat) (pa : Nat) (bytes : List Byte)
  /-- HOST_READ of `n` bytes (R210). -/
  | hostRead (port : Nat) (x : HostTarget) (n : Nat)
  /-- LINK_FAILURE (R359). -/
  | linkFailure (link : Nat) (via : Option Nat)
  /-- PRECOPY_GO (R360). -/
  | precopyGo (port : Nat) (v : BitVec 256)
  /-- PRECOPY_ROUND (R361). -/
  | precopyRound (part : Nat)
  /-- PRECOPY_FINAL (R361). -/
  | precopyFinal (part : Nat)
  /-- PAGE_MESSAGE_RECEIVE (R362). -/
  | pageMessageReceive (part : Nat) (m : PageMsg)
  /-- IMAGE_MESSAGE_RECEIVE (R362). -/
  | imageMessageReceive (part : Nat) (m : PageMsg)
  /-- DEVICE_RESET (R326). -/
  | deviceReset
  /-- PEER_DEVICE_REQUEST (R356). -/
  | peerDeviceRequest (r : PeerDevReq)
  /-- HOST_STORE_TO_COHERENT_MAPPING (R358). -/
  | hostStoreToCoherentMapping (port : Nat) (pa : Nat) (bytes : List Byte)
  /-- RAIL_SETTLED (R324). -/
  | railSettled (rail : Nat)
  /-- COUNTER_WINDOW_END (R342). -/
  | counterWindowEnd (part : Nat) (n : Nat)
  deriving DecidableEq, Repr

end Sys2Proof
end

