-- ==== Sys2Proof/WellFormed.lean ====
section
/-! DEFINITION. Which instructions are well formed: the modifier values that R118 to R135 assign, the slots that a
bundle format has (R94, R100, R102), and the unit numbers of the device (R11, R17, R311, R351). -/

namespace Sys2Proof

/-- Slots of a move bundle by format (R94, R100, R102). -/
def Format.slots : Format → Nat
  | .narrow => 3
  | .wide => 6
  | .wideLimm _ _ => 5

/-- A sheet context of a core: sixteen to a core (R19). -/
def sidOk (sid : Nat) : Bool := sid < Config.numCores * 16
def coreOk (core : Nat) : Bool := core < Config.numCores
/-- Dependency-table entries 0 to 31 of a core (R220). -/
def entryOk (core e : Nat) : Bool := coreOk core && decide (e < 32)
def partOk (p : Nat) : Bool := p < Config.numPartitions
def vfOk (vf : Nat) : Bool := vf < Config.numVfs
/-- The two host ports (R11). -/
def portOk (p : Nat) : Bool := p < 2
def dieOk (d : Nat) : Bool := d < Config.numDies
def clusterOk (c : Nat) : Bool := c < Config.numClusters
/-- Rails 0 to 5 of each die (R324), numbered die by die. -/
def railOk (r : Nat) : Bool := r < 24
/-- The 128 memory controllers (R15, R316). -/
def channelOk (c : Nat) : Bool := c < 128
/-- Reduction groups 0 to 63 of a partition (R236). -/
def groupOk (g : Nat) : Bool := g < 64
/-- Counters 0 to 63 (R328). -/
def counterOk (n : Nat) : Bool := n < 64
/-- A management register of the device (R354, R359); a request may name a reserved group, 11 to 15. -/
def mgmtOk : MgmtReg → Bool
  | .fdisp p => partOk p
  | .wdlim p => partOk p
  | .troot vf => vfOk vf
  | .enga => true
  | .dirty p => partOk p
  | .seqTable p => partOk p
  | .firmware => true
  | .deviceNo => true
  | .route dev => decide (dev < 4096)
  | .reserved g => decide (11 ≤ g ∧ g < 16)
/-- What a read through a host port may name. -/
def targetOk : HostTarget → Bool
  | .memory _ => true
  | .page vf _ => vfOk vf
  | .register r => mgmtOk r
  | .partition part => partOk part
  | .core core => coreOk core
  | .function vf => vfOk vf
  | .group part g => partOk part && groupOk g
  | .ring part _ => partOk part
  | .session part => partOk part
  | .attestation part => partOk part

/-- What an instruction of the model must satisfy. -/
def Instr.wf : Instr → Bool
  | .cvtn _ m => !m.nan || m.fmt == .e4m3
  | .add _ _ _ => true
  | .sub _ _ _ => true
  | .rsub _ _ _ => true
  | .and _ _ _ => true
  | .or _ _ _ => true
  | .xor _ _ _ => true
  | .andn _ _ _ => true
  | .shl _ _ _ => true
  | .shr _ _ _ => true
  | .sar _ _ _ => true
  | .rol _ _ _ => true
  | .min _ _ _ => true
  | .max _ _ _ => true
  | .minu _ _ _ => true
  | .maxu _ _ _ => true
  | .abs _ _ _ => true
  | .sel _ _ _ => true
  | .ceq _ _ _ => true
  | .cne _ _ _ => true
  | .clt _ _ _ => true
  | .cle _ _ _ => true
  | .cltu _ _ _ => true
  | .cleu _ _ _ => true
  | .popc _ _ _ => true
  | .clz _ _ _ => true
  | .ctz _ _ _ => true
  | .brev _ _ _ => true
  | .bfx _ _ _ => true
  | .bfi _ _ _ => true
  | .perm _ _ _ => true
  | .lea _ _ _ => true
  | .sext _ _ _ => true
  | .zext _ _ _ => true
  | .pand _ _ _ => true
  | .por _ _ _ => true
  | .pnot _ _ => true
  | .psure _ _ => true
  | .poss _ _ => true
  | .pass _ _ => true
  | .mul _ _ => true
  | .mulh _ _ => true
  | .mulhu _ _ => true
  | .mad _ _ => true
  | .mulw _ _ => true
  | .mulwu _ _ => true
  | .div _ _ => true
  | .divu _ _ => true
  | .rem _ _ => true
  | .remu _ _ => true
  | .fadd _ _ _ => true
  | .fsub _ _ _ => true
  | .fmul _ _ _ => true
  | .ffma _ _ _ => true
  | .fmin _ _ _ => true
  | .fmax _ _ _ => true
  | .fcmp _ _ _ => true
  | .fclass _ _ _ => true
  | .fcvt _ _ _ => true
  | .fcvti _ _ _ => true
  | .icvtf _ _ _ => true
  | .frnd _ _ _ => true
  | .fsgn _ _ _ => true
  | .ivadd _ _ => true
  | .ivsub _ _ => true
  | .ivmul _ _ => true
  | .ivfma _ _ => true
  | .ivsqr _ _ => true
  | .ivhull _ _ => true
  | .ivmeet _ _ => true
  | .ivmid _ _ => true
  | .ivwid _ _ => true
  | .ivcmp _ _ _ => true
  | .ivmake _ _ => true
  | .ivlo _ _ => true
  | .ivhi _ _ => true
  | .ivbis _ _ => true
  | .ivabs _ _ => true
  | .ivin _ _ => true
  | .rcp _ _ => true
  | .rsq _ _ => true
  | .sqrt _ _ => true
  | .exp2 _ _ => true
  | .log2 _ _ => true
  | .sin _ _ => true
  | .cos _ _ => true
  | .tanh _ _ => true
  | .ivrcp _ => true
  | .ivsqrt _ => true
  | .ivexp2 _ => true
  | .ivlog2 _ => true
  | .cvtw _ _ => true
  | .shfi _ => true
  | .shup _ _ => true
  | .shdn _ _ => true
  | .shxr _ => true
  | .vote _ _ => true
  | .ballot _ => true
  | .rdsum _ _ => true
  | .rdmax _ _ => true
  | .rdfsum _ _ => true
  | .ld _ _ _ => true
  | .lds _ _ _ => true
  | .ldp _ _ _ => true
  | .st _ _ _ => true
  | .stp _ _ _ => true
  | .ldx _ _ _ => true
  | .lda _ _ _ => true
  | .stl _ _ _ => true
  | .ldiv _ _ _ => true
  | .stiv _ _ _ => true
  | .aadd _ _ _ => true
  | .amin _ _ _ => true
  | .amax _ _ _ => true
  | .aminu _ _ _ => true
  | .amaxu _ _ _ => true
  | .aand _ _ _ => true
  | .aor _ _ _ => true
  | .axor _ _ _ => true
  | .axchg _ _ _ => true
  | .acas _ _ _ => true
  | .acas2 _ _ _ => true
  | .afadd _ _ _ => true
  | .qsync _ _ => true
  | .pref _ _ _ => true
  | .br _ => true
  | .bri _ => true
  | .call _ => true
  | .ret _ => true
  | .brp _ _ => true
  | .brp3 _ => true
  | .brany _ _ => true
  | .brall _ _ => true
  | .loop _ => true
  | .lbrk _ => true
  | .exit _ => true
  | .yield _ => true
  | .mma _ _ => true
  | .mmab _ _ => true
  | .mmai _ _ => true
  | .mxzero _ _ => true
  | .mxdrain _ _ => true
  | .mxred _ _ => true
  | .mxld _ _ => true
  | .mxst _ _ => true
  | .mxrel _ _ => true
  | .cpack _ _ => true
  | .cpackv _ _ => true
  | .cmul _ _ => true
  | .cmac _ _ => true
  | .csqr _ _ => true
  | .cadd _ _ => true
  | .csub _ _ => true
  | .cshl _ _ => true
  | .cext _ => true
  | .cextv _ => true
  | .cgw _ => true
  | .cclr _ _ => true
  | .cbig _ _ => true
  | .dcopy _ _ => true
  | .dfill _ _ => true
  | .dgath _ _ => true
  | .dscat _ _ => true
  | .dstat _ _ => true
  | .bar _ _ => true
  | .bara _ _ => true
  | .barw _ _ => true
  | .boinit _ => true
  | .boarr _ _ => true
  | .boexp _ => true
  | .bowait _ => true
  | .botest _ _ => true
  | .boinv _ => true
  | .fence _ _ => true
  | .acq _ _ => true
  | .rel _ _ => true
  | .trap _ => true
  | .brk _ => true
  | .csrrd _ => true
  | .csrwr _ => true
  | .launch _ => true
  | .lwait _ => true
  | .ivspawn _ => true
  | .svc _ => true
  | .tstamp _ => true
  | .yields _ => true
  | .bundleIssue b => b.slots.length == b.format.slots
  | .markerBundle _ => true
  | .resultLanding sid _ _ => sidOk sid
  | .loadPerformed sid _ => sidOk sid
  | .divideComplete sid _ => sidOk sid
  | .storePerformedAtL1 sid _ => sidOk sid
  | .storePerformedAtHome _ => true
  | .homeInvalidation core _ => coreOk core
  | .l2LineEviction _ => true
  | .xpcfgWrite sid => sidOk sid
  | .bankFormatWrite sid => sidOk sid
  | .commandIssue core e => entryOk core e
  | .reservationGrant cl => clusterOk cl
  | .operandsConsumed core e => entryOk core e
  | .commandCompletion core e => entryOk core e
  | .statusLanding sid _ => sidOk sid
  | .byteArrival _ => true
  | .bowaitTimeout sid => sidOk sid
  | .roundClose part g _ => partOk part && groupOk g
  | .groupArrival _ => true
  | .roundFailure part g _ => partOk part && groupOk g
  | .lateCauseStop sid => sidOk sid
  | .commandCancel core e => entryOk core e
  | .commandResume core e => entryOk core e
  | .faultHandling sid => sidOk sid
  | .emulation sid => sidOk sid
  | .resumedBundle sid => sidOk sid
  | .debuggerResume sid => sidOk sid
  | .debuggerSkip sid => sidOk sid
  | .debuggerTerminate sid => sidOk sid
  | .watchdog sid => sidOk sid
  | .softErrorCorrected x => partOk x.part && coreOk x.core
  | .uncorrectable (.move sid _) => sidOk sid
  | .uncorrectable (.command core e) => entryOk core e
  | .uncorrectable (.sector _) => true
  | .uncorrectable (.round part g _) => partOk part && groupOk g
  | .sampleRecord part _ sid _ => partOk part && decide (sid < 16 * (Config.numCores + 1))
  | .svcAnswer sid _ => sidOk sid
  | .launchSubmission vf _ _ => vfOk vf
  | .launchAcceptance _ => true
  | .spawnedLaunch _ => true
  | .dispatchBatch part => partOk part
  | .workgroupStart _ => true
  | .sheetExit sid => sidOk sid
  | .gridRetire _ => true
  | .gridTermination _ => true
  | .functionLevelReset vf => vfOk vf
  | .scrubStart core col => coreOk core && decide (col < 2)
  | .scrubComplete core col => coreOk core && decide (col < 2)
  | .classGRequest part => partOk part
  | .graphBoundaryStop part => partOk part
  | .classGEscalation part => partOk part
  | .classDRequest part => partOk part
  | .drainPointStop sid => sidOk sid
  | .forcedStopDeadline part => partOk part
  | .contextSave part _ => partOk part
  | .contextRestore part => partOk part
  | .redirectedRequest _ => true
  | .discardedRequest _ => true
  | .contextKill part => partOk part
  | .pageWalk core vf _ => coreOk core && vfOk vf
  | .pageRequestEnqueue (.sheet sid) => sidOk sid
  | .pageRequestEnqueue (.command core e) => entryOk core e
  | .pageRequestMapped port die _ => portOk port && dieOk die
  | .pageRequestRefused port die _ => portOk port && dieOk die
  | .translationInvalidation port _ => portOk port
  | .partitionTableWrite port part _ => portOk port && partOk part
  | .coreAssignmentWrite port core _ => portOk port && coreOk core
  | .coreAssignmentEffect core => coreOk core
  | .vfAssignmentWrite port vf part => portOk port && vfOk vf && decide (part < 64)
  | .reductionGroupWrite port part g _ => portOk port && partOk part && groupOk g
  | .pinRelease part => partOk part
  | .managementRegisterWrite port r _ => portOk port && mgmtOk r
  | .memoryRequestArrival ch cls _ sector => channelOk ch && decide (cls ≤ Config.numPartitions) && homeIndex (32 * sector) == ch
  | .memoryRequestServe ch => channelOk ch
  | .networkSectorGrant core => coreOk core
  | .refillPeriodEnd core => coreOk core
  | .budgetPeriod => true
  | .powerLimitMeasures _ => true
  | .pairBalance pair _ _ => decide (pair < 96)
  | .boostLeaseRequest port part _ _ => portOk port && partOk part
  | .leaseExpiry part => partOk part
  | .leaseRetry part => partOk part
  | .voltageVote rail part _ => railOk rail && partOk part
  | .clockStepConfirm core => coreOk core
  | .railFall rail => railOk rail
  | .counterRead _ part n => partOk part && counterOk n
  | .counterLowRead _ part n => partOk part && counterOk n
  | .counterHighRead _ part n => partOk part && counterOk n
  | .pcselWrite part n _ => partOk part && counterOk n && decide (16 ≤ n)
  | .ringDescriptorWrite port part _ _ => portOk port && partOk part
  | .ringReadAdvance part _ _ => partOk part
  | .policySubmit port _ => portOk port
  | .lerrRead vf => vfOk vf
  | .irqstWrite vf _ => vfOk vf
  | .semaphoreRead port g _ => portOk port && decide (g < 16)
  | .semaphoreRelease port g => portOk port && decide (g < 16)
  | .portLinkDown port => portOk port
  | .linkTraining port _ => portOk port
  | .hostPostedWrite port _ _ => portOk port
  | .hostRead port x _ => portOk port && targetOk x
  | .linkFailure link via => decide (link < 12) && via.all (fun v => decide (v < 24))
  | .precopyGo port _ => portOk port
  | .precopyRound part => partOk part
  | .precopyFinal part => partOk part
  | .pageMessageReceive part _ => partOk part
  | .imageMessageReceive part _ => partOk part
  | .deviceReset => true
  | .peerDeviceRequest _ => true
  | .hostStoreToCoherentMapping port _ _ => portOk port
  | .railSettled rail => railOk rail
  | .counterWindowEnd part n => partOk part && counterOk n

/-- The well-formed instructions. -/
abbrev Instr.WellFormed (i : Instr) : Prop := i.wf = true

end Sys2Proof
end

