-- ==== Sys2Proof/Decode.lean ====
section
/-! DEFINITION. The decoder, total on any bytes and rejecting by name, and after it the encoder: the bundle formats of
R92 to R103, the move of R95 with its codes, and the opcode and modifier tables of R117 to R135. -/

namespace Sys2Proof

/-- Why bytes or a move word are no instruction. -/
inductive DecodeError where
  /-- Fewer bytes than the bundle's size (R92). -/
  | truncated
  /-- A RES0 header or marker field is nonzero (R94, R102, R103). -/
  | reservedHeader
  /-- Slot 5 of a long-immediate bundle breaks R100. -/
  | slotFive
  /-- SENSE 00 with PRED nonzero (R95). -/
  | guardCode
  /-- The destination is not the t port of a unit of R61. -/
  | notTrigger
  /-- An opcode that R117 marks unassigned. -/
  | opcode
  /-- A modifier value unassigned under R118 to R135. -/
  | modifier
  deriving DecidableEq, Repr

/-! ## Modifier codes: each `code` is the value of AUX bits 4:0, each `ofCode` its inverse on the assigned values -/

/-- A Boolean modifier on bit `k` alone. -/
def flagOf (k mod : Nat) : Option Bool := if mod = 0 then some false else if mod = 2 ^ k then some true else none
/-- The bit of a Boolean modifier. -/
def flagCode (k : Nat) (b : Bool) : Nat := if b then 2 ^ k else 0
/-- Operations whose modifier bits are all 0. -/
def noMod (mod : Nat) : Option Unit := if mod = 0 then some () else none

def X1M32.code (m : X1M32) : Nat := flagCode 4 m.x1 + flagCode 3 m.m32
def X1M32.ofCode (c : Nat) : Option X1M32 := if c % 8 = 0 then some ⟨bitAt c 4, bitAt c 3⟩ else none
def BfxMod.code (m : BfxMod) : Nat := flagCode 4 m.x1 + flagCode 3 m.m32 + flagCode 0 m.sgn
def BfxMod.ofCode (c : Nat) : Option BfxMod :=
  if bits c 1 2 = 0 then some ⟨bitAt c 4, bitAt c 3, bitAt c 0⟩ else none
def LeaMod.code (m : LeaMod) : Nat := flagCode 4 m.x1 + flagCode 3 m.m32 + m.scale.val
def LeaMod.ofCode (c : Nat) : Option LeaMod :=
  if bitAt c 2 then none else some ⟨bitAt c 4, bitAt c 3, Fin.ofNat 4 (c % 4)⟩
def ExtWidth.code : ExtWidth → Nat
  | .b8 => 0 | .b16 => 1 | .b32 => 2
def ExtWidth.ofCode : Nat → Option ExtWidth
  | 0 => some .b8 | 1 => some .b16 | 2 => some .b32 | _ => none
def Rnd.code : Rnd → Nat
  | .rne => 0 | .rtz => 1 | .rup => 2 | .rdn => 3
def Rnd.ofCode : Nat → Rnd
  | 0 => .rne | 1 => .rtz | 2 => .rup | _ => .rdn
def FType.code : FType → Nat
  | .f32 => 0 | .f64 => 1 | .f16 => 2 | .bf16 => 3
def FType.ofCode : Nat → FType
  | 0 => .f32 | 1 => .f64 | 2 => .f16 | _ => .bf16
def Rel.code : Rel → Nat
  | .eq => 0 | .lt => 1 | .le => 2 | .ne => 3
def Rel.ofCode : Nat → Rel
  | 0 => .eq | 1 => .lt | 2 => .le | _ => .ne
def FType.modCode (t : FType) : Nat := 4 * t.code
def FType.ofModCode (c : Nat) : Option FType := if c < 16 ∧ c % 4 = 0 then some (.ofCode (c / 4)) else none
def FpRnd.code (m : FpRnd) : Nat := 4 * m.ty.code + m.rnd.code
def FpRnd.ofCode (c : Nat) : Option FpRnd := if c < 16 then some ⟨.ofCode (c / 4), .ofCode (c % 4)⟩ else none
def FpRel.code (m : FpRel) : Nat := 4 * m.ty.code + m.rel.code
def FpRel.ofCode (c : Nat) : Option FpRel := if c < 16 then some ⟨.ofCode (c / 4), .ofCode (c % 4)⟩ else none
def FpInt.code (m : FpInt) : Nat := flagCode 4 m.i32 + 4 * m.ty.code + m.rnd.code
def FpInt.ofCode (c : Nat) : Option FpInt := some ⟨bitAt c 4, .ofCode (bits c 2 2), .ofCode (c % 4)⟩
def SgnOp.code : SgnOp → Nat
  | .cs => 0 | .ns => 1 | .xs => 2 | .abs => 3
def SgnOp.ofCode : Nat → SgnOp
  | 0 => .cs | 1 => .ns | 2 => .xs | _ => .abs
def FpSgn.code (m : FpSgn) : Nat := 4 * m.ty.code + m.op.code
def FpSgn.ofCode (c : Nat) : Option FpSgn := if c < 16 then some ⟨.ofCode (c / 4), .ofCode (c % 4)⟩ else none
def Rel.modCode (r : Rel) : Nat := r.code
def Rel.ofModCode (c : Nat) : Option Rel := if c < 4 then some (.ofCode c) else none
def XType.code : XType → Nat
  | .f32 => 0 | .f16 => 8 | .bf16 => 12
def XType.ofCode : Nat → Option XType
  | 0 => some .f32 | 8 => some .f16 | 12 => some .bf16 | _ => none
def NFmt.code : NFmt → Nat
  | .e4m3 => 0 | .e3m2 => 1 | .e2m3 => 2 | .e2m1 => 3 | .int8 => 4 | .int4 => 5 | .int2 => 6
def NFmt.ofCode : Nat → Option NFmt
  | 0 => some .e4m3 | 1 => some .e3m2 | 2 => some .e2m3 | 3 => some .e2m1 | 4 => some .int8 | 5 => some .int4
  | 6 => some .int2 | _ => none
def CvtnMod.code (m : CvtnMod) : Nat := m.fmt.code + flagCode 3 m.nan
def CvtnMod.ofCode (c : Nat) : Option CvtnMod :=
  if c < 8 then (NFmt.ofCode c).map (fun f => ⟨f, false⟩) else if c = 8 then some ⟨.e4m3, true⟩ else none
def VoteKind.code : VoteKind → Nat
  | .all => 0 | .any => 1 | .uni => 2
def VoteKind.ofCode : Nat → Option VoteKind
  | 0 => some .all | 1 => some .any | 2 => some .uni | _ => none
def MaxMod.code (m : MaxMod) : Nat := flagCode 3 m.m32 + flagCode 2 m.uns
def MaxMod.ofCode (c : Nat) : Option MaxMod :=
  if c < 16 ∧ c % 4 = 0 then some ⟨bitAt c 3, bitAt c 2⟩ else none
def RdfMod.code (m : RdfMod) : Nat := flagCode 2 m.dbl + m.rnd.code
def RdfMod.ofCode (c : Nat) : Option RdfMod := if c < 8 then some ⟨bitAt c 2, .ofCode (c % 4)⟩ else none
def LdSize.code : LdSize → Nat
  | .b => 0 | .h => 1 | .s => 2 | .d => 3
def LdSize.ofCode : Nat → LdSize
  | 0 => .b | 1 => .h | 2 => .s | _ => .d
def Space.code : Space → Nat
  | .g => 0 | .a => 1 | .w => 2 | .pa => 3
def Space.ofCode : Nat → Space
  | 0 => .g | 1 => .a | 2 => .w | _ => .pa
def Scope.code : Scope → Nat
  | .wg => 0 | .cl => 1 | .dev => 2 | .sys => 3
def Scope.ofCode : Nat → Scope
  | 0 => .wg | 1 => .cl | 2 => .dev | _ => .sys
def LdMod.code (m : LdMod) : Nat := flagCode 4 m.nox + 4 * m.size.code + m.space.code
def LdMod.ofCode (c : Nat) : Option LdMod := some ⟨bitAt c 4, .ofCode (bits c 2 2), .ofCode (c % 4)⟩
def LdpMod.code (m : LdpMod) : Nat := flagCode 4 m.nox + 12 + m.space.code
def LdpMod.ofCode (c : Nat) : Option LdpMod :=
  if bits c 2 2 = 3 then some ⟨bitAt c 4, .ofCode (c % 4)⟩ else none
def LdxMod.code (m : LdxMod) : Nat := flagCode 4 m.nox + 4 * m.pat.val + m.space.code
def LdxMod.ofCode (c : Nat) : Option LdxMod := some ⟨bitAt c 4, Fin.ofNat 4 (bits c 2 2), .ofCode (c % 4)⟩
def LdaMod.code (m : LdaMod) : Nat := 8 * m.scope.code + flagCode 2 m.dbl + m.space.code
def LdaMod.ofCode (c : Nat) : Option LdaMod := some ⟨.ofCode (bits c 3 2), bitAt c 2, .ofCode (c % 4)⟩
def AScope.code : AScope → Nat
  | .wg => 0 | .dev => 2 | .sys => 3
def AScope.ofCode : Nat → Option AScope
  | 0 => some .wg | 2 => some .dev | 3 => some .sys | _ => none
def ASpace.code : ASpace → Nat
  | .g => 0 | .a => 1 | .pa => 3
def ASpace.ofCode : Nat → Option ASpace
  | 0 => some .g | 1 => some .a | 3 => some .pa | _ => none
def AtomMod.code (m : AtomMod) : Nat := 8 * m.scope.code + flagCode 2 m.dbl + m.space.code
def AtomMod.ofCode (c : Nat) : Option AtomMod :=
  (AScope.ofCode (bits c 3 2)).bind (fun s => (ASpace.ofCode (c % 4)).map (fun p => ⟨s, bitAt c 2, p⟩))
def Acas2Mod.code (m : Acas2Mod) : Nat := 8 * m.scope.code + 4 + m.space.code
def Acas2Mod.ofCode (c : Nat) : Option Acas2Mod :=
  if bitAt c 2 then (AScope.ofCode (bits c 3 2)).bind (fun s => (ASpace.ofCode (c % 4)).map (fun p => ⟨s, p⟩)) else none
def ERule.code : ERule → Nat
  | .uf => 0 | .ut => 1 | .ux => 2
def ERule.ofCode : Nat → Option ERule
  | 0 => some .uf | 1 => some .ut | 2 => some .ux | _ => none
def MmaMod.code (m : MmaMod) : Nat := m.tile.val + flagCode 3 m.fresh + flagCode 4 m.reuse
def MmaMod.ofCode (c : Nat) : Option MmaMod := some ⟨Fin.ofNat 8 (c % 8), bitAt c 3, bitAt c 4⟩
def MxfMod.code (m : MxfMod) : Nat := m.tile.val + flagCode 3 m.fresh
def MxfMod.ofCode (c : Nat) : Option MxfMod := if c < 16 then some ⟨Fin.ofNat 8 (c % 8), bitAt c 3⟩ else none
def tileOf (c : Nat) : Option Tile := if c < 8 then some (Fin.ofNat 8 (c % 8)) else none
def limbOf (c : Nat) : Option Limb := if c < 16 then some (Fin.ofNat 16 (c % 16)) else none
def CpyMod.code (m : CpyMod) : Nat := m.scope.code + flagCode 2 m.ch1
def CpyMod.ofCode (c : Nat) : Option CpyMod := if c < 8 then some ⟨.ofCode (c % 4), bitAt c 2⟩ else none
def BarLevel.code : BarLevel → Nat
  | .wg => 0 | .cl => 1 | .grid => 2 | .sh => 3
def BarLevel.ofCode : Nat → Option BarLevel
  | 0 => some .wg | 1 => some .cl | 2 => some .grid | 3 => some .sh | _ => none
def Halves.code : Halves → Nat
  | .acq => 1 | .rel => 2 | .ar => 3
def Halves.ofCode : Nat → Option Halves
  | 1 => some .acq | 2 => some .rel | 3 => some .ar | _ => none
def FenceMod.code (m : FenceMod) : Nat := 8 * m.scope.code + m.halves.code
def FenceMod.ofCode (c : Nat) : Option FenceMod :=
  if bitAt c 2 then none else (Halves.ofCode (c % 4)).map (fun h => ⟨.ofCode (bits c 3 2), h⟩)
def Scope.modCode (s : Scope) : Nat := 8 * s.code
def Scope.ofModCode (c : Nat) : Option Scope := if c % 8 = 0 then some (.ofCode (bits c 3 2)) else none

/-! ## Units, guards and moves -/

/-- The number of a unit (R61). -/
def FUnit.num : FUnit → Nat
  | .ala => 0 | .alb => 1 | .imu => 2 | .fpa => 3 | .fpb => 4 | .xfu => 5 | .lsa => 6 | .lsb => 7 | .sal => 8
  | .bru => 9 | .mxe => 10 | .cfe => 11 | .cpy => 12 | .syn => 13 | .sys => 14

/-- The unit of a number. -/
def FUnit.ofNum : Nat → Option FUnit
  | 0 => some .ala | 1 => some .alb | 2 => some .imu | 3 => some .fpa | 4 => some .fpb | 5 => some .xfu
  | 6 => some .lsa | 7 => some .lsb | 8 => some .sal | 9 => some .bru | 10 => some .mxe | 11 => some .cfe
  | 12 => some .cpy | 13 => some .syn | 14 => some .sys | _ => none

/-- Whether a unit is a uniform unit (R61). -/
def FUnit.uniform (u : FUnit) : Bool := 8 ≤ u.num

def AluUnit.unit : AluUnit → FUnit
  | .ala => .ala | .alb => .alb | .sal => .sal
def FpuUnit.unit : FpuUnit → FUnit
  | .fpa => .fpa | .fpb => .fpb
def LsuUnit.unit : LsuUnit → FUnit
  | .lsa => .lsa | .lsb => .lsb

/-- The destination code of a unit's t port (R98): port number 15. -/
def FUnit.tPort (u : FUnit) : Nat := if u.num < 8 then 0x100 + u.num * 16 + 15 else 0x180 + (u.num - 8) * 16 + 15

/-- The unit whose t port a destination code names. -/
def unitOfT (dst : Nat) : Option FUnit :=
  if dst % 16 = 15 ∧ 0x100 ≤ dst ∧ dst < 0x1F0 then FUnit.ofNum ((dst - 0x100) / 16) else none

def Guard.sense : Guard → Nat
  | .always => 0 | .ifTrue _ => 1 | .ifFalse _ => 2 | .ifUndecided _ => 3
def Guard.pred : Guard → Nat
  | .always => 0 | .ifTrue p => p.val | .ifFalse p => p.val | .ifUndecided p => p.val
/-- The guard of SENSE and PRED (R95); none where SENSE is 00 and PRED is not. -/
def Guard.ofBits (sense pred : Nat) : Option Guard :=
  match sense with
  | 0 => if pred = 0 then some .always else none
  | 1 => some (.ifTrue (Fin.ofNat 16 pred))
  | 2 => some (.ifFalse (Fin.ofNat 16 pred))
  | _ => some (.ifUndecided (Fin.ofNat 16 pred))

/-- The 38-bit value of a move (R95). -/
def Move.word (m : Move) : Nat :=
  ((((m.sense.toNat * 16 + m.pred.toNat) * 1024 + m.dst.toNat) * 1024 + m.src.toNat) * 128 + m.opc.toNat) * 32
    + m.mod.toNat

/-- The move of 38 bits and its UNI bit. -/
def Move.ofWord (w : Nat) (uni : Bool) : Move :=
  { sense := BitVec.ofNat 2 (w / 2 ^ 36), pred := BitVec.ofNat 4 (w / 2 ^ 32), dst := BitVec.ofNat 10 (w / 2 ^ 22),
    src := BitVec.ofNat 10 (w / 2 ^ 12), opc := BitVec.ofNat 7 (w / 2 ^ 5), mod := BitVec.ofNat 5 w, uni := uni }

/-- The empty slot (R96). -/
def Move.empty : Move := { sense := 0, pred := 0, dst := 0x3FF, src := 0, opc := 0, mod := 0, uni := false }

/-! ## Triggers -/

/-- The instruction of an assigned modifier, or the error of an unassigned one. -/
def withMod {α : Type} (m : Option α) (f : α → Instr) : Except DecodeError Instr :=
  match m with
  | some x => .ok (f x)
  | none => .error .modifier

/-- The ALU catalogue (R119, R120). -/
def decodeAlu (u : AluUnit) (h : Head) (opc mod : Nat) : Except DecodeError Instr :=
  match opc with
  | 1 => withMod (X1M32.ofCode mod) (.add u h)
  | 2 => withMod (X1M32.ofCode mod) (.sub u h)
  | 3 => withMod (X1M32.ofCode mod) (.rsub u h)
  | 4 => withMod (X1M32.ofCode mod) (.and u h)
  | 5 => withMod (X1M32.ofCode mod) (.or u h)
  | 6 => withMod (X1M32.ofCode mod) (.xor u h)
  | 7 => withMod (X1M32.ofCode mod) (.andn u h)
  | 8 => withMod (X1M32.ofCode mod) (.shl u h)
  | 9 => withMod (X1M32.ofCode mod) (.shr u h)
  | 10 => withMod (X1M32.ofCode mod) (.sar u h)
  | 11 => withMod (X1M32.ofCode mod) (.rol u h)
  | 12 => withMod (X1M32.ofCode mod) (.min u h)
  | 13 => withMod (X1M32.ofCode mod) (.max u h)
  | 14 => withMod (X1M32.ofCode mod) (.minu u h)
  | 15 => withMod (X1M32.ofCode mod) (.maxu u h)
  | 16 => withMod (flagOf 3 mod) (.abs u h)
  | 17 => withMod (X1M32.ofCode mod) (.sel u h)
  | 18 => withMod (X1M32.ofCode mod) (.ceq u h)
  | 19 => withMod (X1M32.ofCode mod) (.cne u h)
  | 20 => withMod (X1M32.ofCode mod) (.clt u h)
  | 21 => withMod (X1M32.ofCode mod) (.cle u h)
  | 22 => withMod (X1M32.ofCode mod) (.cltu u h)
  | 23 => withMod (X1M32.ofCode mod) (.cleu u h)
  | 24 => withMod (flagOf 3 mod) (.popc u h)
  | 25 => withMod (flagOf 3 mod) (.clz u h)
  | 26 => withMod (flagOf 3 mod) (.ctz u h)
  | 27 => withMod (flagOf 3 mod) (.brev u h)
  | 28 => withMod (BfxMod.ofCode mod) (.bfx u h)
  | 29 => withMod (X1M32.ofCode mod) (.bfi u h)
  | 30 => withMod (flagOf 4 mod) (.perm u h)
  | 31 => withMod (LeaMod.ofCode mod) (.lea u h)
  | 32 => withMod (ExtWidth.ofCode mod) (.sext u h)
  | 33 => withMod (ExtWidth.ofCode mod) (.zext u h)
  | 34 => withMod (flagOf 4 mod) (.pand u h)
  | 35 => withMod (flagOf 4 mod) (.por u h)
  | 36 => withMod (noMod mod) (fun _ => .pnot u h)
  | 37 => withMod (noMod mod) (fun _ => .psure u h)
  | 38 => withMod (noMod mod) (fun _ => .poss u h)
  | 39 => withMod (noMod mod) (fun _ => .pass u h)
  | _ => .error .opcode

/-- The IMU catalogue (R121). -/
def decodeImu (h : Head) (opc mod : Nat) : Except DecodeError Instr :=
  match opc with
  | 1 => withMod (X1M32.ofCode mod) (.mul h)
  | 2 => withMod (X1M32.ofCode mod) (.mulh h)
  | 3 => withMod (X1M32.ofCode mod) (.mulhu h)
  | 4 => withMod (flagOf 3 mod) (.mad h)
  | 5 => withMod (X1M32.ofCode mod) (.mulw h)
  | 6 => withMod (X1M32.ofCode mod) (.mulwu h)
  | 7 => withMod (X1M32.ofCode mod) (.div h)
  | 8 => withMod (X1M32.ofCode mod) (.divu h)
  | 9 => withMod (X1M32.ofCode mod) (.rem h)
  | 10 => withMod (X1M32.ofCode mod) (.remu h)
  | _ => .error .opcode

/-- The FPU catalogue (R122, R123). -/
def decodeFpu (u : FpuUnit) (h : Head) (opc mod : Nat) : Except DecodeError Instr :=
  match opc with
  | 1 => withMod (FpRnd.ofCode mod) (.fadd u h)
  | 2 => withMod (FpRnd.ofCode mod) (.fsub u h)
  | 3 => withMod (FpRnd.ofCode mod) (.fmul u h)
  | 4 => withMod (FpRnd.ofCode mod) (.ffma u h)
  | 5 => withMod (FType.ofModCode mod) (.fmin u h)
  | 6 => withMod (FType.ofModCode mod) (.fmax u h)
  | 7 => withMod (FpRel.ofCode mod) (.fcmp u h)
  | 8 => withMod (FType.ofModCode mod) (.fclass u h)
  | 9 => withMod (FpRnd.ofCode mod) (.fcvt u h)
  | 10 => withMod (FpInt.ofCode mod) (.fcvti u h)
  | 11 => withMod (FpInt.ofCode mod) (.icvtf u h)
  | 12 => withMod (FpRnd.ofCode mod) (.frnd u h)
  | 13 => withMod (FpSgn.ofCode mod) (.fsgn u h)
  | 16 => withMod (noMod mod) (fun _ => .ivadd u h)
  | 17 => withMod (noMod mod) (fun _ => .ivsub u h)
  | 18 => withMod (noMod mod) (fun _ => .ivmul u h)
  | 19 => withMod (noMod mod) (fun _ => .ivfma u h)
  | 20 => withMod (noMod mod) (fun _ => .ivsqr u h)
  | 21 => withMod (noMod mod) (fun _ => .ivhull u h)
  | 22 => withMod (noMod mod) (fun _ => .ivmeet u h)
  | 23 => withMod (noMod mod) (fun _ => .ivmid u h)
  | 24 => withMod (noMod mod) (fun _ => .ivwid u h)
  | 25 => withMod (Rel.ofModCode mod) (.ivcmp u h)
  | 26 => withMod (noMod mod) (fun _ => .ivmake u h)
  | 27 => withMod (noMod mod) (fun _ => .ivlo u h)
  | 28 => withMod (noMod mod) (fun _ => .ivhi u h)
  | 29 => withMod (noMod mod) (fun _ => .ivbis u h)
  | 30 => withMod (noMod mod) (fun _ => .ivabs u h)
  | 31 => withMod (noMod mod) (fun _ => .ivin u h)
  | _ => .error .opcode

/-- The XFU catalogue (R124, R125). -/
def decodeXfu (h : Head) (opc mod : Nat) : Except DecodeError Instr :=
  match opc with
  | 1 => withMod (XType.ofCode mod) (.rcp h)
  | 2 => withMod (XType.ofCode mod) (.rsq h)
  | 3 => withMod (XType.ofCode mod) (.sqrt h)
  | 4 => withMod (XType.ofCode mod) (.exp2 h)
  | 5 => withMod (XType.ofCode mod) (.log2 h)
  | 6 => withMod (XType.ofCode mod) (.sin h)
  | 7 => withMod (XType.ofCode mod) (.cos h)
  | 8 => withMod (XType.ofCode mod) (.tanh h)
  | 9 => withMod (noMod mod) (fun _ => .ivrcp h)
  | 10 => withMod (noMod mod) (fun _ => .ivsqrt h)
  | 11 => withMod (noMod mod) (fun _ => .ivexp2 h)
  | 12 => withMod (noMod mod) (fun _ => .ivlog2 h)
  | 13 => withMod (CvtnMod.ofCode mod) (.cvtn h)
  | 14 => withMod (NFmt.ofCode mod) (.cvtw h)
  | 15 => withMod (noMod mod) (fun _ => .shfi h)
  | 16 => withMod (flagOf 0 mod) (.shup h)
  | 17 => withMod (flagOf 0 mod) (.shdn h)
  | 18 => withMod (noMod mod) (fun _ => .shxr h)
  | 19 => withMod (VoteKind.ofCode mod) (.vote h)
  | 20 => withMod (noMod mod) (fun _ => .ballot h)
  | 21 => withMod (flagOf 3 mod) (.rdsum h)
  | 22 => withMod (MaxMod.ofCode mod) (.rdmax h)
  | 23 => withMod (RdfMod.ofCode mod) (.rdfsum h)
  | _ => .error .opcode

/-- The LSU catalogue (R126, R127). -/
def decodeLsu (u : LsuUnit) (h : Head) (opc mod : Nat) : Except DecodeError Instr :=
  match opc with
  | 1 => withMod (LdMod.ofCode mod) (.ld u h)
  | 2 => withMod (LdMod.ofCode mod) (.lds u h)
  | 3 => withMod (LdpMod.ofCode mod) (.ldp u h)
  | 4 => withMod (LdMod.ofCode mod) (.st u h)
  | 5 => withMod (LdpMod.ofCode mod) (.stp u h)
  | 6 => withMod (LdxMod.ofCode mod) (.ldx u h)
  | 7 => withMod (LdaMod.ofCode mod) (.lda u h)
  | 8 => withMod (LdaMod.ofCode mod) (.stl u h)
  | 9 => withMod (LdpMod.ofCode mod) (.ldiv u h)
  | 10 => withMod (LdpMod.ofCode mod) (.stiv u h)
  | 11 => withMod (AtomMod.ofCode mod) (.aadd u h)
  | 12 => withMod (AtomMod.ofCode mod) (.amin u h)
  | 13 => withMod (AtomMod.ofCode mod) (.amax u h)
  | 14 => withMod (AtomMod.ofCode mod) (.aminu u h)
  | 15 => withMod (AtomMod.ofCode mod) (.amaxu u h)
  | 16 => withMod (AtomMod.ofCode mod) (.aand u h)
  | 17 => withMod (AtomMod.ofCode mod) (.aor u h)
  | 18 => withMod (AtomMod.ofCode mod) (.axor u h)
  | 19 => withMod (AtomMod.ofCode mod) (.axchg u h)
  | 20 => withMod (AtomMod.ofCode mod) (.acas u h)
  | 21 => withMod (Acas2Mod.ofCode mod) (.acas2 u h)
  | 22 => withMod (AtomMod.ofCode mod) (.afadd u h)
  | 23 => withMod (noMod mod) (fun _ => .qsync u h)
  | 24 => withMod (flagOf 4 mod) (.pref u h)
  | _ => .error .opcode

/-- The BRU catalogue (R128). -/
def decodeBru (h : Head) (opc mod : Nat) : Except DecodeError Instr :=
  match opc with
  | 1 => withMod (noMod mod) (fun _ => .br h)
  | 2 => withMod (noMod mod) (fun _ => .bri h)
  | 3 => withMod (noMod mod) (fun _ => .call h)
  | 4 => withMod (noMod mod) (fun _ => .ret h)
  | 5 => withMod (ERule.ofCode mod) (.brp h)
  | 6 => withMod (noMod mod) (fun _ => .brp3 h)
  | 7 => withMod (ERule.ofCode mod) (.brany h)
  | 8 => withMod (ERule.ofCode mod) (.brall h)
  | 9 => withMod (noMod mod) (fun _ => .loop h)
  | 10 => withMod (noMod mod) (fun _ => .lbrk h)
  | 11 => withMod (noMod mod) (fun _ => .exit h)
  | 12 => withMod (noMod mod) (fun _ => .yield h)
  | _ => .error .opcode

/-- The MXE catalogue (R129). -/
def decodeMxe (h : Head) (opc mod : Nat) : Except DecodeError Instr :=
  match opc with
  | 1 => withMod (MmaMod.ofCode mod) (.mma h)
  | 2 => withMod (MmaMod.ofCode mod) (.mmab h)
  | 3 => withMod (MmaMod.ofCode mod) (.mmai h)
  | 4 => withMod (MxfMod.ofCode mod) (.mxzero h)
  | 5 => withMod (tileOf mod) (.mxdrain h)
  | 6 => withMod (tileOf mod) (.mxred h)
  | 7 => withMod (MxfMod.ofCode mod) (.mxld h)
  | 8 => withMod (tileOf mod) (.mxst h)
  | 9 => withMod (tileOf mod) (.mxrel h)
  | _ => .error .opcode

/-- The CFE catalogue (R130). -/
def decodeCfe (h : Head) (opc mod : Nat) : Except DecodeError Instr :=
  match opc with
  | 1 => withMod (limbOf mod) (.cpack h)
  | 2 => withMod (limbOf mod) (.cpackv h)
  | 3 => withMod (limbOf mod) (.cmul h)
  | 4 => withMod (limbOf mod) (.cmac h)
  | 5 => withMod (limbOf mod) (.csqr h)
  | 6 => withMod (limbOf mod) (.cadd h)
  | 7 => withMod (limbOf mod) (.csub h)
  | 8 => withMod (limbOf mod) (.cshl h)
  | 9 => withMod (noMod mod) (fun _ => .cext h)
  | 10 => withMod (noMod mod) (fun _ => .cextv h)
  | 11 => withMod (noMod mod) (fun _ => .cgw h)
  | 12 => withMod (limbOf mod) (.cclr h)
  | 13 => withMod (limbOf mod) (.cbig h)
  | _ => .error .opcode

/-- The CPY catalogue (R131). -/
def decodeCpy (h : Head) (opc mod : Nat) : Except DecodeError Instr :=
  match opc with
  | 1 => withMod (CpyMod.ofCode mod) (.dcopy h)
  | 2 => withMod (CpyMod.ofCode mod) (.dfill h)
  | 3 => withMod (CpyMod.ofCode mod) (.dgath h)
  | 4 => withMod (CpyMod.ofCode mod) (.dscat h)
  | 5 => withMod (flagOf 2 mod) (.dstat h)
  | _ => .error .opcode

/-- The SYN catalogue (R134). -/
def decodeSyn (h : Head) (opc mod : Nat) : Except DecodeError Instr :=
  match opc with
  | 1 => withMod (BarLevel.ofCode mod) (.bar h)
  | 2 => withMod (BarLevel.ofCode mod) (.bara h)
  | 3 => withMod (BarLevel.ofCode mod) (.barw h)
  | 4 => withMod (noMod mod) (fun _ => .boinit h)
  | 5 => withMod (flagOf 0 mod) (.boarr h)
  | 6 => withMod (noMod mod) (fun _ => .boexp h)
  | 7 => withMod (noMod mod) (fun _ => .bowait h)
  | 8 => withMod (flagOf 0 mod) (.botest h)
  | 9 => withMod (noMod mod) (fun _ => .boinv h)
  | _ => .error .opcode

/-- The SYS catalogue (R135). -/
def decodeSys (h : Head) (opc mod : Nat) : Except DecodeError Instr :=
  match opc with
  | 1 => withMod (FenceMod.ofCode mod) (.fence h)
  | 2 => withMod (Scope.ofModCode mod) (.acq h)
  | 3 => withMod (Scope.ofModCode mod) (.rel h)
  | 4 => withMod (noMod mod) (fun _ => .trap h)
  | 5 => withMod (noMod mod) (fun _ => .brk h)
  | 6 => withMod (noMod mod) (fun _ => .csrrd h)
  | 7 => withMod (noMod mod) (fun _ => .csrwr h)
  | 8 => withMod (noMod mod) (fun _ => .launch h)
  | 9 => withMod (noMod mod) (fun _ => .lwait h)
  | 10 => withMod (noMod mod) (fun _ => .ivspawn h)
  | 11 => withMod (noMod mod) (fun _ => .svc h)
  | 12 => withMod (noMod mod) (fun _ => .tstamp h)
  | 13 => withMod (noMod mod) (fun _ => .yields h)
  | _ => .error .opcode

/-- The operation that a unit's opcode and modifier name (R117: units that share a catalogue decode alike). -/
def decodeOp (u : FUnit) (h : Head) (opc mod : Nat) : Except DecodeError Instr :=
  match u with
  | .ala => decodeAlu .ala h opc mod
  | .alb => decodeAlu .alb h opc mod
  | .imu => decodeImu h opc mod
  | .fpa => decodeFpu .fpa h opc mod
  | .fpb => decodeFpu .fpb h opc mod
  | .xfu => decodeXfu h opc mod
  | .lsa => decodeLsu .lsa h opc mod
  | .lsb => decodeLsu .lsb h opc mod
  | .sal => decodeAlu .sal h opc mod
  | .bru => decodeBru h opc mod
  | .mxe => decodeMxe h opc mod
  | .cfe => decodeCfe h opc mod
  | .cpy => decodeCpy h opc mod
  | .syn => decodeSyn h opc mod
  | .sys => decodeSys h opc mod

/-- The operation that a trigger move starts (R63, R95, R117). -/
def decodeMove (m : Move) : Except DecodeError Instr :=
  match Guard.ofBits m.sense.toNat m.pred.toNat with
  | none => .error .guardCode
  | some g =>
    match unitOfT m.dst.toNat with
    | none => .error .notTrigger
    | some u => decodeOp u ⟨g, m.src, m.uni⟩ m.opc.toNat m.mod.toNat

/-! ## Bundles -/

/-- The size of a bundle by FMT (R92). -/
def sizeOfFmt (fmt : Nat) : Nat := if fmt = 0 ∨ fmt = 2 then 32 else 16

/-- Slot `k` of a bundle whose slots start at bit `lo`, with its UNI bit at `3 + k` (R94, R102). -/
def slotAt (n lo k : Nat) : Move := Move.ofWord (bits n (lo + 38 * k) 38) (bitAt n (3 + k))

/-- The wide bundle (R94). -/
def decodeWide (n : Nat) : Except DecodeError Instr :=
  if bits n 14 14 ≠ 0 then .error .reservedHeader
  else .ok (.bundleIssue ⟨.wide, BitVec.ofNat 4 (bits n 10 4), bitAt n 9, bitAt n 2,
    [slotAt n 28 0, slotAt n 28 1, slotAt n 28 2, slotAt n 28 3, slotAt n 28 4, slotAt n 28 5]⟩)

/-- The wide long-immediate bundle (R94, R100). -/
def decodeLimm (n : Nat) : Except DecodeError Instr :=
  if bits n 14 14 ≠ 0 then .error .reservedHeader
  else if bits n 252 4 ≠ 0 ∨ bitAt n 8 then .error .slotFive
  else .ok (.bundleIssue ⟨.wideLimm (BitVec.ofNat 2 (bits n 250 2)) (BitVec.ofNat 32 (bits n 218 32)),
    BitVec.ofNat 4 (bits n 10 4), bitAt n 9, bitAt n 2,
    [slotAt n 28 0, slotAt n 28 1, slotAt n 28 2, slotAt n 28 3, slotAt n 28 4]⟩)

/-- The narrow bundle (R102). -/
def decodeNarrow (n : Nat) : Except DecodeError Instr :=
  if bits n 11 3 ≠ 0 then .error .reservedHeader
  else .ok (.bundleIssue ⟨.narrow, BitVec.ofNat 4 (bits n 7 4), bitAt n 6, bitAt n 2,
    [slotAt n 14 0, slotAt n 14 1, slotAt n 14 2]⟩)

/-- The marker bundle (R103). -/
def decodeMarker (n : Nat) : Except DecodeError Instr :=
  if bits n 88 40 ≠ 0 ∨ bits n 14 10 ≠ 0 ∨ bits n 3 6 ≠ 0 then .error .reservedHeader
  else .ok (.markerBundle ⟨BitVec.ofNat 8 (bits n 80 8), BitVec.ofNat 16 (bits n 64 16), BitVec.ofNat 40 (bits n 24 40),
    BitVec.ofNat 4 (bits n 10 4), bitAt n 9, bitAt n 2⟩)

/-- The bundle whose bits are the number `n` (R92). -/
def decodeNat (n : Nat) : Except DecodeError Instr :=
  match n % 4 with
  | 0 => decodeWide n
  | 1 => decodeMarker n
  | 2 => decodeLimm n
  | _ => decodeNarrow n

/-- The bundle at the head of a code stream (R92). -/
def decode (bs : List Byte) : Except DecodeError Instr :=
  let size := sizeOfFmt (leNat (bs.take 1) % 4)
  if bs.length < size then .error .truncated else decodeNat (leNat (bs.take size))

/-- The decoder on a word numbered as the opcode table numbers it. A move is 38 bits with the UNI bit of its slot above
them, in 5 bytes; more bits are a bundle. -/
def decodeTableWord (nbits w : Nat) : Option Instr :=
  if nbits ≤ 40 then
    if w < 2 ^ 39 then (decodeMove (Move.ofWord (w % 2 ^ 38) (bitAt w 38))).toOption else none
  else (decode (leBytes 32 w)).toOption

/-! ## The encoder -/

/-- Unit, head, opcode and modifier of an operation (R117 to R135); none for an event. -/
def Instr.aux : Instr → Option (FUnit × Head × Nat × Nat)
  | .add u h x => some (u.unit, h, 1, x.code)
  | .sub u h x => some (u.unit, h, 2, x.code)
  | .rsub u h x => some (u.unit, h, 3, x.code)
  | .and u h x => some (u.unit, h, 4, x.code)
  | .or u h x => some (u.unit, h, 5, x.code)
  | .xor u h x => some (u.unit, h, 6, x.code)
  | .andn u h x => some (u.unit, h, 7, x.code)
  | .shl u h x => some (u.unit, h, 8, x.code)
  | .shr u h x => some (u.unit, h, 9, x.code)
  | .sar u h x => some (u.unit, h, 10, x.code)
  | .rol u h x => some (u.unit, h, 11, x.code)
  | .min u h x => some (u.unit, h, 12, x.code)
  | .max u h x => some (u.unit, h, 13, x.code)
  | .minu u h x => some (u.unit, h, 14, x.code)
  | .maxu u h x => some (u.unit, h, 15, x.code)
  | .abs u h x => some (u.unit, h, 16, flagCode 3 x)
  | .sel u h x => some (u.unit, h, 17, x.code)
  | .ceq u h x => some (u.unit, h, 18, x.code)
  | .cne u h x => some (u.unit, h, 19, x.code)
  | .clt u h x => some (u.unit, h, 20, x.code)
  | .cle u h x => some (u.unit, h, 21, x.code)
  | .cltu u h x => some (u.unit, h, 22, x.code)
  | .cleu u h x => some (u.unit, h, 23, x.code)
  | .popc u h x => some (u.unit, h, 24, flagCode 3 x)
  | .clz u h x => some (u.unit, h, 25, flagCode 3 x)
  | .ctz u h x => some (u.unit, h, 26, flagCode 3 x)
  | .brev u h x => some (u.unit, h, 27, flagCode 3 x)
  | .bfx u h x => some (u.unit, h, 28, x.code)
  | .bfi u h x => some (u.unit, h, 29, x.code)
  | .perm u h x => some (u.unit, h, 30, flagCode 4 x)
  | .lea u h x => some (u.unit, h, 31, x.code)
  | .sext u h x => some (u.unit, h, 32, x.code)
  | .zext u h x => some (u.unit, h, 33, x.code)
  | .pand u h x => some (u.unit, h, 34, flagCode 4 x)
  | .por u h x => some (u.unit, h, 35, flagCode 4 x)
  | .pnot u h => some (u.unit, h, 36, 0)
  | .psure u h => some (u.unit, h, 37, 0)
  | .poss u h => some (u.unit, h, 38, 0)
  | .pass u h => some (u.unit, h, 39, 0)
  | .mul h x => some (.imu, h, 1, x.code)
  | .mulh h x => some (.imu, h, 2, x.code)
  | .mulhu h x => some (.imu, h, 3, x.code)
  | .mad h x => some (.imu, h, 4, flagCode 3 x)
  | .mulw h x => some (.imu, h, 5, x.code)
  | .mulwu h x => some (.imu, h, 6, x.code)
  | .div h x => some (.imu, h, 7, x.code)
  | .divu h x => some (.imu, h, 8, x.code)
  | .rem h x => some (.imu, h, 9, x.code)
  | .remu h x => some (.imu, h, 10, x.code)
  | .fadd u h x => some (u.unit, h, 1, x.code)
  | .fsub u h x => some (u.unit, h, 2, x.code)
  | .fmul u h x => some (u.unit, h, 3, x.code)
  | .ffma u h x => some (u.unit, h, 4, x.code)
  | .fmin u h x => some (u.unit, h, 5, x.modCode)
  | .fmax u h x => some (u.unit, h, 6, x.modCode)
  | .fcmp u h x => some (u.unit, h, 7, x.code)
  | .fclass u h x => some (u.unit, h, 8, x.modCode)
  | .fcvt u h x => some (u.unit, h, 9, x.code)
  | .fcvti u h x => some (u.unit, h, 10, x.code)
  | .icvtf u h x => some (u.unit, h, 11, x.code)
  | .frnd u h x => some (u.unit, h, 12, x.code)
  | .fsgn u h x => some (u.unit, h, 13, x.code)
  | .ivadd u h => some (u.unit, h, 16, 0)
  | .ivsub u h => some (u.unit, h, 17, 0)
  | .ivmul u h => some (u.unit, h, 18, 0)
  | .ivfma u h => some (u.unit, h, 19, 0)
  | .ivsqr u h => some (u.unit, h, 20, 0)
  | .ivhull u h => some (u.unit, h, 21, 0)
  | .ivmeet u h => some (u.unit, h, 22, 0)
  | .ivmid u h => some (u.unit, h, 23, 0)
  | .ivwid u h => some (u.unit, h, 24, 0)
  | .ivcmp u h x => some (u.unit, h, 25, x.modCode)
  | .ivmake u h => some (u.unit, h, 26, 0)
  | .ivlo u h => some (u.unit, h, 27, 0)
  | .ivhi u h => some (u.unit, h, 28, 0)
  | .ivbis u h => some (u.unit, h, 29, 0)
  | .ivabs u h => some (u.unit, h, 30, 0)
  | .ivin u h => some (u.unit, h, 31, 0)
  | .rcp h x => some (.xfu, h, 1, x.code)
  | .rsq h x => some (.xfu, h, 2, x.code)
  | .sqrt h x => some (.xfu, h, 3, x.code)
  | .exp2 h x => some (.xfu, h, 4, x.code)
  | .log2 h x => some (.xfu, h, 5, x.code)
  | .sin h x => some (.xfu, h, 6, x.code)
  | .cos h x => some (.xfu, h, 7, x.code)
  | .tanh h x => some (.xfu, h, 8, x.code)
  | .ivrcp h => some (.xfu, h, 9, 0)
  | .ivsqrt h => some (.xfu, h, 10, 0)
  | .ivexp2 h => some (.xfu, h, 11, 0)
  | .ivlog2 h => some (.xfu, h, 12, 0)
  | .cvtn h x => some (.xfu, h, 13, x.code)
  | .cvtw h x => some (.xfu, h, 14, x.code)
  | .shfi h => some (.xfu, h, 15, 0)
  | .shup h x => some (.xfu, h, 16, flagCode 0 x)
  | .shdn h x => some (.xfu, h, 17, flagCode 0 x)
  | .shxr h => some (.xfu, h, 18, 0)
  | .vote h x => some (.xfu, h, 19, x.code)
  | .ballot h => some (.xfu, h, 20, 0)
  | .rdsum h x => some (.xfu, h, 21, flagCode 3 x)
  | .rdmax h x => some (.xfu, h, 22, x.code)
  | .rdfsum h x => some (.xfu, h, 23, x.code)
  | .ld u h x => some (u.unit, h, 1, x.code)
  | .lds u h x => some (u.unit, h, 2, x.code)
  | .ldp u h x => some (u.unit, h, 3, x.code)
  | .st u h x => some (u.unit, h, 4, x.code)
  | .stp u h x => some (u.unit, h, 5, x.code)
  | .ldx u h x => some (u.unit, h, 6, x.code)
  | .lda u h x => some (u.unit, h, 7, x.code)
  | .stl u h x => some (u.unit, h, 8, x.code)
  | .ldiv u h x => some (u.unit, h, 9, x.code)
  | .stiv u h x => some (u.unit, h, 10, x.code)
  | .aadd u h x => some (u.unit, h, 11, x.code)
  | .amin u h x => some (u.unit, h, 12, x.code)
  | .amax u h x => some (u.unit, h, 13, x.code)
  | .aminu u h x => some (u.unit, h, 14, x.code)
  | .amaxu u h x => some (u.unit, h, 15, x.code)
  | .aand u h x => some (u.unit, h, 16, x.code)
  | .aor u h x => some (u.unit, h, 17, x.code)
  | .axor u h x => some (u.unit, h, 18, x.code)
  | .axchg u h x => some (u.unit, h, 19, x.code)
  | .acas u h x => some (u.unit, h, 20, x.code)
  | .acas2 u h x => some (u.unit, h, 21, x.code)
  | .afadd u h x => some (u.unit, h, 22, x.code)
  | .qsync u h => some (u.unit, h, 23, 0)
  | .pref u h x => some (u.unit, h, 24, flagCode 4 x)
  | .br h => some (.bru, h, 1, 0)
  | .bri h => some (.bru, h, 2, 0)
  | .call h => some (.bru, h, 3, 0)
  | .ret h => some (.bru, h, 4, 0)
  | .brp h x => some (.bru, h, 5, x.code)
  | .brp3 h => some (.bru, h, 6, 0)
  | .brany h x => some (.bru, h, 7, x.code)
  | .brall h x => some (.bru, h, 8, x.code)
  | .loop h => some (.bru, h, 9, 0)
  | .lbrk h => some (.bru, h, 10, 0)
  | .exit h => some (.bru, h, 11, 0)
  | .yield h => some (.bru, h, 12, 0)
  | .mma h x => some (.mxe, h, 1, x.code)
  | .mmab h x => some (.mxe, h, 2, x.code)
  | .mmai h x => some (.mxe, h, 3, x.code)
  | .mxzero h x => some (.mxe, h, 4, x.code)
  | .mxdrain h x => some (.mxe, h, 5, x.val)
  | .mxred h x => some (.mxe, h, 6, x.val)
  | .mxld h x => some (.mxe, h, 7, x.code)
  | .mxst h x => some (.mxe, h, 8, x.val)
  | .mxrel h x => some (.mxe, h, 9, x.val)
  | .cpack h x => some (.cfe, h, 1, x.val)
  | .cpackv h x => some (.cfe, h, 2, x.val)
  | .cmul h x => some (.cfe, h, 3, x.val)
  | .cmac h x => some (.cfe, h, 4, x.val)
  | .csqr h x => some (.cfe, h, 5, x.val)
  | .cadd h x => some (.cfe, h, 6, x.val)
  | .csub h x => some (.cfe, h, 7, x.val)
  | .cshl h x => some (.cfe, h, 8, x.val)
  | .cext h => some (.cfe, h, 9, 0)
  | .cextv h => some (.cfe, h, 10, 0)
  | .cgw h => some (.cfe, h, 11, 0)
  | .cclr h x => some (.cfe, h, 12, x.val)
  | .cbig h x => some (.cfe, h, 13, x.val)
  | .dcopy h x => some (.cpy, h, 1, x.code)
  | .dfill h x => some (.cpy, h, 2, x.code)
  | .dgath h x => some (.cpy, h, 3, x.code)
  | .dscat h x => some (.cpy, h, 4, x.code)
  | .dstat h x => some (.cpy, h, 5, flagCode 2 x)
  | .bar h x => some (.syn, h, 1, x.code)
  | .bara h x => some (.syn, h, 2, x.code)
  | .barw h x => some (.syn, h, 3, x.code)
  | .boinit h => some (.syn, h, 4, 0)
  | .boarr h x => some (.syn, h, 5, flagCode 0 x)
  | .boexp h => some (.syn, h, 6, 0)
  | .bowait h => some (.syn, h, 7, 0)
  | .botest h x => some (.syn, h, 8, flagCode 0 x)
  | .boinv h => some (.syn, h, 9, 0)
  | .fence h x => some (.sys, h, 1, x.code)
  | .acq h x => some (.sys, h, 2, x.modCode)
  | .rel h x => some (.sys, h, 3, x.modCode)
  | .trap h => some (.sys, h, 4, 0)
  | .brk h => some (.sys, h, 5, 0)
  | .csrrd h => some (.sys, h, 6, 0)
  | .csrwr h => some (.sys, h, 7, 0)
  | .launch h => some (.sys, h, 8, 0)
  | .lwait h => some (.sys, h, 9, 0)
  | .ivspawn h => some (.sys, h, 10, 0)
  | .svc h => some (.sys, h, 11, 0)
  | .tstamp h => some (.sys, h, 12, 0)
  | .yields h => some (.sys, h, 13, 0)
  | .bundleIssue _ => none
  | .markerBundle _ => none
  | .resultLanding _ _ _ => none
  | .loadPerformed _ _ => none
  | .divideComplete _ _ => none
  | .storePerformedAtL1 _ _ => none
  | .storePerformedAtHome _ => none
  | .homeInvalidation _ _ => none
  | .l2LineEviction _ => none
  | .xpcfgWrite _ => none
  | .bankFormatWrite _ => none
  | .commandIssue _ _ => none
  | .reservationGrant _ => none
  | .operandsConsumed _ _ => none
  | .commandCompletion _ _ => none
  | .statusLanding _ _ => none
  | .byteArrival _ => none
  | .bowaitTimeout _ => none
  | .roundClose _ _ _ => none
  | .groupArrival _ => none
  | .roundFailure _ _ _ => none
  | .lateCauseStop _ => none
  | .commandCancel _ _ => none
  | .commandResume _ _ => none
  | .faultHandling _ => none
  | .emulation _ => none
  | .resumedBundle _ => none
  | .debuggerResume _ => none
  | .debuggerSkip _ => none
  | .debuggerTerminate _ => none
  | .watchdog _ => none
  | .softErrorCorrected _ => none
  | .uncorrectable _ => none
  | .sampleRecord _ _ _ _ => none
  | .svcAnswer _ _ => none
  | .launchSubmission _ _ _ => none
  | .launchAcceptance _ => none
  | .spawnedLaunch _ => none
  | .dispatchBatch _ => none
  | .workgroupStart _ => none
  | .sheetExit _ => none
  | .gridRetire _ => none
  | .gridTermination _ => none
  | .functionLevelReset _ => none
  | .scrubStart _ _ => none
  | .scrubComplete _ _ => none
  | .classGRequest _ => none
  | .graphBoundaryStop _ => none
  | .classGEscalation _ => none
  | .classDRequest _ => none
  | .drainPointStop _ => none
  | .forcedStopDeadline _ => none
  | .contextSave _ _ => none
  | .contextRestore _ => none
  | .redirectedRequest _ => none
  | .discardedRequest _ => none
  | .contextKill _ => none
  | .pageWalk _ _ _ => none
  | .pageRequestEnqueue _ => none
  | .pageRequestMapped _ _ _ => none
  | .pageRequestRefused _ _ _ => none
  | .translationInvalidation _ _ => none
  | .partitionTableWrite _ _ _ => none
  | .coreAssignmentWrite _ _ _ => none
  | .coreAssignmentEffect _ => none
  | .vfAssignmentWrite _ _ _ => none
  | .reductionGroupWrite _ _ _ _ => none
  | .pinRelease _ => none
  | .managementRegisterWrite _ _ _ => none
  | .memoryRequestArrival _ _ _ _ => none
  | .memoryRequestServe _ => none
  | .networkSectorGrant _ => none
  | .refillPeriodEnd _ => none
  | .budgetPeriod => none
  | .powerLimitMeasures _ => none
  | .pairBalance _ _ _ => none
  | .boostLeaseRequest _ _ _ _ => none
  | .leaseExpiry _ => none
  | .leaseRetry _ => none
  | .voltageVote _ _ _ => none
  | .clockStepConfirm _ => none
  | .railFall _ => none
  | .counterRead _ _ _ => none
  | .counterLowRead _ _ _ => none
  | .counterHighRead _ _ _ => none
  | .pcselWrite _ _ _ => none
  | .ringDescriptorWrite _ _ _ _ => none
  | .ringReadAdvance _ _ _ => none
  | .policySubmit _ _ => none
  | .lerrRead _ => none
  | .irqstWrite _ _ => none
  | .semaphoreRead _ _ _ => none
  | .semaphoreRelease _ _ => none
  | .portLinkDown _ => none
  | .linkTraining _ _ => none
  | .hostPostedWrite _ _ _ => none
  | .hostRead _ _ _ => none
  | .linkFailure _ _ => none
  | .precopyGo _ _ => none
  | .precopyRound _ => none
  | .precopyFinal _ => none
  | .pageMessageReceive _ _ => none
  | .imageMessageReceive _ _ => none
  | .deviceReset => none
  | .peerDeviceRequest _ => none
  | .hostStoreToCoherentMapping _ _ _ => none
  | .railSettled _ => none
  | .counterWindowEnd _ _ => none

/-- The trigger move of an operation (R95). -/
def Instr.move (i : Instr) : Option Move :=
  i.aux.map (fun (u, h, opc, mod) =>
    { sense := BitVec.ofNat 2 h.guard.sense, pred := BitVec.ofNat 4 h.guard.pred, dst := BitVec.ofNat 10 u.tPort,
      src := h.src, opc := BitVec.ofNat 7 opc, mod := BitVec.ofNat 5 mod, uni := h.uni })

/-- The slots of a bundle as one number, slot 0 lowest. -/
def slotsWord : List Move → Nat
  | [] => 0
  | m :: ms => m.word + 2 ^ 38 * slotsWord ms

/-- The UNI bits of a bundle's slots, slot 0 lowest. -/
def uniWord : List Move → Nat
  | [] => 0
  | m :: ms => ofBool m.uni + 2 * uniWord ms

/-- The bits of a move bundle (R94, R100, R102). -/
def Bundle.word (b : Bundle) : Nat :=
  match b.format with
  | .narrow =>
    3 + 4 * ofBool b.dp + 8 * uniWord b.slots + 64 * ofBool b.le + 128 * b.stall.toNat + 2 ^ 14 * slotsWord b.slots
  | .wide =>
    4 * ofBool b.dp + 8 * uniWord b.slots + 512 * ofBool b.le + 1024 * b.stall.toNat + 2 ^ 28 * slotsWord b.slots
  | .wideLimm mode c =>
    2 + 4 * ofBool b.dp + 8 * uniWord b.slots + 512 * ofBool b.le + 1024 * b.stall.toNat
      + 2 ^ 28 * slotsWord b.slots + 2 ^ 218 * c.toNat + 2 ^ 250 * mode.toNat

/-- The bits of a marker bundle (R103). -/
def Marker.word (m : Marker) : Nat :=
  1 + 4 * ofBool m.dp + 512 * ofBool m.le + 1024 * m.stall.toNat + 2 ^ 24 * m.ecyc.toNat + 2 ^ 64 * m.mark.toNat
    + 2 ^ 80 * m.thresh.toNat

/-- Bytes of a format (R92). -/
def Format.size : Format → Nat
  | .narrow => 16
  | .wide => 32
  | .wideLimm _ _ => 32

/-- The words of an instruction: the bytes of a bundle, or of an operation's move with its UNI bit above; none for an
event, which no word encodes. -/
def encode (i : Instr) : Option (List Byte) :=
  match i with
  | .bundleIssue b => some (leBytes b.format.size b.word)
  | .markerBundle m => some (leBytes 16 m.word)
  | _ => i.move.map (fun m => leBytes 5 (m.word + 2 ^ 38 * ofBool m.uni))

end Sys2Proof
end

