-- ==== Sys2Proof/Machine/State.lean ====
section
/-! DEFINITION. The state of the machine as plain data, everything the spec names, and its value right after reset.
INVENTORY.md lists every field with its rule; a sparse map lists only the places that differ from the value named in
the field's comment. Sheets are keyed by `sid = core * 16 + context`, cores by their identifier (R17). -/

namespace Sys2Proof.Machine

/-- Why the machine cannot take a step. -/
inductive Fault where
  /-- Raised by `exec` for an event label that names a unit, register or format the device does not have (a core at or
  above 1,536, a partition at or above 40, and so on): no such step exists. Safe: no hardware step is lost. -/
  | noSuchUnit
  deriving DecidableEq, Repr

/-- Why an instruction has no meaning here. -/
inductive Refusal where
  /-- Raised by an arm of `exec` whose instruction has no meaning yet. Safe: nothing can be proved of such a step. -/
  | notModelled (mnemonic : String)
  deriving DecidableEq, Repr

/-- The causes of R278; `none` is code 0, success. -/
inductive Cause where
  | none | bundleIllegal | moveIllegal | opUnassigned | opRetired | opAbsent | translation | protection | alignment
  | spaceBounds | guardStatic | guardData | intervalEmpty | fpEnabled | intDivide | barrierOverrun | nestDepth
  | atomicUnsupported | undecidedBranch | divergeDepth | breakpoint | softwareTrap | engineError | uncorrectable
  | spawnOverflow | watchdog
  deriving DecidableEq, Repr

/-! ## Sheets -/

/-- One level of the divergence stack (R78). -/
structure Level where
  jpc : Option W64
  jmask : Mask
  orcv : Option W64
  p1 : Option (W64 × Mask)
  p2 : Option (W64 × Mask)
  deriving DecidableEq, Repr

/-- A running loop nest (R81 to R83): address and bundle of each body position as first fetched, body length, trip
counts, indices, position in the body, address after the body once it is known. -/
structure Nest where
  buf : List (W64 × Instr)
  len : Nat
  counts : List Nat
  ix : List Nat
  pos : Nat
  deriving DecidableEq, Repr

/-- A result on its way to a latch (R70, R71, R401): `q` and `w` once known; an exposed result lands by cycle `due`. -/
structure Flight where
  unit : FUnit
  thread : Nat
  id : Nat
  q : Option W64
  w : Option W64
  ready : Bool
  stalling : Bool
  /-- its class is interlocked for this kernel (R72) -/
  inter : Bool
  due : Nat
  deriving DecidableEq, Repr

/-- The kinds of accesses and ordering operations in a sheet's queues (R198, R208). -/
inductive AccKind where
  | load
  | store
  | atomic (op : RmwOp) (dbl : Bool)
  | cas2
  | order
  deriving DecidableEq, Repr

/-- How a loaded value becomes a register value (R427 to R430). -/
inductive LoadForm where
  | zext | sext | pair | ldiv
  | field (start width : Nat) (sgn : Bool)
  deriving DecidableEq, Repr

/-- What a check that fails reports: the cause, its INFO (R285) and the address that failed. -/
structure Flt where
  cause : Cause
  info : Nat
  addr : W64
  deriving DecidableEq, Repr

/-- The atomic step on which the commit of a move waits (R481, R423): its operands as the bundle left them. -/
inductive StepKind where
  | boinit (expect : Nat)
  | boarr (n : Nat)
  | boexp (bytes : Nat)
  | boinv
  /-- IVSPAWN: header address, entries to append, grid -/
  | spawn (header : W64) (entries : List (List Byte)) (grid : Nat)
  deriving DecidableEq, Repr

/-- What an ordering operation does when it completes (R208, R209), `id` naming the result that it delivers. -/
inductive OrdAction where
  | nothing
  | deliver (id : Nat) (v : W64)
  /-- its value is not known yet: LWAIT (R433), BOWAIT that waits (R264), BOTEST at a saved peer (R268) -/
  | held (id : Nat)
  /-- BARA, and the first half of BAR: the arrival after its release (R257) -/
  | arrive (lvl : BarLevel) (num id : Nat) (wait : Bool)
  /-- BARW, and the second half of BAR: the acquire after the end of the phase (R257) -/
  | await (lvl : BarLevel) (num id : Nat)
  /-- BOWAIT before it has read its object (R264): offset, phase, timeout -/
  | bowait (off ph timeout id : Nat)
  /-- BOTEST before it has read its object: workgroup and offset, whether by `.peer` -/
  | botest (peer : Bool) (wg off id : Nat)
  /-- a step on which the commit of the move in a slot waits: workgroup and offset of the object -/
  | step (slot : Nat) (k : StepKind) (peer : Bool) (wg off : Nat)
  /-- LAUNCH after its release (R424): grid and record address -/
  | launch (grid id : Nat) (addr : W64)
  /-- such a step on its way to the image of a peer that is saved (R268) -/
  | sent (slot : Nat)
  /-- the release of a copy trigger (R217), before which its command does not issue -/
  | trigger (cmd : Nat)
  deriving DecidableEq, Repr

/-- One entry of a sheet's program order of accesses that is not yet performed (R198). `pieces` are the physical
(or buffer) addresses with their lengths; `data` the bytes to store, or the operands of an atomic. -/
structure Access where
  id : Nat
  kind : AccKind
  space : Space
  mt : Nat
  /-- memory type of its second piece, on another page (LDX) -/
  mt1 : Nat
  /-- an atomic at system scope (R212) -/
  sys : Bool
  pieces : List (Nat × Nat)
  peer : Nat
  data : List Byte
  cmp : List Byte
  unit : FUnit
  thread : Nat
  flight : Nat
  form : LoadForm
  acq : Option Scope
  rel : Option Scope
  blockLoads : Bool
  blockStores : Bool
  drain : Bool
  act : OrdAction
  /-- slot of its move, which a sample names (R337) -/
  slot : Nat
  /-- sectors for which its network port has given tokens (R317) -/
  paid : Nat
  /-- on its way to an A buffer whose workgroup is not resident (R268), which has not answered yet -/
  away : Bool
  /-- bytes of a load that are bound while another 8-byte unit of it is still to come (R202) -/
  seen : SMap Byte
  /-- the address that its move gave, which a stop names (R284, R359) -/
  va : W64
  deriving DecidableEq, Repr

/-- What a sheet waits for between bundles (R257, R264, R433, R463). -/
inductive Wait where
  | none
  /-- BAR or BARW of a barrier, until the result of this number has landed -/
  | bar (lvl : BarLevel) (num id : Nat)
  /-- BAR or BARW at `.sh`: until everything triggered has landed (R258). -/
  | barSheet (id : Nat)
  /-- BOWAIT on the object at an offset, with the cycle of its timeout -/
  | object (off : Nat) (deadline : Nat) (id : Nat)
  /-- until the result of this number has landed (R376, R378) -/
  | land (id : Nat)
  deriving DecidableEq, Repr

/-- A CSRWR that waits (R180, R188): register number, value, extraction image, result to deliver. -/
structure CsrWrite where
  num : Nat
  val : W64
  image : BitVec 512
  id : Nat
  deriving DecidableEq, Repr

/-- What a sheet's SYS operation waits for before the next bundle: a CSRWR (R180, R188), LWAIT at the record's
virtual and physical address (R433) with the final value once one is found, the result of that number, or SVC's answer (R463). -/
inductive SysWait where
  | none
  | csr (w : CsrWrite)
  | lwait (va : W64) (pa : Nat) (id : Nat)
  | found (v : Nat) (id : Nat)
  | land (id : Nat)
  | svc (k : Nat) (arg : W64) (id : Nat)
  deriving DecidableEq, Repr

/-- A move with its sources read (R284): the slot, the threads in which it executes (bit 0 for a uniform move whose
guard held), and a value for each thread, or one value. -/
structure SavedMove where
  slot : Nat
  move : Move
  exec : Mask
  vals : List W64
  deriving DecidableEq, Repr

/-- The trap record of a stop (R284) with its slot blocks. -/
structure Trap where
  cause : Cause
  late : Bool
  rslot : Nat
  done : List Nat
  sfault : List Nat
  ent : Nat
  fmask : Mask
  ts : Nat
  info : Nat
  baddr : W64
  faddr : W64
  causes : List (Nat × Cause)
  blocks : List SavedMove
  /-- slots whose enables read as 0, or whose division by zero completes, on resumption (R279) -/
  waive : List Nat
  /-- threads in which a slot's move is skipped on resumption (R279) -/
  skips : List (Nat × Mask)
  format : Format
  stall : BitVec 4
  le : Bool
  dp : Bool
  /-- the predicates before the bundle, which a branch reads (R381) -/
  preds : SMap (BitVec 2)
  /-- the bundle, for the loop buffer -/
  inst : Option Instr
  /-- PHASE or HEAD as the stop found it, whose change ends the service (R279) -/
  until_ : Nat
  /-- a stop of the whole bundle, none of whose moves has read its source: it issues anew -/
  whole : Bool
  deriving DecidableEq, Repr

/-- A bundle whose other moves have committed and whose moves in `todo` wait for their atomic steps (R481, R423): the
bundle as a stop would record it, its moves, the slots done before it was resumed, the slots still without their step, and
what each slot has raised in a thread. -/
structure Held where
  base : Trap
  moves : List SavedMove
  prior : List Nat
  todo : List Nat
  faults : List (Nat × List (Nat × Flt))
  deriving DecidableEq, Repr

/-- A bundle of which some passes have issued and the next waits for a port (R71, R72): the cycles at which they issued,
and what they have read. -/
structure Issuing where
  inst : Instr
  starts : List Nat
  moves : List SavedMove
  deriving DecidableEq, Repr

/-- Where a stopped sheet stands (R279, R290, R463). -/
inductive Park where
  | running
  /-- A cause was raised; the management core has not handled it yet. -/
  | raised
  /-- Parked for a service: page request, emulation, or a wait for PHASE or HEAD to change. -/
  | service
  /-- The service is done: the resumed bundle (R287) issues next. -/
  | resume
  /-- Parked for the debugger (R279). -/
  | debug
  /-- Stopped by class G at a graph boundary, by class D, or by force (R291, R295). -/
  | stopped
  /-- Waiting at a graph boundary (R291). -/
  | boundary
  deriving DecidableEq, Repr

/-- A sheet in its context (02 to 04, 06, 07, 09, 11, 13). -/
structure Sheet where
  wg : Nat
  num : Nat
  width : Nat
  /-- current path (R78) -/
  pc : W64
  mask : Mask
  rcv : Option W64
  stack : List Level
  /-- threads gone: exited or inactive from the start (R33, R79) -/
  gone : Mask
  /-- v registers, key thread * 256 + register (R84); 0 -/
  v : SMap W64
  /-- s registers (R84); 0 -/
  s : SMap W64
  /-- predicates, key thread * 256 + register (R84); false -/
  p : SMap (BitVec 2)
  /-- operand entries, key thread * 256 + unit * 4 + port (R62); 0 -/
  ent : SMap W64
  /-- result latches, key thread * 256 + unit * 2 + (1 for w) (R62); 0 -/
  lat : SMap W64
  flights : List Flight
  limm : W64
  nest : Option Nest
  /-- bundles of a skipped loop body still to pass (R83) -/
  skip : Nat
  fpsr : BitVec 6
  fpcr : BitVec 9
  cfeGdx : Bool
  cfeSoft : Bool
  xpAoff : BitVec 11
  xpPat : BitVec 2
  /-- valid extraction patterns, their images (R185) -/
  xp : SMap (BitVec 512)
  skipst : BitVec 8
  /-- CYCLE: cycles counted before the present residence, and the core cycle since which it counts (R332) -/
  cycAcc : Nat
  cycFrom : Option Nat
  issued : Nat
  droop : Nat
  drift : BitVec 24
  markArm : Bool
  markLog : Bool
  armed : Bool
  /-- shape registers, key engine * 64 + h * 16 + field (R226); 0 -/
  shActive : SMap (BitVec 32)
  shShadow : SMap (BitVec 32)
  /-- tile names mapped, to the tile reference of the workgroup (R232) -/
  tileMap : SMap Nat
  queue : List Access
  /-- the oldest access of the queue that may be performed, and the time since when (R57; log 3) -/
  flow : Option (Nat × Nat)
  /-- the next bundle's address, and the sectors of its lines still to come from their homes (R275, R317) -/
  fetch : Option (W64 × Nat)
  /-- a bundle that waits for atomic steps, and one whose passes are under way -/
  held : Option Held
  issuing : Option Issuing
  wait : Wait
  sys : SysWait
  /-- latest arrival at each wired barrier, key level * 16 + number, as phase + 1 (R257); 0 -/
  arrivals : SMap Nat
  readySince : Nat
  nextIssue : Nat
  /-- first cycle in which the next bundle waited, the cause by R337, the slot (R281, R337) -/
  waitAt : Option (Nat × Nat × Nat)
  /-- cycles that the next bundle has waited for a stalling port, a wired barrier or a table entry (R281) -/
  watch : Nat
  /-- address of the latest bundle issued (R337) -/
  lastPc : W64
  trap : Option Trap
  park : Park
  /-- a class D stop awaits its next bundle boundary: its park has ended (R295) -/
  stopNext : Bool
  /-- causes found after commit, not yet taken (R225, R480): the trap records -/
  lates : List Trap
  /-- a corrupted value that the next bundle reads in this slot (R282) -/
  corrupt : Option Nat
  nextId : Nat
  deriving DecidableEq, Repr

/-! ## Workgroups, commands and cores -/

/-- A workgroup or bank format register with its latest write (R86, R180), and the contexts whose writes of the same cycle were lost. -/
structure WReg where
  val : W64
  old : W64
  cycle : Nat
  ctx : Nat
  lost : List Nat
  deriving DecidableEq, Repr

/-- A wired barrier (R257): phase and the members that have arrived in it, as G * 16 + sheet number. -/
structure Bar where
  phase : Nat
  arrived : List Nat
  deriving DecidableEq, Repr

/-- The bound tag of a limb (R241). -/
structure LimbTag where
  sg : Bool
  s : Nat
  n : Nat
  b : Nat
  d : Bool
  deriving DecidableEq, Repr

/-- A workgroup on its core (R45, R176, R179, R232, R241). -/
structure Workgroup where
  grid : Nat
  g : Nat
  core : Nat
  col : Nat
  /-- sheet contexts, sheet 0 first (R34) -/
  ctxs : List Nat
  started : Bool
  w : SMap WReg
  aSize : Nat
  wSize : Nat
  /-- first 1 KiB blocks of the allocations in their buffers (R176) -/
  aAt : Nat
  wAt : Nat
  abuf : SMap Byte
  wbuf : SMap Byte
  /-- bank format registers: A banks 0 to 7, W banks at 16 + bank (R179), written as workgroup registers are (R180) -/
  banks : SMap WReg
  /-- tile contents, key (tile * 16 + row) * 128 + column (R232); 0 -/
  tiles : SMap (BitVec 32)
  /-- types of mapped tiles by tile reference, true INT32 (R233); FP32 -/
  tileInt : SMap Bool
  /-- tile references bound to physical tiles (R232) -/
  tileBind : SMap Nat
  nextTile : Nat
  limbs : SMap (BitVec 1024)
  tags : SMap LimbTag
  iovf : Bool
  bars : SMap Bar
  /-- the cycle of the latest step at each barrier object, by offset, and its rank among the steps of a cycle (R265) -/
  steps : SMap (Nat × Nat)
  deriving DecidableEq, Repr

/-- How far a command of the dependency table has come (R220 to R225). -/
inductive CmdPhase where
  | queued | requested | started | consumed | stopped | completed
  deriving DecidableEq, Repr

/-- Resources of the read and write sets (R221). -/
inductive Res where
  | tile (wg t : Nat)
  | ablock (wg b : Nat)
  | wblock (wg b : Nat)
  | limb (wg k : Nat)
  | vreg (sid r : Nat)
  deriving DecidableEq, Repr

/-- A write that a command makes when it completes. -/
inductive CmdWrite where
  | abuf (wg off : Nat) (bytes : List Byte)
  | wbuf (wg off : Nat) (bytes : List Byte)
  | glob (pa : Nat) (bytes : List Byte)
  | tile (wg t row : Nat) (elems : List (BitVec 32))
  | limb (wg k : Nat) (v : BitVec 1024)
  | vreg (sid key : Nat) (v : W64)
  deriving DecidableEq, Repr

/-- An engine command in the dependency table (R220). -/
structure Cmd where
  num : Nat
  sid : Nat
  wg : Nat
  unit : FUnit
  op : Instr
  flight : Nat
  trig : W64
  x0 : W64
  x1 : W64
  shape : List (BitVec 32)
  /-- operands collected at the trigger (R229, R240): register values in reading order -/
  regs : List W64
  /-- formats and scales of the W banks at the trigger (R231); of a copy that converts, its two formats (R182) -/
  fmts : List W64
  tile : Nat
  reads : List Res
  writes : List Res
  phase : CmdPhase
  start : Nat
  /-- results computed when the operands were consumed, written at completion -/
  outs : List CmdWrite
  value : W64
  cause : Cause
  info : Nat
  canc : Bool
  /-- index at which a stopped extraction resumes (R244) -/
  at_ : Nat
  baddr : W64
  slot : Nat
  /-- an INT8 product wrapped (R167) -/
  ovf : Bool
  /-- its operands were consumed before a cause stopped it (R225) -/
  used : Bool
  /-- sectors for which its network port has given tokens (R317) -/
  paid : Nat
  /-- destination bytes that a copy had written when a cause stopped it (R225) -/
  wrote : Nat
  /-- core cycle of its completion (R224) -/
  ended : Nat
  deriving DecidableEq, Repr

/-- A word of an L1 that is valid or owned, with its value (R190, R191). -/
structure L1Word where
  owned : Bool
  val : BitVec 32
  deriving DecidableEq, Repr

/-- A store written at an L1 or sent past it, on its way to its home (R191, R205), with the time at which it set out; or
a store that a host port has accepted, whose completion-flush read is under way (R206). -/
structure HomeStore where
  core : Nat
  sid : Nat
  pa : Nat
  bytes : List Byte
  part : Nat
  sent : Nat
  flush : Bool
  slot : Nat
  deriving DecidableEq, Repr

/-- A translation cached (R305): key of the map is identifier * 2^36 + page; the value the leaf entry, its level, and
the frame of the page. -/
structure Leaf where
  level : Nat
  entry : W64
  frame : Nat
  deriving DecidableEq, Repr

/-- The reuse latch of a matrix engine (R230). -/
structure Reuse where
  sid : Nat
  opc : Nat
  kblk : Nat
  regs : List W64
  deriving DecidableEq, Repr

/-- What waits at a core network port: an access of a sheet by its number, a command by its entry and number, or the fetch of a
sheet's next bundle (R317). -/
inductive NetWho where
  | access (sid id : Nat)
  | command (e num : Nat)
  | fetch (sid : Nat)
  deriving DecidableEq, Repr

/-- A request to a partition's bucket at a core network port (R317): the sectors of it still to move. -/
structure NetReq where
  part : Nat
  sectors : Nat
  who : NetWho
  deriving DecidableEq, Repr

/-- A line of an instruction cache (R19, R90): its physical address over 64, the half whose ways hold it, its 64 bytes. -/
structure ILine where
  line : Nat
  half : Nat
  bytes : List Byte
  deriving DecidableEq, Repr

/-- A core (R19, R220, R230, R276, R313, R317). Half A is column 0, half B column 1. -/
structure Core where
  split : Bool
  ownA : Nat
  ownB : Nat
  /-- change of the assignment asked for (R314) -/
  change : Option (BitVec 16)
  cmds : SMap Cmd
  nextCmd : Nat
  reuseA : Option Reuse
  reuseB : Option Reuse
  /-- words of the L1, key half * 2^50 + word address (R90, R190): half 0 is all of it in a whole core -/
  l1 : SMap L1Word
  icache : List ILine
  tlb : SMap Leaf
  /-- cycle at which an issue stage is free (R275), and the cycle of the last bundle for each engine (R276): keys
  column * 4 + engine -/
  busy : SMap Nat
  lastTarget : SMap Nat
  /-- cycle at which split mode took effect (R88), cycle at which the refill period ends (R318) -/
  splitFrom : Nat
  refillAt : Nat
  /-- cycle at which a scrub under way ends, by column (R196) -/
  scrub : SMap Nat
  /-- partition last served by each column, plus 1 (R196); 0 none -/
  served : SMap Nat
  buckets : SMap Nat
  pool : Nat
  netQueue : List NetReq
  netTurn : Nat
  /-- the latest cycle, plus 1, in which the port has moved sectors (R317); 0 none -/
  netAt : Nat
  confirmed : Bool
  deriving DecidableEq, Repr

/-- A reservation request at a Reef (R253, R254). -/
structure ResvReq where
  core : Nat
  e : Nat
  units : Nat
  /-- the cycle in which it came -/
  at_ : Nat
  /-- its deferral has counted (R322) -/
  counted : Bool
  deriving DecidableEq, Repr

/-- A cluster: clock, droop cap, Reef (R23, R91, R254, R319, R322), translation cache (R305). The cycle count of its
cores is `c0 + (ts - t0) * mhz / 1000`; `stepAt` is the time of its next step down in a fall of its rail (R325). -/
structure Cluster where
  mhz : Nat
  target : Nat
  t0 : Nat
  c0 : Nat
  stepAt : Nat
  droopCap : Nat
  budget : Nat
  resv : List ResvReq
  defer : Bool
  ballast : Bool
  tlb : SMap Leaf
  deriving DecidableEq, Repr

/-! ## Partitions, grids and the host side -/

/-- A launch asked for and not yet accepted or refused (R41): through a launch register, or by LAUNCH (sheet and its workgroup,
flight, grid). -/
inductive LaunchReq where
  | host (vf : Nat) (addr : W64)
  /-- a submission that has failed with a code, behind older ones of its function (R351, R352) -/
  | failed (vf : Nat) (addr : W64) (code : Nat)
  | move (sid wg flight : Nat) (parent : Nat) (addr : W64)
  deriving DecidableEq, Repr

/-- A spawned launch that is due (R51, R52): queue header, grid that appended. -/
structure SpawnReq where
  queue : W64
  grid : Nat
  /-- at the end of its grid (R52), whatever THRESH says -/
  atEnd : Bool
  deriving DecidableEq, Repr

/-- Who misses in translation: a sheet or a command (R308), or the device itself for a launch, a spawned launch (R479) or a
round (R238). -/
inductive Misser where
  | user (x : Requester)
  | launch (q : LaunchReq)
  | spawn (q : SpawnReq)
  | round (part g roff : Nat)
  deriving DecidableEq, Repr

/-- A page-request entry (R307). -/
structure PageReq where
  part : Nat
  vf : Nat
  page : Nat
  acc : Nat
  who : List Misser
  shared : Bool
  deriving DecidableEq, Repr

/-- A Pintle redirect entry (R267, R269). -/
structure Redirect where
  part : Nat
  core : Nat
  col : Nat
  wg : Nat
  image : Nat
  size : Nat
  locked : Bool
  deriving DecidableEq, Repr

/-- A compute die (R25, R267, R305, R307): its L2 clock in MHz, its cycle count `l2c0` at time `l2t0`. -/
structure Die where
  tlb : SMap Leaf
  prq : List PageReq
  /-- misses that have found no entry, in their order, with their partitions (R308) -/
  waiting : List (Nat × Misser)
  redirects : List Redirect
  l2mhz : Nat
  l2t0 : Nat
  l2c0 : Nat
  deriving DecidableEq, Repr

/-- A line of an L2 (R22): which of its four sectors are present, and which of these are dirty. Its bytes are those of
`mem`, which holds the value at the home. -/
structure L2Line where
  present : BitVec 4
  dirty : BitVec 4
  /-- the class of requests (R316) that used it last, on whose behalf it is written back, and its core -/
  cls : Nat
  core : Nat
  deriving DecidableEq, Repr

/-- A rail (R324, R325): voltage in mV, votes by partition, a fall under way with the time of the fall once every core has
confirmed, a rise under way. -/
structure Rail where
  mv : Nat
  votes : SMap Nat
  fallTo : Option Nat
  fallAt : Option Nat
  rising : Option Nat
  deriving DecidableEq, Repr

/-- A reduction group (R236) with the copy of its member list. -/
structure Group where
  word : BitVec 512
  members : List W64
  deriving DecidableEq, Repr

/-- A contribution to an open round (R237). -/
structure Contrib where
  m : Nat
  sid : Nat
  wg : Nat
  core : Nat
  /-- number of the MXRED at its core (R220) -/
  num : Nat
  rows : List (BitVec 32)
  deriving DecidableEq, Repr

/-- An open or closing round of a group, by partition (R237, R238). -/
structure Round where
  part : Nat
  group : Nat
  roff : Nat
  contribs : List Contrib
  /-- rows written while it closes (R238) -/
  rows : Nat
  deriving DecidableEq, Repr

/-- A verified disclosure policy (R338, R339). -/
structure Policy where
  tenant : Nat
  serial : Nat
  keyDigest : Nat
  /-- mode and parameter of each counter -/
  counters : List Nat
  trace : List Nat
  tsamp : Nat
  fdet : Nat
  tsres : Nat
  deriving DecidableEq, Repr

/-- A record ring with its count of lost records since the last one written (R336). -/
structure Ring where
  desc : RingDesc
  lost : Bool
  deriving DecidableEq, Repr

/-- A boost lease (R323): clock, time left in ns. -/
structure Lease where
  mhz : Nat
  left : Nat
  suspended : Bool
  deriving DecidableEq, Repr

/-- A pre-emption asked for (R290): class D, time of the request. -/
structure Preempt where
  classD : Bool
  at_ : Nat
  deriving DecidableEq, Repr

/-- The header of a code object as read at acceptance (R109, R111, R479). -/
structure Kernel where
  base : Nat
  entry : Nat
  codesz : Nat
  width : Nat
  regs : Nat
  wgmax : Nat
  tiles : Nat
  limbs : Nat
  scra : Nat
  scrw : Nat
  lat : List Nat
  bound : Nat
  patv : Nat
  pats : List (BitVec 512)
  rcv : List (Nat × Nat)
  minor : Nat
  deriving DecidableEq, Repr

/-- The fields of a launch record (R38, R39). -/
structure LRec where
  kaddr : W64
  args : W64
  gx : Nat
  gy : Nat
  gz : Nat
  wx : Nat
  wy : Nat
  wz : Nat
  dyna : Nat
  dynw : Nat
  irq : Bool
  coop : Bool
  clw : Nat
  prio : Nat
  deriving DecidableEq, Repr

/-- The spawn-queue batch that a grid serves (R51, R53). -/
structure Batch where
  queue : W64
  first : Nat
  count : Nat
  deriving DecidableEq, Repr

/-- A batch handed out and not yet released from its queue (R53): its address space, whether its grid is final. -/
structure BatchRec where
  vf : Nat
  batch : Batch
  grid : Nat
  final : Bool
  deriving DecidableEq, Repr

/-- A grid (R35 to R55). -/
structure Grid where
  record : W64
  vf : Nat
  part : Nat
  lrec : LRec
  kernel : Kernel
  depth : Nat
  parent : Option Nat
  host : Bool
  nextG : Nat
  /-- numbers of the workgroups placed so far, by position in the grid (R37, R177) -/
  placed : SMap Nat
  /-- workgroups exited -/
  done : Nat
  batch : Option Batch
  /-- spawn queues appended to (R52) -/
  queues : List W64
  /-- cluster barriers, key group * 8 + number; grid barriers (R255) -/
  clBars : SMap Bar
  gridBars : SMap Bar
  /-- a root grid to start anew at a boundary: BADDR, s4 to s7 (R292) -/
  restart : Option (W64 × List W64)
  /-- termination under way: cause and core, or none for KILLED (R48) -/
  ending : Option (Cause × Nat)
  ended : Bool
  deriving DecidableEq, Repr

/-- A record of a context image (R299, R300), its payload as the state it holds. -/
inductive ImageRec where
  | image (device : Nat) (fw : BitVec 32) (count : Nat) (part : Nat) (classD : Bool) (keyDigest : Nat) (troots : List (Nat × Nat))
  | graphPos (rrec args baddr kaddr : W64) (s4 s5 s6 s7 : W64)
  | sheet (sid : Nat) (sh : Sheet)
  | trap (sid : Nat) (t : Trap)
  | timing (sid : Nat) (cycAcc issued droop : Nat) (drift : BitVec 24) (arm log armed : Bool)
  | workgroup (id : Nat) (wg : Workgroup)
  | abuf (id : Nat) (m : SMap Byte)
  | wbuf (id : Nat) (m : SMap Byte)
  | tiles (id : Nat) (m : SMap (BitVec 32)) (ty : SMap Bool)
  | limbs (id : Nat) (m : SMap (BitVec 1024)) (t : SMap LimbTag)
  | bankFmt (id : Nat) (m : SMap WReg)
  | grid (id : Nat) (g : Grid)
  | lease (left mhz : Nat)
  | counters (m : SMap Nat)
  /-- a record that this device's loader does not know: a type that is private to firmware or reserved, or a higher version -/
  | unknown (ty version : Nat) (ign : Bool)
  | end_
  deriving DecidableEq, Repr

/-- A message sent (R362): its Ethernet port, the endpoint it is for (DSTEP), the message. -/
structure Outgoing where
  port : Nat
  dest : W64
  msg : PageMsg
  deriving DecidableEq, Repr

/-- A pre-copy session (R360 to R362). -/
structure Precopy where
  word : BitVec 256
  /-- the AES-256-GCM key that the roots of trust have agreed on; no read shows it -/
  key : BitVec 256
  state : Nat
  sent : Nat
  last : Nat
  round : Nat
  seq : Nat
  /-- device memory reserved for the table of the sequence numbers last applied (R362): its address -/
  table : Nat
  /-- a message has named a page outside the partition's region (R363) -/
  foreign : Bool
  /-- image messages received, by sequence number -/
  image : SMap (List Byte)
  /-- messages sent (R362) -/
  outbox : List Outgoing
  deriving DecidableEq, Repr

/-- A translation that firmware holds (R349): the digest of the object, whether it is for half-cores, the virtual function in
whose address space it lies, its place and size. -/
structure XEntry where
  digest : Nat
  half : Bool
  vf : Nat
  base : Nat
  size : Nat
  deriving DecidableEq, Repr

/-- A partition (R236, R280, R281, R309, R311, R328 to R343, R360). -/
structure Part where
  valid : Bool
  memw : Nat
  rate : Nat
  tier : Nat
  floor : Nat
  prqcap : Nat
  polid : Nat
  pinq : Nat
  xlen : Bool
  fdisp : W64
  wdlim : Nat
  debugger : Bool
  /-- counters 0 to 63 (R328); 0 -/
  counters : SMap Nat
  pcsel : SMap W64
  /-- read latches, key requester * 64 + counter: requester 0 the operator, 1 + VF else (R331); 0 -/
  latches : SMap Nat
  /-- the counters at the ends of milliseconds, newest first, where they had changed (R342) -/
  history : List (Nat × SMap Nat)
  /-- translations held (R349) -/
  xcache : List XEntry
  groups : SMap Group
  rings : SMap Ring
  seqs : SMap Nat
  dirty : BitVec 128
  boundKey : Option Nat
  serial : Nat
  preempt : Option Preempt
  image : List ImageRec
  lease : Option Lease
  precopy : Precopy
  driverReports : List Nat
  /-- for the budget of R319: whether a request waited, units held times ns in this period, and the time up to which
  they are summed -/
  waited : Bool
  unitNs : Nat
  unitFrom : Nat
  deriving DecidableEq, Repr

/-- A virtual function (R302, R315, R351, R352). -/
structure Vf where
  part : Option Nat
  troot : Nat
  lerrCount : Nat
  lerrCode : Nat
  leaddr : W64
  irqst : Nat
  /-- times that MSI-X vector 0 has been raised (R351) -/
  msix : Nat
  resetting : Bool
  deriving DecidableEq, Repr

/-- An arrival that has reached a barrier object (R251, R238): the bytes of a copy, or a group's; the partition; the time and
the rank among the steps of one cycle (R265). -/
structure Arrival where
  bytes : Option Nat
  /-- core and number of the copy command, whose status follows (R298) -/
  cmd : Option (Nat × Nat)
  wg : Nat
  off : Nat
  part : Nat
  at_ : Nat
  ord : Nat
  deriving DecidableEq, Repr

/-- A request of a peer or engine to an A allocation that is saved, being restored, or gone (R268 to R270): a peer
access, bytes of a peer copy or of a reduction group, an arrival, BOARR of `n` and BOTEST. -/
inductive PeerOp where
  | access (sid : Nat) (a : Access)
  | write (bytes : List Byte)
  | arrive (bytes : Option Nat)
  | boarr (n sid slot : Nat)
  | botest (sid flight : Nat)
  deriving DecidableEq, Repr

structure PeerReq where
  part : Nat
  core : Nat
  wg : Nat
  off : Nat
  op : PeerOp
  at_ : Nat
  ord : Nat
  deriving DecidableEq, Repr

/-- A memory controller (R316): virtual time and tags are exact rationals. -/
structure MemReq where
  cls : Nat
  n : Nat
  sector : Nat
  start : Rat
  write : Bool
  /-- the core that asked, 1,536 for none (R329) -/
  core : Nat
  deriving DecidableEq, Repr

structure Channel where
  v : Rat
  finish : SMap Rat
  waiting : List MemReq
  deriving DecidableEq, Repr

/-- The whole machine. -/
structure State where
  /-- global time stamp in ns (R326) -/
  ts : Nat
  sheets : SMap Sheet
  wgs : SMap Workgroup
  nextWg : Nat
  cores : SMap Core
  clusters : SMap Cluster
  dies : SMap Die
  rails : SMap Rail
  parts : SMap Part
  vfs : SMap Vf
  grids : SMap Grid
  nextGrid : Nat
  /-- launch queues: grid numbers in acceptance order (R271) and the partition served next -/
  lqueue : List Nat
  turn : Nat
  /-- physical memory (R192, R356); 0 -/
  mem : List Host.Cell
  /-- registrations of words at their homes, core + 1 (R193); none -/
  reg : SMap Nat
  homeq : List HomeStore
  /-- lines of the L2s by line address (R22, R192) -/
  l2 : SMap L2Line
  /-- lines held pinned, with the partition (R194) -/
  pinned : SMap Nat
  poisoned : List Nat
  launches : List LaunchReq
  /-- batches in launch order (R53) -/
  batches : List BatchRec
  /-- requests of the device itself that were refused: who asked, address space and page (R238, R479) -/
  refusedPages : List (Misser × Nat × Nat)
  spawns : List SpawnReq
  arrivals : List Arrival
  peerReqs : List PeerReq
  rounds : List Round
  roundArrivals : List Arrival
  policies : SMap Policy
  nextPolicy : Nat
  channels : SMap Channel
  enga : Nat
  /-- time of the next budget period (R319) -/
  budgetNext : Nat
  /-- semaphore holders, port + 1 (R355); free -/
  sems : SMap Nat
  /-- the port that lost the latest tie, which wins the next (R355) -/
  tieLoser : Nat
  hpcap : SMap (BitVec 5)
  deviceNo : Nat
  /-- route table (R359): for each device number the Halyard link, or 16 plus the Ethernet port; none -/
  routes : SMap Nat
  linksDown : List Nat
  /-- events that occur next (log 3) -/
  agenda : List Instr
  /-- the sheet whose bundle issues next (log 4) -/
  focus : Nat
  /-- counter of free values (log 2) -/
  freeCtr : Nat
  /-- the last value handed to an outside reader, a number of little-endian bytes (log 21) -/
  reply : Nat
  deriving DecidableEq, Repr

/-! ## Values at reset -/

/-- An empty pre-copy descriptor (R360). -/
def Precopy.reset : Precopy := ⟨0, 0, 0, 0, 0, 0, 0, 0, false, [], []⟩

/-- FDISP at reset: the default dispositions of R278 (R280), R for causes 4, 5, 6 and 24, D for 20. -/
def fdispReset : W64 := BitVec.ofNat 64 (2 ^ 8 + 2 ^ 10 + 2 ^ 12 + 2 ^ 48 + 2 * 2 ^ 40)

/-- A partition entry at reset (R311): MEMW 1, PRQCAP 64, the rest 0. -/
def Part.reset : Part :=
  { valid := false, memw := 1, rate := 0, tier := 0, floor := 0, prqcap := 64, polid := 0, pinq := 0, xlen := false,
    fdisp := fdispReset, wdlim := 2 ^ 32, debugger := false, counters := [], pcsel := [], latches := [], history := [],
    xcache := [], groups := [], rings := [], seqs := [], dirty := 0, boundKey := none, serial := 0, preempt := none,
    image := [], lease := none, precopy := .reset, driverReports := [],
    waited := false, unitNs := 0, unitFrom := 0 }

/-- A virtual function at reset (R315, R351, R352). -/
def Vf.reset : Vf :=
  { part := none, troot := 0, lerrCount := 0, lerrCode := 0, leaddr := 0, irqst := 0, msix := 0, resetting := false }

/-- A core at reset (R313): whole, owned by no partition. -/
def Core.reset : Core :=
  { split := false, ownA := 63, ownB := 63, change := none, cmds := [], nextCmd := 0, reuseA := none, reuseB := none,
    l1 := [], icache := [], tlb := [], busy := [], lastTarget := [], splitFrom := 0, refillAt := 1024, scrub := [], served := [], buckets := [],
    pool := 0, netQueue := [], netTurn := 0, netAt := 0, confirmed := true }

/-- A cluster at reset (R23, R91): 940 MHz, droop cap 8; Reef budget 224 (log 31). -/
def Cluster.reset : Cluster :=
  { mhz := 940, target := 940, t0 := 0, c0 := 0, stepAt := 0, droopCap := 8, budget := 224, resv := [], defer := false,
    ballast := false, tlb := [] }

def Die.reset : Die := ⟨[], [], [], [], 940, 0, 0⟩
/-- A rail at reset: 650 mV (log 32), no votes. -/
def Rail.reset : Rail := ⟨650, [], none, none, none⟩
def Channel.reset : Channel := ⟨0, [], []⟩
def Bar.reset : Bar := ⟨0, []⟩

/-- The machine right after reset. -/
def State.reset : State :=
  { ts := 0, sheets := [], wgs := [], nextWg := 0, cores := [], clusters := [], dies := [], rails := [], parts := [],
    vfs := [], grids := [], nextGrid := 0, lqueue := [], turn := 0, mem := [], reg := [], homeq := [], l2 := [], pinned := [],
    poisoned := [], launches := [], batches := [], refusedPages := [], spawns := [], arrivals := [], peerReqs := [], rounds := [], roundArrivals := [],
    policies := [], nextPolicy := 1, channels := [], enga := 31744, budgetNext := 1000000, sems := [], tieLoser := 0, hpcap := [],
    deviceNo := 0, routes := [], linksDown := [], agenda := [], focus := 0, freeCtr := 0, reply := 0 }

/-- A sheet at dispatch (R45) of the given workgroup, number, width, entry and threads. -/
def Sheet.fresh (wg num width : Nat) (pc : W64) (active : Mask) : Sheet :=
  { wg := wg, num := num, width := width, pc := pc, mask := active, rcv := none, stack := [], gone := ~~~active,
    v := [], s := [], p := [], ent := [], lat := [], flights := [], limm := 0, nest := none, skip := 0, fpsr := 0,
    fpcr := 0, cfeGdx := false, cfeSoft := false, xpAoff := 0, xpPat := 0, xp := [], skipst := 0, cycAcc := 0,
    cycFrom := none, issued := 0, droop := 0, drift := 0, markArm := true, markLog := true, armed := false,
    shActive := [], shShadow := [], tileMap := [], queue := [], flow := none, fetch := none, held := none, issuing := none, wait := .none, sys := .none, arrivals := [], readySince := 0,
    nextIssue := 0, waitAt := none, watch := 0, lastPc := 0, trap := none, park := .running, stopNext := false, lates := [], corrupt := none, nextId := 0 }

end Sys2Proof.Machine
end

