-- ==== Sys2Proof/Machine/Ops.lean ====
section
/-! DEFINITION. The named operations over the state: its parts by number, clocks, physical memory, free values, the
counters of a partition, and the taking of an exception (R283 to R285) with the return from one (R287). -/

namespace Sys2Proof.Machine

/-! ## Parts of the state by number -/

def State.core (s : State) (c : Nat) : Core := getD s.cores Core.reset c
def State.setCore (s : State) (c : Nat) (x : Core) : State := { s with cores := setD s.cores Core.reset c x }
def State.cluster (s : State) (c : Nat) : Cluster := getD s.clusters Cluster.reset c
def State.setCluster (s : State) (c : Nat) (x : Cluster) : State :=
  { s with clusters := setD s.clusters Cluster.reset c x }
def State.die (s : State) (d : Nat) : Die := getD s.dies Die.reset d
def State.setDie (s : State) (d : Nat) (x : Die) : State := { s with dies := setD s.dies Die.reset d x }
def State.rail (s : State) (r : Nat) : Rail := getD s.rails Rail.reset r
def State.setRail (s : State) (r : Nat) (x : Rail) : State := { s with rails := setD s.rails Rail.reset r x }
def State.part (s : State) (p : Nat) : Part := getD s.parts Part.reset p
def State.setPart (s : State) (p : Nat) (x : Part) : State := { s with parts := setD s.parts Part.reset p x }
def State.vf (s : State) (v : Nat) : Vf := getD s.vfs Vf.reset v
def State.setVf (s : State) (v : Nat) (x : Vf) : State := { s with vfs := setD s.vfs Vf.reset v x }
def State.channel (s : State) (c : Nat) : Channel := getD s.channels Channel.reset c
def State.setChannel (s : State) (c : Nat) (x : Channel) : State :=
  { s with channels := setD s.channels Channel.reset c x }
def State.sheet? (s : State) (sid : Nat) : Option Sheet := lookup s.sheets sid
def State.setSheet (s : State) (sid : Nat) (sh : Sheet) : State := { s with sheets := put s.sheets sid sh }
def State.dropSheet (s : State) (sid : Nat) : State := { s with sheets := drop s.sheets sid }
def State.mapSheet (s : State) (sid : Nat) (f : Sheet → Sheet) : State :=
  match s.sheet? sid with
  | some sh => s.setSheet sid (f sh)
  | none => s
def State.wg? (s : State) (w : Nat) : Option Workgroup := lookup s.wgs w
def State.setWg (s : State) (w : Nat) (x : Workgroup) : State := { s with wgs := put s.wgs w x }
def State.mapWg (s : State) (w : Nat) (f : Workgroup → Workgroup) : State :=
  match s.wg? w with
  | some x => s.setWg w (f x)
  | none => s
def State.grid? (s : State) (g : Nat) : Option Grid := lookup s.grids g
def State.setGrid (s : State) (g : Nat) (x : Grid) : State := { s with grids := put s.grids g x }
def State.mapGrid (s : State) (g : Nat) (f : Grid → Grid) : State :=
  match s.grid? g with
  | some x => s.setGrid g (f x)
  | none => s
def State.mapCore (s : State) (c : Nat) (f : Core → Core) : State := s.setCore c (f (s.core c))
def State.mapPart (s : State) (p : Nat) (f : Part → Part) : State := s.setPart p (f (s.part p))

/-- Core of a sheet context. -/
def coreOf (sid : Nat) : Nat := sid / 16
/-- Context number in its core. -/
def ctxOf (sid : Nat) : Nat := sid % 16
/-- Cluster of a core (R17). -/
def clusterOf (core : Nat) : Nat := core / 8
/-- Die of a core (R17). -/
def dieOf (core : Nat) : Nat := core / 384
/-- Column of a sheet context: contexts 8 to 15 of a split core are half B's (R19, log 15). -/
def State.colOf (s : State) (sid : Nat) : Nat := if (s.core (coreOf sid)).split ∧ 8 ≤ ctxOf sid then 1 else 0

/-- Arithmetic cycle of a core (R23, R24): its cluster's clock since its rate last changed. -/
def State.cycle (s : State) (core : Nat) : Nat :=
  let cl := s.cluster (clusterOf core)
  cl.c0 + (s.ts - cl.t0) * cl.mhz / 1000

/-- Cycle of a die's L2 clock (R23, R25). -/
def State.l2Cycle (s : State) (d : Nat) : Nat :=
  let x := s.die d
  x.l2c0 + (s.ts - x.l2t0) * x.l2mhz / 1000
/-- The highest arithmetic clock in force on a die's clusters (R25). -/
def State.dieClock (s : State) (d : Nat) : Nat :=
  maxList 0 ((List.range 48).map (fun k => (s.cluster (48 * d + k)).mhz))
/-- A die's L2 clock follows its clusters' clocks; the new rate holds from the next bank cycle (R25). -/
def State.retimeL2 (s : State) (d : Nat) : State :=
  let x := s.die d
  if s.dieClock d = x.l2mhz then s
  else
    let n := ceilDiv ((s.ts - x.l2t0) * x.l2mhz) 1000
    s.setDie d { x with l2c0 := x.l2c0 + n, l2t0 := x.l2t0 + ceilDiv (n * 1000) (max x.l2mhz 1), l2mhz := s.dieClock d }

/-- Changes a cluster's clock from now on, and its die's L2 clock with it. -/
def State.setClock (s : State) (c mhz : Nat) : State :=
  let cl := s.cluster c
  (s.setCluster c { cl with c0 := cl.c0 + (s.ts - cl.t0) * cl.mhz / 1000, t0 := s.ts, mhz := mhz }).retimeL2 (c / 48)

/-- A free value, and the state that has drawn it (log 2). -/
def State.free (s : State) (k : Nat) : Nat := Config.freeNat (s.freeCtr * 1024 + k)
def State.drew (s : State) : State := { s with freeCtr := s.freeCtr + 1 }

/-- The kernel of a sheet that has none: no register, no latency declared. -/
def Kernel.none : Kernel :=
  { base := 0, entry := 0, codesz := 0, width := 32, regs := 0, wgmax := 0, tiles := 0, limbs := 0, scra := 0, scrw := 0,
    lat := [], bound := 0, patv := 0, pats := [], rcv := [], minor := 0 }

/-- Grid of a sheet. -/
def State.gridOf (s : State) (sh : Sheet) : Option Grid := (s.wg? sh.wg).bind (fun w => s.grid? w.grid)
/-- Kernel of a sheet. -/
def State.kernelOf (s : State) (sh : Sheet) : Kernel :=
  match s.gridOf sh with
  | some g => g.kernel
  | none => Kernel.none
/-- Partition of a sheet's context. -/
def State.partOf (s : State) (sh : Sheet) : Nat :=
  match s.gridOf sh with
  | some g => g.part
  | none => 0
/-- Virtual function whose address space a sheet uses (R302). -/
def State.vfOf (s : State) (sh : Sheet) : Nat :=
  match s.gridOf sh with
  | some g => g.vf
  | none => 0

/-! ## Sheet registers -/

/-- Key of a per-thread register, latch or entry. -/
def tkey (r t : Nat) : Nat := t * 256 + r

def Sheet.getV (sh : Sheet) (r t : Nat) : W64 := getD sh.v 0 (tkey r t)
def Sheet.setV (sh : Sheet) (r t : Nat) (x : W64) : Sheet := { sh with v := setD sh.v 0 (tkey r t) x }
def Sheet.getS (sh : Sheet) (r : Nat) : W64 := getD sh.s 0 r
def Sheet.setS (sh : Sheet) (r : Nat) (x : W64) : Sheet := { sh with s := setD sh.s 0 r x }
def Sheet.getP (sh : Sheet) (r t : Nat) : BitVec 2 := getD sh.p 0 (tkey r t)
def Sheet.setP (sh : Sheet) (r t : Nat) (x : BitVec 2) : Sheet := { sh with p := setD sh.p 0 (tkey r t) x }
/-- An operand entry: unit, port 0 to 3, thread (0 for a uniform unit). -/
def Sheet.getX (sh : Sheet) (u : FUnit) (port t : Nat) : W64 := getD sh.ent 0 (tkey (u.num * 4 + port) t)
def Sheet.setX (sh : Sheet) (u : FUnit) (port t : Nat) (x : W64) : Sheet :=
  { sh with ent := setD sh.ent 0 (tkey (u.num * 4 + port) t) x }
/-- A result latch: unit, 0 for q and 1 for w, thread (0 for a uniform unit). -/
def Sheet.getQ (sh : Sheet) (u : FUnit) (k t : Nat) : W64 := getD sh.lat 0 (tkey (u.num * 2 + k) t)
def Sheet.setQ (sh : Sheet) (u : FUnit) (k t : Nat) (x : W64) : Sheet :=
  { sh with lat := setD sh.lat 0 (tkey (u.num * 2 + k) t) x }
/-- Writes what a result delivers (R62). -/
def Sheet.deliver (sh : Sheet) (u : FUnit) (t : Nat) (q w : Option W64) : Sheet :=
  let sh := match q with
    | some x => sh.setQ u 0 t x
    | none => sh
  match w with
  | some x => sh.setQ u 1 t x
  | none => sh

/-- The active threads (R74). -/
def Sheet.active (sh : Sheet) : Mask := sh.mask &&& ~~~sh.gone
/-- Passes of a bundle (R30). -/
def Sheet.passes (sh : Sheet) : Nat := sh.width / 32

/-! ## Physical memory (R192, R356): little-endian bytes, 0 where nothing is listed (log 5) -/

/-- What an unlisted address reads as. -/
def memDefault : Byte := 0
def State.readByte (s : State) (a : Nat) : Byte := getD s.mem memDefault a
def State.writeByte (s : State) (a : Nat) (b : Byte) : State := { s with mem := setD s.mem memDefault a b }
def State.readBytes (s : State) (a n : Nat) : List Byte := (List.range n).map (fun k => s.readByte (a + k))
def State.readNat (s : State) (a n : Nat) : Nat := leNat (s.readBytes a n)
def State.writeBytes (s : State) (a : Nat) : List Byte → State
  | [] => s
  | b :: bs => (s.writeByte a b).writeBytes (a + 1) bs
/-- The canonical form of memory. -/
abbrev Memory.wf (m : List Host.Cell) : Prop := canonical memDefault m = true

/-! ## Counters (R328, R329) -/

/-- Whether a counter's LEVEL and WHERE name the core (R329). -/
def pcselCovers (v : W64) (core : Nat) : Bool :=
  let w := bits v.toNat 15 11
  match bits v.toNat 26 2 with
  | 0 => true
  | 1 => dieOf w == dieOf core
  | 2 => clusterOf w == clusterOf core
  | _ => w == core

/-- Whether a context of a partition is resident: a workgroup of it is on a core, and none of it is saved (R328). -/
def contextResident (s : State) (part : Nat) : Bool :=
  (s.part part).image.isEmpty && s.wgs.any (fun w => (lookup s.grids w.2.grid).any (fun g => g.part == part))

/-- `k` events of code `ev` on behalf of partition `part` at `core`, 1,536 for none: the fixed counter of R328 and every
programmable counter that selects it; a sample is due at each multiple that a programmable counter reaches (R337). Nothing counts
while no context of the partition is resident (R328). -/
def State.event (s : State) (part core sid slot ev k : Nat) : State :=
  let p := s.part part
  if contextResident s part = false then s
  else
  let fixed := if 1 ≤ ev ∧ ev ≤ 16 then setD p.counters 0 (ev - 1) ((getD p.counters 0 (ev - 1) + k) % 2 ^ 64)
    else p.counters
  let hit := p.pcsel.filter (fun e => bitAt e.2.toNat 31 && bits e.2.toNat 0 10 == ev && pcselCovers e.2 core)
  let counters := hit.foldl (fun m e => setD m 0 e.1 ((getD m 0 e.1 + k) % 2 ^ 64)) fixed
  let due := hit.flatMap (fun e =>
    let per := bits e.2.toNat 10 5
    let old := getD fixed 0 e.1
    List.replicate (if per = 0 then 0 else (old + k) / 2 ^ per - old / 2 ^ per) (Instr.sampleRecord part e.1 sid slot))
  { s.setPart part { p with counters := counters } with agenda := s.agenda ++ due }

/-- Events that a sheet causes. -/
def State.sheetEvent (s : State) (sid : Nat) (sh : Sheet) (slot ev k : Nat) : State :=
  s.event (s.partOf sh) (coreOf sid) sid slot ev k

/-! ## Causes (R278) -/

/-- Code of a cause. -/
def Cause.code : Cause → Nat
  | .none => 0 | .bundleIllegal => 1 | .moveIllegal => 2 | .opUnassigned => 3 | .opRetired => 4 | .opAbsent => 5
  | .translation => 6 | .protection => 7 | .alignment => 8 | .spaceBounds => 9 | .guardStatic => 10 | .guardData => 11
  | .intervalEmpty => 12 | .fpEnabled => 13 | .intDivide => 14 | .barrierOverrun => 15 | .nestDepth => 16
  | .atomicUnsupported => 17 | .undecidedBranch => 18 | .divergeDepth => 19 | .breakpoint => 20 | .softwareTrap => 21
  | .engineError => 22 | .uncorrectable => 23 | .spawnOverflow => 24 | .watchdog => 25

/-- A cause with no detail. -/
def Cause.flt (c : Cause) : Flt := ⟨c, 0, 0⟩

/-- A trap record of no cause, with the bundle at `pc` and everything else at the Reset column of R284. -/
def Trap.blank (pc : W64) (ts : Nat) : Trap :=
  { cause := .none, late := false, rslot := 0, done := [], sfault := [], ent := 0xFF, fmask := 0, ts := ts, info := 0,
    baddr := pc, faddr := 0, causes := [], blocks := [], waive := [], skips := [], format := .narrow, stall := 0, le := false, dp := false,
    preds := [], inst := none, until_ := 0, whole := false }

/-- The slot that an event of a stop names in a sample (R337): 7 where no move of a bundle raised it. -/
def Trap.eventSlot (t : Trap) : Nat := if t.whole || (t.late && t.ent == 0xFF) then 7 else t.rslot

/-- Taking an exception (R283 to R285): the sheet stops with its trap record and parks for the management core
(R279); one stop counts once in FAULTS (R328). Where the sheet goes on from is its pc, which the caller has set. -/
def State.takeCause (s : State) (sid : Nat) (t : Trap) : State :=
  match s.sheet? sid with
  | none => s
  | some sh => (s.setSheet sid { sh with trap := some t, park := .raised }).sheetEvent sid sh t.eventSlot 15 1

/-- A stop of the whole bundle at `pc` (R104): no slot is done; `blocks` are those of its slots that are not empty, where
the bundle is known (R284). -/
def bundleTrap (sh : Sheet) (ts : Nat) (f : Flt) (blocks : List SavedMove) : Trap :=
  { Trap.blank sh.pc ts with
    cause := f.cause, info := f.info, faddr := f.addr, blocks := blocks, whole := true }

/-- The number of a slot's bit list. -/
def slotsNat (l : List Nat) : Nat := l.foldl (fun n k => n ||| 2 ^ k) 0

/-- The 64-byte header of a trap record (R284). -/
def Trap.header (t : Trap) (width : Nat) : Nat :=
  1 + 2 ^ 8 * t.cause.code + 2 ^ 16 * ofBool t.late + 2 ^ 17 * t.rslot + 2 ^ 20 * slotsNat t.done
    + 2 ^ 26 * slotsNat t.sfault + 2 ^ 32 * t.ent + 2 ^ 40 * width + 2 ^ 128 * t.fmask.toNat + 2 ^ 256 * t.ts
    + 2 ^ 320 * t.info + 2 ^ 384 * t.baddr.toNat + 2 ^ 448 * t.faddr.toNat

/-- A slot block of a trap record (R284): the EXEC mask, then the saved source values. -/
def slotBlock (m : SavedMove) : List Byte := leBytes 16 m.exec.toNat ++ m.vals.flatMap (fun v => leBytes 8 v.toNat)
/-- The slot blocks of a trap record, in slot order: of the moves that are not done. -/
def Trap.slotBlocks (t : Trap) : List Byte :=
  (List.range 6).flatMap (fun k => (t.blocks.filter (fun m => m.slot == k && !t.done.contains k)).flatMap slotBlock)
/-- A trap record (R284): its header, then its slot blocks. -/
def trapBytes (t : Trap) (width : Nat) : List Byte := leBytes 64 (t.header width) ++ t.slotBlocks

/-- The return from an exception (R287): the record is consumed and the sheet runs again. -/
def Sheet.returnFrom (sh : Sheet) : Sheet := { sh with trap := none, park := .running }

/-- The disposition that FDISP selects for a cause (R279, R280): 0 T, 1 R, 2 D, 3 S; T where the cause does not allow
it or is UNCORRECTABLE. -/
def disposition (fdisp : W64) (c : Cause) : Nat :=
  let d := bits fdisp.toNat (2 * c.code) 2
  let allowR := c ∈ [.opRetired, .opAbsent, .translation, .guardData, .intervalEmpty, .fpEnabled, .intDivide,
    .barrierOverrun, .spawnOverflow]
  let allowS := c ∈ [.barrierOverrun, .atomicUnsupported, .breakpoint, .softwareTrap, .spawnOverflow]
  if c = .uncorrectable then 0
  else match d with
    | 0 => 0
    | 1 => if allowR then 1 else 0
    | 2 => 2
    | _ => if allowS then 3 else 0

end Sys2Proof.Machine
end

