-- ==== Sys2Proof/Machine/Translate.lean ====
section
/-! DEFINITION. Address translation (R302 to R305): the walk of four levels, the checks of an entry, the caches, the
permissions, and the windows of physical memory (R356, R358). -/

namespace Sys2Proof.Machine

/-- The kinds of access in INFO bits 2:0 (R285). -/
inductive AccKindT where
  | load | store | atomic | fetch | engine | engineStore
  deriving DecidableEq, Repr

def AccKindT.code : AccKindT → Nat
  | .load => 0 | .store => 1 | .atomic => 2 | .fetch => 3 | .engine => 4 | .engineStore => 4

/-- INFO of TRANSLATION and PROTECTION (R285): access, reason, walk level. -/
def trInfo (acc : AccKindT) (reason level : Nat) : Nat := acc.code + 16 * reason + 256 * (level - 1)

/-- Whether an entry's RES0 bits are clear at a level (R303). -/
def entryResOk (e : W64) (level : Nat) (leaf : Bool) : Bool :=
  bits e.toNat 60 3 == 0 && bits e.toNat 52 6 == 0 && bits e.toNat 8 3 == 0 && bits e.toNat 3 4 == 0 &&
  (level != 1 || !bitAt e.toNat 7) &&
  (!leaf || (level != 2 || bits e.toNat 12 18 == 0) && (level != 3 || bits e.toNat 12 9 == 0))

def leafMt (e : W64) : Nat := bits e.toNat 58 2
def leafAddr (e : W64) : Nat := bits e.toNat 12 40 * 4096

/-- Whether a leaf's mapping type suits its window (R304, R356). -/
def leafWindowOk (mt frame : Nat) : Bool :=
  if mt = 0 then decide (frame < 2 ^ 39)
  else if mt = 1 then decide (2 ^ 48 ≤ frame ∧ frame < 2 ^ 50)
  else if mt = 2 then decide (2 ^ 48 ≤ frame ∧ frame < 2 ^ 50 + 4096 * 2 ^ 39)
  else false

/-- The checks of a leaf (R304): W needs V1, as it does in a table entry. -/
def leafOk (e : W64) (level : Nat) : Bool :=
  entryResOk e level true && leafWindowOk (leafMt e) (leafAddr e) && !(bitAt e.toNat 2 && !bitAt e.toNat 1)

/-- Bytes that a leaf maps (R302). -/
def leafSize (level : Nat) : Nat := if level = 2 then 2 ^ 30 else if level = 3 then 2 ^ 21 else 2 ^ 12

/-- Shift of the index of a level (R302). -/
def levelShift (level : Nat) : Nat := 48 - 9 * level

/-- Whether a sector holding an address is poisoned (R282). -/
def poisonedAt (s : State) (pa : Nat) : Bool := s.poisoned.contains (pa / 32)
/-- The reason by which a walk says that it has read a poisoned sector (R282); R285 has no such reason. -/
def walkPoison : Nat := 100

/-- The walk from `level` on, `n` levels remaining (R302 to R304): reason and level of a failure, or the leaf. A CONT
group whose first entry disagrees with the entry's own frame translates by one or the other (R303). -/
def walkFrom (s : State) (va : Nat) : Nat → Nat → Nat → Except (Nat × Nat) Leaf
  | 0, level, _ => .error (1, level)
  | n + 1, level, table =>
    if Config.devMemTop ≤ table then .error (2, level)
    else
      let idx := va / 2 ^ levelShift level % 512
      if poisonedAt s (table + 8 * idx) then .error (walkPoison, level)
      else
      let e : W64 := w64 (s.readNat (table + 8 * idx) 8)
      if bitAt e.toNat 0 = false then .error (0, level)
      else
        let leaf := level == 4 || ((level == 2 || level == 3) && bitAt e.toNat 7)
        if leaf then
          let first : W64 := w64 (s.readNat (table + 8 * (idx / 16 * 16)) 8)
          let group := level == 4 && bitAt e.toNat 11 && bitAt first.toNat 0 && bitAt first.toNat 11 &&
            leafAddr first / 65536 * 65536 + va / 4096 % 16 * 4096 != leafAddr e && s.free 1000 % 2 == 1
          let e' := if group then first else e
          if !leafOk e' level then .error (1, level)
          else
            let base := if group then leafAddr first / 65536 * 65536 + va / 4096 % 16 * 4096 else leafAddr e
            .ok ⟨level, e', base + va % leafSize level / 4096 * 4096⟩
        else if !entryResOk e level false || (bitAt e.toNat 2 && !bitAt e.toNat 1) then .error (1, level)
        else walkFrom s va n (level + 1) (leafAddr e)

/-- The table entries that a walk reads, by their physical addresses. -/
def walkEntries (s : State) (va : Nat) : Nat → Nat → Nat → List Nat
  | 0, _, _ => []
  | n + 1, level, table =>
    let at_ := table + 8 * (va / 2 ^ levelShift level % 512)
    let e := s.readNat at_ 8
    at_ :: (if bitAt e 0 && !((level == 2 || level == 3) && bitAt e 7) then walkEntries s va n (level + 1) (bits e 12 40 * 4096) else [])

/-- The walk of a virtual address in the address space of a virtual function (R302). -/
def walk (s : State) (vf va : Nat) : Except (Nat × Nat) Leaf := walkFrom s va 4 1 ((s.vf vf).troot * 4096)

/-- Key of a cached translation: identifier and page. -/
def tlbKey (vf va : Nat) : Nat := vf * 2 ^ 36 + va / 4096

/-- The leaf found in the caches of a core, its cluster and its die, or else by a walk (R305). -/
def findLeaf (s : State) (core vf va : Nat) : Except (Nat × Nat) Leaf :=
  match lookup (s.core core).tlb (tlbKey vf va) with
  | some l => .ok l
  | none =>
    match lookup (s.cluster (clusterOf core)).tlb (tlbKey vf va) with
    | some l => .ok l
    | none =>
      match lookup (s.die (dieOf core)).tlb (tlbKey vf va) with
      | some l => .ok l
      | none => walk s vf va

/-- Whether a valid leaf permits an access (R304). -/
def permits (e : W64) (acc : AccKindT) : Bool :=
  match acc with
  | .load => bitAt e.toNat 1
  | .store => bitAt e.toNat 2
  | .atomic => bitAt e.toNat 1 && bitAt e.toNat 2
  | .fetch => bitAt e.toNat 1 && !bitAt e.toNat 63
  | .engine => bitAt e.toNat 1
  | .engineStore => bitAt e.toNat 2

/-- The host port that serves a host address (R356). -/
def portOfPa (pa : Nat) : Nat := if pa < 2 ^ 49 then 0 else 1

/-- A coherent mapping needs CXL.cache on its port (R358). -/
def coherentOk (s : State) (mt frame : Nat) : Bool :=
  mt != 1 || (getD s.hpcap 0 (portOfPa frame)).getLsbD 3

/-- Whether the route table names a Halyard link that is up for the way to a device (R359): an Ethernet port carries reductions. -/
def routed (s : State) (dev : Nat) : Bool := (lookup s.routes dev).any (fun l => decide (l < 12) && !s.linksDown.contains l)
/-- Whether a physical address lies in the window of a peer device to which there is no way (R356, R359). -/
def noRoute (s : State) (pa : Nat) : Bool := decide (2 ^ 50 ≤ pa) && !routed s ((pa - 2 ^ 50) / 2 ^ 39)

/-- Where an address leads: physical address and mapping type. -/
structure PAddr where
  pa : Nat
  mt : Nat
  deriving DecidableEq, Repr

/-- What stops an access that no route reaches (R359): TRANSLATION with reason 0100, ENGINE_ERROR of a command. -/
def routeFault (acc : AccKindT) (va : W64) : Flt :=
  match acc with
  | .engine => ⟨.engineError, 0, va⟩
  | .engineStore => ⟨.engineError, 0, va⟩
  | acc => ⟨.translation, trInfo acc 4 1, va⟩

/-- Translation of a global address for an access (R175, R302 to R305); an access that no route reaches takes TRANSLATION with
reason 0100 (R359). -/
def translate (s : State) (core vf : Nat) (va : W64) (acc : AccKindT) : Except Flt PAddr :=
  if 2 ^ 48 ≤ va.toNat then .error ⟨.translation, trInfo acc 5 1, va⟩
  else
    match findLeaf s core vf va.toNat with
    | .error (reason, level) =>
      if reason = walkPoison then .error ⟨.uncorrectable, 0, va⟩ else .error ⟨.translation, trInfo acc reason level, va⟩
    | .ok l =>
      if !coherentOk s (leafMt l.entry) l.frame then .error ⟨.translation, trInfo acc 1 l.level, va⟩
      else if !permits l.entry acc then .error ⟨.protection, trInfo acc 3 l.level, va⟩
      else if noRoute s l.frame then .error (routeFault acc va)
      else .ok ⟨l.frame + va.toNat % 4096, leafMt l.entry⟩

/-- UNCORRECTABLE has been raised by an access to an address: its sector, and those of its walk, raise it no more (R282). -/
def clearPoison (s : State) (core vf : Nat) (va : W64) : State :=
  let walked := (walkEntries s va.toNat 4 1 ((s.vf vf).troot * 4096)).map (· / 32)
  let s := { s with poisoned := s.poisoned.filter (fun q => !walked.contains q) }
  match translate s core vf va .load with
  | .ok p => { s with poisoned := s.poisoned.filter (fun q => q != p.pa / 32) }
  | .error _ => s

/-- The pieces of `n` bytes from `va`, one for each page they touch (at most three); no byte touches none. -/
def pageCuts : Nat → Nat → Nat → List (Nat × Nat)
  | 0, _, _ => []
  | k + 1, va, n =>
    let here := 4096 - va % 4096
    if n = 0 then [] else if n ≤ here then [(va, n)] else (va, here) :: pageCuts k (va + here) (n - here)

/-- Translation of a run of bytes: a physical piece for each page (R175: every byte is checked). -/
def translateRun (s : State) (core vf : Nat) (acc : AccKindT) : List (Nat × Nat) → Except Flt (List (Nat × Nat) × Nat)
  | [] => .ok ([], 0)
  | (va, n) :: r =>
    match translate s core vf (w64 va) acc with
    | .error f => .error f
    | .ok p =>
      match translateRun s core vf acc r with
      | .error f => .error f
      | .ok (ps, _) => .ok ((p.pa, n) :: ps, p.mt)

/-- Bytes read through an address space at their homes, for the management core and the dispatcher (R479): none where
some byte does not translate or its leaf lacks V1; no byte needs none. -/
def readVirtual (s : State) (vf va n : Nat) : Except Flt (List Byte) :=
  if n ≠ 0 ∧ 2 ^ 48 < va + n then .error ⟨.translation, trInfo .load 5 1, w64 va⟩
  else
    match translateRun s Config.numCores vf .load (pageCuts (n / 4096 + 2) va n) with
    | .error f => .error f
    | .ok (ps, _) => .ok (ps.flatMap (fun (a, k) => s.readBytes a k))

/-! ## The page-request queue (R307, R308) -/

/-- Entries of a partition in a queue that are shared, or reserved. -/
def prqCount (q : List PageReq) (part : Nat) (shared : Bool) : Nat :=
  (q.filter (fun r => r.part == part && r.shared == shared)).length

/-- Whether a miss that waits for an entry still stands: its sheet is parked for it, its command has started, its launch or
round is undecided. -/
def Misser.stands (s : State) : Misser → Bool
  | .user (.sheet sid) => (s.sheet? sid).any (fun sh => sh.park == .service)
  | .user (.command core e) => (lookup (s.core core).cmds e).any (fun c => c.phase == .started)
  | .launch q => s.launches.contains q
  | .spawn q => s.spawns.contains q
  | .round part g roff => s.rounds.any (fun r => r.part == part && r.group == g && r.roff == roff)

/-- A miss joins the entry for its page, or takes a free reserved entry, or a shared one within the cap; else it waits, behind
the misses of its partition that wait already. `acc` is the access code of R285. -/
def joinRequest (s : State) (die part vf page acc : Nat) (who : Misser) : State :=
  let d := s.die die
  let same (r : PageReq) : Bool := r.part == part && r.vf == vf && r.page == page
  let add (r : PageReq) : PageReq := if r.who.contains who then r else { r with who := r.who ++ [who] }
  let line := d.waiting.filter (fun w => w.2.stands s)
  let rest := line.filter (fun w => w.2 != who)
  let new (shared : Bool) : State :=
    s.setDie die { d with prq := d.prq ++ [⟨part, vf, page, acc, [who], shared⟩], waiting := rest }
  if d.prq.any same then s.setDie die { d with prq := d.prq.map (fun r => if same r then add r else r), waiting := rest }
  else if (line.takeWhile (fun w => w.2 != who)).any (fun w => w.1 == part) then
    s.setDie die { d with waiting := if line.any (fun w => w.2 == who) then line else line ++ [(part, who)] }
  else if prqCount d.prq part false < 4 then new false
  else if prqCount d.prq part true < min 64 (s.part part).prqcap ∧ (d.prq.filter (fun r => r.shared)).length < 352 then
    new true
  else s.setDie die { d with waiting := if line.any (fun w => w.2 == who) then line else line ++ [(part, who)] }

/-! ## Caches (R305) -/

/-- A valid leaf enters a cache of `cap` entries; a full cache loses an entry chosen freely (log 2). -/
def cacheLeaf (m : SMap Leaf) (cap pick key : Nat) (l : Leaf) : SMap Leaf :=
  if (lookup m key).isSome ∨ m.length < cap then put m key l
  else put (drop m ((keys m).getD (pick % m.length) 0)) key l

def cacheCore (s : State) (core key : Nat) (l : Leaf) : State :=
  s.mapCore core (fun k => { k with tlb := cacheLeaf k.tlb 64 (s.free 2001) key l })
def cacheCluster (s : State) (core key : Nat) (l : Leaf) : State :=
  let c := s.cluster (clusterOf core)
  s.setCluster (clusterOf core) { c with tlb := cacheLeaf c.tlb 1024 (s.free 2002) key l }
def cacheDie (s : State) (core key : Nat) (l : Leaf) : State :=
  let d := s.die (dieOf core)
  s.setDie (dieOf core) { d with tlb := cacheLeaf d.tlb 16384 (s.free 2003) key l }

end Sys2Proof.Machine
end

