-- ==== Sys2Proof/Machine/Home.lean ====
section
/-! DEFINITION. The homes of memory (R13, R22, R192, R193, R205, R309, R310): where an address has its home, the memory
controllers (R316), the lines of the L2s, registrations, and the writes performed at a home. -/

namespace Sys2Proof.Machine

/-! ## Where an address has its home (R192) -/

/-- The die of a physical address's home. -/
def homeDie (pa : Nat) : Nat := homeIndex pa / 32
/-- The stack, 0 to 7, and the channel in the stack, 0 to 15. -/
def homeStack (pa : Nat) : Nat := homeIndex pa / 16
def homeChannel (pa : Nat) : Nat := homeIndex pa % 16
/-- The byte within its channel of an address of device memory. -/
def homeOffset (pa : Nat) : Nat := bits pa 14 25 * 128 + pa % 128
/-- L2 bank of the home die, and set within the bank. -/
def homeBank (pa : Nat) : Nat := bits pa 14 8
def homeSetOf (pa : Nat) : Nat := bits pa 22 9
/-- The die, bank and set of a line. -/
def homeSet (line : Nat) : Nat × Nat × Nat := (homeDie (128 * line), homeBank (128 * line), homeSetOf (128 * line))

/-- The dies that traffic between two dies passes, column first, then row (R13): dies 0 and 1 are the upper row. -/
def meshRoute (src dst : Nat) : List Nat :=
  let turn := src / 2 * 2 + dst % 2
  if src = dst then [src] else if turn = src ∨ turn = dst then [src, dst] else [src, turn, dst]

/-! ## Memory controllers (R316) -/

/-- Weight of a class of requests: MEMW of a partition, 255 for the management core on no partition's behalf. -/
def memWeight (s : State) (cls : Nat) : Nat := if cls < Config.numPartitions then max (s.part cls).memw 1 else 255

/-- Requests of the management core and of the host, on no partition's behalf (R316; log 66). -/
def noPart : Nat := Config.numPartitions
/-- Who asks at a home: the class of R316 (a partition, or none), the core (1,536 for none), and the sheet and slot that a sample
names (R337). -/
structure Asker where
  cls : Nat
  core : Nat
  sid : Nat
  slot : Nat
  deriving DecidableEq, Repr
/-- A unit of the device that belongs to no core asks on behalf of a class. -/
def Asker.device (cls : Nat) : Asker := ⟨cls, Config.numCores, 16 * Config.numCores, 7⟩
/-- The host, a peer device or the management core asks on no partition's behalf. -/
def Asker.outside : Asker := Asker.device noPart

/-- A request of `n` sectors arrives at its controller: start and finish tags, exact rationals (R316). -/
def memArrive (s : State) (ch : Nat) (x : Asker) (n sector : Nat) (write : Bool) : State :=
  let c := s.channel ch
  let start := max c.v (getD c.finish 0 x.cls)
  s.setChannel ch { c with
    finish := setD c.finish 0 x.cls (start + (n * 256 : Nat) / (memWeight s x.cls : Nat))
    waiting := c.waiting ++ [⟨x.cls, n, sector, start, write, x.core⟩] }
/-- A request for the sector of a physical address; host memory has no controller here. -/
def memRequest (s : State) (x : Asker) (pa : Nat) (write : Bool) : State :=
  if pa < Config.devMemTop then memArrive s (homeIndex pa) x 1 (pa / 32) write else s

/-! ## Registrations (R193) -/

/-- The word addresses (4-byte units) that `n` bytes at `pa` touch. -/
def wordsOf (pa n : Nat) : List Nat :=
  if n = 0 then [] else (List.range ((pa + n - 1) / 4 - pa / 4 + 1)).map (· + pa / 4)

/-- Key of a word in the ways of a half of an L1 (R90): half 0 is all of it in a whole core. -/
def l1Key (half word : Nat) : Nat := half * 2 ^ 50 + word

/-- The home invalidates a word in an L1 and forgets its registration (R193). -/
def invalidateWord (s : State) (core word : Nat) : State :=
  let s := s.mapCore core (fun c => { c with l1 := drop (drop c.l1 (l1Key 0 word)) (l1Key 1 word) })
  if getD s.reg 0 word = core + 1 then { s with reg := drop s.reg word } else s

/-- Invalidates every registration of the words but that of `keep`, a core plus 1; 0 keeps none (R193). -/
def recallWords (s : State) (keep : Nat) (ws : List Nat) : State :=
  ws.foldl (fun s w =>
    let r := getD s.reg 0 w
    if r ≠ 0 ∧ r ≠ keep then invalidateWord s (r - 1) w else s) s

/-- Registers the words to a core. -/
def registerWords (s : State) (core : Nat) (ws : List Nat) : State :=
  { s with reg := ws.foldl (fun m w => setD m 0 w (core + 1)) s.reg }

/-! ## The lines of an L2 (R22, R193) -/

/-- A line leaves its L2: its registered words are invalidated in their L1s, its dirty sectors are written to memory (R193). -/
def evictLine (s : State) (line : Nat) : State :=
  let s := recallWords s 0 ((List.range 32).map (line * 32 + ·))
  match lookup s.l2 line with
  | none => s
  | some l =>
    (List.range 4).foldl (fun s k => if l.dirty.getLsbD k then
        memRequest s { Asker.device l.cls with core := l.core } (line * 128 + 32 * k) true else s)
      { s with l2 := drop s.l2 line }

/-- The unpinned lines of a line's set. -/
def setVictims (s : State) (line : Nat) : List Nat :=
  (keys s.l2).filter (fun l => homeSet l == homeSet line && (lookup s.pinned l).isNone)

/-- A line has a way of its set: where the 16 ways are in use, an unpinned line leaves, chosen freely (R22, R194; log 66). -/
def l2Allocate (s : State) (x : Asker) (line : Nat) : State :=
  if (lookup s.l2 line).isSome then s
  else
    let full := 16 ≤ ((keys s.l2).filter (fun l => homeSet l == homeSet line)).length
    let vs := setVictims s line
    let s := if full then (evictLine s (vs.getD (s.free 1002 % max vs.length 1) line)).drew else s
    { s with l2 := put s.l2 line ⟨0, 0, x.cls, x.core⟩ }

/-- One sector of a line is used at its home: a sector that is absent is filled from memory, but where all of it is
written; a write makes it dirty (R22). -/
def l2Sector (x : Asker) (write : Bool) (pa n : Nat) (s : State) (sector : Nat) : State :=
  let line := sector / 4
  let s := l2Allocate s x line
  match lookup s.l2 line with
  | none => s
  | some l =>
    let bit : BitVec 4 := BitVec.ofNat 4 (2 ^ (sector % 4))
    let whole := write && decide (pa ≤ 32 * sector ∧ 32 * sector + 32 ≤ pa + n)
    let s := if l.present.getLsbD (sector % 4) || whole then s else memRequest s x (32 * sector) false
    { s with l2 := put s.l2 line ⟨l.present ||| bit, if write then l.dirty ||| bit else l.dirty, x.cls, x.core⟩ }

/-- The sectors that `n` bytes touch. -/
def sectorsOf (pa n : Nat) : List Nat :=
  if n = 0 then [] else (List.range ((pa + n - 1) / 32 - pa / 32 + 1)).map (· + pa / 32)

/-- An event of a partition that a request makes (R328). -/
def Asker.event (x : Asker) (s : State) (ev n : Nat) : State :=
  if x.cls < Config.numPartitions ∧ n ≠ 0 then s.event x.cls x.core x.sid x.slot ev n else s
/-- `n` bytes are read or written at their home's L2. -/
def l2Touch (s : State) (x : Asker) (write : Bool) (pa n : Nat) : State := (sectorsOf pa n).foldl (l2Sector x write pa n) s
/-- The same, whose sectors count for the partition (R328). -/
def l2Use (s : State) (x : Asker) (write : Bool) (pa n : Nat) : State :=
  x.event (l2Touch s x write pa n) 7 (sectorsOf pa n).length
/-- The absent sectors of a line are filled (R194, R449). -/
def l2Fill (s : State) (x : Asker) (line : Nat) : State :=
  (List.range 4).foldl (fun s k =>
    if (lookup s.l2 line).any (fun l => l.present.getLsbD k) then s else l2Use s x false (128 * line + 32 * k) 32) s
/-- A sector holds a value that an L1 owns and has not sent home: it is dirty (R193, R212). -/
def l2Owe (s : State) (pa : Nat) : State :=
  match lookup s.l2 (pa / 128) with
  | none => s
  | some l => { s with l2 := put s.l2 (pa / 128) { l with dirty := l.dirty ||| BitVec.ofNat 4 (2 ^ (pa / 32 % 4)) } }

/-! ## Writes at a home -/

/-- Whether two runs of bytes share a byte. -/
def runsMeet (a n b m : Nat) : Bool := a < b + m && b < a + n

/-- Sets the dirty bit of every tracked page that `n` bytes at `pa` touch (R309, R310). -/
def markDirty (s : State) (pa n : Nat) : State :=
  s.parts.foldl (fun s e =>
    let d := e.2.dirty.toNat
    if bitAt d 0 && n != 0 then
      let first := bits d 52 40
      let count := bits d 96 32
      let base := bits d 12 40 * 4096
      let set (s : State) (page : Nat) : State :=
        if first ≤ page ∧ page < first + count then
          let k := page - first
          s.writeByte (base + k / 8) (s.readByte (base + k / 8) ||| BitVec.ofNat 8 (2 ^ (k % 8)))
        else s
      ((List.range ((pa + n - 1) / 4096 - pa / 4096 + 1)).map (· + pa / 4096)).foldl set s
    else s) s

/-- STATUS of a launch record (R38: bits 415:384). -/
def recStatus (s : State) (pa : Nat) : Nat := s.readNat (pa + 48) 4

/-- The sheets in LWAIT read STATUS after a write to the line of their record (R433). -/
def wakeLwait (s : State) (pa n : Nat) : State :=
  { s with sheets := s.sheets.map (fun e =>
      match e.2.sys with
      | .lwait _ q id =>
        if runsMeet pa n (q / 128 * 128) 128 ∧ 2 ≤ recStatus s q then (e.1, { e.2 with sys := .found (recStatus s q) id })
        else e
      | _ => e) }

/-- A write performed at its home: the page is marked, then the bytes are written. -/
def homeWrite (s : State) (pa : Nat) (bytes : List Byte) : State :=
  wakeLwait ((markDirty s pa bytes.length).writeBytes pa bytes) pa bytes.length

/-- A store on its way performed at its home (R205): other registrations are gone first, the words are registered to
the storing core, its home sectors count (R328). A store that a host port accepted is there already; its flush ends (R206). -/
def homePerform (s : State) (h : HomeStore) : State :=
  if h.flush then s
  else
    let ws := wordsOf h.pa h.bytes.length
    homeWrite (registerWords (recallWords (l2Use s ⟨h.part, h.core, h.sid, h.slot⟩ true h.pa h.bytes.length) (h.core + 1) ws)
      h.core ws) h.pa h.bytes

/-! ## The order of the mesh (R13) -/

/-- Whether two cores reach two addresses over the same source and destination die of the mesh (R13). -/
def sameRoute (core pa core' pa' : Nat) : Bool :=
  dieOf core == dieOf core' && homeDie pa == homeDie pa' && dieOf core != homeDie pa
/-- The stores on their way of other sheets and words that must be performed at the home first: older ones of the same core
to a common word, and those that entered the mesh before it from its die to its home's die (R13, R205). -/
def homeBehind (older : List HomeStore) (h : HomeStore) : Bool :=
  older.any (fun o => !o.flush && !h.flush &&
    ((o.core == h.core && (wordsOf o.pa o.bytes.length).any (fun w => (wordsOf h.pa h.bytes.length).contains w)) ||
     sameRoute h.core h.pa o.core o.pa))

/-- The stores on their way that satisfy `p` with those that must be performed before them, and the others, each in its order. -/
def splitHomes (p : HomeStore → Bool) : List HomeStore → List HomeStore × List HomeStore
  | [] => ([], [])
  | h :: r =>
    let (go, keep) := splitHomes p r
    if p h || go.any (homeBehind [h]) then (h :: go, keep) else (go, h :: keep)
/-- Performs at their homes, in order, the stores on their way that satisfy `p`, and those behind which they stand. -/
def drainHomes (s : State) (p : HomeStore → Bool) : State :=
  let r := splitHomes p s.homeq
  r.1.foldl homePerform { s with homeq := r.2 }
/-- A request of a core reaches the home of an address: the stores that entered the mesh before it on its route are performed
(R13). -/
def reachHome (s : State) (core pa : Nat) : State :=
  if core < Config.numCores then drainHomes s (fun h => !h.flush && sameRoute core pa h.core h.pa) else s

/-- A write that no L1 makes, at its home (R13, R193, R217): every registration of the words goes first. -/
def engineStore (s : State) (x : Asker) (pa : Nat) (bytes : List Byte) : State :=
  homeWrite (recallWords (l2Touch (reachHome s x.core pa) x true pa bytes.length) 0 (wordsOf pa bytes.length)) pa bytes
/-- The same, whose sectors count for the partition (R328). -/
def engineWrite (s : State) (x : Asker) (pa : Nat) (bytes : List Byte) : State :=
  x.event (engineStore s x pa bytes) 7 (sectorsOf pa bytes.length).length
/-- Stores bytes over pieces at their homes. -/
def storePieces (s : State) (x : Asker) : List (Nat × Nat) → List Byte → State
  | [], _ => s
  | (a, n) :: r, bs => storePieces (engineWrite s x a (bs.take n)) x r (bs.drop n)
/-- A read that no L1 makes, of `n` bytes at their home (R13, R22). -/
def engineRead (s : State) (x : Asker) (pa n : Nat) : State := l2Use (reachHome s x.core pa) x false pa n

/-! ## Page walks (R305) -/

/-- The requester of a walk for an access in the address space of a virtual function. -/
def walkAsker (s : State) (vf core sid slot : Nat) : Asker := ⟨((s.vf vf).part).getD noPart, core, sid, slot⟩

/-- The lookups of R305 for the page of an address, in their order; a valid leaf enters the caches that missed. A walk reads its
entries at their home L2. -/
def lookPage (s : State) (vf core sid slot va : Nat) : State :=
  let key := tlbKey vf va
  if 2 ^ 48 ≤ va ∨ (lookup (s.core core).tlb key).isSome then s
  else
    let x := walkAsker s vf core sid slot
    let s := x.event s 0x16 1
    match lookup (s.cluster (clusterOf core)).tlb key with
    | some l => (cacheCore s core key l).drew
    | none =>
      match lookup (s.die (dieOf core)).tlb key with
      | some l => (cacheCore (cacheCluster s core key l) core key l).drew
      | none =>
        let r := walk s vf va
        let s := ((walkEntries s va 4 1 ((s.vf vf).troot * 4096)).filter (fun a => decide (a < Config.devMemTop))).foldl
          (fun s a => engineRead s x a 8) (x.event s 0x17 1)
        match r with
        | .ok l => (cacheCore (cacheCluster (cacheDie s core key l) core key l) core key l).drew
        | .error _ => s
/-- The pages of a run of addresses are looked up. -/
def lookRun (s : State) (vf core sid slot va n : Nat) : State :=
  (pageCuts (n / 4096 + 2) va n).foldl (fun s e => lookPage s vf core sid slot e.1) s
/-- PAGE_WALK: a core looks a page up. -/
def pageWalk (core vf vpage : Nat) (s : State) : State := lookPage s vf core (16 * core) 7 (vpage * 4096)

end Sys2Proof.Machine
end

