-- ==== Sys2Proof/Machine/Flags.lean ====
section
/-! DEFINITION. The flags of the floating-point status register (R149 to R153), and the one integer condition that
faults. A set of flags is the 6 bits of FPSR, in its order. -/

namespace Sys2Proof

/-- FPSR bits 5 to 0: EI NX UF OF DZ NV (R150). -/
abbrev Flags := BitVec 6

namespace Flags
def nv : Flags := 1
def dz : Flags := 2
def ovf : Flags := 4
def uf : Flags := 8
def nx : Flags := 16
def ei : Flags := 32
/-- A flag raised when the condition holds. -/
def when (c : Bool) (f : Flags) : Flags := if c then f else 0
/-- Whether some raised flag is enabled in FPCR (R151, R153). -/
def traps (fpcr : BitVec 9) (f : Flags) : Bool := f &&& fpcr.setWidth 6 != 0
/-- Whether the trap is INTERVAL_EMPTY: EI raised and enabled (R153). -/
def trapsEmpty (fpcr : BitVec 9) (f : Flags) : Bool := f.getLsbD 5 && fpcr.getLsbD 5
end Flags

/-- Flush-to-zero of FPCR (R151). -/
def fpcrFtz (fpcr : BitVec 9) : Bool := fpcr.getLsbD 8

end Sys2Proof
end

