-- ==== Sys2Proof/Machine/Float.lean ====
section
/-! DEFINITION. Floating-point arithmetic, exact and then rounded once: the formats of R141 to R145, rounding and flags
of R146 to R149, conversions of R154 to R157, and the approximate functions of R389, R404, R450 and R458, whose
results the spec bounds and leaves open inside the bound (log 19). -/

namespace Sys2Proof

/-- A format (R141): exponent and fraction widths, whether all-ones exponents are infinities and NaNs, and the code of
the largest finite magnitude. -/
structure Fmt where
  eb : Nat
  mb : Nat
  ieee : Bool
  maxCode : Nat
  deriving DecidableEq, Repr

namespace Fmt
def f64 : Fmt := ⟨11, 52, true, 0x7FEFFFFFFFFFFFFF⟩
def f32 : Fmt := ⟨8, 23, true, 0x7F7FFFFF⟩
def f16 : Fmt := ⟨5, 10, true, 0x7BFF⟩
def bf16 : Fmt := ⟨8, 7, true, 0x7F7F⟩
def e4m3 : Fmt := ⟨4, 3, false, 0x7E⟩
def e3m2 : Fmt := ⟨3, 2, false, 0x1F⟩
def e2m3 : Fmt := ⟨2, 3, false, 0x1F⟩
def e2m1 : Fmt := ⟨2, 1, false, 0x7⟩
/-- Width in bits. -/
def width (f : Fmt) : Nat := 1 + f.eb + f.mb
def bias (f : Fmt) : Nat := 2 ^ (f.eb - 1) - 1
/-- Exponent of the last place of a subnormal. -/
def emin (f : Fmt) : Int := 1 - (f.bias : Int) - (f.mb : Int)
/-- The sign bit. -/
def signBit (f : Fmt) (neg : Bool) : Nat := if neg then 2 ^ (f.eb + f.mb) else 0
/-- Code of infinity of an IEEE format. -/
def infCode (f : Fmt) : Nat := (2 ^ f.eb - 1) * 2 ^ f.mb
/-- The canonical quiet NaN (R147). -/
def nan (f : Fmt) : Nat := if f.ieee then f.infCode + 2 ^ (f.mb - 1) else 0x7F
end Fmt

/-- The format of a type field (R123). -/
def FType.fmt : FType → Fmt
  | .f32 => .f32 | .f64 => .f64 | .f16 => .f16 | .bf16 => .bf16
def XType.fmt : XType → Fmt
  | .f32 => .f32 | .f16 => .f16 | .bf16 => .bf16
/-- Whether FTZ bears on a type (R148). -/
def FType.flushes : FType → Bool
  | .f16 => true | .bf16 => true | _ => false
def XType.flushes : XType → Bool
  | .f32 => false | _ => true

/-- What a code stands for: a NaN (signaling or not), an infinity, or the exact number `± m * 2 ^ e`. -/
inductive FVal where
  | nan (sig : Bool)
  | inf (neg : Bool)
  | fin (neg : Bool) (m : Nat) (e : Int)
  deriving DecidableEq, Repr

def FVal.neg? : FVal → Bool
  | .nan _ => false | .inf n => n | .fin n _ _ => n
def FVal.negate : FVal → FVal
  | .nan s => .nan s | .inf n => .inf (!n) | .fin n m e => .fin (!n) m e
def FVal.isNan : FVal → Bool
  | .nan _ => true | _ => false
def FVal.isSig : FVal → Bool
  | .nan s => s | _ => false
def FVal.isZero : FVal → Bool
  | .fin _ m _ => m == 0 | _ => false

/-- The value of a code (R141, R142); a subnormal is read as zero under `ftz` (R148). -/
def unpack (f : Fmt) (ftz : Bool) (x : Nat) : FVal :=
  let neg := bitAt x (f.eb + f.mb)
  let e := bits x f.mb f.eb
  let m := x % 2 ^ f.mb
  if f.ieee && e == 2 ^ f.eb - 1 then
    if m = 0 then .inf neg else .nan (m < 2 ^ (f.mb - 1))
  else if f == .e4m3 && x % 128 == 127 then .nan false
  else if e = 0 then .fin neg (if ftz then 0 else m) f.emin
  else .fin neg (m + 2 ^ f.mb) (f.emin + e - 1)

/-- Whether a truncated magnitude is rounded up (R146): `rem` of `2 ^ sh` is cut off, `sticky` says more follows. -/
def roundsUp (rnd : Rnd) (neg odd : Bool) (rem sh : Nat) (sticky : Bool) : Bool :=
  let inexact := rem != 0 || sticky
  match rnd with
  | .rne => if 2 * rem = 2 ^ sh then sh != 0 && (sticky || odd) else 2 ^ sh < 2 * rem
  | .rtz => false
  | .rup => inexact && !neg
  | .rdn => inexact && neg

/-- `m * 2 ^ e` rounded to a multiple of `2 ^ q`, and whether it is inexact. -/
def roundAt (rnd : Rnd) (neg : Bool) (m : Nat) (e q : Int) (sticky : Bool) : Nat × Bool :=
  if q ≤ e then (m * 2 ^ (e - q).toNat, sticky)
  else
    let sh := (q - e).toNat
    let k := m / 2 ^ sh
    let rem := m % 2 ^ sh
    (if roundsUp rnd neg (k % 2 == 1) rem sh sticky then k + 1 else k, rem != 0 || sticky)

/-- The magnitude code of a nonzero `m * 2 ^ e` rounded once with the exponent unbounded above, whether it is inexact,
and whether it is tiny after rounding (R149). -/
def roundCode (f : Fmt) (rnd : Rnd) (neg : Bool) (m : Nat) (e : Int) (sticky : Bool) : Nat × Bool × Bool :=
  let q0 : Int := e + Nat.log2 m - f.mb
  let q := max q0 f.emin
  let (k, nx) := roundAt rnd neg m e q sticky
  let (k0, _) := roundAt rnd neg m e q0 sticky
  let tiny := q0 < f.emin ∧ ¬(q0 = f.emin - 1 ∧ 2 ^ (f.mb + 1) ≤ k0)
  ((q - f.emin).toNat * 2 ^ f.mb + k, nx, decide tiny)

/-- The code an IEEE format delivers on overflow (R149). -/
def overflowCode (f : Fmt) (rnd : Rnd) (neg : Bool) : Nat :=
  match rnd, neg with
  | .rne, _ => f.infCode
  | .rtz, _ => f.maxCode
  | .rup, false => f.infCode
  | .rup, true => f.maxCode
  | .rdn, false => f.maxCode
  | .rdn, true => f.infCode

/-- An exact number rounded once to an IEEE format, with its flags (R146, R148, R149). A zero keeps its sign. -/
def roundFin (f : Fmt) (rnd : Rnd) (ftz neg : Bool) (m : Nat) (e : Int) (sticky : Bool) : Nat × Flags :=
  if m = 0 ∧ sticky = false then (f.signBit neg, 0)
  else
    let (c, nx, tiny) := roundCode f rnd neg m e sticky
    if f.maxCode < c then (f.signBit neg + overflowCode f rnd neg, .ovf ||| .nx)
    else if ftz && tiny then (f.signBit neg, .uf ||| .nx)
    else (f.signBit neg + c, .when nx .nx ||| .when (tiny && nx) .uf)

/-- A value delivered in an IEEE format (R147, R154). -/
def deliverVal (f : Fmt) (rnd : Rnd) (ftz : Bool) (v : FVal) : Nat × Flags :=
  match v with
  | .nan _ => (f.nan, 0)
  | .inf n => (f.signBit n + f.infCode, 0)
  | .fin n m e => roundFin f rnd ftz n m e false

/-- Invalid, with the canonical NaN. -/
def invalid (f : Fmt) : Nat × Flags := (f.nan, .nv)

/-- A signed magnitude as an integer of units `2 ^ q`, for `q` at or below its exponent. -/
def unitsOf (neg : Bool) (m : Nat) (e q : Int) : Int :=
  let k : Int := (m * 2 ^ (e - q).toNat : Nat)
  if neg then -k else k

/-- The sign of an exact zero sum (R406). -/
def zeroSign (rnd : Rnd) (n1 n2 : Bool) : Bool := if n1 = n2 then n1 else rnd == .rdn

/-- The exact sum of two finite values: sign, magnitude, exponent. -/
def sumFin (rnd : Rnd) (n1 : Bool) (m1 : Nat) (e1 : Int) (n2 : Bool) (m2 : Nat) (e2 : Int) : Bool × Nat × Int :=
  let q := min e1 e2
  let k := unitsOf n1 m1 e1 q + unitsOf n2 m2 e2 q
  if k = 0 then (if m1 = 0 ∧ m2 = 0 then zeroSign rnd n1 n2 else rnd == .rdn, 0, q)
  else (decide (k < 0), k.natAbs, q)

/-- Addition (R406). -/
def fpAdd (f : Fmt) (rnd : Rnd) (ftz : Bool) (a b : FVal) : Nat × Flags :=
  if a.isNan || b.isNan then (f.nan, .when (a.isSig || b.isSig) .nv)
  else match a, b with
    | .inf n, .inf n' => if n = n' then (f.signBit n + f.infCode, 0) else invalid f
    | .inf n, _ => (f.signBit n + f.infCode, 0)
    | _, .inf n => (f.signBit n + f.infCode, 0)
    | .fin n1 m1 e1, .fin n2 m2 e2 =>
      let (n, m, e) := sumFin rnd n1 m1 e1 n2 m2 e2
      roundFin f rnd ftz n m e false
    | _, _ => (f.nan, 0)

/-- The exact product; none for 0 times infinity. -/
def mulVal (a b : FVal) : Option FVal :=
  match a, b with
  | .fin n1 m1 e1, .fin n2 m2 e2 => some (.fin (n1 != n2) (m1 * m2) (e1 + e2))
  | .inf n1, .inf n2 => some (.inf (n1 != n2))
  | .inf n1, .fin n2 m _ => if m = 0 then none else some (.inf (n1 != n2))
  | .fin n1 m _, .inf n2 => if m = 0 then none else some (.inf (n1 != n2))
  | .nan s, _ => some (.nan s)
  | _, .nan s => some (.nan s)

/-- Multiplication (R406). -/
def fpMul (f : Fmt) (rnd : Rnd) (ftz : Bool) (a b : FVal) : Nat × Flags :=
  if a.isNan || b.isNan then (f.nan, .when (a.isSig || b.isSig) .nv)
  else match mulVal a b with
    | none => invalid f
    | some v => deliverVal f rnd ftz v

/-- Fused multiply-add (R406): 0 times infinity is invalid whatever the addend. -/
def fpFma (f : Fmt) (rnd : Rnd) (ftz : Bool) (a b c : FVal) : Nat × Flags :=
  if a.isNan || b.isNan then (f.nan, .when (a.isSig || b.isSig || c.isSig) .nv)
  else match mulVal a b with
    | none => invalid f
    | some v => fpAdd f rnd ftz v c

/-- Order of two values that are no NaN: -1, 0 or 1; zeros are equal (R159). -/
def cmpVal (a b : FVal) : Int :=
  match a, b with
  | .inf n, .inf n' => if n = n' then 0 else if n then -1 else 1
  | .inf n, _ => if n then -1 else 1
  | _, .inf n => if n then 1 else -1
  | .fin n1 m1 e1, .fin n2 m2 e2 =>
    let q := min e1 e2
    let d := unitsOf n1 m1 e1 q - unitsOf n2 m2 e2 q
    if d < 0 then -1 else if d = 0 then 0 else 1
  | _, _ => 0

/-- Less than, on values that are no NaN. -/
def ltVal (a b : FVal) : Bool := cmpVal a b < 0
def leVal (a b : FVal) : Bool := cmpVal a b ≤ 0

/-- The integer square root, bit by bit. -/
def isqrtGo : Nat → Nat → Nat → Nat
  | 0, _, r => r
  | k + 1, n, r => let r' := r + 2 ^ k; isqrtGo k n (if r' * r' ≤ n then r' else r)
def isqrt (n : Nat) : Nat := isqrtGo (Nat.log2 n / 2 + 1) n 0

/-- The square root of `m * 2 ^ e`, `m` nonzero: magnitude, exponent, whether more follows. -/
def sqrtMag (m : Nat) (e : Int) : Nat × Int × Bool :=
  let k : Nat := 130 + (if (e - 130) % 2 = 0 then 0 else 1)
  let n := m * 2 ^ k
  let r := isqrt n
  (r, (e - k) / 2, r * r != n)

/-- `m1 * 2 ^ e1 / (m2 * 2 ^ e2)`: magnitude, exponent, whether more follows. -/
def divMag (m1 : Nat) (e1 : Int) (m2 : Nat) (e2 : Int) : Nat × Int × Bool :=
  let n := m1 * 2 ^ 200
  (n / m2, e1 - 200 - e2, n % m2 != 0)

/-! ## Integers and conversions -/

/-- An exact value rounded to an integer (R156, R412), and whether it changed. -/
def roundInt (rnd : Rnd) (neg : Bool) (m : Nat) (e : Int) : Int × Bool :=
  let (k, nx) := roundAt rnd neg m e 0 false
  (if neg then -(k : Int) else k, nx)

/-- Conversion to a signed integer of `n` bits (R156). -/
def toInt (n : Nat) (rnd : Rnd) (v : FVal) : Int × Flags :=
  let lo : Int := -(2 ^ (n - 1) : Nat)
  let hi : Int := (2 ^ (n - 1) - 1 : Nat)
  match v with
  | .nan _ => (0, .nv)
  | .inf neg => (if neg then lo else hi, .nv)
  | .fin neg m e =>
    let (k, nx) := roundInt rnd neg m e
    if k < lo then (lo, .nv) else if hi < k then (hi, .nv) else (k, .when nx .nx)

/-- An integer as an exact value. -/
def ofInt (k : Int) : FVal := .fin (decide (k < 0)) k.natAbs 0

/-- Conversion between IEEE formats (R154, R409). -/
def fpConv (f : Fmt) (rnd : Rnd) (ftz : Bool) (v : FVal) : Nat × Flags :=
  let (c, fl) := deliverVal f rnd ftz v
  (c, fl ||| .when v.isSig .nv)

/-- Conversion to a narrow floating format (R155). -/
def toNarrow (f : Fmt) (toNan : Bool) (v : FVal) : Nat × Flags :=
  let big (neg : Bool) : Nat := if toNan then 0x7F else f.signBit neg + f.maxCode
  match v with
  | .nan sig => if f == .e4m3 then (0x7F, .when sig .nv) else (f.maxCode, .nv)
  | .inf neg => (big neg, .ovf ||| .nx)
  | .fin neg m e =>
    if m = 0 then (f.signBit neg, 0)
    else
      let (c, nx, tiny) := roundCode f .rne neg m e false
      if f.maxCode < c then (big neg, .ovf ||| .nx)
      else (f.signBit neg + c, .when nx .nx ||| .when (tiny && nx) .uf)

/-- Conversion of a NaN's code to a narrow format keeps the sign of the source where the target has no NaN (R155). -/
def toNarrowCode (f : Fmt) (toNan : Bool) (src : Fmt) (x : Nat) : Nat × Flags :=
  let v := unpack src false x
  if v.isNan && f != .e4m3 then (f.signBit (bitAt x (src.eb + src.mb)) + f.maxCode, .nv) else toNarrow f toNan v

def NFmt.fmt : NFmt → Fmt
  | .e4m3 => .e4m3 | .e3m2 => .e3m2 | .e2m3 => .e2m3 | .e2m1 => .e2m1 | _ => .e2m1
/-- Bits of an integer narrow format (R143); 0 for the floating ones. -/
def NFmt.intBits : NFmt → Nat
  | .int8 => 8 | .int4 => 4 | .int2 => 2 | _ => 0

/-! ## Approximate functions (log 19) -/

/-- An IEEE code as a number on a line, one step an ulp: negative codes below zero. -/
def ordOf (f : Fmt) (x : Nat) : Int :=
  let m := x % 2 ^ (f.eb + f.mb)
  if bitAt x (f.eb + f.mb) then -(m : Int) else m
/-- The code at a place of that line, held between the infinities. -/
def ofOrd (f : Fmt) (neg0 : Bool) (k : Int) : Nat :=
  let m := min k.natAbs f.infCode
  if k = 0 then f.signBit neg0 else f.signBit (k < 0) + m

/-- The magnitude of a code in units of the last place of a subnormal, with the exponent unbounded above. -/
def Fmt.mag (f : Fmt) (k : Nat) : Nat :=
  (if k < 2 ^ f.mb then k else 2 ^ f.mb + k % 2 ^ f.mb) * 2 ^ (max (k / 2 ^ f.mb) 1 - 1)
/-- The unit in the last place of a code, in the same units. -/
def Fmt.ulp (f : Fmt) (k : Nat) : Nat := 2 ^ (max (k / 2 ^ f.mb) 1 - 1)

/-- Whether code `k` lies within `n` units of 2 ^ `q` of the exact magnitude `m * 2 ^ e` (more where `sticky`). -/
def Fmt.near (f : Fmt) (n : Nat) (q : Int) (m : Nat) (e : Int) (sticky : Bool) (k : Nat) : Bool :=
  let lo := min e f.emin
  let v := f.mag k * 2 ^ (f.emin - lo).toNat
  let x := m * 2 ^ (e - lo).toNat
  let u := n * 2 ^ (q - lo).toNat
  decide (v ≤ x + u) && (if sticky then decide (x < v + u) else decide (x ≤ v + u))

/-- One of the results that a bound of `n` units in the last place allows (1 or 2) for the exact nonzero magnitude
`m * 2 ^ e` (and more where `sticky`): `pick` chooses. An exact result is delivered. The unit is that of the exact
value's binade. -/
def within (f : Fmt) (n : Nat) (ftz neg : Bool) (m : Nat) (e : Int) (sticky : Bool) (pick : Nat) : Nat × Flags :=
  let (c, nx, _) := roundCode f .rtz false m e sticky
  if nx = false then roundFin f .rne ftz neg m e false
  else
    let q : Int := max (e + Nat.log2 m - f.mb) f.emin
    let cands := ([c, c + 1, c + 2, c - 1, c - 2, c - 3].dedup).filter (fun k => decide (k ≤ f.maxCode) && f.near n q m e sticky k)
    let k := cands.getD (pick % max cands.length 1) c
    let tiny := k < 2 ^ f.mb
    if ftz && tiny then (f.signBit neg, .uf ||| .nx)
    else (f.signBit neg + k, .nx ||| .when tiny .uf)

/-- Fraction bits of the fixed-point approximations. -/
def fxp : Nat := 400
/-- ln 2 in units of 2^-400. -/
def ln2Fx : Nat := 1789879222497203190815761498240779176894896805856420935579692301363062920687047601279850318367644315849030039181347319086
/-- pi in units of 2^-400. -/
def piFx : Nat := 8112377246730971238862271351300894519161151600179265203591191037615230905373990498745523360926816815427566779727327576236

/-- Horner evaluation of the exponential series, `y` in units of 2^-400. -/
def expSeries : Nat → Nat → Nat → Nat → Nat
  | 0, _, _, acc => acc
  | k + 1, n, y, acc => expSeries k (n - 1) y (2 ^ fxp + acc * y / 2 ^ fxp / n)
/-- e ^ y for y below 1. -/
def expFx (y : Nat) : Nat := expSeries 90 90 y (2 ^ fxp)
/-- sin y for y below 2, by its series (R458): terms taken in pairs. -/
def sinGo : Nat → Nat → Nat → Nat → Int → Int → Int
  | 0, _, _, _, _, acc => acc
  | k + 1, n, y2, t, s, acc =>
    let t' := t * y2 / 2 ^ fxp / ((n + 1) * (n + 2))
    sinGo k (n + 2) y2 t' (-s) (acc - s * t')
def sinFx (y : Nat) : Nat := (sinGo 45 1 (y * y / 2 ^ fxp) y 1 (y : Int)).toNat
/-- log2 of `x / 2 ^ 400` in [1, 2): its fraction bits by repeated squaring. -/
def log2Go : Nat → Nat → Nat → Nat
  | 0, _, acc => acc
  | k + 1, x, acc =>
    let y := x * x / 2 ^ fxp
    if 2 ^ (fxp + 1) ≤ y then log2Go k (y / 2) (2 * acc + 1) else log2Go k y (2 * acc)
def log2Fx (x : Nat) : Nat := log2Go 200 x 0

/-- A finite magnitude in units of 2^-400, its integer part and its fraction. -/
def fixedOf (m : Nat) (e : Int) : Nat :=
  if 0 ≤ e + fxp then m * 2 ^ (e + fxp).toNat else m / 2 ^ (-(e + fxp)).toNat

/-- RCP (R450). -/
def fpRcp (f : Fmt) (ftz : Bool) (v : FVal) (pick : Nat) : Nat × Flags :=
  match v with
  | .nan s => (f.nan, .when s .nv)
  | .inf n => (f.signBit n, 0)
  | .fin n m e =>
    if m = 0 then (f.signBit n + f.infCode, .dz)
    else
      let (k, e', st) := divMag 1 0 m e
      if f.maxCode < (roundCode f .rup false k e' st).1 ∧ f.maxCode ≤ (roundCode f .rtz false k e' st).1
      then (f.signBit n + f.infCode, .ovf ||| .nx)
      else within f 1 ftz n k e' st pick

/-- RSQ (R450). -/
def fpRsq (f : Fmt) (ftz : Bool) (v : FVal) (pick : Nat) : Nat × Flags :=
  match v with
  | .nan s => (f.nan, .when s .nv)
  | .inf n => if n then invalid f else (0, 0)
  | .fin n m e =>
    if m = 0 then (f.signBit n + f.infCode, .dz)
    else if n then invalid f
    else
      let (d, e', st) := divMag 1 0 m e
      let (r, e2, st2) := sqrtMag (d * 2 ^ 2) (e' - 2)
      within f 1 ftz false r e2 (st || st2) pick

/-- SQRT (R450), rounded once by RNE. -/
def fpSqrt (f : Fmt) (ftz : Bool) (v : FVal) : Nat × Flags :=
  match v with
  | .nan s => (f.nan, .when s .nv)
  | .inf n => if n then invalid f else (f.infCode, 0)
  | .fin n m e =>
    if m = 0 then (f.signBit n, 0)
    else if n then invalid f
    else
      let (r, e', st) := sqrtMag m e
      roundFin f .rne ftz false r e' st

/-- 2 ^ x for a finite x given as sign, magnitude, exponent: magnitude, exponent and whether more follows; x must lie
between -2000 and 2000. -/
def exp2Mag (n : Bool) (m : Nat) (e : Int) : Nat × Int × Bool :=
  let x := fixedOf m e
  let i : Int := (x / 2 ^ fxp : Nat)
  let fr := x % 2 ^ fxp
  let whole := fr = 0 ∧ (0 ≤ e + fxp)
  if whole then (1, if n then -i else i, false)
  else if n then (expFx ((2 ^ fxp - fr) * ln2Fx / 2 ^ fxp), -i - 1 - fxp, true)
  else (expFx (fr * ln2Fx / 2 ^ fxp), i - fxp, true)

/-- EXP2 (R404). -/
def fpExp2 (f : Fmt) (ftz : Bool) (v : FVal) (pick : Nat) : Nat × Flags :=
  match v with
  | .nan s => (f.nan, .when s .nv)
  | .inf n => if n then (0, 0) else (f.infCode, 0)
  | .fin n m e =>
    if m = 0 then roundFin f .rne ftz false 1 0 false
    else if 12 < e + Nat.log2 m then (if n then (0, .uf ||| .nx) else (f.infCode, .ovf ||| .nx))
    else
      let (k, e', st) := exp2Mag n m e
      if f.maxCode < (roundCode f .rup false k e' st).1 then (f.infCode, .ovf ||| .nx)
      else if e' + Nat.log2 k < f.emin - 1 then (0, .uf ||| .nx)
      else within f 2 ftz false k e' st pick

/-- LOG2 of a positive finite number: sign, magnitude in units of 2^-200, and whether it is exact. -/
def log2Mag (m : Nat) (e : Int) : Bool × Nat × Bool :=
  let l := Nat.log2 m
  let i : Int := e + l
  let exact := m = 2 ^ l
  let x := m * 2 ^ fxp / 2 ^ l
  let k : Int := i * (2 ^ 200 : Nat) + (log2Fx x : Nat)
  (decide (k < 0), k.natAbs, exact)

/-- LOG2 (R404). -/
def fpLog2 (f : Fmt) (ftz : Bool) (v : FVal) (pick : Nat) : Nat × Flags :=
  match v with
  | .nan s => (f.nan, .when s .nv)
  | .inf n => if n then invalid f else (f.infCode, 0)
  | .fin n m e =>
    if m = 0 then (f.signBit true + f.infCode, .dz)
    else if n then invalid f
    else
      let (neg, k, exact) := log2Mag m e
      if exact then roundFin f .rne ftz neg k (-200) false
      else within f 2 ftz neg k (-200) true pick

/-- sin of 2 pi x, x = fr / 2^400 in [0, 1): sign and magnitude in units of 2^-400; 0 and 1 are exact (R458). -/
def sinTurn (fr : Nat) : Bool × Nat × Bool :=
  let quarter := 2 ^ (fxp - 2)
  let k := fr / quarter
  let r := fr % quarter
  let arg := if k % 2 = 0 then r else quarter - r
  let neg := decide (2 ≤ k)
  if arg = 0 then (neg, 0, true)
  else if arg = quarter then (neg, 2 ^ fxp, true)
  else (neg, sinFx (arg * 2 * piFx / 2 ^ fxp), false)

/-- The fraction of a turn of a finite x. -/
def turnOf (n : Bool) (m : Nat) (e : Int) : Nat :=
  let fr := fixedOf m e % 2 ^ fxp
  if n && fr != 0 then 2 ^ fxp - fr else fr

/-- SIN (R458). -/
def fpSin (f : Fmt) (ftz : Bool) (v : FVal) (pick : Nat) : Nat × Flags :=
  match v with
  | .nan s => (f.nan, .when s .nv)
  | .inf _ => invalid f
  | .fin n m e =>
    if m = 0 then (f.signBit n, 0)
    else
      let (neg, k, exact) := sinTurn (turnOf n m e)
      if exact then (if k = 0 then (0, 0) else roundFin f .rne ftz neg k (-fxp) false)
      else within f 2 ftz neg k (-fxp) true pick

/-- COS (R389): the sine a quarter turn on; OF and UF are never set. -/
def fpCos (f : Fmt) (ftz : Bool) (v : FVal) (pick : Nat) : Nat × Flags :=
  match v with
  | .nan s => (f.nan, .when s .nv)
  | .inf _ => invalid f
  | .fin n m e =>
    let (neg, k, exact) := sinTurn ((turnOf n m e + 2 ^ (fxp - 2)) % 2 ^ fxp)
    let (c, fl) :=
      if exact then (if k = 0 then (0, 0) else roundFin f .rne ftz neg k (-fxp) false)
      else within f 2 ftz neg k (-fxp) true pick
    (c, fl &&& (.nx ||| .nv))

/-- TANH (R458). -/
def fpTanh (f : Fmt) (ftz : Bool) (v : FVal) (pick : Nat) : Nat × Flags :=
  match v with
  | .nan s => (f.nan, .when s .nv)
  | .inf n => deliverVal f .rne ftz (.fin n 1 0)
  | .fin n m e =>
    if m = 0 then (f.signBit n, 0)
    else if leVal (.fin false 9 0) (.fin false m e) then
      let (c, fl) := deliverVal f .rne ftz (.fin n 1 0)
      (c, fl ||| .nx)
    else
      let y := fixedOf m e / 16
      let e1 := expFx y
      let sq (x : Nat) := x * x / 2 ^ fxp
      let ex := sq (sq (sq (sq (sq e1))))
      let num := (ex - 2 ^ fxp) * 2 ^ fxp
      within f 2 ftz n (num / (ex + 2 ^ fxp)) (-fxp) true pick

end Sys2Proof
end

