-- ==== Sys2Proof/Machine/Interval.lean ====
section
/-! DEFINITION. FP32 intervals (R160 to R164, R414 to R421, R429, R461): encodings, outward rounding, the operations. -/

namespace Sys2Proof

/-- What 64 bits stand for as an interval (R160). -/
inductive Ival where
  | nai
  | empty
  | iv (lo hi : FVal)
  deriving DecidableEq, Repr

namespace Ival

def entireCode : Nat := 0x7F800000FF800000
def emptyCode : Nat := 0xFF8000007F800000
def naiCode : Nat := 0x7FC000007FC00000

/-- Whether two values are bounds of an interval (R160, R421). -/
def boundsOk (lo hi : FVal) : Bool :=
  !lo.isNan && !hi.isNan && leVal lo hi && lo != .inf false && hi != .inf true

/-- The interval of 64 bits (R160). -/
def ofCode (x : Nat) : Ival :=
  let lo := unpack .f32 false (x % 2 ^ 32)
  let hi := unpack .f32 false (x / 2 ^ 32)
  if x = emptyCode then .empty
  else if boundsOk lo hi then .iv lo hi else .nai

/-- The code -0 written +0, as a lower bound is (R161). -/
def fixLo (c : Nat) : Nat := if c = 2 ^ 31 then 0 else c

/-- The 64 bits of two bound codes (R160, R161). -/
def pack (lo hi : Nat) : W64 := w64 (fixLo lo + 2 ^ 32 * hi)

/-- A lower bound, rounded down; an upper bound, rounded up (R162). -/
def loCode (v : FVal) : Nat := (deliverVal .f32 .rdn false v).1
def hiCode (v : FVal) : Nat := (deliverVal .f32 .rup false v).1

/-- The interval of two exact bounds, rounded outward. -/
def make (lo hi : FVal) : W64 := pack (loCode lo) (hiCode hi)

def emptyW : W64 := w64 emptyCode
def naiW : W64 := w64 naiCode

/-- Least and greatest of two exact values; of two zeros, minus zero is the lesser, as R411 orders them. The sign of
an upper bound of zero is "that which its computation gives" (R161): DEDUCED, log 34. -/
def minV (a b : FVal) : FVal := if ltVal b a || (cmpVal a b == 0 && b.neg?) then b else a
def maxV (a b : FVal) : FVal := if ltVal a b || (cmpVal a b == 0 && a.neg?) then b else a

/-- A product of bounds, 0 times infinity taken as 0 (R162). -/
def mulB (a b : FVal) : FVal := (mulVal a b).getD (.fin false 0 0)

/-- An exact sum of bounds: an infinity wins; infinities of opposite signs do not meet in a bound. -/
def addB (rnd : Rnd) (a b : FVal) : FVal :=
  match a, b with
  | .inf n, _ => .inf n
  | _, .inf n => .inf n
  | .fin n1 m1 e1, .fin n2 m2 e2 => let (n, m, e) := sumFin rnd n1 m1 e1 n2 m2 e2; .fin n m e
  | _, _ => .nan false

/-- A two-interval operation on proper intervals, with R163 for the others. -/
def lift2 (f : FVal → FVal → FVal → FVal → W64 × Flags) (a b : Nat) : W64 × Flags :=
  match ofCode a, ofCode b with
  | .nai, _ => (naiW, 0)
  | _, .nai => (naiW, 0)
  | .empty, _ => (emptyW, 0)
  | _, .empty => (emptyW, 0)
  | .iv a1 a2, .iv b1 b2 => f a1 a2 b1 b2

/-- A one-interval operation (R163). -/
def lift1 (f : FVal → FVal → W64 × Flags) (b : Nat) : W64 × Flags :=
  match ofCode b with
  | .nai => (naiW, 0)
  | .empty => (emptyW, 0)
  | .iv b1 b2 => f b1 b2

def add (a b : Nat) : W64 × Flags :=
  lift2 (fun a1 a2 b1 b2 => (make (addB .rdn a1 b1) (addB .rup a2 b2), 0)) a b
def sub (a b : Nat) : W64 × Flags :=
  lift2 (fun a1 a2 b1 b2 => (make (addB .rdn a1 b2.negate) (addB .rup a2 b1.negate), 0)) a b

/-- Least and greatest of the four products of bounds (R415). -/
def mulBounds (a1 a2 b1 b2 : FVal) : FVal × FVal :=
  let p := mulB a1 b1; let q := mulB a1 b2; let r := mulB a2 b1; let t := mulB a2 b2
  (minV (minV p q) (minV r t), maxV (maxV p q) (maxV r t))

def mul (a b : Nat) : W64 × Flags :=
  lift2 (fun a1 a2 b1 b2 => let (l, h) := mulBounds a1 a2 b1 b2; (make l h, 0)) a b

/-- IVFMA (R415): the hull of x * y + z, each bound rounded once. -/
def fma (a b c : Nat) : W64 × Flags :=
  match ofCode a, ofCode b, ofCode c with
  | .iv a1 a2, .iv b1 b2, .iv c1 c2 =>
    let (l, h) := mulBounds a1 a2 b1 b2
    (make (addB .rdn l c1) (addB .rup h c2), 0)
  | .nai, _, _ => (naiW, 0)
  | _, .nai, _ => (naiW, 0)
  | _, _, .nai => (naiW, 0)
  | _, _, _ => (emptyW, 0)

def isNonneg (v : FVal) : Bool := leVal (.fin false 0 0) v
def isNonpos (v : FVal) : Bool := leVal v (.fin false 0 0)

def sqr (b : Nat) : W64 × Flags :=
  lift1 (fun b1 b2 =>
    let p := mulB b1 b1; let q := mulB b2 b2
    if isNonpos b1 && isNonneg b2 then (make (.fin false 0 0) (maxV p q), 0) else (make (minV p q) (maxV p q), 0)) b

def abs (b : Nat) : W64 × Flags :=
  lift1 (fun b1 b2 =>
    if isNonneg b1 then (make b1 b2, 0)
    else if isNonpos b2 then (make b2.negate b1.negate, 0)
    else (make (.fin false 0 0) (maxV b1.negate b2), 0)) b

/-- IVHULL (R420): an empty operand is the identity. -/
def hull (a b : Nat) : W64 × Flags :=
  match ofCode a, ofCode b with
  | .nai, _ => (naiW, 0)
  | _, .nai => (naiW, 0)
  | .empty, .empty => (emptyW, 0)
  | .empty, .iv b1 b2 => (make b1 b2, 0)
  | .iv a1 a2, .empty => (make a1 a2, 0)
  | .iv a1 a2, .iv b1 b2 => (make (minV a1 b1) (maxV a2 b2), 0)

/-- IVMEET (R420): disjoint intervals give the empty one and raise EI. -/
def meet (a b : Nat) : W64 × Flags :=
  lift2 (fun a1 a2 b1 b2 =>
    let l := maxV a1 b1; let h := minV a2 b2
    if ltVal h l then (emptyW, .ei) else (make l h, 0)) a b

/-- The midpoint as a code (R419): the exact half sum rounded by RNE; a zero is +0. -/
def midCode (b1 b2 : FVal) : Nat :=
  match b1, b2 with
  | .inf _, .inf _ => 0
  | .inf _, _ => Fmt.f32.signBit true + Fmt.f32.maxCode
  | _, .inf _ => Fmt.f32.maxCode
  | _, _ =>
    match addB .rne b1 b2 with
    | .fin n m e => if m = 0 then 0 else fixLo (deliverVal .f32 .rne false (.fin n m (e - 1))).1
    | _ => Fmt.f32.nan

/-- A scalar of an interval (R419): the canonical NaN for NaI and empty. -/
def scalar (f : FVal → FVal → Nat) (b : Nat) : W64 :=
  match ofCode b with
  | .iv b1 b2 => w64 (f b1 b2)
  | _ => w64 Fmt.f32.nan

def mid (b : Nat) : W64 := scalar midCode b
def lo (b : Nat) : W64 := scalar (fun _ _ => b % 2 ^ 32) b
def hi (b : Nat) : W64 := scalar (fun _ _ => b / 2 ^ 32 % 2 ^ 32) b
def wid (b : Nat) : W64 :=
  scalar (fun b1 b2 =>
    match b1, b2 with
    | .inf _, _ => Fmt.f32.infCode
    | _, .inf _ => Fmt.f32.infCode
    | _, _ => hiCode (addB .rup b2 b1.negate)) b

/-- IVBIS (R416): both halves at the midpoint. -/
def bis (b : Nat) : W64 × W64 :=
  match ofCode b with
  | .nai => (naiW, naiW)
  | .empty => (emptyW, emptyW)
  | .iv b1 b2 => (pack (b % 2 ^ 32) (midCode b1 b2), pack (midCode b1 b2) (b / 2 ^ 32 % 2 ^ 32))

/-- Three-valued codes (R158). -/
def tri (t f : Bool) : W64 := if t then 1 else if f then 0 else 2

/-- IVCMP (R164). -/
def cmp (r : Rel) (a b : Nat) : W64 :=
  match ofCode a, ofCode b with
  | .iv a1 a2, .iv b1 b2 =>
    let eqT := cmpVal a1 a2 == 0 && cmpVal a2 b1 == 0 && cmpVal b1 b2 == 0
    let eqF := ltVal a2 b1 || ltVal b2 a1
    match r with
    | .lt => tri (ltVal a2 b1) (leVal b2 a1)
    | .le => tri (leVal a2 b1) (ltVal b2 a1)
    | .eq => tri eqT eqF
    | .ne => tri eqF eqT
  | _, _ => 2

/-- IVIN (R417): A is a subset of B. -/
def isIn (a b : Nat) : W64 :=
  match ofCode a, ofCode b with
  | .nai, _ => 2
  | _, .nai => 2
  | .empty, _ => 1
  | .iv _ _, .empty => 0
  | .iv a1 a2, .iv b1 b2 => if leVal b1 a1 && leVal a2 b2 then 1 else 0

/-- IVMAKE (R421). -/
def mk (lo hi : Nat) : W64 × Flags :=
  if boundsOk (unpack .f32 false lo) (unpack .f32 false hi) then (pack lo hi, 0) else (naiW, .nv)

/-! ## The XFU functions (R418): each bound the tightest or up to two places beyond it (R162, log 19) -/

/-- The value of a finite bound in units of the last place of a subnormal. -/
def place (c : Nat) : Int := if bitAt c 31 then -(Fmt.f32.mag (c % 2 ^ 31) : Int) else Fmt.f32.mag (c % 2 ^ 31)
/-- The bounds from a finite tightest one outward, in steps of one code by `dir`, that lie within 2 of its units in the
last place. -/
def outward (dir : Int) (c : Nat) : List Nat :=
  ((List.range 5).map (fun (k : Nat) => if k = 0 then c else ofOrd .f32 false (ordOf .f32 c + dir * k))).filter (fun k =>
    decide (k % 2 ^ 31 ≤ Fmt.f32.maxCode) && decide ((place k - place c).natAbs ≤ 2 * Fmt.f32.ulp (c % 2 ^ 31)))
/-- One of them; an infinite tightest bound is delivered. -/
def moved (dir : Int) (c pick : Nat) : Nat :=
  if c % 2 ^ 31 ≤ Fmt.f32.maxCode then (outward dir c).getD (pick % max (outward dir c).length 1) c else c

/-- A lower and an upper bound, given as rounded by each direction: the exact bound where it is a number of the format
(R418's example), else the tightest moved outward by a free choice within 2 units (log 19). -/
def lowBound (f : Rnd → Nat) (pick : Nat) : Nat := if f .rdn = f .rup then f .rdn else moved (-1) (f .rdn) (pick % 60)
def highBound (f : Rnd → Nat) (pick : Nat) : Nat := if f .rdn = f .rup then f .rup else moved 1 (f .rup) (pick / 60)
/-- The interval of two bounds. -/
def loose (lo hi : Rnd → Nat) (pick : Nat) : W64 := pack (lowBound lo pick) (highBound hi pick)
/-- The same with a lower bound at or above +0. -/
def loosePos (lo hi : Rnd → Nat) (pick : Nat) : W64 :=
  pack (if bitAt (lowBound lo pick) 31 then 0 else lowBound lo pick) (highBound hi pick)

/-- A positive magnitude rounded to a bound. -/
def magCode (rnd : Rnd) (neg : Bool) (m : Nat) (e : Int) (st : Bool) : Nat :=
  (roundFin .f32 rnd false neg m e st).1

/-- 1 / v as a bound, `v` nonzero; 1 / infinity is 0 (R418), with the sign that RCP gives it (R161, R450; log 34). -/
def rcpCode (rnd : Rnd) (v : FVal) : Nat :=
  match v with
  | .fin n m e => let (k, e', st) := divMag 1 0 m e; magCode rnd n k e' st
  | .inf n => Fmt.f32.signBit n
  | .nan _ => 0

def rcp (b pick : Nat) : W64 × Flags :=
  lift1 (fun b1 b2 =>
    if b1.isZero && b2.isZero then (emptyW, .ei)
    else if b1.isZero then (loose (rcpCode · b2) (fun _ => Fmt.f32.infCode) pick, 0)
    else if b2.isZero then (loose (fun _ => Fmt.f32.signBit true + Fmt.f32.infCode) (rcpCode · b1) pick, 0)
    else if b1.neg? && !b2.neg? then (w64 entireCode, 0)
    else (loose (rcpCode · b2) (rcpCode · b1) pick, 0)) b

/-- The square root of a value at or above 0 as a bound; √-0 is -0 (R161, R450). -/
def sqrtCode (rnd : Rnd) (v : FVal) : Nat :=
  match v with
  | .inf _ => Fmt.f32.infCode
  | .fin n m e => if m = 0 then Fmt.f32.signBit n else let (r, e', st) := sqrtMag m e; magCode rnd false r e' st
  | .nan _ => Fmt.f32.nan

/-- IVSQRT: a lower bound stays at or above 0. -/
def sqrt (b pick : Nat) : W64 × Flags :=
  lift1 (fun b1 b2 =>
    if ltVal b2 (.fin false 0 0) then (emptyW, .ei)
    else
      (loosePos (sqrtCode · (maxV b1 (.fin false 0 0))) (sqrtCode · b2) pick, 0)) b

/-- 2 ^ v as a bound. -/
def exp2Code (rnd : Rnd) (v : FVal) : Nat :=
  match v with
  | .inf n => if n then 0 else Fmt.f32.infCode
  | .fin n m e =>
    if m = 0 then (roundFin .f32 rnd false false 1 0 false).1
    else if 12 < e + Nat.log2 m then
      (if n then (if rnd = .rup then 1 else 0) else overflowCode .f32 rnd false)
    else let (k, e', st) := exp2Mag n m e; magCode rnd false k e' st
  | .nan _ => Fmt.f32.nan

def exp2 (b pick : Nat) : W64 × Flags :=
  lift1 (fun b1 b2 =>
    (loosePos (exp2Code · b1) (exp2Code · b2) pick, 0)) b

/-- log2 of a value above 0 as a bound. -/
def log2Code (rnd : Rnd) (v : FVal) : Nat :=
  match v with
  | .inf _ => Fmt.f32.infCode
  | .fin _ m e => let (n, k, exact) := log2Mag m e
    if n && !exact then magCode rnd n (k - 1) (-200) true else magCode rnd n k (-200) (!exact)
  | .nan _ => Fmt.f32.nan

def log2 (b pick : Nat) : W64 × Flags :=
  lift1 (fun b1 b2 =>
    if isNonpos b2 then (emptyW, .ei)
    else
      (loose (fun r => if isNonpos b1 then Fmt.f32.signBit true + Fmt.f32.infCode else log2Code r b1) (log2Code · b2) pick, 0)) b

/-! ## FP64 intervals in memory (R429, R461) -/

/-- LDIV: the FP32 interval of an FP64 one. -/
def ofF64 (lo hi : Nat) : W64 :=
  let l := unpack .f64 false lo
  let h := unpack .f64 false hi
  if l = .inf false ∧ h = .inf true then emptyW
  else if boundsOk l h then make l h else naiW

/-- STIV: the two FP64 bounds stored. -/
def toF64 (x : Nat) : Nat × Nat :=
  match ofCode x with
  | .iv l h =>
    let lc := (deliverVal .f64 .rne false l).1
    (if lc = 2 ^ 63 then 0 else lc, (deliverVal .f64 .rne false h).1)
  | .empty => (0x7FF0000000000000, 0xFFF0000000000000)
  | .nai => (0x7FF8000000000000, 0x7FF8000000000000)

end Ival

end Sys2Proof
end

