-- ==== Sys2Proof/Machine/Memory.lean ====
section
/-! DEFINITION. Memory: the L1 of a core (R190, R191), the buffers and their owner bits (R175 to R184), the queues of a sheet
(R198 to R208), its network port (R317), and atomics (R212 to R214, R367, R372). -/

namespace Sys2Proof.Machine

/-! ## The L1 of a core

A half-core allocates in its own ways (R90); a store is written to a word wherever the core's L1 holds it, so that every sheet
of the core sees it at once (R205; log 67). -/

/-- The bytes of stores of this core still on their way, over the home's bytes (R191). -/
def overlayHome (s : State) (core pa n : Nat) : List Byte :=
  s.homeq.foldl (fun bs h =>
    if h.core = core ∧ h.flush = false ∧ runsMeet pa n h.pa h.bytes.length then
      bs.zipIdx.map (fun (b, k) => if h.pa ≤ pa + k ∧ pa + k < h.pa + h.bytes.length then h.bytes.getD (pa + k - h.pa) b else b)
    else bs) (s.readBytes pa n)

/-- A word of the L1 as a half of the core finds it. -/
def l1Find (s : State) (core half word : Nat) : Option L1Word := lookup (s.core core).l1 (l1Key half word)
/-- A word of the L1 of a half is set. -/
def l1Put (s : State) (core half word : Nat) (x : L1Word) : State :=
  s.mapCore core (fun c => { c with l1 := put c.l1 (l1Key half word) x })

/-- The line that leaves a full set to make room (R190): one of the resident lines of the set's 8 ways, 4 for a half-core
(R90), chosen freely. -/
def makeRoom (s : State) (core half line : Nat) : State :=
  let lines := ((s.core core).l1.filterMap (fun e => if e.1 / 2 ^ 50 = half then some (e.1 % 2 ^ 50 / 32) else none)).dedup
  let inSet := lines.filter (fun l => l % 64 == line % 64)
  if line ∈ lines ∨ inSet.length < (if (s.core core).split then 4 else 8) then s
  else
    let victim := inSet.getD (s.free 1001 % inSet.length) 0
    (s.mapCore core (fun c => { c with l1 := c.l1.filter (fun e => e.1 / 32 != l1Key half (victim * 32) / 32) })).drew

/-- The value of a word at its home, with this core's stores on their way. -/
def homeWord (s : State) (core word : Nat) : BitVec 32 := BitVec.ofNat 32 (leNat (overlayHome s core (word * 4) 4))

/-- A fill of a 32-byte sector from its home: all its words but the owned ones become valid, with the values of that moment, so
that the valid words of a sector are of one moment (R13, R191, R202; log 35). -/
def fillSector (half : Nat) (x : Asker) (s : State) (sector : Nat) : State :=
  let s := makeRoom (x.event (engineRead s x (32 * sector) 32) 0x14 1) x.core half (sector / 4)
  ((List.range 8).map (8 * sector + ·)).foldl (fun s w =>
    if (l1Find s x.core half w).any (·.owned) then s else l1Put s x.core half w ⟨false, homeWord s x.core w⟩) s

/-- The sectors that an access of some words fills (R191): of those that are invalid; and, where the core owns some of its words,
of the valid ones that are older than its own (R202; log 35). -/
def fillsOf (s : State) (core half : Nat) (ws : List Nat) : List Nat :=
  let some_ := ws.any (fun w => (l1Find s core half w).any (·.owned))
  ((ws.filter (fun w => match l1Find s core half w with
    | none => true
    | some x => some_ && !x.owned && x.val != homeWord s core w)).map (· / 8)).dedup
/-- What a load of some words does before it reads them (R191). -/
def fillWords (s : State) (half : Nat) (x : Asker) (ws : List Nat) : State := (fillsOf s x.core half ws).foldl (fillSector half x) s

/-- Bytes of filled words. -/
def l1Bytes (s : State) (core half : Nat) (as_ : List Nat) : List Byte :=
  as_.map (fun a => BitVec.ofNat 8 (((l1Find s core half (a / 4)).elim (homeWord s core (a / 4)) (·.val)).toNat / 2 ^ (8 * (a % 4))))
/-- Bytes read through the L1 of a core (R199). -/
def l1Read (s : State) (half : Nat) (x : Asker) (as_ : List Nat) : List Byte × State :=
  let s := fillWords s half x (as_.map (· / 4)).dedup
  (l1Bytes s x.core half as_, s)

/-- What a store makes of one word of the L1 (R191): a store of the whole word allocates it, and takes a way where its line
has none (R190). -/
def l1StoreWord (s : State) (core half word : Nat) (f : BitVec 32 → BitVec 32) (whole : Bool) : State :=
  let s := match l1Find s core (1 - half) word with
    | some x => l1Put s core (1 - half) word ⟨true, f x.val⟩
    | none => s
  match l1Find s core half word with
  | some x => l1Put s core half word ⟨true, f x.val⟩
  | none => if whole then l1Put (makeRoom s core half (word / 32)) core half word ⟨true, f 0⟩ else s

/-- A word with the bytes of a run put over it. -/
def mergeWord (word pa : Nat) (bytes : List Byte) (old : BitVec 32) : BitVec 32 :=
  BitVec.ofNat 32 (leNat ((List.range 4).map (fun k =>
    if pa ≤ word * 4 + k ∧ word * 4 + k < pa + bytes.length then bytes.getD (word * 4 + k - pa) 0
    else BitVec.ofNat 8 (old.toNat / 2 ^ (8 * k)))))

/-- A global store performed at the L1, or written through (R191, R199); it goes on to its home. Under a non-coherent host
mapping the host port has accepted it, and its completion flush is under way (R206). -/
def globalStore (s : State) (sid part slot mt pa : Nat) (bytes : List Byte) : State :=
  let core := coreOf sid
  if mt = 2 then
    let s := homeWrite s pa bytes
    { s with homeq := s.homeq ++ [⟨core, sid, pa, bytes, part, s.ts, true, slot⟩] }
  else
    let s := (wordsOf pa bytes.length).foldl (fun s w =>
      l1StoreWord s core (s.colOf sid) w (mergeWord w pa bytes) (pa ≤ w * 4 && w * 4 + 4 ≤ pa + bytes.length)) s
    { s with homeq := s.homeq ++ [⟨core, sid, pa, bytes, part, s.ts, false, slot⟩] }

/-- An acquire at cluster scope or wider: every valid word of the L1 goes, owned words stay (R207); a half-core's acquire acts
on its own ways (R90; log 67). -/
def selfInvalidate (s : State) (core half : Nat) : State :=
  s.mapCore core (fun c => { c with l1 := c.l1.filter (fun e => e.2.owned || e.1 / 2 ^ 50 != half) })

/-- An acquire of a sheet at a scope (R207). -/
def acquire (s : State) (sid : Nat) (sc : Scope) : State := if sc = .wg then s else selfInvalidate s (coreOf sid) (s.colOf sid)

/-! ## Buffers -/

def Workgroup.readBuf (w : Workgroup) (isA : Bool) (off n : Nat) : List Byte :=
  (List.range n).map (fun k => getD (if isA then w.abuf else w.wbuf) 0 (off + k))
def setRun (m : SMap Byte) (off : Nat) : List Byte → SMap Byte
  | [] => m
  | b :: bs => setRun (setD m 0 off b) (off + 1) bs
def Workgroup.writeBuf (w : Workgroup) (isA : Bool) (off : Nat) (bytes : List Byte) : Workgroup :=
  if isA then { w with abuf := setRun w.abuf off bytes } else { w with wbuf := setRun w.wbuf off bytes }

/-- The blocks and limbs that an issued command holds (R183): operands until consumed, results until completion; a command that
a cause has stopped keeps what it held (R225), which is all of it where its operands were not consumed. -/
def Cmd.holds (c : Cmd) : List Res :=
  match c.phase with
  | .queued => []
  | .requested => c.reads ++ c.writes
  | .started => c.reads ++ c.writes
  | .consumed => c.writes
  | .stopped => if c.used then c.writes else c.reads ++ c.writes
  | .completed => []

/-- Every command of the device. -/
def State.allCmds (s : State) : List Cmd := s.cores.flatMap (fun e => vals e.2.cmds)

/-- Whether a block or tile is engine-owned (R183). -/
def engineOwned (s : State) (r : Res) : Bool := s.allCmds.any (fun c => decide (r ∈ c.holds))

/-- The 1 KiB blocks of a run of bytes of a buffer (R183). -/
def blocksOf (isA : Bool) (wg off n : Nat) : List Res :=
  if n = 0 then []
  else (List.range ((off + n - 1) / 1024 - off / 1024 + 1)).map (fun k =>
    if isA then .ablock wg (off / 1024 + k) else .wblock wg (off / 1024 + k))

/-! ## A sheet's results -/

/-- The results that land, in trigger order at each latch and thread (R70, R71): those that satisfy `p`, and the older ones of
their latch, unless an older one has no value yet. -/
def landGo (p : Flight → Bool) : List Flight → List (FUnit × Nat) → Sheet → List Flight → Sheet
  | [], _, sh, keep => { sh with flights := keep.reverse }
  | f :: r, blocked, sh, keep =>
    if (p f || r.any (fun g => p g && g.ready && g.unit == f.unit && g.thread == f.thread)) && f.ready &&
        !decide ((f.unit, f.thread) ∈ blocked) then
      landGo p r blocked (sh.deliver f.unit f.thread f.q f.w) keep
    else landGo p r ((f.unit, f.thread) :: blocked) sh (f :: keep)
def Sheet.landWhere (sh : Sheet) (p : Flight → Bool) : Sheet := landGo p sh.flights [] sh []
/-- Stalling results that have arrived land at once, in their order (R71). -/
def Sheet.landStalling (sh : Sheet) : Sheet := sh.landWhere (fun f => f.stalling)
/-- Everything that has a value lands (R73). -/
def Sheet.landAll (sh : Sheet) : Sheet := sh.landWhere (fun _ => true)
/-- The value of a stalling operation arrives. -/
def Sheet.fill (sh : Sheet) (id : Nat) (q w : Option W64) : Sheet :=
  { sh with flights := sh.flights.map (fun (f : Flight) => if f.id = id then { f with q := q, w := w, ready := true } else f) }.landStalling

/-! ## The queues -/

def Access.places (a : Access) : List Nat := a.pieces.flatMap (fun (p, n) => (List.range n).map (p + ·))
def Access.isLoad (a : Access) : Bool :=
  match a.kind with
  | .load => true | .atomic _ _ => true | .cas2 => true | _ => false
def Access.isStore (a : Access) : Bool :=
  match a.kind with
  | .store => true | .atomic _ _ => true | .cas2 => true | _ => false
def Access.isAtomic (a : Access) : Bool := a.isLoad && a.isStore
def Access.isOrder (a : Access) : Bool := a.kind == .order
/-- Memory type at one of its places: an LDX may lie on two pages (R189). -/
def Access.mtAt (a : Access) (p : Nat) : Nat :=
  match a.pieces with
  | [] => a.mt
  | (q, n) :: _ => if q ≤ p ∧ p < q + n then a.mt else a.mt1
/-- Places of a global access that it reaches through the L1 (R190). -/
def Access.cached (a : Access) : List Nat := a.places.filter (fun p => a.mtAt p != 2)

/-- Two accesses overlap if they share a byte of one space (R200). -/
def overlaps (a b : Access) : Bool :=
  !a.isOrder && !b.isOrder && a.space == b.space && a.peer == b.peer &&
  a.pieces.any (fun (p, n) => b.pieces.any (fun (q, m) => runsMeet p n q m))

/-- The buffer blocks an access touches. -/
def Access.blocks (a : Access) : List Res :=
  match a.space with
  | .g => []
  | .w => a.pieces.flatMap (fun (p, n) => blocksOf false a.peer p n)
  | _ => a.pieces.flatMap (fun (p, n) => blocksOf true a.peer p n)

/-- Whether an access waits for an engine (R184), or for an older command of its sheet to issue (R215). -/
def engineHolds (s : State) (sid : Nat) (a : Access) : Bool :=
  a.blocks.any (fun r => engineOwned s r ||
    (vals (s.core (coreOf sid)).cmds).any (fun c =>
      c.sid == sid && c.phase == .queued && c.flight < a.id && decide (r ∈ c.reads ++ c.writes)))

/-- Whether every store of the sheet is acknowledged at a scope (R206). -/
def acked (s : State) (sid : Nat) (sc : Scope) : Bool := sc == .wg || s.homeq.all (fun h => h.sid != sid)

/-- Whether an ordering operation is one of the SYN unit, which makes its operations in their order. -/
def OrdAction.isSyn : OrdAction → Bool
  | .arrive _ _ _ _ => true
  | .await _ _ _ => true
  | .bowait _ _ _ _ => true
  | .botest _ _ _ _ => true
  | .step _ _ _ _ _ => true
  | .sent _ => true
  | _ => false
/-- Whether an ordering operation is a step at an object or a header, an atomic access towards the sheet's own (R263, R423). -/
def OrdAction.atomic : OrdAction → Bool
  | .bowait _ _ _ _ => true
  | .botest _ _ _ _ => true
  | .step _ _ _ _ _ => true
  | _ => false
/-- Whether an ordering operation waits for its value. -/
def OrdAction.isHeld : OrdAction → Bool
  | .held _ => true
  | .sent _ => true
  | _ => false

/-- Whether an access may be performed after the older entries `pre` (R200, R201), one that is on its way to a saved
workgroup's buffer being still to come (R206), or an ordering operation complete (R207, R208): a release after every older access, its stores acknowledged; an acquire after every older load and atomic; QSYNC and
FENCE after every older access. -/
def canPerform (s : State) (sid : Nat) (pre : List Access) (a : Access) : Bool :=
  let relOk := match a.rel with
    | some sc => pre.all Access.isOrder && acked s sid sc
    | none => true
  !a.away && !engineHolds s sid a && relOk &&
  !(a.space == .pa && (s.wg? a.peer).isNone && pre.any (fun o => overlaps o a)) &&
  (match a.kind with
   | .order =>
     !a.act.isHeld && (a.acq == none || pre.all (fun o => !o.isLoad)) &&
     (!(a.drain || a.act.atomic) || pre.all Access.isOrder) &&
     (!a.act.isSyn || pre.all (fun o => !o.act.isSyn))
   | _ =>
     (!a.isLoad || pre.all (fun o => !o.isLoad && !o.blockLoads)) &&
     (!a.isStore || pre.all (fun o => !o.isStore && !o.blockStores && !overlaps o a)))

/-- The bytes of a load at its places: each from the youngest older store not yet performed (R201), or from memory. -/
def forwardByte (pre : List Access) (a : Access) (place : Nat) (b : Byte) : Byte :=
  pre.foldl (fun b o =>
    if o.kind = .store ∧ overlaps o a then
      match o.places.zip o.data |>.find? (fun (p, _) => p == place) with
      | some (_, d) => d
      | none => b
    else b) b

/-- Value of a load form (R427, R429, R430). -/
def LoadForm.value (f : LoadForm) (bs : List Byte) : Option W64 × Option W64 :=
  match f with
  | .zext => (some (w64 (leNat bs)), none)
  | .sext => (some (sext64 (8 * bs.length) (leNat bs)), none)
  | .pair => (some (w64 (leNat (bs.take 8))), some (w64 (leNat (bs.drop 8))))
  | .ldiv => (some (Ival.ofF64 (leNat (bs.take 8)) (leNat (bs.drop 8))), none)
  | .field start width sgn =>
    let v := leNat bs / 2 ^ start % 2 ^ width
    (some (if sgn then sext64 width v else w64 v), none)

/-- Who asks at a home for an access of a sheet. -/
def Access.asker (a : Access) (sid part : Nat) : Asker := ⟨part, coreOf sid, sid, a.slot⟩

/-- Reads the bytes of an access where it stands (R199). -/
def readAccess (s : State) (sid part : Nat) (a : Access) : List Byte × State :=
  match a.space with
  | .g =>
    let s' := fillWords s (s.colOf sid) (a.asker sid part) (a.cached.map (· / 4)).dedup
    ((a.places.zip (l1Bytes s' (coreOf sid) (s.colOf sid) a.places)).map (fun (p, b) => if a.mtAt p = 2 then s.readByte p else b), s')
  | sp =>
    match s.wg? a.peer with
    | some w => (a.pieces.flatMap (fun (p, n) => w.readBuf (sp != .w) p n), s)
    | none => (a.places.map (fun _ => 0), s)

/-- Writes the bytes of an access where it stands (R199). -/
def writeAccess (s : State) (sid part : Nat) (a : Access) (bytes : List Byte) : State :=
  match a.space with
  | .g => (a.pieces.foldl (fun (r : State × List Byte) (p, n) =>
      (globalStore r.1 sid part a.slot a.mt p (r.2.take n), r.2.drop n)) (s, bytes)).1
  | sp => a.pieces.foldl (fun s (p, n) => s.mapWg a.peer (fun w => w.writeBuf (sp != .w) p (bytes.take n))) s

/-! ## Atomics -/

/-- What an atomic writes, on `z`-byte values (R367, R372): none where nothing is written (a failed ACAS). -/
def RmwOp.apply (op : RmwOp) (z old x cmp : Nat) : Option Nat :=
  let m := 2 ^ (8 * z)
  match op with
  | .add => some ((old + x) % m)
  | .min => some (if signed (8 * z) old ≤ signed (8 * z) x then old else x)
  | .max => some (if signed (8 * z) old ≤ signed (8 * z) x then x else old)
  | .minu => some (Nat.min old x)
  | .maxu => some (Nat.max old x)
  | .and => some (Nat.land old x)
  | .or => some (Nat.lor old x)
  | .xor => some (Nat.xor old x)
  | .xchg => some x
  | .cas => if old = cmp then some x else none
  | .fadd =>
    let f := if z = 4 then Fmt.f32 else Fmt.f64
    some (fpAdd f .rne false (unpack f false old) (unpack f false x)).1

/-- Whether a core holds a line exclusively (R193, R212). -/
def exclusive (s : State) (core line : Nat) : Bool :=
  (List.range 32).all (fun k => getD s.reg 0 (line * 32 + k) == core + 1)

/-- Words leave both halves of a core's L1: what it reads next is no older than what it has read past the L1 (R204). -/
def forgetWords (s : State) (core : Nat) (ws : List Nat) : State :=
  s.mapCore core (fun c => { c with l1 := ws.foldl (fun m w => drop (drop m (l1Key 0 w)) (l1Key 1 w)) c.l1 })

/-- An atomic in global memory (R212): the core's own stores on their way to the line are performed first, and, where the line is
not held exclusively, those ahead of the request in the mesh (R13); other L1s lose the line; the bytes change; the core's L1 owns
the word unless the atomic is executed past it, at the home or at a host completer, which recalls every registration of the line.
An atomic on a line held exclusively asks nothing of the home, which is owed the sector. -/
def globalAtomic (s : State) (half mt pa z : Nat) (x : Asker) (inL1 : Bool) (f : Nat → Option Nat) : Nat × State :=
  let core := x.core
  let line := wordsOf (pa / 128 * 128) 128
  let write (s : State) : Nat × State :=
    let old := s.readNat pa z
    match f old with
    | some v => (old, homeWrite s pa (leBytes z v))
    | none => (old, s)
  let mine := inL1 && mt != 2 && exclusive s core (pa / 128)
  let s := drainHomes s (fun h => !h.flush &&
    ((h.core == core && runsMeet h.pa h.bytes.length (pa / 128 * 128) 128) || (!mine && sameRoute core pa h.core h.pa)))
  if mt = 2 ∨ inL1 = false then
    write (recallWords (forgetWords (if mt = 2 then s else l2Use s x true pa z) core (wordsOf pa z)) 0 line)
  else
    let s := if mine then l2Owe s pa else registerWords (recallWords (l2Use s x true pa z) (core + 1) line) core line
    let (old, s) := write s
    let s := makeRoom s core half (pa / 128)
    (old, (wordsOf pa z).foldl (fun s w =>
      let v : L1Word := ⟨true, BitVec.ofNat 32 (s.readNat (w * 4) 4)⟩
      let s := if (l1Find s core (1 - half) w).isSome then l1Put s core (1 - half) w v else s
      l1Put s core half w v) s)

/-- An atomic on an access's place (R212): global, or at the buffer. `f` gives the new value, if one is written. -/
def atomicAt (s : State) (sid part : Nat) (a : Access) (f : Nat → Option Nat) (sys : Bool) : Nat × State :=
  let p := (a.pieces.getD 0 (0, 0)).1
  let z := (a.pieces.getD 0 (0, 0)).2
  match a.space with
  | .g => globalAtomic s (s.colOf sid) a.mt p z (a.asker sid part) (!sys) f
  | _ =>
    match s.wg? a.peer with
    | none => (0, s)
    | some w =>
      let old := leNat (w.readBuf true p z)
      match f old with
      | some v => (old, s.setWg a.peer (w.writeBuf true p (leBytes z v)))
      | none => (old, s)

/-! ## The network port of a core (R317) -/

/-- Sectors of a load that it must fetch into the L1. -/
def fillCount (s : State) (core half : Nat) (a : Access) : Nat := (fillsOf s core half (a.cached.map (· / 4)).dedup).length
/-- Sectors of a load that it reads at a host port (R190). -/
def hostCount (a : Access) : Nat := ((a.places.filter (fun p => a.mtAt p == 2)).map (· / 32)).dedup.length

/-- Sectors of an access that cross its core's network port (R317): of a load those it must fetch, of a store those it sends,
of an atomic one, or none where its core holds the line exclusively (R212). A buffer of its own core is not behind the port. -/
def Access.sectors (s : State) (sid : Nat) (a : Access) : Nat :=
  let core := coreOf sid
  let whole := (a.places.map (· / 32)).dedup.length
  let line := (a.pieces.getD 0 (0, 0)).1 / 128
  match a.space with
  | .g =>
    if a.isOrder then 0
    else if a.isAtomic then (if a.mt ≠ 2 ∧ !a.sys ∧ exclusive s core line then 0 else 1)
    else if a.kind = .load then fillCount s core (s.colOf sid) a + hostCount a
    else whole
  | .pa => if (s.wg? a.peer).any (fun w => w.core == core) then 0 else if a.isAtomic then 1 else whole
  | _ => 0

/-- Whether a request of a sheet's access waits at the port. -/
def netAsked (s : State) (sid id : Nat) : Bool :=
  (s.core (coreOf sid)).netQueue.any (fun r => r.who == NetWho.access sid id)

/-- A request for sectors enters the port. -/
def netAsk (s : State) (core part n : Nat) (who : NetWho) : State :=
  if n = 0 then s else s.mapCore core (fun k => { k with netQueue := k.netQueue ++ [⟨part, n, who⟩] })

/-- The accesses of a sheet that wait for nothing but their sectors ask for them (R317). -/
def askSheet (s : State) (sid : Nat) (sh : Sheet) : State :=
  (sh.queue.zipIdx).foldl (fun s (a, k) =>
    let n := Access.sectors s sid a
    if decide (a.paid < n) && !netAsked s sid a.id && canPerform s sid (sh.queue.take k) a then
      netAsk s (coreOf sid) (s.partOf sh) (n - a.paid) (.access sid a.id)
    else s) s

/-- A sector has moved for what waited (R317). -/
def netPay (s : State) (core : Nat) : NetWho → State
  | .access sid id => s.mapSheet sid (fun sh =>
      { sh with queue := sh.queue.map (fun (a : Access) => if a.id = id then { a with paid := a.paid + 1 } else a) })
  | .command e num => s.mapCore core (fun k => match lookup k.cmds e with
      | some c => if c.num = num then { k with cmds := put k.cmds e { c with paid := c.paid + 1 } } else k
      | none => k)
  | .fetch sid => s.mapSheet sid (fun sh => { sh with fetch := sh.fetch.map (fun f => (f.1, f.2 - 1)) })

/-- What a sheet, and commands that are no more, have asked of a core's port is dropped. -/
def leavePort (s : State) (sid : Nat) : State :=
  s.mapCore (coreOf sid) (fun k => { k with netQueue := k.netQueue.filter (fun r => match r.who with
    | .access x _ => x != sid
    | .fetch x => x != sid
    | .command e num => (lookup k.cmds e).any (·.num == num)) })

/-! ## Performing an access -/

/-- An access that a home on another die serves counts (R329). -/
def chargeAccess (s : State) (sid part : Nat) (a : Access) : State :=
  let n := if a.kind = .load then fillCount s (coreOf sid) (s.colOf sid) a else Access.sectors s sid a
  if a.space != .g || a.isOrder || a.cached.isEmpty || n == 0 then s
  else if homeDie (a.cached.headD 0) ≠ dieOf (coreOf sid) then (a.asker sid part).event s 0x15 1
  else s

/-- An access of a peer's A buffer goes on as a request, where the workgroup is not resident (R268, R270); it keeps its place in the
queue until it is answered (R206). -/
def peerRequest (s : State) (sid part : Nat) (a : Access) : State :=
  let rank := match s.sheet? sid with
    | some sh => ((s.wg? sh.wg).map (·.g)).getD 0
    | none => 0
  { s with peerReqs := s.peerReqs ++ [⟨part, coreOf sid, a.peer, (a.pieces.getD 0 (0, 0)).1, .access sid a, s.ts, 3 + rank⟩] }

/-- Whether an access has two 8-byte units that are single-copy atomic each on its own (R202): a field over two units, or a pair
of doublewords under a non-coherent mapping. -/
def Access.splits (a : Access) : Bool :=
  let pairs := a.space == .g && a.mt == 2 && (match a.pieces with | [(_, n)] => n == 16 | _ => false)
  match a.kind with
  | .load => (match a.form with
    | .field _ _ _ => (a.places.map (· / 8)).dedup.length == 2
    | _ => pairs)
  | .store => pairs
  | _ => false
/-- The part of an access that lies in one 8-byte unit. -/
def Access.inUnit (a : Access) (u : Nat) : Access :=
  let mine (p : Nat) : Bool := p / 8 == u
  { a with pieces := a.pieces.filterMap (fun (p, n) =>
             let ps := ((List.range n).map (p + ·)).filter mine
             ps.head?.map (fun q => (q, ps.length))),
           mt := ((a.places.find? mine).map a.mtAt).getD a.mt,
           data := (a.places.zip a.data).filterMap (fun (p, b) => if mine p then some b else none) }
/-- What of an access is performed next (R202): all that is left of it or, where it splits, its first or its second unit alone,
chosen freely (log 83); and whether that leaves nothing. -/
def Access.share (s : State) (a : Access) : Access × Bool :=
  let left := (a.places.filter (fun p => (lookup a.seen p).isNone)).map (· / 8) |>.dedup
  match a.splits, left with
  | true, [u, v] => match s.free 1003 % 3 with
    | 0 => (a, true)
    | 1 => (a.inUnit u, false)
    | _ => (a.inUnit v, false)
  | true, [u] => (a.inUnit u, true)
  | _, _ => (a, true)
/-- What is still to come of a store when one of its units has been stored. -/
def Access.without (a b : Access) : Access :=
  match (a.places.filter (fun p => !b.places.contains p)).head? with
  | some p => a.inUnit (p / 8)
  | none => a

/-- Performs an access of a sheet that may be performed, or a unit of it (R202): binds a load, writes a store, executes an atomic
(R199); LDA acquires once it is performed (R208). -/
def performEntry (s : State) (sid part : Nat) (pre : List Access) (a : Access) (post : List Access) : State :=
  if a.space = .pa ∧ (s.wg? a.peer).isNone then
    peerRequest (s.mapSheet sid (fun sh => { sh with queue := pre ++ { a with away := true } :: post })) sid part a
  else
  let (b, last) := a.share s
  let s := if a.splits then s.drew else s
  let stay (s : State) (l : List Access) : State := s.mapSheet sid (fun sh => { sh with queue := pre ++ l ++ post })
  let s := chargeAccess (stay s []) sid part b
  match a.kind with
  | .load =>
    let (bs, s) := readAccess s sid part b
    let bs := (b.places.zip bs).map (fun (p, x) => forwardByte pre a p x)
    let seen := (b.places.zip bs).foldl (fun m (p, x) => put m p x) a.seen
    if last then
      let (q, w) := a.form.value (if a.seen.isEmpty then bs else a.places.map (fun p => (lookup seen p).getD 0))
      let s := s.mapSheet sid (fun sh => sh.fill a.flight q w)
      match a.acq with
      | some sc => acquire s sid sc
      | none => s
    else stay s [{ a with seen := seen }]
  | .store => let s := writeAccess s sid part b b.data
              if last then s else stay s [a.without b]
  | .atomic op dbl =>
    let z := if dbl then 8 else 4
    let (old, s) := atomicAt s sid part a (fun old => RmwOp.apply op z old (leNat a.data) (leNat a.cmp)) (a.sys)
    s.mapSheet sid (fun sh => sh.fill a.flight (some (w64 old)) none)
  | .cas2 =>
    let (old, s) := atomicAt s sid part a (fun old => if old = leNat a.cmp then some (leNat a.data) else none) (a.sys)
    s.mapSheet sid (fun sh => sh.fill a.flight (some (w64 old)) (some (w64 (old / 2 ^ 64))))
  | .order => s

/-- Whether the core of a workgroup is under scrub: requests to the workgroup are answered afterwards (R197). -/
def scrubHolds (s : State) (wg : Nat) : Bool := (s.wg? wg).any (fun w => (lookup (s.core w.core).scrub w.col).isSome)
/-- Whether a peer access finds the peer's core under scrub (R197). -/
def underScrub (s : State) (a : Access) : Bool := a.space == .pa && scrubHolds s a.peer

/-- The next cycle at or after `c` that a column owns in split mode (R88). -/
def ownedCycle (from_ col c : Nat) : Nat := if (c - from_) % 2 = col then c else c + 1
/-- Whether a sheet's column owns the present cycle of its core's shared units and ports (R88). -/
def ownsNow (s : State) (sid : Nat) : Bool :=
  let k := s.core (coreOf sid)
  !k.split || ownedCycle k.splitFrom (s.colOf sid) (s.cycle (coreOf sid)) == s.cycle (coreOf sid)

/-- Whether an access may be performed after the older entries `pre`, in a cycle of its column: its sectors have crossed the port. -/
def mayPerform (s : State) (sid : Nat) (pre : List Access) (a : Access) : Bool :=
  !a.isOrder && canPerform s sid pre a && decide (Access.sectors s sid a ≤ a.paid) && !underScrub s a

/-- Performs entry `k` of a sheet's queue, an access that may be performed; in a split core in a cycle that the sheet's column
owns (R88). -/
def performAt (s : State) (sid k : Nat) : Option State :=
  match s.sheet? sid with
  | none => none
  | some sh =>
    match sh.queue[k]? with
    | none => none
    | some a =>
      if mayPerform s sid (sh.queue.take k) a && ownsNow s sid then
        some (performEntry s sid (s.partOf sh) (sh.queue.take k) a (sh.queue.drop (k + 1)))
      else none

/-! ## Ordering operations -/

/-- An ordering operation in a sheet's program order (R198, R208). -/
def orderEntry (id : Nat) (acq rel : Option Scope) (loads stores drain : Bool) (act : OrdAction) : Access :=
  { id := id, kind := .order, space := .g, mt := 0, mt1 := 0, sys := false, pieces := [], peer := 0, data := [], cmp := [],
    unit := .sys, thread := 0, flight := 0, form := .zext, acq := acq, rel := rel, blockLoads := loads,
    blockStores := stores, drain := drain, act := act, slot := 7, paid := 0, away := false, seen := [], va := 0 }

/-- An ordering operation enters the queues at the place of its move (R198). -/
def enterOrder (s : State) (sid : Nat) (acq rel : Option Scope) (loads stores drain : Bool) (act : OrdAction) : State :=
  s.mapSheet sid (fun sh =>
    { sh with queue := sh.queue ++ [orderEntry sh.nextId acq rel loads stores drain act], nextId := sh.nextId + 1 })

/-- An operation that waited for its value has it: it completes as an ordering operation that delivers it. -/
def Sheet.release (sh : Sheet) (id : Nat) (v : W64) : Sheet :=
  { sh with queue := sh.queue.map (fun (a : Access) => if a.act = .held id then { a with act := .deliver id v } else a) }

end Sys2Proof.Machine
end

