-- ==== Sys2Proof/Machine/Rings.lean ====
section
/-! DEFINITION. Source numbers (R327) and the record rings of a partition (R335 to R337) with the disclosure filter on
the operator's rings and on dumped trap records (R338, R343, R344). -/

namespace Sys2Proof.Machine

/-- The open policy, identifier 0 (R339): exact, allowed, full. -/
def Policy.openPolicy : Policy :=
  { tenant := 0, serial := 0, keyDigest := 0, counters := [], trace := [], tsamp := 0, fdet := 2, tsres := 0 }
/-- The policy in force of a partition (R341). -/
def policyOf (s : State) (part : Nat) : Policy := getD s.policies Policy.openPolicy (s.part part).polid

/-- The header of a trap record as it is dumped to the operator (R344). -/
def operatorHeader (s : State) (part : Nat) (t : Trap) (width : Nat) : Nat :=
  let pol := policyOf s part
  let t := { t with ts := t.ts / 2 ^ pol.tsres * 2 ^ pol.tsres }
  match pol.fdet with
  | 0 => Trap.header { t with faddr := 0, info := 0 } width
  | 1 => Trap.header { t with faddr := w64 (t.faddr.toNat / 4096 * 4096) } width
  | _ => Trap.header t width
/-- A trap record on the operator's view (R344): its slot blocks under full address only. -/
def operatorRecord (s : State) (part : Nat) (t : Trap) (width : Nat) : List Byte :=
  leBytes 64 (operatorHeader s part t width) ++ (if (policyOf s part).fdet = 2 then t.slotBlocks else [])
/-- A stop reported to the operator (log 21). -/
def reportStop (s : State) (sh : Sheet) (t : Trap) : State :=
  { s with reply := leNat (operatorRecord s (s.partOf sh) t sh.width) }

/-- Source number of a unit of a core (R327): 15 its issue stage, 23 that of column B. -/
def srcOf (core unit : Nat) : Nat := dieOf core * 2 ^ 14 + clusterOf core % 48 * 2 ^ 8 + core % 8 * 2 ^ 5 + unit
/-- Source number of a die block: 0 Pintle, 1 dispatcher, 2 page-walk unit, 3 memory controllers. -/
def srcDie (die unit : Nat) : Nat := die * 2 ^ 14 + 62 * 2 ^ 8 + unit
/-- Source number of a hub block: 1 the management core. -/
def srcHub (unit : Nat) : Nat := 63 * 2 ^ 8 + unit
/-- Source number of the issue stage that serves a sheet. -/
def srcIssue (s : State) (sid : Nat) : Nat := srcOf (coreOf sid) (if s.colOf sid = 1 then 23 else 15)
/-- The first sheet context of a column of a core, which names the column where an event has no sheet (R327). -/
def unitSid (core col : Nat) : Nat := core * 16 + 8 * col
/-- The column of a core that a partition owns: B where it owns that half alone. -/
def ownCol (s : State) (core part : Nat) : Nat :=
  if (s.core core).split ∧ (s.core core).ownB = part ∧ (s.core core).ownA ≠ part then 1 else 0
/-- Source number of a unit at a sheet: column B has units ALB, FPB and LSB, which its moves name as column A's, and instance 1
of SAL, BRU, CPY, SYN and SYS (R87). -/
def srcUnit (s : State) (sid : Nat) (u : FUnit) : Nat :=
  srcOf (coreOf sid) (if s.colOf sid = 1 then
    (match u with
     | .ala => FUnit.alb.num | .fpa => FUnit.fpb.num | .lsa => FUnit.lsb.num
     | .sal => 16 | .bru => 17 | .cpy => 20 | .syn => 21 | .sys => 22
     | u => u.num)
   else u.num)

/-- A ring at reset: not enabled, with the least CAP that R336 allows. DESIGN CHOICE (log 1): the spec gives no reset value. -/
def Ring.reset : Ring := ⟨⟨0, 16, false, 0, 0⟩, false⟩
def ringKey (r : RingKind) : Nat := 2 * ofBool r.trace + ofBool r.operator
def recSize (r : RingKind) : Nat := if r.trace then 32 else 16

/-- A record for one ring (R336): not written where the ring is off, lost where it is full, else written at WR with
the LOST bit at `lostBit`. -/
def putRecord (s : State) (part core sid : Nat) (r : RingKind) (lostBit body : Nat) : State :=
  let g := getD (s.part part).rings Ring.reset (ringKey r)
  let set (s : State) (x : Ring) : State :=
    s.mapPart part (fun p => { p with rings := setD p.rings Ring.reset (ringKey r) x })
  if !g.desc.en then s
  else if g.desc.cap ≤ (g.desc.wr - g.desc.rd).toNat then
    (set s { g with lost := true }).event part core sid 7 (if r.trace then 0x1B else 0x1A) 1
  else
    let at_ := g.desc.base + g.desc.wr.toNat % max g.desc.cap 1 * recSize r
    set (engineWrite s ⟨part, core, sid, 7⟩ at_ (leBytes (recSize r) (body + 2 ^ lostBit * ofBool g.lost)))
      { desc := { g.desc with wr := g.desc.wr + 1 }, lost := false }

/-- The sequence number of a record class at its operator ring (R343), and the state that has counted it. -/
def nextSeq (s : State) (part cls : Nat) : Nat × State :=
  let n := getD (s.part part).seqs 0 cls
  (n, s.mapPart part (fun p => { p with seqs := setD p.seqs 0 cls (n + 1) }))

/-- A record of a class (0 interlock, 1 sample, 2 breakpoint, 3 drift) in both views (R336, R343); `body` is the record
with the time stamp given. -/
def putBoth (s : State) (part core sid cls lostBit : Nat) (trace : Bool) (body : Nat → Nat) : State :=
  let s := putRecord s part core sid ⟨trace, false⟩ lostBit (body s.ts)
  let pol := policyOf s part
  let ts := s.ts / 2 ^ pol.tsres * 2 ^ pol.tsres
  match pol.trace.getD cls 0 with
  | 0 => putRecord s part core sid ⟨trace, true⟩ lostBit (body ts)
  | 1 =>
    let (n, s) := nextSeq s part cls
    if n % 2 ^ pol.tsamp = 0 then putRecord s part core sid ⟨trace, true⟩ lostBit (body ts) else s
  | _ => s

/-- A trace record (R337) of a partition: class 0, 1 or 2. -/
def traceRecord (s : State) (part sid cls : Nat) (src : Nat) (baddr : W64) (arg cause slot : Nat) : State :=
  putBoth s part (coreOf sid) sid cls 8 true (fun ts =>
    cls + 1 + 2 ^ 9 * slot + 2 ^ 12 * cause + 2 ^ 96 * (arg % 2 ^ 32) + 2 ^ 128 * src
      + 2 ^ 144 * (baddr.toNat % 2 ^ 48) + 2 ^ 192 * ts)

/-- A drift record (R335). -/
def driftRecord (s : State) (part sid mark : Nat) (drift : BitVec 24) (armed sat : Bool) : State :=
  let src := srcIssue s sid
  putBoth s part (coreOf sid) sid 3 0 false (fun ts =>
    2 * ofBool sat + 4 * ofBool armed + 2 ^ 8 * drift.toNat + 2 ^ 32 * mark + 2 ^ 48 * src + 2 ^ 64 * ts)

end Sys2Proof.Machine
end

