-- ==== Sys2Proof/Machine/Barrier.lean ====
section
/-! DEFINITION. Wired barriers (10 R255 to R259) and barrier objects (R261 to R266): arrivals, phases, waiting and
waking. -/

namespace Sys2Proof.Machine

/-! ## Wired barriers -/

/-- Whether no thread of a sheet remains: it has left every membership (R256). -/
def Sheet.left (sh : Sheet) : Bool := (Mask.firstN sh.width &&& ~~~sh.gone : Mask) == 0

/-- Scope of a level's release and acquire (R209). -/
def levelScope : BarLevel → Scope
  | .wg => .wg | .cl => .cl | .grid => .dev | .sh => .wg
def levelNum : BarLevel → Nat
  | .wg => 0 | .cl => 1 | .grid => 2 | .sh => 3
/-- Barriers of a level (R255). -/
def levelCount : BarLevel → Nat
  | .wg => 16 | .cl => 8 | .grid => 4 | .sh => 1

/-- Cluster group of a workgroup in its grid (R36). -/
def groupOf (s : State) (w : Workgroup) : Nat :=
  match s.grid? w.grid with
  | some g => w.g / max g.lrec.clw 1
  | none => 0

/-- A barrier of a workgroup's level. -/
def getBar (s : State) (wg : Nat) (lvl : BarLevel) (num : Nat) : Bar :=
  match s.wg? wg with
  | none => Bar.reset
  | some w =>
    match lvl, s.grid? w.grid with
    | .cl, some g => getD g.clBars Bar.reset (groupOf s w * 8 + num)
    | .grid, some g => getD g.gridBars Bar.reset num
    | _, _ => getD w.bars Bar.reset num
def setBar (s : State) (wg : Nat) (lvl : BarLevel) (num : Nat) (b : Bar) : State :=
  match s.wg? wg with
  | none => s
  | some w =>
    match lvl with
    | .cl => s.mapGrid w.grid (fun g => { g with clBars := setD g.clBars Bar.reset (groupOf s w * 8 + num) b })
    | .grid => s.mapGrid w.grid (fun g => { g with gridBars := setD g.gridBars Bar.reset num b })
    | _ => s.setWg wg { w with bars := setD w.bars Bar.reset num b }

/-- Whether a workgroup is of the barrier of another at a level (R256). -/
def sameBar (s : State) (lvl : BarLevel) (a b : Nat) : Bool :=
  match lvl, s.wg? a, s.wg? b with
  | .cl, some x, some y => x.grid == y.grid && groupOf s x == groupOf s y
  | .grid, some x, some y => x.grid == y.grid
  | _, _, _ => a == b

/-- A member as its barrier lists it. -/
def memberKey (s : State) (sh : Sheet) : Nat :=
  match s.wg? sh.wg with
  | some w => w.g * 16 + sh.num
  | none => sh.num

/-- The sheets that are members now (R256). -/
def barMembers (s : State) (wg : Nat) (lvl : BarLevel) : List (Nat × Sheet) :=
  s.sheets.filter (fun e => sameBar s lvl wg e.2.wg && !e.2.left)

/-- A sheet arrives in the current phase, in which it has not arrived yet (R257). -/
def arriveAt (s : State) (sid : Nat) (sh : Sheet) (lvl : BarLevel) (num : Nat) : State :=
  let b := getBar s sh.wg lvl num
  let s := setBar s sh.wg lvl num { b with arrived := b.arrived ++ [memberKey s sh] }
  s.mapSheet sid (fun sh => { sh with arrivals := setD sh.arrivals 0 (levelNum lvl * 16 + num) (b.phase + 1) })

/-- Whether every member has arrived (R257): the sheets of a workgroup that is placed and has not started are members that
have not; a barrier without members completes nothing. -/
def barFull (s : State) (wg : Nat) (lvl : BarLevel) (num : Nat) : Bool :=
  let b := getBar s wg lvl num
  !b.arrived.isEmpty && (barMembers s wg lvl).all (fun e => decide (memberKey s e.2 ∈ b.arrived)) &&
  s.wgs.all (fun w => w.2.started || !sameBar s lvl wg w.1)

/-- The phase of a barrier completes where every member has arrived (R257). -/
def completeBar (s : State) (wg : Nat) (lvl : BarLevel) (num : Nat) : State :=
  if barFull s wg lvl num then setBar s wg lvl num ⟨(getBar s wg lvl num).phase + 1, []⟩ else s

/-- Phase plus 1 of a sheet's latest arrival (R257). -/
def lastArrival (s : State) (sid : Nat) (l : BarLevel) (num : Nat) : Nat :=
  match s.sheet? sid with
  | some sh => getD sh.arrivals 0 (levelNum l * 16 + num)
  | none => 0
/-- Whether the phase of a sheet's latest arrival at a barrier has not completed (R257). -/
def inPhase (s : State) (sid : Nat) (sh : Sheet) (l : BarLevel) (num : Nat) : Bool :=
  lastArrival s sid l num == (getBar s sh.wg l num).phase + 1

/-- A sheet without threads leaves the barriers of its workgroup, which may complete their phases (R256, R257). -/
def leaveBarriers (s : State) (sid : Nat) : State :=
  match s.sheet? sid with
  | none => s
  | some sh =>
    if sh.left then
      let at_ (lvl : BarLevel) (s : State) : State :=
        (List.range (levelCount lvl)).foldl (fun s n => completeBar s sh.wg lvl n) s
      at_ .grid (at_ .cl (at_ .wg s))
    else s

/-! ## Barrier objects (R261) -/

def objPend (o : Nat) : Nat := bits o 0 20
def objExpect (o : Nat) : Nat := bits o 20 20
def objPhase (o : Nat) : Nat := bits o 40 4
def objBytes (o : Nat) : Nat := bits o 48 48
def objWaiters (o : Nat) : Nat := bits o 96 16
/-- A valid object: VALID set, RES0 bits zero (R261). -/
def objValid (o : Nat) : Bool := bitAt o 45 && bits o 46 2 == 0 && bits o 112 16 == 0

/-- An object from its fields; the RES0 bits are those of `old`. -/
def objMake (old pend expect phase : Nat) (ovr valid : Bool) (byts waiters : Nat) : Nat :=
  pend + 2 ^ 20 * expect + 2 ^ 40 * phase + 2 ^ 44 * ofBool ovr + 2 ^ 45 * ofBool valid + 2 ^ 46 * bits old 46 2
    + 2 ^ 48 * byts + 2 ^ 96 * waiters + 2 ^ 112 * bits old 112 16
def objOvr (o : Nat) : Bool := bitAt o 44
def objSetPend (o n : Nat) : Nat :=
  objMake o n (objExpect o) (objPhase o) (objOvr o) (bitAt o 45) (objBytes o) (objWaiters o)
def objSetBytes (o n : Nat) : Nat :=
  objMake o (objPend o) (objExpect o) (objPhase o) (objOvr o) (bitAt o 45) n (objWaiters o)
def objSetOvr (o : Nat) : Nat :=
  objMake o (objPend o) (objExpect o) (objPhase o) true (bitAt o 45) (objBytes o) (objWaiters o)
def objSetWaiters (o n : Nat) : Nat :=
  objMake o (objPend o) (objExpect o) (objPhase o) (objOvr o) (bitAt o 45) (objBytes o) n
/-- BOINIT (R263). -/
def objInit (e : Nat) : Nat := objMake 0 e e 0 false true 0 0
/-- BOINV (R263): the object; its waiters wake with 0. -/
def objInv (o : Nat) : Nat := objMake o (objPend o) (objExpect o) (objPhase o) (objOvr o) false (objBytes o) 0

/-- complete(o) (R263): the object, and whether its phase has completed, which wakes its waiters with 1. -/
def objComplete (o : Nat) : Nat × Bool :=
  if objPend o = 0 ∧ objBytes o = 0 then
    (objMake o (objExpect o) (objExpect o) ((objPhase o + 1) % 16) (objOvr o) (bitAt o 45) 0 0, true)
  else (o, false)
/-- Byte arrival of `m` (R263). -/
def objByteArrival (o m : Nat) : Nat × Bool :=
  if !objValid o then (o, false)
  else if objBytes o < m then (objSetOvr o, false)
  else objComplete (objSetBytes o (objBytes o - m))
/-- Group arrival (R263). -/
def objGroupArrival (o : Nat) : Nat × Bool :=
  if !objValid o then (o, false)
  else if objPend o = 0 then (objSetOvr o, false)
  else objComplete (objSetPend o (objPend o - 1))
/-- BOARR of `n` that does not overrun (R263). -/
def objArr (o n : Nat) : Nat × Bool := objComplete (objSetPend o (objPend o - n))

/-- An object as it stands in a workgroup's A buffer. -/
def readObj (s : State) (wg off : Nat) : Nat :=
  match s.wg? wg with
  | some w => leNat (w.readBuf true off 16)
  | none => 0
/-- The same, also of a workgroup whose A buffer stands in its context's image (R268). -/
def objAt (s : State) (wg off : Nat) : Nat :=
  if (s.wg? wg).isSome then readObj s wg off
  else
    match (s.parts.flatMap (fun e => e.2.image)).findSome? (fun r => match r with
      | .abuf id m => if id = wg then some m else none
      | _ => none) with
    | some m => leNat ((List.range 16).map (fun k => getD m 0 (off + k)))
    | none => 0
def writeObj (s : State) (wg off o : Nat) : State := s.mapWg wg (fun w => w.writeBuf true off (leBytes 16 o))

/-- A sheet that waits in BOWAIT on an object goes on to its acquire with a result (R209, R263, R266). -/
def Sheet.wakeObject (sh : Sheet) (wg off : Nat) (v : W64) : Sheet :=
  if sh.wg = wg then
    match sh.wait with
    | .object o _ id => if o = off then { sh.release id v with wait := .land id } else sh
    | _ => sh
  else sh

/-- Wakes the sheets of a workgroup that wait on an object, resident or saved: also one that a plain store has removed from
WAITERS (R263, R266, R268). -/
def wakeWaiters (s : State) (wg off : Nat) (v : W64) : State :=
  { s with
    sheets := s.sheets.map (fun e => (e.1, e.2.wakeObject wg off v))
    parts := s.parts.map (fun e => (e.1, { e.2 with image := e.2.image.map (fun r => match r with
      | .sheet sid sh => .sheet sid (sh.wakeObject wg off v)
      | r => r) })) }

/-- An object's step that may complete a phase: the new object is written, and where the phase is another one, its waiters
wake with 1. -/
def objStep (s : State) (wg off : Nat) (r : Nat × Bool) : State :=
  let s := writeObj s wg off r.1
  if r.2 then wakeWaiters s wg off 1 else s

/-- Whether an object's block is engine-owned, so that a step at it waits (R263). -/
def objHeld (s : State) (wg off : Nat) : Bool := (blocksOf true wg off 16).any (engineOwned s)

/-! ## The order of the steps of one cycle (R265)

The rank of a step: 0 and 1 the byte arrivals of the owning core's copy channels, 2 a group arrival, 3 + r a peer operation of
a sender of rank r, 16 + c the owning core's sheet context c. -/

/-- Core of a workgroup. -/
def wgCore (s : State) (wg : Nat) : Nat := ((s.wg? wg).map (·.core)).getD 0
/-- Rank of a sheet's operation at an object of a workgroup: its own, or a peer's. -/
def synRank (s : State) (sid : Nat) (sh : Sheet) (peer : Bool) : Nat :=
  if peer then
    3 + (match s.wg? sh.wg, s.gridOf sh with
      | some w, some g => w.g % max g.lrec.clw 1
      | _, _ => 0)
  else 16 + ctxOf sid

/-- Whether a step of a rank may come now at an object: none of a greater rank was made there in this cycle, and no arrival of
a lesser rank has reached it and waits. -/
def stepTurn (s : State) (wg off ord : Nat) : Bool :=
  (match (s.wg? wg).bind (fun w => lookup w.steps off) with
   | some (c, r) => c != s.cycle (wgCore s wg) || decide (r ≤ ord)
   | none => true) &&
  (s.arrivals ++ s.roundArrivals).all (fun a => a.wg != wg || a.off != off || decide (ord ≤ a.ord))

/-- The step made is noted. -/
def noteStep (s : State) (wg off ord : Nat) : State :=
  s.mapWg wg (fun w => { w with steps := put w.steps off (s.cycle w.core, ord) })

end Sys2Proof.Machine
end

