-- ==== Sys2Proof/Machine/Spawn.lean ====
section
/-! DEFINITION. Spawn queues (02 R49, R50): the fields of a header as they stand at its home, and the append of IVSPAWN, one
atomic step there (R423). -/

namespace Sys2Proof.Machine

/-- A field of `n` bytes of a spawn queue header, by its byte (R49). -/
def qField (s : State) (pa byte n : Nat) : Nat := s.readNat (pa + byte) n
def qBase (s : State) (pa : Nat) : Nat := qField s pa 8 8
def qCap (s : State) (pa : Nat) : Nat := qField s pa 16 4
def qThresh (s : State) (pa : Nat) : Nat := qField s pa 20 4
def qTail (s : State) (pa : Nat) : Nat := qField s pa 24 4
def qLnch (s : State) (pa : Nat) : Nat := qField s pa 28 4
def qHead (s : State) (pa : Nat) : Nat := qField s pa 32 4
def qErr (s : State) (pa : Nat) : Nat := qField s pa 36 4
/-- The difference of two free-running indices. -/
def ixSub (a b : Nat) : Nat := (a + 2 ^ 32 - b % 2 ^ 32) % 2 ^ 32
/-- A power of two from 1 to 2^24. -/
def powTwo24 (n : Nat) : Bool := (List.range 25).any (fun k => n == 2 ^ k)
/-- A header whose CAP or THRESH is out of its range (R423). -/
def qBad (s : State) (pa : Nat) : Bool :=
  !powTwo24 (qCap s pa) || qThresh s pa == 0 || decide (qCap s pa < qThresh s pa)

/-- Where the `n` entries from index TAIL on stand, or why one of them cannot be stored. -/
def spawnPlaces (s : State) (core vf pa n : Nat) : Except Flt (List (List (Nat × Nat))) :=
  (List.range n).mapM (fun k =>
    match translateRun s core vf .store
        (pageCuts 2 ((qBase s pa + 16 * ((qTail s pa + k) % max (qCap s pa) 1)) % 2 ^ 64) 16) with
    | .error f => .error f
    | .ok (ps, _) => .ok ps)

/-- The append of entries to the queue of a header, as its home finds it (R50): the value delivered, old TAIL and number of
entries, or the cause. A launch is due where R51 asks for one. -/
def spawnStep (s : State) (sid : Nat) (sh : Sheet) (header : W64) (entries : List (List Byte)) (grid : Nat) :
    Except Flt (W64 × State) :=
  let core := coreOf sid
  let n := entries.length
  match translate s core (s.vfOf sh) header .atomic with
  | .error f => .error f
  | .ok p =>
    if qBad s p.pa then .error Cause.moveIllegal.flt
    else if qCap s p.pa < ixSub (qTail s p.pa) (qHead s p.pa) + n then .error Cause.spawnOverflow.flt
    else
      match spawnPlaces s core (s.vfOf sh) p.pa n with
      | .error f => .error f
      | .ok places =>
        let part := s.partOf sh
        let x : Asker := ⟨part, core, sid, 7⟩
        let old := qTail s p.pa
        let tail := (old + n) % 2 ^ 32
        let s := (List.range n).foldl (fun s k => lookRun s (s.vfOf sh) core sid 7
          ((qBase s p.pa + 16 * ((old + k) % max (qCap s p.pa) 1)) % 2 ^ 64) 16) s
        let s := (entries.zip places).foldl (fun s (bs, ps) => storePieces s x ps bs) s
        let s := engineWrite s x (p.pa + 24) (leBytes 4 tail)
        let s := s.mapGrid grid (fun g => { g with queues := g.queues.filter (· != header) ++ [header] })
        let s := if qThresh s p.pa ≤ ixSub tail (qLnch s p.pa) ∧ qErr s p.pa = 0 then
            { s with spawns := s.spawns ++ [⟨header, grid, false⟩] }
          else s
        .ok (w64 (old * 2 ^ 32 + n), s)

end Sys2Proof.Machine
end

