-- ==== Sys2Proof/Machine/Order.lean ====
section
/-! DEFINITION. Ordering operations complete (08 R198, R207 to R209): the actions that follow them, arrivals at wired
barriers (R257), the steps at barrier objects (R263, R264, R481) and at spawn queue headers (R423), launches and copies. -/

namespace Sys2Proof.Machine

/-! ## Steps at objects -/

/-- INFO of BARRIER_OVERRUN (R285). -/
def overrunFlt (off : Nat) (boexp : Bool) : Flt := ⟨.barrierOverrun, off + 2 ^ 17 * ofBool boexp, 0⟩

/-- The step of BOINIT, BOARR, BOEXP or BOINV at the object as it stands (R263, R481): the value delivered, or the cause, and
the state. -/
def objectStep (s : State) (k : StepKind) (wg off : Nat) : Except Flt W64 × State :=
  let o := readObj s wg off
  let bad : Except Flt W64 × State := (.error Cause.moveIllegal.flt, s)
  match k with
  | .boinit e => if objValid o then bad else (.ok 0, writeObj s wg off (objInit e))
  | .boarr n =>
    if !objValid o then bad
    else if objPend o < n then (.error (overrunFlt off false), writeObj s wg off (objSetOvr o))
    else (.ok (w64 (objPhase o)), objStep s wg off (objArr o n))
  | .boexp b =>
    if !objValid o then bad
    else if 2 ^ 48 ≤ objBytes o + b then (.error (overrunFlt off true), writeObj s wg off (objSetOvr o))
    else (.ok (w64 (objPhase o)), writeObj s wg off (objSetBytes o (objBytes o + b)))
  | .boinv => (.ok 0, wakeWaiters (writeObj s wg off (objInv o)) wg off 0)
  | .spawn _ _ _ => bad

/-- A result delivered to a uniform unit's port, in trigger order (R71). -/
def deliverTo (s : State) (sid : Nat) (u : FUnit) (v : W64) : State :=
  s.mapSheet sid (fun sh =>
    let f : Flight := ⟨u, 0, sh.nextId, some v, none, true, true, false, 0⟩
    Sheet.landStalling { sh with flights := sh.flights ++ [f], nextId := sh.nextId + 1 })

/-- What a step that fails leaves to the stop of its bundle (R481): its cause, and, for the slot that the stop reports, the PHASE or
HEAD as the step found it, on whose change the service waits (R279). -/
def Held.fail (h : Held) (slot lead mark : Nat) (f : Flt) : Held :=
  { h with
    base := if h.faults.any (fun e => decide (e.1 < slot) && !e.2.isEmpty) then h.base else { h.base with until_ := mark }
    faults := h.faults.map (fun e => if e.1 = slot then (slot, [(lead, f)]) else e) }
/-- The outcome of a step on which a move in a slot waits: its value lands in its unit's port, or what it raises is kept for
the stop of the bundle (R481). -/
def stepDone (s : State) (sid slot : Nat) (u : FUnit) (r : Except Flt W64) (mark : Nat) : State :=
  let s := s.mapSheet sid (fun sh => { sh with held := sh.held.map (fun (h : Held) =>
    let h := { h with todo := h.todo.filter (· != slot) }
    match r with
    | .ok _ => h
    | .error f => h.fail slot ((sh.active.lowest).getD 0) mark f) })
  match r with
  | .ok v => deliverTo s sid u v
  | .error _ => s

/-- The unit whose port a step delivers to. -/
def StepKind.unit : StepKind → FUnit
  | .spawn _ _ _ => .sys
  | _ => .syn

/-- HEAD of the queue of a header's address. -/
def headMark (s : State) (sh : Sheet) (header : W64) : Nat :=
  match translate s Config.numCores (s.vfOf sh) header .load with
  | .ok p => qHead s p.pa
  | .error _ => 0

/-- The step of a move at its object or header. -/
def makeStep (s : State) (sid : Nat) (sh : Sheet) (slot : Nat) (k : StepKind) (wg off : Nat) : State :=
  match k with
  | .spawn header entries grid =>
    (match spawnStep s sid sh header entries grid with
     | .ok (v, s) => stepDone s sid slot .sys (.ok v) 0
     | .error f => stepDone s sid slot .sys (.error f) (headMark s sh header))
  | k =>
    let (r, t) := objectStep s k wg off
    stepDone t sid slot .syn r (objPhase (readObj s wg off))

/-! ## Whether an ordering operation is complete -/

/-- The object that an ordering operation reads or changes, with its rank among the steps of a cycle (R265). -/
def Access.object? (s : State) (sid : Nat) (sh : Sheet) (a : Access) : Option (Nat × Nat × Nat) :=
  match a.act with
  | .bowait off _ _ _ => some (sh.wg, off, synRank s sid sh false)
  | .botest peer wg off _ => some (wg, off, synRank s sid sh peer)
  | .step _ (.spawn _ _ _) _ _ _ => none
  | .step _ _ peer wg off => some (wg, off, synRank s sid sh peer)
  | _ => none

/-- Whether nothing at the object itself holds its step back: its block is engine-owned (R184, R263), or its core is under
scrub (R197). -/
def objectFree (s : State) (wg off : Nat) : Bool :=
  !objHeld s wg off && (match s.wg? wg with
    | some w => (lookup (s.core w.core).scrub w.col).isNone
    | none => true)

/-- Whether an ordering operation may complete, the order of the steps of one cycle left out. -/
def mayComplete (s : State) (sid : Nat) (sh : Sheet) (pre : List Access) (a : Access) : Bool :=
  a.isOrder && canPerform s sid pre a &&
  (match a.act with
   | .arrive l n _ _ => !inPhase s sid sh l n
   | .await l n _ => !inPhase s sid sh l n
   | _ => true) &&
  (match a.object? s sid sh with
   | some (wg, off, _) => objectFree s wg off
   | none => true)

/-- Whether the timeout of a sheet's BOWAIT at an object has come and its step may be made (R264). -/
def timeoutDue (s : State) (sid : Nat) (sh : Sheet) (off : Nat) : Bool :=
  match sh.wait with
  | .object o deadline _ => o == off && sh.park != .stopped && decide (deadline ≤ s.cycle (coreOf sid)) && objectFree s sh.wg off
  | _ => false

/-- Whether some other sheet has a step of a lesser rank at an object that may come now. -/
def lowerStep (s : State) (sid wg off ord : Nat) : Bool :=
  s.sheets.any (fun e => e.1 != sid && (e.2.wg == wg && decide (synRank s e.1 e.2 false < ord) && timeoutDue s e.1 e.2 off ||
    (e.2.queue.zipIdx).any (fun (a, k) =>
    (match a.object? s e.1 e.2 with
     | some (w, o, r) => w == wg && o == off && decide (r < ord)
     | none => false) && mayComplete s e.1 e.2 (e.2.queue.take k) a)))

/-- Whether an ordering operation completes now. -/
def completes (s : State) (sid : Nat) (sh : Sheet) (pre : List Access) (a : Access) : Bool :=
  mayComplete s sid sh pre a &&
  (match a.object? s sid sh with
   | some (wg, off, ord) => stepTurn s wg off ord && !lowerStep s sid wg off ord
   | none => true)

/-! ## What follows -/

/-- An arrival at a wired barrier (R257), whose phase may complete with it. -/
def arriveBar (s : State) (sid : Nat) (l : BarLevel) (num id : Nat) (wait : Bool) : State :=
  match s.sheet? sid with
  | none => s
  | some sh =>
    let s := arriveAt s sid sh l num
    let s := if wait then s else s.mapSheet sid (fun sh => sh.fill id (some 0) none)
    completeBar s sh.wg l num

/-- BOWAIT at its object (R264): the value with which it goes on to its acquire, or it waits. -/
def bowaitStep (s : State) (sid : Nat) (sh : Sheet) (off ph timeout id : Nat) (wait : OrdAction → State → State) : State :=
  let o := readObj s sh.wg off
  if !objValid o then wait (.deliver id 0) s
  else if objPhase o ≠ ph then wait (.deliver id 1) s
  else if timeout = 0 then wait (.deliver id 0) s
  else
    (wait (.held id) (writeObj s sh.wg off (objSetWaiters o (objWaiters o ||| 2 ^ sh.num)))).mapSheet sid (fun sh =>
      { sh with wait := .object off (s.cycle (coreOf sid) + timeout) id })

/-- A request of SYN to a peer's allocation that is not resident (R268, R270). -/
def synRequest (s : State) (sid : Nat) (sh : Sheet) (wg off : Nat) (op : PeerOp) : State :=
  { s with peerReqs := s.peerReqs ++ [⟨s.partOf sh, coreOf sid, wg, off, op, s.ts, synRank s sid sh true⟩] }

/-- Completes entry `k` of a sheet's queue, an ordering operation: what it does, and what stands in its place. -/
def completeAt (s : State) (sid k : Nat) (sh : Sheet) (a : Access) : State :=
  let gone (s : State) : State := s.mapSheet sid (fun y => { y with queue := y.queue.take k ++ y.queue.drop (k + 1) })
  let become (act : OrdAction) (s : State) : State :=
    s.mapSheet sid (fun y => { y with queue := y.queue.take k ++ [{ a with act := act }] ++ y.queue.drop (k + 1) })
  let acq (s : State) : State := match a.acq with
    | some sc => acquire s sid sc
    | none => s
  let noted (s : State) : State := match a.object? s sid sh with
    | some (wg, off, ord) => noteStep s wg off ord
    | none => s
  match a.act with
  | .nothing => acq (gone s)
  | .deliver id v => (acq (gone s)).mapSheet sid (fun y => y.fill id (some v) none)
  | .held _ => s
  | .sent _ => s
  | .arrive l n id w => arriveBar (gone s) sid l n id w
  | .await _ _ id => (acq (gone s)).mapSheet sid (fun y => y.fill id (some 0) none)
  | .bowait off ph t id => bowaitStep (noted s) sid sh off ph t id become
  | .botest _ wg off id =>
    if (s.wg? wg).isSome then become (.deliver id (w64 (readObj s wg off))) (noted s)
    else become (.held id) (synRequest s sid sh wg off (.botest sid id))
  | .step slot k _ wg off =>
    (match k, (s.wg? wg).isSome with
     | .boarr n, false => become (.sent slot) (synRequest s sid sh wg off (.boarr n sid slot))
     | k, _ => makeStep (noted (gone s)) sid sh slot k wg off)
  | .launch g id addr => { gone s with launches := s.launches ++ [.move sid sh.wg id g addr] }
  | .trigger _ => gone s

/-- The first ordering operation of a sheet that completes. -/
def nextOrder (s : State) (sid : Nat) : Option (Nat × Sheet × Access) :=
  match s.sheet? sid with
  | none => none
  | some sh => ((sh.queue.zipIdx).find? (fun (a, k) => completes s sid sh (sh.queue.take k) a)).map (fun (a, k) => (k, sh, a))

/-- Completes the ordering operations of a sheet that nothing holds any longer (log 11). -/
def settle : Nat → State → Nat → State
  | 0, s, _ => s
  | n + 1, s, sid =>
    match nextOrder s sid with
    | none => s
    | some (k, sh, a) => settle n (completeAt s sid k sh a) sid

/-- An ordering operation enters the queues and completes at once where nothing holds it (log 11). -/
def pushOrder (s : State) (sid : Nat) (acq rel : Option Scope) (loads stores drain : Bool) (act : OrdAction) : State :=
  settle 64 (enterOrder s sid acq rel loads stores drain act) sid

/-- Completes the ordering operations of every sheet. -/
def settleAll (s : State) : State := (keys s.sheets).foldl (fun s sid => settle 64 s sid) s

end Sys2Proof.Machine
end

