-- ==== Sys2Proof/Machine/Operands.lean ====
section
/-! DEFINITION. Operand forms: the source codes of R97, the destination codes of R98 and R99, the move-level checks of
R104, reading a source for a thread, and writing a destination. -/

namespace Sys2Proof.Machine

/-- What a source code names (R97). -/
inductive Src where
  | v (r : Nat) | s (r : Nat) | w (r : Nat) | p (r : Nat)
  | latch (u : FUnit) (k : Nat)
  | lane | tid (k : Nat) | wg (k : Nat) | sheet | pass | zero | depth | crank | limm
  | ix (k : Nat)
  | imm (x : W64)
  deriving DecidableEq, Repr

/-- The latches of source codes 0x0E0 to 0x0ED, in code order. -/
def laneLatches : List (FUnit × Nat) :=
  [(.ala, 0), (.alb, 0), (.imu, 0), (.imu, 1), (.fpa, 0), (.fpa, 1), (.fpb, 0), (.fpb, 1), (.xfu, 0), (.lsa, 0),
   (.lsa, 1), (.lsb, 0), (.lsb, 1), (.sal, 0)]
/-- The latches of source codes 0x110 to 0x115. -/
def uniLatches : List (FUnit × Nat) := [(.mxe, 0), (.cfe, 0), (.cpy, 0), (.syn, 0), (.sys, 0), (.bru, 0)]

/-- The source of a code; none for a reserved one (R97). -/
def Src.ofCode (c : Nat) : Option Src :=
  if c < 0x080 then some (.v c)
  else if c < 0x0C0 then some (.s (c - 0x080))
  else if c < 0x0D0 then some (.w (c - 0x0C0))
  else if c < 0x0E0 then some (.p (c - 0x0D0))
  else if c < 0x0EE then (laneLatches[c - 0x0E0]?).map (fun (u, k) => .latch u k)
  else if c = 0x0F0 then some .lane
  else if 0x0F1 ≤ c ∧ c < 0x0F4 then some (.tid (c - 0x0F1))
  else if 0x0F4 ≤ c ∧ c < 0x0F7 then some (.wg (c - 0x0F4))
  else if c = 0x0F7 then some .sheet
  else if c = 0x0F8 then some .pass
  else if c = 0x0F9 then some .zero
  else if c = 0x0FA then some .depth
  else if c = 0x0FB then some .crank
  else if c = 0x0FE then some .limm
  else if 0x100 ≤ c ∧ c < 0x106 then some (.ix (c - 0x100))
  else if 0x110 ≤ c ∧ c < 0x116 then (uniLatches[c - 0x110]?).map (fun (u, k) => .latch u k)
  else if 0x200 ≤ c ∧ c < 0x400 then some (.imm (sext64 9 c))
  else none

/-- What a destination code names (R98): a port is x0 to x3, `t` the trigger. -/
inductive Dst where
  | v (r : Nat) | s (r : Nat) | w (r : Nat) | p (r : Nat)
  | x (u : FUnit) (port : Nat)
  | t (u : FUnit)
  | shape (eng h field : Nat)
  deriving DecidableEq, Repr

/-- Operand entries of a unit (R61). -/
def xPorts : FUnit → Nat
  | .lsa => 4 | .lsb => 4 | _ => 2

/-- A port of a unit. -/
def portOf (u : FUnit) (port : Nat) : Option Dst :=
  if port = 15 then some (.t u) else if port < xPorts u then some (.x u port) else none

/-- Whether a shape field is a destination (R99, R227, R239, R248). -/
def shapeOk (eng h field : Nat) : Bool :=
  if eng = 0 then decide (field < 10)
  else if eng = 1 then decide (field < 11)
  else decide (field < 14) || h % 2 == 0

/-- The destination of a code; none for a reserved one. -/
def Dst.ofCode (c : Nat) : Option Dst :=
  if c < 0x080 then some (.v c)
  else if c < 0x0C0 then some (.s (c - 0x080))
  else if c < 0x0D0 then some (.w (c - 0x0C0))
  else if c < 0x0E0 then some (.p (c - 0x0D0))
  else if 0x100 ≤ c ∧ c < 0x1F0 then (FUnit.ofNum ((c - 0x100) / 16)).bind (fun u => portOf u (c % 16))
  else if 0x200 ≤ c ∧ c < 0x2C0 then
    let k := c - 0x200
    if shapeOk (k / 64) (k / 16 % 4) (k % 16) then some (.shape (k / 64) (k / 16 % 4) (k % 16)) else none
  else none

/-- Whether a destination makes its move uniform whatever its UNI bit (R66). -/
def Dst.uniform : Dst → Bool
  | .s _ => true
  | .w _ => true
  | .x u _ => u.uniform
  | .t u => u.uniform
  | .shape _ _ _ => true
  | _ => false

/-- Whether a move is a uniform move (R66). -/
def Move.uniform (m : Move) : Bool :=
  m.uni || match Dst.ofCode m.dst.toNat with
    | some d => d.uniform
    | none => false

/-- The unit whose port a destination is. -/
def Dst.unit? : Dst → Option FUnit
  | .x u _ => some u
  | .t u => some u
  | _ => none

def columnB (u : FUnit) : Bool := u == .alb || u == .fpb || u == .lsb

/-- Whether a source or destination is legal here (R85, R87). -/
def Src.legal (s : Src) (regs : Nat) (split : Bool) : Bool :=
  match s with
  | .v r => decide (r < regs)
  | .latch u _ => !(split && columnB u)
  | _ => true
def Dst.legal (d : Dst) (regs : Nat) (split : Bool) : Bool :=
  match d with
  | .v r => decide (r < regs)
  | .x u _ => !(split && columnB u)
  | .t u => !(split && columnB u)
  | _ => true

/-- The move-level checks of R104: all of them raise MOVE_ILLEGAL. -/
def moveOk (m : Move) (regs : Nat) (split : Bool) : Bool :=
  match Src.ofCode m.src.toNat, Dst.ofCode m.dst.toNat with
  | some s, some d =>
    Src.legal s regs split && Dst.legal d regs split && (m.sense != 0 || m.pred == 0) &&
    (match d with
     | .t _ => true
     | _ => m.opc == 0 && m.mod == 0)
  | _, _ => false

/-! ## Reading -/

/-- A register of a workgroup as a sheet reads it in a bundle whose pass issues at cycle `c` (R86): the newest value; but a
write of cycle `c` by another sheet is not seen, and one of cycle `c - 1` may or may not be, unless the reader's own write of
that cycle was lost to it. `z` is its value before any write. -/
def regRead (s : State) (m : SMap WReg) (z : W64) (r ctx c : Nat) : W64 :=
  match lookup m r with
  | none => z
  | some x =>
    if x.ctx = ctx then x.val
    else if c ≤ x.cycle then x.old
    else if c = x.cycle + 1 ∧ !x.lost.contains ctx then (if s.free 1002 % 2 = 0 then x.old else x.val)
    else x.val
/-- A workgroup register as a sheet reads it. -/
def readW (s : State) (wg : Option Workgroup) (r ctx c : Nat) : W64 :=
  match wg with
  | none => 0
  | some w => regRead s w.w 0 r ctx c

/-- Linear index of a thread in its workgroup (R32). -/
def Sheet.linear (sh : Sheet) (t : Nat) : Nat := sh.num * sh.width + t

/-- A coordinate of a linear index in a shape (R32, R35). -/
def coord (k l x y : Nat) : Nat :=
  if k = 0 then l % max x 1 else if k = 1 then l / max x 1 % max y 1 else l / (max x 1 * max y 1)

/-- A predicate as a source and in a guard: code 11 reads as 2 (R68, R97). -/
def triOf (p : BitVec 2) : Nat := if p.toNat = 3 then 2 else p.toNat

/-- The value a source delivers to thread `t` in a pass at cycle `c` (R97). -/
def readSrc (s : State) (sid : Nat) (sh : Sheet) (t c : Nat) (src : Src) : W64 :=
  match src with
  | .v r => sh.getV r t
  | .s r => sh.getS r
  | .w r => readW s (s.wg? sh.wg) r (ctxOf sid) c
  | .p r => w64 (triOf (sh.getP r t))
  | .latch u k => sh.getQ u k (if u.uniform then 0 else t)
  | .lane => w64 (t % 32)
  | .tid k => match s.gridOf sh with
    | some g => w64 (coord k (sh.linear t) g.lrec.wx g.lrec.wy)
    | none => 0
  | .wg k => match s.gridOf sh, s.wg? sh.wg with
    | some g, some w => w64 (coord k w.g g.lrec.gx g.lrec.gy)
    | _, _ => 0
  | .sheet => w64 sh.num
  | .pass => w64 (t / 32)
  | .zero => 0
  | .depth => match s.gridOf sh with
    | some g => w64 g.depth
    | none => 0
  | .crank => w64 (coreOf sid % 8)
  | .limm => sh.limm
  | .ix k => match sh.nest with
    | some n => w64 (n.ix.getD k 0)
    | none => 0
  | .imm x => x

/-- Whether a guard holds in a thread (R74, R95). -/
def guardHolds (sh : Sheet) (m : Move) (t : Nat) : Bool :=
  let v := triOf (sh.getP m.pred.toNat t)
  match m.sense.toNat with
  | 0 => true
  | 1 => v == 1
  | 2 => v == 0
  | _ => v == 2

/-! ## Writing -/

/-- A write of a register of a workgroup at cycle `c` (R86): of two at one cycle the lower context's takes effect. -/
def regWrite (m : SMap WReg) (z : W64) (r ctx c : Nat) (x : W64) : SMap WReg :=
  match lookup m r with
  | none => put m r ⟨x, z, c, ctx, []⟩
  | some y =>
    if y.cycle = c ∧ y.ctx < ctx then put m r { y with lost := y.lost ++ [ctx] }
    else if y.cycle = c ∧ ctx < y.ctx then put m r ⟨x, y.old, c, ctx, y.lost ++ [y.ctx]⟩
    else put m r ⟨x, if y.cycle = c then y.old else y.val, c, ctx, []⟩
/-- A write of a workgroup register. -/
def writeW (w : Workgroup) (r ctx c : Nat) (x : W64) : Workgroup := { w with w := regWrite w.w 0 r ctx c x }

/-- Writes one thread's destination: registers, predicates and operand entries. -/
def Sheet.writeLane (sh : Sheet) (d : Dst) (t : Nat) (x : W64) : Sheet :=
  match d with
  | .v r => sh.setV r t x
  | .p r => sh.setP r t (x.setWidth 2)
  | .x u port => sh.setX u port t x
  | _ => sh

/-- Writes a destination of a uniform move once: a uniform register, entry or shape shadow; a vector register, a
predicate or a lane entry in every thread (R67, R68, R99). DESIGN CHOICE (log 68): R67 names vector registers and lane x
ports, and does not say which threads of a predicate a uniform move writes. -/
def Sheet.writeUni (sh : Sheet) (d : Dst) (x : W64) : Sheet :=
  match d with
  | .s r => sh.setS r x
  | .x u port => if u.uniform then sh.setX u port 0 x
    else (List.range sh.width).foldl (fun sh t => sh.setX u port t x) sh
  | .shape eng h f => { sh with shShadow := setD sh.shShadow 0 (eng * 64 + h * 16 + f) (x.setWidth 32) }
  | .v r => (List.range sh.width).foldl (fun sh t => sh.setV r t x) sh
  | .p r => (List.range sh.width).foldl (fun sh t => sh.setP r t (x.setWidth 2)) sh
  | _ => sh

end Sys2Proof.Machine
end

