-- ==== Sys2Proof/Machine/Issue.lean ====
section
/-! DEFINITION. One bundle: read, then write, then trigger (R64), in the order of passes and slots; the checks of R104
and R137; what commits (R283) and the trap record of what does not (R284); the bundle's time (R30, R88, R91, R275). -/

namespace Sys2Proof.Machine

/-! ## What an operation is -/

/-- What a per-thread operation reads. -/
structure LaneIn where
  x0 : W64
  x1 : W64
  x2 : W64
  x3 : W64
  t : W64
  ftz : Bool
  free : Nat

/-- What it delivers: values for `q` and `w`, and the flags it raises. -/
structure LaneOut where
  q : Option W64
  w : Option W64
  flags : Flags

/-- A trigger at the end of its bundle: the state and sheet with the bundle's writes in place, where it acts, and the
trigger values, one for each thread or one for a uniform move. -/
structure TrigCtx where
  s : State
  sid : Nat
  sh : Sheet
  slot : Nat
  unit : FUnit
  uniform : Bool
  mask : Mask
  lead : Nat
  vals : List W64
  waive : Bool
  skip : Mask
  bpc : W64
  next : W64
  /-- predicates before the bundle (R381) -/
  p0 : SMap (BitVec 2)
  /-- table entries that the bundle needs (R220) -/
  engines : Nat
  /-- cycles that the droop governor adds to the bundle's first pass (R91) -/
  droop0 : Nat

/-- Trigger value of a thread. -/
def TrigCtx.val (x : TrigCtx) (t : Nat) : W64 := x.vals.getD (if x.uniform then 0 else t) 0
/-- The one trigger value of a uniform unit. -/
def TrigCtx.tv (x : TrigCtx) : W64 := x.vals.getD 0 0
/-- Operand entry `port` for a thread. -/
def TrigCtx.x (x : TrigCtx) (port t : Nat) : W64 := x.sh.getX x.unit port (if x.unit.uniform then 0 else t)
/-- The threads in which the operation acts, those skipped by disposition S left out (R279). -/
def TrigCtx.threads (x : TrigCtx) : List Nat := (x.mask &&& ~~~x.skip : Mask).threads
def TrigCtx.core (x : TrigCtx) : Nat := coreOf x.sid
def TrigCtx.laneIn (x : TrigCtx) (t : Nat) : LaneIn :=
  { x0 := x.x 0 t, x1 := x.x 1 t, x2 := x.x 2 t, x3 := x.x 3 t, t := x.val t, ftz := fpcrFtz x.sh.fpcr,
    free := x.s.free (x.slot * 128 + t) }

/-- An operation: whether it transfers control (R283), whether it can go ahead now, its checks in its threads (R137
check 3 on), its effect in one pass at a cycle, what a fault of it leaves behind, how many results it delivers, and
what it does after every trigger of its bundle. -/
structure OpMeaning where
  control : Bool
  ready : TrigCtx → Bool
  check : TrigCtx → List (Nat × Flt)
  effect : TrigCtx → Nat → Nat → State → State
  onFault : TrigCtx → List (Nat × Flt) → State → State
  delivers : Nat
  finish : TrigCtx → State → State := fun _ s => s
  /-- its commit waits for an atomic step at its object or header (R423, R481), which its effect puts in the queues -/
  steps : Bool := false
  /-- vector registers that it reads at its trigger, beside its operand entries -/
  vregs : TrigCtx → List Nat := fun _ => []

/-- The checks of an operation that raises nothing. -/
def noCheck : TrigCtx → List (Nat × Flt) := fun _ => []
/-- A fault of a uniform operation, at the lowest active thread (R284). -/
def TrigCtx.fault (x : TrigCtx) (f : Flt) : List (Nat × Flt) := [(x.lead, f)]
/-- The first failing check of a uniform operation: pairs of a failing condition and its cause. -/
def firstFault (x : TrigCtx) (l : List (Bool × Flt)) : List (Nat × Flt) :=
  match l.find? (fun p => p.1) with
  | some (_, f) => x.fault f
  | none => []

/-- A uniform operation that acts once, in pass 0. -/
def uniOp (ready : TrigCtx → Bool) (check : TrigCtx → List (Nat × Flt)) (delivers : Nat)
    (effect : TrigCtx → State → State) : OpMeaning :=
  { control := false, ready := ready, check := check, effect := fun x p _ s => if p = 0 then effect x s else s,
    onFault := fun _ _ s => s, delivers := delivers }

/-! ## Latency (R69 to R72) -/

/-- Native latency of a class (R69). -/
def native (cls : Nat) : Nat := [1, 1, 3, 6, 12, 8, 12, 4].getD cls 1

/-- Whether a class is interlocked for a kernel (R72). -/
def interlocked (k : Kernel) (cls : Nat) : Bool := decide (k.lat.getD cls (native cls) < native cls)
/-- The classes that govern the latches of a unit (R69). -/
def unitClasses : FUnit → List Nat
  | .ala => [0] | .alb => [0] | .sal => [1] | .imu => [2] | .fpa => [3, 4, 5] | .fpb => [3, 4, 5] | .xfu => [6, 7]
  | _ => []
/-- Whether a read of a unit's latches waits for every operation triggered on them (R72): a class that governs them is
interlocked. -/
def latchInterlocked (k : Kernel) (u : FUnit) : Bool := (unitClasses u).any (interlocked k)

/-- A result put in flight: the sheet's next identifier is used up. -/
def Sheet.addFlight (sh : Sheet) (u : FUnit) (t : Nat) (q w : Option W64) (ready stalling inter : Bool) (due : Nat) :
    Sheet :=
  { sh with flights := sh.flights ++ [⟨u, t, sh.nextId, q, w, ready, stalling, inter, due⟩], nextId := sh.nextId + 1 }

/-- An exposed result of class `cls` triggered at cycle `c`. -/
def Sheet.expose (sh : Sheet) (k : Kernel) (cls : Nat) (u : FUnit) (t c : Nat) (q w : Option W64) : Sheet :=
  sh.addFlight u t q w true false (latchInterlocked k u) (c + native cls)

/-- A value delivered to a port whose values land in trigger order (R71). -/
def Sheet.deliverStalling (sh : Sheet) (u : FUnit) (t : Nat) (q w : Option W64) : Sheet :=
  (sh.addFlight u t q w true true false 0).landStalling

/-- Threads of pass `p` (R29). -/
def passThreads (p : Nat) (l : List Nat) : List Nat := l.filter (fun t => t / 32 == p)
/-- The threads in which a trigger starts its operation in pass `p` (R30, R67): a uniform move starts it in pass 0 in all of them. -/
def TrigCtx.inPass (x : TrigCtx) (p : Nat) : List Nat :=
  if x.uniform then (if p = 0 then x.threads else []) else passThreads p x.threads

/-- The traps of raised flags (R153). -/
def fpFaults (x : TrigCtx) (raised : List (Nat × Flags)) : List (Nat × Flt) :=
  if x.waive then []
  else
    let bad := raised.filter (fun e => Flags.traps x.sh.fpcr e.2)
    let info := (bad.foldl (fun f e => f ||| e.2) (0 : Flags)).toNat
    bad.map (fun e => (e.1, ⟨if Flags.trapsEmpty x.sh.fpcr e.2 then .intervalEmpty else .fpEnabled, info, 0⟩))

/-- A per-thread operation of exposed latency (R63, R70): class and function of a thread's operands; how many results it
delivers. -/
def laneOp (cls : LaneIn → Nat) (f : LaneIn → LaneOut) (delivers : Nat := 1) : OpMeaning :=
  { control := false
    ready := fun _ => true
    check := fun x => fpFaults x (x.threads.map (fun t => (t, (f (x.laneIn t)).flags)))
    effect := fun x p c s =>
      let k := s.kernelOf x.sh
      (x.inPass p).foldl (fun s t =>
        let i := x.laneIn t
        let o := f i
        s.mapSheet x.sid (fun sh =>
          let sh := sh.expose k (cls i) x.unit t c o.q o.w
          { sh with fpsr := sh.fpsr ||| o.flags })) s
    onFault := fun _ _ s => s
    delivers := delivers }

/-- An operation across the threads of a sheet (R31, R70): a value for each thread, flags once for the move. -/
def crossOp (cls : Nat) (f : TrigCtx → Nat → W64) (flags : TrigCtx → Flags) : OpMeaning :=
  { control := false
    ready := fun _ => true
    check := fun x => fpFaults x (x.threads.map (fun t => (t, flags x)))
    effect := fun x p c s =>
      if p + 1 = x.sh.passes then
        let k := s.kernelOf x.sh
        let s := x.threads.foldl (fun s t => s.mapSheet x.sid (fun sh => sh.expose k cls x.unit t c (some (f x t)) none)) s
        if x.threads.isEmpty then s else s.mapSheet x.sid (fun sh => { sh with fpsr := sh.fpsr ||| flags x })
      else s
    onFault := fun _ _ s => s
    delivers := 1 }

/-- A divide (R400, R401): quotient and remainder in a stalling port; a thread that divides by zero faults unless the
service of R279 completes it with the results given. -/
def divideOp (cycles : Nat) (f : LaneIn → W64 × W64 × Bool) : OpMeaning :=
  { control := false
    ready := fun _ => true
    check := fun x =>
      if x.waive then [] else (x.threads.filter (fun t => (f (x.laneIn t)).2.2)).map (fun t => (t, Cause.intDivide.flt))
    effect := fun x p c s =>
      let dur := if (s.core x.core).split then 2 * cycles else cycles
      (x.inPass p).foldl (fun s t =>
        let o := f (x.laneIn t)
        s.mapSheet x.sid (fun sh => sh.addFlight x.unit t (some o.1) (some o.2.1) false true false (c + dur))) s
    onFault := fun _ _ s => s
    delivers := 2 }

/-- The delivery of a uniform operation to its unit's port, in trigger order. -/
def TrigCtx.deliver (x : TrigCtx) (v : W64) (s : State) : State :=
  s.mapSheet x.sid (fun sh => sh.deliverStalling x.unit 0 (some v) none)

/-! ## A bundle's moves -/

/-- The bundle in hand: address, size, header, and the predicates before it. -/
structure BInfo where
  pc : W64
  size : Nat
  format : Format
  stall : BitVec 4
  le : Bool
  dp : Bool
  preds : SMap (BitVec 2)
  /-- engine triggers that execute in the bundle -/
  engines : Nat
  droop0 : Nat

def Bundle.info (b : Bundle) (sh : Sheet) : BInfo := ⟨sh.pc, b.format.size, b.format, b.stall, b.le, b.dp, sh.p, 0, 0⟩

/-- The destination of a move, where it has one. -/
def SavedMove.dst (m : SavedMove) : Option Dst := Dst.ofCode m.move.dst.toNat
/-- The unit that a move triggers. -/
def SavedMove.trig (m : SavedMove) : Option FUnit :=
  match m.dst with
  | some (.t u) => some u
  | _ => none

/-- Whether a move executes in pass `p`: a uniform move in pass 0 (R30). -/
def SavedMove.runsIn (m : SavedMove) (p : Nat) : Bool :=
  m.exec != 0 && (if Move.uniform m.move then p == 0 else !(passThreads p (Mask.threads m.exec)).isEmpty)

/-- Guards and sources of a bundle whose pass 0 issues at cycle `c` (R64, R67, R68, R74, R86): a uniform move for the lowest
active thread, any other for each of its threads. -/
def evalMove (s : State) (sid : Nat) (sh : Sheet) (c : Nat) (slot : Nat) (m : Move) : SavedMove :=
  let src := (Src.ofCode m.src.toNat).getD .zero
  let act := sh.active
  if Move.uniform m then
    match act.lowest with
    | none => ⟨slot, m, 0, []⟩
    | some t =>
      ⟨slot, m, if guardHolds sh m t then 1 else 0, [readSrc s sid sh t c src]⟩
  else
    let ex := Mask.ofFn (fun t => act.has t && guardHolds sh m t)
    ⟨slot, m, ex, (List.range sh.width).map (fun t =>
      if ex.has t then readSrc s sid sh t c src else 0)⟩

/-- The moves of a bundle that name a destination: the empty slots of R96 are left out. -/
def liveSlots (b : Bundle) : List (Nat × Move) :=
  (b.slots.zipIdx.map (fun (m, k) => (k, m))).filter (fun e => e.2.dst != 0x3FF)

/-! ### Bundle-level checks (R104) -/

/-- R96. -/
def emptyOk (m : Move) : Bool := m.dst != 0x3FF || (m.sense == 0 && m.pred == 0 && m.src == 0 && m.opc == 0 && m.mod == 0)

/-- Two moves may share a destination only under one predicate with two different senses (R65). -/
def shareOk (a b : Move) : Bool :=
  a.dst != b.dst || (a.pred == b.pred && a.sense != 0 && b.sense != 0 && a.sense != b.sense)
def sharesOk : List (Nat × Move) → Bool
  | [] => true
  | e :: r => r.all (fun e' => shareOk e.2 e'.2) && sharesOk r

/-- Whether a move triggers BRU other than LBRK (R82): LBRK has opcode 0x0A. -/
def bodyIllegal (m : Move) : Bool := unitOfT m.dst.toNat == some FUnit.bru && m.opc != 0x0A

/-- The loop-body rules of R82 at body position `pos` of `len`, checked where the body is first fetched. -/
def bodyOk (n : Nest) (le : Bool) (ms : List (Nat × Move)) : Bool :=
  decide (n.pos < n.buf.length) || ((le == (n.pos + 1 == n.len)) && ms.all (fun e => !bodyIllegal e.2))

/-- The bundle-level checks on a decoded bundle. -/
def bundleOk (sh : Sheet) (split : Bool) (b : Bundle) : Bool :=
  b.slots.length == b.format.slots && b.slots.all emptyOk && sharesOk (liveSlots b) &&
  (match b.format with
   | .narrow => true
   | _ => !split) &&
  (match sh.nest with
   | some n => bodyOk n b.le (liveSlots b)
   | none => true)

/-! ### Time -/

/-- Whether pass `p` of a bundle needs a cycle of its column in split mode (R88): IMU, XFU, loads, stores and atomics. LSU opcodes
0x17 QSYNC and 0x18 PREF are none of these. -/
def slotted (ms : List SavedMove) (p : Nat) : Bool :=
  ms.any (fun m => m.runsIn p && (m.trig == some .imu || m.trig == some .xfu ||
    ((m.trig == some .lsa || m.trig == some .lsb) && decide (m.move.opc.toNat < 0x17))))

/-- Vector registers read in a pass (R91). -/
def bankReads (ms : List SavedMove) (p : Nat) : Nat :=
  let rs := ms.filterMap (fun m =>
    match Src.ofCode m.move.src.toNat with
    | some (.v r) => if m.runsIn p then some r else none
    | _ => none)
  rs.dedup.length

/-- Cycles a pass occupies (R91): one, or the bank reads over the droop cap. -/
def passLen (cap : Nat) (ms : List SavedMove) (p : Nat) : Nat := max 1 (ceilDiv (bankReads ms p) (max cap 1))

/-- Cycles of the passes from cycle `c`, and the cycle after the last (R30, R88, R91). DESIGN CHOICE (log 69): the cycle of a
pass that the droop governor lengthens is the last in which it reads. -/
def passStarts (cap from_ col : Nat) (slot : Nat → Bool) (ms : List SavedMove) : Nat → Nat → Nat → List Nat × Nat
  | 0, _, c => ([], c)
  | n + 1, p, c =>
    let c := if slot p then ownedCycle from_ col c else c
    let len := passLen cap ms p
    let (r, e) := passStarts cap from_ col slot ms n (p + 1) (c + len)
    ((c + (len - 1)) :: r, e)

/-- Added droop cycles of a bundle (R91). -/
def droopAdded (cap : Nat) (ms : List SavedMove) (passes : Nat) : Nat :=
  sumList ((List.range passes).map (fun p => passLen cap ms p - 1))

/-! ### Waiting for ports -/

/-- Whether a read of latch `k` (0 q, 1 w) must wait (R71, R72): a stalling result outstanding for it, or an
interlocked one not landed. A result bound for `w` too carries a value there from its trigger on. -/
def portWaits (sh : Sheet) (u : FUnit) (k t c : Nat) : Bool :=
  sh.flights.any (fun f => f.unit == u && f.thread == t && (k == 0 || f.w.isSome) &&
    ((f.stalling && !f.ready) || (f.inter && decide (c < f.due))))

/-- Whether a move's source waits in pass `p` at cycle `c` (R71, R72), in some thread of the pass where it executes; a
uniform move reads in pass 0. -/
def moveWaits (sh : Sheet) (lead p c : Nat) (m : SavedMove) : Bool :=
  m.runsIn p && match Src.ofCode m.move.src.toNat with
    | some (.latch u k) =>
      if u.uniform then portWaits sh u k 0 c
      else if Move.uniform m.move then portWaits sh u k lead c
      else (passThreads p m.exec.threads).any (fun t => portWaits sh u k t c)
    | _ => false

/-- Whether a CEXTV of the sheet still writes a vector register (R244): from its trigger until its completion. -/
def vregBusy (s : State) (sid r : Nat) : Bool :=
  (vals (s.core (coreOf sid)).cmds).any (fun c => c.phase != .completed && decide (Res.vreg sid r ∈ c.writes))
/-- Whether a move that executes in pass `p` names such a register. -/
def vregWaits (s : State) (sid p : Nat) (m : SavedMove) : Bool :=
  m.runsIn p && ((match Src.ofCode m.move.src.toNat with
    | some (.v r) => vregBusy s sid r
    | _ => false) || (match m.dst with
    | some (.v r) => vregBusy s sid r
    | _ => false))

/-! ### Checks, writes and triggers -/

/-- The threads in which a trigger acts: a uniform move into a lane unit starts it in the active threads (R67). -/
def trigMask (sh : Sheet) (m : SavedMove) (u : FUnit) : Mask :=
  if m.exec = 0 then 0
  else if u.uniform then 1
  else if Move.uniform m.move then sh.active
  else m.exec

/-- The context of a trigger move. -/
def trigCtx (s : State) (sid : Nat) (sh : Sheet) (b : BInfo) (waive : List Nat) (skips : List (Nat × Mask))
    (m : SavedMove) (u : FUnit) : TrigCtx :=
  { s := s, sid := sid, sh := sh, slot := m.slot, unit := u, uniform := Move.uniform m.move, mask := trigMask sh m u,
    lead := (sh.active.lowest).getD 0, vals := m.vals, waive := waive.contains m.slot,
    skip := ((skips.find? (fun e => e.1 == m.slot)).map (·.2)).getD 0, bpc := b.pc,
    next := b.pc + BitVec.ofNat 64 b.size, p0 := b.preds, engines := b.engines, droop0 := b.droop0 }

/-- The write of one move (R64, R67): nothing where it does not execute; a trigger value has no register of its own. -/
def writeMove (s : State) (sid c : Nat) (m : SavedMove) : State :=
  if m.exec = 0 then s
  else
    match m.dst with
    | none => s
    | some (.t _) => s
    | some (.w r) =>
      match s.sheet? sid with
      | some sh => s.mapWg sh.wg (fun w => writeW w r (ctxOf sid) c (m.vals.getD 0 0))
      | none => s
    | some d =>
      if Move.uniform m.move then s.mapSheet sid (fun sh => sh.writeUni d (m.vals.getD 0 0))
      else s.mapSheet sid (fun sh => m.exec.threads.foldl (fun sh t => sh.writeLane d t (m.vals.getD t 0)) sh)

/-- The meaning of each trigger move, or why its encoding names no operation (R136). -/
abbrev Meanings := Move → Except Cause OpMeaning

/-- INFO of an encoding that names no operation (R285). -/
def opInfo (u : FUnit) (m : Move) : Nat := u.num + 16 * m.opc.toNat + 2 ^ 11 * m.mod.toNat

/-- The threads for which FMASK names a fault of the whole move (R284). -/
def faultThreads (sh : Sheet) (m : SavedMove) : List Nat :=
  if Move.uniform m.move then [(sh.active.lowest).getD 0] else m.exec.threads

/-- What a move raises (R104, R137, R283): the move-level checks first, then the trigger's. -/
def moveFaults (s : State) (sid : Nat) (sh0 : Sheet) (b : BInfo) (waive : List Nat) (skips : List (Nat × Mask))
    (mean : Meanings) (m : SavedMove) : List (Nat × Flt) :=
  if m.exec = 0 then []
  else if sh0.corrupt = some m.slot then (faultThreads sh0 m).map (fun t => (t, Cause.uncorrectable.flt))
  else if !moveOk m.move (s.kernelOf sh0).regs (s.core (coreOf sid)).split then
    (faultThreads sh0 m).map (fun t => (t, Cause.moveIllegal.flt))
  else
    match m.trig with
    | none => []
    | some u =>
      match mean m.move with
      | .error c =>
        (if u.uniform then faultThreads sh0 m else (trigMask sh0 m u).threads).map (fun t => (t, ⟨c, opInfo u m.move, 0⟩))
      | .ok o => o.check (trigCtx s sid ((s.sheet? sid).getD sh0) b waive skips m u)

/-- Whether a trigger transfers control (R283). -/
def isControl (mean : Meanings) (m : SavedMove) : Bool :=
  match m.trig, mean m.move with
  | some _, .ok o => o.control
  | _, _ => false

/-- One round of R283 over the slots `l` that may still commit: a trigger falls out with a move into a port of its unit, a
control transfer with any other move. -/
def commitRound (mean : Meanings) (ms : List SavedMove) (l : List Nat) : List Nat :=
  let unitOf (m : SavedMove) : Option FUnit := m.dst.bind Dst.unit?
  l.filter (fun k => ms.all (fun m => m.slot != k ||
    ((m.trig.isNone || ms.all (fun o => unitOf o != m.trig || l.contains o.slot)) &&
     (!isControl mean m || ms.all (fun o => o.slot == k || l.contains o.slot)))))
/-- What commits of a bundle whose moves raise `fl` (R283): all that no fault takes out, six slots at most. -/
def commits (mean : Meanings) (ms : List SavedMove) (fl : List (Nat × List (Nat × Flt))) : List Nat :=
  let round := commitRound mean ms
  round (round (round (round (round (round
    ((ms.filter (fun m => !fl.any (fun e => e.1 == m.slot && !e.2.isEmpty))).map (·.slot)))))))

/-- The triggers of a pass in slot order. -/
def runPass (sid : Nat) (b : BInfo) (waive : List Nat) (skips : List (Nat × Mask)) (mean : Meanings) (p c : Nat)
    (sw : State) : List SavedMove → State → State
  | [], s => s
  | m :: r, s =>
    let s := match m.trig, mean m.move with
      | some u, .ok o =>
        if m.exec = 0 ∨ o.control then s
        else o.effect (trigCtx sw sid ((sw.sheet? sid).getD (Sheet.fresh 0 0 32 0 0)) b waive skips m u) p c s
      | _, _ => s
    runPass sid b waive skips mean p c sw r s

/-- What the operations of a bundle do after every trigger of it. -/
def runFinish (sid : Nat) (b : BInfo) (waive : List Nat) (skips : List (Nat × Mask)) (mean : Meanings) (sw : State) :
    List SavedMove → State → State
  | [], s => s
  | m :: r, s =>
    let s := match m.trig, mean m.move with
      | some u, .ok o =>
        if m.exec = 0 then s
        else o.finish (trigCtx sw sid ((sw.sheet? sid).getD (Sheet.fresh 0 0 32 0 0)) b waive skips m u) s
      | _, _ => s
    runFinish sid b waive skips mean sw r s

/-- A move that is skipped whole executes in no thread (R279): a uniform operation, a move that is illegal or whose
operation is unassigned, which faults in all of its threads. -/
def skipWhole (skips : List (Nat × Mask)) (legal : Move → Bool) (mean : Meanings) (m : SavedMove) : SavedMove :=
  let whole : Bool := match m.trig with
    | some u => u.uniform || !legal m.move || (match mean m.move with
      | .ok _ => false
      | .error _ => true)
    | none => true
  if whole && skips.any (fun e => e.1 == m.slot && e.2 != 0) then { m with exec := 0 } else m

/-- The zeros that disposition S leaves in the skipped threads of a slot (R279). -/
def skipZeros (sid : Nat) (skips : List (Nat × Mask)) (mean : Meanings) (m : SavedMove) (s : State) : State :=
  match m.trig, mean m.move, skips.find? (fun e => e.1 == m.slot) with
  | some u, .ok o, some (_, k) =>
    let z : Option W64 := some 0
    (if o.delivers = 0 then [] else if u.uniform then [0]
      else (k &&& trigMask ((s.sheet? sid).getD (Sheet.fresh 0 0 32 0 0)) m u : Mask).threads).foldl (fun s t =>
      s.mapSheet sid (fun sh => sh.deliverStalling u t z (if o.delivers = 2 then z else none))) s
  | _, _, _ => s

/-- The control transfer of a bundle, after the pc has been moved on. -/
def runControl (sid : Nat) (b : BInfo) (waive : List Nat) (skips : List (Nat × Mask)) (mean : Meanings) (c : Nat)
    (sw : State) : List SavedMove → State → State
  | [], s => s
  | m :: r, s =>
    let s := match m.trig, mean m.move with
      | some u, .ok o =>
        if m.exec ≠ 0 ∧ o.control then
          o.effect (trigCtx sw sid ((sw.sheet? sid).getD (Sheet.fresh 0 0 32 0 0)) b waive skips m u) 0 c s
        else s
      | _, _ => s
    runControl sid b waive skips mean c sw r s

/-! ### Going on -/

/-- The arrivals of a path (R79): at its reconvergence point, or when all its threads have exited. -/
def arriveGo : Nat → Sheet → Sheet
  | 0, sh => sh
  | n + 1, sh =>
    if sh.active = 0 ∨ sh.rcv = some sh.pc then
      match sh.stack with
      | [] => sh
      | l :: ls =>
        match l.p1 with
        | some (pc, m) =>
          arriveGo n { sh with pc := pc, mask := m, rcv := l.jpc, stack := [{ l with p1 := l.p2, p2 := none }] ++ ls }
        | none =>
          arriveGo n { sh with pc := l.jpc.getD sh.pc, mask := l.jmask &&& ~~~sh.gone, rcv := l.orcv, stack := ls }
    else sh
def Sheet.arrive (sh : Sheet) : Sheet := arriveGo 64 sh

/-- The next indices of a nest, innermost first; none after the last (R83). -/
def nextIx : List Nat → List Nat → Option (List Nat)
  | n :: ns, i :: is => if i + 1 < n then some ((i + 1) :: is) else (nextIx ns is).map (fun r => 0 :: r)
  | _, _ => none

/-- Moving past a bundle (R83, R92): the next body bundle, the body again, or the next sequential bundle. `inst` is
what issued, kept in the loop buffer the first time. -/
def Sheet.advance (sh : Sheet) (inst : Instr) (pc : W64) (size : Nat) : Sheet :=
  let next := pc + BitVec.ofNat 64 size
  match sh.nest with
  | none => { sh with pc := next }
  | some n =>
    let buf := if n.pos < n.buf.length then n.buf else n.buf ++ [(pc, inst)]
    if n.pos + 1 < n.len then
      { sh with pc := (buf[n.pos + 1]?).elim next (·.1), nest := some { n with buf := buf, pos := n.pos + 1 } }
    else
      match nextIx n.counts n.ix with
      | some ix' => { sh with pc := (buf[0]?).elim next (·.1), nest := some { n with buf := buf, pos := 0, ix := ix' } }
      | none => { sh with pc := next, nest := none }

/-- The engines that a bundle's moves target where they execute (R75, R276): 0 matrix, 1 coefficient, 2 copy, 3 global memory. LSU opcodes 0x17 QSYNC and
0x18 PREF access no memory. -/
def targets (ms : List SavedMove) : List Nat :=
  ((ms.filter (fun m => m.exec != 0)).filterMap (fun m =>
    let glob := if m.move.mod.toNat % 4 = 0 ∧ m.move.opc.toNat < 0x17 then some 3 else none
    match m.trig with
    | some .mxe => some 0
    | some .cfe => some 1
    | some .cpy => some 2
    | some .lsa => glob
    | some .lsb => glob
    | _ => none)).dedup

/-! ### Fetching, and skipped loop bodies (R83, R92, R93) -/

/-- The line of an instruction cache that a half-core finds (R19, R90). A line that memory has moved on from is found or not,
freely (log 13). -/
def icFind (s : State) (core half line : Nat) : Option ILine :=
  match (s.core core).icache.find? (fun x => x.line == line && x.half == half) with
  | some x => if x.bytes = s.readBytes (64 * line) 64 ∨ s.free 2004 % 2 = 0 then some x else none
  | none => none
/-- Code bytes within a line, from the instruction cache or from their home. -/
def icRead (s : State) (core half a n : Nat) : List Byte :=
  match icFind s core half (a / 64) with
  | some x => if a % 64 + n ≤ 64 then (x.bytes.drop (a % 64)).take n else s.readBytes a n
  | none => s.readBytes a n
/-- A line enters the instruction cache: 128 sets of 4 ways, 2 for a half-core; a full set loses a line chosen freely (R19, R90). -/
def icFill (pick : Nat) (s : State) (core half line : Nat) : State :=
  s.mapCore core (fun k =>
    let rest := k.icache.filter (fun x => !(x.line == line && x.half == half))
    let set := rest.filter (fun x => x.line % 128 == line % 128 && x.half == half)
    let rest := if set.length < (if k.split then 2 else 4) then rest
      else rest.filter (fun x => (set[pick % set.length]?).all (fun y => !(x.line == y.line && x.half == half)))
    { k with icache := ⟨line, half, s.readBytes (64 * line) 64⟩ :: rest })

/-- Bytes of a bundle at an address, translated as a fetch (R93, R304) and read through the instruction cache (log 13). The
address that failed is that of the bundle (R284). -/
def fetchBytes (s : State) (sid : Nat) (sh : Sheet) (va : W64) (n : Nat) : Except Flt (List Byte) :=
  if 2 ^ 48 < va.toNat + n then .error ⟨.translation, trInfo .fetch 5 1, va⟩
  else
    match translateRun s (coreOf sid) (s.vfOf sh) .fetch (pageCuts 2 va.toNat n) with
    | .error f => .error { f with addr := va }
    | .ok (ps, _) =>
      if ps.any (fun (a, _) => poisonedAt s a && (icFind s (coreOf sid) (s.colOf sid) (a / 64)).isNone) then
        .error ⟨.uncorrectable, 0, va⟩
      else .ok (ps.flatMap (fun (a, k) => icRead s (coreOf sid) (s.colOf sid) a k))

/-- The lines of the instruction cache that a fetch of 16 bytes reads. -/
def fetchLines (s : State) (sid : Nat) (sh : Sheet) (va : W64) : List Nat :=
  match translateRun s (coreOf sid) (s.vfOf sh) .fetch (pageCuts 2 va.toNat 16) with
  | .error _ => []
  | .ok (ps, _) => ps.map (fun p => p.1 / 64)

/-- Size of a bundle from the FMT bits of its first byte (R92): 16 bytes for FMT 01 and 11, else 32. -/
def fmtSize (bs : List Byte) : Nat := if (bs.getD 0 0).toNat % 2 = 1 then 16 else 32

/-- Whether a half-core's instruction cache holds a line (R19, R90). -/
def icHolds (s : State) (core half line : Nat) : Bool := (s.core core).icache.any (fun x => x.line == line && x.half == half)
/-- The lines that the next bundle of a sheet needs, or the first unit of a bundle that it skips (R83), and that are not in its
instruction cache (R275). A bundle of the loop buffer is not fetched, and one whose fetch raises a cause needs none. -/
def missingLines (s : State) (sid : Nat) (sh : Sheet) : List Nat :=
  if sh.issuing.isSome || sh.nest.any (fun n => (n.buf[n.pos]?).isSome) then []
  else
    match fetchBytes s sid sh sh.pc 16 with
    | .error _ => []
    | .ok bs =>
      (fetchLines s sid sh sh.pc ++ (if fmtSize bs = 16 ∨ sh.skip ≠ 0 then [] else fetchLines s sid sh (sh.pc + 16))).dedup.filter
        (fun l => !icHolds s (coreOf sid) (s.colOf sid) l)
/-- Whether a sheet asks for the lines of its next bundle. -/
def wantsFetch (s : State) (sid : Nat) (sh : Sheet) : Bool :=
  sh.park == .running && sh.held.isNone && sh.active != 0 && sh.fetch.isNone && !(missingLines s sid sh).isEmpty
/-- A sheet asks for the lines that its next bundle misses: their pages are looked up, and each line crosses the network port in
two sectors (R275, R305, R317; log 9). -/
def fetchAsk (s : State) (sid : Nat) (sh : Sheet) : State :=
  let n := 2 * (missingLines s sid sh).length
  let s := lookRun s (s.vfOf sh) (coreOf sid) sid 7 sh.pc.toNat 32
  netAsk (s.mapSheet sid (fun y => { y with fetch := some (sh.pc, n) })) (coreOf sid) (s.partOf sh) n (.fetch sid)
/-- The lines have come: they were read at their homes and enter the instruction cache (R22). -/
def fetchDone (s : State) (sid : Nat) (sh : Sheet) : State :=
  ((missingLines s sid sh).foldl (fun x l =>
    icFill (x.free 2005) (engineRead x ⟨s.partOf sh, coreOf sid, sid, 7⟩ (64 * l) 64) (coreOf sid) (s.colOf sid) l)
    (s.mapSheet sid (fun y => { y with fetch := none }))).drew

/-- Passes over the bundles of a skipped loop body (R83): only their first 16 bytes are fetched. -/
def skipBody : Nat → State → Nat → State
  | 0, s, _ => s
  | n + 1, s, sid =>
    match s.sheet? sid with
    | none => s
    | some sh =>
      if sh.skip = 0 ∨ sh.park ≠ .running ∨ !(missingLines s sid sh).isEmpty then s
      else
        match fetchBytes s sid sh sh.pc 16 with
        | .error f => (if f.cause = .uncorrectable then clearPoison s (coreOf sid) (s.vfOf sh) f.addr else s).takeCause sid
            (bundleTrap sh s.ts f [])
        | .ok bs =>
          skipBody n (s.setSheet sid { sh with pc := sh.pc + BitVec.ofNat 64 (fmtSize bs), skip := sh.skip - 1 }) sid

/-- Bundles of a loop body named in a LOOP's trigger value (R81). -/
def bodyLen (v : W64) : Nat := bits v.toNat 8 4 + 1

/-- A LOOP whose guard failed skips its body (R83, R432). -/
def loopSkip (m : SavedMove) (sh : Sheet) : Sheet :=
  if m.trig = some .bru ∧ m.move.opc = 0x09 ∧ m.move.mod = 0 ∧ m.exec = 0 then { sh with skip := bodyLen (m.vals.getD 0 0) }
  else sh

/-- What an issue costs and counts (R30, R275, R276, R328, R332): the stage is held to the end of the passes, the sheet
idles for STALL, ISSUED and BUNDLES count one, MOVES what committed. DESIGN CHOICE (log 97): of a bundle of several cycles the
last is the one from which an engine's idle count runs. -/
def account (s : State) (sid : Nat) (pc : W64) (endc stall droop : Nat) (moves tg : List Nat) : State :=
  let core := coreOf sid
  let col := s.colOf sid
  let s := s.mapCore core (fun c =>
    { c with busy := setD c.busy 0 col endc
             lastTarget := tg.foldl (fun m e => setD m 0 (col * 4 + e) (endc - 1)) c.lastTarget })
  match s.sheet? sid with
  | none => s
  | some sh =>
    let s := s.setSheet sid { sh with issued := (sh.issued + 1) % 2 ^ 64, droop := (sh.droop + droop) % 2 ^ 64,
                                      nextIssue := endc + stall, readySince := endc + stall, waitAt := none, watch := 0,
                                      lastPc := pc }
    let s := s.sheetEvent sid sh 7 2 1
    let s := moves.foldl (fun s k => s.sheetEvent sid sh k 3 1) s
    let s := if sh.armed then s.sheetEvent sid sh 7 0x1C 1 else s
    if droop = 0 then s else s.sheetEvent sid sh 7 9 droop

/-- The interlock record of a bundle that waited until cycle `c0` (R337): cycles, cause and slot, from the wait noted, or else
from the droop of its first pass. -/
def interlockOf (sh : Sheet) (cap : Nat) (ms : List SavedMove) (c0 : Nat) : Option (Nat × Nat × Nat) :=
  match sh.waitAt with
  | some (w, cause, k) => if w < c0 then some (c0 - w, cause, k) else none
  | none => if 1 < passLen cap ms 0 then some (passLen cap ms 0 - 1, 5, 7) else none

/-- The trap record of a bundle with faulting slots (R284): lowest faulting slot, lowest faulting thread, the blocks of
what did not commit. -/
def formTrap (s : State) (b : BInfo) (inst : Instr) (ms : List SavedMove) (fl : List (Nat × List (Nat × Flt)))
    (done : List Nat) (waive : List Nat) (skips : List (Nat × Mask)) : Trap :=
  let faulting := fl.filter (fun e => !e.2.isEmpty)
  let rs := minList 8 (faulting.map (·.1))
  let here := ((faulting.find? (fun e => e.1 == rs)).map (·.2)).getD []
  let lowT := minList 128 (here.map (·.1))
  let f := ((here.find? (fun e => e.1 == lowT)).map (·.2)).getD Cause.none.flt
  { Trap.blank b.pc s.ts with
    cause := f.cause, info := f.info, faddr := f.addr, rslot := rs, done := done, sfault := faulting.map (·.1),
    fmask := Mask.ofFn (fun t => here.any (fun e => e.1 == t)),
    causes := here.map (fun e => (e.1, e.2.cause)),
    blocks := ms.filter (fun m => !done.contains m.slot), waive := waive, skips := skips,
    format := b.format, stall := b.stall, le := b.le, dp := b.dp, preds := b.preds, inst := some inst }

/-- The droop cap at a sheet's core (R91). -/
def dcap (s : State) (sid : Nat) : Nat := (s.cluster (clusterOf (coreOf sid))).droopCap
/-- Whether a pass of a bundle needs a cycle of its column (R88). -/
def inSlots (s : State) (sid : Nat) (ms : List SavedMove) (p : Nat) : Bool := (s.core (coreOf sid)).split && slotted ms p

/-- Cycles of the passes of a bundle's moves from pass `p0` and cycle `c` on, and the cycle after the last (R30, R88, R91). -/
def passPlan (s : State) (sid passes p0 c : Nat) (ms : List SavedMove) : List Nat × Nat :=
  passStarts (dcap s sid) (s.core (coreOf sid)).splitFrom (s.colOf sid) (inSlots s sid ms) ms (passes - p0) p0 c

/-- The interlock record of a bundle that waited, where the trace is armed (R337). -/
def interlockTrace (s0 : State) (sid : Nat) (sh : Sheet) (pc : W64) (ms : List SavedMove) (c0 : Nat) (s : State) : State :=
  if sh.armed then
    match interlockOf sh (dcap s0 sid) ms c0 with
    | some (n, cause, k) => traceRecord s (s.partOf sh) sid 0 (srcIssue s sid) pc n cause k
    | none => s
  else s

/-- What an issued bundle costs, counts and leaves (R91, R275, R282, R328): its passes at the cycles `starts`, the moves
`rd` read in it, those in the slots `moves` committed. -/
def settleIssue (s0 : State) (sid : Nat) (sh : Sheet) (b : BInfo) (rd go : List SavedMove) (starts : List Nat) (endc : Nat) (moves : List Nat)
    (s : State) : State :=
  let s := interlockTrace s0 sid sh b.pc rd (starts.getD 0 0) s
  let s := account s sid b.pc endc b.stall.toNat (droopAdded (dcap s0 sid) rd sh.passes) moves (targets go)
  s.mapSheet sid (fun y => { y with corrupt := none, issuing := none })

/-- A sheet that has moved to its next bundle: a skipped body passes, its path arrives, it may leave its barriers. -/
def arriveAfter (s : State) (sid : Nat) : State := leaveBarriers ((skipBody 16 s sid).mapSheet sid Sheet.arrive) sid

/-- A bundle that has committed whole: the sheet goes on (R83, R283). -/
def goOn (sid : Nat) (b : BInfo) (inst : Instr) (waive : List Nat) (skips : List (Nat × Mask)) (mean : Meanings) (c0 : Nat)
    (sw : State) (ms0 go : List SavedMove) (s : State) : State :=
  let s := s.mapSheet sid (fun y => y.returnFrom.advance inst b.pc b.size)
  let s := runControl sid b waive skips mean c0 sw go s
  arriveAfter (s.mapSheet sid (fun y => ms0.foldl (fun y m => loopSkip m y) y)) sid

/-- The triggers of all passes, and what follows them. -/
def runTriggers (sid : Nat) (b : BInfo) (waive : List Nat) (skips : List (Nat × Mask)) (mean : Meanings) (starts : List Nat)
    (sw : State) (ms0 go : List SavedMove) (done : List Nat) : State :=
  let s := (starts.zipIdx).foldl (fun s (c, p) => runPass sid b waive skips mean p c sw go s) sw.drew
  let s := (ms0.filter (fun m => done.contains m.slot)).foldl (fun s m => skipZeros sid skips mean m s) s
  runFinish sid b waive skips mean sw go s

/-- Engine triggers among moves (R220). -/
def engineMoves (ms : List SavedMove) : Nat := (ms.filter (fun m => m.exec != 0 &&
  (m.trig == some .mxe || m.trig == some .cfe || m.trig == some .cpy))).length

/-- What the faults of a bundle's moves leave behind: those that their operations' own checks found. -/
def leaveFaults (sid : Nat) (b : BInfo) (waive : List Nat) (skips : List (Nat × Mask)) (mean : Meanings) (tent : State)
    (sh : Sheet) (fl : List (Nat × List (Nat × Flt))) (ms : List SavedMove) (s : State) : State :=
  ms.foldl (fun s m =>
    match m.trig, mean m.move with
    | some u, .ok o =>
      let here := (fl.filter (fun e => e.1 == m.slot)).flatMap (·.2)
      if here.isEmpty || sh.corrupt == some m.slot || !moveOk m.move (s.kernelOf sh).regs (s.core (coreOf sid)).split then s
      else o.onFault (trigCtx tent sid ((tent.sheet? sid).getD sh) b waive skips m u) here s
    | _, _ => s) s

/-- Whether the commit of a move waits for its step at an object or header (R423, R481). -/
def waitsStep (mean : Meanings) (m : SavedMove) : Bool :=
  match m.trig, mean m.move with
  | some _, .ok o => m.exec != 0 && o.steps
  | _, _ => false

/-- A bundle as its record keeps it. -/
def Trap.bundle (t : Trap) : BInfo := ⟨t.baddr, t.format.size, t.format, t.stall, t.le, t.dp, t.preds, 0, 0⟩
/-- The instruction of a record. -/
def Trap.instr (t : Trap) : Instr := t.inst.getD (.bundleIssue ⟨t.format, t.stall, t.le, t.dp, []⟩)

/-- A bundle whose steps have all been made (R481): it commits whole and the sheet goes on, or it stops at the moves that do
not commit. Nothing while a step is still to come. -/
def finishHeld (sid : Nat) (mean : Meanings) (s : State) : State :=
  match (s.sheet? sid).bind (·.held), s.sheet? sid with
  | some h, some sh =>
    if !h.todo.isEmpty then s
    else
      let b := h.base.bundle
      let done := commits mean h.moves h.faults
      let go := h.moves.filter (fun m => done.contains m.slot)
      let s := s.mapSheet sid (fun y => { y with held := none })
      let s := (go.filter (waitsStep mean)).foldl (fun s m => s.sheetEvent sid sh m.slot 3 1) s
      if h.moves.all (fun m => done.contains m.slot) then
        goOn sid b h.base.instr h.base.waive h.base.skips mean (s.cycle (coreOf sid)) s h.moves go s
      else
        (leaveFaults sid b h.base.waive h.base.skips mean s sh h.faults h.moves s).takeCause sid
          { formTrap s b h.base.instr h.moves h.faults (h.prior ++ done) h.base.waive h.base.skips with until_ := h.base.until_ }
  | _, _ => s

/-- Executes a bundle's moves with their sources read: all checks first, then the writes and triggers of what commits;
where everything has committed the sheet goes on, otherwise it stops (R283, R287). `prior` are slots already done; the
passes issue at the cycles `times`, and the moves `rd` read their sources in them. None where some trigger must wait. -/
def commitBundle (s : State) (sid : Nat) (sh : Sheet) (b : BInfo) (inst : Instr) (ms rd : List SavedMove)
    (prior waive : List Nat) (skips : List (Nat × Mask)) (mean : Meanings) (times : List Nat × Nat) : Option State :=
  let (starts, endc) := times
  let c0 := starts.getD 0 0
  let ms0 := ms
  let lawful := fun m => moveOk m (s.kernelOf sh).regs (s.core (coreOf sid)).split
  let ms := ms0.map (skipWhole skips lawful mean)
  let legal := ms.filter (fun m => lawful m.move)
  let tent := legal.foldl (fun s m => writeMove s sid c0 m) s
  let fl := ms.map (fun m => (m.slot, moveFaults tent sid sh b waive skips mean m))
  let done := commits mean ms fl
  let go := ms.filter (fun m => done.contains m.slot)
  let sw := go.foldl (fun s m => writeMove s sid c0 m) s
  let shw := (sw.sheet? sid).getD sh
  let b := { b with engines := engineMoves go, droop0 := passLen (dcap s sid) rd 0 - 1 }
  let blocked := go.any (fun m =>
    match m.trig, mean m.move with
    | some u, .ok o =>
      let x := trigCtx sw sid shw b waive skips m u
      m.exec != 0 && (!o.ready x || (o.vregs x).any (vregBusy sw sid))
    | _, _ => false)
  let todo := (go.filter (waitsStep mean)).map (·.slot)
  if blocked then none
  else if todo.isEmpty then
    let s1 := settleIssue s sid sh b rd go starts endc (go.map (·.slot)) (runTriggers sid b waive skips mean starts sw ms0 go done)
    if ms.all (fun m => done.contains m.slot) then some (goOn sid b inst waive skips mean c0 sw ms0 go s1)
    else
      some ((leaveFaults sid b waive skips mean tent sh fl ms s1).takeCause sid (formTrap s b inst ms0 fl (prior ++ done) waive skips))
  else
    let h : Held := ⟨formTrap s b inst [] [] [] waive skips, ms, prior, todo, fl⟩
    let sw := sw.mapSheet sid (fun y => { y with held := some h })
    some (finishHeld sid mean (settleIssue s sid sh b rd go starts endc ((go.map (·.slot)).filter (fun k => !todo.contains k))
      (runTriggers sid b waive skips mean starts sw ms0 go done)))

/-- Whether what a sheet waits for between bundles is over at a cycle: nothing, a result that has landed, or at a
sheet barrier every result but the barrier's own (R258). -/
def Sheet.waitOver (sh : Sheet) (c : Nat) : Bool :=
  match sh.wait with
  | .none => true
  | .land id => !sh.flights.any (fun f => f.id == id)
  | .bar _ _ id => !sh.flights.any (fun f => f.id == id)
  | .barSheet id => sh.flights.all (fun f => f.id == id || (if f.stalling then f.ready else decide (f.due ≤ c)))
  | _ => false

/-- The wait that is over ends: a sheet barrier delivers its 0. -/
def Sheet.endWait (sh : Sheet) : Sheet :=
  match sh.wait with
  | .barSheet id => { sh.fill id (some 0) none with wait := .none }
  | _ => { sh with wait := .none }

/-- The sheet when the passes of a bundle of it issue at the cycles given: results that are due by then have landed (R70), its
waits have ended. -/
def Sheet.atIssue (sh : Sheet) (cyc : Nat → Nat) : Sheet :=
  { (sh.landWhere (fun f => f.stalling || decide (f.due ≤ cyc (f.thread / 32)))).endWait with sys := .none }

/-- CYCLE counts from the first bundle of the workgroup, for each of its sheets (R332). -/
def startCycles (s : State) (wg c : Nat) : State :=
  { s with sheets := s.sheets.map (fun e =>
      if e.2.wg = wg ∧ e.2.cycFrom = none then (e.1, { e.2 with cycFrom := some c }) else e) }

/-- Whether a sheet's SYS operation lets the next bundle issue. -/
def Sheet.sysOver (sh : Sheet) : Bool :=
  match sh.sys with
  | .none => true
  | .land id => !sh.flights.any (fun f => f.id == id)
  | _ => false

/-- The update of `limm` (R101). -/
def limmUpdate (old : W64) : Format → W64
  | .wideLimm mode c =>
    match mode.toNat with
    | 0 => w64 c.toNat
    | 1 => sext64 32 c.toNat
    | 2 => w64 (c.toNat * 2 ^ 32)
    | _ => old ||| w64 (c.toNat * 2 ^ 32)
  | _ => old

/-- Whether a sheet may issue (R275): running, its STALL elapsed, nothing waited for, threads left. -/
def Sheet.mayIssue (sh : Sheet) (c : Nat) : Bool :=
  sh.park == .running && !sh.stopNext && sh.waitOver c && sh.sysOver && sh.lates.isEmpty && sh.skip == 0 && sh.held.isNone &&
  decide (sh.nextIssue ≤ c) && sh.active != 0

/-- Whether a BARA of a sheet must wait for the end of the phase of an earlier arrival, and holds it (R257, R376). -/
def barHolds (s : State) (sid : Nat) (sh : Sheet) : Bool :=
  (sh.queue.zipIdx).any (fun (a, k) => match a.act with
    | .arrive l n _ false => inPhase s sid sh l n || (sh.queue.take k).any (fun o => match o.act with
        | .arrive l' n' _ _ => l' == l && n' == n
        | _ => false)
    | _ => false)

/-- The sheet as its bundle begins to issue, its passes at the cycles given (R70, R101). -/
def beginSheet (sh : Sheet) (cyc : Nat → Nat) (f : Format) : Sheet := { sh.atIssue cyc with limm := limmUpdate sh.limm f }
/-- The state then. -/
def beginIssue (s : State) (sid : Nat) (sh : Sheet) (cyc : Nat → Nat) (f : Format) : State :=
  startCycles (s.setSheet sid (beginSheet sh cyc f)) sh.wg (s.cycle (coreOf sid))
/-- The sheet in it. -/
def begunSheet (s : State) (sid : Nat) (sh : Sheet) (cyc : Nat → Nat) (f : Format) : Sheet :=
  ((beginIssue s sid sh cyc f).sheet? sid).getD (beginSheet sh cyc f)

/-- The moves of a bundle whose pass 0 issues at cycle `c`, with their guards and sources read. -/
def readMoves (s : State) (sid : Nat) (sh : Sheet) (b : Bundle) (c : Nat) : List SavedMove :=
  (liveSlots b).map (fun (k, m) => evalMove s sid sh c k m)
/-- Whether a source is read once for every thread of a bundle: a workgroup register (R68, R86). -/
def Move.readOnce (m : Move) : Bool :=
  Move.uniform m || match Src.ofCode m.src.toNat with
    | some (.w _) => true
    | _ => false
/-- What the passes before `p0` have read stands; a later pass reads now. -/
def mergeMoves (p0 : Nat) (old new : List SavedMove) : List SavedMove :=
  new.map (fun m => match old.find? (fun o => o.slot == m.slot) with
    | none => m
    | some o => if Move.readOnce m.move then o
      else { m with vals := m.vals.zipIdx.map (fun (v, t) => if t / 32 < p0 then o.vals.getD t 0 else v) })

/-- The passes of a sheet's bundle that have issued (R71, R72). -/
def Sheet.issued? (sh : Sheet) : List Nat := (sh.issuing.map (·.starts)).getD []
/-- The cycles of all passes of a sheet's bundle, those that have issued first, and the cycle after the last. -/
def issueTimes (s : State) (sid : Nat) (sh : Sheet) (b : Bundle) : List Nat × Nat :=
  let c := s.cycle (coreOf sid)
  let st := sh.issued?
  let r := passPlan s sid sh.passes st.length c (readMoves s sid sh b c)
  (st ++ r.1, r.2)
/-- The cycle at which pass `p` reads. -/
def readCycle (s : State) (sid : Nat) (sh : Sheet) (b : Bundle) (p : Nat) : Nat :=
  (issueTimes s sid sh b).1.getD p (s.cycle (coreOf sid))

/-- An IMU trigger waits for a divide pending in the threads in which a pass starts it (R67, R401). -/
def imuBusy (sh : Sheet) (p : Nat) (m : SavedMove) : Bool :=
  m.trig == some .imu && m.runsIn p && sh.flights.any (fun f => f.unit == .imu && f.stalling && !f.ready &&
    (if Move.uniform m.move then sh.active.has f.thread else f.thread / 32 == p && m.exec.has f.thread))

/-- Whether pass `p` of a move waits at cycle `c` for a port, a vector register or a divide (R71, R72, R244, R401). -/
def moveBlocked (s : State) (sid : Nat) (sh : Sheet) (p c : Nat) (m : SavedMove) : Bool :=
  moveWaits sh ((sh.active.lowest).getD 0) p c m || vregWaits s sid p m || imuBusy sh p m

/-- The first pass that waits, from pass `p` on with `n` passes left. -/
def waitingPass (s : State) (sid : Nat) (sh : Sheet) (cyc : Nat → Nat) (ms : List SavedMove) : Nat → Nat → Option Nat
  | 0, _ => none
  | n + 1, p => if ms.any (moveBlocked s sid sh p (cyc p)) then some p else waitingPass s sid sh cyc ms n (p + 1)

/-- Whether the next pass of a sheet's next bundle waits for a cycle of its column (R88, R275). -/
def slotWaits (s : State) (sid : Nat) (sh : Sheet) (b : Bundle) : Bool :=
  let c := s.cycle (coreOf sid)
  inSlots s sid (readMoves s sid sh b c) sh.issued?.length &&
    ownedCycle (s.core (coreOf sid)).splitFrom (s.colOf sid) c != c

/-- Whether a sheet's next bundle, or the next pass of one under way, may take its issue stage now (R275): the stage is free. -/
def stageOpen (s : State) (sid : Nat) (sh : Sheet) : Bool :=
  sh.mayIssue (s.cycle (coreOf sid)) && !barHolds s sid sh &&
  !decide (s.cycle (coreOf sid) < getD (s.core (coreOf sid)).busy 0 (s.colOf sid))

/-- Some passes of a bundle have issued and read; the next waits for a port, and its sheet leaves the stage to the others from the
cycle after them (R71, R72, R277; log 84). It is ready again when the port is filled. -/
def holdPass (s : State) (sid : Nat) (inst : Instr) (starts : List Nat) (ms : List SavedMove) : State :=
  let free := maxList 0 starts + 1
  (s.mapSheet sid (fun y => { y with issuing := some ⟨inst, starts, ms⟩, readySince := max y.readySince free })).mapCore
    (coreOf sid) (fun k => { k with busy := setD k.busy 0 (s.colOf sid) free })

/-- A sheet's bundle issues (R64), pass by pass (R71, R72): none where it must wait. -/
def issueBundle (s : State) (sid : Nat) (b : Bundle) (inst : Instr) (mean : Meanings) : Option State :=
  match s.sheet? sid with
  | none => none
  | some sh0 =>
    if !stageOpen s sid sh0 then none
    else if sh0.issuing.isNone && !bundleOk sh0 (s.core (coreOf sid)).split b then
      some (s.takeCause sid (bundleTrap sh0 s.ts Cause.bundleIllegal.flt
        (readMoves s sid sh0 b (s.cycle (coreOf sid)))))
    else if slotWaits s sid sh0 b then none
    else
      let cyc := readCycle s sid sh0 b
      let p0 := sh0.issued?.length
      let s1 := beginIssue s sid sh0 cyc b.format
      let sh := begunSheet s sid sh0 cyc b.format
      let ms := mergeMoves p0 ((sh0.issuing.map (·.moves)).getD []) (readMoves s1 sid sh b (cyc 0))
      match waitingPass s1 sid sh cyc ms (sh.passes - p0) p0 with
      | none => commitBundle s1 sid sh (Bundle.info b sh) inst ms ms [] [] [] mean (issueTimes s sid sh0 b)
      | some p =>
        if p = p0 then none
        else some (holdPass s1 sid inst ((issueTimes s sid sh0 b).1.take p) ms)

/-- Why a sheet's next bundle waits, as R337 names it: 0 stalling port, 1 interlock, 2 wired barrier, 3 dependency-table entry, 4
split-mode slot, 6 fetch, and 0 for a wait that R337 does not name (log 39); the lowest slot whose move waits, 7 for the bundle. -/
structure Waiting where
  cause : Nat
  slot : Nat
  /-- the wait counts towards WDLIM (R281): for a stalling port, a wired barrier or an entry -/
  limited : Bool
  deriving DecidableEq, Repr

/-- A wait between bundles: a wired barrier, or BOWAIT, LWAIT or a register write, none of which counts towards WDLIM (R281). -/
def betweenWait (s : State) (sid : Nat) (sh : Sheet) : Option Waiting :=
  if !sh.waitOver (s.cycle (coreOf sid)) then
    match sh.wait with
    | .bar _ _ _ => some ⟨2, 7, true⟩
    | .barSheet _ => some ⟨2, 7, true⟩
    | _ => some ⟨0, 7, false⟩
  else if !sh.sysOver then
    match sh.sys with
    | .svc _ _ _ => none
    | _ => some ⟨0, 7, false⟩
  else if barHolds s sid sh then some ⟨2, 7, true⟩
  else none

/-- What the next bundle of a sheet, which has been fetched, waits for. -/
def bundleWait (s : State) (sid : Nat) (sh : Sheet) (b : Bundle) (mean : Meanings) : Option Waiting :=
  let lead := (sh.active.lowest).getD 0
  let cyc := readCycle s sid sh b
  let p0 := sh.issued?.length
  let sh' := sh.landWhere (fun f => f.stalling || decide (f.due ≤ cyc (f.thread / 32)))
  let ms := readMoves s sid sh' b (cyc 0)
  let noInter : Sheet := { sh' with flights := sh'.flights.map (fun (f : Flight) => { f with inter := false }) }
  let p := (waitingPass s sid sh' cyc ms (sh.passes - p0) p0).getD p0
  match ms.find? (fun m => moveBlocked s sid sh' p (cyc p) m) with
  | some m =>
    if moveWaits noInter lead p (cyc p) m || imuBusy sh' p m then some ⟨0, m.slot, true⟩
    else if moveWaits sh' lead p (cyc p) m then some ⟨1, m.slot, false⟩
    else some ⟨0, m.slot, false⟩
  | none =>
    match ms.find? (fun m => m.exec != 0 && (match m.trig, mean m.move with
      | some u, .ok o => (u == .mxe || u == .cfe || u == .cpy) &&
        !o.ready (trigCtx s sid sh' { Bundle.info b sh' with engines := 1 } [] [] m u)
      | _, _ => false)) with
    | some m => some ⟨3, m.slot, true⟩
    | none => if slotWaits s sid sh b then some ⟨4, 7, false⟩ else none

/-- What a running sheet's next bundle waits for. -/
def waitReason (s : State) (sid : Nat) (sh : Sheet) (b : Bundle) (mean : Meanings) : Option Waiting :=
  if sh.held.isSome then none
  else
    match betweenWait s sid sh with
    | some w => some w
    | none => if !(missingLines s sid sh).isEmpty then some ⟨6, 7, false⟩ else bundleWait s sid sh b mean

/-- Whether a bundle resumed after a stop waits for a dependency-table entry or a divide (R281, R287). -/
def resumedWaits (s : State) (sid : Nat) (sh : Sheet) (t : Trap) (mean : Meanings) : Bool :=
  t.blocks.any (fun m => m.exec != 0 && ((List.range sh.passes).any (fun p => imuBusy sh p m) ||
    (match m.trig, mean m.move with
     | some u, .ok o => (u == .mxe || u == .cfe || u == .cpy) &&
       !o.ready (trigCtx s sid sh { t.bundle with engines := engineMoves t.blocks } t.waive t.skips m u)
     | _, _ => false)))

/-- Notes that the next bundle of a running sheet waits from this cycle on (R281, R337). -/
def noteWait (s : State) (sid : Nat) (b : Bundle) (mean : Meanings) : State :=
  match s.sheet? sid with
  | none => s
  | some sh =>
    let c := s.cycle (coreOf sid)
    if sh.park = .running ∧ sh.waitAt = none ∧ sh.nextIssue ≤ c then
      match waitReason s sid sh b mean with
      | some w => s.setSheet sid { sh with waitAt := some (c, w.cause, w.slot) }
      | none => s
    else s

/-- A sheet's bundle issues, or is noted to wait. -/
def issueOrWait (s : State) (sid : Nat) (b : Bundle) (inst : Instr) (mean : Meanings) : State :=
  (issueBundle s sid b inst mean).getD (noteWait s sid b mean)

/-- The narrow bundle that holds one move and two empty slots (R102). -/
def oneMove (m : Move) : Bundle := ⟨.narrow, 0, false, false, [m, Move.empty, Move.empty]⟩

/-- One operation as a step: the sheet in focus issues the narrow bundle that holds its trigger move alone (log 4).
Where the sheet cannot issue the bundle now, only the wait is noted (log 7). -/
def runOp (i : Instr) (o : OpMeaning) (s : State) : Host.Outcome State Fault Refusal :=
  match i.move with
  | none => .next s
  | some m => .next (issueOrWait s s.focus (oneMove m) (.bundleIssue (oneMove m)) (fun _ => .ok o))

end Sys2Proof.Machine
end

