-- ==== Sys2Proof/Machine/Alu.lean ====
section
/-! DEFINITION. The ALU catalogue (05 R119, R120): each operation once, over the frame of R370. -/

namespace Sys2Proof.Machine

/-! ## The frame of R370 -/

/-- Width of an operation (R370). -/
def widthOf (m32 : Bool) : Nat := if m32 then 32 else 64

/-- A: X0, or X1 under `.x1` (R63, R370). -/
def LaneIn.a (i : LaneIn) (x1 : Bool) : Nat := if x1 then i.x1.toNat else i.x0.toNat
/-- The entry that A does not use (R377, R447, R456). -/
def LaneIn.other (i : LaneIn) (x1 : Bool) : Nat := if x1 then i.x0.toNat else i.x1.toNat

/-- Latency class of a unit of the ALU catalogue (R69). -/
def aluClass : AluUnit → Nat
  | .sal => 1
  | _ => 0

/-- A result in `q`, no flag. -/
def qOnly (x : W64) : LaneOut := ⟨some x, none, 0⟩

/-- An ALU operation of n-bit operands a and b (R370). -/
def aluOp (u : AluUnit) (x1 m32 : Bool) (f : Nat → Nat → Nat → Nat) : OpMeaning :=
  laneOp (fun _ => aluClass u) (fun i =>
    let n := widthOf m32
    qOnly (sext64 n (f n (i.a x1 % 2 ^ n) (i.t.toNat % 2 ^ n))))

/-- As `aluOp`, with the entry that A does not use as a third operand. -/
def aluOp3 (u : AluUnit) (x1 m32 : Bool) (f : Nat → Nat → Nat → Nat → Nat) : OpMeaning :=
  laneOp (fun _ => aluClass u) (fun i =>
    let n := widthOf m32
    qOnly (sext64 n (f n (i.a x1 % 2 ^ n) (i.t.toNat % 2 ^ n) (i.other x1))))

/-! ## Arithmetic and logic (R374, R431, R436, R444, R455) -/

def addMeaning (u : AluUnit) (m : X1M32) : OpMeaning := aluOp u m.x1 m.m32 (fun _ a b => a + b)
def subMeaning (u : AluUnit) (m : X1M32) : OpMeaning := aluOp u m.x1 m.m32 (fun n a b => a + (2 ^ n - b))
def rsubMeaning (u : AluUnit) (m : X1M32) : OpMeaning := aluOp u m.x1 m.m32 (fun n a b => b + (2 ^ n - a))
def andMeaning (u : AluUnit) (m : X1M32) : OpMeaning := aluOp u m.x1 m.m32 (fun _ a b => Nat.land a b)
def orMeaning (u : AluUnit) (m : X1M32) : OpMeaning := aluOp u m.x1 m.m32 (fun _ a b => Nat.lor a b)
def xorMeaning (u : AluUnit) (m : X1M32) : OpMeaning := aluOp u m.x1 m.m32 (fun _ a b => Nat.xor a b)
def andnMeaning (u : AluUnit) (m : X1M32) : OpMeaning :=
  aluOp u m.x1 m.m32 (fun n a b => Nat.land a (2 ^ n - 1 - b))

/-- The shift count (R455). -/
def shiftCount (n b : Nat) : Nat := if n = 32 then b % 32 else b % 64
def shlMeaning (u : AluUnit) (m : X1M32) : OpMeaning := aluOp u m.x1 m.m32 (fun n a b => a * 2 ^ shiftCount n b)
def shrMeaning (u : AluUnit) (m : X1M32) : OpMeaning := aluOp u m.x1 m.m32 (fun n a b => a / 2 ^ shiftCount n b)
/-- Right shift of a signed number, floor (R455). -/
def sarNat (n a k : Nat) : Nat := (signed n a / (2 ^ k : Nat)) % (2 ^ n : Nat) |>.toNat
def sarMeaning (u : AluUnit) (m : X1M32) : OpMeaning :=
  aluOp u m.x1 m.m32 (fun n a b => sarNat n a (shiftCount n b))
def rolMeaning (u : AluUnit) (m : X1M32) : OpMeaning :=
  aluOp u m.x1 m.m32 (fun n a b => a * 2 ^ shiftCount n b + a / 2 ^ (n - shiftCount n b))

def minMeaning (u : AluUnit) (m : X1M32) : OpMeaning :=
  aluOp u m.x1 m.m32 (fun n a b => if signed n a ≤ signed n b then a else b)
def maxMeaning (u : AluUnit) (m : X1M32) : OpMeaning :=
  aluOp u m.x1 m.m32 (fun n a b => if signed n a ≤ signed n b then b else a)
def minuMeaning (u : AluUnit) (m : X1M32) : OpMeaning := aluOp u m.x1 m.m32 (fun _ a b => Nat.min a b)
def maxuMeaning (u : AluUnit) (m : X1M32) : OpMeaning := aluOp u m.x1 m.m32 (fun _ a b => Nat.max a b)
def leaMeaning (u : AluUnit) (m : LeaMod) : OpMeaning := aluOp u m.x1 m.m32 (fun _ a b => a + b * 2 ^ m.scale.val)

/-! ## Of b alone (R371, R448) -/

def absMeaning (u : AluUnit) (m32 : Bool) : OpMeaning := aluOp u false m32 (fun n _ b => (signed n b).natAbs)
/-- The low `n` bits of `b` in reverse order. -/
def revBits (n b : Nat) : Nat := sumList ((List.range n).map (fun i => ofBool (bitAt b (n - 1 - i)) * 2 ^ i))
def brevMeaning (u : AluUnit) (m32 : Bool) : OpMeaning := aluOp u false m32 (fun n _ b => revBits n b)
def popcMeaning (u : AluUnit) (m32 : Bool) : OpMeaning :=
  aluOp u false m32 (fun n _ b => sumList ((List.range n).map (fun i => ofBool (bitAt b i))))
def clzMeaning (u : AluUnit) (m32 : Bool) : OpMeaning :=
  aluOp u false m32 (fun n _ b => if b = 0 then n else n - 1 - Nat.log2 b)
/-- Zero bits below the lowest one bit. -/
def ctzNat (n b : Nat) : Nat := minList n ((List.range n).filter (fun i => bitAt b i))
def ctzMeaning (u : AluUnit) (m32 : Bool) : OpMeaning := aluOp u false m32 (fun n _ b => ctzNat n b)

/-! ## Selection, comparison, fields (R377, R386, R447, R456) -/

/-- A three-valued code in bits 1:0 (R158). -/
def codeOf (x : Nat) : Nat := if x % 4 = 3 then 2 else x % 4
def selMeaning (u : AluUnit) (m : X1M32) : OpMeaning :=
  aluOp3 u m.x1 m.m32 (fun _ a b c => if codeOf c = 1 then a else b)
def ceqMeaning (u : AluUnit) (m : X1M32) : OpMeaning := aluOp u m.x1 m.m32 (fun _ a b => ofBool (a == b))
def cneMeaning (u : AluUnit) (m : X1M32) : OpMeaning := aluOp u m.x1 m.m32 (fun _ a b => ofBool (a != b))
def cltMeaning (u : AluUnit) (m : X1M32) : OpMeaning :=
  aluOp u m.x1 m.m32 (fun n a b => ofBool (decide (signed n a < signed n b)))
def cleMeaning (u : AluUnit) (m : X1M32) : OpMeaning :=
  aluOp u m.x1 m.m32 (fun n a b => ofBool (decide (signed n a ≤ signed n b)))
def cltuMeaning (u : AluUnit) (m : X1M32) : OpMeaning := aluOp u m.x1 m.m32 (fun _ a b => ofBool (decide (a < b)))
def cleuMeaning (u : AluUnit) (m : X1M32) : OpMeaning := aluOp u m.x1 m.m32 (fun _ a b => ofBool (decide (a ≤ b)))

/-- The field of BFX (R377). -/
def bfxNat (sgn : Bool) (n a b : Nat) : Nat :=
  let pos := b % 64
  let len := min (b / 256 % 128) n
  if len = 0 then 0
  else
    let v := a / 2 ^ pos % 2 ^ len
    if sgn then (signed len v % (2 ^ n : Nat)).toNat else v
def bfxMeaning (u : AluUnit) (m : BfxMod) : OpMeaning := aluOp u m.x1 m.m32 (bfxNat m.sgn)
/-- The insertion of BFI (R377): bits `pos` to `pos + len - 1`, below `n`, come from `c`. -/
def bfiNat (n a b c : Nat) : Nat :=
  let pos := b % 64
  let len := min (b / 256 % 128) n
  sumList ((List.range n).map (fun i =>
    (if pos ≤ i ∧ i < pos + len then ofBool (bitAt c (i - pos)) else ofBool (bitAt a i)) * 2 ^ i))
def bfiMeaning (u : AluUnit) (m : X1M32) : OpMeaning := aluOp3 u m.x1 m.m32 bfiNat
/-- The bytes of PERM (R447). -/
def permNat (a b c : Nat) : Nat :=
  leNat ((List.range 8).map (fun k => BitVec.ofNat 8 ((a + c * 2 ^ 64) / 2 ^ (8 * bits b (4 * k) 4))))
def permMeaning (u : AluUnit) (x1 : Bool) : OpMeaning := aluOp3 u x1 false (fun _ a b c => permNat a b c)

/-! ## Extension, passing and three-valued logic (R158, R445, R446) -/

def extBits : ExtWidth → Nat
  | .b8 => 8 | .b16 => 16 | .b32 => 32
def sextMeaning (u : AluUnit) (m : ExtWidth) : OpMeaning :=
  laneOp (fun _ => aluClass u) (fun i => qOnly (sext64 (extBits m) i.t.toNat))
def zextMeaning (u : AluUnit) (m : ExtWidth) : OpMeaning :=
  laneOp (fun _ => aluClass u) (fun i => qOnly (w64 (i.t.toNat % 2 ^ extBits m)))
def passMeaning (u : AluUnit) : OpMeaning := laneOp (fun _ => aluClass u) (fun i => qOnly i.t)

/-- Kleene's and, or and not on codes 0 false, 1 true, 2 undecided (R158). -/
def kleeneAnd (a b : Nat) : Nat := if a = 0 ∨ b = 0 then 0 else if a = 1 ∧ b = 1 then 1 else 2
def kleeneOr (a b : Nat) : Nat := if a = 1 ∨ b = 1 then 1 else if a = 0 ∧ b = 0 then 0 else 2
def kleeneNot (a : Nat) : Nat := if a = 0 then 1 else if a = 1 then 0 else 2
def pandMeaning (u : AluUnit) (x1 : Bool) : OpMeaning :=
  aluOp u x1 false (fun _ a b => kleeneAnd (codeOf a) (codeOf b))
def porMeaning (u : AluUnit) (x1 : Bool) : OpMeaning :=
  aluOp u x1 false (fun _ a b => kleeneOr (codeOf a) (codeOf b))
def pnotMeaning (u : AluUnit) : OpMeaning := aluOp u false false (fun _ _ b => kleeneNot (codeOf b))
def psureMeaning (u : AluUnit) : OpMeaning := aluOp u false false (fun _ _ b => ofBool (codeOf b == 1))
def possMeaning (u : AluUnit) : OpMeaning := aluOp u false false (fun _ _ b => ofBool (codeOf b != 0))

/-! ## The steps -/

/-- ADD (R374). -/
def execAdd (u : AluUnit) (h : Head) (m : X1M32) (s : State) : Host.Outcome State Fault Refusal :=
  runOp (.add u h m) (addMeaning u m) s

/-- SUB (R444). -/
def execSub (u : AluUnit) (h : Head) (m : X1M32) (s : State) : Host.Outcome State Fault Refusal :=
  runOp (.sub u h m) (subMeaning u m) s

/-- RSUB (R444). -/
def execRsub (u : AluUnit) (h : Head) (m : X1M32) (s : State) : Host.Outcome State Fault Refusal :=
  runOp (.rsub u h m) (rsubMeaning u m) s

/-- AND (R374). -/
def execAnd (u : AluUnit) (h : Head) (m : X1M32) (s : State) : Host.Outcome State Fault Refusal :=
  runOp (.and u h m) (andMeaning u m) s

/-- OR (R444). -/
def execOr (u : AluUnit) (h : Head) (m : X1M32) (s : State) : Host.Outcome State Fault Refusal :=
  runOp (.or u h m) (orMeaning u m) s

/-- XOR (R444). -/
def execXor (u : AluUnit) (h : Head) (m : X1M32) (s : State) : Host.Outcome State Fault Refusal :=
  runOp (.xor u h m) (xorMeaning u m) s

/-- ANDN (R374). -/
def execAndn (u : AluUnit) (h : Head) (m : X1M32) (s : State) : Host.Outcome State Fault Refusal :=
  runOp (.andn u h m) (andnMeaning u m) s

/-- SHL (R455). -/
def execShl (u : AluUnit) (h : Head) (m : X1M32) (s : State) : Host.Outcome State Fault Refusal :=
  runOp (.shl u h m) (shlMeaning u m) s

/-- SHR (R455). -/
def execShr (u : AluUnit) (h : Head) (m : X1M32) (s : State) : Host.Outcome State Fault Refusal :=
  runOp (.shr u h m) (shrMeaning u m) s

/-- SAR (R455). -/
def execSar (u : AluUnit) (h : Head) (m : X1M32) (s : State) : Host.Outcome State Fault Refusal :=
  runOp (.sar u h m) (sarMeaning u m) s

/-- ROL (R455). -/
def execRol (u : AluUnit) (h : Head) (m : X1M32) (s : State) : Host.Outcome State Fault Refusal :=
  runOp (.rol u h m) (rolMeaning u m) s

/-- MIN (R436). -/
def execMin (u : AluUnit) (h : Head) (m : X1M32) (s : State) : Host.Outcome State Fault Refusal :=
  runOp (.min u h m) (minMeaning u m) s

/-- MAX (R436). -/
def execMax (u : AluUnit) (h : Head) (m : X1M32) (s : State) : Host.Outcome State Fault Refusal :=
  runOp (.max u h m) (maxMeaning u m) s

/-- MINU (R436). -/
def execMinu (u : AluUnit) (h : Head) (m : X1M32) (s : State) : Host.Outcome State Fault Refusal :=
  runOp (.minu u h m) (minuMeaning u m) s

/-- MAXU (R436). -/
def execMaxu (u : AluUnit) (h : Head) (m : X1M32) (s : State) : Host.Outcome State Fault Refusal :=
  runOp (.maxu u h m) (maxuMeaning u m) s

/-- ABS (R371). -/
def execAbs (u : AluUnit) (h : Head) (m32 : Bool) (s : State) : Host.Outcome State Fault Refusal :=
  runOp (.abs u h m32) (absMeaning u m32) s

/-- SEL (R456). -/
def execSel (u : AluUnit) (h : Head) (m : X1M32) (s : State) : Host.Outcome State Fault Refusal :=
  runOp (.sel u h m) (selMeaning u m) s

/-- CEQ (R386). -/
def execCeq (u : AluUnit) (h : Head) (m : X1M32) (s : State) : Host.Outcome State Fault Refusal :=
  runOp (.ceq u h m) (ceqMeaning u m) s

/-- CNE (R386). -/
def execCne (u : AluUnit) (h : Head) (m : X1M32) (s : State) : Host.Outcome State Fault Refusal :=
  runOp (.cne u h m) (cneMeaning u m) s

/-- CLT (R386). -/
def execClt (u : AluUnit) (h : Head) (m : X1M32) (s : State) : Host.Outcome State Fault Refusal :=
  runOp (.clt u h m) (cltMeaning u m) s

/-- CLE (R386). -/
def execCle (u : AluUnit) (h : Head) (m : X1M32) (s : State) : Host.Outcome State Fault Refusal :=
  runOp (.cle u h m) (cleMeaning u m) s

/-- CLTU (R386). -/
def execCltu (u : AluUnit) (h : Head) (m : X1M32) (s : State) : Host.Outcome State Fault Refusal :=
  runOp (.cltu u h m) (cltuMeaning u m) s

/-- CLEU (R386). -/
def execCleu (u : AluUnit) (h : Head) (m : X1M32) (s : State) : Host.Outcome State Fault Refusal :=
  runOp (.cleu u h m) (cleuMeaning u m) s

/-- POPC (R448). -/
def execPopc (u : AluUnit) (h : Head) (m32 : Bool) (s : State) : Host.Outcome State Fault Refusal :=
  runOp (.popc u h m32) (popcMeaning u m32) s

/-- CLZ (R371). -/
def execClz (u : AluUnit) (h : Head) (m32 : Bool) (s : State) : Host.Outcome State Fault Refusal :=
  runOp (.clz u h m32) (clzMeaning u m32) s

/-- CTZ (R371). -/
def execCtz (u : AluUnit) (h : Head) (m32 : Bool) (s : State) : Host.Outcome State Fault Refusal :=
  runOp (.ctz u h m32) (ctzMeaning u m32) s

/-- BREV (R371). -/
def execBrev (u : AluUnit) (h : Head) (m32 : Bool) (s : State) : Host.Outcome State Fault Refusal :=
  runOp (.brev u h m32) (brevMeaning u m32) s

/-- BFX (R377). -/
def execBfx (u : AluUnit) (h : Head) (m : BfxMod) (s : State) : Host.Outcome State Fault Refusal :=
  runOp (.bfx u h m) (bfxMeaning u m) s

/-- BFI (R377). -/
def execBfi (u : AluUnit) (h : Head) (m : X1M32) (s : State) : Host.Outcome State Fault Refusal :=
  runOp (.bfi u h m) (bfiMeaning u m) s

/-- PERM (R447). -/
def execPerm (u : AluUnit) (h : Head) (x1 : Bool) (s : State) : Host.Outcome State Fault Refusal :=
  runOp (.perm u h x1) (permMeaning u x1) s

/-- LEA (R431). -/
def execLea (u : AluUnit) (h : Head) (m : LeaMod) (s : State) : Host.Outcome State Fault Refusal :=
  runOp (.lea u h m) (leaMeaning u m) s

/-- SEXT (R446). -/
def execSext (u : AluUnit) (h : Head) (m : ExtWidth) (s : State) : Host.Outcome State Fault Refusal :=
  runOp (.sext u h m) (sextMeaning u m) s

/-- ZEXT (R446). -/
def execZext (u : AluUnit) (h : Head) (m : ExtWidth) (s : State) : Host.Outcome State Fault Refusal :=
  runOp (.zext u h m) (zextMeaning u m) s

/-- PAND (R445). -/
def execPand (u : AluUnit) (h : Head) (x1 : Bool) (s : State) : Host.Outcome State Fault Refusal :=
  runOp (.pand u h x1) (pandMeaning u x1) s

/-- POR (R445). -/
def execPor (u : AluUnit) (h : Head) (x1 : Bool) (s : State) : Host.Outcome State Fault Refusal :=
  runOp (.por u h x1) (porMeaning u x1) s

/-- PNOT (R445). -/
def execPnot (u : AluUnit) (h : Head) (s : State) : Host.Outcome State Fault Refusal :=
  runOp (.pnot u h) (pnotMeaning u) s

/-- PSURE (R445). -/
def execPsure (u : AluUnit) (h : Head) (s : State) : Host.Outcome State Fault Refusal :=
  runOp (.psure u h) (psureMeaning u) s

/-- POSS (R445). -/
def execPoss (u : AluUnit) (h : Head) (s : State) : Host.Outcome State Fault Refusal :=
  runOp (.poss u h) (possMeaning u) s

/-- PASS (R446). -/
def execPass (u : AluUnit) (h : Head) (s : State) : Host.Outcome State Fault Refusal :=
  runOp (.pass u h) (passMeaning u) s


end Sys2Proof.Machine
end

