-- ==== Sys2Proof/Machine/Crypto.lean ====
section
/-! DEFINITION. The algorithms that the spec names (13 R338 to R340; 14 R349, R360, R362): SHA-512, ECDSA on P-521, AES-256-GCM.
PRESUMED (log 17): the spec names them and does not define them; they are those of FIPS 180-4, SP 800-186, FIPS 186-5,
FIPS 197 and SP 800-38D. -/

namespace Sys2Proof.Crypto

/-- The number whose big-endian bytes are given. -/
def beNat (bs : List Byte) : Nat := bs.foldl (fun n b => n * 256 + b.toNat) 0
/-- The `k` big-endian bytes of a number. -/
def beBytes (k n : Nat) : List Byte := (leBytes k n).reverse

/-! ## SHA-512 -/

/-- The integer `k`-th root of `n`, by bits. -/
def root (k n : Nat) : Nat → Nat → Nat
  | 0, r => r
  | b + 1, r => root k n b (if (r + 2 ^ b) ^ k ≤ n then r + 2 ^ b else r)
/-- The first 80 primes. -/
def primes : List Nat := ((List.range 410).filter (fun n => decide (2 ≤ n) && (List.range n).all (fun d => decide (d < 2) || n % d != 0)))
/-- First 64 bits of the fractional part of the cube root of a prime, and of the square root. -/
def shaK (p : Nat) : W64 := BitVec.ofNat 64 (root 3 (p * 2 ^ 192) 72 0)
def shaH (p : Nat) : W64 := BitVec.ofNat 64 (root 2 (p * 2 ^ 128) 72 0)
/-- The message schedule: words newest first. -/
def shaW : Nat → List W64 → List W64
  | 0, l => l
  | n + 1, l =>
    let w (k : Nat) : W64 := l.getD (k - 1) 0
    let s0 := (w 15).rotateRight 1 ^^^ (w 15).rotateRight 8 ^^^ (w 15 >>> 7)
    let s1 := (w 2).rotateRight 19 ^^^ (w 2).rotateRight 61 ^^^ (w 2 >>> 6)
    shaW n ((w 16 + s0 + w 7 + s1) :: l)
/-- One round on the working variables a to h. -/
def shaRound (v : List W64) (e : W64 × W64) : List W64 :=
  let g (k : Nat) : W64 := v.getD k 0
  let s1 := (g 4).rotateRight 14 ^^^ (g 4).rotateRight 18 ^^^ (g 4).rotateRight 41
  let ch := (g 4 &&& g 5) ^^^ (~~~(g 4) &&& g 6)
  let t1 := g 7 + s1 + ch + e.1 + e.2
  let s0 := (g 0).rotateRight 28 ^^^ (g 0).rotateRight 34 ^^^ (g 0).rotateRight 39
  let maj := (g 0 &&& g 1) ^^^ (g 0 &&& g 2) ^^^ (g 1 &&& g 2)
  [t1 + s0 + maj, g 0, g 1, g 2, g 3 + t1, g 4, g 5, g 6]
/-- One block of 128 bytes. -/
def shaBlock (h : List W64) (b : List Byte) : List W64 :=
  let w := (shaW 64 ((List.range 16).map (fun k => BitVec.ofNat 64 (beNat ((b.drop (8 * k)).take 8)))).reverse).reverse
  (h.zip (((primes.map shaK).zip w).foldl shaRound h)).map (fun e => e.1 + e.2)
/-- The SHA-512 digest of bytes, as a number. -/
def sha512 (bs : List Byte) : Nat :=
  let pad := bs ++ [0x80] ++ List.replicate ((239 - bs.length % 128) % 128) 0 ++ beBytes 16 (8 * bs.length)
  let h := (List.range (pad.length / 128)).foldl (fun h k => shaBlock h ((pad.drop (128 * k)).take 128)) ((primes.take 8).map shaH)
  h.foldl (fun n w => n * 2 ^ 64 + w.toNat) 0

/-! ## P-521 and ECDSA -/

def p521 : Nat := 2 ^ 521 - 1
def p521b : Nat :=
  0x51953EB9618E1C9A1F929A21A0B68540EEA2DA725B99B315F3B8B489918EF109E156193951EC7E937B1652C0BD3BB1BF073573DF883D2C34F1EF451FD46B503F00
def p521n : Nat :=
  0x1FFFFFFFFFFFFFFFFFFFFFFFFFFFFFFFFFFFFFFFFFFFFFFFFFFFFFFFFFFFFFFFFFA51868783BF2F966B7FCC0148F709A5D03BB5C9B8899C47AEBB6FB71E91386409
def p521x : Nat :=
  0xC6858E06B70404E9CD9E3ECB662395B4429C648139053FB521F828AF606B4D3DBAA14B5E77EFE75928FE1DC127A2FFA8DE3348B3C1856A429BF97E7E31C2E5BD66
def p521y : Nat :=
  0x11839296A789A3BC0045C8A5FB42C7D1BD998F54449579B446817AFBD17273E662C97EE72995EF42640C550B9013FAD0761353C7086A272C24088BE94769FD16650

/-- Powers modulo `m`, over the low `k` bits of the exponent. -/
def powMod (m : Nat) : Nat → Nat → Nat → Nat
  | 0, _, _ => 1 % m
  | k + 1, b, e => (if e % 2 = 1 then b else 1) * powMod m k (b * b % m) (e / 2) % m
/-- The inverse modulo a prime. -/
def inverse (m a : Nat) : Nat := powMod m 522 (a % m) (m - 2)

/-- Whether coordinates are those of a point of P-521. -/
def onCurve (x y : Nat) : Bool :=
  decide (x < p521) && decide (y < p521) && y * y % p521 == (x * x * x + (p521 - 3) * x + p521b) % p521
/-- The sum of two points; none is the point at infinity. -/
def addPoints (a b : Option (Nat × Nat)) : Option (Nat × Nat) :=
  match a, b with
  | none, q => q
  | q, none => q
  | some (x1, y1), some (x2, y2) =>
    if x1 = x2 ∧ (y1 + y2) % p521 = 0 then none
    else
      let l := if x1 = x2 then (3 * x1 * x1 + (p521 - 3)) * inverse p521 (2 * y1) % p521
        else (y2 + (p521 - y1)) * inverse p521 (x2 + (p521 - x1)) % p521
      let x := (l * l + (p521 - x1) + (p521 - x2)) % p521
      some (x, (l * (x1 + (p521 - x)) + (p521 - y1)) % p521)
/-- A multiple of a point, over the low `n` bits of the factor. -/
def mulPoint : Nat → Nat → Option (Nat × Nat) → Option (Nat × Nat)
  | 0, _, _ => none
  | n + 1, k, q => addPoints (if k % 2 = 1 then q else none) (mulPoint n (k / 2) (addPoints q q))

/-- A public key in the uncompressed form of SEC 1: 0x04, then X and Y of 66 bytes. -/
def pointX (key : List Byte) : Nat := beNat ((key.drop 1).take 66)
def pointY (key : List Byte) : Nat := beNat ((key.drop 67).take 66)
/-- Whether 133 bytes name a point of P-521 (R339). -/
def isP521Point (key : List Byte) : Bool :=
  key.length == 133 && key.headD 0 == 0x04 && onCurve (pointX key) (pointY key)
/-- Whether an ECDSA signature over P-521 and SHA-512 verifies (R338): key, signed bytes, and r and s of 66 bytes each. -/
def signatureVerifies (key msg sig : List Byte) : Bool :=
  let r := beNat (sig.take 66)
  let s := beNat ((sig.drop 66).take 66)
  isP521Point key && decide (0 < r ∧ r < p521n ∧ 0 < s ∧ s < p521n) &&
  (let w := inverse p521n s
   let a := sha512 msg * w % p521n
   let b := r * w % p521n
   match addPoints (mulPoint 521 a (some (p521x, p521y))) (mulPoint 521 b (some (pointX key, pointY key))) with
   | none => false
   | some (x, _) => x % p521n == r)

/-! ## AES-256 -/

/-- The product in GF(2^8) modulo x^8 + x^4 + x^3 + x + 1, over the low `n` bits of the second factor. -/
def gmul8 : Nat → Byte → Byte → Byte
  | 0, _, _ => 0
  | n + 1, a, b => (if b.getLsbD 0 then a else 0) ^^^ gmul8 n ((a <<< 1) ^^^ (if a.getLsbD 7 then 0x1B else 0)) (b >>> 1)
/-- Powers in GF(2^8). -/
def gpow8 (a : Byte) : Nat → Byte
  | 0 => 1
  | n + 1 => gmul8 8 a (gpow8 a n)
/-- The S-box. -/
def sbox (a : Byte) : Byte :=
  let b := gpow8 a 254
  b ^^^ b.rotateLeft 1 ^^^ b.rotateLeft 2 ^^^ b.rotateLeft 3 ^^^ b.rotateLeft 4 ^^^ 0x63
/-- Round constants of the key expansion. -/
def rcon (i : Nat) : List Byte := [gpow8 2 (i - 1), 0, 0, 0]
def xorBytes (a b : List Byte) : List Byte := (a.zip b).map (fun e => e.1 ^^^ e.2)
/-- The key expansion from word `i` on, newest word first: 8 words of key, 60 in all. -/
def expandKey : Nat → Nat → List (List Byte) → List (List Byte)
  | 0, _, l => l
  | n + 1, i, l =>
    let t := l.headD []
    let t := if i % 8 = 0 then xorBytes ((t.drop 1 ++ t.take 1).map sbox) (rcon (i / 8)) else if i % 8 = 4 then t.map sbox else t
    expandKey n (i + 1) (xorBytes (l.getD 7 []) t :: l)
/-- The words of an expanded key. -/
def keyWords (key : BitVec 256) : List (List Byte) :=
  (expandKey 52 8 ((List.range 8).map (fun k => ((beBytes 32 key.toNat).drop (4 * k)).take 4)).reverse).reverse
def mixColumn (c : List Byte) : List Byte :=
  (List.range 4).map (fun k =>
    let g (j : Nat) : Byte := c.getD ((k + j) % 4) 0
    gmul8 8 (g 0) 2 ^^^ gmul8 8 (g 1) 3 ^^^ g 2 ^^^ g 3)
/-- SubBytes and ShiftRows of a state of 16 bytes in column order. -/
def subShift (s : List Byte) : List Byte := (List.range 16).map (fun k => sbox (s.getD ((k + 4 * (k % 4)) % 16) 0))
/-- One block under an expanded key. -/
def aesBlock (ws : List (List Byte)) (b : List Byte) : List Byte :=
  let rk (r : Nat) : List Byte := ((ws.drop (4 * r)).take 4).flatten
  let mix (s : List Byte) : List Byte := (List.range 4).flatMap (fun k => mixColumn ((s.drop (4 * k)).take 4))
  let s := (List.range 13).foldl (fun s r => xorBytes (mix (subShift s)) (rk (r + 1))) (xorBytes b (rk 0))
  xorBytes (subShift s) (rk 14)

/-! ## GCM -/

/-- The product in GF(2^128) of GCM, bit 127 the coefficient of 1, over the top `n` bits of the first factor. -/
def gmul128 : Nat → BitVec 128 → BitVec 128 → BitVec 128
  | 0, _, _ => 0
  | n + 1, x, y =>
    (if x.getLsbD 127 then y else 0) ^^^
      gmul128 n (x <<< 1) ((y >>> 1) ^^^ (if y.getLsbD 0 then 0xE1000000000000000000000000000000 else 0))
/-- Bytes in blocks of 16, the last padded with zeros. -/
def blocks16 (bs : List Byte) : List (List Byte) :=
  (List.range ((bs.length + 15) / 16)).map (fun k =>
    let b := (bs.drop (16 * k)).take 16
    b ++ List.replicate (16 - b.length) 0)
def ghash (h : BitVec 128) (bs : List (List Byte)) : BitVec 128 :=
  bs.foldl (fun y b => gmul128 128 (y ^^^ BitVec.ofNat 128 (beNat b)) h) 0
/-- The bytes under the counter of a nonce of 12 bytes: plaintext to ciphertext, and back. -/
def gcmCrypt (key : BitVec 256) (nonce : BitVec 96) (bs : List Byte) : List Byte :=
  let ws := keyWords key
  xorBytes bs ((List.range ((bs.length + 15) / 16)).flatMap (fun k => aesBlock ws (beBytes 12 nonce.toNat ++ beBytes 4 (k + 2))))
/-- The tag of associated data and ciphertext. -/
def gcmTag (key : BitVec 256) (nonce : BitVec 96) (aad cipher : List Byte) : BitVec 128 :=
  let ws := keyWords key
  let h := BitVec.ofNat 128 (beNat (aesBlock ws (List.replicate 16 0)))
  let s := ghash h (blocks16 aad ++ blocks16 cipher ++ [beBytes 8 (8 * aad.length) ++ beBytes 8 (8 * cipher.length)])
  s ^^^ BitVec.ofNat 128 (beNat (aesBlock ws (beBytes 12 nonce.toNat ++ [0, 0, 0, 1])))

end Sys2Proof.Crypto
end

