-- ==== Sys2Proof/Machine/Imu.lean ====
section
/-! DEFINITION. The IMU catalogue (05 R121, 17 R435, R453, 16 R400, R401). -/

namespace Sys2Proof.Machine

/-- An operand pair of n bits: A and B (R435). -/
def imuOp (x1 m32 : Bool) (f : Nat → Nat → Nat → W64 × Option W64) (delivers : Nat := 1) : OpMeaning :=
  laneOp (fun _ => 2) (fun i =>
    let n := widthOf m32
    let r := f n (i.a x1 % 2 ^ n) (i.t.toNat % 2 ^ n)
    ⟨some r.1, r.2, 0⟩) delivers

/-- The high half of a signed product, sign-extended (R435). -/
def mulHigh (n a b : Nat) : W64 := w64i (signed n a * signed n b / (2 ^ n : Nat))
/-- The high half of an unsigned product, sign-extended from n bits. -/
def mulHighU (n a b : Nat) : W64 := sext64 n (a * b / 2 ^ n)

def mulMeaning (m : X1M32) : OpMeaning := imuOp m.x1 m.m32 (fun n a b => (sext64 n (a * b), none))
def mulhMeaning (m : X1M32) : OpMeaning := imuOp m.x1 m.m32 (fun n a b => (mulHigh n a b, none))
def mulhuMeaning (m : X1M32) : OpMeaning := imuOp m.x1 m.m32 (fun n a b => (mulHighU n a b, none))
def madMeaning (m32 : Bool) : OpMeaning :=
  laneOp (fun _ => 2) (fun i => qOnly (sext64 (widthOf m32) (i.x0.toNat * i.x1.toNat + i.t.toNat)))
def mulwMeaning (m : X1M32) : OpMeaning :=
  imuOp m.x1 m.m32 (fun n a b => (sext64 n (a * b), some (mulHigh n a b))) 2
def mulwuMeaning (m : X1M32) : OpMeaning :=
  imuOp m.x1 m.m32 (fun n a b => (sext64 n (a * b), some (mulHighU n a b))) 2

/-- Quotient and remainder of R400, signed or not, and whether the divisor is 0; then the results of R279's service. -/
def divideNat (sgn : Bool) (n a b : Nat) : W64 × W64 × Bool :=
  if b = 0 then (w64i (-1), sext64 n a, true)
  else if sgn then
    let qt := Int.tdiv (signed n a) (signed n b)
    (sext64 n (qt % (2 ^ n : Nat)).toNat, w64i (signed n a - qt * signed n b), false)
  else (sext64 n (a / b), sext64 n (a % b), false)

/-- Cycles of a divide (R401). -/
def divideCycles (m32 : Bool) : Nat := if m32 then 20 else 36

def divideFrame (sgn : Bool) (m : X1M32) (i : LaneIn) : W64 × W64 × Bool :=
  let n := widthOf m.m32
  divideNat sgn n (i.a m.x1 % 2 ^ n) (i.t.toNat % 2 ^ n)

def divMeaning (m : X1M32) : OpMeaning := divideOp (divideCycles m.m32) (divideFrame true m)
def divuMeaning (m : X1M32) : OpMeaning := divideOp (divideCycles m.m32) (divideFrame false m)
/-- REM and REMU deliver the remainder in `q` and the quotient in `w` (R453). -/
def swapResults (r : W64 × W64 × Bool) : W64 × W64 × Bool := (r.2.1, r.1, r.2.2)
def remMeaning (m : X1M32) : OpMeaning := divideOp (divideCycles m.m32) (fun i => swapResults (divideFrame true m i))
def remuMeaning (m : X1M32) : OpMeaning := divideOp (divideCycles m.m32) (fun i => swapResults (divideFrame false m i))

/-! ## The steps -/

/-- MUL (R435). -/
def execMul (h : Head) (m : X1M32) (s : State) : Host.Outcome State Fault Refusal :=
  runOp (.mul h m) (mulMeaning m) s

/-- MULH (R435). -/
def execMulh (h : Head) (m : X1M32) (s : State) : Host.Outcome State Fault Refusal :=
  runOp (.mulh h m) (mulhMeaning m) s

/-- MULHU (R435). -/
def execMulhu (h : Head) (m : X1M32) (s : State) : Host.Outcome State Fault Refusal :=
  runOp (.mulhu h m) (mulhuMeaning m) s

/-- MAD (R435). -/
def execMad (h : Head) (m32 : Bool) (s : State) : Host.Outcome State Fault Refusal :=
  runOp (.mad h m32) (madMeaning m32) s

/-- MULW (R435). -/
def execMulw (h : Head) (m : X1M32) (s : State) : Host.Outcome State Fault Refusal :=
  runOp (.mulw h m) (mulwMeaning m) s

/-- MULWU (R435). -/
def execMulwu (h : Head) (m : X1M32) (s : State) : Host.Outcome State Fault Refusal :=
  runOp (.mulwu h m) (mulwuMeaning m) s

/-- DIV (R400). -/
def execDiv (h : Head) (m : X1M32) (s : State) : Host.Outcome State Fault Refusal :=
  runOp (.div h m) (divMeaning m) s

/-- DIVU (R400). -/
def execDivu (h : Head) (m : X1M32) (s : State) : Host.Outcome State Fault Refusal :=
  runOp (.divu h m) (divuMeaning m) s

/-- REM (R453). -/
def execRem (h : Head) (m : X1M32) (s : State) : Host.Outcome State Fault Refusal :=
  runOp (.rem h m) (remMeaning m) s

/-- REMU (R453). -/
def execRemu (h : Head) (m : X1M32) (s : State) : Host.Outcome State Fault Refusal :=
  runOp (.remu h m) (remuMeaning m) s


end Sys2Proof.Machine
end

