-- ==== Sys2Proof/Machine/Fpu.lean ====
section
/-! DEFINITION. The FPU catalogue (05 R122, R123; 16 R405 to R421): scalar operations and intervals. -/

namespace Sys2Proof.Machine

/-! ## The frame of R405 -/

/-- Latency class by type (R69, R405). -/
def fpClass (ty : FType) : Nat := if ty = .f64 then 4 else 3

/-- FTZ as it bears on a type (R148). -/
def ftzOf (ty : FType) (ftz : Bool) : Bool := ftz && ty.flushes

/-- An operand of a type. -/
def fpRead (ty : FType) (ftz : Bool) (x : W64) : FVal := unpack ty.fmt (ftzOf ty ftz) (x.toNat % 2 ^ ty.fmt.width)

/-- A code and its flags delivered in `q`. -/
def qFlags (r : Nat × Flags) : LaneOut := ⟨some (w64 r.1), none, r.2⟩

/-- A two-operand operation of a type and rounding on A = X0 and B = T. -/
def fpOp (m : FpRnd) (f : Fmt → Rnd → Bool → FVal → FVal → Nat × Flags) : OpMeaning :=
  laneOp (fun _ => fpClass m.ty) (fun i =>
    qFlags (f m.ty.fmt m.rnd (ftzOf m.ty i.ftz) (fpRead m.ty i.ftz i.x0) (fpRead m.ty i.ftz i.t)))

def faddMeaning (m : FpRnd) : OpMeaning := fpOp m fpAdd
def fsubMeaning (m : FpRnd) : OpMeaning := fpOp m (fun f r z a b => fpAdd f r z a b.negate)
def fmulMeaning (m : FpRnd) : OpMeaning := fpOp m fpMul
def ffmaMeaning (m : FpRnd) : OpMeaning :=
  laneOp (fun _ => fpClass m.ty) (fun i =>
    qFlags (fpFma m.ty.fmt m.rnd (ftzOf m.ty i.ftz) (fpRead m.ty i.ftz i.x0) (fpRead m.ty i.ftz i.x1)
      (fpRead m.ty i.ftz i.t)))

/-- The code of an operand as it is delivered unrounded: under FTZ a subnormal is a zero of its sign (R411). -/
def fpKeep (ty : FType) (ftz : Bool) (x : W64) : Nat :=
  let f := ty.fmt
  let c := x.toNat % 2 ^ f.width
  match fpRead ty ftz x with
  | .fin n 0 _ => f.signBit n
  | _ => c

/-- Whether A is delivered by FMIN: smaller, or -0 against +0 (R411). -/
def minPicks (a b : FVal) : Bool :=
  ltVal a b || (cmpVal a b == 0 && a.neg?)

/-- FMIN and FMAX (R411). -/
def fpMinMax (ty : FType) (takeMin : Bool) (i : LaneIn) : LaneOut :=
  let a := fpRead ty i.ftz i.x0
  let b := fpRead ty i.ftz i.t
  let fl := Flags.when (a.isSig || b.isSig) .nv
  let c :=
    if a.isNan && b.isNan then ty.fmt.nan
    else if a.isNan then fpKeep ty i.ftz i.t
    else if b.isNan then fpKeep ty i.ftz i.x0
    else if minPicks a b == takeMin then fpKeep ty i.ftz i.x0 else fpKeep ty i.ftz i.t
  ⟨some (w64 c), none, fl⟩
def fminMeaning (ty : FType) : OpMeaning := laneOp (fun _ => fpClass ty) (fpMinMax ty true)
def fmaxMeaning (ty : FType) : OpMeaning := laneOp (fun _ => fpClass ty) (fpMinMax ty false)

/-- FCMP (R159, R408). -/
def fcmpMeaning (m : FpRel) : OpMeaning :=
  laneOp (fun _ => fpClass m.ty) (fun i =>
    let a := fpRead m.ty i.ftz i.x0
    let b := fpRead m.ty i.ftz i.t
    if a.isNan || b.isNan then ⟨some 2, none, .when (a.isSig || b.isSig) .nv⟩
    else
      let r := match m.rel with
        | .eq => cmpVal a b == 0
        | .lt => ltVal a b
        | .le => leVal a b
        | .ne => cmpVal a b != 0
      qOnly (w64 (ofBool r)))

/-- The class bit of a value (R407). -/
def classBit (f : Fmt) (v : FVal) : Nat :=
  match v with
  | .nan sig => if sig then 8 else 9
  | .inf n => if n then 0 else 7
  | .fin n m _ => if m = 0 then (if n then 3 else 4) else if m < 2 ^ f.mb then (if n then 2 else 5) else (if n then 1 else 6)
def fclassMeaning (ty : FType) : OpMeaning :=
  laneOp (fun _ => fpClass ty) (fun i => qOnly (w64 (2 ^ classBit ty.fmt (fpRead ty i.ftz i.t))))

/-! ## Conversions (R154, R156, R409) -/

/-- FCVT: the source type is in X0 bits 1:0; class 4 if either type is f64 (R123). -/
def fcvtMeaning (m : FpRnd) : OpMeaning :=
  laneOp (fun i => if m.ty = .f64 ∨ FType.ofCode (i.x0.toNat % 4) = .f64 then 4 else 3) (fun i =>
    let src := FType.ofCode (i.x0.toNat % 4)
    qFlags (fpConv m.ty.fmt m.rnd (ftzOf m.ty i.ftz) (fpRead src i.ftz i.t)))
def intWidth (i32 : Bool) : Nat := if i32 then 32 else 64
def fcvtiMeaning (m : FpInt) : OpMeaning :=
  laneOp (fun _ => fpClass m.ty) (fun i =>
    let (k, fl) := toInt (intWidth m.i32) m.rnd (fpRead m.ty i.ftz i.t)
    ⟨some (w64i k), none, fl⟩)
def icvtfMeaning (m : FpInt) : OpMeaning :=
  laneOp (fun _ => fpClass m.ty) (fun i =>
    qFlags (deliverVal m.ty.fmt m.rnd (ftzOf m.ty i.ftz) (ofInt (signed (intWidth m.i32) i.t.toNat))))

/-- FRND (R412). -/
def fpRound (f : Fmt) (rnd : Rnd) (ftz : Bool) (v : FVal) : Nat × Flags :=
  match v with
  | .nan s => (f.nan, .when s .nv)
  | .inf n => (f.signBit n + f.infCode, 0)
  | .fin n m e =>
    let (k, nx) := roundAt rnd n m e 0 false
    if m = 0 then (f.signBit n, 0)
    else ((roundFin f .rne ftz n k 0 false).1, .when nx .nx)
def frndMeaning (m : FpRnd) : OpMeaning :=
  laneOp (fun _ => fpClass m.ty) (fun i => qFlags (fpRound m.ty.fmt m.rnd (ftzOf m.ty i.ftz) (fpRead m.ty i.ftz i.t)))

/-- FSGN (R413): only the sign bit changes; FTZ has no effect. -/
def fsgnMeaning (m : FpSgn) : OpMeaning :=
  laneOp (fun _ => fpClass m.ty) (fun i =>
    let f := m.ty.fmt
    let sb := f.eb + f.mb
    let s0 := bitAt i.x0.toNat sb
    let st := bitAt i.t.toNat sb
    let n := match m.op with
      | .cs => s0
      | .ns => !s0
      | .xs => s0 != st
      | .abs => false
    qOnly (w64 (f.signBit n + i.t.toNat % 2 ^ sb)))

/-! ## Intervals (R414 to R421) -/

/-- An interval operation: class 5, NV and EI only. -/
def ivOp (f : LaneIn → W64 × Flags) : OpMeaning :=
  laneOp (fun _ => 5) (fun i => let r := f i; ⟨some r.1, none, r.2⟩)
def ivaddMeaning : OpMeaning := ivOp (fun i => Ival.add i.x0.toNat i.t.toNat)
def ivsubMeaning : OpMeaning := ivOp (fun i => Ival.sub i.x0.toNat i.t.toNat)
def ivmulMeaning : OpMeaning := ivOp (fun i => Ival.mul i.x0.toNat i.t.toNat)
def ivfmaMeaning : OpMeaning := ivOp (fun i => Ival.fma i.x0.toNat i.x1.toNat i.t.toNat)
def ivsqrMeaning : OpMeaning := ivOp (fun i => Ival.sqr i.t.toNat)
def ivhullMeaning : OpMeaning := ivOp (fun i => Ival.hull i.x0.toNat i.t.toNat)
def ivmeetMeaning : OpMeaning := ivOp (fun i => Ival.meet i.x0.toNat i.t.toNat)
def ivmidMeaning : OpMeaning := ivOp (fun i => (Ival.mid i.t.toNat, 0))
def ivwidMeaning : OpMeaning := ivOp (fun i => (Ival.wid i.t.toNat, 0))
def ivcmpMeaning (r : Rel) : OpMeaning := ivOp (fun i => (Ival.cmp r i.x0.toNat i.t.toNat, 0))
def ivmakeMeaning : OpMeaning := ivOp (fun i => Ival.mk (i.x0.toNat % 2 ^ 32) (i.t.toNat % 2 ^ 32))
def ivloMeaning : OpMeaning := ivOp (fun i => (Ival.lo i.t.toNat, 0))
def ivhiMeaning : OpMeaning := ivOp (fun i => (Ival.hi i.t.toNat, 0))
def ivbisMeaning : OpMeaning :=
  laneOp (fun _ => 5) (fun i => let r := Ival.bis i.t.toNat; ⟨some r.1, some r.2, 0⟩) 2
def ivabsMeaning : OpMeaning := ivOp (fun i => Ival.abs i.t.toNat)
def ivinMeaning : OpMeaning := ivOp (fun i => (Ival.isIn i.x0.toNat i.t.toNat, 0))

/-! ## The steps -/

/-- FADD (R406). -/
def execFadd (u : FpuUnit) (h : Head) (m : FpRnd) (s : State) : Host.Outcome State Fault Refusal :=
  runOp (.fadd u h m) (faddMeaning m) s

/-- FSUB (R406). -/
def execFsub (u : FpuUnit) (h : Head) (m : FpRnd) (s : State) : Host.Outcome State Fault Refusal :=
  runOp (.fsub u h m) (fsubMeaning m) s

/-- FMUL (R406). -/
def execFmul (u : FpuUnit) (h : Head) (m : FpRnd) (s : State) : Host.Outcome State Fault Refusal :=
  runOp (.fmul u h m) (fmulMeaning m) s

/-- FFMA (R406). -/
def execFfma (u : FpuUnit) (h : Head) (m : FpRnd) (s : State) : Host.Outcome State Fault Refusal :=
  runOp (.ffma u h m) (ffmaMeaning m) s

/-- FMIN (R411). -/
def execFmin (u : FpuUnit) (h : Head) (ty : FType) (s : State) : Host.Outcome State Fault Refusal :=
  runOp (.fmin u h ty) (fminMeaning ty) s

/-- FMAX (R411). -/
def execFmax (u : FpuUnit) (h : Head) (ty : FType) (s : State) : Host.Outcome State Fault Refusal :=
  runOp (.fmax u h ty) (fmaxMeaning ty) s

/-- FCMP (R408). -/
def execFcmp (u : FpuUnit) (h : Head) (m : FpRel) (s : State) : Host.Outcome State Fault Refusal :=
  runOp (.fcmp u h m) (fcmpMeaning m) s

/-- FCLASS (R407). -/
def execFclass (u : FpuUnit) (h : Head) (ty : FType) (s : State) : Host.Outcome State Fault Refusal :=
  runOp (.fclass u h ty) (fclassMeaning ty) s

/-- FCVT (R409). -/
def execFcvt (u : FpuUnit) (h : Head) (m : FpRnd) (s : State) : Host.Outcome State Fault Refusal :=
  runOp (.fcvt u h m) (fcvtMeaning m) s

/-- FCVTI (R409). -/
def execFcvti (u : FpuUnit) (h : Head) (m : FpInt) (s : State) : Host.Outcome State Fault Refusal :=
  runOp (.fcvti u h m) (fcvtiMeaning m) s

/-- ICVTF (R409). -/
def execIcvtf (u : FpuUnit) (h : Head) (m : FpInt) (s : State) : Host.Outcome State Fault Refusal :=
  runOp (.icvtf u h m) (icvtfMeaning m) s

/-- FRND (R412). -/
def execFrnd (u : FpuUnit) (h : Head) (m : FpRnd) (s : State) : Host.Outcome State Fault Refusal :=
  runOp (.frnd u h m) (frndMeaning m) s

/-- FSGN (R413). -/
def execFsgn (u : FpuUnit) (h : Head) (m : FpSgn) (s : State) : Host.Outcome State Fault Refusal :=
  runOp (.fsgn u h m) (fsgnMeaning m) s

/-- IVADD (R415). -/
def execIvadd (u : FpuUnit) (h : Head) (s : State) : Host.Outcome State Fault Refusal :=
  runOp (.ivadd u h) (ivaddMeaning) s

/-- IVSUB (R415). -/
def execIvsub (u : FpuUnit) (h : Head) (s : State) : Host.Outcome State Fault Refusal :=
  runOp (.ivsub u h) (ivsubMeaning) s

/-- IVMUL (R415). -/
def execIvmul (u : FpuUnit) (h : Head) (s : State) : Host.Outcome State Fault Refusal :=
  runOp (.ivmul u h) (ivmulMeaning) s

/-- IVFMA (R415). -/
def execIvfma (u : FpuUnit) (h : Head) (s : State) : Host.Outcome State Fault Refusal :=
  runOp (.ivfma u h) (ivfmaMeaning) s

/-- IVSQR (R415). -/
def execIvsqr (u : FpuUnit) (h : Head) (s : State) : Host.Outcome State Fault Refusal :=
  runOp (.ivsqr u h) (ivsqrMeaning) s

/-- IVHULL (R420). -/
def execIvhull (u : FpuUnit) (h : Head) (s : State) : Host.Outcome State Fault Refusal :=
  runOp (.ivhull u h) (ivhullMeaning) s

/-- IVMEET (R420). -/
def execIvmeet (u : FpuUnit) (h : Head) (s : State) : Host.Outcome State Fault Refusal :=
  runOp (.ivmeet u h) (ivmeetMeaning) s

/-- IVMID (R419). -/
def execIvmid (u : FpuUnit) (h : Head) (s : State) : Host.Outcome State Fault Refusal :=
  runOp (.ivmid u h) (ivmidMeaning) s

/-- IVWID (R419). -/
def execIvwid (u : FpuUnit) (h : Head) (s : State) : Host.Outcome State Fault Refusal :=
  runOp (.ivwid u h) (ivwidMeaning) s

/-- IVCMP (R417). -/
def execIvcmp (u : FpuUnit) (h : Head) (r : Rel) (s : State) : Host.Outcome State Fault Refusal :=
  runOp (.ivcmp u h r) (ivcmpMeaning r) s

/-- IVMAKE (R421). -/
def execIvmake (u : FpuUnit) (h : Head) (s : State) : Host.Outcome State Fault Refusal :=
  runOp (.ivmake u h) (ivmakeMeaning) s

/-- IVLO (R419). -/
def execIvlo (u : FpuUnit) (h : Head) (s : State) : Host.Outcome State Fault Refusal :=
  runOp (.ivlo u h) (ivloMeaning) s

/-- IVHI (R419). -/
def execIvhi (u : FpuUnit) (h : Head) (s : State) : Host.Outcome State Fault Refusal :=
  runOp (.ivhi u h) (ivhiMeaning) s

/-- IVBIS (R416). -/
def execIvbis (u : FpuUnit) (h : Head) (s : State) : Host.Outcome State Fault Refusal :=
  runOp (.ivbis u h) (ivbisMeaning) s

/-- IVABS (R415). -/
def execIvabs (u : FpuUnit) (h : Head) (s : State) : Host.Outcome State Fault Refusal :=
  runOp (.ivabs u h) (ivabsMeaning) s

/-- IVIN (R417). -/
def execIvin (u : FpuUnit) (h : Head) (s : State) : Host.Outcome State Fault Refusal :=
  runOp (.ivin u h) (ivinMeaning) s


end Sys2Proof.Machine
end

