-- ==== Sys2Proof/Machine/Xfu.lean ====
section
/-! DEFINITION. The XFU catalogue (05 R124, R125): functions, narrow formats, lane crossing and reductions. -/

namespace Sys2Proof.Machine

/-! ## Functions (R389, R404, R450, R458) -/

/-- A function of one operand of a type: format, FTZ, value, free choice. -/
def xfuOp (ty : XType) (f : Fmt → Bool → FVal → Nat → Nat × Flags) : OpMeaning :=
  laneOp (fun _ => 6) (fun i =>
    let z := i.ftz && ty.flushes
    qFlags (f ty.fmt z (unpack ty.fmt z (i.t.toNat % 2 ^ ty.fmt.width)) i.free))
def rcpMeaning (ty : XType) : OpMeaning := xfuOp ty fpRcp
def rsqMeaning (ty : XType) : OpMeaning := xfuOp ty fpRsq
def sqrtMeaning (ty : XType) : OpMeaning := xfuOp ty (fun f z v _ => fpSqrt f z v)
def exp2Meaning (ty : XType) : OpMeaning := xfuOp ty fpExp2
def log2Meaning (ty : XType) : OpMeaning := xfuOp ty fpLog2
def sinMeaning (ty : XType) : OpMeaning := xfuOp ty fpSin
def cosMeaning (ty : XType) : OpMeaning := xfuOp ty fpCos
def tanhMeaning (ty : XType) : OpMeaning := xfuOp ty fpTanh

/-! ## Intervals (R418) -/

def xivOp (f : Nat → Nat → W64 × Flags) : OpMeaning :=
  laneOp (fun _ => 6) (fun i => let r := f i.t.toNat i.free; ⟨some r.1, none, r.2⟩)
def ivrcpMeaning : OpMeaning := xivOp Ival.rcp
def ivsqrtMeaning : OpMeaning := xivOp Ival.sqrt
def ivexp2Meaning : OpMeaning := xivOp Ival.exp2
def ivlog2Meaning : OpMeaning := xivOp Ival.log2

/-! ## Narrow formats (R393, R394) -/

/-- FP32 to a narrow format, by RNE (R155, R156). -/
def narrowOf (m : CvtnMod) (x : Nat) : Nat × Flags :=
  let b := m.fmt.intBits
  if b = 0 then toNarrowCode m.fmt.fmt m.nan .f32 x
  else
    let (k, fl) := toInt b .rne (unpack .f32 false x)
    ((k % (2 ^ b : Nat)).toNat, fl)
def cvtnMeaning (m : CvtnMod) : OpMeaning := laneOp (fun _ => 6) (fun i => qFlags (narrowOf m (i.t.toNat % 2 ^ 32)))

/-- A narrow code widened exactly (R145, R394). -/
def widen (f : NFmt) (x : Nat) : W64 :=
  let b := f.intBits
  if b = 0 then w64 (deliverVal .f32 .rne false (unpack f.fmt false (x % 2 ^ f.fmt.width))).1 else sext64 b x
def cvtwMeaning (f : NFmt) : OpMeaning := laneOp (fun _ => 6) (fun i => qOnly (widen f i.t.toNat))

/-! ## Lane crossing (R31, R170, R375, R457, R466) -/

/-- Whether the move executes in thread `t`. -/
def TrigCtx.runs (x : TrigCtx) (t : Nat) : Bool := x.mask.has t && decide (t < x.sh.width)
/-- The threads in which the move executes, across all passes. -/
def TrigCtx.members (x : TrigCtx) : List Nat := x.mask.threads.filter (fun t => decide (t < x.sh.width))

/-- A lane-crossing move of class 7 with no flag. -/
def crossMeaning (f : TrigCtx → Nat → W64) : OpMeaning := crossOp 7 f (fun _ => 0)

/-- The exchange with a partner thread: partner of thread `i` at distance `d` in width `w` (R457). -/
def shuffle (partner : Nat → Nat → Nat → Option Nat) : OpMeaning :=
  crossMeaning (fun x i =>
    match partner x.sh.width i ((x.x 0 i).toNat % 128) with
    | some j => if x.runs j then x.val j else x.val i
    | none => x.val i)
def shfiMeaning : OpMeaning := shuffle (fun _ _ d => some d)
def shupMeaning (wrap : Bool) : OpMeaning :=
  shuffle (fun w i d => if wrap then some ((i + (w - d % w)) % w) else if d ≤ i then some (i - d) else none)
def shdnMeaning (wrap : Bool) : OpMeaning :=
  shuffle (fun w i d => if wrap then some ((i + d) % w) else some (i + d))
def shxrMeaning : OpMeaning := shuffle (fun _ i d => some (Nat.xor i d))

/-- A three-valued code with 11 read as 10 (R158). -/
def triCode (v : W64) : Nat := if v.toNat % 4 = 3 then 2 else v.toNat % 4

/-- VOTE (R466): Kleene conjunction, disjunction, and equality of the contributed values. -/
def voteValue (k : VoteKind) (vs : List W64) : W64 :=
  let cs := vs.map triCode
  match k with
  | .all => if cs.any (· == 0) then 0 else if cs.any (· == 2) then 2 else 1
  | .any => if cs.any (· == 1) then 1 else if cs.any (· == 2) then 2 else 0
  | .uni => match vs with
    | [] => 1
    | v :: r => if r.all (· == v) then 1 else 0
def voteMeaning (k : VoteKind) : OpMeaning := crossMeaning (fun x _ => voteValue k (x.members.map x.val))

/-- BALLOT (R375): bit `t` of the mask as thread `t`'s own X0 bit 1 selects the code, part `h` of X0 bit 0. -/
def ballotPart (x : TrigCtx) (h : Nat) : W64 :=
  w64 (sumList ((x.members.filter (fun t =>
    t / 64 == h && triCode (x.val t) == (if bitAt (x.x 0 t).toNat 1 then 2 else 1))).map (fun t => 2 ^ (t % 64))))
def ballotMeaning : OpMeaning := crossMeaning (fun x i => ballotPart x ((x.x 0 i).toNat % 2))

/-! ## Reductions (R169, R170, R451) -/

def rdsumMeaning (m32 : Bool) : OpMeaning :=
  crossOp 6 (fun x _ => sext64 (widthOf m32) (sumList (x.members.map (fun t => (x.val t).toNat)))) (fun _ => 0)

/-- The greatest of the values, signed or unsigned, of `n` bits (R170). -/
def maxValue (n : Nat) (uns : Bool) : List Nat → Nat
  | [] => 0
  | [a] => a
  | a :: r =>
    let b := maxValue n uns r
    if uns then (if a < b then b else a) else if signed n a < signed n b then b else a
def rdmaxMeaning (m : MaxMod) : OpMeaning :=
  crossOp 6 (fun x _ =>
    let n := widthOf m.m32
    sext64 n (maxValue n m.uns (x.members.map (fun t => (x.val t).toNat % 2 ^ n)))) (fun _ => 0)

/-- One level of the tree of R169: neighbours added with one rounding, an absent one passed over. -/
def pairUp (f : Fmt) (rnd : Rnd) : List (Option Nat) → List (Option Nat) × Flags
  | a :: b :: r =>
    let (l, fl) := pairUp f rnd r
    match a, b with
    | some x, some y =>
      let (c, g) := fpAdd f rnd false (unpack f false x) (unpack f false y)
      (some c :: l, fl ||| g)
    | some x, none => (some x :: l, fl)
    | none, o => (o :: l, fl)
  | l => (l, 0)
def treeSum (f : Fmt) (rnd : Rnd) : Nat → List (Option Nat) → Option Nat × Flags
  | 0, l => (l.getD 0 none, 0)
  | n + 1, l =>
    let (l', fl) := pairUp f rnd l
    let (c, g) := treeSum f rnd n l'
    (c, fl ||| g)

/-- RDFSUM of a sheet (R169): result and flags. -/
def rdfsumOf (m : RdfMod) (x : TrigCtx) : Nat × Flags :=
  let f := if m.dbl then Fmt.f64 else Fmt.f32
  let leaves := (List.range x.sh.width).map (fun t => if x.runs t then some ((x.val t).toNat % 2 ^ f.width) else none)
  let (c, fl) := treeSum f m.rnd (Nat.log2 x.sh.width) leaves
  let sig := leaves.any (fun o => match o with
    | some c => (unpack f false c).isSig
    | none => false)
  let c := c.getD 0
  (if (unpack f false c).isNan then f.nan else c, fl ||| .when sig .nv)
def rdfsumMeaning (m : RdfMod) : OpMeaning :=
  crossOp 6 (fun x _ => w64 (rdfsumOf m x).1) (fun x => (rdfsumOf m x).2)

/-! ## The steps -/

/-- RCP (R450). -/
def execRcp (h : Head) (ty : XType) (s : State) : Host.Outcome State Fault Refusal :=
  runOp (.rcp h ty) (rcpMeaning ty) s

/-- RSQ (R450). -/
def execRsq (h : Head) (ty : XType) (s : State) : Host.Outcome State Fault Refusal :=
  runOp (.rsq h ty) (rsqMeaning ty) s

/-- SQRT (R450). -/
def execSqrt (h : Head) (ty : XType) (s : State) : Host.Outcome State Fault Refusal :=
  runOp (.sqrt h ty) (sqrtMeaning ty) s

/-- EXP2 (R404). -/
def execExp2 (h : Head) (ty : XType) (s : State) : Host.Outcome State Fault Refusal :=
  runOp (.exp2 h ty) (exp2Meaning ty) s

/-- LOG2 (R404). -/
def execLog2 (h : Head) (ty : XType) (s : State) : Host.Outcome State Fault Refusal :=
  runOp (.log2 h ty) (log2Meaning ty) s

/-- SIN (R458). -/
def execSin (h : Head) (ty : XType) (s : State) : Host.Outcome State Fault Refusal :=
  runOp (.sin h ty) (sinMeaning ty) s

/-- COS (R389). -/
def execCos (h : Head) (ty : XType) (s : State) : Host.Outcome State Fault Refusal :=
  runOp (.cos h ty) (cosMeaning ty) s

/-- TANH (R458). -/
def execTanh (h : Head) (ty : XType) (s : State) : Host.Outcome State Fault Refusal :=
  runOp (.tanh h ty) (tanhMeaning ty) s

/-- IVRCP (R418). -/
def execIvrcp (h : Head) (s : State) : Host.Outcome State Fault Refusal :=
  runOp (.ivrcp h) (ivrcpMeaning) s

/-- IVSQRT (R418). -/
def execIvsqrt (h : Head) (s : State) : Host.Outcome State Fault Refusal :=
  runOp (.ivsqrt h) (ivsqrtMeaning) s

/-- IVEXP2 (R418). -/
def execIvexp2 (h : Head) (s : State) : Host.Outcome State Fault Refusal :=
  runOp (.ivexp2 h) (ivexp2Meaning) s

/-- IVLOG2 (R418). -/
def execIvlog2 (h : Head) (s : State) : Host.Outcome State Fault Refusal :=
  runOp (.ivlog2 h) (ivlog2Meaning) s

/-- CVTN (R393). -/
def execCvtn (h : Head) (m : CvtnMod) (s : State) : Host.Outcome State Fault Refusal :=
  runOp (.cvtn h m) (cvtnMeaning m) s

/-- CVTW (R394). -/
def execCvtw (h : Head) (f : NFmt) (s : State) : Host.Outcome State Fault Refusal :=
  runOp (.cvtw h f) (cvtwMeaning f) s

/-- SHFI (R457). -/
def execShfi (h : Head) (s : State) : Host.Outcome State Fault Refusal :=
  runOp (.shfi h) (shfiMeaning) s

/-- SHUP (R457). -/
def execShup (h : Head) (wrap : Bool) (s : State) : Host.Outcome State Fault Refusal :=
  runOp (.shup h wrap) (shupMeaning wrap) s

/-- SHDN (R457). -/
def execShdn (h : Head) (wrap : Bool) (s : State) : Host.Outcome State Fault Refusal :=
  runOp (.shdn h wrap) (shdnMeaning wrap) s

/-- SHXR (R457). -/
def execShxr (h : Head) (s : State) : Host.Outcome State Fault Refusal :=
  runOp (.shxr h) (shxrMeaning) s

/-- VOTE (R466). -/
def execVote (h : Head) (k : VoteKind) (s : State) : Host.Outcome State Fault Refusal :=
  runOp (.vote h k) (voteMeaning k) s

/-- BALLOT (R375). -/
def execBallot (h : Head) (s : State) : Host.Outcome State Fault Refusal :=
  runOp (.ballot h) (ballotMeaning) s

/-- RDSUM (R451). -/
def execRdsum (h : Head) (m32 : Bool) (s : State) : Host.Outcome State Fault Refusal :=
  runOp (.rdsum h m32) (rdsumMeaning m32) s

/-- RDMAX (R451). -/
def execRdmax (h : Head) (m : MaxMod) (s : State) : Host.Outcome State Fault Refusal :=
  runOp (.rdmax h m) (rdmaxMeaning m) s

/-- RDFSUM (R451). -/
def execRdfsum (h : Head) (m : RdfMod) (s : State) : Host.Outcome State Fault Refusal :=
  runOp (.rdfsum h m) (rdfsumMeaning m) s


end Sys2Proof.Machine
end

