-- ==== Sys2Proof/Machine/Lsu.lean ====
section
/-! DEFINITION. The LSU catalogue (05 R126, R127): loads, stores, atomics, QSYNC and PREF, with the checks of R175. -/

namespace Sys2Proof.Machine

/-! ## What an operation accesses -/

/-- A memory operation: its access kind, translation kind, space, alignment (1: none), order, address and length in a
thread, a first check, the widths an AtomicOp may have, and what it stores and delivers. -/
structure MemForm where
  kind : AccKind
  acc : AccKindT
  space : Space
  align : Nat
  span : TrigCtx → Nat → Nat × Nat
  first : TrigCtx → Nat → Option Flt
  /-- at a host completer (R213): the bit of HPCAP needed, or none where no AtomicOp exists -/
  hostOp : Option Nat
  data : TrigCtx → Nat → List Byte
  cmp : TrigCtx → Nat → List Byte
  form : TrigCtx → Nat → LoadForm
  /-- the result has a second word in `w` -/
  pair : Bool
  sys : Bool
  acq : Option Scope
  rel : Option Scope

/-- Where an access goes: pieces, mapping type and the workgroup of a buffer. -/
structure Reach where
  pieces : List (Nat × Nat)
  mt : Nat
  /-- mapping type of the second piece -/
  mt1 : Nat
  wg : Nat
  deriving DecidableEq, Repr

/-- A number that no workgroup has. -/
def noWg : Nat := 2 ^ 64
/-- The workgroup of rank `b` in the cluster group of a workgroup (R36, R177), whose workgroups are placed together: also one
that is saved or has exited, whose number no other workgroup takes. -/
def peerOf (s : State) (w : Workgroup) (clw b : Nat) : Nat :=
  let g := w.g / max clw 1 * clw + b
  match (s.grid? w.grid).bind (fun x => lookup x.placed g) with
  | some id => id
  | none => ((s.wgs.find? (fun e => e.2.grid == w.grid && e.2.g == g)).map (·.1)).getD noWg

/-- The checks of R175 for a peer address (rank bits 19:17, offset bits 16:0) with `n` bytes: the workgroup and offset
reached. -/
def reachPeer (s : State) (sh : Sheet) (addr n : Nat) : Option (Nat × Nat) :=
  match s.wg? sh.wg, s.gridOf sh with
  | some w, some g =>
    let rank := bits addr 17 3
    let off := addr % 2 ^ 17
    if 2 ^ 20 ≤ addr ∨ g.lrec.clw ≤ rank ∨ w.aSize < off + n then none else some (peerOf s w g.lrec.clw rank, off)
  | _, _ => none

/-- The mapping type of the page of a run's last byte. -/
def lastMt (s : State) (core vf : Nat) (acc : AccKindT) (last mt : Nat) : Nat :=
  match translate s core vf (w64 last) acc with
  | .ok p => p.mt
  | .error _ => mt

/-- The bounds and translation checks of R175 for `n` bytes at an address of a space. -/
def reach (s : State) (sid : Nat) (sh : Sheet) (space : Space) (acc : AccKindT) (addr n : Nat) : Except Flt Reach :=
  match space with
  | .g =>
    if 2 ^ 48 ≤ addr then .error ⟨.translation, trInfo acc 5 1, w64 addr⟩
    else
      match translateRun s (coreOf sid) (s.vfOf sh) acc (pageCuts 2 addr n) with
      | .error f => .error f
      | .ok (ps, mt) => .ok ⟨ps, mt, lastMt s (coreOf sid) (s.vfOf sh) acc (addr + n - 1) mt, 0⟩
  | .pa =>
    match reachPeer s sh addr n with
    | some (w, off) => .ok ⟨[(off, n)], 0, 0, w⟩
    | none => .error ⟨.spaceBounds, 0, w64 addr⟩
  | sp =>
    match s.wg? sh.wg with
    | none => .error ⟨.spaceBounds, 0, w64 addr⟩
    | some w =>
      if (if sp = .a then w.aSize else w.wSize) < addr + n then .error ⟨.spaceBounds, 0, w64 addr⟩
      else .ok ⟨[(addr, n)], 0, 0, sh.wg⟩

/-- Whether an atomic is sent to a host completer (R212): not one to a peer device, which goes to that device's home L2 (R358). -/
def atHost (mt : Nat) (sys : Bool) (pa : Nat) : Bool := decide (pa < 2 ^ 50) && (mt == 2 || (mt == 1 && sys))

/-- Poisoned sectors that the pieces touch (R282). -/
def poisonOf (s : State) (ps : List (Nat × Nat)) : List Nat :=
  s.poisoned.filter (fun q => ps.any (fun (p, n) => runsMeet p n (q * 32) 32))

/-- Where a thread's access goes, or its first failing check: the operation's own, alignment, bounds or translation,
the AtomicOp of R214, a poisoned sector. -/
def MemForm.go (f : MemForm) (x : TrigCtx) (t : Nat) : Except Flt Reach :=
  let (addr, n) := f.span x t
  match f.first x t with
  | some e => .error e
  | none =>
    if addr % f.align ≠ 0 then .error ⟨.alignment, 0, w64 addr⟩
    else
      match reach x.s x.sid x.sh f.space f.acc addr n with
      | .error e => .error e
      | .ok r =>
        let refused := f.acc == .atomic && f.space == .g && atHost r.mt f.sys ((r.pieces.getD 0 (0, 0)).1) && (match f.hostOp with
          | none => true
          | some b => !(getD x.s.hpcap 0 (portOfPa ((r.pieces.getD 0 (0, 0)).1))).getLsbD b)
        if refused then .error Cause.atomicUnsupported.flt
        else if f.space = .g ∧ f.acc ≠ .store ∧ poisonOf x.s r.pieces ≠ [] then .error ⟨.uncorrectable, 0, w64 addr⟩
        else .ok r

/-- The queue entry of a thread's access (R198). -/
def MemForm.entry (f : MemForm) (x : TrigCtx) (t id : Nat) (r : Reach) : Access :=
  { id := id, kind := f.kind, space := f.space, mt := r.mt, mt1 := r.mt1, sys := f.sys, pieces := r.pieces, peer := r.wg,
    data := f.data x t, cmp := f.cmp x t, unit := x.unit, thread := t, flight := id, form := f.form x t,
    acq := f.acq, rel := f.rel, blockLoads := f.acq.isSome, blockStores := f.acq.isSome || f.rel.isSome,
    drain := false, act := .nothing, slot := x.slot, paid := 0, away := false, seen := [], va := w64 (f.span x t).1 }

/-- The lookups of accesses to global memory in some threads, one for each page (R305). -/
def MemForm.lookups (f : MemForm) (x : TrigCtx) (ts : List Nat) (s : State) : State :=
  if f.space = .g then
    ((ts.flatMap (fun t => (pageCuts 2 (f.span x t).1 (f.span x t).2).map (fun e => e.1 / 4096))).dedup).foldl (fun s v =>
      lookPage s (x.s.vfOf x.sh) x.core x.sid x.slot (v * 4096)) s
  else s

/-- A thread's access enters its queues; a load or atomic has a result on its way to the stalling port (R71, R198). -/
def MemForm.enqueue (f : MemForm) (x : TrigCtx) (s : State) (t : Nat) : State :=
  match f.go x t with
  | .error _ => s
  | .ok r =>
    s.mapSheet x.sid (fun sh =>
      let id := sh.nextId
      let sh := if f.kind = .store then { sh with nextId := id + 1 }
        else sh.addFlight x.unit t none (if f.pair then some 0 else none) false true false 0
      { sh with queue := sh.queue ++ [f.entry x t id r] })

/-- A memory operation (R198, R283): every thread is checked, then its accesses enter the queues in thread order. -/
def memOp (f : MemForm) : OpMeaning :=
  { control := false
    ready := fun _ => true
    check := fun x => x.threads.filterMap (fun t => match f.go x t with
      | .error e => some (t, e)
      | .ok _ => none)
    effect := fun x p _ s => (x.inPass p).foldl (fun s t => f.enqueue x s t) (f.lookups x (x.inPass p) s)
    onFault := fun x _ s =>
      let s := f.lookups x x.threads s
      let bad := x.threads.flatMap (fun t =>
        let (addr, n) := f.span x t
        match f.go x t with
        | .error ⟨.uncorrectable, _, _⟩ =>
          (match reach x.s x.sid x.sh f.space f.acc addr n with
           | .ok r => poisonOf x.s r.pieces
           | .error e => (walkEntries x.s e.addr.toNat 4 1 ((x.s.vf (x.s.vfOf x.sh)).troot * 4096)).map (· / 32))
        | _ => [])
      { s with poisoned := s.poisoned.filter (fun q => !bad.contains q) }
    delivers := if f.kind = .store then 0 else if f.pair then 2 else 1 }

/-! ## Loads and stores (R426 to R430, R459 to R462) -/

/-- Bytes of a plain size. -/
def LdSize.bytes : LdSize → Nat
  | .b => 1 | .h => 2 | .s => 4 | .d => 8

/-- The 64-bit sum X0 + T, or T under `.nox` (R175). -/
def addrOf (nox : Bool) (x : TrigCtx) (t : Nat) : Nat := ((if nox then 0 else x.x 0 t) + x.val t).toNat

/-- A load of `n` bytes. -/
def loadForm (nox : Bool) (space : Space) (n : Nat) (form : LoadForm) : MemForm :=
  { kind := .load, acc := .load, space := space, align := n, span := fun x t => (addrOf nox x t, n),
    first := fun _ _ => none, hostOp := none, data := fun _ _ => [], cmp := fun _ _ => [], form := fun _ _ => form,
    pair := form == .pair, sys := false, acq := none, rel := none }
/-- A store of `n` bytes. -/
def storeForm (nox : Bool) (space : Space) (n : Nat) (data : TrigCtx → Nat → List Byte) : MemForm :=
  { loadForm nox space n .zext with kind := .store, acc := .store, data := data }

def ldMeaning (m : LdMod) : OpMeaning := memOp (loadForm m.nox m.space (LdSize.bytes m.size) .zext)
def ldsMeaning (m : LdMod) : OpMeaning := memOp (loadForm m.nox m.space (LdSize.bytes m.size) .sext)
def ldpMeaning (m : LdpMod) : OpMeaning := memOp (loadForm m.nox m.space 16 .pair)
def ldivMeaning (m : LdpMod) : OpMeaning := memOp (loadForm m.nox m.space 16 .ldiv)
def stMeaning (m : LdMod) : OpMeaning :=
  memOp (storeForm m.nox m.space (LdSize.bytes m.size) (fun x t => leBytes (LdSize.bytes m.size) (x.x 1 t).toNat))
def stpMeaning (m : LdpMod) : OpMeaning :=
  memOp (storeForm m.nox m.space 16 (fun x t => leBytes 8 (x.x 1 t).toNat ++ leBytes 8 (x.x 2 t).toNat))
def stivMeaning (m : LdpMod) : OpMeaning :=
  memOp (storeForm m.nox m.space 16 (fun x t =>
    let (lo, hi) := Ival.toF64 (x.x 1 t).toNat
    leBytes 8 lo ++ leBytes 8 hi))

def dblBytes (dbl : Bool) : Nat := if dbl then 8 else 4
def ldaMeaning (m : LdaMod) : OpMeaning :=
  memOp { loadForm false m.space (dblBytes m.dbl) .zext with acq := some m.scope }
def stlMeaning (m : LdaMod) : OpMeaning :=
  memOp { storeForm false m.space (dblBytes m.dbl) (fun x t => leBytes (dblBytes m.dbl) (x.x 1 t).toNat) with
    rel := some m.scope }

/-! ### LDX (R185, R189, R430) -/

/-- Fields of a pattern image (R185): period, number of fields, and field `j` as offset, width and sign. -/
def xpPeriod (i : BitVec 512) : Nat := bits i.toNat 392 8
def xpNf (i : BitVec 512) : Nat := bits i.toNat 384 8
def xpField (i : BitVec 512) (j : Nat) : Nat × Nat × Bool :=
  let f := bits i.toNat (12 * j) 12
  (f % 128, f / 128 % 16 + 1, bitAt f 11)
/-- Whether an image is valid (R185). -/
def xpValid (i : BitVec 512) : Bool :=
  decide (bits i.toNat 400 112 = 0) && decide (xpNf i ≤ 32) &&
  (xpNf i == 0 || (decide (1 ≤ xpPeriod i ∧ xpPeriod i ≤ 128) && (List.range (xpNf i)).all (fun j =>
    let (off, w, _) := xpField i j
    decide (off + w ≤ xpPeriod i))))

/-- Bit position, width and sign of the element a thread names (R189). -/
def ldxPlace (m : LdxMod) (x : TrigCtx) (t : Nat) : Nat × Nat × Bool :=
  match lookup x.sh.xp m.pat.val with
  | none => (0, 1, false)
  | some i =>
    let a := if m.nox then 0 else (x.x 0 t).toNat
    let e := (x.val t).toNat % 2 ^ 32
    let (off, w, sgn) := xpField i (e % max (xpNf i) 1)
    (8 * a + xpPeriod i * (e / max (xpNf i) 1) + off, w, sgn)
def ldxMeaning (m : LdxMod) : OpMeaning :=
  memOp { loadForm m.nox m.space 1 .zext with
    span := fun x t =>
      let (pos, w, _) := ldxPlace m x t
      (pos / 8, (pos + w - 1) / 8 - pos / 8 + 1)
    first := fun x _ => if (lookup x.sh.xp m.pat.val).isNone then some Cause.moveIllegal.flt else none
    form := fun x t =>
      let (pos, w, sgn) := ldxPlace m x t
      .field (pos % 8) w sgn }

/-! ## Atomics (R212 to R214, R367 to R369, R372) -/

def ASpace.space : ASpace → Space
  | .g => .g | .a => .a | .pa => .pa

/-- The frame of R367. -/
def atomForm (op : RmwOp) (m : AtomMod) (host : Bool) : MemForm :=
  { loadForm false (ASpace.space m.space) (dblBytes m.dbl) .zext with
    kind := .atomic op m.dbl, acc := .atomic, sys := m.scope == .sys,
    hostOp := if host then some (if m.dbl then 1 else 0) else none,
    data := fun x t => leBytes (dblBytes m.dbl) (x.x (if op = .cas then 2 else 1) t).toNat,
    cmp := fun x t => leBytes (dblBytes m.dbl) (x.x 1 t).toNat }
def aaddMeaning (m : AtomMod) : OpMeaning := memOp (atomForm .add m true)
def aminMeaning (m : AtomMod) : OpMeaning := memOp (atomForm .min m false)
def amaxMeaning (m : AtomMod) : OpMeaning := memOp (atomForm .max m false)
def aminuMeaning (m : AtomMod) : OpMeaning := memOp (atomForm .minu m false)
def amaxuMeaning (m : AtomMod) : OpMeaning := memOp (atomForm .maxu m false)
def aandMeaning (m : AtomMod) : OpMeaning := memOp (atomForm .and m false)
def aorMeaning (m : AtomMod) : OpMeaning := memOp (atomForm .or m false)
def axorMeaning (m : AtomMod) : OpMeaning := memOp (atomForm .xor m false)
def axchgMeaning (m : AtomMod) : OpMeaning := memOp (atomForm .xchg m true)
def acasMeaning (m : AtomMod) : OpMeaning := memOp (atomForm .cas m true)
def afaddMeaning (m : AtomMod) : OpMeaning := memOp (atomForm .fadd m false)
/-- ACAS2 (R372): address X0; compares X2:X1, writes T:X3. -/
def acas2Meaning (m : Acas2Mod) : OpMeaning :=
  memOp { loadForm false (ASpace.space m.space) 16 .pair with
    kind := .cas2, acc := .atomic, sys := m.scope == .sys, hostOp := some 2,
    span := fun x t => ((x.x 0 t).toNat, 16),
    data := fun x t => leBytes 8 (x.x 3 t).toNat ++ leBytes 8 (x.val t).toNat,
    cmp := fun x t => leBytes 8 (x.x 1 t).toNat ++ leBytes 8 (x.x 2 t).toNat }

/-! ## QSYNC and PREF -/

/-- QSYNC (R203): once for the sheet, in the first pass in which its slot executes; a uniform one in pass 0. -/
def qsyncMeaning : OpMeaning :=
  { control := false
    ready := fun _ => true
    check := noCheck
    effect := fun x p _ s =>
      if x.threads.head?.map (fun t => if x.uniform then 0 else t / 32) = some p then pushOrder s x.sid none none true true true .nothing else s
    onFault := fun _ _ s => s
    delivers := 0 }

/-- PREF.pin of a line (R194, R195): the code and the state; the line is filled if it is absent. DESIGN CHOICE (log 70): where
both limits are reached, R195 gives no order of the codes, and the code is 1. -/
def pinLine (s : State) (x : Asker) (line : Nat) : Nat × State :=
  if (lookup s.pinned line).isSome then (0, s)
  else if 12 ≤ (s.pinned.filter (fun e => homeSet e.1 == homeSet line)).length then (1, s)
  else if (s.part x.cls).pinq ≤ (s.pinned.filter (fun e => e.2 == x.cls)).length then (2, s)
  else (0, { l2Fill s x line with pinned := put s.pinned line x.cls })

/-- The code of R195 for an address, and the state after it: a page is looked up (R305), and a line that a peer device holds is
not pinnable, whether or not a route leads there. -/
def prefCode (s : State) (sid slot : Nat) (sh : Sheet) (pin : Bool) (addr : W64) : Nat × State :=
  let s := lookPage s (s.vfOf sh) (coreOf sid) sid slot addr.toNat
  let x : Asker := ⟨s.partOf sh, coreOf sid, sid, slot⟩
  match translate s (coreOf sid) (s.vfOf sh) addr .load with
  | .error f => (if f.cause = .protection then 5 else if bits f.info 4 4 = 4 then (if pin then 3 else 0) else 4, s)
  | .ok p =>
    if !pin then (0, if p.mt = 2 then s else l2Fill s x (p.pa / 128))
    else if p.mt = 2 then (3, s) else pinLine s x (p.pa / 128)

/-- PREF (R449): makes no access and raises nothing; each refusal counts in PIN_REFUSED. -/
def prefMeaning (pin : Bool) : OpMeaning :=
  { control := false
    ready := fun _ => true
    check := noCheck
    effect := fun x p _ s => (x.inPass p).foldl (fun s t =>
      let (k, s) := prefCode s x.sid x.slot x.sh pin (x.x 0 t + x.val t)
      let s := if k = 1 ∨ k = 2 then s.sheetEvent x.sid x.sh x.slot 10 1 else s
      s.mapSheet x.sid (fun sh => sh.deliverStalling x.unit t (some (w64 k)) none)) s
    onFault := fun _ _ s => s
    delivers := 1 }

/-! ## The steps -/

/-- LD (R427). -/
def execLd (u : LsuUnit) (h : Head) (m : LdMod) (s : State) : Host.Outcome State Fault Refusal :=
  runOp (.ld u h m) (ldMeaning m) s

/-- LDS (R427). -/
def execLds (u : LsuUnit) (h : Head) (m : LdMod) (s : State) : Host.Outcome State Fault Refusal :=
  runOp (.lds u h m) (ldsMeaning m) s

/-- LDP (R429). -/
def execLdp (u : LsuUnit) (h : Head) (m : LdpMod) (s : State) : Host.Outcome State Fault Refusal :=
  runOp (.ldp u h m) (ldpMeaning m) s

/-- ST (R460). -/
def execSt (u : LsuUnit) (h : Head) (m : LdMod) (s : State) : Host.Outcome State Fault Refusal :=
  runOp (.st u h m) (stMeaning m) s

/-- STP (R460). -/
def execStp (u : LsuUnit) (h : Head) (m : LdpMod) (s : State) : Host.Outcome State Fault Refusal :=
  runOp (.stp u h m) (stpMeaning m) s

/-- LDX (R430). -/
def execLdx (u : LsuUnit) (h : Head) (m : LdxMod) (s : State) : Host.Outcome State Fault Refusal :=
  runOp (.ldx u h m) (ldxMeaning m) s

/-- LDA (R428). -/
def execLda (u : LsuUnit) (h : Head) (m : LdaMod) (s : State) : Host.Outcome State Fault Refusal :=
  runOp (.lda u h m) (ldaMeaning m) s

/-- STL (R462). -/
def execStl (u : LsuUnit) (h : Head) (m : LdaMod) (s : State) : Host.Outcome State Fault Refusal :=
  runOp (.stl u h m) (stlMeaning m) s

/-- LDIV (R429). -/
def execLdiv (u : LsuUnit) (h : Head) (m : LdpMod) (s : State) : Host.Outcome State Fault Refusal :=
  runOp (.ldiv u h m) (ldivMeaning m) s

/-- STIV (R461). -/
def execStiv (u : LsuUnit) (h : Head) (m : LdpMod) (s : State) : Host.Outcome State Fault Refusal :=
  runOp (.stiv u h m) (stivMeaning m) s

/-- AADD (R367). -/
def execAadd (u : LsuUnit) (h : Head) (m : AtomMod) (s : State) : Host.Outcome State Fault Refusal :=
  runOp (.aadd u h m) (aaddMeaning m) s

/-- AMIN (R367). -/
def execAmin (u : LsuUnit) (h : Head) (m : AtomMod) (s : State) : Host.Outcome State Fault Refusal :=
  runOp (.amin u h m) (aminMeaning m) s

/-- AMAX (R367). -/
def execAmax (u : LsuUnit) (h : Head) (m : AtomMod) (s : State) : Host.Outcome State Fault Refusal :=
  runOp (.amax u h m) (amaxMeaning m) s

/-- AMINU (R367). -/
def execAminu (u : LsuUnit) (h : Head) (m : AtomMod) (s : State) : Host.Outcome State Fault Refusal :=
  runOp (.aminu u h m) (aminuMeaning m) s

/-- AMAXU (R367). -/
def execAmaxu (u : LsuUnit) (h : Head) (m : AtomMod) (s : State) : Host.Outcome State Fault Refusal :=
  runOp (.amaxu u h m) (amaxuMeaning m) s

/-- AAND (R367). -/
def execAand (u : LsuUnit) (h : Head) (m : AtomMod) (s : State) : Host.Outcome State Fault Refusal :=
  runOp (.aand u h m) (aandMeaning m) s

/-- AOR (R367). -/
def execAor (u : LsuUnit) (h : Head) (m : AtomMod) (s : State) : Host.Outcome State Fault Refusal :=
  runOp (.aor u h m) (aorMeaning m) s

/-- AXOR (R367). -/
def execAxor (u : LsuUnit) (h : Head) (m : AtomMod) (s : State) : Host.Outcome State Fault Refusal :=
  runOp (.axor u h m) (axorMeaning m) s

/-- AXCHG (R367). -/
def execAxchg (u : LsuUnit) (h : Head) (m : AtomMod) (s : State) : Host.Outcome State Fault Refusal :=
  runOp (.axchg u h m) (axchgMeaning m) s

/-- ACAS (R372). -/
def execAcas (u : LsuUnit) (h : Head) (m : AtomMod) (s : State) : Host.Outcome State Fault Refusal :=
  runOp (.acas u h m) (acasMeaning m) s

/-- ACAS2 (R372). -/
def execAcas2 (u : LsuUnit) (h : Head) (m : Acas2Mod) (s : State) : Host.Outcome State Fault Refusal :=
  runOp (.acas2 u h m) (acas2Meaning m) s

/-- AFADD (R367). -/
def execAfadd (u : LsuUnit) (h : Head) (m : AtomMod) (s : State) : Host.Outcome State Fault Refusal :=
  runOp (.afadd u h m) (afaddMeaning m) s

/-- QSYNC (R203). -/
def execQsync (u : LsuUnit) (h : Head) (s : State) : Host.Outcome State Fault Refusal :=
  runOp (.qsync u h) (qsyncMeaning) s

/-- PREF (R449). -/
def execPref (u : LsuUnit) (h : Head) (pin : Bool) (s : State) : Host.Outcome State Fault Refusal :=
  runOp (.pref u h pin) (prefMeaning pin) s


end Sys2Proof.Machine
end

