-- ==== Sys2Proof/Machine/Bru.lean ====
section
/-! DEFINITION. The BRU catalogue (05 R128): branches, the divergence stack, loop nests, EXIT and YIELD. -/

namespace Sys2Proof.Machine

/-- A control transfer (R283): its checks, and its effect on the sheet, whose pc has moved on. -/
def controlOp (check : TrigCtx → List (Nat × Flt)) (f : TrigCtx → Sheet → Sheet) : OpMeaning :=
  { control := true, ready := fun _ => true, check := check, effect := fun x _ _ s => s.mapSheet x.sid (f x),
    onFault := fun _ _ s => s, delivers := 0 }

/-! ## Targets (R379, R380) -/

def TrigCtx.kernel (x : TrigCtx) : Kernel := x.s.kernelOf x.sh
/-- Address of an offset in the code object. -/
def TrigCtx.target (x : TrigCtx) (off : W64) : W64 := BitVec.ofNat 64 x.kernel.base + off

/-- The checks of R380 on an offset, in the order of its table. -/
def offsetFaults (x : TrigCtx) (off : W64) : List (Bool × Flt) :=
  [(decide (2 ^ 32 ≤ off.toNat), Cause.moveIllegal.flt),
   (off.toNat % 16 != 0, ⟨.alignment, 0, x.target off⟩),
   (decide (off.toNat < 256 ∨ 256 + x.kernel.codesz < off.toNat + 16), ⟨.spaceBounds, 0, x.target off⟩)]

def jump (pc : W64) (sh : Sheet) : Sheet := { sh with pc := pc }

def brMeaning : OpMeaning :=
  controlOp (fun x => firstFault x (offsetFaults x x.tv)) (fun x sh => jump (x.target x.tv) sh)
def callMeaning : OpMeaning :=
  controlOp (fun x => firstFault x (offsetFaults x x.tv)) (fun x sh => (jump (x.target x.tv) sh).setQ .bru 0 0 x.next)
/-- BRI and RET (R379, R454): a virtual address. -/
def addrJump : OpMeaning :=
  controlOp (fun x => firstFault x [(x.tv.toNat % 16 != 0, ⟨.alignment, 0, x.tv⟩)]) (fun x sh => jump x.tv sh)
def briMeaning : OpMeaning := addrJump
def retMeaning : OpMeaning := addrJump

/-! ## Predicate branches (R381, R78) -/

/-- The code of predicate X0 in a thread, as it stood before the bundle. -/
def TrigCtx.code (x : TrigCtx) (t : Nat) : Nat := triOf (getD x.p0 0 (tkey ((x.x 0 0).toNat % 16) t))
def TrigCtx.activeThreads (x : TrigCtx) : List Nat := x.sh.active.threads

/-- The nonempty targets of a branch, in the order of R78, as address and threads. -/
def paths (l : List (W64 × Mask)) : List (W64 × Mask) := l.filter (fun e => e.2 != 0)

/-- Threads whose code satisfies `p`. -/
def TrigCtx.codeMask (x : TrigCtx) (p : Nat → Bool) : Mask := Mask.ofFn (fun t => x.sh.active.has t && p (x.code t))

/-- A branch to its nonempty targets: one is uniform, more push a level (R76, R78). `J` is the reconvergence address of
the branch. -/
def diverge (x : TrigCtx) (ps : List (W64 × Mask)) (sh : Sheet) : Sheet :=
  match ps with
  | [] => sh
  | [(pc, _)] => { sh with pc := pc }
  | (pc, m) :: p1 :: r =>
    let j := (x.kernel.rcv.find? (fun e => e.1 == x.bpc.toNat)).map (fun e => w64 e.2)
    { sh with
      stack := [⟨j, sh.mask, sh.rcv, some p1, r.head?⟩] ++ sh.stack
      pc := pc
      mask := m
      rcv := j }

/-- Whether an undecided lane counts as taken. -/
def ERule.taken (r : ERule) (c : Nat) : Bool := c == 1 || (c == 2 && r == .ut)

/-- The causes of the predicate branches: a bit of X0 above bit 3, the offsets, the undecided lanes of `.ux`, a full
stack (R80, R381). -/
def predFaults (x : TrigCtx) (offs : List W64) (ux : Bool) (ps : List (W64 × Mask)) : List (Nat × Flt) :=
  if 16 ≤ (x.x 0 0).toNat then x.fault Cause.moveIllegal.flt
  else
    let o := firstFault x (offs.flatMap (offsetFaults x))
    if !o.isEmpty then o
    else
      let u := x.activeThreads.filter (fun t => x.code t == 2)
      if ux && !u.isEmpty then u.map (fun t => (t, Cause.undecidedBranch.flt))
      else if 2 ≤ ps.length ∧ 16 ≤ x.sh.stack.length then x.fault Cause.divergeDepth.flt
      else []

/-- The paths of BRP: fall-through first, then taken. -/
def brpPaths (r : ERule) (x : TrigCtx) : List (W64 × Mask) :=
  paths [(x.next, x.codeMask (fun c => !ERule.taken r c)), (x.target x.tv, x.codeMask (ERule.taken r))]
def brpMeaning (r : ERule) : OpMeaning :=
  controlOp (fun x => predFaults x [x.tv] (r == .ux) (brpPaths r x)) (fun x sh => diverge x (brpPaths r x) sh)

/-- The paths of BRP3: false falls through, then true at T, then undecided at X1. -/
def brp3Paths (x : TrigCtx) : List (W64 × Mask) :=
  paths [(x.next, x.codeMask (· == 0)), (x.target x.tv, x.codeMask (· == 1)), (x.target (x.x 1 0), x.codeMask (· == 2))]
def brp3Meaning : OpMeaning :=
  controlOp (fun x => predFaults x [x.tv, x.x 1 0] false (brp3Paths x)) (fun x sh => diverge x (brp3Paths x) sh)

def branyMeaning (r : ERule) : OpMeaning :=
  controlOp (fun x => predFaults x [x.tv] (r == .ux) [])
    (fun x sh => if x.activeThreads.any (fun t => ERule.taken r (x.code t)) then jump (x.target x.tv) sh else sh)
def brallMeaning (r : ERule) : OpMeaning :=
  controlOp (fun x => predFaults x [x.tv] (r == .ux) [])
    (fun x sh => if x.activeThreads.all (fun t => ERule.taken r (x.code t)) then jump (x.target x.tv) sh else sh)

/-! ## LOOP, LBRK, EXIT, YIELD -/

/-- Whether a trigger value breaks R81: bits 5:0 above 58, or another bit outside 5:0 and 11:8. -/
def loopBad (v : W64) : Bool := decide (58 < v.toNat % 64) || bits v.toNat 6 2 != 0 || bits v.toNat 12 52 != 0

/-- LOOP (R81, R83, R432): captures the counts and starts the nest, or skips the body where a count is 0. -/
def loopMeaning : OpMeaning :=
  controlOp
    (fun x => firstFault x [(loopBad x.tv, Cause.moveIllegal.flt), (x.sh.nest.isSome, Cause.bundleIllegal.flt)])
    (fun x sh =>
      let counts := (List.range 6).map (fun k => (x.sh.getS (x.tv.toNat % 64 + k)).toNat % 2 ^ 32)
      if counts.contains 0 then { sh with skip := bodyLen x.tv }
      else { sh with nest := some ⟨[], bodyLen x.tv, counts, [0, 0, 0, 0, 0, 0], 0⟩ })

/-- Size in bytes of what a loop buffer holds (R92). -/
def instSize : Instr → Nat
  | .bundleIssue b => Format.size b.format
  | _ => 16

/-- The nest ends (R83, R425): the sheet, moved past the bundle with LBRK, goes on after the body; bundles of the body
that were never fetched are passed over. -/
def breakNest (x : TrigCtx) (sh : Sheet) : Sheet :=
  match sh.nest with
  | none => sh
  | some n =>
    if n.pos = 0 then { sh with nest := none, pc := x.next }
    else if n.buf.length < n.len then { sh with nest := none, pc := x.next, skip := n.len - n.pos }
    else
      match n.buf.getLast? with
      | some (pc, i) => { sh with nest := none, pc := pc + BitVec.ofNat 64 (instSize i) }
      | none => { sh with nest := none }
def lbrkMeaning : OpMeaning :=
  controlOp (fun x => firstFault x [(x.sh.nest.isNone, Cause.moveIllegal.flt)]) breakNest

/-- EXIT (R403): the path's active threads are gone; the path then arrives (R79). -/
def exitMeaning : OpMeaning := controlOp noCheck (fun x sh => { sh with gone := sh.gone ||| x.sh.active })

/-- YIELD (R467). -/
def yieldMeaning : OpMeaning :=
  controlOp noCheck (fun x sh =>
    { sh with nextIssue := sh.nextIssue + x.tv.toNat % 256, readySince := sh.nextIssue + x.tv.toNat % 256 })

/-! ## The steps -/

/-- BR (R379). -/
def execBr (h : Head) (s : State) : Host.Outcome State Fault Refusal :=
  runOp (.br h) (brMeaning) s

/-- BRI (R379). -/
def execBri (h : Head) (s : State) : Host.Outcome State Fault Refusal :=
  runOp (.bri h) (briMeaning) s

/-- CALL (R379). -/
def execCall (h : Head) (s : State) : Host.Outcome State Fault Refusal :=
  runOp (.call h) (callMeaning) s

/-- RET (R454). -/
def execRet (h : Head) (s : State) : Host.Outcome State Fault Refusal :=
  runOp (.ret h) (retMeaning) s

/-- BRP (R381). -/
def execBrp (h : Head) (r : ERule) (s : State) : Host.Outcome State Fault Refusal :=
  runOp (.brp h r) (brpMeaning r) s

/-- BRP3 (R381). -/
def execBrp3 (h : Head) (s : State) : Host.Outcome State Fault Refusal :=
  runOp (.brp3 h) (brp3Meaning) s

/-- BRANY (R381). -/
def execBrany (h : Head) (r : ERule) (s : State) : Host.Outcome State Fault Refusal :=
  runOp (.brany h r) (branyMeaning r) s

/-- BRALL (R381). -/
def execBrall (h : Head) (r : ERule) (s : State) : Host.Outcome State Fault Refusal :=
  runOp (.brall h r) (brallMeaning r) s

/-- LOOP (R432). -/
def execLoop (h : Head) (s : State) : Host.Outcome State Fault Refusal :=
  runOp (.loop h) (loopMeaning) s

/-- LBRK (R425). -/
def execLbrk (h : Head) (s : State) : Host.Outcome State Fault Refusal :=
  runOp (.lbrk h) (lbrkMeaning) s

/-- EXIT (R403). -/
def execExit (h : Head) (s : State) : Host.Outcome State Fault Refusal :=
  runOp (.exit h) (exitMeaning) s

/-- YIELD (R467). -/
def execYield (h : Head) (s : State) : Host.Outcome State Fault Refusal :=
  runOp (.yield h) (yieldMeaning) s


end Sys2Proof.Machine
end

