-- ==== Sys2Proof/Machine/Engine.lean ====
section
/-! DEFINITION. What the engine triggers share: shape registers with swap and capture (R133, R226), the dependency
table (R220, R221), tile names (R232), and the bank formats (R179 to R182). -/

namespace Sys2Proof.Machine

/-! ## Shape registers (R99, R226) -/

/-- Key of a field of a shape register: engine 0 MXE, 1 CFE, 2 CPY. -/
def shapeKey (eng h f : Nat) : Nat := eng * 64 + h * 16 + f

/-- A field as the trigger captures it: the shadow copy where it swaps first (R132, R133). -/
def TrigCtx.field (x : TrigCtx) (eng h : Nat) (swap : Bool) (f : Nat) : Nat :=
  (getD (if swap then x.sh.shShadow else x.sh.shActive) 0 (shapeKey eng h f)).toNat

/-- All fields of a register as captured. -/
def TrigCtx.shape (x : TrigCtx) (eng h : Nat) (swap : Bool) : List (BitVec 32) :=
  (List.range 16).map (fun f => getD (if swap then x.sh.shShadow else x.sh.shActive) 0 (shapeKey eng h f))

/-- Exchanges the copies of a register (R132). -/
def Sheet.swapShape (sh : Sheet) (eng h : Nat) : Sheet :=
  (List.range 16).foldl (fun sh f =>
    let a := getD sh.shActive 0 (shapeKey eng h f)
    let b := getD sh.shShadow 0 (shapeKey eng h f)
    { sh with shActive := setD sh.shActive 0 (shapeKey eng h f) b, shShadow := setD sh.shShadow 0 (shapeKey eng h f) a }) sh

/-! ## The dependency table (R220) -/

/-- The entries of a sheet's table: 32, or the 16 of its half-core. DESIGN CHOICE (log 85): R220 does not number the entries of a
half-core; half B's are 16 to 31. -/
def entrySlots (s : State) (sid : Nat) : List Nat :=
  if (s.core (coreOf sid)).split then (List.range 16).map (· + 16 * s.colOf sid) else List.range 32
/-- The free entries. -/
def freeEntries (s : State) (sid : Nat) : List Nat :=
  (entrySlots s sid).filter (fun e => (lookup (s.core (coreOf sid)).cmds e).isNone)
/-- Whether the entries a bundle needs are free (R220). -/
def TrigCtx.entryFree (x : TrigCtx) : Bool := decide (x.engines ≤ (freeEntries x.s x.sid).length)

/-- A command as its trigger makes it. -/
def TrigCtx.cmd (x : TrigCtx) (op : Instr) (shape : List (BitVec 32)) (regs fmts : List W64) (tile : Nat)
    (reads writes : List Res) : Cmd :=
  { num := 0, sid := x.sid, wg := x.sh.wg, unit := x.unit, op := op, flight := 0, trig := x.tv, x0 := x.x 0 0,
    x1 := x.x 1 0, shape := shape, regs := regs, fmts := fmts, tile := tile, reads := reads, writes := writes,
    phase := .queued, start := 0, outs := [], value := 0, cause := .none, info := 0, canc := false, at_ := 0,
    baddr := x.bpc, slot := x.slot, ovf := false, used := false, paid := 0, wrote := 0, ended := 0 }

/-- The entry that a command takes: the lowest that is free (R220, R476, R478; log 33). -/
def pickEntry (s : State) (sid : Nat) : Option Nat := (freeEntries s sid).head?

/-- The command enters a free entry with the next number (R220); its value is on its way to the engine's port. -/
def enterCmd (s : State) (sid : Nat) (c : Cmd) : State :=
  match s.sheet? sid, pickEntry s sid with
  | some sh, some e =>
    let core := s.core (coreOf sid)
    let c := { c with num := core.nextCmd, flight := sh.nextId }
    (s.setSheet sid (sh.addFlight c.unit 0 none none false true false 0)).setCore (coreOf sid)
      { core with cmds := put core.cmds e c, nextCmd := core.nextCmd + 1 }
  | _, _ => s

/-- An engine operation: its checks, and its effect in pass 0. -/
def engineOp (ready : TrigCtx → Bool) (check : TrigCtx → List (Nat × Flt)) (f : TrigCtx → State → State) : OpMeaning :=
  uniOp (fun x => x.entryFree && ready x) check 1 f

/-! ## Buffers of the sheet's workgroup -/

/-- A workgroup with its bank format registers as a sheet context sees them at a cycle (R86, R180). -/
def Workgroup.seen (s : State) (w : Workgroup) (ctx c : Nat) : Workgroup :=
  { w with banks := w.banks.map (fun e => (e.1, { e.2 with val := regRead s w.banks 0 e.1 ctx c })) }
def TrigCtx.wgp (x : TrigCtx) : Option Workgroup :=
  (x.s.wg? x.sh.wg).map (fun w => w.seen x.s (ctxOf x.sid) (x.s.cycle x.core))
def TrigCtx.aSize (x : TrigCtx) : Nat := (x.wgp.map (·.aSize)).getD 0
def TrigCtx.wSize (x : TrigCtx) : Nat := (x.wgp.map (·.wSize)).getD 0

/-! ## Bank formats (R179 to R182) -/

/-- Key of a bank format register: A banks 0 to 7, W banks at 16 + bank. -/
def bankKey (isA : Bool) (bank : Nat) : Nat := if isA then bank else 16 + bank
/-- A bank exists if a byte of it lies in the allocation (R180). -/
def bankExists (w : Workgroup) (isA : Bool) (bank : Nat) : Bool :=
  decide (bank * 16384 < (if isA then w.aSize else w.wSize)) && decide (bank < (if isA then 8 else 16))
/-- Reset value of a bank format register (R179). -/
def bankReset (isA : Bool) : W64 := if isA then 0 else w64 (0x3F800000 * 2 ^ 32)
/-- A bank format register as it reads (R180): 0 where the bank does not exist. -/
def bankRead (w : Workgroup) (isA : Bool) (bank : Nat) : W64 :=
  if bankExists w isA bank then ((lookup w.banks (bankKey isA bank)).map (·.val)).getD (bankReset isA) else 0
/-- FMT of a bank. -/
def bankFmt (w : Workgroup) (isA : Bool) (bank : Nat) : Nat := (bankRead w isA bank).toNat % 16

/-- Bits of an element of a bank format (R143, R179); 0 for RAW and the reserved codes. -/
def fmtBits (f : Nat) : Nat := [0, 8, 6, 6, 4, 8, 4, 2, 16, 16, 32].getD f 0

/-- Floating formats of the bank formats. -/
def fmtFloat (f : Nat) : Option Fmt :=
  match f with
  | 1 => some .e4m3 | 2 => some .e3m2 | 3 => some .e2m3 | 4 => some .e2m1 | 8 => some .bf16 | 9 => some .f16
  | 10 => some .f32 | _ => none

/-! ## Tile names (R232, R233) -/

/-- Tile references that some name of the workgroup maps. DESIGN CHOICE (log 71): the names of a sheet that has exited map
nothing, on which R232 is silent. -/
def mappedTiles (s : State) (wg : Nat) : List Nat :=
  (s.sheets.filter (fun e => e.2.wg == wg)).flatMap (fun e => vals e.2.tileMap)
/-- Tile references that a command in the table reads or writes. -/
def usedTiles (s : State) (wg : Nat) : List Nat :=
  s.allCmds.flatMap (fun c => (c.reads ++ c.writes).filterMap (fun r => match r with
    | .tile w t => if w = wg then some t else none
    | _ => none))
/-- Physical tiles of the pool. -/
def poolSize (s : State) (wg : Nat) : Nat := 2 * (((s.wg? wg).bind (fun w => s.grid? w.grid)).map (fun g => g.kernel.tiles)).getD 0

/-- Binds what can be bound (R232): references no name maps and no command uses give their tile back, and the tiles
that are free go to the references that wait, oldest first. -/
def bindTiles (s : State) (wg : Nat) : State :=
  s.mapWg wg (fun w =>
    let live := mappedTiles s wg ++ usedTiles s wg
    let bound := w.tileBind.filter (fun e => live.contains e.1)
    let free := (List.range (poolSize s wg)).filter (fun t => !(vals bound).contains t)
    let waiting := ((List.range w.nextTile).filter (fun r => live.contains r && (lookup bound r).isNone))
    { w with tileBind := (waiting.zip free).foldl (fun m (r, t) => put m r t) bound })

/-- Maps a name to a fresh tile of a type (R232). -/
def mapTile (s : State) (sid wg name : Nat) (int : Bool) : State :=
  match s.wg? wg with
  | none => s
  | some w =>
    let r := w.nextTile
    let s := s.setWg wg { w with nextTile := r + 1, tileInt := setD w.tileInt false r int }
    let s := s.mapSheet sid (fun sh => { sh with tileMap := put sh.tileMap name r })
    bindTiles s wg

/-- A tile element, by physical tile (R232). -/
def tileKey (t row col : Nat) : Nat := (t * 16 + row) * 128 + col
def Workgroup.tileRow (w : Workgroup) (t row : Nat) : List (BitVec 32) :=
  (List.range 128).map (fun j => getD w.tiles 0 (tileKey t row j))
def Workgroup.setTileRow (w : Workgroup) (t row : Nat) (l : List (BitVec 32)) : Workgroup :=
  { w with tiles := (l.zipIdx).foldl (fun m (v, j) => setD m 0 (tileKey t row j) v) w.tiles }

end Sys2Proof.Machine
end

