-- ==== Sys2Proof/Machine/Mxe.lean ====
section
/-! DEFINITION. The MXE catalogue (05 R129; 09 R227 to R238; 17 R437 to R443): triggers, and what the commands compute. -/

namespace Sys2Proof.Machine

/-! ## Trigger values and shape fields (R132, R226 to R228) -/

def mxeH (v : W64) : Nat := v.toNat % 4
def mxeSwap (v : W64) : Bool := bitAt v.toNat 2
/-- A captured field of the selected register. -/
def TrigCtx.mf (x : TrigCtx) (f : Nat) : Nat := x.field 0 (mxeH x.tv) (mxeSwap x.tv) f

/-- Whether a captured field keeps its map and range (R227). -/
def mxeFieldOk (f v : Nat) : Bool :=
  match f with
  | 0 => decide (v < 128)
  | 1 => decide (v < 128)
  | 2 => decide (1 ≤ v ∧ v ≤ 16)
  | 3 => decide (v < 16)
  | 4 => decide (v < 2 ^ 17) && v % 16 == 0
  | 5 => decide (v ≤ 5)
  | 7 => decide (v < 64)
  | 8 => decide (v < 65536)
  | 9 => decide (1 ≤ v ∧ v ≤ 16)
  | _ => true

/-- Check 3 of R137 for an MXE trigger (R132): the trigger value, and the tile name. -/
def mxeTrigger (c : Tile) (x : TrigCtx) : List (Bool × Flt) :=
  [(decide (8 ≤ x.tv.toNat), Cause.moveIllegal.flt), (decide (x.kernel.tiles ≤ c.val), Cause.moveIllegal.flt)]

/-- The tile reference a name maps. -/
def TrigCtx.tileRef (x : TrigCtx) (c : Tile) : Option Nat := lookup x.sh.tileMap c.val
/-- Whether the mapped tile is INT32. -/
def TrigCtx.tileIsInt (x : TrigCtx) (c : Tile) : Bool :=
  match x.tileRef c, x.wgp with
  | some r, some w => getD w.tileInt false r
  | _, _ => false

/-- Whether an MXE operation may not name its tile (R228, R232, R233, R437 step 4): unmapped or of the wrong type
without `.fresh`; every tile of the pool mapped with it. -/
def tileBad (x : TrigCtx) (c : Tile) (fresh int : Bool) : Bool :=
  if fresh then decide (poolSize x.s x.sh.wg ≤ (mappedTiles x.s x.sh.wg).length)
  else (x.tileRef c).isNone || x.tileIsInt c != int

/-- The effect of an MXE trigger (R437): swap, mapping, the command of a tile reference. -/
def mxeEnter (x : TrigCtx) (c : Tile) (fresh int : Bool) (mk : Nat → Cmd) (s : State) : State :=
  let s := if mxeSwap x.tv then s.mapSheet x.sid (fun sh => sh.swapShape 0 (mxeH x.tv)) else s
  let s := if fresh then mapTile s x.sid x.sh.wg c.val int else s
  let r := match s.sheet? x.sid with
    | some sh => (lookup sh.tileMap c.val).getD 0
    | none => 0
  enterCmd s x.sid (mk r)

/-- A command of the selected register. -/
def mxeCmd (x : TrigCtx) (op : Instr) (regs fmts : List W64) (tile : Nat) (reads writes : List Res) : Cmd :=
  x.cmd op (x.shape 0 (mxeH x.tv) (mxeSwap x.tv)) regs fmts tile reads writes

/-! ## The matrix products (R181, R229 to R231, R438) -/

/-- A kind of product: opcode, registers and W banks to a block, scales, tile type, formats accepted. -/
structure MmaKind where
  opc : Nat
  perBlock : Nat
  banks : Nat
  scales : Bool
  int : Bool
  fmts : List Nat

def mmaKind : MmaKind := ⟨1, 8, 1, true, false, [1, 2, 3, 4]⟩
def mmabKind : MmaKind := ⟨2, 16, 2, false, false, [8]⟩
def mmaiKind : MmaKind := ⟨3, 8, 1, false, true, [5, 6, 7]⟩

/-- The registers that R229 names: the A tile, then the scales. -/
def mmaRegs (k : MmaKind) (abase ascale kblk : Nat) : List Nat :=
  (List.range (k.perBlock * kblk)).map (abase + ·) ++
  (if k.scales then (List.range ((kblk - 1) / 4 + 1)).map (ascale + ·) else [])

/-- The first bank of each block (R231). -/
def mmaBanks (k : MmaKind) (wbank kblk : Nat) : List Nat := (List.range kblk).map (fun b => wbank + k.banks * b)

/-- Bytes that a block's tile occupies in its format (R181). -/
def tileBytes (fmt : Nat) : Nat := 2048 * fmtBits fmt

/-- Bytes of a bank that must lie in the allocation (R181): those of a tile in its format. DESIGN CHOICE (log 85): R181 gives no tile
of RAW, FP16 and FP32, whose banks need exist only. -/
def tileNeed (fmt : Nat) : Nat := if 1 ≤ fmt ∧ fmt ≤ 8 then tileBytes fmt else 1

/-- Whether a block's bank lies beyond the W allocation over the bytes its tile occupies (R181, R231). -/
def bankBeyond (k : MmaKind) (w : Workgroup) (bank : Nat) : Bool :=
  !bankExists w false bank || decide (w.wSize < bank * 16384 + tileNeed (bankFmt w false bank)) ||
  (k.banks == 2 && !bankExists w false (bank + 1))
/-- Whether a bank of a block holds a format that R181 does not accept. -/
def bankFmtBad (k : MmaKind) (w : Workgroup) (bank : Nat) : Bool :=
  (List.range k.banks).any (fun j => !k.fmts.contains (bankFmt w false (bank + j)))

/-- The checks of a product, in the order of R437. -/
def mmaCheck (k : MmaKind) (m : MmaMod) (x : TrigCtx) : List (Nat × Flt) :=
  let fields := if k.scales then [0, 1, 2, 3] else [0, 2, 3]
  let kblk := x.mf 2
  let banks := mmaBanks k (x.mf 3) kblk
  match x.wgp with
  | none => []
  | some w =>
    firstFault x (mxeTrigger m.tile x ++
      [(fields.any (fun f => !mxeFieldOk f (x.mf f)), Cause.engineError.flt),
       ((mmaRegs k (x.mf 0) (x.mf 1) kblk).any (fun r => decide (x.kernel.regs ≤ r)), Cause.moveIllegal.flt),
       (banks.any (bankBeyond k w), Cause.spaceBounds.flt),
       (tileBad x m.tile m.fresh k.int || banks.any (bankFmtBad k w), Cause.engineError.flt)])

/-- The reuse latch of a sheet's engine (R230). -/
def State.reuse (s : State) (sid : Nat) : Option Reuse :=
  if s.colOf sid = 0 then (s.core (coreOf sid)).reuseA else (s.core (coreOf sid)).reuseB
def State.setReuse (s : State) (sid : Nat) (r : Option Reuse) : State :=
  if s.colOf sid = 0 then s.mapCore (coreOf sid) (fun c => { c with reuseA := r })
  else s.mapCore (coreOf sid) (fun c => { c with reuseB := r })

/-- A workgroup is dispatched to, exits from, is saved from or restored onto a core or half-core, or a scrub begins there: its
reuse latch is invalid (R230). -/
def clearReuse (s : State) (core col : Nat) : State :=
  s.mapCore core (fun c => if col = 0 then { c with reuseA := none } else { c with reuseB := none })

/-- The operand collector (R229): threads 0 to 31 of each register, at the end of the triggering bundle. -/
def collect (sh : Sheet) (regs : List Nat) : List W64 := regs.flatMap (fun r => (List.range 32).map (fun t => sh.getV r t))

/-- The blocks of W that the tiles occupy. -/
def bankBlocks (w : Workgroup) (wg : Nat) (banks : List Nat) : List Res :=
  banks.flatMap (fun b => blocksOf false wg (b * 16384) (tileBytes (bankFmt w false b)))

/-- The operand that a trigger takes from the reuse latch (R230). -/
def latchedRegs (k : MmaKind) (m : MmaMod) (kblk : Nat) (s : State) (sid : Nat) : Option (List W64) :=
  match s.reuse sid with
  | some r => if m.reuse && r.sid == sid && r.opc == k.opc && r.kblk == kblk then some r.regs else none
  | none => none

def mmaMeaning' (k : MmaKind) (op : Instr) (m : MmaMod) : OpMeaning :=
  { engineOp (fun _ => true) (mmaCheck k m) (fun x s =>
    match x.wgp with
    | none => s
    | some w =>
      let kblk := x.mf 2
      let banks := mmaBanks k (x.mf 3) kblk
      let read := collect x.sh (mmaRegs k (x.mf 0) (x.mf 1) kblk)
      let regs := (latchedRegs k m kblk s x.sid).getD read
      let s := s.setReuse x.sid (if m.reuse then some ⟨x.sid, k.opc, kblk, regs⟩ else none)
      mxeEnter x m.tile m.fresh k.int (fun t =>
        mxeCmd x op regs (banks.map (fun b => bankRead w false b)) t
          (bankBlocks w x.sh.wg banks ++ [.tile x.sh.wg t]) [.tile x.sh.wg t]) s) with
    vregs := fun x =>
      if (latchedRegs k m (x.mf 2) x.s x.sid).isSome then [] else mmaRegs k (x.mf 0) (x.mf 1) (x.mf 2) }

/-- The instruction that stands for a command in the table: its head does not matter there. -/
def noHead : Head := ⟨.always, 0, false⟩
def mmaMeaning (m : MmaMod) : OpMeaning := mmaMeaning' mmaKind (.mma noHead m) m
def mmabMeaning (m : MmaMod) : OpMeaning := mmaMeaning' mmabKind (.mmab noHead m) m
def mmaiMeaning (m : MmaMod) : OpMeaning := mmaMeaning' mmaiKind (.mmai noHead m) m

/-! ## The other operations (R234, R440 to R443) -/

/-- MXZERO and MXLD take DFMT FP32 or INT32 only (R228). -/
def dfmtPlain (v : Nat) : Bool := v == 0 || v == 5

def mxzeroMeaning (m : MxfMod) : OpMeaning :=
  engineOp (fun _ => true)
    (fun x => firstFault x (mxeTrigger m.tile x ++
      [(!dfmtPlain (x.mf 5), Cause.engineError.flt), (tileBad x m.tile m.fresh (x.mf 5 == 5), Cause.engineError.flt)]))
    (fun x s => mxeEnter x m.tile m.fresh (x.mf 5 == 5) (fun t =>
      mxeCmd x (.mxzero noHead m) [] [] t [] [.tile x.sh.wg t]) s)

/-- Bytes of an element of a drain format (R234). -/
def dfmtBytes (v : Nat) : Nat := [4, 2, 2, 1, 1, 4].getD v 4
/-- Whether a tile type drains into a format (R234). -/
def dfmtPairs (int : Bool) (v : Nat) : Bool := if int then [0, 4, 5].contains v else [0, 1, 2, 3].contains v

def mxdrainMeaning (c : Tile) : OpMeaning :=
  let n (x : TrigCtx) : Nat := 128 * x.mf 9 * dfmtBytes (x.mf 5)
  engineOp (fun _ => true)
    (fun x => firstFault x (mxeTrigger c x ++
      [([4, 5, 9].any (fun f => !mxeFieldOk f (x.mf f)), Cause.engineError.flt),
       (decide (x.aSize < x.mf 4 + n x), Cause.spaceBounds.flt),
       ((x.tileRef c).isNone || !dfmtPairs (x.tileIsInt c) (x.mf 5), Cause.engineError.flt)]))
    (fun x s => mxeEnter x c false false (fun t =>
      mxeCmd x (.mxdrain noHead c) [] [] t [.tile x.sh.wg t] (blocksOf true x.sh.wg (x.mf 4) (n x))) s)

def mxstMeaning (c : Tile) : OpMeaning :=
  engineOp (fun _ => true)
    (fun x => firstFault x (mxeTrigger c x ++
      [([4, 9].any (fun f => !mxeFieldOk f (x.mf f)), Cause.engineError.flt),
       (decide (x.aSize < x.mf 4 + 512 * x.mf 9), Cause.spaceBounds.flt),
       ((x.tileRef c).isNone, Cause.engineError.flt)]))
    (fun x s => mxeEnter x c false false (fun t =>
      mxeCmd x (.mxst noHead c) [] [] t [.tile x.sh.wg t] (blocksOf true x.sh.wg (x.mf 4) (512 * x.mf 9))) s)

def mxldMeaning (m : MxfMod) : OpMeaning :=
  engineOp (fun _ => true)
    (fun x => firstFault x (mxeTrigger m.tile x ++
      [([4, 9].any (fun f => !mxeFieldOk f (x.mf f)) || !dfmtPlain (x.mf 5), Cause.engineError.flt),
       (decide (x.aSize < x.mf 4 + 512 * x.mf 9), Cause.spaceBounds.flt),
       (tileBad x m.tile m.fresh (x.mf 5 == 5), Cause.engineError.flt)]))
    (fun x s => mxeEnter x m.tile m.fresh (x.mf 5 == 5) (fun t =>
      mxeCmd x (.mxld noHead m) [] [] t (blocksOf true x.sh.wg (x.mf 4) (512 * x.mf 9)) [.tile x.sh.wg t]) s)

def mxrelMeaning (c : Tile) : OpMeaning :=
  engineOp (fun _ => true)
    (fun x => firstFault x (mxeTrigger c x ++ [((x.tileRef c).isNone, Cause.engineError.flt)]))
    (fun x s =>
      let s := mxeEnter x c false false (fun t => mxeCmd x (.mxrel noHead c) [] [] t [] []) s
      bindTiles (s.mapSheet x.sid (fun sh => { sh with tileMap := drop sh.tileMap c.val })) x.sh.wg)

/-! ### Reduction groups (R236, R237) -/

def Group.valid (g : Group) : Bool := bitAt g.word.toNat 240
def Group.int (g : Group) : Bool := bitAt g.word.toNat 241
def Group.rows (g : Group) : Nat := bits g.word.toNat 256 5
/-- The place of a core and column as a descriptor names it: device in bits 15:0, core from 16, column B in bit 27. -/
def memberOf (device core col : Nat) : W64 := w64 (device % 2 ^ 16 + core % 2 ^ 11 * 2 ^ 16 + ofBool (col == 1) * 2 ^ 27)
/-- Member index of a core or half-core, by the copy of the list. -/
def Group.index (g : Group) (device core col : Nat) : Option Nat :=
  (g.members.zipIdx.find? (fun e => e.1 == memberOf device core col)).map (·.2)
def State.group (s : State) (part g : Nat) : Option Group := lookup (s.part part).groups g
/-- An entry of the group table as it reads (R236): every field 0 at reset. -/
def State.groupWord (s : State) (part g : Nat) : BitVec 512 := ((s.group part g).map (·.word)).getD 0

/-- Whether MXRED breaks a group check of R237. -/
def redBad (x : TrigCtx) (c : Tile) : Bool :=
  match x.s.group (x.s.partOf x.sh) (x.mf 7) with
  | none => true
  | some g =>
    !Group.valid g || (Group.index g x.s.deviceNo x.core (x.s.colOf x.sid)).isNone || x.tileIsInt c != Group.int g ||
    decide (65536 < x.mf 8 + Group.rows g)
def mxredMeaning (c : Tile) : OpMeaning :=
  engineOp (fun _ => true)
    (fun x => firstFault x (mxeTrigger c x ++
      [([7, 8].any (fun f => !mxeFieldOk f (x.mf f)), Cause.engineError.flt),
       ((x.tileRef c).isNone || redBad x c, Cause.engineError.flt)]))
    (fun x s => mxeEnter x c false false (fun t =>
      mxeCmd x (.mxred noHead c) [] [] t [.tile x.sh.wg t] []) s)

/-! ## What the commands compute -/

/-- A field of a command's captured register. -/
def Cmd.f (c : Cmd) (n : Nat) : Nat := (c.shape.getD n 0).toNat

/-- An FP32 code as a value. -/
def f32v (x : Nat) : FVal := unpack .f32 false x
/-- C plus an exact value, rounded once (R165). -/
def accum (c : Nat) (x : FVal) : Nat := (fpAdd .f32 .rne false (f32v c) x).1

/-- The bytes of a tile in W, from offset 0 of its bank. -/
def tileOf (w : Workgroup) (bank fmt : Nat) : Array Nat :=
  ((w.readBuf false (bank * 16384) (tileBytes fmt)).map BitVec.toNat).toArray

/-- Code of element `e` of `b` bits in packed bytes (R144). -/
def packedAt (a : Array Nat) (b e : Nat) : Nat :=
  let p := b * e
  let lo := a.getD (p / 8) 0 + 256 * a.getD (p / 8 + 1) 0
  lo / 2 ^ (p % 8) % 2 ^ b

/-- Element A[i][k] of block `b` of `eb` bits, `per` registers to a block (R229). -/
def aElem (regs : Array W64) (per eb b i k : Nat) : Nat :=
  let lane := 2 * i + (if 64 ≤ k then 1 else 0)
  let n := 64 / eb
  bits (regs.getD ((per * b + k % 64 / n) * 32 + lane) 0).toNat (eb * (k % n)) eb

/-- Scale sa[i][b] (R229); the scales follow the A tile. -/
def aScale (regs : Array W64) (per kblk b i : Nat) : Nat :=
  bits (regs.getD ((per * kblk + b / 4) * 32 + 2 * i + b % 4 / 2) 0).toNat (32 * (b % 2)) 32

/-- The sum over 128 of a function. -/
def sum128 (f : Nat → Int) : Int := (List.range 128).foldl (fun a k => a + f k) 0

/-- An E4M3, E3M2, E2M3 or E2M1 value in units of 2^-9: exact (R145). -/
def units9 (v : FVal) : Int :=
  match v with
  | .fin n m e => unitsOf n m e (-9)
  | _ => 0

/-- One element through one FP8 block (R165). -/
def fp8Elem (a : Array W64) (kblk : Nat) (w : Array Nat) (fmt scale b i j c : Nat) : Nat :=
  let f := (fmtFloat fmt).getD .e4m3
  let av (k : Nat) := unpack .e4m3 false (aElem a 8 8 b i k)
  let bv (k : Nat) := unpack f false (packedAt w (fmtBits fmt) (128 * k + j))
  if (List.range 128).any (fun k => (av k).isNan || (bv k).isNan) || (f32v c).isNan then Fmt.nan .f32
  else
    let sm := sum128 (fun k => units9 (av k) * units9 (bv k))
    match mulVal (.fin (decide (sm < 0)) sm.natAbs (-18)) (f32v (aScale a 8 kblk b i)) with
    | none => Fmt.nan .f32
    | some x =>
      match mulVal x (f32v scale) with
      | none => Fmt.nan .f32
      | some (.fin n m e) => accum c (.fin (n && m != 0) m e)
      | some y => accum c y

/-- floor(log2) of a nonzero finite value. -/
def expOf (m : Nat) (e : Int) : Int := e + Nat.log2 m

/-- An integer over 2^k of an exact value, cut towards zero (R166). -/
def truncAt (n : Bool) (m : Nat) (e k : Int) : Int :=
  let sh := e - k
  let q : Nat := if 0 ≤ sh then m * 2 ^ sh.toNat else m / 2 ^ (-sh).toNat
  if n then -(q : Int) else q

/-- One group of 16 products added into C (R166). -/
def bf16Group (ps : List (Option FVal)) (c : Nat) : Nat :=
  let vs := ps.filterMap id
  let infs := vs.filter (fun v => match v with | .inf _ => true | _ => false)
  if ps.any (fun p => p.isNone) || vs.any FVal.isNan || (infs.any FVal.neg? && infs.any (fun v => !v.neg?)) then Fmt.nan .f32
  else
    match infs with
    | v :: _ => accum c v
    | [] =>
      let nz := vs.filterMap (fun v => match v with
        | .fin n m e => if m = 0 then none else some (n, m, e)
        | _ => none)
      match nz with
      | [] => c
      | (_, m, e) :: _ =>
        let top := nz.foldl (fun (t : Int) (_, m, e) => max t (expOf m e)) (expOf m e)
        let g := nz.foldl (fun (t : Int) (n, m, e) => t + truncAt n m e (top - 42)) 0
        accum c (.fin (decide (g < 0)) g.natAbs (top - 42))

/-- One element through one BF16 block (R166). -/
def bf16Elem (a : Array W64) (w : Array Nat) (b i j c : Nat) : Nat :=
  (List.range 8).foldl (fun c g =>
    bf16Group ((List.range 16).map (fun q =>
      let k := 16 * g + q
      let x := unpack .bf16 false (aElem a 16 16 b i k)
      let y := unpack .bf16 false (packedAt w 16 (128 * k + j))
      if x.isNan || y.isNan then none else mulVal x y)) c) c

/-- One element through one INT8 block (R167): the value and whether it overflowed. -/
def int8Elem (a : Array W64) (w : Array Nat) (fmt b i j c : Nat) : Nat × Bool :=
  let sm := sum128 (fun k =>
    signed 8 (aElem a 8 8 b i k) * signed (fmtBits fmt) (packedAt w (fmtBits fmt) (128 * k + j)))
  let v := signed 32 c + sm
  ((v % (2 ^ 32 : Nat)).toNat, decide (v < -(2 ^ 31 : Nat) ∨ (2 ^ 31 : Nat) ≤ v))

/-- The blocks of a product over one element, in block order (R438). -/
def chainElem (k : MmaKind) (a : Array W64) (kblk : Nat) (ws : List (Array Nat × Nat × Nat)) (i j c : Nat) : Nat × Bool :=
  (ws.zipIdx).foldl (fun (r : Nat × Bool) ((w, fmt, scale), b) =>
    if k.int then
      let (v, o) := int8Elem a w fmt b i j r.1
      (v, r.2 || o)
    else if k.banks = 2 then (bf16Elem a w b i j r.1, false)
    else (fp8Elem a kblk w fmt scale b i j r.1, false)) (c, false)

/-- What a product writes, and whether it overflowed. -/
def mmaOuts (k : MmaKind) (m : MmaMod) (c : Cmd) (w : Workgroup) (phys : Nat) : List CmdWrite × Bool :=
  let a := c.regs.toArray
  let kblk := c.f 2
  let ws := (mmaBanks k (c.f 3) kblk).zip c.fmts |>.map (fun (bank, f) =>
    let fmt := f.toNat % 16
    (tileOf w bank fmt, fmt, f.toNat / 2 ^ 32))
  let rows := (List.range 16).map (fun i =>
    ((if m.fresh then List.replicate 128 0 else w.tileRow phys i).zipIdx).map (fun (v, j) =>
      chainElem k a kblk ws i j v.toNat))
  (rows.zipIdx.map (fun (r, i) => .tile c.wg phys i (r.map (fun e => BitVec.ofNat 32 e.1))),
   rows.any (fun r => r.any (·.2)))

/-- The element that MXDRAIN writes (R234, R440): its code in the drain format. DEDUCED (log 86): a zero product keeps the sign of
its factors, as R148 has it. -/
def drainCode (int : Bool) (dfmt scale c : Nat) : Nat :=
  let sc := f32v scale
  let x : Nat := (fpMul .f32 .rne false (f32v c) sc).1
  if int then
    match dfmt with
    | 5 => c
    | 0 => match mulVal (ofInt (signed 32 c)) sc with
      | some v => (deliverVal .f32 .rne false v).1
      | none => Fmt.nan .f32
    | _ => match mulVal (ofInt (signed 32 c)) sc with
      | some v => ((toInt 8 .rne v).1 % 256).toNat
      | none => 0
  else
    match dfmt with
    | 0 => x
    | 1 => (fpConv .bf16 .rne false (f32v x)).1
    | 2 => (fpConv .f16 .rne false (f32v x)).1
    | _ => (toNarrowCode .e4m3 false .f32 x).1

/-- Rows of a tile as bytes of `z` to an element. -/
def rowBytes (z : Nat) (l : List Nat) : List Byte := l.flatMap (leBytes z)

/-- The words of `n` bytes. -/
def wordsFrom : Nat → List Byte → List (BitVec 32)
  | 0, _ => []
  | n + 1, bs => BitVec.ofNat 32 (leNat (bs.take 4)) :: wordsFrom n (bs.drop 4)

/-- What an MXE command writes when it completes, computed from its operands, and whether it overflowed (R438 to
R443). MXRED writes nothing here. -/
def mxeOuts (s : State) (c : Cmd) : List CmdWrite × Bool :=
  match s.wg? c.wg with
  | none => ([], false)
  | some w =>
    let phys := getD w.tileBind 0 c.tile
    let rows := List.range (c.f 9)
    match c.op with
    | .mma _ m => mmaOuts mmaKind m c w phys
    | .mmab _ m => mmaOuts mmabKind m c w phys
    | .mmai _ m => mmaOuts mmaiKind m c w phys
    | .mxzero _ _ => ((List.range 16).map (fun i => .tile c.wg phys i (List.replicate 128 0)), false)
    | .mxdrain _ _ =>
      let z := dfmtBytes (c.f 5)
      let int := getD w.tileInt false c.tile
      (rows.map (fun i => .abuf c.wg (c.f 4 + 128 * i * z)
        (rowBytes z ((w.tileRow phys i).map (fun v => drainCode int (c.f 5) (c.f 6) v.toNat)))), false)
    | .mxst _ _ =>
      (rows.map (fun i => .abuf c.wg (c.f 4 + 512 * i) (rowBytes 4 ((w.tileRow phys i).map BitVec.toNat))), false)
    | .mxld _ m =>
      ((List.range 16).filterMap (fun i =>
        if i < c.f 9 then some (.tile c.wg phys i (wordsFrom 128 (w.readBuf true (c.f 4 + 512 * i) 512)))
        else if m.fresh then some (.tile c.wg phys i (List.replicate 128 0)) else none), false)
    | _ => ([], false)

/-! ## The steps -/

/-- MMA (R438). -/
def execMma (h : Head) (m : MmaMod) (s : State) : Host.Outcome State Fault Refusal :=
  runOp (.mma h m) (mmaMeaning m) s

/-- MMAB (R438). -/
def execMmab (h : Head) (m : MmaMod) (s : State) : Host.Outcome State Fault Refusal :=
  runOp (.mmab h m) (mmabMeaning m) s

/-- MMAI (R438). -/
def execMmai (h : Head) (m : MmaMod) (s : State) : Host.Outcome State Fault Refusal :=
  runOp (.mmai h m) (mmaiMeaning m) s

/-- MXZERO (R443). -/
def execMxzero (h : Head) (m : MxfMod) (s : State) : Host.Outcome State Fault Refusal :=
  runOp (.mxzero h m) (mxzeroMeaning m) s

/-- MXDRAIN (R440). -/
def execMxdrain (h : Head) (c : Tile) (s : State) : Host.Outcome State Fault Refusal :=
  runOp (.mxdrain h c) (mxdrainMeaning c) s

/-- MXRED (R442). -/
def execMxred (h : Head) (c : Tile) (s : State) : Host.Outcome State Fault Refusal :=
  runOp (.mxred h c) (mxredMeaning c) s

/-- MXLD (R441). -/
def execMxld (h : Head) (m : MxfMod) (s : State) : Host.Outcome State Fault Refusal :=
  runOp (.mxld h m) (mxldMeaning m) s

/-- MXST (R441). -/
def execMxst (h : Head) (c : Tile) (s : State) : Host.Outcome State Fault Refusal :=
  runOp (.mxst h c) (mxstMeaning c) s

/-- MXREL (R443). -/
def execMxrel (h : Head) (c : Tile) (s : State) : Host.Outcome State Fault Refusal :=
  runOp (.mxrel h c) (mxrelMeaning c) s


end Sys2Proof.Machine
end

