-- ==== Sys2Proof/Machine/Cfe.lean ====
section
/-! DEFINITION. The CFE catalogue (05 R130; 09 R239 to R247; 15 R383 to R390): triggers, and what the commands compute. -/

namespace Sys2Proof.Machine

/-! ## Trigger values and shape fields (R130, R132, R239) -/

def cfeA (v : W64) : Nat := bits v.toNat 0 4
def cfeB (v : W64) : Nat := bits v.toNat 4 4
def cfeH (v : W64) : Nat := bits v.toNat 8 2
def cfeSwap (v : W64) : Bool := bitAt v.toNat 10
/-- A captured field of the selected register. -/
def TrigCtx.cf (x : TrigCtx) (f : Nat) : Nat := x.field 1 (cfeH x.tv) (cfeSwap x.tv) f

/-- Check 3 of R137 for a CFE trigger (R130, R132): bits above 10, a field marked 0, a limb at or beyond `.limbs`. -/
def cfeTrigger (x : TrigCtx) (d : Option Limb) (useA useB : Bool) : List (Bool × Flt) :=
  let big (k : Nat) : Bool := decide (x.kernel.limbs ≤ k)
  [(decide (2 ^ 11 ≤ x.tv.toNat) || (!useA && cfeA x.tv != 0) || (!useB && cfeB x.tv != 0) ||
    (useA && big (cfeA x.tv)) || (useB && big (cfeB x.tv)) || (match d with
      | some k => big k.val
      | none => false), Cause.moveIllegal.flt)]

/-- Element width and sign of EW. -/
def ewWidth (v : Nat) : Nat := v % 16
def ewSigned (v : Nat) : Bool := bitAt v 4
/-- Bound of an element (R241). -/
def elemBound (ew : Nat) : Nat := if ewSigned ew then 2 ^ (ewWidth ew - 1) else 2 ^ ewWidth ew - 1
/-- Size of an output format (R239). -/
def outBytes (f : Nat) : Nat := [8, 4, 2, 4].getD f 8

/-- Whether a field keeps its map and range (R239). -/
def ewOk (v : Nat) : Bool := decide (v < 32 ∧ 1 ≤ ewWidth v ∧ ewWidth v ≤ 8)
def strideOk (v : Nat) : Bool := decide (2 ≤ v ∧ v ≤ 64)
def cntOk (v : Nat) : Bool := decide (1 ≤ v ∧ v ≤ 64)

/-! ## Tags (R241 to R243) -/

def TrigCtx.tag (x : TrigCtx) (k : Nat) : Option LimbTag := x.wgp.bind (fun w => lookup w.tags k)
/-- A bound is a saturating 64-bit count (R241). -/
def sat64 (n : Nat) : Nat := Nat.min n (2 ^ 64 - 1)
/-- The bound of a product (R242). -/
def prodBound (a b : LimbTag) : Nat := Nat.min a.n b.n * a.b * b.b

/-- The result tag with BOUND in force (R242). -/
def withBound (bound : Nat) (t : LimbTag) : LimbTag :=
  if bound ≠ 0 then { t with b := bound, d := true } else { t with b := sat64 t.b }

/-- Whether a result tag fails the size and bound checks of R243. -/
def tagFails (t : LimbTag) : Bool :=
  decide (1024 < t.n * t.s) || decide ((if t.sg then 2 ^ (t.s - 1) - 1 else 2 ^ t.s - 1) < t.b)

/-- Result of the static checks of a product: the tag, or GUARD_STATIC (R242, R243). DESIGN CHOICE (log 72): n of the product
of two cleared limbs, n_a + n_b - 1 = -1 by the table, is 0. -/
def mulTag (bound : Nat) (extra : Option LimbTag) (a b : LimbTag) : Option LimbTag :=
  let n0 := a.n + b.n - 1
  let t : LimbTag := match extra with
    | none => ⟨a.sg || b.sg, a.s, n0, prodBound a b, a.d || b.d⟩
    | some d => ⟨a.sg || b.sg || d.sg, a.s, Nat.max d.n n0, d.b + prodBound a b, a.d || b.d || d.d⟩
  let t := withBound bound t
  let same := a.s == b.s && (match extra with
    | some d => d.s == a.s
    | none => true)
  if !same || decide (512 < a.n * a.s) || decide (512 < b.n * b.s) || tagFails t then none else some t
def addTag (bound : Nat) (sub : Bool) (a b : LimbTag) : Option LimbTag :=
  let t := withBound bound ⟨a.sg || b.sg || sub, a.s, Nat.max a.n b.n, a.b + b.b, a.d || b.d⟩
  if a.s != b.s || tagFails t then none else some t
def shlTag (bound m : Nat) (a : LimbTag) : Option LimbTag :=
  let t := withBound bound { a with n := a.n + m }
  if tagFails t then none else some t

/-- A tag as a command captures it: stride, sign, D and B. -/
def tagWords (t : LimbTag) : List W64 := [w64 t.s, w64 (ofBool t.sg), w64 (ofBool t.d), w64 t.b]

/-- The effect of a CFE trigger: swap, the destination's tag, the command. -/
def cfeEnter (x : TrigCtx) (d : Option Limb) (tag : Option LimbTag) (c : Cmd) (s : State) : State :=
  let s := if cfeSwap x.tv then s.mapSheet x.sid (fun sh => sh.swapShape 1 (cfeH x.tv)) else s
  let s := match d with
    | none => s
    | some k => s.mapWg x.sh.wg (fun w => { w with tags := match tag with
        | some t => put w.tags k.val t
        | none => drop w.tags k.val })
  enterCmd s x.sid c

/-- A command of the selected register. -/
def cfeCmd (x : TrigCtx) (op : Instr) (regs : List W64) (reads writes : List Res) : Cmd :=
  x.cmd op (x.shape 1 (cfeH x.tv) (cfeSwap x.tv)) regs [] 0 reads writes

/-- A tagged operation: the limbs it reads, and its result tag (none: GUARD_STATIC; `some none`: no tag). -/
def taggedOp (op : Instr) (d : Limb) (useA useB : Bool) (pre : TrigCtx → List (Bool × Flt))
    (reads : TrigCtx → List Nat) (tag : TrigCtx → Option (Option LimbTag)) : OpMeaning :=
  engineOp (fun _ => true)
    (fun x => firstFault x (cfeTrigger x (some d) useA useB ++ pre x ++ [((tag x).isNone, Cause.guardStatic.flt)]))
    (fun x s => cfeEnter x (some d) ((tag x).getD none)
      (cfeCmd x op (((tag x).getD none).elim [] tagWords) ((reads x).map (Res.limb x.sh.wg)) [.limb x.sh.wg d.val]) s)

def srcA (x : TrigCtx) : List Nat := [cfeA x.tv]
def srcAB (x : TrigCtx) : List Nat := [cfeA x.tv, cfeB x.tv]
/-- Both source tags, where both limbs carry one. -/
def tagAB (x : TrigCtx) : Option (LimbTag × LimbTag) :=
  match x.tag (cfeA x.tv), x.tag (cfeB x.tv) with
  | some a, some b => some (a, b)
  | _, _ => none

def cmulMeaning (d : Limb) : OpMeaning :=
  taggedOp (.cmul noHead d) d true true (fun _ => []) srcAB
    (fun x => ((tagAB x).bind (fun p => mulTag (x.cf 6) none p.1 p.2)).map some)
def cmacMeaning (d : Limb) : OpMeaning :=
  taggedOp (.cmac noHead d) d true true (fun _ => []) (fun x => srcAB x ++ [d.val])
    (fun x => ((tagAB x).bind (fun p => (x.tag d.val).bind (fun t => mulTag (x.cf 6) (some t) p.1 p.2))).map some)
def csqrMeaning (d : Limb) : OpMeaning :=
  taggedOp (.csqr noHead d) d true false (fun _ => []) srcA
    (fun x => ((x.tag (cfeA x.tv)).bind (fun a => mulTag (x.cf 6) none a a)).map some)

/-- CADD and CSUB: two untagged limbs leave no tag; one of them tagged is GUARD_STATIC (R243, R384). -/
def addSubTag (sub : Bool) (x : TrigCtx) : Option (Option LimbTag) :=
  match x.tag (cfeA x.tv), x.tag (cfeB x.tv) with
  | none, none => some none
  | some a, some b => (addTag (x.cf 6) sub a b).map some
  | _, _ => none
def caddMeaning (d : Limb) : OpMeaning := taggedOp (.cadd noHead d) d true true (fun _ => []) srcAB (addSubTag false)
def csubMeaning (d : Limb) : OpMeaning := taggedOp (.csub noHead d) d true true (fun _ => []) srcAB (addSubTag true)
def cshlMeaning (d : Limb) : OpMeaning :=
  taggedOp (.cshl noHead d) d true false
    (fun x => [(decide (511 < (x.x 0 0).toNat), Cause.moveIllegal.flt)]) srcA
    (fun x => ((x.tag (cfeA x.tv)).bind (fun a => shlTag (x.cf 6) (x.x 0 0).toNat a)).map some)
def cclrMeaning (d : Limb) : OpMeaning :=
  taggedOp (.cclr noHead d) d false false (fun x => [(!strideOk (x.cf 3), Cause.engineError.flt)]) (fun _ => [])
    (fun x => some (some ⟨false, x.cf 3, 0, 0, false⟩))
def cbigMeaning (d : Limb) : OpMeaning :=
  taggedOp (.cbig noHead d) d true true (fun _ => []) srcAB (fun _ => some none)

/-! ## Packing (R171, R240) -/

/-- Bits of the source string that packing reaches. -/
def packBits (x : TrigCtx) : Nat := x.cf 4 * (x.cf 2 - 1) + ewWidth (x.cf 1)
def packCheck (d : Limb) (fromV : Bool) (x : TrigCtx) : List (Nat × Flt) :=
  let fieldsOk := decide (x.cf 0 < (if fromV then 128 else 2 ^ 17)) && ewOk (x.cf 1) && cntOk (x.cf 2) &&
    strideOk (x.cf 3) && decide (ewWidth (x.cf 1) ≤ x.cf 4 ∧ x.cf 4 ≤ 2048) && decide (x.cf 5 < 2)
  firstFault x (cfeTrigger x (some d) false false ++
    [(!fieldsOk, Cause.engineError.flt),
     (decide (x.cf 3 < ewWidth (x.cf 1)), Cause.guardStatic.flt),
     (decide (512 < x.cf 2 * x.cf 3) || (fromV && decide (2048 < packBits x)), Cause.engineError.flt),
     (!fromV && decide (8 * x.aSize < 8 * x.cf 0 + packBits x), Cause.spaceBounds.flt),
     (fromV && decide (x.kernel.regs ≤ x.cf 0), Cause.moveIllegal.flt)])
def packTag (x : TrigCtx) : LimbTag := ⟨ewSigned (x.cf 1), x.cf 3, x.cf 2, elemBound (x.cf 1), false⟩
def cpackMeaning (d : Limb) : OpMeaning :=
  engineOp (fun _ => true) (packCheck d false) (fun x s =>
    cfeEnter x (some d) (some (packTag x))
      (cfeCmd x (.cpack noHead d) [] (blocksOf true x.sh.wg (x.cf 0) (ceilDiv (packBits x) 8)) [.limb x.sh.wg d.val]) s)
def cpackvMeaning (d : Limb) : OpMeaning :=
  { engineOp (fun _ => true) (packCheck d true) (fun x s =>
      cfeEnter x (some d) (some (packTag x))
        (cfeCmd x (.cpackv noHead d) (collect x.sh [x.cf 0]) [] [.limb x.sh.wg d.val]) s) with
    vregs := fun x => [x.cf 0] }

/-! ## Extraction (R173, R244, R387) -/

/-- What an extraction captures of its limb: stride, sign, D and B of the tag, or STRIDE and EW where there is none. -/
def extTag (x : TrigCtx) : LimbTag :=
  match x.tag (cfeA x.tv) with
  | some t => t
  | none => ⟨ewSigned (x.cf 1), x.cf 3, 0, 0, false⟩

def extCheck (toV : Bool) (x : TrigCtx) : List (Nat × Flt) :=
  let untagged := (x.tag (cfeA x.tv)).isNone
  let fieldsOk := decide (x.cf 0 < (if toV then 128 else 2 ^ 17)) && decide (x.cf 7 < 4) &&
    decide (outBytes (x.cf 7) ≤ x.cf 8 ∧ x.cf 8 < 256) && decide (x.cf 9 < 1024) &&
    decide (1 ≤ x.cf 10 ∧ x.cf 10 ≤ (if toV then Nat.min 512 x.sh.width else 512)) &&
    (!untagged || (strideOk (x.cf 3) && ewOk (x.cf 1)))
  firstFault x (cfeTrigger x none true false ++
    [(!fieldsOk, Cause.engineError.flt),
     (decide (1024 / (extTag x).s < x.cf 9 + x.cf 10), Cause.engineError.flt),
     (!toV && decide (x.aSize < x.cf 0 + (x.cf 10 - 1) * x.cf 8 + outBytes (x.cf 7)), Cause.spaceBounds.flt),
     (toV && decide (x.kernel.regs ≤ x.cf 0), Cause.moveIllegal.flt)])
/-- The blocks that an extraction writes: those of its elements. -/
def extBlocks (wg src step size num : Nat) : List Res :=
  ((List.range num).flatMap (fun q => blocksOf true wg (src + q * step) size)).dedup
def cextMeaning : OpMeaning :=
  engineOp (fun _ => true) (extCheck false) (fun x s =>
    cfeEnter x none none
      (cfeCmd x (.cext noHead) (tagWords (extTag x)) [.limb x.sh.wg (cfeA x.tv)]
        (extBlocks x.sh.wg (x.cf 0) (x.cf 8) (outBytes (x.cf 7)) (x.cf 10))) s)
def cextvMeaning : OpMeaning :=
  engineOp (fun _ => true) (extCheck true) (fun x s =>
    cfeEnter x none none
      (cfeCmd x (.cextv noHead) (tagWords (extTag x)) [.limb x.sh.wg (cfeA x.tv)] [.vreg x.sid (x.cf 0)]) s)

/-! ## CGW (R245, R388) -/

/-- The smallest width for a bound (R174), from `w` on. -/
def widthFrom : Nat → Nat → Bool → Nat → Nat
  | 0, w, _, _ => w
  | n + 1, w, sgn, b => if b ≤ (if sgn then 2 ^ (w - 1) - 1 else 2 ^ w - 1) then w else widthFrom n (w + 1) sgn b
def neededWidth (sgn : Bool) (b : Nat) : Nat := widthFrom 100 (if sgn then 1 else 0) sgn b
/-- The stride that CGW delivers. -/
def safeStride (ew cnt bound : Nat) : Nat :=
  let b := if bound ≠ 0 then bound else cnt * elemBound ew ^ 2
  let r := Nat.max (Nat.max (neededWidth (ewSigned ew) b) (ewWidth ew)) 2
  if r ≤ 64 ∧ cnt * r ≤ 512 then r else 0
def cgwMeaning : OpMeaning :=
  engineOp (fun _ => true)
    (fun x => firstFault x (cfeTrigger x none false false ++
      [(!ewOk (x.cf 1) || !cntOk (x.cf 2), Cause.engineError.flt)]))
    (fun x s => cfeEnter x none none
      { cfeCmd x (.cgw noHead) [] [] [] with value := w64 (safeStride (x.cf 1) (x.cf 2) (x.cf 6)) } s)

/-! ## What the commands compute -/

def Workgroup.limb (w : Workgroup) (k : Nat) : Int := signed 1024 (getD w.limbs 0 k).toNat
def limbOf (v : Int) : BitVec 1024 := BitVec.ofInt 1024 v

/-- The packed value of elements at a bit step in a bit string (R171). -/
def packValue (str ew cnt stride estep rev : Nat) : Int :=
  (List.range cnt).foldl (fun (a : Int) i =>
    let e := bits str (estep * i) (ewWidth ew)
    let v : Int := if ewSigned ew then signed (ewWidth ew) e else e
    a + v * (2 ^ (stride * (if rev = 1 then cnt - 1 - i else i)) : Nat)) 0

/-- Coefficients 0 to `n - 1` of a value (R173). -/
def coefficients (s : Nat) (sgn : Bool) : Nat → Int → List Int
  | 0, _ => []
  | n + 1, v =>
    let f := (v % (2 ^ s : Nat)).toNat
    let c : Int := if sgn then signed s f else f
    c :: coefficients s sgn n ((v - c) / (2 ^ s : Nat))

/-- A coefficient as it is written (R244). -/
def coefOut (outfmt : Nat) (c : Int) : Int :=
  match outfmt with
  | 0 => c
  | 1 => max (-(2 ^ 31 : Int)) (min c (2 ^ 31 - 1))
  | 2 => max (-(2 ^ 15 : Int)) (min c (2 ^ 15 - 1))
  | _ => ((deliverVal .f32 .rne false (ofInt c)).1 : Nat)

/-- The write of element `q` of an extraction. -/
def extWrite (c : Cmd) (q : Nat) (v : Int) : CmdWrite :=
  match c.op with
  | .cextv _ => .vreg c.sid (tkey (c.f 0) q) (w64i (coefOut (c.f 7) v))
  | _ => .abuf c.wg (c.f 0 + q * c.f 8)
      (leBytes (outBytes (c.f 7)) (coefOut (c.f 7) v % (2 ^ (8 * outBytes (c.f 7)) : Nat)).toNat)

/-- Whether a coefficient is beyond the check bound (R244). -/
def coefBad (c : Cmd) (v : Int) : Bool :=
  let sgn := c.regs.getD 1 0 == 1
  let b := if c.f 6 ≠ 0 then some (c.f 6) else if c.regs.getD 2 0 == 1 then some (c.regs.getD 3 0).toNat else none
  match b with
  | none => false
  | some b => decide ((b : Int) < (if sgn then (v.natAbs : Int) else v))

/-- What an extraction writes from element `at_` on, up to the first coefficient beyond its bound; that coefficient's
element, if the check stops there; whether one was let through under GSOFT. -/
def extOuts (s : State) (c : Cmd) : List CmdWrite × Option Nat × Bool :=
  match s.wg? c.wg with
  | none => ([], none, false)
  | some w =>
    let str := (c.regs.getD 0 0).toNat
    let all := coefficients str (c.regs.getD 1 0 == 1) (c.f 9 + c.f 10) (w.limb (cfeA c.trig))
    let soft := match s.sheet? c.sid with
      | some sh => sh.cfeSoft
      | none => false
    let todo := (List.range (c.f 10)).filter (fun q => c.at_ ≤ q)
    let val (q : Nat) : Int := all.getD (c.f 9 + q) 0
    match (if soft then none else todo.find? (fun q => coefBad c (val q))) with
    | some q => ((todo.filter (fun k => decide (k < q))).map (fun k => extWrite c k (val k)), some q, false)
    | none => (todo.map (fun k => extWrite c k (val k)), none, soft && todo.any (fun q => coefBad c (val q)))

/-- What a CFE command writes to its limb when it completes (R240, R242, R246). -/
def limbOuts (s : State) (c : Cmd) : List CmdWrite :=
  match s.wg? c.wg with
  | none => []
  | some w =>
    let a := w.limb (cfeA c.trig)
    let b := w.limb (cfeB c.trig)
    let out (d : Limb) (v : Int) : List CmdWrite := [.limb c.wg d.val (limbOf v)]
    match c.op with
    | .cmul _ d => out d (a * b)
    | .cmac _ d => out d (w.limb d.val + a * b)
    | .csqr _ d => out d (a * a)
    | .cadd _ d => out d (a + b)
    | .csub _ d => out d (a - b)
    | .cshl _ d => out d (a * (2 ^ ((c.regs.getD 0 0).toNat * c.x0.toNat) : Nat))
    | .cclr _ d => out d 0
    | .cbig _ d => out d ((a % (2 ^ 512 : Nat)) * (b % (2 ^ 512 : Nat)))
    | .cpack _ d =>
      let n := ceilDiv (c.f 4 * (c.f 2 - 1) + ewWidth (c.f 1)) 8
      out d (packValue (leNat (w.readBuf true (c.f 0) n)) (c.f 1) (c.f 2) (c.f 3) (c.f 4) (c.f 5))
    | .cpackv _ d =>
      let str := leNat (c.regs.flatMap (fun v => leBytes 8 v.toNat))
      out d (packValue str (c.f 1) (c.f 2) (c.f 3) (c.f 4) (c.f 5))
    | _ => []

/-! ## The steps -/

/-- CPACK (R390). -/
def execCpack (h : Head) (d : Limb) (s : State) : Host.Outcome State Fault Refusal :=
  runOp (.cpack h d) (cpackMeaning d) s

/-- CPACKV (R390). -/
def execCpackv (h : Head) (d : Limb) (s : State) : Host.Outcome State Fault Refusal :=
  runOp (.cpackv h d) (cpackvMeaning d) s

/-- CMUL (R385). -/
def execCmul (h : Head) (d : Limb) (s : State) : Host.Outcome State Fault Refusal :=
  runOp (.cmul h d) (cmulMeaning d) s

/-- CMAC (R385). -/
def execCmac (h : Head) (d : Limb) (s : State) : Host.Outcome State Fault Refusal :=
  runOp (.cmac h d) (cmacMeaning d) s

/-- CSQR (R385). -/
def execCsqr (h : Head) (d : Limb) (s : State) : Host.Outcome State Fault Refusal :=
  runOp (.csqr h d) (csqrMeaning d) s

/-- CADD (R384). -/
def execCadd (h : Head) (d : Limb) (s : State) : Host.Outcome State Fault Refusal :=
  runOp (.cadd h d) (caddMeaning d) s

/-- CSUB (R384). -/
def execCsub (h : Head) (d : Limb) (s : State) : Host.Outcome State Fault Refusal :=
  runOp (.csub h d) (csubMeaning d) s

/-- CSHL (R384). -/
def execCshl (h : Head) (d : Limb) (s : State) : Host.Outcome State Fault Refusal :=
  runOp (.cshl h d) (cshlMeaning d) s

/-- CEXT (R387). -/
def execCext (h : Head) (s : State) : Host.Outcome State Fault Refusal :=
  runOp (.cext h) (cextMeaning) s

/-- CEXTV (R387). -/
def execCextv (h : Head) (s : State) : Host.Outcome State Fault Refusal :=
  runOp (.cextv h) (cextvMeaning) s

/-- CGW (R388). -/
def execCgw (h : Head) (s : State) : Host.Outcome State Fault Refusal :=
  runOp (.cgw h) (cgwMeaning) s

/-- CCLR (R384). -/
def execCclr (h : Head) (d : Limb) (s : State) : Host.Outcome State Fault Refusal :=
  runOp (.cclr h d) (cclrMeaning d) s

/-- CBIG (R385). -/
def execCbig (h : Head) (d : Limb) (s : State) : Host.Outcome State Fault Refusal :=
  runOp (.cbig h d) (cbigMeaning d) s


end Sys2Proof.Machine
end

