-- ==== Sys2Proof/Machine/Cpy.lean ====
section
/-! DEFINITION. The CPY catalogue (05 R131; 09 R248 to R252; 16 R396 to R402): triggers, and what the copies move. -/

namespace Sys2Proof.Machine

/-! ## Trigger values and shape fields (R131, R132, R248) -/

def cpyPair (v : W64) : Nat := v.toNat % 2
def cpySwap (v : W64) : Bool := bitAt v.toNat 1
/-- The 32 fields of the selected pair as captured. -/
def TrigCtx.pair (x : TrigCtx) : List (BitVec 32) :=
  x.shape 2 (2 * cpyPair x.tv) (cpySwap x.tv) ++ x.shape 2 (2 * cpyPair x.tv + 1) (cpySwap x.tv)

/-- The four copies. -/
inductive CopyKind where
  | copy | fill | gath | scat
  deriving DecidableEq, Repr

/-- A copy's fields (R248), and the formats between which it converts, as its trigger found them (R180, R182). -/
structure CopyShape where
  kind : CopyKind
  scope : Scope
  f : List (BitVec 32)
  conv : Option (Nat × Nat)
  deriving DecidableEq, Repr

def CopyShape.w (c : CopyShape) (n : Nat) : Nat := (c.f.getD n 0).toNat
def CopyShape.src (c : CopyShape) : Nat := c.w 0 + 2 ^ 32 * c.w 1
def CopyShape.dst (c : CopyShape) : Nat := c.w 2 + 2 ^ 32 * c.w 3
def spaceOf (n : Nat) : Space := if n = 0 then .g else if n = 1 then .a else if n = 2 then .w else .pa
def CopyShape.srcSpace (c : CopyShape) : Space := spaceOf (c.w 4 % 4)
def CopyShape.dstSpace (c : CopyShape) : Space := spaceOf (c.w 4 / 4 % 4)
/-- ESIZE: above 7 it breaks its map like 7 (R248). -/
def CopyShape.esize (c : CopyShape) : Nat := Nat.min (c.w 5) 7
def CopyShape.counts (c : CopyShape) : List Nat := (List.range 6).map (fun k => c.w (6 + k))
def CopyShape.sstr (c : CopyShape) (k : Nat) : Int := signed 32 (c.w (12 + k))
def CopyShape.dstr (c : CopyShape) (k : Nat) : Int := signed 32 (c.w (18 + k))
def CopyShape.bobj (c : CopyShape) : Nat := c.w 24
def CopyShape.fillVal (c : CopyShape) : Nat := c.w 25 + 2 ^ 32 * c.w 26
def CopyShape.idx (c : CopyShape) : Nat := c.w 27 + 2 ^ 32 * c.w 28
def CopyShape.idxBytes (c : CopyShape) : Nat := if c.w 29 = 0 then 4 else 8
/-- Elements moved: the product of the counts. -/
def CopyShape.total (c : CopyShape) : Nat := c.counts.foldl (· * ·) 1
def CopyShape.readsSrc (c : CopyShape) : Bool := c.kind != .fill
def CopyShape.indexed (c : CopyShape) : Bool := c.kind == .gath || c.kind == .scat

/-- Loop indices of a linear index, i0 first (R249). -/
def unravel : List Nat → Nat → List Nat
  | [], _ => []
  | n :: r, k => k % max n 1 :: unravel r (k / max n 1)

/-! ## Formats (R182) -/

def bufferSpace (s : Space) : Bool := s == .a || s == .w
/-- The format of the bank at an offset of a buffer. -/
def fmtAt (w : Workgroup) (s : Space) (off : Nat) : Nat := bankFmt w (s == .a) (off / 16384)
/-- The formats between which a copy triggered now converts, where it does. DESIGN CHOICE (log 87): the indexed side of a gather or
scatter has the format of the bank at its base. -/
def convOf (c : CopyShape) (w : Workgroup) : Option (Nat × Nat) :=
  if c.readsSrc && bufferSpace c.srcSpace && bufferSpace c.dstSpace then
    let a := fmtAt w c.srcSpace c.src
    let b := fmtAt w c.dstSpace c.dst
    if a ≠ 0 ∧ b ≠ 0 ∧ a ≠ b then some (a, b) else none
  else none
/-- Bits of a source and of a destination element. -/
def CopyShape.srcBits (c : CopyShape) : Nat := match c.conv with
  | some (a, _) => fmtBits a
  | none => 8 * 2 ^ c.esize
def CopyShape.dstBits (c : CopyShape) : Nat := match c.conv with
  | some (_, b) => fmtBits b
  | none => 8 * 2 ^ c.esize

/-- A copy as its trigger captures it. -/
def copyOf (k : CopyKind) (scope : Scope) (f : List (BitVec 32)) (w : Workgroup) : CopyShape :=
  let c : CopyShape := ⟨k, scope, f, none⟩
  { c with conv := convOf c w }
/-- The formats as a command keeps them. -/
def CopyShape.fmtWords (c : CopyShape) : List W64 := match c.conv with
  | some (a, b) => [w64 a, w64 b]
  | none => []
/-- The copy of a command's captured fields and formats. -/
def copyFrom (k : CopyKind) (scope : Scope) (f : List (BitVec 32)) (fmts : List W64) : CopyShape :=
  ⟨k, scope, f, if fmts.isEmpty then none else some ((fmts.getD 0 0).toNat, (fmts.getD 1 0).toNat)⟩

/-! ## Checks at the trigger (R250, R399) -/

/-- The least and the greatest element offset that the loops reach. -/
def extremes (counts : List Nat) (str : Nat → Int) : Int × Int :=
  (counts.zipIdx).foldl (fun (r : Int × Int) (n, k) =>
    let d := ((n : Int) - 1) * str k
    (r.1 + min 0 d, r.2 + max 0 d)) (0, 0)
/-- First and last bit of a region from byte address `a`. -/
def regionBits (a bitsz : Nat) (e : Int × Int) : Int × Int :=
  (8 * (a : Int) + e.1 * (bitsz : Int), 8 * (a : Int) + e.2 * (bitsz : Int) + (bitsz : Int) - 1)
def CopyShape.srcRegion (c : CopyShape) : Int × Int :=
  regionBits c.src c.srcBits (extremes c.counts c.sstr)
/-- The destination's base within its space: a peer address names its rank above bit 16. -/
def CopyShape.dstBase (c : CopyShape) : Nat := if c.dstSpace = .pa then c.dst % 2 ^ 17 else c.dst
def CopyShape.dstRegion (c : CopyShape) : Int × Int :=
  regionBits c.dstBase c.dstBits (extremes c.counts c.dstr)
def spaceSize (w : Workgroup) (s : Space) : Nat := if s = .w then w.wSize else w.aSize
def regionOut (size : Nat) (r : Int × Int) : Bool := decide (r.1 < 0 ∨ 8 * (size : Int) ≤ r.2)

/-- Whether a region spans banks of different formats (R182). -/
def crosses (w : Workgroup) (s : Space) (r : Int × Int) : Bool :=
  let lo := r.1.toNat / 8 / 16384
  let hi := r.2.toNat / 8 / 16384
  (List.range (hi + 1 - lo)).any (fun k => bankFmt w (s == .a) (lo + k) != bankFmt w (s == .a) lo)

/-- Step 1 of R399. -/
def copyOut (x : TrigCtx) (w : Workgroup) (c : CopyShape) : Bool :=
  (c.readsSrc && c.srcSpace == .pa) ||
  (c.dstSpace == .pa && (reachPeer x.s x.sh c.dst 0).isNone) ||
  (c.total != 0 &&
    ((c.readsSrc && c.kind != .gath && bufferSpace c.srcSpace && regionOut (spaceSize w c.srcSpace) c.srcRegion) ||
     (c.kind != .scat && c.dstSpace != .g && regionOut (spaceSize w c.dstSpace) c.dstRegion)))
/-- Whether the destination region of a copy to a peer's A buffer crosses formats there (R182). DEDUCED (log 90): the banks are those of
the peer. -/
def peerCrosses (x : TrigCtx) (c : CopyShape) : Bool :=
  match (reachPeer x.s x.sh c.dst 0).bind (fun p => x.s.wg? p.1) with
  | some d => crosses d .a c.dstRegion
  | none => false
/-- Step 2 of R399: fields that break R248, and regions that cross formats. DESIGN CHOICE (log 87): of the indexed side of a gather
or scatter, whose places are not known at the trigger, nothing is checked. -/
def copyBad (x : TrigCtx) (w : Workgroup) (c : CopyShape) : Bool :=
  decide (16 ≤ c.w 4) || (c.conv.isNone && decide (4 < c.esize)) || bits c.bobj 21 10 != 0 || c.bobj % 16 != 0 ||
  (c.indexed && (decide (1 < c.w 29) || c.idx % c.idxBytes != 0)) ||
  (c.total != 0 &&
    ((c.readsSrc && c.kind != .gath && bufferSpace c.srcSpace && crosses w c.srcSpace c.srcRegion) ||
     (c.kind != .scat && bufferSpace c.dstSpace && crosses w c.dstSpace c.dstRegion) ||
     (c.kind != .scat && c.dstSpace == .pa && peerCrosses x c)))

/-- Cause of an unassigned encoding (R136). -/
def unassigned (k : Kernel) : Cause := if k.minor = 0 then .opUnassigned else .opAbsent
/-- `.ch1` is unassigned in split mode (R131). -/
def ch1Bad (x : TrigCtx) (opc mod : Nat) (ch1 : Bool) : List (Bool × Flt) :=
  [(ch1 && (x.s.core x.core).split, ⟨unassigned x.kernel, FUnit.num x.unit + 16 * opc + 2 ^ 11 * mod, 0⟩),
   (decide (4 ≤ x.tv.toNat), Cause.moveIllegal.flt)]

def Scope.num : Scope → Nat
  | .wg => 0 | .cl => 1 | .dev => 2 | .sys => 3
def CopyKind.opc : CopyKind → Nat
  | .copy => 1 | .fill => 2 | .gath => 3 | .scat => 4

def copyCheck (k : CopyKind) (m : CpyMod) (x : TrigCtx) : List (Nat × Flt) :=
  match x.wgp with
  | none => []
  | some w =>
    let c := copyOf k m.scope x.pair w
    let raw := c.conv.isNone
    let z := 2 ^ c.esize
    firstFault x (ch1Bad x k.opc (Scope.num m.scope + 4 * ofBool m.ch1) m.ch1 ++
      [(copyOut x w c, Cause.spaceBounds.flt), (copyBad x w c, Cause.engineError.flt),
       (raw && c.readsSrc && c.src % z != 0, ⟨.alignment, 0, w64 c.src⟩),
       (raw && c.dst % z != 0, ⟨.alignment, 0, w64 c.dst⟩)])

/-! ## Read and write sets (R397) -/

/-- The blocks that the elements of a region touch. -/
def elemBlocks (c : CopyShape) (isA : Bool) (wg base bitsz : Nat) (str : Nat → Int) : List Res :=
  ((List.range c.total).flatMap (fun k =>
    let e := ((unravel c.counts k).zipIdx).foldl (fun (a : Int) (i, j) => a + (i : Int) * str j) 0
    let p := (8 * (base : Int) + e * (bitsz : Int)).toNat
    blocksOf isA wg (p / 8) ((p + bitsz - 1) / 8 - p / 8 + 1))).dedup
def copyReads (x : TrigCtx) (w : Workgroup) (c : CopyShape) : List Res :=
  if c.readsSrc && bufferSpace c.srcSpace then
    if c.kind = .gath then blocksOf (c.srcSpace == .a) x.sh.wg 0 (spaceSize w c.srcSpace)
    else elemBlocks c (c.srcSpace == .a) x.sh.wg c.src c.srcBits c.sstr
  else []
/-- The workgroup whose buffer a copy writes. -/
def copyDstWg (s : State) (sh : Sheet) (c : CopyShape) : Nat :=
  if c.dstSpace = .pa then ((reachPeer s sh c.dst 0).map (·.1)).getD noWg else sh.wg
def copyWrites (x : TrigCtx) (w : Workgroup) (c : CopyShape) : List Res :=
  if c.dstSpace = .g then []
  else
    let wg := copyDstWg x.s x.sh c
    if c.kind = .scat then blocksOf (c.dstSpace != .w) wg 0 (spaceSize w c.dstSpace)
    else elemBlocks c (c.dstSpace != .w) wg c.dstBase c.dstBits c.dstr

/-- A copy trigger (R397): swap, the command, and the release at its scope, after which the command may issue (R217). -/
def copyMeaning (k : CopyKind) (op : Instr) (m : CpyMod) : OpMeaning :=
  engineOp (fun _ => true) (copyCheck k m) (fun x s =>
    match x.wgp with
    | none => s
    | some w =>
      let c := copyOf k m.scope x.pair w
      let s := if cpySwap x.tv then s.mapSheet x.sid (fun sh =>
          (sh.swapShape 2 (2 * cpyPair x.tv)).swapShape 2 (2 * cpyPair x.tv + 1)) else s
      let num := (s.core x.core).nextCmd
      let s := enterCmd s x.sid (x.cmd op x.pair [] c.fmtWords 0 (copyReads x w c) (copyWrites x w c))
      pushOrder s x.sid none (some m.scope) false false false (.trigger num))

def dcopyMeaning (m : CpyMod) : OpMeaning := copyMeaning .copy (.dcopy noHead m) m
def dfillMeaning (m : CpyMod) : OpMeaning := copyMeaning .fill (.dfill noHead m) m
def dgathMeaning (m : CpyMod) : OpMeaning := copyMeaning .gath (.dgath noHead m) m
def dscatMeaning (m : CpyMod) : OpMeaning := copyMeaning .scat (.dscat noHead m) m

/-! ## What a copy reads and writes (R249) -/

/-- The copy that a command is. -/
def Cmd.copy? (c : Cmd) : Option CopyShape :=
  match c.op with
  | .dcopy _ m => some (copyFrom .copy m.scope c.shape c.fmts)
  | .dfill _ m => some (copyFrom .fill m.scope c.shape c.fmts)
  | .dgath _ m => some (copyFrom .gath m.scope c.shape c.fmts)
  | .dscat _ m => some (copyFrom .scat m.scope c.shape c.fmts)
  | _ => none

/-- Channel of a command: `.ch1`, or the half-core's own. -/
def Cmd.channel (c : Cmd) (col : Nat) : Nat :=
  match c.op with
  | .dcopy _ m => if m.ch1 then 1 else col
  | .dfill _ m => if m.ch1 then 1 else col
  | .dgath _ m => if m.ch1 then 1 else col
  | .dscat _ m => if m.ch1 then 1 else col
  | _ => col

/-- A code of one bank format as a code of another (R154 to R157). -/
def convertCode (a b x : Nat) : Nat :=
  match fmtFloat a, fmtFloat b with
  | some f, some g => if g.ieee then (fpConv g .rne false (unpack f false x)).1 else (toNarrowCode g false f x).1
  | some f, none => ((toInt (fmtBits b) .rne (unpack f false x)).1 % (2 ^ fmtBits b : Nat)).toNat
  | none, some g =>
    let v := ofInt (signed (fmtBits a) x)
    if g.ieee then (deliverVal g .rne false v).1 else (toNarrow g false v).1
  | none, none =>
    let v := signed (fmtBits a) x
    let top : Int := (2 ^ (fmtBits b - 1) : Nat)
    (max (-top) (min v (top - 1)) % (2 ^ fmtBits b : Nat)).toNat

/-- Where a copy runs: who asks at the homes, the half of its core, virtual function, the workgroups whose buffers it reads and
writes, and the sizes of its buffers. -/
structure CopyEnv where
  x : Asker
  half : Nat
  vf : Nat
  wg : Nat
  dwg : Nat
  w : Workgroup

/-- A copy under way: the state with its reads made, the destination bytes put so far, the sectors and pages of global memory that
it has reached, and the sectors that have crossed its core's port. -/
structure CopyRun where
  s : State
  put : SMap Byte
  got : List Nat
  pages : List Nat
  cost : Nat

/-- A copy looks up the pages of `n` bytes of global memory, each page once (R305). -/
def copyLook (e : CopyEnv) (space : Space) (a : Int) (n : Nat) (r : CopyRun) : CopyRun :=
  if space = .g then
    let new := ((pageCuts 2 (a % (2 ^ 64 : Nat)).toNat n).map (fun p => p.1 / 4096)).filter (fun v => !r.pages.contains v)
    { r with s := new.foldl (fun s v => lookPage s e.vf e.x.core e.x.sid e.x.slot (v * 4096)) r.s, pages := r.pages ++ new }
  else r

/-- The places of `n` bytes of a copy's space: offsets of a buffer, or physical addresses with their mapping type. -/
def copyPlaces (s : State) (core vf : Nat) (space : Space) (size : Nat) (acc : AccKindT) (a : Int) (n : Nat) :
    Except Flt (List Nat × Nat) :=
  match space with
  | .g =>
    let va := (a % (2 ^ 64 : Nat)).toNat
    if 2 ^ 48 ≤ va then .error ⟨.translation, trInfo acc 5 1, w64 va⟩
    else
      match translateRun s core vf acc (pageCuts 2 va n) with
      | .error f => .error f
      | .ok (ps, mt) =>
        if acc = .engine ∧ poisonOf s ps ≠ [] then .error ⟨.uncorrectable, 0, w64 va⟩
        else .ok (ps.flatMap (fun (p, k) => (List.range k).map (p + ·)), mt)
  | _ =>
    if a < 0 ∨ (size : Int) < a + n then .error Cause.engineError.flt
    else .ok ((List.range n).map (a.toNat + ·), 0)

/-- Bytes of global memory as a copy reads them (R217): at workgroup scope through its core's L1, otherwise at their home, each
sector once. -/
def copyRead (c : CopyShape) (e : CopyEnv) (mt : Nat) (r : CopyRun) (ps : List Nat) : List Byte × CopyRun :=
  if c.scope = .wg ∧ mt ≠ 2 then
    let n := (fillsOf r.s e.x.core e.half (ps.map (· / 4)).dedup).length
    let (bs, s) := l1Read r.s e.half e.x ps
    (bs, { r with s := s, cost := r.cost + n })
  else
    let new := (ps.map (· / 32)).dedup.filter (fun q => !r.got.contains q)
    let s := if mt = 2 then r.s else new.foldl (fun s q => engineRead s e.x (32 * q) 32) r.s
    (ps.map s.readByte, { r with s := s, got := r.got ++ new, cost := r.cost + new.length })

/-- One source byte (R217, R249): where the copy itself writes it, the old byte or the new one. -/
def copyByte (c : CopyShape) (e : CopyEnv) (mt : Nat) (r : CopyRun) (p k : Nat) : Byte × CopyRun :=
  let (old, r) : Byte × CopyRun :=
    if c.srcSpace = .g then
      let (b, r) := copyRead c e mt r [p]
      (b.getD 0 0, r)
    else (((r.s.wg? e.wg).map (fun w => (w.readBuf (c.srcSpace == .a) p 1).getD 0 0)).getD 0, r)
  match lookup r.put p with
  | some new => if c.srcSpace = c.dstSpace ∧ r.s.free k % 2 = 1 then (new, r) else (old, r)
  | none => (old, r)

def copyBytes (c : CopyShape) (e : CopyEnv) (mt k : Nat) : List Nat → CopyRun → List Byte × CopyRun
  | [], r => ([], r)
  | p :: ps, r =>
    let (b, r) := copyByte c e mt r p k
    let (bs, r) := copyBytes c e mt (k + 1) ps r
    (b :: bs, r)

/-- The byte that stands at a destination place. -/
def dstByte (s : State) (space : Space) (wg p : Nat) (put : SMap Byte) : Byte :=
  match lookup put p with
  | some b => b
  | none => match space with
    | .g => s.readByte p
    | sp => match s.wg? wg with
      | some w => (w.readBuf (sp != .w) p 1).getD 0 0
      | none => 0

/-- Signed index IDX[q], read in global memory at the copy's scope (R250, R398). -/
def copyIndex (c : CopyShape) (e : CopyEnv) (q : Nat) (r : CopyRun) : Except Flt (Int × CopyRun) :=
  if !c.indexed then .ok (0, r)
  else
    let n := c.idxBytes
    let at_ : Int := ((c.idx + q * n : Nat) : Int)
    let r := copyLook e .g at_ n r
    match copyPlaces r.s e.x.core e.vf .g 0 .engine at_ n with
    | .error f => .error f
    | .ok (ps, mt) =>
      let (bs, r) := copyRead c e mt r ps
      .ok (signed (8 * n) (leNat bs), r)

/-- The value of a source element of `sb` bits at bit `sp`, or of DFILL. DESIGN CHOICE (log 73): the upper 8 bytes of a
16-byte element of DFILL, whose FILL has 8, are 0. -/
def copyValue (c : CopyShape) (e : CopyEnv) (k : Nat) (sp : Int) (r : CopyRun) : Except Flt (Nat × CopyRun) :=
  let sb := c.srcBits
  if !c.readsSrc then .ok (c.fillVal % 2 ^ c.dstBits, r)
  else
    let n := ((sp + sb - 1) / 8 - sp / 8 + 1).toNat
    let r := copyLook e c.srcSpace (sp / 8) n r
    match copyPlaces r.s e.x.core e.vf c.srcSpace (spaceSize e.w c.srcSpace) .engine (sp / 8) n with
    | .error f => .error f
    | .ok (ps, mt) =>
      let (bs, r) := copyBytes c e mt (k * 64) ps r
      .ok (leNat bs / 2 ^ (sp % 8).toNat % 2 ^ sb, r)

/-- Element `k` of a copy by a workgroup's command (R249). -/
def copyElem (c : CopyShape) (e : CopyEnv) (k : Nat) (r : CopyRun) : Except Flt CopyRun :=
  let ix := unravel c.counts k
  let i (n : Nat) : Int := ((ix.getD n 0 : Nat) : Int)
  let q := (ix.getD 1 0) + c.w 7 * ((ix.getD 2 0) + c.w 8 * ((ix.getD 3 0) + c.w 9 * ((ix.getD 4 0) + c.w 10 * (ix.getD 5 0))))
  let lin (str : Nat → Int) : Int := (List.range 6).foldl (fun a n => a + i n * str n) 0
  match copyIndex c e q r with
  | .error f => .error f
  | .ok (x, r) =>
    let se := if c.kind = .gath then i 0 * c.sstr 0 + x * c.sstr 1 else lin c.sstr
    let de := if c.kind = .scat then i 0 * c.dstr 0 + x * c.dstr 1 else lin c.dstr
    let db := c.dstBits
    let dp := 8 * (c.dstBase : Int) + de * (db : Int)
    let dn := ((dp + db - 1) / 8 - dp / 8 + 1).toNat
    match copyValue c e k (8 * (c.src : Int) + se * (c.srcBits : Int)) r with
    | .error f => .error f
    | .ok (v, r) =>
      let v := match c.conv with
        | some (a, b) => convertCode a b v
        | none => v
      let r := copyLook e c.dstSpace (dp / 8) dn r
      match copyPlaces r.s e.x.core e.vf c.dstSpace (spaceSize e.w c.dstSpace) .engineStore (dp / 8) dn with
      | .error f => .error f
      | .ok (ps, _) =>
        let old := leNat (ps.map (fun p => dstByte r.s c.dstSpace e.dwg p r.put))
        let lo := (dp % 8).toNat
        let new := old - bits old lo db * 2 ^ lo + v * 2 ^ lo
        .ok { r with put := (ps.zip (leBytes dn new)).foldl (fun m (p, b) => put m p b) r.put }

/-- All elements of a copy, in linear order: the last write of a place stands (R249). -/
def copyAll (c : CopyShape) (e : CopyEnv) : List Nat → CopyRun → Except Flt CopyRun
  | [], r => .ok r
  | k :: ks, r =>
    match copyElem c e k r with
    | .error f => .error f
    | .ok r => copyAll c e ks r

/-- Bytes by place as runs of consecutive places. -/
def runsOf : SMap Byte → List (Nat × List Byte)
  | [] => []
  | (p, b) :: r =>
    match runsOf r with
    | (q, bs) :: t => if q = p + 1 then (p, b :: bs) :: t else (p, [b]) :: (q, bs) :: t
    | [] => [(p, [b])]
/-- A write of a run in a copy's destination. -/
def runWrite (c : CopyShape) (dwg : Nat) (p : Nat) (bs : List Byte) : CmdWrite :=
  match c.dstSpace with
  | .g => .glob p bs
  | .w => .wbuf dwg p bs
  | _ => .abuf dwg p bs
/-- Runs of consecutive places as writes. -/
def putWrites (c : CopyShape) (dwg : Nat) (m : SMap Byte) : List CmdWrite := (runsOf m).map (fun (p, bs) => runWrite c dwg p bs)

/-- Where a command's copy runs. -/
def copyEnv (s : State) (core : Nat) (c : Cmd) (cs : CopyShape) (sh : Sheet) (w : Workgroup) : CopyEnv :=
  ⟨⟨s.partOf sh, core, c.sid, c.slot⟩, s.colOf c.sid, s.vfOf sh, c.wg, copyDstWg s sh cs, w⟩

/-- What a copy command writes, the state after its reads and the sectors that these move over its core's port; or the cause that
stops it (R225, R250). -/
def copyOuts (s : State) (core : Nat) (c : Cmd) (cs : CopyShape) : Except Flt (List CmdWrite × State × Nat) :=
  match s.wg? c.wg, s.sheet? c.sid with
  | some w, some sh =>
    let e := copyEnv s core c cs sh w
    match copyAll cs e (List.range cs.total) ⟨s, [], [], [], 0⟩ with
    | .error f => .error f
    | .ok r => .ok (putWrites cs e.dwg r.put, r.s, r.cost)
  | _, _ => .ok ([], s, 0)

/-- The elements of a list that a copy writes, at most `stop` of them and up to the first with a cause, and their number. -/
def copySome (c : CopyShape) (e : CopyEnv) (stop : Nat) : List Nat → CopyRun → Nat → CopyRun × Nat
  | [], r, n => (r, n)
  | k :: ks, r, n =>
    match copyElem c e k r with
    | .error _ => (r, n)
    | .ok r' => if n < stop then copySome c e stop ks r' (n + 1) else (r, n)

/-- Destination bytes of a copy: the bytes of its arrival (R251). -/
def CopyShape.bytesOut (cs : CopyShape) : Nat := ceilDiv (cs.total * cs.dstBits) 8

/-- Single bytes of a write. -/
def CmdWrite.singles : CmdWrite → List CmdWrite
  | .abuf wg off bs => bs.zipIdx.map (fun (b, k) => .abuf wg (off + k) [b])
  | .wbuf wg off bs => bs.zipIdx.map (fun (b, k) => .wbuf wg (off + k) [b])
  | .glob pa bs => bs.zipIdx.map (fun (b, k) => .glob (pa + k) [b])
  | w => [w]

/-- What a command that a cause stops has written, with its bytes (R225): of a copy, whose elements are written in no fixed order,
the first ones, a free number of them (log 82); another command writes at its completion. -/
def writtenAt (s : State) (core : Nat) (c : Cmd) : List CmdWrite × Nat × State :=
  match c.copy?, s.wg? c.wg, s.sheet? c.sid with
  | some k, some w, some sh =>
    (match c.phase with
     | .started =>
       let e := copyEnv s core c k sh w
       let (r, n) := copySome k e (s.free 1003) (List.range k.total) ⟨s, [], [], [], 0⟩ 0
       (putWrites k e.dwg r.put, ceilDiv (n * k.dstBits) 8, r.s.drew)
     | .consumed =>
       let outs := (c.outs.flatMap CmdWrite.singles).take (s.free 1003)
       (outs, outs.length, s.drew)
     | _ => ([], 0, s))
  | _, _, _ => ([], 0, s)

/-! ## DSTAT (R252, R402) -/

/-- Commands of a channel that are not complete. -/
def channelCmds (s : State) (sid ch : Nat) : List Cmd :=
  (vals (s.core (coreOf sid)).cmds).filter (fun c =>
    c.copy?.isSome && c.phase != .completed && c.channel (s.colOf c.sid) == ch)
/-- The command with the least number. -/
def oldestCmd (l : List Cmd) : Option Cmd :=
  l.foldl (fun o c => match o with
    | none => some c
    | some d => if c.num < d.num then some c else some d) none
def dstatValue (s : State) (sid ch : Nat) : W64 :=
  let cs := channelCmds s sid ch
  let left := match oldestCmd cs with
    | some c => match c.copy? with
      | some k => k.bytesOut - c.wrote
      | none => 0
    | none => 0
  w64 (cs.length % 256 + 2 ^ 16 * (left % 2 ^ 48))
def dstatMeaning (ch1 : Bool) : OpMeaning :=
  engineOp (fun _ => true)
    (fun x => firstFault x (ch1Bad x 5 (4 * ofBool ch1) ch1))
    (fun x s =>
      let ch := if ch1 then 1 else s.colOf x.sid
      let s1 := if cpySwap x.tv then s.mapSheet x.sid (fun sh =>
          (sh.swapShape 2 (2 * cpyPair x.tv)).swapShape 2 (2 * cpyPair x.tv + 1)) else s
      enterCmd s1 x.sid { x.cmd (.dstat noHead ch1) x.pair [] [] 0 [] [] with value := dstatValue s x.sid ch })

/-! ## The steps -/

/-- DCOPY (R398). -/
def execDcopy (h : Head) (m : CpyMod) (s : State) : Host.Outcome State Fault Refusal :=
  runOp (.dcopy h m) (dcopyMeaning m) s

/-- DFILL (R398). -/
def execDfill (h : Head) (m : CpyMod) (s : State) : Host.Outcome State Fault Refusal :=
  runOp (.dfill h m) (dfillMeaning m) s

/-- DGATH (R398). -/
def execDgath (h : Head) (m : CpyMod) (s : State) : Host.Outcome State Fault Refusal :=
  runOp (.dgath h m) (dgathMeaning m) s

/-- DSCAT (R398). -/
def execDscat (h : Head) (m : CpyMod) (s : State) : Host.Outcome State Fault Refusal :=
  runOp (.dscat h m) (dscatMeaning m) s

/-- DSTAT (R402). -/
def execDstat (h : Head) (ch1 : Bool) (s : State) : Host.Outcome State Fault Refusal :=
  runOp (.dstat h ch1) (dstatMeaning ch1) s


end Sys2Proof.Machine
end

