-- ==== Sys2Proof/Machine/Command.lean ====
section
/-! DEFINITION. The life of an engine command after its trigger (09 R221 to R225, R244, R251 to R254): issue,
reservation, operands-consumed, completion, status landing, late causes, cancelling and resuming. -/

namespace Sys2Proof.Machine

/-- An event: a step at a unit the device has; a label that names another is no step of it. -/
def runEvent (i : Instr) (f : State → State) (s : State) : Host.Outcome State Fault Refusal :=
  if i.wf then .next (f s) else .fault .noSuchUnit

/-- The same for a label whose units are checked by a condition on their numbers. -/
def runAt (ok : Bool) (f : State → State) (s : State) : Host.Outcome State Fault Refusal :=
  if ok then .next (f s) else .fault .noSuchUnit

/-! ## Commands by entry -/

def State.cmd? (s : State) (core e : Nat) : Option Cmd := lookup (s.core core).cmds e
def State.setCmd (s : State) (core e : Nat) (c : Cmd) : State :=
  s.mapCore core (fun k => { k with cmds := put k.cmds e c })
def State.dropCmd (s : State) (core e : Nat) : State := s.mapCore core (fun k => { k with cmds := drop k.cmds e })
def State.mapCmd (s : State) (core e : Nat) (f : Cmd → Cmd) : State :=
  match s.cmd? core e with
  | some c => s.setCmd core e (f c)
  | none => s

/-! ## Resources and times (R223, R253) -/

/-- The resource of a command: 0 MXE array, 1 drain path, 2 CFE load path, 3 multipliers, 4 limb adder, 5 extract path,
6 and 7 the copy channels. -/
def Cmd.resource (c : Cmd) (col : Nat) : Option Nat :=
  match c.op with
  | .mma _ _ => some 0 | .mmab _ _ => some 0 | .mmai _ _ => some 0
  | .mxzero _ _ => some 1 | .mxdrain _ _ => some 1 | .mxred _ _ => some 1 | .mxld _ _ => some 1 | .mxst _ _ => some 1
  | .mxrel _ _ => some 1
  | .cpack _ _ => some 2 | .cpackv _ _ => some 2
  | .cmul _ _ => some 3 | .cmac _ _ => some 3 | .csqr _ _ => some 3 | .cbig _ _ => some 3
  | .cadd _ _ => some 4 | .csub _ _ => some 4 | .cshl _ _ => some 4 | .cclr _ _ => some 4
  | .cext _ => some 5 | .cextv _ => some 5
  | .cgw _ => none | .dstat _ _ => none
  | _ => some (6 + c.channel col)

/-- Current units of a reservation (R253); 0: none is requested. -/
def Cmd.units (c : Cmd) : Nat :=
  match c.op with
  | .mma _ _ => 16 | .mmai _ _ => 14 | .mmab _ _ => 12
  | .cmul _ _ => 6 | .cmac _ _ => 6 | .csqr _ _ => 6 | .cbig _ _ => 6
  | _ => 0

/-- Rows of the contribution of an MXRED. -/
def redRows (s : State) (c : Cmd) : Nat :=
  match s.sheet? c.sid with
  | some sh => match s.group (s.partOf sh) (c.f 7) with
    | some g => Group.rows g
    | none => 0
  | none => 0

/-- Cycles that `n` cycles of an engine's work take when they start a window and run in every other window of 128 (R89). -/
def inWindows (n : Nat) : Nat := n + (n - 1) / 128 * 128

/-- Cycles from the start to operands-consumed and to completion, the windows of R89 left out (R223). -/
def Cmd.plainCycles (s : State) (c : Cmd) : Nat × Nat :=
  let same (n : Nat) := (n, n)
  match c.op with
  | .mma _ _ => (128 * c.f 2, 128 * c.f 2 + 8)
  | .mmai _ _ => (128 * c.f 2, 128 * c.f 2 + 8)
  | .mmab _ _ => (256 * c.f 2, 256 * c.f 2 + 8)
  | .mxzero _ _ => same 1
  | .mxrel _ _ => same 1
  | .mxdrain _ _ => same (8 + c.f 9 * dfmtBytes (c.f 5))
  | .mxst _ _ => same (8 + 4 * c.f 9)
  | .mxld _ _ => same (8 + 4 * c.f 9)
  | .mxred _ _ => same (8 + 4 * redRows s c)
  | .cpack _ _ => same (4 + ceilDiv (ceilDiv (c.f 4 * (c.f 2 - 1) + ewWidth (c.f 1)) 8) 128)
  | .cpackv _ _ => same 4
  | .cmac _ _ => (1, 5)
  | .cmul _ _ => (1, 4)
  | .csqr _ _ => (1, 4)
  | .cbig _ _ => (1, 4)
  | .cadd _ _ => (1, 2)
  | .csub _ _ => (1, 2)
  | .cshl _ _ => (1, 2)
  | .cclr _ _ => (1, 2)
  | .cext _ => same (4 + c.f 10)
  | .cextv _ => same (4 + c.f 10)
  | .cgw _ => (0, 1)
  | .dstat _ _ => (0, 1)
  | _ => (0, 0)

/-- Whether the windows of R89 bind a command: it is one of MXE or CFE, of a half-core. -/
def Cmd.windowed (s : State) (c : Cmd) : Bool := (s.core (coreOf c.sid)).split && (c.unit == .mxe || c.unit == .cfe)

/-- Cycles from the start to operands-consumed and to completion (R223): a half-core's engine works in its own windows, and what
follows the work in the pipeline needs none (R89). -/
def Cmd.cycles (s : State) (c : Cmd) : Nat × Nat :=
  let n := c.plainCycles s
  if c.windowed s then (inWindows n.1, inWindows n.1 + (n.2 - n.1)) else n

/-- Whether a resource stays taken until completion (R223, column Resource free). -/
def Cmd.heldToEnd (c : Cmd) : Bool :=
  match c.op with
  | .mxdrain _ _ => true | .mxst _ _ => true | .mxld _ _ => true | .cpack _ _ => true | .cpackv _ _ => true
  | .cext _ => true | .cextv _ => true
  | _ => false

/-- Whether a command occupies its resource. -/
def Cmd.occupies (c : Cmd) : Bool :=
  match c.phase with
  | .queued => false
  | .completed => false
  | .requested => true
  | .started => true
  | .consumed => c.heldToEnd
  | .stopped => c.heldToEnd || c.copy?.isSome

/-! ## Issue (R215, R221, R222) -/

/-- Whether an older command of the core stands in the way (R221). -/
def dependsOn (c o : Cmd) : Bool :=
  o.phase != .completed &&
  (c.reads.any (fun r => decide (r ∈ o.writes)) || c.writes.any (fun r => decide (r ∈ o.writes)) ||
   (o.phase != .consumed && c.writes.any (fun r => decide (r ∈ o.reads))))

/-- Whether an older access of the triggering sheet to a block of the command waits in its queue (R215). -/
def olderAccess (s : State) (c : Cmd) : Bool :=
  match s.sheet? c.sid with
  | some sh => sh.queue.any (fun a => decide (a.id < c.flight) && a.blocks.any (fun r => decide (r ∈ c.reads ++ c.writes)))
  | none => false

/-- Whether the tile of an MXE command is bound to a physical tile (R232). -/
def tileBound (s : State) (c : Cmd) : Bool :=
  c.unit != .mxe || (match c.op with
    | .mxrel _ _ => true
    | _ => match s.wg? c.wg with
      | some w => (lookup w.tileBind c.tile).isSome
      | none => true)

/-- The member of an MXRED in its group. -/
def redMember (s : State) (c : Cmd) : Option Nat :=
  match s.sheet? c.sid with
  | some sh => (s.group (s.partOf sh) (c.f 7)).bind (fun g => Group.index g s.deviceNo (coreOf c.sid) (s.colOf c.sid))
  | none => none

/-- Whether an MXRED waits for an open round that holds its member's contribution (R237, R442). -/
def roundHolds (s : State) (c : Cmd) : Bool :=
  match c.op, s.sheet? c.sid with
  | .mxred _ _, some sh =>
    s.rounds.any (fun r => r.part == s.partOf sh && r.group == c.f 7 && r.roff == c.f 8 &&
      r.contribs.any (fun k => some k.m == redMember s c))
  | _, _ => false

/-- Whether the release that a copy made at its trigger is still to come (R217). -/
def awaitsRelease (s : State) (c : Cmd) : Bool :=
  match s.sheet? c.sid with
  | some sh => sh.queue.any (fun a => a.act == .trigger c.num)
  | none => false

/-- Whether a command is ready for its resource, all but the resource itself (R221). -/
def cmdReady (s : State) (core : Nat) (c : Cmd) : Bool :=
  let older := (vals (s.core core).cmds).filter (fun o => decide (o.num < c.num))
  c.phase == .queued && !older.any (dependsOn c) && !olderAccess s c && tileBound s c && !roundHolds s c &&
  !awaitsRelease s c &&
  (c.copy?.isNone || older.all (fun o => o.copy?.isNone || o.phase != .queued ||
    o.resource (s.colOf o.sid) != c.resource (s.colOf c.sid)))

/-- Whether the command of an entry may issue: its resource has room, and no older command is ready for it (R222). -/
def canIssue (s : State) (core e : Nat) : Bool :=
  match s.cmd? core e with
  | none => false
  | some c =>
    let col := s.colOf c.sid
    let same (o : Cmd) : Bool := s.colOf o.sid == col && o.resource col == c.resource col
    let taken := ((vals (s.core core).cmds).filter (fun o => o.occupies && same o)).length
    cmdReady s core c &&
    (c.resource col == none ||
      (decide (taken < (if c.resource col = some 3 then 2 else 1)) &&
       (vals (s.core core).cmds).all (fun o => decide (c.num ≤ o.num) || !same o || !cmdReady s core o)))

/-- Units that a command holds: from its start until its completion, also where a cause has stopped it (R225, R253). -/
def Cmd.heldUnits (c : Cmd) : Nat :=
  match c.phase with
  | .started => c.units
  | .consumed => c.units
  | .stopped => c.units
  | _ => 0
/-- Units held in a cluster (R253). -/
def heldUnits (s : State) (cl : Nat) : Nat :=
  sumList ((s.cores.filter (fun e => clusterOf e.1 == cl)).flatMap (fun e => (vals e.2.cmds).map Cmd.heldUnits))

/-- Units a partition's commands hold. -/
def partUnits (s : State) (part : Nat) : Nat :=
  sumList (s.allCmds.map (fun c => match s.sheet? c.sid with
    | some sh => if s.partOf sh = part then c.heldUnits else 0
    | none => 0))
/-- Sums up to now the units that a partition has held in this period (R319). -/
def tally (s : State) (part : Nat) : State :=
  let n := partUnits s part
  s.mapPart part (fun p => { p with unitNs := p.unitNs + n * (s.ts - p.unitFrom), unitFrom := s.ts })
def partOfCmd (s : State) (c : Cmd) : Nat :=
  match s.sheet? c.sid with
  | some sh => s.partOf sh
  | none => 0

/-- A request joins the arbiter's queue in order of arrival, those of one cycle by core number and table entry (R254). -/
def enterResv (q : ResvReq) : List ResvReq → List ResvReq
  | [] => [q]
  | p :: r => if q.at_ = p.at_ ∧ q.core * 32 + q.e < p.core * 32 + p.e then q :: p :: r else p :: enterResv q r

/-- Whether the head request of a cluster fits its budget and is not deferred (R254, R322). The requests of a cycle are granted
from the next one on, when all of them have come. -/
def grantable (s : State) (cl : Nat) : Bool :=
  let k := s.cluster cl
  match k.resv with
  | [] => false
  | q :: _ => !k.defer && decide (q.at_ < s.cycle q.core) && decide (heldUnits s cl + q.units ≤ k.budget)

/-- The first cycle at or after the present one at which a command may start (R89, R223): a half-core's product at any cycle of
its windows, its other engine commands at the start of one. -/
def engineStart (s : State) (core : Nat) (c : Cmd) : Nat :=
  let from_ := (s.core core).splitFrom
  let now := s.cycle core - from_
  let w := now / 128
  let mine (x : Nat) : Bool := x % 2 == s.colOf c.sid
  if !c.windowed s then s.cycle core
  else if mine w && (decide (now % 128 = 0) || c.resource (s.colOf c.sid) == some 3) then s.cycle core
  else from_ + 128 * (if mine w then w + 2 else w + 1)

/-- Sectors that a command moves over its core's port before its operands are consumed (R317): what a copy reads, and the rows
that an MXRED contributes, 16 sectors each. -/
def readSectors (s : State) (core : Nat) (c : Cmd) : Nat :=
  match c.op, c.copy? with
  | .mxred _ _, _ => 16 * redRows s c
  | _, some k => (match copyOuts s core c k with
    | .ok (_, _, n) => n
    | .error _ => 0)
  | _, none => 0
/-- The sectors of global memory that writes touch. -/
def globSectors (outs : List CmdWrite) : List Nat :=
  (outs.flatMap (fun w => match w with
    | .glob pa bs => sectorsOf pa bs.length
    | _ => [])).dedup
/-- The sectors of other cores' A buffers that writes touch. -/
def peerSectors (s : State) (core : Nat) (outs : List CmdWrite) : List (Nat × Nat) :=
  (outs.flatMap (fun w => match w with
    | .abuf g off bs => if (s.wg? g).any (fun x => x.core == core) then [] else (sectorsOf off bs.length).map (fun k => (g, k))
    | _ => [])).dedup
/-- Sectors that a command's results move over its core's port (R317). -/
def writeSectors (s : State) (core : Nat) (c : Cmd) : Nat :=
  (globSectors c.outs).length + (peerSectors s core c.outs).length

/-- A command asks its core's network port for the sectors that it still needs, where no request of it waits (R317). -/
def askCmd (s : State) (core e : Nat) (c : Cmd) (n : Nat) : State :=
  if (s.core core).netQueue.any (fun r => r.who == .command e c.num) then s
  else netAsk s core (partOfCmd s c) (n - c.paid) (.command e c.num)

/-- A command starts, at its cycle, and asks for the sectors that it reads (R317); a product counts once it starts (R328). -/
def startCmd (s : State) (core e : Nat) : State :=
  match s.cmd? core e with
  | none => s
  | some c =>
    let s := tally s (partOfCmd s c)
    let s := s.setCmd core e { c with phase := .started, start := engineStart s core c }
    let s := askCmd s core e c (readSectors s core c)
    if c.units = 6 then s.event (partOfCmd s c) core c.sid c.slot 5 1 else s

/-- COMMAND_ISSUE (R221, R253). -/
def commandIssue (core e : Nat) (s : State) : State :=
  if !canIssue s core e then s
  else
    match s.cmd? core e with
    | none => s
    | some c =>
      if c.units = 0 then startCmd s core e
      else
        let s := s.setCmd core e { c with phase := .requested }
        let k := s.cluster (clusterOf core)
        s.setCluster (clusterOf core) { k with resv := enterResv ⟨core, e, c.units, s.cycle core, false⟩ k.resv }

/-- RESERVATION_GRANT (R254). -/
def reservationGrant (cl : Nat) (s : State) : State :=
  let k := s.cluster cl
  match k.resv with
  | [] => s
  | q :: r => if grantable s cl then startCmd (s.setCluster cl { k with resv := r }) q.core q.e else s

/-! ## Writes -/

/-- A write of a command takes place; one to a workgroup that is not resident, or whose core is under scrub, goes on as a request
(R197, R268, R270). -/
def applyWrite (x : Asker) (s : State) (w : CmdWrite) : State :=
  match w with
  | .abuf g off bs =>
    if (s.wg? g).isSome ∧ scrubHolds s g = false then s.mapWg g (fun k => k.writeBuf true off bs)
    else { s with peerReqs := s.peerReqs ++ [⟨x.cls, x.core, g, off, .write bs, s.ts, 0⟩] }
  | .wbuf g off bs => s.mapWg g (fun k => k.writeBuf false off bs)
  | .glob pa bs => engineStore s x pa bs
  | .tile g t row l => s.mapWg g (fun k => k.setTileRow t row l)
  | .limb g k v => s.mapWg g (fun w => { w with limbs := setD w.limbs 0 k v })
  | .vreg sid key v => s.mapSheet sid (fun sh => { sh with v := setD sh.v 0 key v })
/-- Who asks for a command's accesses. -/
def cmdAsker (s : State) (core : Nat) (c : Cmd) : Asker := ⟨partOfCmd s c, core, c.sid, c.slot⟩
/-- The writes of a command take place, and the sectors of global memory that they touch count (R328). -/
def applyWrites (s : State) (core : Nat) (c : Cmd) (outs : List CmdWrite) : State :=
  let x := cmdAsker s core c
  x.event (outs.foldl (applyWrite x) s) 7 (globSectors outs).length

/-! ## Causes after commit (R225) -/

/-- A cause found after a command's trigger committed: the command stops where it stands, what it has written keeps its values,
and the sheet will stop (R225, R284). -/
def lateCause (s : State) (core e : Nat) (c : Cmd) (f : Flt) : State :=
  let (outs, n, s) := writtenAt s core c
  let s := (cmdAsker s core c).event (applyWrites s core c outs) 6 n
  let s := s.setCmd core e { c with phase := .stopped, cause := f.cause, info := f.info, wrote := c.wrote + n }
  s.mapSheet c.sid (fun sh => { sh with lates := sh.lates ++ [{ Trap.blank c.baddr s.ts with
    cause := f.cause, late := true, rslot := c.slot, done := [0, 1, 2, 3, 4, 5], ent := e, info := f.info,
    faddr := f.addr }] })

/-- LATE_CAUSE_STOP: before its next bundle, the sheet stops with the oldest such cause. -/
def lateCauseStop (sid : Nat) (s : State) : State :=
  match s.sheet? sid with
  | none => s
  | some sh =>
    match sh.lates with
    | [] => s
    | t :: r => if sh.park = .running then (s.mapSheet sid (fun sh => { sh with lates := r })).takeCause sid { t with ts := s.ts } else s

/-! ## Operands consumed (R223) -/

/-- Whether a cause is a miss that a page request can mend (R304, R308). -/
def isMiss (f : Flt) : Bool := f.cause == .translation && bits f.info 4 4 == 0

/-- The contribution of an MXRED joins its round, which it opens if it is the first (R237). -/
def contribute (s : State) (c : Cmd) : State :=
  match s.sheet? c.sid, s.wg? c.wg, redMember s c with
  | some sh, some w, some m =>
    let part := s.partOf sh
    let phys := getD w.tileBind 0 c.tile
    let rows := (List.range (redRows s c)).flatMap (fun i => w.tileRow phys i)
    let k : Contrib := ⟨m, c.sid, c.wg, coreOf c.sid, c.num, rows⟩
    if s.rounds.any (fun r => r.part == part && r.group == c.f 7 && r.roff == c.f 8) then
      { s with rounds := s.rounds.map (fun r =>
          if r.part = part ∧ r.group = c.f 7 ∧ r.roff = c.f 8 then { r with contribs := r.contribs ++ [k] } else r) }
    else { s with rounds := s.rounds ++ [⟨part, c.f 7, c.f 8, [k], 0⟩] }
  | _, _, _ => s

/-- The operands of a started command are consumed: its results are computed, or a late cause is found. A copy that
misses in translation waits where it stands (R225, R308). -/
def consumeCmd (s : State) (core e : Nat) (c : Cmd) : State :=
  match c.op with
  | .mxred _ _ => (contribute s c).setCmd core e { c with phase := .consumed, used := true }
  | .cgw _ => s.setCmd core e { c with phase := .consumed, used := true }
  | .dstat _ _ => s.setCmd core e { c with phase := .consumed, used := true }
  | _ =>
    match c.copy? with
    | some k =>
      match copyOuts s core c k with
      | .ok (outs, s, _) =>
        let c := { c with phase := .consumed, used := true, outs := outs, paid := 0 }
        let s := s.drew.setCmd core e c
        askCmd s core e c (writeSectors s core c)
      | .error f =>
        if isMiss f then s
        else
          let vf := ((s.sheet? c.sid).map s.vfOf).getD 0
          let s := lookPage s vf core c.sid c.slot f.addr.toNat
          lateCause (if f.cause = .uncorrectable then clearPoison s core vf f.addr else s) core e c f
    | none =>
      if c.unit = .mxe then
        let (outs, ovf) := mxeOuts s c
        s.setCmd core e { c with phase := .consumed, used := true, outs := outs, ovf := ovf }
      else
        match c.op with
        | .cext _ => consumeExt s core e c
        | .cextv _ => consumeExt s core e c
        | _ => s.setCmd core e { c with phase := .consumed, used := true, outs := limbOuts s c }
where
  /-- Extraction: results up to a coefficient beyond its bound are written, then the command stops (R244). -/
  consumeExt (s : State) (core e : Nat) (c : Cmd) : State :=
    let (outs, stop, soft) := extOuts s c
    let s := if soft then s.mapSheet c.sid (fun sh => { sh with cfeGdx := true }) else s
    match stop with
    | none => s.setCmd core e { c with phase := .consumed, used := true, outs := outs }
    | some q =>
      let s := applyWrites s core c outs
      lateCause s core e { c with at_ := q } ⟨.guardData, c.f 9 + q, 0⟩

/-- OPERANDS_CONSUMED: once its sectors have crossed the port; where lines have left the caches since it asked, it asks for more. -/
def operandsConsumed (core e : Nat) (s : State) : State :=
  match s.cmd? core e with
  | none => s
  | some c =>
    if c.phase = .started ∧ c.start + (c.cycles s).1 ≤ s.cycle core then
      let n := readSectors s core c
      if n ≤ c.paid then consumeCmd s core e c else askCmd s core e c n
    else s

/-! ## Completion and status (R217, R224, R251) -/

/-- The status word of R224. -/
def statusWord (e : Nat) (c : Cmd) : W64 :=
  w64 (c.cause.code + 2 ^ 8 * e + 2 ^ 16 * ofBool c.ovf + 2 ^ 17 * ofBool c.canc)

/-- The value a command delivers: CGW and DSTAT their own, every other the status word. -/
def cmdValue (e : Nat) (c : Cmd) : W64 :=
  match c.op with
  | .cgw _ => c.value
  | .dstat _ _ => c.value
  | _ => statusWord e c

/-- The byte arrival that a copy makes once its writes are acknowledged (R251). -/
def copyArrival (s : State) (c : Cmd) (k : CopyShape) : State :=
  let b := k.bobj
  if !bitAt b 31 then s
  else
    match s.sheet? c.sid with
    | none => s
    | some sh =>
      let peer := bitAt b 20
      let wg := if peer then ((reachPeer s sh (b % 2 ^ 20) 0).map (·.1)).getD noWg else c.wg
      let ord := if peer then synRank s c.sid sh true else c.channel (s.colOf c.sid)
      { s with arrivals := s.arrivals ++
          [⟨some k.bytesOut, some (coreOf c.sid, c.num), wg, b % 2 ^ 17, s.partOf sh, s.ts, ord⟩] }

/-- Words of global memory that a command wrote. -/
def globWords (outs : List CmdWrite) : List Nat :=
  outs.flatMap (fun w => match w with
    | .glob pa bs => wordsOf pa bs.length
    | _ => [])

/-- Whether a result is for a workgroup whose core is under scrub (R197). -/
def outHeld (s : State) (w : CmdWrite) : Bool :=
  match w with
  | .abuf g _ _ => scrubHolds s g
  | _ => false

/-- COMMAND_COMPLETION: the results are written, a copy is acknowledged at its scope and makes its arrival. -/
def commandCompletion (core e : Nat) (s : State) : State :=
  match s.cmd? core e with
  | none => s
  | some c =>
    if c.phase = .consumed ∧ c.start + (c.cycles s).2 ≤ s.cycle core ∧ writeSectors s core c ≤ c.paid ∧
        c.outs.any (outHeld s) = false then
      let part := partOfCmd s c
      let s := tally s part
      let s := applyWrites s core c c.outs
      let s := if c.ovf ∧ c.unit = .mxe then s.mapWg c.wg (fun w => { w with iovf := true }) else s
      let s := match c.copy? with
        | some k =>
          let s := if k.scope = Scope.wg then (globWords c.outs).foldl (fun s w => invalidateWord s core w) s else s
          copyArrival (s.event part core c.sid c.slot 6 k.bytesOut) c k
        | none => s
      let s := match c.op with
        | .mma _ _ => s.event part core c.sid c.slot 4 (c.f 2)
        | .mmab _ _ => s.event part core c.sid c.slot 4 (c.f 2)
        | .mmai _ _ => s.event part core c.sid c.slot 4 (c.f 2)
        | _ => s
      s.setCmd core e { c with phase := .completed, outs := [], value := cmdValue e c, ended := s.cycle core }
    else s

/-- The oldest command of a sheet on a unit, with its entry. -/
def oldestOf (s : State) (sid : Nat) (u : FUnit) : Option (Nat × Cmd) :=
  ((s.core (coreOf sid)).cmds.filter (fun p => p.2.sid == sid && p.2.unit == u)).foldl (fun o p => match o with
    | none => some p
    | some q => if p.2.num < q.2.num then some p else some q) none

/-- Whether the byte arrival of a command has still to reach its object (R298). -/
def arrivalUnderWay (s : State) (core num : Nat) : Bool := s.arrivals.any (fun a => a.cmd == some (core, num))

/-- STATUS_LANDING (R224): one cycle after its completion, and after the byte arrival of a copy (R298), the value of the sheet's
oldest command on the unit lands, and its entry frees. -/
def statusLanding (sid : Nat) (u : FUnit) (s : State) : State :=
  match oldestOf s sid u with
  | none => s
  | some (e, c) =>
    if c.phase = .completed ∧ c.ended < s.cycle (coreOf sid) ∧ arrivalUnderWay s (coreOf sid) c.num = false then
      let s := (s.dropCmd (coreOf sid) e).mapSheet sid (fun sh => sh.fill c.flight (some c.value) none)
      bindTiles s c.wg
    else s

/-! ## Cancelling and resuming (R225, R244) -/

/-- COMMAND_CANCEL: a stopped command is cancelled and delivers its status with CAN. -/
def cancelCmd (core e : Nat) (s : State) : State :=
  match s.cmd? core e with
  | none => s
  | some c =>
    if c.phase = .stopped then
      let s := tally s (partOfCmd s c)
      let c := { c with canc := true, outs := [], phase := .completed, ended := s.cycle core }
      s.setCmd core e { c with value := statusWord e c }
    else s

/-- COMMAND_RESUME: an extraction stopped by GUARD_DATA writes the failing coefficient unchecked and goes on (R244). -/
def commandResume (core e : Nat) (s : State) : State :=
  match s.cmd? core e with
  | none => s
  | some c =>
    if c.phase = .stopped ∧ c.cause = .guardData then
      match s.wg? c.wg with
      | none => s
      | some w =>
        let all := coefficients (c.regs.getD 0 0).toNat (c.regs.getD 1 0 == 1) (c.f 9 + c.f 10) (w.limb (cfeA c.trig))
        let s := applyWrite (cmdAsker s core c) s (extWrite c c.at_ (all.getD (c.f 9 + c.at_) 0))
        (s.setCmd core e { c with phase := .started, at_ := c.at_ + 1, cause := .none, info := 0 }).mapSheet c.sid serviceDone
    else s
where
  /-- The service of a sheet parked for its command is done (R279). -/
  serviceDone (sh : Sheet) : Sheet :=
    match sh.trap with
    | some t => if sh.park = .service ∧ t.late ∧ t.ent = e then { sh with park := .resume } else sh
    | none => sh

/-! ## The steps -/

/-- COMMAND_ISSUE (R221). -/
def execCommandIssue (core e : Nat) (s : State) : Host.Outcome State Fault Refusal :=
  runEvent (.commandIssue core e) (commandIssue core e) s
/-- RESERVATION_GRANT (R254). -/
def execReservationGrant (cl : Nat) (s : State) : Host.Outcome State Fault Refusal :=
  runEvent (.reservationGrant cl) (reservationGrant cl) s
/-- OPERANDS_CONSUMED (R223). -/
def execOperandsConsumed (core e : Nat) (s : State) : Host.Outcome State Fault Refusal :=
  runEvent (.operandsConsumed core e) (operandsConsumed core e) s
/-- COMMAND_COMPLETION (R223). -/
def execCommandCompletion (core e : Nat) (s : State) : Host.Outcome State Fault Refusal :=
  runEvent (.commandCompletion core e) (commandCompletion core e) s
/-- STATUS_LANDING (R224). -/
def execStatusLanding (sid : Nat) (u : FUnit) (s : State) : Host.Outcome State Fault Refusal :=
  runEvent (.statusLanding sid u) (statusLanding sid u) s
/-- LATE_CAUSE_STOP (R225). -/
def execLateCauseStop (sid : Nat) (s : State) : Host.Outcome State Fault Refusal :=
  runEvent (.lateCauseStop sid) (lateCauseStop sid) s
/-- COMMAND_CANCEL (R225). -/
def execCommandCancel (core e : Nat) (s : State) : Host.Outcome State Fault Refusal :=
  runEvent (.commandCancel core e) (cancelCmd core e) s
/-- COMMAND_RESUME (R244). -/
def execCommandResume (core e : Nat) (s : State) : Host.Outcome State Fault Refusal :=
  runEvent (.commandResume core e) (commandResume core e) s

end Sys2Proof.Machine
end

