-- ==== Sys2Proof/Machine/Syn.lean ====
section
/-! DEFINITION. The SYN catalogue (05 R134; 10 R255 to R266; 15 R376, R378): barriers and barrier objects. -/

namespace Sys2Proof.Machine

/-! ## Wired barriers (R255 to R259, R376) -/

/-- The faults of R255: a number beyond the level, a bit above 3, `.cl` without cluster launch, `.grid` without
cooperation. -/
def barCheck (l : BarLevel) (x : TrigCtx) : List (Nat × Flt) :=
  let bad := match l, x.s.gridOf x.sh with
    | .cl, some g => g.lrec.clw == 0
    | .grid, some g => !g.lrec.coop
    | _, _ => false
  firstFault x [(decide (levelCount l ≤ x.tv.toNat) || bad, Cause.moveIllegal.flt)]

/-- A result on its way to `syn.q`, with its number. -/
def openSyn (s : State) (sid : Nat) : State × Nat :=
  match s.sheet? sid with
  | some sh => (s.setSheet sid (sh.addFlight .syn 0 none none false true false 0), sh.nextId)
  | none => (s, 0)

def setWait (s : State) (sid : Nat) (w : Wait) : State := s.mapSheet sid (fun sh => { sh with wait := w })

/-- BARA, and the first half of BAR: the release, then the arrival (R209, R257). -/
def arriveEffect (l : BarLevel) (id : Nat) (wait : Bool) (x : TrigCtx) (s : State) : State :=
  pushOrder s x.sid none (some (levelScope l)) false false false (.arrive l x.tv.toNat id wait)

/-- BARW, and the second half of BAR: the end of the phase, then the acquire; the sheet waits for both (R209, R257). -/
def awaitEffect (l : BarLevel) (id : Nat) (x : TrigCtx) (s : State) : State :=
  pushOrder (setWait s x.sid (.bar l x.tv.toNat id)) x.sid (some (levelScope l)) none true true false (.await l x.tv.toNat id)

/-- BAR and BARW at `.sh` wait until everything triggered has landed (R258). -/
def sheetBarrier (x : TrigCtx) (s : State) : State :=
  let (s, id) := openSyn s x.sid
  setWait s x.sid (.barSheet id)

def barMeaning (l : BarLevel) : OpMeaning :=
  uniOp (fun _ => true) (barCheck l) 1 (fun x s =>
    if l = .sh then sheetBarrier x s
    else
      let (s, id) := openSyn s x.sid
      awaitEffect l id x (arriveEffect l id true x s))
def baraMeaning (l : BarLevel) : OpMeaning :=
  uniOp (fun _ => true) (barCheck l) 1 (fun x s =>
    if l = .sh then x.deliver 0 s
    else
      let (s, id) := openSyn s x.sid
      arriveEffect l id false x s)
def barwMeaning (l : BarLevel) : OpMeaning :=
  uniOp (fun _ => true) (barCheck l) 1 (fun x s =>
    if l = .sh then sheetBarrier x s
    else
      let (s, id) := openSyn s x.sid
      awaitEffect l id x s)

/-! ## Barrier objects (R261 to R266, R378, R481) -/

/-- The workgroup of the object a trigger names; a peer's by the rank in x1. -/
def objWg (peer : Bool) (x : TrigCtx) : Option Nat :=
  if peer then
    match x.wgp, x.s.gridOf x.sh with
    | some w, some g =>
      if (x.x 1 0).toNat < g.lrec.clw then some (peerOf x.s w g.lrec.clw (x.x 1 0).toNat) else none
    | _, _ => none
  else some x.sh.wg
def objOff (x : TrigCtx) : Nat := x.tv.toNat

/-- The checks of R262 that are made at the trigger, in its order: 1 to 4. -/
def objCheck (peer : Bool) (range : TrigCtx → Bool) (x : TrigCtx) : List (Nat × Flt) :=
  firstFault x [(decide (2 ^ 17 ≤ x.tv.toNat) || !range x, Cause.moveIllegal.flt),
    ((objWg peer x).isNone, Cause.spaceBounds.flt),
    (objOff x % 16 != 0, ⟨.alignment, 0, x.tv⟩),
    (decide (x.aSize < objOff x + 16), ⟨.spaceBounds, 0, x.tv⟩)]

/-- An operation whose commit waits for its step at the object (R378, R481), after a release where it makes one (R209). -/
def stepOp (peer : Bool) (range : TrigCtx → Bool) (rel : Option Scope) (k : TrigCtx → StepKind) : OpMeaning :=
  { uniOp (fun _ => true) (objCheck peer range) 1 (fun x s =>
      pushOrder s x.sid none rel true true false (.step x.slot (k x) peer ((objWg peer x).getD noWg) (objOff x))) with
    steps := true }

def countOk (v : W64) : Bool := decide (1 ≤ v.toNat ∧ v.toNat ≤ 1048575)

def boinitMeaning : OpMeaning := stepOp false (fun x => countOk (x.x 0 0)) none (fun x => .boinit (x.x 0 0).toNat)
def boarrMeaning (peer : Bool) : OpMeaning :=
  stepOp peer (fun x => countOk (x.x 0 0)) (some (if peer then .cl else .wg)) (fun x => .boarr (x.x 0 0).toNat)
def boexpMeaning : OpMeaning :=
  stepOp false (fun x => decide ((x.x 0 0).toNat < 2 ^ 48)) none (fun x => .boexp (x.x 0 0).toNat)
def boinvMeaning : OpMeaning := stepOp false (fun _ => true) none (fun _ => .boinv)

/-- BOWAIT (R264): it reads its object, waits where it must, and acquires; the sheet issues no bundle before that (R378). -/
def bowaitMeaning : OpMeaning :=
  uniOp (fun _ => true) (objCheck false (fun x => decide ((x.x 0 0).toNat < 16 ∧ (x.x 1 0).toNat < 2 ^ 32))) 1 (fun x s =>
    let (s, id) := openSyn s x.sid
    pushOrder (setWait s x.sid (.land id)) x.sid (some .dev) none true true false
      (.bowait (objOff x) (x.x 0 0).toNat (x.x 1 0).toNat id))
/-- BOTEST: it reads its object and acquires; the sheet goes on. -/
def botestMeaning (peer : Bool) : OpMeaning :=
  uniOp (fun _ => true) (objCheck peer (fun _ => true)) 1 (fun x s =>
    let (s, id) := openSyn s x.sid
    pushOrder s x.sid (some .dev) none true true false (.botest peer ((objWg peer x).getD noWg) (objOff x) id))

/-! ## The steps -/

/-- BAR (R376). -/
def execBar (h : Head) (l : BarLevel) (s : State) : Host.Outcome State Fault Refusal :=
  runOp (.bar h l) (barMeaning l) s

/-- BARA (R376). -/
def execBara (h : Head) (l : BarLevel) (s : State) : Host.Outcome State Fault Refusal :=
  runOp (.bara h l) (baraMeaning l) s

/-- BARW (R376). -/
def execBarw (h : Head) (l : BarLevel) (s : State) : Host.Outcome State Fault Refusal :=
  runOp (.barw h l) (barwMeaning l) s

/-- BOINIT (R263). -/
def execBoinit (h : Head) (s : State) : Host.Outcome State Fault Refusal :=
  runOp (.boinit h) (boinitMeaning) s

/-- BOARR (R263). -/
def execBoarr (h : Head) (peer : Bool) (s : State) : Host.Outcome State Fault Refusal :=
  runOp (.boarr h peer) (boarrMeaning peer) s

/-- BOEXP (R263). -/
def execBoexp (h : Head) (s : State) : Host.Outcome State Fault Refusal :=
  runOp (.boexp h) (boexpMeaning) s

/-- BOWAIT (R264). -/
def execBowait (h : Head) (s : State) : Host.Outcome State Fault Refusal :=
  runOp (.bowait h) (bowaitMeaning) s

/-- BOTEST (R262). -/
def execBotest (h : Head) (peer : Bool) (s : State) : Host.Outcome State Fault Refusal :=
  runOp (.botest h peer) (botestMeaning peer) s

/-- BOINV (R263). -/
def execBoinv (h : Head) (s : State) : Host.Outcome State Fault Refusal :=
  runOp (.boinv h) (boinvMeaning) s


end Sys2Proof.Machine
end

