-- ==== Sys2Proof/Machine/Sys.lean ====
section
/-! DEFINITION. The SYS catalogue (05 R135; R208, R373, R382, R391, R392, R410, R422 to R424, R433, R452, R463 to R465, R468). -/

namespace Sys2Proof.Machine

/-- A result on its way to `sys.q`, with its number. -/
def openSys (s : State) (sid : Nat) : State × Nat :=
  match s.sheet? sid with
  | some sh => (s.setSheet sid (sh.addFlight .sys 0 none none false true false 0), sh.nextId)
  | none => (s, 0)
def setSys (s : State) (sid : Nat) (w : SysWait) : State := s.mapSheet sid (fun sh => { sh with sys := w })

/-! ## FENCE, ACQ, REL (R208, R373, R410, R452) -/

/-- An ordering operation that delivers 0 once it is complete; the sheet goes on. -/
def orderOp (acq rel : Option Scope) (loads stores drain : Bool) : OpMeaning :=
  uniOp (fun _ => true) noCheck 1 (fun x s =>
    let (s, id) := openSys s x.sid
    pushOrder s x.sid acq rel loads stores drain (.deliver id 0))
def fenceMeaning (m : FenceMod) : OpMeaning :=
  match m.halves with
  | .acq => orderOp (some m.scope) none true true true
  | .rel => orderOp none (some m.scope) true true true
  | .ar => orderOp (some m.scope) (some m.scope) true true true
def acqMeaning (sc : Scope) : OpMeaning := orderOp (some sc) none true true false
def relMeaning (sc : Scope) : OpMeaning := orderOp none (some sc) false true false

/-! ## TRAP, BRK (R382, R464) -/

def trapMeaning : OpMeaning := uniOp (fun _ => true) (fun x => x.fault Cause.softwareTrap.flt) 0 (fun _ s => s)
/-- BRK: each BREAKPOINT raised writes one trace record (R337). -/
def brkMeaning : OpMeaning :=
  { uniOp (fun _ => true) (fun x => x.fault Cause.breakpoint.flt) 0 (fun _ s => s) with
    onFault := fun x fs s =>
      if fs.any (fun f => f.2.cause == .breakpoint) then
        traceRecord s (s.partOf x.sh) x.sid 2 (srcUnit s x.sid .sys) x.bpc 0 0 x.slot
      else s }

/-! ## System registers (R391, R392) -/

/-- Bank of a bank format register's number: whether of A, and which. -/
def csrBank (n : Nat) : Option (Bool × Nat) :=
  if 0x100 ≤ n ∧ n < 0x108 then some (true, n - 0x100)
  else if 0x110 ≤ n ∧ n < 0x120 then some (false, n - 0x110)
  else none
/-- The numbers of R391. -/
def csrKnown (n : Nat) : Bool :=
  n ∈ [0x001, 0x002, 0x003, 0x004, 0x010, 0x011, 0x012, 0x020, 0x021, 0x030, 0x120] || (csrBank n).isSome
/-- The register a trigger value names. -/
def TrigCtx.csr (x : TrigCtx) : Nat := x.tv.toNat % 2 ^ 12
def csrBad (x : TrigCtx) : Bool := decide (2 ^ 12 ≤ x.tv.toNat) || !csrKnown x.csr

/-- CYCLE of a sheet at a core cycle (R332). -/
def Sheet.cycleAt (sh : Sheet) (c : Nat) : Nat :=
  (sh.cycAcc + (match sh.cycFrom with
    | some c0 => c - c0
    | none => 0)) % 2 ^ 64
/-- XPCFG as it reads (R187). -/
def Sheet.xpcfg (sh : Sheet) : W64 :=
  w64 (sh.xpPat.toNat + 2 ^ 6 * sh.xpAoff.toNat + 2 ^ 17 * slotsNat ((keys sh.xp).filter (· < 4)))
/-- MARKCFG as it reads (R333). -/
def Sheet.markcfg (sh : Sheet) : W64 := w64 (ofBool sh.markLog + 2 * ofBool sh.markArm + 4 * ofBool sh.armed)

/-- A register's value, read by a bundle whose pass 0 issues at cycle `c` (R392): the bundle itself counts in ISSUED,
its first pass in DROOP_BUBBLES. -/
def csrValue (x : TrigCtx) (sh : Sheet) (w : Option Workgroup) (c : Nat) : W64 :=
  match x.csr with
  | 0x001 => w64 sh.fpsr.toNat
  | 0x002 => w64 sh.fpcr.toNat
  | 0x003 => w64 (ofBool sh.cfeSoft + 256 * ofBool sh.cfeGdx)
  | 0x004 => sh.xpcfg
  | 0x010 => w64 (sh.cycleAt c)
  | 0x011 => w64 (sh.issued + 1)
  | 0x012 => w64 (sh.droop + x.droop0)
  | 0x020 => sext64 24 sh.drift.toNat
  | 0x021 => sh.markcfg
  | 0x030 => w64 sh.skipst.toNat
  | n =>
    match w, csrBank n with
    | some w, some (a, b) => bankRead w a b
    | some w, none => w64 (ofBool w.iovf)
    | none, _ => 0

/-- Cycle by which every FPU and XFU operation triggered so far has landed (R152). -/
def Sheet.fpDue (sh : Sheet) : Nat :=
  maxList 0 ((sh.flights.filter (fun f => f.unit == .fpa || f.unit == .fpb || f.unit == .xfu)).map (·.due))
/-- A value that lands in `sys.q` when every FPU and XFU operation triggered so far has landed. -/
def Sheet.afterFp (sh : Sheet) (v : W64) : Sheet := sh.addFlight .sys 0 (some v) none true false true sh.fpDue

/-- CSRRD: FPSR after the flags of its own bundle (R152), SKIPST cleared by the read (R8). -/
def csrrdMeaning : OpMeaning :=
  { uniOp (fun _ => true) (fun x => firstFault x [(csrBad x, Cause.moveIllegal.flt)]) 1 (fun _ s => s) with
    effect := fun x p c s =>
      if p = 0 ∧ x.csr ≠ 0x001 then
        let s := x.deliver (csrValue x x.sh x.wgp c) s
        if x.csr = 0x030 then s.mapSheet x.sid (fun sh => { sh with skipst := 0 }) else s
      else s
    finish := fun x s =>
      if x.csr = 0x001 then s.mapSheet x.sid (fun sh => sh.afterFp (w64 sh.fpsr.toNat)) else s }

/-- A-buffer offset of the image that a write of XPCFG names (R188). -/
def xpOffset (v : W64) : Nat := bits v.toNat 6 11 * 64
def xpImage (w : Workgroup) (v : W64) : BitVec 512 := BitVec.ofNat 512 (leNat (w.readBuf true (xpOffset v) 64))
/-- Whether the block of an image is engine-owned. -/
def xpHeld (x : TrigCtx) : Bool := (blocksOf true x.sh.wg (xpOffset (x.x 0 0)) 64).any (engineOwned x.s)

/-- Whether an older store of the sheet to the image waits in its queue. -/
def xpStored (x : TrigCtx) : Bool :=
  x.sh.queue.any (fun a => a.space == .a && a.isStore && a.pieces.any (fun (p, n) => runsMeet p n (xpOffset (x.x 0 0)) 64))

/-- What a register's own rules refuse (R180, R188). -/
def csrwrCheck (x : TrigCtx) : List (Nat × Flt) :=
  let v := x.x 0 0
  firstFault x ([(csrBad x, Cause.moveIllegal.flt)] ++
    (match csrBank x.csr, x.wgp with
     | some (a, b), some w => [(bankExists w a b && decide (11 ≤ v.toNat % 16), Cause.moveIllegal.flt)]
     | _, _ => []) ++
    (match x.csr, x.wgp with
     | 0x004, some w =>
       [(decide (w.aSize < xpOffset v + 64), ⟨.spaceBounds, 0, w64 (xpOffset v)⟩),
        (!xpHeld x && !xpStored x && !xpValid (xpImage w v), Cause.moveIllegal.flt)]
     | _, _ => []))

/-- The registers that a CSRWR writes at once, under their access codes (R7, R8). -/
def csrwrNow (n : Nat) (v : W64) (sh : Sheet) : Sheet :=
  match n with
  | 0x002 => { sh with fpcr := v.setWidth 9 &&& 0x13F }
  | 0x003 => { sh with cfeSoft := v.getLsbD 0, cfeGdx := sh.cfeGdx && !v.getLsbD 8 }
  | 0x021 => { sh with markArm := v.getLsbD 1, markLog := v.getLsbD 0 }
  | _ => sh

/-- Whether some block of a bank is engine-owned. -/
def bankHeld (s : State) (wg : Nat) (w : Workgroup) (a : Bool) (b : Nat) : Bool :=
  let size := if a then w.aSize else w.wSize
  (blocksOf a wg (b * 16384) (min 16384 (size - b * 16384))).any (engineOwned s)
/-- The bits of a bank format register (R179): SCALE in W banks only. -/
def bankMask (a : Bool) (v : W64) : W64 :=
  w64 (v.toNat % 16 + (if a then 0 else v.toNat / 2 ^ 32 * 2 ^ 32))
/-- A bank format register of a workgroup is written at a cycle (R180). -/
def writeBank (s : State) (sid wg : Nat) (a : Bool) (b c : Nat) (v : W64) : State :=
  s.mapWg wg (fun w => { w with banks := regWrite w.banks (bankReset a) (bankKey a b) (ctxOf sid) c (bankMask a v) })

/-- What a CSRWR does in pass 0, which issues at cycle `c`: 0 is delivered once the write is made; a write of XPCFG, or of a
bank format register while an engine owns a block of the bank, holds the sheet until then (XPCFG_WRITE, BANK_FORMAT_WRITE). -/
def csrwrEffect (x : TrigCtx) (c : Nat) (s : State) : State :=
  let v := x.x 0 0
  let hold (image : BitVec 512) : State :=
    let (s, id) := openSys s x.sid
    setSys s x.sid (.csr ⟨x.csr, v, image, id⟩)
  match x.csr, csrBank x.csr, x.wgp with
  | 0x001, _, _ => s
  | 0x004, _, some w => hold (xpImage w v)
  | 0x120, _, _ => x.deliver 0 (s.mapWg x.sh.wg (fun w => { w with iovf := w.iovf && !v.getLsbD 0 }))
  | _, some (a, b), some w =>
    if bankExists w a b = false then x.deliver 0 s
    else if bankHeld s x.sh.wg w a b then hold 0
    else x.deliver 0 (writeBank s x.sid x.sh.wg a b c v)
  | n, _, _ => x.deliver 0 (s.mapSheet x.sid (csrwrNow n v))
/-- CSRWR. A write of XPCFG waits for the block of its image, and for the sheet's own older stores there (R188, R204). -/
def csrwrMeaning : OpMeaning :=
  { uniOp (fun x => x.csr != 0x004 || (!xpHeld x && !xpStored x)) csrwrCheck 1 (fun _ s => s) with
    effect := fun x p c s => if p = 0 then csrwrEffect x c s else s
    finish := fun x s =>
      if x.csr = 0x001 then s.mapSheet x.sid (fun sh => { sh.afterFp 0 with fpsr := (x.x 0 0).setWidth 6 }) else s }

/-! ## LAUNCH, LWAIT (R424, R433) -/

/-- The checks that the address of a record or header meets: alignment, translation for an access, and no corrupted sector
among the `n` bytes read at byte `at_` of it (R282). -/
def recordCheck (x : TrigCtx) (acc : AccKindT) (at_ n : Nat) : List (Nat × Flt) :=
  if x.tv.toNat % 64 ≠ 0 then x.fault ⟨.alignment, 0, x.tv⟩
  else
    match translate x.s x.core (x.s.vfOf x.sh) x.tv acc with
    | .error f => x.fault f
    | .ok p => if poisonOf x.s [(p.pa + at_, n)] = [] then [] else x.fault ⟨.uncorrectable, 0, x.tv⟩
/-- The page of a record or header is looked up (R305). -/
def recordLook (x : TrigCtx) (s : State) : State :=
  if x.tv.toNat % 64 ≠ 0 then s else lookPage s (x.s.vfOf x.sh) x.core x.sid x.slot x.tv.toNat
/-- A record whose check fails is looked up; a corrupted sector raises its cause once (R282). -/
def recordFault (acc : AccKindT) (at_ n : Nat) (x : TrigCtx) (_ : List (Nat × Flt)) (s : State) : State :=
  let s := recordLook x s
  match translate x.s x.core (x.s.vfOf x.sh) x.tv acc with
  | .error f => if f.cause = .uncorrectable then clearPoison s x.core (x.s.vfOf x.sh) x.tv else s
  | .ok p => { s with poisoned := s.poisoned.filter (fun q => !runsMeet (p.pa + at_) n (q * 32) 32) }
/-- Depth of the sheet's grid (R46). -/
def TrigCtx.depth (x : TrigCtx) : Nat := ((x.s.gridOf x.sh).map (·.depth)).getD 0
def TrigCtx.gridNum (x : TrigCtx) : Nat := (x.wgp.map (·.grid)).getD 0

/-- LAUNCH: a release at device scope, then the launch is asked for; LAUNCH_ACCEPTANCE decides it. -/
def launchMeaning : OpMeaning :=
  { uniOp (fun _ => true) (fun x => if 9 ≤ x.depth then x.fault Cause.nestDepth.flt else recordCheck x .atomic 0 64) 1
      (fun x s =>
        let (s, id) := openSys (recordLook x s) x.sid
        pushOrder s x.sid none (some .dev) false false false (.launch x.gridNum id x.tv)) with
    onFault := recordFault .atomic 0 64 }

/-- A final STATUS is found: LWAIT goes on to its acquire, and its value. -/
def lwaitFound (s : State) (sid v id : Nat) : State :=
  settle 64 (s.mapSheet sid (fun sh => { sh.release id (w64 v) with sys := .land id })) sid
/-- LWAIT: it reads STATUS at the trigger; its acquire stands at its slot (R198). -/
def lwaitMeaning : OpMeaning :=
  { uniOp (fun _ => true) (fun x => recordCheck x .load 48 4) 1 (fun x s =>
      match translate x.s x.core (x.s.vfOf x.sh) x.tv .load with
      | .error _ => s
      | .ok p =>
        let (s, id) := openSys (recordLook x s) x.sid
        let s := setSys (enterOrder s x.sid (some .dev) none true true false (.held id)) x.sid (.lwait x.tv p.pa id)
        if 2 ≤ recStatus s p.pa then lwaitFound s x.sid (recStatus s p.pa) id else s) with
    onFault := recordFault .load 48 4 }

/-! ## IVSPAWN (R49, R50, R422, R423) -/

def spawnIreg (x : TrigCtx) : Nat := (x.x 0 0).toNat % 128
def spawnTreg (x : TrigCtx) : Nat := bits (x.x 0 0).toNat 8 7
def spawnPred (x : TrigCtx) : Nat := bits (x.x 0 0).toNat 16 4
/-- R422. -/
def spawnLayoutBad (x : TrigCtx) : Bool :=
  let v := (x.x 0 0).toNat
  decide (2 ^ 20 ≤ v) || bitAt v 15 || bitAt v 7 || decide (x.kernel.regs ≤ spawnIreg x) ||
    decide (x.kernel.regs ≤ spawnTreg x)
/-- The threads whose predicate is 10 or 11. -/
def spawnThreads (x : TrigCtx) : List Nat :=
  x.activeThreads.filter (fun t => decide (2 ≤ (x.sh.getP (spawnPred x) t).toNat))

/-- The checks of IVSPAWN at its trigger; those of the header and of its room are made at the step. -/
def ivspawnCheck (x : TrigCtx) : List (Nat × Flt) :=
  if spawnLayoutBad x then x.fault Cause.moveIllegal.flt
  else if 9 ≤ x.depth then x.fault Cause.nestDepth.flt
  else if (spawnThreads x).isEmpty ∧ x.tv.toNat % 64 = 0 then []
  else recordCheck x .atomic 0 64

/-- The entry of a thread: IREG and TREG (R50). -/
def spawnEntry (x : TrigCtx) (t : Nat) : List Byte :=
  leBytes 8 (x.sh.getV (spawnIreg x) t).toNat ++ leBytes 8 (x.sh.getV (spawnTreg x) t).toNat
/-- IVSPAWN: after a release at device scope, the step at the header's home on which its commit waits; without an entry to
append it makes no access. -/
def ivspawnMeaning : OpMeaning :=
  { uniOp (fun _ => true) ivspawnCheck 1 (fun x s =>
      let ts := spawnThreads x
      if ts.isEmpty then stepDone s x.sid x.slot .sys (.ok 0) 0
      else pushOrder (recordLook x s) x.sid none (some .dev) true true false
        (.step x.slot (.spawn x.tv (ts.map (spawnEntry x)) x.gridNum) false noWg 0)) with
    onFault := recordFault .atomic 0 64
    steps := true
    vregs := fun x => [spawnIreg x, spawnTreg x] }

/-! ## SVC, TSTAMP, YIELDS (R463, R465, R468) -/

/-- SVC: the sheet parks before its next bundle until SVC_ANSWER. -/
def svcMeaning : OpMeaning :=
  uniOp (fun _ => true) (fun x => firstFault x [(decide (2 ^ 16 ≤ x.tv.toNat), Cause.moveIllegal.flt)]) 1 (fun x s =>
    let (s, id) := openSys s x.sid
    setSys s x.sid (.svc x.tv.toNat (x.x 0 0) id))

/-- TSTAMP: the counter when pass 0 issues. -/
def tstampMeaning : OpMeaning :=
  { uniOp (fun _ => true) noCheck 1 (fun _ s => s) with
    effect := fun x p c s =>
      if p = 0 then
        let mhz := max (s.cluster (clusterOf x.core)).mhz 1
        x.deliver (w64 (s.ts + (c - x.s.cycle x.core) * 1000 / mhz)) s
      else s }

/-- Whether a class D stop of a sheet's context is pending (R294, R295). -/
def classDPending (s : State) (sh : Sheet) : Bool :=
  match (s.part (s.partOf sh)).preempt with
  | some p => p.classD
  | none => false
/-- YIELDS: a stop before the next bundle, or 0. -/
def yieldsMeaning : OpMeaning :=
  { uniOp (fun _ => true) noCheck 1 (fun x s =>
      if classDPending s x.sh then (x.deliver 1 s).mapSheet x.sid (fun sh => { sh with park := .stopped })
      else x.deliver 0 s) with
    control := true }

/-! ## The steps -/

/-- FENCE (R410). -/
def execFence (h : Head) (m : FenceMod) (s : State) : Host.Outcome State Fault Refusal :=
  runOp (.fence h m) (fenceMeaning m) s

/-- ACQ (R373). -/
def execAcq (h : Head) (sc : Scope) (s : State) : Host.Outcome State Fault Refusal :=
  runOp (.acq h sc) (acqMeaning sc) s

/-- REL (R452). -/
def execRel (h : Head) (sc : Scope) (s : State) : Host.Outcome State Fault Refusal :=
  runOp (.rel h sc) (relMeaning sc) s

/-- TRAP (R464). -/
def execTrap (h : Head) (s : State) : Host.Outcome State Fault Refusal :=
  runOp (.trap h) (trapMeaning) s

/-- BRK (R382). -/
def execBrk (h : Head) (s : State) : Host.Outcome State Fault Refusal :=
  runOp (.brk h) (brkMeaning) s

/-- CSRRD (R392). -/
def execCsrrd (h : Head) (s : State) : Host.Outcome State Fault Refusal :=
  runOp (.csrrd h) (csrrdMeaning) s

/-- CSRWR (R392). -/
def execCsrwr (h : Head) (s : State) : Host.Outcome State Fault Refusal :=
  runOp (.csrwr h) (csrwrMeaning) s

/-- LAUNCH (R424). -/
def execLaunch (h : Head) (s : State) : Host.Outcome State Fault Refusal :=
  runOp (.launch h) (launchMeaning) s

/-- LWAIT (R433). -/
def execLwait (h : Head) (s : State) : Host.Outcome State Fault Refusal :=
  runOp (.lwait h) (lwaitMeaning) s

/-- IVSPAWN (R423). -/
def execIvspawn (h : Head) (s : State) : Host.Outcome State Fault Refusal :=
  runOp (.ivspawn h) (ivspawnMeaning) s

/-- SVC (R463). -/
def execSvc (h : Head) (s : State) : Host.Outcome State Fault Refusal :=
  runOp (.svc h) (svcMeaning) s

/-- TSTAMP (R465). -/
def execTstamp (h : Head) (s : State) : Host.Outcome State Fault Refusal :=
  runOp (.tstamp h) (tstampMeaning) s

/-- YIELDS (R468). -/
def execYields (h : Head) (s : State) : Host.Outcome State Fault Refusal :=
  runOp (.yields h) (yieldsMeaning) s


end Sys2Proof.Machine
end

