-- ==== Sys2Proof/Machine/Bundle.lean ====
section
/-! DEFINITION. The bundles as steps: a move bundle with the meanings of its triggers (R64, R104, R136), a marker bundle
(R103, R334), and the resumed bundle of a stop (R287). -/

namespace Sys2Proof.Machine

/-- The meaning of an operation of the opcode map; none for an event. -/
def meaningOf : Instr → Option OpMeaning
  | .add u _ m => some (addMeaning u m)
  | .sub u _ m => some (subMeaning u m)
  | .rsub u _ m => some (rsubMeaning u m)
  | .and u _ m => some (andMeaning u m)
  | .or u _ m => some (orMeaning u m)
  | .xor u _ m => some (xorMeaning u m)
  | .andn u _ m => some (andnMeaning u m)
  | .shl u _ m => some (shlMeaning u m)
  | .shr u _ m => some (shrMeaning u m)
  | .sar u _ m => some (sarMeaning u m)
  | .rol u _ m => some (rolMeaning u m)
  | .min u _ m => some (minMeaning u m)
  | .max u _ m => some (maxMeaning u m)
  | .minu u _ m => some (minuMeaning u m)
  | .maxu u _ m => some (maxuMeaning u m)
  | .abs u _ m32 => some (absMeaning u m32)
  | .sel u _ m => some (selMeaning u m)
  | .ceq u _ m => some (ceqMeaning u m)
  | .cne u _ m => some (cneMeaning u m)
  | .clt u _ m => some (cltMeaning u m)
  | .cle u _ m => some (cleMeaning u m)
  | .cltu u _ m => some (cltuMeaning u m)
  | .cleu u _ m => some (cleuMeaning u m)
  | .popc u _ m32 => some (popcMeaning u m32)
  | .clz u _ m32 => some (clzMeaning u m32)
  | .ctz u _ m32 => some (ctzMeaning u m32)
  | .brev u _ m32 => some (brevMeaning u m32)
  | .bfx u _ m => some (bfxMeaning u m)
  | .bfi u _ m => some (bfiMeaning u m)
  | .perm u _ x1 => some (permMeaning u x1)
  | .lea u _ m => some (leaMeaning u m)
  | .sext u _ m => some (sextMeaning u m)
  | .zext u _ m => some (zextMeaning u m)
  | .pand u _ x1 => some (pandMeaning u x1)
  | .por u _ x1 => some (porMeaning u x1)
  | .pnot u _ => some (pnotMeaning u)
  | .psure u _ => some (psureMeaning u)
  | .poss u _ => some (possMeaning u)
  | .pass u _ => some (passMeaning u)
  | .mul _ m => some (mulMeaning m)
  | .mulh _ m => some (mulhMeaning m)
  | .mulhu _ m => some (mulhuMeaning m)
  | .mad _ m32 => some (madMeaning m32)
  | .mulw _ m => some (mulwMeaning m)
  | .mulwu _ m => some (mulwuMeaning m)
  | .div _ m => some (divMeaning m)
  | .divu _ m => some (divuMeaning m)
  | .rem _ m => some (remMeaning m)
  | .remu _ m => some (remuMeaning m)
  | .fadd _ _ m => some (faddMeaning m)
  | .fsub _ _ m => some (fsubMeaning m)
  | .fmul _ _ m => some (fmulMeaning m)
  | .ffma _ _ m => some (ffmaMeaning m)
  | .fmin _ _ ty => some (fminMeaning ty)
  | .fmax _ _ ty => some (fmaxMeaning ty)
  | .fcmp _ _ m => some (fcmpMeaning m)
  | .fclass _ _ ty => some (fclassMeaning ty)
  | .fcvt _ _ m => some (fcvtMeaning m)
  | .fcvti _ _ m => some (fcvtiMeaning m)
  | .icvtf _ _ m => some (icvtfMeaning m)
  | .frnd _ _ m => some (frndMeaning m)
  | .fsgn _ _ m => some (fsgnMeaning m)
  | .ivadd _ _ => some (ivaddMeaning)
  | .ivsub _ _ => some (ivsubMeaning)
  | .ivmul _ _ => some (ivmulMeaning)
  | .ivfma _ _ => some (ivfmaMeaning)
  | .ivsqr _ _ => some (ivsqrMeaning)
  | .ivhull _ _ => some (ivhullMeaning)
  | .ivmeet _ _ => some (ivmeetMeaning)
  | .ivmid _ _ => some (ivmidMeaning)
  | .ivwid _ _ => some (ivwidMeaning)
  | .ivcmp _ _ r => some (ivcmpMeaning r)
  | .ivmake _ _ => some (ivmakeMeaning)
  | .ivlo _ _ => some (ivloMeaning)
  | .ivhi _ _ => some (ivhiMeaning)
  | .ivbis _ _ => some (ivbisMeaning)
  | .ivabs _ _ => some (ivabsMeaning)
  | .ivin _ _ => some (ivinMeaning)
  | .rcp _ ty => some (rcpMeaning ty)
  | .rsq _ ty => some (rsqMeaning ty)
  | .sqrt _ ty => some (sqrtMeaning ty)
  | .exp2 _ ty => some (exp2Meaning ty)
  | .log2 _ ty => some (log2Meaning ty)
  | .sin _ ty => some (sinMeaning ty)
  | .cos _ ty => some (cosMeaning ty)
  | .tanh _ ty => some (tanhMeaning ty)
  | .ivrcp _ => some (ivrcpMeaning)
  | .ivsqrt _ => some (ivsqrtMeaning)
  | .ivexp2 _ => some (ivexp2Meaning)
  | .ivlog2 _ => some (ivlog2Meaning)
  | .cvtn _ m => some (cvtnMeaning m)
  | .cvtw _ f => some (cvtwMeaning f)
  | .shfi _ => some (shfiMeaning)
  | .shup _ wrap => some (shupMeaning wrap)
  | .shdn _ wrap => some (shdnMeaning wrap)
  | .shxr _ => some (shxrMeaning)
  | .vote _ k => some (voteMeaning k)
  | .ballot _ => some (ballotMeaning)
  | .rdsum _ m32 => some (rdsumMeaning m32)
  | .rdmax _ m => some (rdmaxMeaning m)
  | .rdfsum _ m => some (rdfsumMeaning m)
  | .ld _ _ m => some (ldMeaning m)
  | .lds _ _ m => some (ldsMeaning m)
  | .ldp _ _ m => some (ldpMeaning m)
  | .st _ _ m => some (stMeaning m)
  | .stp _ _ m => some (stpMeaning m)
  | .ldx _ _ m => some (ldxMeaning m)
  | .lda _ _ m => some (ldaMeaning m)
  | .stl _ _ m => some (stlMeaning m)
  | .ldiv _ _ m => some (ldivMeaning m)
  | .stiv _ _ m => some (stivMeaning m)
  | .aadd _ _ m => some (aaddMeaning m)
  | .amin _ _ m => some (aminMeaning m)
  | .amax _ _ m => some (amaxMeaning m)
  | .aminu _ _ m => some (aminuMeaning m)
  | .amaxu _ _ m => some (amaxuMeaning m)
  | .aand _ _ m => some (aandMeaning m)
  | .aor _ _ m => some (aorMeaning m)
  | .axor _ _ m => some (axorMeaning m)
  | .axchg _ _ m => some (axchgMeaning m)
  | .acas _ _ m => some (acasMeaning m)
  | .acas2 _ _ m => some (acas2Meaning m)
  | .afadd _ _ m => some (afaddMeaning m)
  | .qsync _ _ => some (qsyncMeaning)
  | .pref _ _ pin => some (prefMeaning pin)
  | .br _ => some (brMeaning)
  | .bri _ => some (briMeaning)
  | .call _ => some (callMeaning)
  | .ret _ => some (retMeaning)
  | .brp _ r => some (brpMeaning r)
  | .brp3 _ => some (brp3Meaning)
  | .brany _ r => some (branyMeaning r)
  | .brall _ r => some (brallMeaning r)
  | .loop _ => some (loopMeaning)
  | .lbrk _ => some (lbrkMeaning)
  | .exit _ => some (exitMeaning)
  | .yield _ => some (yieldMeaning)
  | .mma _ m => some (mmaMeaning m)
  | .mmab _ m => some (mmabMeaning m)
  | .mmai _ m => some (mmaiMeaning m)
  | .mxzero _ m => some (mxzeroMeaning m)
  | .mxdrain _ c => some (mxdrainMeaning c)
  | .mxred _ c => some (mxredMeaning c)
  | .mxld _ m => some (mxldMeaning m)
  | .mxst _ c => some (mxstMeaning c)
  | .mxrel _ c => some (mxrelMeaning c)
  | .cpack _ d => some (cpackMeaning d)
  | .cpackv _ d => some (cpackvMeaning d)
  | .cmul _ d => some (cmulMeaning d)
  | .cmac _ d => some (cmacMeaning d)
  | .csqr _ d => some (csqrMeaning d)
  | .cadd _ d => some (caddMeaning d)
  | .csub _ d => some (csubMeaning d)
  | .cshl _ d => some (cshlMeaning d)
  | .cext _ => some (cextMeaning)
  | .cextv _ => some (cextvMeaning)
  | .cgw _ => some (cgwMeaning)
  | .cclr _ d => some (cclrMeaning d)
  | .cbig _ d => some (cbigMeaning d)
  | .dcopy _ m => some (dcopyMeaning m)
  | .dfill _ m => some (dfillMeaning m)
  | .dgath _ m => some (dgathMeaning m)
  | .dscat _ m => some (dscatMeaning m)
  | .dstat _ ch1 => some (dstatMeaning ch1)
  | .bar _ l => some (barMeaning l)
  | .bara _ l => some (baraMeaning l)
  | .barw _ l => some (barwMeaning l)
  | .boinit _ => some (boinitMeaning)
  | .boarr _ peer => some (boarrMeaning peer)
  | .boexp _ => some (boexpMeaning)
  | .bowait _ => some (bowaitMeaning)
  | .botest _ peer => some (botestMeaning peer)
  | .boinv _ => some (boinvMeaning)
  | .fence _ m => some (fenceMeaning m)
  | .acq _ sc => some (acqMeaning sc)
  | .rel _ sc => some (relMeaning sc)
  | .trap _ => some (trapMeaning)
  | .brk _ => some (brkMeaning)
  | .csrrd _ => some (csrrdMeaning)
  | .csrwr _ => some (csrwrMeaning)
  | .launch _ => some (launchMeaning)
  | .lwait _ => some (lwaitMeaning)
  | .ivspawn _ => some (ivspawnMeaning)
  | .svc _ => some (svcMeaning)
  | .tstamp _ => some (tstampMeaning)
  | .yields _ => some (yieldsMeaning)
  | .bundleIssue _ => none
  | .markerBundle _ => none
  | .resultLanding _ _ _ => none
  | .loadPerformed _ _ => none
  | .divideComplete _ _ => none
  | .storePerformedAtL1 _ _ => none
  | .storePerformedAtHome _ => none
  | .homeInvalidation _ _ => none
  | .l2LineEviction _ => none
  | .xpcfgWrite _ => none
  | .bankFormatWrite _ => none
  | .commandIssue _ _ => none
  | .reservationGrant _ => none
  | .operandsConsumed _ _ => none
  | .commandCompletion _ _ => none
  | .statusLanding _ _ => none
  | .byteArrival _ => none
  | .bowaitTimeout _ => none
  | .roundClose _ _ _ => none
  | .groupArrival _ => none
  | .roundFailure _ _ _ => none
  | .lateCauseStop _ => none
  | .commandCancel _ _ => none
  | .commandResume _ _ => none
  | .faultHandling _ => none
  | .emulation _ => none
  | .resumedBundle _ => none
  | .debuggerResume _ => none
  | .debuggerSkip _ => none
  | .debuggerTerminate _ => none
  | .watchdog _ => none
  | .softErrorCorrected _ => none
  | .uncorrectable _ => none
  | .sampleRecord _ _ _ _ => none
  | .svcAnswer _ _ => none
  | .launchSubmission _ _ _ => none
  | .launchAcceptance _ => none
  | .spawnedLaunch _ => none
  | .dispatchBatch _ => none
  | .workgroupStart _ => none
  | .sheetExit _ => none
  | .gridRetire _ => none
  | .gridTermination _ => none
  | .functionLevelReset _ => none
  | .scrubStart _ _ => none
  | .scrubComplete _ _ => none
  | .classGRequest _ => none
  | .graphBoundaryStop _ => none
  | .classGEscalation _ => none
  | .classDRequest _ => none
  | .drainPointStop _ => none
  | .forcedStopDeadline _ => none
  | .contextSave _ _ => none
  | .contextRestore _ => none
  | .redirectedRequest _ => none
  | .discardedRequest _ => none
  | .contextKill _ => none
  | .pageWalk _ _ _ => none
  | .pageRequestEnqueue _ => none
  | .pageRequestMapped _ _ _ => none
  | .pageRequestRefused _ _ _ => none
  | .translationInvalidation _ _ => none
  | .partitionTableWrite _ _ _ => none
  | .coreAssignmentWrite _ _ _ => none
  | .coreAssignmentEffect _ => none
  | .vfAssignmentWrite _ _ _ => none
  | .reductionGroupWrite _ _ _ _ => none
  | .pinRelease _ => none
  | .managementRegisterWrite _ _ _ => none
  | .memoryRequestArrival _ _ _ _ => none
  | .memoryRequestServe _ => none
  | .networkSectorGrant _ => none
  | .refillPeriodEnd _ => none
  | .budgetPeriod => none
  | .powerLimitMeasures _ => none
  | .pairBalance _ _ _ => none
  | .boostLeaseRequest _ _ _ _ => none
  | .leaseExpiry _ => none
  | .leaseRetry _ => none
  | .voltageVote _ _ _ => none
  | .clockStepConfirm _ => none
  | .railFall _ => none
  | .counterRead _ _ _ => none
  | .counterLowRead _ _ _ => none
  | .counterHighRead _ _ _ => none
  | .pcselWrite _ _ _ => none
  | .ringDescriptorWrite _ _ _ _ => none
  | .ringReadAdvance _ _ _ => none
  | .policySubmit _ _ => none
  | .lerrRead _ => none
  | .irqstWrite _ _ => none
  | .semaphoreRead _ _ _ => none
  | .semaphoreRelease _ _ => none
  | .portLinkDown _ => none
  | .linkTraining _ _ => none
  | .hostPostedWrite _ _ _ => none
  | .hostRead _ _ _ => none
  | .linkFailure _ _ => none
  | .precopyGo _ _ => none
  | .precopyRound _ => none
  | .precopyFinal _ => none
  | .pageMessageReceive _ _ => none
  | .imageMessageReceive _ _ => none
  | .deviceReset => none
  | .peerDeviceRequest _ => none
  | .hostStoreToCoherentMapping _ _ _ => none
  | .railSettled _ => none
  | .counterWindowEnd _ _ => none

/-- The meanings that a code object of a minor version gives to trigger moves (R136). -/
def meanings (minor : Nat) : Meanings := fun m =>
  let bad : Except Cause OpMeaning := .error (if minor = 0 then .opUnassigned else .opAbsent)
  match decodeMove m with
  | .ok i => match meaningOf i with
    | some o => .ok o
    | none => bad
  | .error _ => bad
/-- The meanings for a sheet's kernel. -/
def sheetMeanings (s : State) (sid : Nat) : Meanings :=
  meanings (match s.sheet? sid with
    | some sh => (s.kernelOf sh).minor
    | none => 0)

/-! ## Markers (R103, R334) -/

/-- Drift `d` and whether it saturated, to 24 bits. -/
def driftSat (c ecyc : Nat) : Int × Bool :=
  let d : Int := (c : Int) - (ecyc : Int)
  if d < -(2 ^ 23) then (-(2 ^ 23), true) else if 2 ^ 23 - 1 < d then (2 ^ 23 - 1, true) else (d, false)

/-- Drift, record and arming at a marker whose pass 0 issues at value `c` of CYCLE. -/
def markAt (s : State) (sid : Nat) (m : Marker) (c : Nat) : State :=
  match s.sheet? sid with
  | none => s
  | some sh =>
    let (d, sat) := driftSat c m.ecyc.toNat
    let armed := sh.markArm && m.thresh != 0 && decide ((m.thresh.toNat : Int) < d - signed 24 sh.drift.toNat)
    let s := s.setSheet sid { sh with drift := BitVec.ofInt 24 d, armed := armed }
    if sh.markLog then driftRecord s (s.partOf sh) sid m.mark.toNat (BitVec.ofInt 24 d) armed sat else s

/-- A sheet's marker bundle issues; none where it must wait. -/
def issueMarker (s : State) (sid : Nat) (m : Marker) : Option State :=
  match s.sheet? sid with
  | none => none
  | some sh0 =>
    let core := coreOf sid
    let c := s.cycle core
    if !stageOpen s sid sh0 then none
    else if (match sh0.nest with
        | some n => !bodyOk n m.le []
        | none => false) then
      some (s.takeCause sid (bundleTrap sh0 s.ts Cause.bundleIllegal.flt []))
    else
      let s := startCycles (s.setSheet sid (sh0.atIssue (fun p => c + p))) sh0.wg c
      let sh := (s.sheet? sid).getD sh0
      let s := interlockTrace s sid sh sh.pc [] c s
      let s := account s sid sh.pc (c + sh.passes) m.stall.toNat 0 [] []
      let s := markAt s sid m (sh.cycleAt c)
      let s := s.mapSheet sid (fun y => { y.advance (.markerBundle m) sh.pc 16 with corrupt := none })
      some (arriveAfter s sid)

/-! ## The resumed bundle (R287) -/

/-- The saved move in the reported slot of a stop. -/
def Trap.reported (t : Trap) : Option SavedMove := t.blocks.find? (fun m => m.slot == t.rslot)

/-- What the service of BARRIER_OVERRUN and SPAWN_OVERFLOW waits on (R279): PHASE of the object that the reported move
names, HEAD of its spawn queue. -/
def serviceMark (s : State) (sh : Sheet) (t : Trap) : Nat :=
  match t.cause, t.reported with
  | .barrierOverrun, some m =>
    let own := match decodeMove m.move with
      | .ok (.boarr _ true) =>
        (match s.wg? sh.wg, s.gridOf sh with
         | some w, some g => peerOf s w g.lrec.clw (sh.getX .syn 1 0).toNat
         | _, _ => sh.wg)
      | _ => sh.wg
    objPhase (objAt s own (m.vals.getD 0 0).toNat)
  | .spawnOverflow, some m => headMark s sh (m.vals.getD 0 0)
  | _, _ => t.until_

/-- Whether a stopped sheet's bundle may be resumed: its service is done, or what it waits on has changed (R279). -/
def mayResume (s : State) (sh : Sheet) (t : Trap) : Bool :=
  sh.park == .resume ||
  (sh.park == .service && (t.cause == .barrierOverrun || t.cause == .spawnOverflow) && serviceMark s sh t != t.until_)

/-- The bundle made of the moves of a stop that are not done; none where it must wait. Its passes read no source (R287). A stop
of the whole bundle fetches it again, a stop after commit goes on at the next bundle. -/
def issueResumed (s : State) (sid : Nat) : Option State :=
  match s.sheet? sid with
  | none => none
  | some sh0 =>
    match sh0.trap with
    | none => none
    | some t =>
      let core := coreOf sid
      let c := s.cycle core
      if !mayResume s sh0 t || decide (c < getD (s.core core).busy 0 (s.colOf sid)) || decide (c < sh0.nextIssue) then none
      else if t.late || t.whole then some (s.setSheet sid sh0.returnFrom)
      else
        let own := (s.core core).splitFrom
        let times := passStarts (dcap s sid) own (s.colOf sid) (inSlots s sid t.blocks) [] sh0.passes 0 c
        let sh := sh0.atIssue (fun p => times.1.getD p c)
        if (inSlots s sid t.blocks 0 && ownedCycle own (s.colOf sid) c != c) ||
          t.blocks.any (fun m => (List.range sh.passes).any (fun p => vregWaits s sid p m || imuBusy sh p m)) then none
        else
          commitBundle (s.setSheet sid sh) sid sh t.bundle t.instr t.blocks [] t.done t.waive t.skips (sheetMeanings s sid) times

/-- RESUMED_BUNDLE: a class D stop that waited for the end of the park follows it at the next bundle boundary, unless the
sheet has exited or a cause has stopped it (R289, R295). -/
def resumedBundle (sid : Nat) (s : State) : State :=
  match issueResumed s sid with
  | none => s
  | some s => s.mapSheet sid (fun sh => { sh with stopNext := sh.park == .running && !sh.left && classDPending s sh })

/-! ## The steps -/

/-- BUNDLE_ISSUE (R64): the sheet in focus issues the bundle. -/
def execBundleIssue (b : Bundle) (s : State) : Host.Outcome State Fault Refusal :=
  .next (issueOrWait s s.focus b (.bundleIssue b) (sheetMeanings s s.focus))
/-- MARKER_BUNDLE (R334): the sheet in focus issues the marker. -/
def execMarkerBundle (m : Marker) (s : State) : Host.Outcome State Fault Refusal :=
  .next ((issueMarker s s.focus m).getD (noteWait s s.focus ⟨.narrow, 0, false, false, []⟩ (sheetMeanings s s.focus)))
/-- RESUMED_BUNDLE (R287). -/
def execResumedBundle (sid : Nat) (s : State) : Host.Outcome State Fault Refusal :=
  runEvent (.resumedBundle sid) (resumedBundle sid) s

end Sys2Proof.Machine
end

