-- ==== Sys2Proof/Machine/Portable.lean ====
section
/-! DEFINITION. The portable form (04 R105 to R108): which encodings its translation refuses, and what a translation of a
code object keeps of it (14 R347, R348). The bytes of a translation are the firmware's (log 16). -/

namespace Sys2Proof.Machine

/-- A source code that an operation may name: one of R97 that is no port (R106). -/
def kpfSource (c : Nat) : Bool :=
  match Src.ofCode c with
  | some (.latch _ _) => false
  | some _ => true
  | none => false

/-- A destination code that an operation may name: a register, a shape shadow, or 0x3FF for none (R105, R106). -/
def kpfDest (c : Nat) : Bool :=
  c == 0x3FF || (match Dst.ofCode c with
    | some (.x _ _) => false
    | some (.t _) => false
    | some _ => true
    | none => false)

/-- Whether the `n` registers after a code are vector or uniform registers of its class (R107). -/
def kpfNext (c n : Nat) : Bool := decide (c + n < 0x80) || (decide (0x80 ≤ c) && decide (c + n < 0xC0))

/-- Whether an operation delivers a `q` result. -/
def deliversQ (i : Instr) : Bool :=
  match i with
  | .call _ => true
  | _ => (meaningOf i).any (fun o => o.delivers != 0)

/-- Whether an operation delivers a `w` result. -/
def deliversW (i : Instr) : Bool :=
  match i with
  | .mulw _ _ => true
  | .mulwu _ _ => true
  | .div _ _ => true
  | .divu _ _ => true
  | .rem _ _ => true
  | .remu _ _ => true
  | .ivbis _ _ => true
  | .ldp _ _ _ => true
  | .acas2 _ _ _ => true
  | _ => false

/-- How many of x2 and x3 an LSU operation reads (R107). -/
def readsBeyond (i : Instr) : Nat :=
  match i with
  | .stp _ _ _ => 1
  | .acas _ _ _ => 1
  | .acas2 _ _ _ => 2
  | _ => 0

/-- A pseudo-operation of R108: every bit not named is zero. -/
def kpfPseudo (n : Nat) : Bool :=
  match bits n 53 7 with
  | 1 => bits n 0 53 == 0
  | 2 => bits n 34 19 == 0
  | 3 => bits n 24 29 == 0
  | 4 => bits n 0 53 == 0
  | _ => false

/-- An operation of 64 bits that its translation does not refuse (R105 to R108). An encoding that the opcode map leaves
unassigned is copied as it is (R138). -/
def kpfOp (n : Nat) : Bool :=
  match FUnit.ofNum (bits n 60 4) with
  | none => kpfPseudo n
  | some u =>
    let dst := bits n 32 10
    match Guard.ofBits (bits n 46 2) (bits n 42 4) with
    | none => false
    | some g =>
      !bitAt n 0 && kpfSource (bits n 22 10) && kpfSource (bits n 12 10) && kpfSource (bits n 2 10) && kpfDest dst &&
      (match decodeOp u ⟨g, BitVec.ofNat 10 (bits n 2 10), bitAt n 1⟩ (bits n 53 7) (bits n 48 5) with
       | .error _ => true
       | .ok i => (deliversQ i || dst == 0x3FF) && (!deliversW i || kpfNext dst 1) &&
         (readsBeyond i == 0 || kpfNext (bits n 12 10) (readsBeyond i)))

/-- The destinations that an operation names, `w`'s among them (R106, R107). -/
def kpfDests (n : Nat) : List Nat :=
  match FUnit.ofNum (bits n 60 4) with
  | none => []
  | some u =>
    let dst := bits n 32 10
    if dst = 0x3FF then []
    else match decodeOp u ⟨.always, BitVec.ofNat 10 (bits n 2 10), bitAt n 1⟩ (bits n 53 7) (bits n 48 5) with
      | .ok i => if deliversW i then [dst, dst + 1] else [dst]
      | .error _ => [dst]
/-- Whether two operations of a bundle may name their destinations (R65, R106). -/
def kpfShare (a b : Nat) : Bool :=
  !(kpfDests a).any (kpfDests b).contains ||
  (bits a 42 4 == bits b 42 4 && bits a 46 2 != 0 && bits b 46 2 != 0 && bits a 46 2 != bits b 46 2)
def kpfShares : List Nat → Bool
  | [] => true
  | a :: r => r.all (kpfShare a) && kpfShares r

/-- The operations of a code section. -/
def kpfWords (code : List Byte) : List Nat := (List.range (code.length / 8)).map (fun k => leNat ((code.drop (8 * k)).take 8))

/-- The code section of a portable object: whole bundles of four operations, none of which the translation refuses (R105, R106). -/
def kpfCode (code : List Byte) : Bool :=
  code.length % 32 == 0 && (kpfWords code).all kpfOp &&
  (List.range (code.length / 32)).all (fun k => kpfShares (((kpfWords code).drop (4 * k)).take 4))

/-- Whether the header of a translation keeps what R348 keeps: SHW, WG, SCRA, SCRW, TILES, LIMBS, PATV and BOUND; LAT holds the
native latencies (R69), and REGS is at least that of the object. -/
def keepsHeader (h t : Nat) : Bool :=
  [(128, 2), (144, 16), (176, 16), (192, 16), (160, 8), (168, 8), (248, 4), (320, 32)].all (fun (f : Nat × Nat) =>
    bits t f.1 f.2 == bits h f.1 f.2) &&
  (List.range 8).all (fun c => bits t (208 + 4 * c) 4 == native c) && decide (bits h 136 8 ≤ bits t 136 8)

end Sys2Proof.Machine
end

