-- ==== Sys2Proof/Machine/Kpf.lean ====
section
/-! DEFINITION. What portable code means and what a translation of it is (04 R105 to R108; 14 R346 to R350): the effect of a KPF
bundle executed by R106, the effect of the native bundles that stand for it, and the translations whose bundles have the same
effect. Both effects are on terms: what the registers held before the bundle, and the results of its operations. -/

namespace Sys2Proof.Machine

/-! ## Terms -/

/-- A value in a thread that executes the bundle. -/
inductive KTerm where
  /-- what a source code read before the bundle -/
  | init (code : Nat)
  | const (v : W64)
  /-- the q or w result of an operation of the bundle -/
  | res (k : Nat) (w : Bool)
  /-- the value of the lowest active thread (R67) -/
  | lead (t : KTerm)
  /-- `a` where a guard holds on the predicate `p`, else `b` -/
  | pick (sense : Nat) (p a b : KTerm)
  /-- bits 1:0, as a predicate holds them (R68) -/
  | code (t : KTerm)
  /-- a value or-ed with a constant, as `limm` is built (R101) -/
  | orr (t : KTerm) (v : W64)
  /-- `t` × 2^`k` + `c` -/
  | affine (t : KTerm) (k : Nat) (c : W64)
  /-- not known: a port not written in the bundle, a latch read before its bound -/
  | unknown
  deriving DecidableEq, Repr

/-- A source code that every thread of a sheet reads alike (R97). -/
def kUniform (c : Nat) : Bool :=
  (decide (0x80 ≤ c) && decide (c < 0xD0)) || (decide (0xF4 ≤ c) && decide (c < 0xF8)) || (decide (0xF9 ≤ c) && decide (c < 0x116))

/-- The value of the lowest active thread, for all threads. -/
def KTerm.leads : KTerm → KTerm
  | .init c => if kUniform c then .init c else .lead (.init c)
  | .const v => .const v
  | .lead t => .lead t
  | .pick g p a b => .pick g p.leads a.leads b.leads
  | .unknown => .unknown
  | .orr t v => .orr t.leads v
  | .affine t k c => .affine t.leads k c
  | t => .lead t

/-- Whether a value is known: one that is not equals no other. -/
def KTerm.known : KTerm → Bool
  | .unknown => false
  | .lead t => t.known
  | .pick _ p a b => p.known && a.known && b.known
  | .code t => t.known
  | .orr t _ => t.known
  | .affine t _ _ => t.known
  | _ => true
/-- Whether two values are the same. -/
def KTerm.same (a b : KTerm) : Bool := a == b && a.known

/-- `a` under a guard, else `b`. Moves under one predicate with different senses exclude each other (R65): the lesser sense stands
outside, and of two of one sense the later counts. -/
def kPick (sense : Nat) (p a b : KTerm) : KTerm :=
  if sense = 0 then a
  else
    let a := match a with
      | .pick g q x y => if g = sense ∧ q = p then x else .pick g q x y
      | t => t
    match b with
    | .pick g q x y =>
      if q = p ∧ g = sense then .pick sense p a y
      else if q = p ∧ g < sense then .pick g q x (.pick sense p a y)
      else .pick sense p a b
    | _ => .pick sense p a b

/-- What `limm` holds after an update (R101). -/
def kLimm (mode c : Nat) (old : KTerm) : KTerm :=
  if mode = 0 then .const (w64 c)
  else if mode = 1 then .const (sext64 32 c)
  else if mode = 2 then .const (w64 (c * 2 ^ 32))
  else kOr old (w64 (c * 2 ^ 32))
where
  /-- A value or-ed with a constant. -/
  kOr (t : KTerm) (v : W64) : KTerm :=
    match t with
    | .const x => .const (x ||| v)
    | .orr t x => .orr t (x ||| v)
    | .unknown => .unknown
    | t => .orr t v

/-- A value of every thread as a multiple and an offset of one before the bundle. -/
def KTerm.linear? : KTerm → Option (KTerm × Nat × W64)
  | .init c => if kUniform c then some (.init c, 0, 0) else none
  | .lead t => some (.lead t, 0, 0)
  | .affine t k c => some (t, k, c)
  | _ => none

/-- Results of SAL that are known from its operands: PASS, ADD, SUB, SHL and OR with a constant. -/
def kFold (u : FUnit) (opc mod sense : Nat) (x0 t : KTerm) : Option KTerm :=
  if u = .sal ∧ mod = 0 ∧ sense = 0 then
    match opc, x0, t with
    | 0x27, _, .const v => some (.const v)
    | 0x27, _, t => t.linear?.map (fun _ => t)
    | 0x01, .const x, .const v => some (.const (x + v))
    | 0x01, x, .const v => x.linear?.map (fun (b, k, c) => .affine b k (c + v))
    | 0x02, .const x, .const v => some (.const (x - v))
    | 0x02, x, .const v => x.linear?.map (fun (b, k, c) => .affine b k (c - v))
    | 0x08, .const x, .const v => if v.toNat < 64 then some (.const (x <<< v.toNat)) else none
    | 0x08, x, .const v =>
      if v.toNat < 64 then x.linear?.map (fun (b, k, c) => .affine b (k + v.toNat) (c <<< v.toNat)) else none
    | 0x05, .const x, .const v => some (.const (x ||| v))
    | 0x05, .init c, .const v => if kUniform c then some (.orr (.init c) v) else none
    | 0x05, .orr t x, .const v => some (.orr t (x ||| v))
    | _, _, _ => none
  else none

/-! ## The registers of the portable form -/

/-- What a register holds: in the threads that execute the bundle, and in the others (R67). -/
structure KVal where
  on : KTerm
  off : KTerm
  deriving DecidableEq, Repr

/-- Registers by destination code, a shape shadow at 0x1000 above its code; as before the bundle where not listed. -/
abbrev KRegs := SMap KVal
def kGet (m : KRegs) (c : Nat) : KVal := getD m ⟨.init c, .init c⟩ c
/-- Key of a destination. -/
def kKey (c : Nat) : Nat := if c < 0x100 then c else 0x1000 + c
/-- A move of a value under a guard: a uniform one writes every thread (R67), a predicate takes bits 1:0 (R68). -/
def kWrite (m : KRegs) (dst sense : Nat) (uni : Bool) (p v : KTerm) : KRegs :=
  let k := kKey dst
  let v := if 0xD0 ≤ dst ∧ dst < 0xE0 then KTerm.code v else v
  let all := uni || !decide (dst < 0x80 ∨ (0xD0 ≤ dst ∧ dst < 0xE0))
  let old := kGet m k
  let (p, v) := if all then (p.leads, v.leads) else (p, v)
  setD m ⟨.init k, .init k⟩ k ⟨kPick sense p v old.on, if all then kPick sense p v old.off else old.off⟩

/-! ## A KPF bundle (R105, R106) -/

/-- An operation of a KPF bundle. -/
structure KOp where
  unit : Nat
  opc : Nat
  mod : Nat
  sense : Nat
  pred : Nat
  dst : Nat
  a : Nat
  b : Nat
  c : Nat
  uni : Bool
  deriving DecidableEq, Repr

def KOp.ofNat (n : Nat) : KOp :=
  ⟨bits n 60 4, bits n 53 7, bits n 48 5, bits n 46 2, bits n 42 4, bits n 32 10, bits n 22 10, bits n 12 10, bits n 2 10, bitAt n 1⟩
/-- The unit that a move of the operation names, in the column of the translation (R347). -/
def kColumn : FUnit → FUnit
  | .alb => .ala
  | .fpb => .fpa
  | .lsb => .lsa
  | u => u
def KOp.unit? (o : KOp) : Option FUnit := (FUnit.ofNum o.unit).map kColumn

/-- The operation, where its encoding is assigned. -/
def KOp.instr? (o : KOp) (u : FUnit) : Option Instr := (decodeOp u ⟨.always, BitVec.ofNat 10 o.c, o.uni⟩ o.opc o.mod).toOption

/-- A trigger: operation, guard, and the values of t and the operand entries. -/
structure KTrig where
  unit : FUnit
  opc : Nat
  mod : Nat
  uni : Bool
  sense : Nat
  p : KTerm
  t : KTerm
  xs : List KTerm
  deriving DecidableEq, Repr

/-- The value of a source before the bundle. -/
def kSource (limm : KTerm) (c : Nat) : KTerm :=
  if c = 0xFE then limm
  else match Src.ofCode c with
    | some (.imm v) => .const v
    | some .zero => .const 0
    | some _ => .init c
    | none => .unknown

/-- The trigger that an operation makes, with all operands and the guard as they stood before the bundle (R106); x2 and x3 come from
OPB + 1 and OPB + 2 (R107). -/
def KOp.trig (limm : KTerm) (o : KOp) (u : FUnit) : KTrig :=
  let fit (t : KTerm) : KTerm := if u.uniform || o.uni then t.leads else t
  let beyond := (o.instr? u).elim 0 readsBeyond
  ⟨u, o.opc, o.mod, o.uni, o.sense, if o.sense = 0 then .const 0 else fit (.init (0xD0 + o.pred)), fit (kSource limm o.c),
    [o.a, o.b].map (fun c => fit (kSource limm c)) ++ (List.range beyond).map (fun k => fit (kSource limm (o.b + 1 + k)))⟩

/-- What a KPF bundle does (R106, R108): triggers and branches by operation, markers, whether it drains, `limm`, registers. -/
structure KEffect where
  trigs : List (Nat × KTrig)
  ctl : List (Nat × KTrig)
  marks : List (Nat × Nat)
  drain : Bool
  limm : KTerm
  regs : KRegs

/-- The results of operation `k` are written (R106, R107): `q` to DST, `w` to the register after it. -/
def kResults (m : KRegs) (k : Nat) (o : KOp) (u : FUnit) (x : KTrig) : KRegs :=
  if o.dst = 0x3FF then m
  else
    let p := KTerm.init (0xD0 + o.pred)
    let value (w : Bool) : KTerm := match kFold u o.opc o.mod o.sense (x.xs.getD 0 .unknown) x.t with
      | some v => v
      | none => kPick x.sense x.p (.res k w) .unknown
    let m := kWrite m o.dst o.sense o.uni p (value false)
    if (o.instr? u).any deliversW then kWrite m (o.dst + 1) o.sense o.uni p (value true) else m

/-- The effect of a KPF bundle of four operations (R106) where `limm` holds `limm0`: all operands and guards are read before it,
`limm` updated first; all results are written after it. -/
def kpfEffect (limm0 : KTerm) (ops : List Nat) : KEffect :=
  let pseudo (n : Nat) : List Nat := ops.filter (fun x => bits x 60 4 == 15 && bits x 53 7 == n)
  let limm := (pseudo 2).foldl (fun l x => kLimm (bits x 32 2) (bits x 0 32) l) limm0
  let os := ops.zipIdx.filterMap (fun (n, k) => let o := KOp.ofNat n; o.unit?.map (fun u => (k, o, u, o.trig limm u)))
  { trigs := (os.filter (fun (_, _, u, _) => u != .bru)).map (fun (k, _, _, x) => (k, x))
    ctl := (os.filter (fun (_, _, u, _) => u == .bru)).map (fun (k, _, _, x) => (k, x))
    marks := (pseudo 3).map (fun x => (bits x 0 16, bits x 16 8))
    drain := !(pseudo 4).isEmpty
    limm := limm
    regs := os.foldl (fun m (k, o, u, x) => kResults m k o u x) [] }

/-! ## The native bundles of a KPF bundle -/

/-- Cycles within which a result has landed in its latch (R69, R70); 0 for a port that stalls (R71). -/
def kLatency (u : FUnit) (opc mod : Nat) (x0 : KTerm) : Nat :=
  let wide := bits mod 2 2 == 1 || (opc == 9 && (match x0 with
    | .const v => v.toNat % 4 == 1
    | _ => true))
  match u with
  | .imu => if opc ≤ 6 then native 2 else 0
  | .fpa => if 16 ≤ opc then native 5 else if wide then native 4 else native 3
  | .fpb => if 16 ≤ opc then native 5 else if wide then native 4 else native 3
  | .xfu => if 15 ≤ opc ∧ opc ≤ 20 then native 7 else native 6
  | u => match unitClasses u with
    | [c] => native c
    | _ => 0
/-- Whether an operation acts across the passes of a sheet, so that its latency counts from the last pass (R70). -/
def kCross (u : FUnit) (opc : Nat) : Bool := u == .xfu && decide (15 ≤ opc)

/-- A run of native bundles: registers, `limm`, operand entries, latches with the cycle of their bound, the cycle, the operations
that have been triggered with the DP of their bundle, the branches of the bundle at hand, markers, and the SAL triggers that build a
constant (R350): opcode, x0, t. -/
structure KRun where
  regs : KRegs
  limm : KTerm
  ents : SMap KTerm
  lats : SMap (KTerm × Nat)
  cyc : Nat
  used : List (Nat × Bool)
  ctl : List (KTrig × Bool)
  marks : List (Nat × Nat)
  builds : List (Nat × KTerm × KTerm)
  ok : Bool

/-- A source as a native move reads it. -/
def KRun.source (r : KRun) (c : Nat) : KTerm :=
  match Src.ofCode c with
  | some (.latch u k) => (match lookup r.lats (u.num * 2 + k) with
    | some (t, due) => if due ≤ r.cyc then t else .unknown
    | none => .unknown)
  | some .limm => r.limm
  | some (.imm v) => .const v
  | some .zero => .const 0
  | some _ => if c < 0xE0 then (kGet r.regs c).on else .init c
  | none => .unknown

/-- A move with what it has read: guard and value, those of the lowest active thread where it is uniform (R67). -/
def KRun.read (r : KRun) (m : Move) : Move × KTerm × KTerm :=
  let fit (t : KTerm) : KTerm := if Move.uniform m then t.leads else t
  (m, if m.sense = 0 then .const 0 else fit (kGet r.regs (0xD0 + m.pred.toNat)).on, fit (r.source m.src.toNat))

/-- The write of a move; moves into x ports carry no guard (R347). -/
def KRun.write (r : KRun) (e : Move × KTerm × KTerm) : KRun :=
  let (m, p, v) := e
  match Dst.ofCode m.dst.toNat with
  | some (.x u k) => { r with ents := put r.ents (u.num * 4 + k) (if m.sense = 0 then v else .unknown) }
  | some (.t _) => r
  | some _ => { r with regs := kWrite r.regs m.dst.toNat m.sense.toNat (Move.uniform m) p v }
  | none => { r with ok := false }

/-- Whether a native trigger is one that an operation makes. -/
def KTrig.matches (want have_ : KTrig) : Bool :=
  want.unit == have_.unit && want.opc == have_.opc && want.mod == have_.mod && (want.unit.uniform || want.uni == have_.uni) &&
  want.sense == have_.sense && want.p.same have_.p && want.t.same have_.t && want.xs.all KTerm.known &&
  want.xs == have_.xs.take want.xs.length

/-- Whether only registers that a translation has added are changed (R348). -/
def KRun.clean (r : KRun) (regs : Nat) : Bool := (keys r.regs).all (fun k => decide (regs ≤ k) && decide (k < 0x80))

/-- A trigger of a native move: a branch, an operation of the KPF bundle that has not been triggered yet, whose results are to land in
its latches, or a step of the building of a value with SAL (R350). An engine, SYN or SYS trigger may read registers and shapes of its own,
so it comes before any result is written. -/
def KRun.trigger (e : KEffect) (regs passes : Nat) (dp : Bool) (r : KRun) (x : Move × KTerm × KTerm) : KRun :=
  let (m, p, v) := x
  match Dst.ofCode m.dst.toNat with
  | some (.t u) =>
    let opc := m.opc.toNat
    let xs := (List.range 4).map (fun k => getD r.ents .unknown (u.num * 4 + k))
    let t : KTrig := ⟨kColumn u, opc, m.mod.toNat, m.uni, m.sense.toNat, p, v, xs⟩
    let due := r.cyc + kLatency u opc m.mod.toNat (xs.getD 0 .unknown) + (if kCross u opc then passes - 1 else 0)
    let land (k : Nat) (c : KTerm) (l : SMap (KTerm × Nat)) : SMap (KTerm × Nat) :=
      put l (u.num * 2 + k) (c, max due ((lookup l (u.num * 2 + k)).elim 0 (·.2)))
    if u = .bru then { r with ctl := r.ctl ++ [(t, dp)] }
    else
      let fold := kFold u opc m.mod.toNat m.sense.toNat (xs.getD 0 .unknown) v
      match e.trigs.find? (fun w => !(r.used.any (fun q => q.1 == w.1)) && w.2.matches t), fold with
      | none, none => { r with ok := false }
      | none, some c =>
        { r with
          lats := land 0 c r.lats
          builds := match c with
            | .const _ => r.builds ++ [(opc, xs.getD 0 .unknown, v)]
            | _ => r.builds }
      | some (k, w), fold =>
        { r with
          ok := r.ok && (u.num < 10 || r.clean regs)
          used := r.used ++ [(k, dp)]
          lats := land 1 (kPick w.sense w.p (.res k true) .unknown)
            (land 0 (fold.getD (kPick w.sense w.p (.res k false) .unknown)) r.lats) }
  | _ => r

/-- A native bundle (R64): `limm` first, then every read, every write, every trigger. -/
def KRun.bundle (e : KEffect) (regs top passes : Nat) (half : Bool) (r : KRun) (b : Bundle) : KRun :=
  let ms := liveSlots b
  let r := match b.format with
    | .wideLimm mode c => { r with limm := kLimm mode.toNat c.toNat r.limm }
    | _ => r
  let rd := ms.map (fun x => r.read x.2)
  let s := rd.foldl (fun s x => KRun.trigger e regs passes b.dp s x) (rd.foldl KRun.write r)
  { s with
    cyc := r.cyc + passes + b.stall.toNat
    ok := s.ok && r.ctl.isEmpty && (!half || b.format == .narrow) && ms.all (fun x => moveOk x.2 top half) && sharesOk ms &&
      b.slots.all (fun m => m.dst != 0x3FF || emptyOk m) }
/-- Bundles and markers in order; nothing follows a branch. -/
def KRun.instr (e : KEffect) (regs top passes : Nat) (half : Bool) (r : KRun) : Instr → KRun
  | .bundleIssue b => r.bundle e regs top passes half b
  | .markerBundle m => { r with marks := r.marks ++ [(m.mark.toNat, m.thresh.toNat)], cyc := r.cyc + passes + m.stall.toNat
                                ok := r.ok && r.ctl.isEmpty }
  | _ => { r with ok := false }

/-- The native bundles from an offset up to another, with their offsets. -/
def nativeRun (bs : List Byte) : Nat → Nat → Nat → List (Nat × Instr)
  | 0, _, _ => []
  | n + 1, lo, hi =>
    if hi ≤ lo then []
    else
      match (decode (bs.drop lo)).toOption with
      | some i => (lo, i) :: nativeRun bs n (lo + sizeOfFmt (leNat ((bs.drop lo).take 1) % 4)) hi
      | none => []
/-- Bytes of a native instruction. -/
def instrSize : Instr → Nat
  | .bundleIssue b => b.format.size
  | _ => 16

/-! ## A translation (R346 to R350) -/

/-- A translation of a portable object: its bytes; the offset of the native bundles of each KPF bundle, and of their end; for half-cores
the vector register that holds `limm` (R350). -/
structure Translation where
  bytes : List Byte
  starts : List Nat
  limmReg : Nat
  deriving DecidableEq, Repr, Inhabited

/-- What a check of a translation works on. -/
structure KCtx where
  half : Bool
  /-- REGS of the object, and of the translation -/
  regs : Nat
  top : Nat
  passes : Nat
  code : List Nat
  tr : Translation
  /-- every KPF bundle that reads `limm` sets it to a constant -/
  own : Bool
  /-- the KPF bundles that may be reached from elsewhere than the bundle before them -/
  leaders : List Nat

/-- The operations of KPF bundle `i`. -/
def kpfOps (code : List Nat) (i : Nat) : List Nat := (code.drop (4 * i)).take 4

/-- What `limm` is known to hold as each KPF bundle from `i` on begins, where `l` held as bundle `i` did: a constant that the bundles
before it have left, unless it may be reached from elsewhere. -/
def limmsFrom (code leaders : List Nat) : Nat → Nat → KTerm → List KTerm
  | 0, _, _ => []
  | n + 1, i, l =>
    let l := if leaders.contains i then .init 0xFE else l
    l :: limmsFrom code leaders n (i + 1) (match (kpfEffect l (kpfOps code i)).limm with
      | .const v => .const v
      | _ => .init 0xFE)

/-- The KPF bundles to which the branches of bundle `i` go, where `limm` is `l`; a target that is not a constant may be any bundle,
and so may those of BRI and RET, which name addresses. -/
def kpfTargets (code : List Nat) (i : Nat) (l : KTerm) : List Nat :=
  let goes (t : KTerm) : List Nat := match t with
    | .const o => [(o.toNat - 256) / 32]
    | _ => List.range (code.length / 4)
  (kpfEffect l (kpfOps code i)).ctl.flatMap (fun (_, x) =>
    (i + 1) :: (if x.opc = 6 then goes x.t ++ goes (x.xs.getD 1 .unknown)
      else if x.opc = 9 then (match x.t with
        | .const v => [i + 2 + bits v.toNat 8 4]
        | _ => List.range (code.length / 4))
      else if x.opc ≤ 8 then goes x.t else []))

/-- All bundles that may be reached from elsewhere than the bundle before them, those of `known` among them: with more of them, fewer
targets are known. -/
def kpfLeaders (code : List Nat) : Nat → List Nat → List Nat
  | 0, known => known
  | n + 1, known =>
    let ls := limmsFrom code known (code.length / 4) 0 (.init 0xFE)
    let new := (ls.zipIdx.flatMap (fun (l, i) => kpfTargets code i l)).dedup.filter (fun k => !known.contains k)
    if new.isEmpty then known else kpfLeaders code n (known ++ new)

/-- What `limm` is known to hold as KPF bundle `i` begins. -/
def KCtx.limm0 (x : KCtx) (i : Nat) : KTerm :=
  if x.own then .init 0xFE else (limmsFrom x.code x.leaders (x.code.length / 4) 0 (.init 0xFE)).getD i (.init 0xFE)
def KCtx.effect (x : KCtx) (i : Nat) : KEffect := kpfEffect (x.limm0 i) (kpfOps x.code i)
/-- The native offset of a KPF offset (R348). -/
def KCtx.offset (x : KCtx) (o : Nat) : Option Nat := if 256 ≤ o ∧ o % 32 = 0 then x.tr.starts[(o - 256) / 32]? else none
/-- The native bundles of KPF bundle `i`. -/
def KCtx.segment (x : KCtx) (i : Nat) : List (Nat × Instr) :=
  nativeRun x.tr.bytes 256 (x.tr.starts.getD i 0) (x.tr.starts.getD (i + 1) 0)

/-- A run before any bundle. -/
def KRun.blank : KRun :=
  { regs := [], limm := .const 0, ents := [], lats := [], cyc := 0, used := [], ctl := [], marks := [], builds := [], ok := true }
/-- A value that an operand entry holds after a run, in terms of the registers that the run leaves; none where none of them holds it. -/
def KRun.carried (r : KRun) (t : KTerm) : Option KTerm :=
  let cs := ((keys r.regs).filter (fun c => decide (c < 0xE0))) ++ (match t with
    | .init c => if c < 0xE0 then [c] else []
    | .lead (.init c) => if c < 0xE0 then [c] else []
    | _ => [])
  match t with
  | .const v => some (.const v)
  | _ => match cs.find? (fun c => (kGet r.regs c).on.same t) with
    | some c => some (.init c)
    | none => (cs.find? (fun c => (kGet r.regs c).on.leads.same t)).map (fun c => (KTerm.init c).leads)
/-- A run as KPF bundle `i` begins, after the run of the bundle before it: for half-cores the register that holds `limm` holds it;
operand entries hold what they held, unless the bundle may be reached from elsewhere (R347). -/
def KCtx.begin (x : KCtx) (i : Nat) (prev : KRun) : KRun :=
  { KRun.blank with
    regs := if x.half then [(x.tr.limmReg, ⟨x.limm0 i, x.limm0 i⟩)] else []
    limm := if x.half then .const 0 else x.limm0 i
    ents := if x.leaders.contains i then [] else prev.ents.filterMap (fun e => (prev.carried e.2).map (fun t => (e.1, t))) }
/-- The run of native instructions. -/
def KCtx.run (x : KCtx) (e : KEffect) (r : KRun) (is : List (Nat × Instr)) : KRun :=
  is.foldl (fun r i => r.instr e x.regs x.top x.passes x.half i.2) r

/-- Whether registers are as an effect leaves them, but for those that the translation has added. -/
def KCtx.sameRegs (x : KCtx) (a b : KRegs) : Bool :=
  (keys a ++ keys b).all (fun k => (decide (x.regs ≤ k) && decide (k < 0x80)) ||
    ((kGet a k).on.same (kGet b k).on && (kGet a k).off.same (kGet b k).off))

/-- Whether a trigger value is a KPF offset turned into a native one (R348): of a constant its offset; of a value of the program, its
multiple and an offset, where the native bundles of all KPF bundles are laid out so. -/
def KCtx.target (x : KCtx) (want have_ : KTerm) : Bool :=
  match want, have_ with
  | .const o, .const n => x.offset o.toNat == some n.toNat
  | w, h =>
    match w.linear?, h.linear? with
    | some (b, k, c), some (b', k', c') =>
      let d := c' - c <<< (k' - k)
      b.same b' && decide (k ≤ k') &&
      (List.range (x.code.length / 4)).all (fun i => w64 (x.tr.starts.getD i 0) == w64 (256 + 32 * i) <<< (k' - k) + d)
    | _, _ => false

/-- Whether a LOOP names the native bundles of its body, of which the last alone has LE (R81, R82). -/
def KCtx.loop (x : KCtx) (i : Nat) (want have_ : KTerm) : Bool :=
  match want, have_ with
  | .const o, .const n =>
    let lb := bodyLen o
    let body := (List.range lb).flatMap (fun k => x.segment (i + 1 + k))
    let le : Instr → Bool
      | .bundleIssue b => b.le
      | .markerBundle m => m.le
      | _ => false
    bits n.toNat 8 4 + 1 == body.length && n.toNat % 2 ^ 8 == o.toNat % 2 ^ 8 && n.toNat / 2 ^ 12 == o.toNat / 2 ^ 12 &&
    body.zipIdx.all (fun (b, k) => le b.2 == (k + 1 == body.length))
  | _, _ => false

/-- Whether a native branch is that of operation `k`: targets are native offsets, a call whose result goes to a register calls a stub
that moves it there and branches on. -/
def KCtx.branch (x : KCtx) (i : Nat) (e : KEffect) (k : Nat) (want have_ : KTrig) : Bool :=
  let dst := bits (x.code.getD (4 * i + k) 0) 32 10
  let same := KTrig.matches { want with t := have_.t } have_
  match want.opc with
  | 1 => same && x.target want.t have_.t
  | 3 =>
    same && (if dst = 0x3FF then x.target want.t have_.t
      else match have_.t with
        | .const n =>
          let is := nativeRun x.tr.bytes 8 n.toNat (n.toNat + 256)
          let is := is.take (is.findIdx (fun j => match j.2 with
            | .bundleIssue b => (liveSlots b).any (fun m => unitOfT m.2.dst.toNat == some .bru)
            | _ => false) + 1)
          let r0 := { x.begin i .blank with lats := [(FUnit.bru.num * 2, (.res k false, 0))] }
          let r := x.run ⟨[], [], [], false, e.limm, []⟩ r0 is
          let taken := kResults [] k (KOp.ofNat (x.code.getD (4 * i + k) 0)) .bru { want with sense := 0 }
          r.ok && x.sameRegs r.regs taken && (match r.ctl with
            | [(t, _)] => t.opc == 1 && t.sense == 0 && x.target want.t t.t
            | _ => false)
        | _ => false)
  | 5 => same && x.target want.t have_.t
  | 6 => KTrig.matches { want with t := have_.t, xs := want.xs.take 1 } have_ && x.target want.t have_.t &&
    x.target (want.xs.getD 1 .unknown) (have_.xs.getD 1 .unknown)
  | 7 => same && x.target want.t have_.t
  | 8 => same && x.target want.t have_.t
  | 9 => same && x.loop i want.t have_.t
  | _ => KTrig.matches want have_

/-- Whether a list of operation numbers rises: accesses enter the queues, and engine, SYN and SYS triggers are made, in operation
order (R346). -/
def risingNat : List Nat → Bool
  | a :: b :: r => decide (a < b) && risingNat (b :: r)
  | _ => true

/-- Whether the predicates stand as before the bundle, as a branch on them must find them. -/
def KRun.predsKept (r : KRun) : Bool := (keys r.regs).all (fun k => !(decide (0xD0 ≤ k) && decide (k < 0xE0)))

/-- Bytes of a value as R350 counts them: the least number of which its sign extension is the value. -/
def sigBytes (v : W64) : Nat :=
  ((List.range 8).map (· + 1)).find? (fun k => v == BitVec.ofInt 64 (signed (8 * k) v.toNat)) |>.getD 8
/-- Whether a value has been built in as many steps as R350 allows it. -/
def kBuilt : Option (W64 × Nat) → Bool
  | some (v, k) => decide (k ≤ sigBytes v)
  | none => true
/-- Whether SAL triggers build values by R350: PASS of the highest byte, read as signed, then for each further byte SHL of the value
by 8 and OR of the byte. `cur` is the value under way and its bytes. -/
def kScheme (cur : Option (W64 × Nat)) : List (Nat × KTerm × KTerm) → Bool
  | [] => kBuilt cur
  | (0x27, _, .const v) :: r => kBuilt cur && v == BitVec.ofInt 64 (signed 8 v.toNat) && kScheme (some (v, 1)) r
  | (0x08, .const a, .const n) :: (0x05, .const b, .const c) :: r =>
    match cur with
    | some (v, k) =>
      a == v && n == 8 && b == v <<< 8 && decide (c.toNat < 256) && kScheme (some (v <<< 8 ||| c, k + 1)) r
    | none => false
  | _ => false

/-- The run of the native bundles of KPF bundle `i`. -/
def KCtx.after (x : KCtx) (i : Nat) (prev : KRun) : KRun := x.run (x.effect i) (x.begin i prev) (x.segment i)

/-- Whether the native bundles of KPF bundle `i` do what it does (R346, R347), after the run `prev` of those of the bundle before it:
every trigger once and in order, with the operands and guards of before the bundle; its branches last; its registers. -/
def KCtx.bundleOk (x : KCtx) (i : Nat) (prev : KRun) : Bool :=
  let e := x.effect i
  let r := x.after i prev
  let before := x.run e (x.begin i prev) (x.segment i).dropLast
  let ordered := (r.used.map (·.1)).filter (fun k => e.trigs.any (fun w => w.1 == k && decide (6 ≤ w.2.unit.num) && w.2.unit != .sal))
  let first := minList 4 ((e.trigs ++ e.ctl).map (·.1))
  let drained := i != 0 && (x.effect (i - 1)).drain
  let calls := e.ctl.filter (fun c => c.2.opc == 3)
  let regs := (calls.map (·.1)).foldl (fun m k => drop m (kKey (bits (x.code.getD (4 * i + k) 0) 32 10))) e.regs
  r.ok && r.used.length == e.trigs.length && risingNat ordered && r.marks == e.marks &&
  r.ctl.length == e.ctl.length && e.ctl.all (fun c => r.ctl.any (fun t => x.branch i e c.1 c.2 t.1)) &&
  (e.ctl.all (fun c => !(decide (5 ≤ c.2.opc) && decide (c.2.opc ≤ 8))) || before.predsKept) &&
  (e.ctl.isEmpty || before.ctl.isEmpty) && x.sameRegs r.regs regs &&
  (if x.half then
      kScheme none r.builds && (x.own || ((kGet r.regs x.tr.limmReg).on.same e.limm && (kGet r.regs x.tr.limmReg).off.same e.limm))
    else x.own || r.limm.same e.limm) &&
  (!drained || r.used.any (fun q => q.1 == first && q.2) || (e.ctl.any (fun c => c.1 == first) && r.ctl.any (·.2)))

/-- Whether every KPF bundle of a code that reads `limm` sets it to a constant first. -/
def kpfOwnLimm (code : List Nat) : Bool :=
  (List.range (code.length / 4)).all (fun i =>
    let ops := (code.drop (4 * i)).take 4
    ops.all (fun n => bits n 60 4 == 15 || (bits n 22 10 != 0xFE && bits n 12 10 != 0xFE && bits n 2 10 != 0xFE)) ||
    (match (kpfEffect (.init 0xFE) ops).limm with
     | .const _ => true
     | _ => false))

/-- The reconvergence table of an object (R111), as offsets. -/
def rcvTable (bs : List Byte) (n : Nat) : List (Nat × Nat) :=
  (List.range n).map (fun k => (leNat ((bs.drop (8 * k)).take 4), leNat ((bs.drop (8 * k + 4)).take 4)))

/-- Whether a translation keeps what R348 keeps of the header and tables, with ENTRY and the reconvergence table rewritten. -/
def KCtx.headerKept (x : KCtx) (obj : List Byte) : Bool :=
  let h := leNat (obj.take 256)
  let t := leNat (x.tr.bytes.take 256)
  let table (bs : List Byte) (h : Nat) : List (Nat × Nat) := rcvTable (bs.drop (bits h 256 32)) (bits h 240 8)
  let lastOf (o : Nat) : Option Nat := (x.segment ((o - 256) / 32)).getLast?.map (·.1)
  let want := (table obj h).map (fun (b, r) => ((x.offset b).bind (fun _ => lastOf b), x.offset r))
  let have_ := (table x.tr.bytes t).map (fun (b, r) => (some b, some r))
  keepsHeader h t && x.offset (bits h 64 32) == some (bits t 64 32) && want.length == have_.length &&
  want.all have_.contains &&
  (bits h 248 4 == 0 || (obj.drop (bits h 288 32)).take 256 == (x.tr.bytes.drop (bits t 288 32)).take 256)

/-- Whether every KPF bundle of a context is translated, each after the one before it. -/
def KCtx.allOk (x : KCtx) : Bool :=
  ((List.range (x.code.length / 4)).foldl (fun (ok, prev) i => (ok && x.bundleOk i prev, x.after i prev)) (true, KRun.blank)).1

/-- Whether a native object is a translation of a portable one by R346 to R348, and R350 for half-cores. -/
def translates (half : Bool) (obj : List Byte) (tr : Translation) : Bool :=
  let h := leNat (obj.take 256)
  let t := leNat (tr.bytes.take 256)
  let code := kpfWords ((obj.drop 256).take (bits h 96 32))
  let bundle (o : Nat) : Nat := (o - 256) / 32
  let known := bundle (bits h 64 32) ::
    (rcvTable (obj.drop (bits h 256 32)) (bits h 240 8)).flatMap (fun (b, r) => [bundle b + 1, bundle r])
  let x : KCtx := ⟨half, bits h 136 8, bits t 136 8, 2 ^ bits h 128 2, code, tr, kpfOwnLimm code,
    kpfLeaders code (code.length / 4 + 1) (0 :: known)⟩
  tr.starts.length == code.length / 4 + 1 && tr.starts.head? == some 256 &&
  (!half || (decide (x.regs ≤ tr.limmReg) && decide (tr.limmReg < x.top)) || x.own) &&
  x.headerKept obj && x.allOk

/-! ## Firmware's choice -/

/-- The first number below a bound with a property. -/
def findBelow (p : Nat → Bool) : Nat → Option Nat
  | 0 => none
  | n + 1 =>
    match findBelow p n with
    | some k => some k
    | none => if p n then some n else none

/-- The translations of an object of `bundles` KPF bundles, by number: any bytes, any places. -/
def Translation.ofNat (bundles n : Nat) : Translation :=
  let size := n % 2 ^ 32
  let body := n / 2 ^ 39
  ⟨leBytes size body, (List.range (bundles + 1)).map (fun k => bits (body / 256 ^ size) (32 * k) 32), n / 2 ^ 32 % 128⟩

/-- Firmware's choice for an object, for whole cores or half-cores (R349, log 16). -/
opaque firmwareChoice (half : Bool) (obj : List Byte) : Translation
/-- What firmware makes of an object that no translation of the shapes taken here stands for: other native code, or none where it
cannot be translated (R348, log 16). -/
opaque firmwareOther (half : Bool) (obj : List Byte) : Option Translation

/-- Firmware's translation of a portable code object (R346 to R350, log 16), for whole cores or half-cores, on its bytes: the one of its
choice, or, where that is none, the first of at most 2^16 bytes for each byte of the object. -/
def firmwareTranslate (half : Bool) (obj : List Byte) : Option Translation :=
  let bundles := bits (leNat (obj.take 256)) 96 32 / 32
  if translates half obj (firmwareChoice half obj) then some (firmwareChoice half obj)
  else
    match findBelow (fun n => translates half obj (.ofNat bundles n))
        (2 ^ 39 * 256 ^ (2 ^ 16 * obj.length) * 2 ^ (32 * (bundles + 1))) with
    | some n => some (.ofNat bundles n)
    | none => firmwareOther half obj

end Sys2Proof.Machine
end

