-- ==== Sys2Proof/Machine/Landing.lean ====
section
/-! DEFINITION. What arrives at latches, memory and barrier objects on its own (03 R70; 08 R193, R199, R205; 07 R180, R188;
10 R251, R263, R264; 09 R238, R480; 16 R401), and the requests to saved workgroups (10 R268, R270). -/

namespace Sys2Proof.Machine

/-! ## Latches -/

/-- The oldest result on its way to a latch of a unit and thread. -/
def oldestFlight (sh : Sheet) (u : FUnit) (t : Nat) : Option Flight :=
  sh.flights.find? (fun f => f.unit == u && f.thread == t)

/-- RESULT_LANDING (R70): an exposed result lands before its bound; the value of a CSR move of FPSR not before those it
waits for (R152). -/
def resultLanding (sid : Nat) (u : FUnit) (t : Nat) (s : State) : State :=
  s.mapSheet sid (fun sh =>
    match oldestFlight sh u t with
    | some f =>
      if f.stalling ∨ f.ready = false ∨ (u = .sys ∧ s.cycle (coreOf sid) < f.due) then sh
      else { sh.deliver u t f.q f.w with flights := sh.flights.erase f }
    | none => sh)

/-- DIVIDE_COMPLETE (R401): the oldest pending divide of a thread lands. -/
def divideComplete (sid t : Nat) (s : State) : State :=
  s.mapSheet sid (fun sh =>
    match sh.flights.find? (fun f => f.unit == .imu && f.thread == t && f.stalling && !f.ready) with
    | some f => sh.fill f.id f.q f.w
    | none => sh)

/-! ## The queues, L1 and homes -/

/-- An access of a sheet's queue is performed, and the ordering operations it held complete. -/
def performed (sid k : Nat) (kind : Access → Bool) (s : State) : State :=
  match (s.sheet? sid).bind (fun sh => sh.queue[k]?) with
  | some a =>
    if kind a then
      match performAt s sid k with
      | some s' => settle 64 s'.drew sid
      | none => s
    else s
  | none => s

/-- LOAD_PERFORMED (R199): a load or atomic. -/
def loadPerformed (sid k : Nat) (s : State) : State := performed sid k Access.isLoad s
/-- STORE_PERFORMED_AT_L1 (R199). -/
def storePerformedAtL1 (sid k : Nat) (s : State) : State := performed sid k (fun a => a.kind == .store) s

/-- STORE_PERFORMED_AT_HOME (R205): a store on its way, in the order of its words, and of the mesh between its die and that
of its home (R13). -/
def storePerformedAtHome (k : Nat) (s : State) : State :=
  match s.homeq[k]? with
  | none => s
  | some h =>
    if homeBehind (s.homeq.take k) h then s
    else settle 64 (homePerform { s with homeq := s.homeq.take k ++ s.homeq.drop (k + 1) } h) h.sid

/-- HOME_INVALIDATION (R193): the home takes a word from the L1 that registered it. -/
def homeInvalidation (core word : Nat) (s : State) : State :=
  if getD s.reg 0 word = core + 1 then invalidateWord s core word else s

/-- L2_LINE_EVICTION (R193, R194): a line that is not pinned leaves; its registered words are invalidated, its dirty sectors
are written back (R22). -/
def l2LineEviction (line : Nat) (s : State) : State := if (lookup s.pinned line).isSome then s else evictLine s line

/-! ## Register writes that waited (R180, R188) -/

/-- A result of the SYS unit lands, and the sheet waits for it no longer. -/
def endSys (s : State) (sid id : Nat) (v : W64) : State :=
  s.mapSheet sid (fun sh => { sh.fill id (some v) none with sys := .land id })

/-- XPCFG_WRITE (R188): pattern PAT is loaded from the image read, and XPCFG records AOFF and PAT. -/
def xpcfgWrite (sid : Nat) (s : State) : State :=
  match (s.sheet? sid).map (fun (sh : Sheet) => sh.sys) with
  | some (.csr w) =>
    if w.num = 0x004 then
      let pat := w.val.toNat % 4
      let s := s.mapSheet sid (fun sh =>
        { sh with xp := if xpNf w.image = 0 then drop sh.xp pat else put sh.xp pat w.image
                  xpAoff := BitVec.ofNat 11 (bits w.val.toNat 6 11), xpPat := BitVec.ofNat 2 pat })
      endSys s sid w.id 0
    else s
  | _ => s

/-- BANK_FORMAT_WRITE (R180): once every block of the bank is thread-owned. -/
def bankFormatWrite (sid : Nat) (s : State) : State :=
  match s.sheet? sid with
  | none => s
  | some sh =>
    match sh.sys, s.wg? sh.wg with
    | .csr w, some g =>
      match csrBank w.num with
      | some (a, b) =>
        if bankHeld s sh.wg g a b then s
        else endSys (writeBank s sid sh.wg a b (s.cycle (coreOf sid)) w.val) sid w.id 0
      | none => s
    | _, _ => s

/-! ## Arrivals at barrier objects (R251, R263) -/

/-- Redirect entry of a workgroup (R267). -/
def redirectOf (s : State) (wg : Nat) : Option Redirect :=
  (s.dies.flatMap (fun d => d.2.redirects)).find? (fun r => r.wg == wg)

/-- An arrival at a workgroup that is not resident goes on as a request. -/
def arriveRequest (s : State) (a : Arrival) : State :=
  { s with peerReqs := s.peerReqs ++ [⟨a.part, (a.cmd.map (·.1)).getD 0, a.wg, a.off, .arrive a.bytes, s.ts, a.ord⟩] }

/-- What an arrival does to an object (R263). -/
def arriveObj (o : Nat) : Option Nat → Nat × Bool
  | some m => objByteArrival o m
  | none => objGroupArrival o

/-- An arrival takes effect at its object in its turn (R265), or waits while the object's block is engine-owned or its core is
under scrub (R197). -/
def arriveNow (s s' : State) (a : Arrival) : State :=
  if (s.wg? a.wg).isNone then arriveRequest s' a
  else if !objectFree s a.wg a.off || !stepTurn s a.wg a.off a.ord then s
  else objStep (noteStep s' a.wg a.off a.ord) a.wg a.off (arriveObj (readObj s a.wg a.off) a.bytes)

/-- BYTE_ARRIVAL (R251, R263). -/
def byteArrival (k : Nat) (s : State) : State :=
  match s.arrivals[k]? with
  | some a => arriveNow s { s with arrivals := s.arrivals.take k ++ s.arrivals.drop (k + 1) } a
  | none => s
/-- GROUP_ARRIVAL (R218, R263). -/
def groupArrival (k : Nat) (s : State) : State :=
  match s.roundArrivals[k]? with
  | some a => arriveNow s { s with roundArrivals := s.roundArrivals.take k ++ s.roundArrivals.drop (k + 1) } a
  | none => s

/-- BOWAIT_TIMEOUT (R264): in its turn among the steps at the object (R265), the waiter's bit is cleared and 0 is delivered. -/
def bowaitTimeout (sid : Nat) (s : State) : State :=
  match s.sheet? sid with
  | none => s
  | some sh =>
    match sh.wait with
    | .object off _ id =>
      let ord := synRank s sid sh false
      if timeoutDue s sid sh off && stepTurn s sh.wg off ord && !lowerStep s sid sh.wg off ord then
        let o := readObj s sh.wg off
        let s := if bitAt (objWaiters o) sh.num then
            writeObj s sh.wg off (objSetWaiters o (objWaiters o - 2 ^ sh.num))
          else s
        let s := noteStep s sh.wg off ord
        settle 64 (s.mapSheet sid (fun sh => { sh.release id 0 with wait := .land id })) sid
      else s
    | _ => s

/-! ## Reduction rounds (R236 to R238, R480) -/

def gField (g : Group) (lo n : Nat) : Nat := bits g.word.toNat lo n
def Group.nmem (g : Group) : Nat := gField g 244 12

/-- One level of the tree of R238. DEDUCED (log 86): the sum of two zeros of one sign is a zero of that sign, as IEEE 754 has it. -/
def redLevel (int : Bool) : List (Option (BitVec 32)) → List (Option (BitVec 32))
  | a :: b :: r =>
    (match a, b with
     | some x, some y => some (if int then x + y else
         BitVec.ofNat 32 (fpAdd .f32 .rne false (f32v x.toNat) (f32v y.toNat)).1)
     | some x, none => some x
     | none, y => y) :: redLevel int r
  | [a] => [a]
  | [] => []
/-- The sum over members in the fixed tree, absent members padding to a power of two. -/
def redTree (int : Bool) : Nat → List (Option (BitVec 32)) → BitVec 32
  | 0, l => ((l.head?).bind id).getD 0
  | n + 1, l => if l.length ≤ 1 then ((l.head?).bind id).getD 0 else redTree int n (redLevel int l)

/-- An element as it is delivered: an FP32 NaN in its canonical form (R147). -/
def redElem (int : Bool) (v : BitVec 32) : BitVec 32 :=
  if !int && (f32v v.toNat).isNan then BitVec.ofNat 32 Fmt.f32.nan else v

/-- Row `r` of the result of a round. -/
def roundRow (g : Group) (cs : List Contrib) (r : Nat) : List (BitVec 32) :=
  let bym : List (Option Contrib) := (List.range g.nmem).map (fun m => cs.find? (fun c => c.m == m))
  (List.range 128).map (fun j => redElem (Group.int g)
    (redTree (Group.int g) 13 (bym.map (fun c => c.map (fun c => c.rows.getD (r * 128 + j) 0)))))

/-- Whether every member has contributed. -/
def roundFull (g : Group) (r : Round) : Bool := (List.range g.nmem).all (fun m => r.contribs.any (fun c => c.m == m))

/-- The core and column that BCORE or DCORE names, as a descriptor's member index on device DDEV. -/
def gMember (g : Group) (lo : Nat) : Option Nat :=
  Group.index g (gField g 272 16) (gField g lo 11) (gField g (lo + 11) 1)
/-- The workgroup whose MXRED was the contribution of the member that a field names (R236). -/
def gWorkgroup (g : Group) (r : Round) (lo : Nat) : Option Nat :=
  (gMember g lo).bind (fun m => (r.contribs.find? (fun c => c.m == m && decide (c.core < Config.numCores))).map (·.wg))

/-- Where a row of a round goes: pieces in global memory, a run of a workgroup's A buffer, or the device that DDEV names (R236). -/
inductive RowPlace where
  | glob (pieces : List (Nat × Nat))
  | abuf (wg off : Nat)
  | away

/-- Where row `k` of a round goes, or why it cannot be written. -/
def rowPlace (s : State) (g : Group) (r : Round) (k : Nat) : Except Flt RowPlace :=
  let step := (r.roff + k) * gField g 352 32
  if gField g 242 2 = 1 then
    let off := gField g 384 17 + step
    if gField g 272 16 ≠ s.deviceNo then .ok .away
    else
      match gWorkgroup g r 320 with
      | none => .error Cause.spaceBounds.flt
      | some w =>
        if ((s.wg? w).map (fun x => decide (x.aSize < off + 512))).getD false then .error Cause.spaceBounds.flt
        else .ok (.abuf w off)
  else
    let va := (gField g 384 64 + step) % 2 ^ 64
    if 2 ^ 48 < va + 512 then .error ⟨.translation, trInfo .engineStore 5 1, w64 va⟩
    else
      match translateRun s Config.numCores (gField g 288 10) .engineStore (pageCuts 2 va 512) with
      | .error f => .error f
      | .ok (ps, _) => .ok (.glob ps)

/-- Whether a row may be written now: its workgroup's core is not under scrub (R197). -/
def rowFree (s : State) : RowPlace → Bool
  | .abuf w _ => (match s.wg? w with
    | some x => (lookup (s.core x.core).scrub x.col).isNone
    | none => true)
  | _ => true
/-- Writes one row; one of another device's A buffer goes there over the links (R359). -/
def writeRow (s : State) (part : Nat) (place : RowPlace) (row : List (BitVec 32)) : State :=
  let bs := row.flatMap (fun v => leBytes 4 v.toNat)
  match place with
  | .glob ps => storePieces s (Asker.device part) ps bs
  | .abuf w off => applyWrite (Asker.device part) s (.abuf w off bs)
  | .away => s

def setRound (s : State) (part g roff : Nat) (f : Round → Round) : State :=
  { s with rounds := s.rounds.map (fun r => if r.part = part ∧ r.group = g ∧ r.roff = roff then f r else r) }
def getRound (s : State) (part g roff : Nat) : Option Round :=
  s.rounds.find? (fun r => r.part == part && r.group == g && r.roff == roff)
def dropRound (s : State) (part g roff : Nat) : State :=
  { s with rounds := s.rounds.filter (fun r => !(r.part == part && r.group == g && r.roff == roff)) }

/-- The rows that can be written are written, from the first that is not; the rest wait. -/
def writeRows : Nat → State → Nat → Group → Round → State
  | 0, s, _, _, _ => s
  | n + 1, s, part, g, r =>
    if r.rows < Group.rows g then
      match rowPlace s g r r.rows with
      | .error _ => s
      | .ok p =>
        if !rowFree s p then s
        else
          let s := writeRow s part p (roundRow g r.contribs r.rows)
          let r := { r with rows := r.rows + 1 }
          writeRows n (setRound s part r.group r.roff (fun _ => r)) part g r
    else s

/-- Whether a fault of the device's own access is a miss that a page request can still mend. -/
def openMiss (s : State) (who : Misser) (vf : Nat) (f : Flt) : Bool :=
  isMiss f && !s.refusedPages.contains (who, vf, f.addr.toNat / 4096)
/-- The page request of an access of the device itself (R238, R308, R479); the queue is that of die 0. -/
def deviceMiss (s : State) (who : Misser) (part vf : Nat) (f : Flt) : State :=
  joinRequest s 0 part vf (f.addr.toNat / 4096) (f.info % 8) who
/-- What was refused to a launch or round that has been decided is forgotten. -/
def forgetRefusals (s : State) (who : Misser) : State :=
  { s with refusedPages := s.refusedPages.filter (fun r => r.1 != who) }

/-- ROUND_CLOSE (R238): the result is written, acknowledged, and one arrival is made at the completion object. -/
def roundClose (part gi roff : Nat) (s : State) : State :=
  match s.group part gi, getRound s part gi roff with
  | some g, some r =>
    if !roundFull g r then s
    else
      let s := writeRows 16 s part g r
      match getRound s part gi roff with
      | none => s
      | some r =>
        if Group.rows g ≤ r.rows then
          let s := dropRound s part gi roff
          if gField g 272 16 ≠ s.deviceNo then s
          else
            match gWorkgroup g r 336 with
            | some w => { s with roundArrivals := s.roundArrivals ++ [⟨none, none, w, gField g 303 17, part, s.ts, 2⟩] }
            | none => s
        else
          match rowPlace s g r r.rows with
          | .error f =>
            if openMiss s (.round part gi roff) (gField g 288 10) f then
              deviceMiss s (.round part gi roff) part (gField g 288 10) f
            else s
          | .ok _ => s
  | _, _ => s

/-- The sheet or the saved sheet of a contribution stops before its next bundle (R480). DESIGN CHOICE (log 88): a contributing sheet
that has exited while others of its workgroup remain is counted as if none remained. -/
def lateStop (part : Nat) (info : Nat) (s : State) (c : Contrib) : State :=
  let rec_ (sh : Sheet) : Sheet := { sh with lates := sh.lates ++ [{ Trap.blank sh.pc s.ts with
    cause := .engineError, late := true, done := [0, 1, 2, 3, 4, 5], info := info }] }
  let saved (r : ImageRec) : Bool := match r with
    | .sheet sid sh => sid == c.sid && sh.wg == c.wg
    | _ => false
  if (s.sheet? c.sid).any (fun sh => sh.wg == c.wg) then s.mapSheet c.sid rec_
  else if (s.part part).image.any saved then
    s.mapPart part (fun p => { p with image := p.image.map (fun r => match r with
      | .sheet sid sh => if sid = c.sid ∧ sh.wg = c.wg then .sheet sid (rec_ sh) else r
      | r => r) })
  else counted s
where
  /-- No sheet remains: FAULTS counts, the driver gets a report. -/
  counted (s : State) : State :=
    (s.event part c.core c.sid 7 15 1).mapPart part (fun p =>
      { p with driverReports := p.driverReports ++ [Cause.engineError.code] })

/-- ENGINE_ERROR for one contribution of a failed round: its command stops and is cancelled, or its sheet stops. -/
def failMember (part gi roff : Nat) (s : State) (c : Contrib) : State :=
  let info := gi + 2 ^ 16 * roff
  if 1536 ≤ c.core then s
  else
    match (s.core c.core).cmds.find? (fun p => p.2.num == c.num) with
    | some (e, k) => cancelCmd c.core e (lateCause s c.core e k ⟨.engineError, info, 0⟩)
    | none => lateStop part info s c

/-- A round fails: nothing further of it is written, ENGINE_ERROR goes to its members (R238, R480). -/
def failRound (part gi roff : Nat) (r : Round) (s : State) : State :=
  r.contribs.foldl (failMember part gi roff) (dropRound s part gi roff)

/-- ROUND_FAILURE (R238, R480): the next row of a full round cannot be written, and no page request can mend it. -/
def roundFailure (part gi roff : Nat) (s : State) : State :=
  match s.group part gi, getRound s part gi roff with
  | some g, some r =>
    if !roundFull g r || decide (Group.rows g ≤ r.rows) then s
    else
      match rowPlace s g r r.rows with
      | .ok _ => s
      | .error f =>
        if openMiss s (.round part gi roff) (gField g 288 10) f then s
        else failRound part gi roff r (forgetRefusals s (.round part gi roff))
  | _, _ => s

/-! ## Requests to saved workgroups (R268 to R270) -/

/-- Acts on a saved workgroup's A buffer in its image, as if the workgroup stood on its core. -/
def onImage (s : State) (part wg : Nat) (f : State → State) : State :=
  let img := (s.part part).image
  let w? := img.findSome? (fun r => match r with
    | .workgroup id w => if id == wg then some w else none
    | _ => none)
  let m? := img.findSome? (fun r => match r with
    | .abuf id m => if id == wg then some m else none
    | _ => none)
  match w?, m? with
  | some w, some m =>
    let s := f (s.setWg wg { w with abuf := m })
    let m' := match s.wg? wg with
      | some w => w.abuf
      | none => m
    { s.mapPart part (fun p => { p with image := p.image.map (fun r => match r with
        | .abuf id x => if id = wg then .abuf id m' else .abuf id x
        | r => r) }) with wgs := drop s.wgs wg }
  | _, _ => s

/-- The step of a BOARR that was on its way has been made, or the request discarded: the sheet hears of it (R481). -/
def answerStep (s : State) (sid slot : Nat) (r : Except Flt W64) (mark : Nat) : State :=
  stepDone (s.mapSheet sid (fun sh => { sh with queue := sh.queue.filter (fun (a : Access) => a.act != .sent slot) }))
    sid slot .syn r mark
/-- BOTEST has its value: its acquire follows (R209). -/
def answerTest (s : State) (sid id : Nat) (v : W64) : State := settle 64 (s.mapSheet sid (fun sh => sh.release id v)) sid

/-- What a request does at the buffer it reaches. -/
def requestAt (q : PeerReq) (s : State) : State :=
  match q.op with
  | .access sid a =>
    (match s.sheet? sid with
     | some sh => (match sh.queue.findIdx? (fun b => b.id == a.id) with
       | some k => settle 64 (performEntry s sid q.part (sh.queue.take k) a (sh.queue.drop (k + 1))) sid
       | none => s)
     | none => if a.isStore then performEntry s sid q.part [] a [] else s)
  | .write bs => s.mapWg q.wg (fun w => w.writeBuf true q.off bs)
  | .arrive m => objStep s q.wg q.off (arriveObj (readObj s q.wg q.off) m)
  | .boarr n sid slot =>
    let (r, t) := objectStep s (.boarr n) q.wg q.off
    answerStep t sid slot r (objPhase (readObj s q.wg q.off))
  | .botest sid id => answerTest s sid id (w64 (readObj s q.wg q.off))

/-- Whether an older request to the same workgroup waits. -/
def behindRequest (s : State) (k wg : Nat) : Bool := (s.peerReqs.take k).any (fun r => r.wg == wg)

/-- Whether an engine owns a block of the A buffer that a request reaches there: it waits (R184, R263). -/
def requestHeld (s : State) (q : PeerReq) : Bool :=
  (match q.op with
   | .access _ a => a.blocks
   | .write bs => blocksOf true q.wg q.off bs.length
   | _ => blocksOf true q.wg q.off 16).any (engineOwned s)

/-- REDIRECTED_REQUEST (R268, R269): performed on the image, or at the core once the workgroup is restored; held while
its entry is locked. -/
def redirectedRequest (k : Nat) (s : State) : State :=
  match s.peerReqs[k]? with
  | none => s
  | some q =>
    if behindRequest s k q.wg then s
    else
      let s' := { s with peerReqs := s.peerReqs.take k ++ s.peerReqs.drop (k + 1) }
      match redirectOf s q.wg with
      | some r => if r.locked then s else onImage s' r.part q.wg (requestAt q)
      | none => if (s.wg? q.wg).isSome ∧ scrubHolds s q.wg = false ∧ requestHeld s q = false then requestAt q s' else s

/-- The sheet that a request's event names: its sender, or the core's first where the sender is an engine or a round. -/
def PeerReq.sid (s : State) (q : PeerReq) : Nat :=
  match q.op with
  | .access sid _ => sid
  | .boarr _ sid _ => sid
  | .botest sid _ => sid
  | _ => unitSid q.core (ownCol s q.core q.part)

/-- What a discarded request leaves its sender: an access leaves the queue, a load, an atomic, BOARR and BOTEST deliver 0. -/
def discardReply (q : PeerReq) (s : State) : State :=
  match q.op with
  | .access sid a =>
    s.mapSheet sid (fun sh =>
      let sh := { sh with queue := sh.queue.filter (fun b => b.id != a.id) }
      if a.isLoad then sh.fill a.flight (some 0) (if a.kind = .cas2 ∨ a.form = .pair then some 0 else none) else sh)
  | .boarr _ sid slot => answerStep s sid slot (.ok 0) 0
  | .botest sid id => answerTest s sid id 0
  | _ => s

/-- DISCARDED_REQUEST (R270): neither a resident workgroup nor an entry owns the allocation. -/
def discardedRequest (k : Nat) (s : State) : State :=
  match s.peerReqs[k]? with
  | none => s
  | some q =>
    if behindRequest s k q.wg || (redirectOf s q.wg).isSome || (s.wg? q.wg).isSome then s
    else
      (discardReply q { s with peerReqs := s.peerReqs.take k ++ s.peerReqs.drop (k + 1) }).event q.part q.core (PeerReq.sid s q) 7 11 1

/-! ## The steps -/

/-- RESULT_LANDING (R70). -/
def execResultLanding (sid : Nat) (u : FUnit) (t : Nat) (s : State) : Host.Outcome State Fault Refusal :=
  runEvent (.resultLanding sid u t) (resultLanding sid u t) s
/-- LOAD_PERFORMED (R199). -/
def execLoadPerformed (sid k : Nat) (s : State) : Host.Outcome State Fault Refusal :=
  runEvent (.loadPerformed sid k) (loadPerformed sid k) s
/-- DIVIDE_COMPLETE (R401). -/
def execDivideComplete (sid t : Nat) (s : State) : Host.Outcome State Fault Refusal :=
  runEvent (.divideComplete sid t) (divideComplete sid t) s
/-- STORE_PERFORMED_AT_L1 (R199). -/
def execStorePerformedAtL1 (sid k : Nat) (s : State) : Host.Outcome State Fault Refusal :=
  runEvent (.storePerformedAtL1 sid k) (storePerformedAtL1 sid k) s
/-- STORE_PERFORMED_AT_HOME (R205). -/
def execStorePerformedAtHome (k : Nat) (s : State) : Host.Outcome State Fault Refusal :=
  runEvent (.storePerformedAtHome k) (storePerformedAtHome k) s
/-- HOME_INVALIDATION (R193). -/
def execHomeInvalidation (core word : Nat) (s : State) : Host.Outcome State Fault Refusal :=
  runEvent (.homeInvalidation core word) (homeInvalidation core word) s
/-- L2_LINE_EVICTION (R193). -/
def execL2LineEviction (line : Nat) (s : State) : Host.Outcome State Fault Refusal :=
  runEvent (.l2LineEviction line) (l2LineEviction line) s
/-- XPCFG_WRITE (R188). -/
def execXpcfgWrite (sid : Nat) (s : State) : Host.Outcome State Fault Refusal :=
  runEvent (.xpcfgWrite sid) (xpcfgWrite sid) s
/-- BANK_FORMAT_WRITE (R180). -/
def execBankFormatWrite (sid : Nat) (s : State) : Host.Outcome State Fault Refusal :=
  runEvent (.bankFormatWrite sid) (bankFormatWrite sid) s
/-- BYTE_ARRIVAL (R251). -/
def execByteArrival (k : Nat) (s : State) : Host.Outcome State Fault Refusal :=
  runEvent (.byteArrival k) (byteArrival k) s
/-- BOWAIT_TIMEOUT (R264). -/
def execBowaitTimeout (sid : Nat) (s : State) : Host.Outcome State Fault Refusal :=
  runEvent (.bowaitTimeout sid) (bowaitTimeout sid) s
/-- ROUND_CLOSE (R238). -/
def execRoundClose (part g roff : Nat) (s : State) : Host.Outcome State Fault Refusal :=
  runEvent (.roundClose part g roff) (roundClose part g roff) s
/-- GROUP_ARRIVAL (R263). -/
def execGroupArrival (k : Nat) (s : State) : Host.Outcome State Fault Refusal :=
  runEvent (.groupArrival k) (groupArrival k) s
/-- ROUND_FAILURE (R480). -/
def execRoundFailure (part g roff : Nat) (s : State) : Host.Outcome State Fault Refusal :=
  runEvent (.roundFailure part g roff) (roundFailure part g roff) s
/-- REDIRECTED_REQUEST (R268). -/
def execRedirectedRequest (k : Nat) (s : State) : Host.Outcome State Fault Refusal :=
  runEvent (.redirectedRequest k) (redirectedRequest k) s
/-- DISCARDED_REQUEST (R270). -/
def execDiscardedRequest (k : Nat) (s : State) : Host.Outcome State Fault Refusal :=
  runEvent (.discardedRequest k) (discardedRequest k) s

end Sys2Proof.Machine
end

