-- ==== Sys2Proof/Machine/Launch.lean ====
section
/-! DEFINITION. Grids: launch records and code objects (02 R38 to R42, 04 R109 to R111, R479), acceptance, dispatch and
placement (R40, R55, R176, R271 to R274), start and exit of workgroups (R45, R47), spawned launches and batches (R51 to
R54), termination (R48, R353), scrub (R196, R197). -/

namespace Sys2Proof.Machine

/-! ## Launch records (R38, R39) -/

/-- The fields of a record's 64 bytes. -/
def parseRec (n : Nat) : LRec :=
  { kaddr := w64 n, args := w64 (bits n 64 64), gx := bits n 128 32, gy := bits n 160 16, gz := bits n 176 16,
    wx := bits n 192 16, wy := bits n 208 16, wz := bits n 224 16, dyna := bits n 256 16, dynw := bits n 272 16,
    irq := bitAt n 248, coop := bitAt n 243, clw := bits n 244 4, prio := bits n 240 3 }
def LRec.threads (r : LRec) : Nat := r.wx * r.wy * r.wz
def LRec.total (r : LRec) : Nat := r.gx * r.gy * r.gz
def inRange (a n b : Nat) : Bool := decide (a ≤ n ∧ n ≤ b)
/-- Whether a record's own fields break R36, R38 or R39; `n` holds its reserved bits. -/
def recBad (n : Nat) (r : LRec) : Bool :=
  !(inRange 1 r.gx (2 ^ 31 - 1) && inRange 1 r.gy 65535 && inRange 1 r.gz 65535 && inRange 1 r.wx 512 &&
    inRange 1 r.wy 512 && inRange 1 r.wz 512 && decide (r.threads ≤ 512) && decide (r.dyna ≤ 128) &&
    decide (r.dynw ≤ 256) && bits n 288 96 == 0 && bits n 249 7 == 0 && decide (r.clw ≤ 8) &&
    (r.clw == 0 || r.gx % max r.clw 1 == 0))

/-! ## Code objects (R77, R109 to R111, R186, R349, R479) -/

/-- Why an object is not read at acceptance: a refusal with its code (R42), or a miss that waits for its page request (R479). -/
inductive LoadStop where
  | refuse (code : Nat)
  | miss (f : Flt)
  deriving DecidableEq, Repr
/-- The refusal of a code object (R42). -/
def LoadStop.badKernel : LoadStop := .refuse 0x11
/-- What a fault of a read at acceptance does (R479). -/
def LoadStop.ofFlt (s : State) (who : Misser) (vf : Nat) (f : Flt) : LoadStop :=
  if openMiss s who vf f then .miss f else .badKernel
/-- Reads at acceptance (R479). -/
abbrev Loads (α : Type) := Except LoadStop α
def loadAt (s : State) (who : Misser) (vf va n : Nat) : Loads (List Byte) :=
  match readVirtual s vf va n with
  | .ok bs => .ok bs
  | .error f => .error (.ofFlt s who vf f)

def hField (h lo n : Nat) : Nat := bits h lo n
/-- Whether a header meets the constraints of R109. -/
def headerOk (h : Nat) : Bool :=
  let codesz := hField h 96 32
  let entry := hField h 64 32
  hField h 0 32 == 0x584C4F4B && hField h 40 8 == 1 && hField h 48 2 != 3 && hField h 50 14 == 0 &&
  hField h 128 2 != 3 && hField h 130 6 == 0 && hField h 252 4 == 0 && hField h 352 32 == 0 && hField h 512 1024 == 0 &&
  codesz % 16 == 0 && entry % 16 == 0 && decide (256 ≤ entry) && decide (entry + 16 ≤ 256 + codesz) &&
  inRange 8 (hField h 136 8) 128 && hField h 136 8 % 8 == 0 && inRange 1 (hField h 144 16) 512 &&
  decide (hField h 160 8 ≤ 8) && decide (hField h 168 8 ≤ 16) && decide (hField h 176 16 ≤ 128) &&
  decide (hField h 192 16 ≤ 256) && decide (hField h 240 8 ≤ 64) && inRange 1 (hField h 320 32) 250 &&
  hField h 256 32 % 8 == 0 && (hField h 248 4 == 0 || hField h 288 32 % 64 == 0)

def rcvOk (codesz : Nat) (l : List (Nat × Nat)) : Bool :=
  let ok (o : Nat) : Bool := decide (256 ≤ o) && decide (o + 16 ≤ 256 + codesz) && o % 16 == 0
  l.all (fun e => ok e.1 && ok e.2) && (l.map (·.1)).dedup.length == l.length

/-- Whether a workgroup of `threads` is larger than a header allows, which refuses the record (R109). -/
def overWg (h threads : Nat) : Bool := decide (hField h 144 16 < threads)
/-- The kernel of a native object at `base` with header `h`, for workgroups of `threads`. Where both its WG and its tables are
broken, the record is what is refused: BAD_RECORD comes before BAD_KERNEL (R41). -/
def nativeKernel (s : State) (who : Misser) (vf base h threads : Nat) : Loads Kernel :=
  let codesz := hField h 96 32
  let nrcv := hField h 240 8
  let patv := hField h 248 4
  if overWg h threads then .error (.refuse 0x10)
  else
  match loadAt s who vf (base + hField h 256 32) (8 * nrcv),
        loadAt s who vf (base + hField h 288 32) (if patv = 0 then 0 else 256) with
  | .error e, _ => .error e
  | _, .error e => .error e
  | .ok rb, .ok pb =>
    let rcv := rcvTable rb nrcv
    let pats := (List.range 4).map (fun k => BitVec.ofNat 512 (leNat ((pb.drop (64 * k)).take 64)))
    if !rcvOk codesz rcv || (List.range 4).any (fun k => bitAt patv k && !xpValid (pats.getD k 0)) then .error .badKernel
    else .ok
      { base := base, entry := hField h 64 32, codesz := codesz, width := 32 * 2 ^ hField h 128 2, regs := hField h 136 8,
        wgmax := hField h 144 16, tiles := hField h 160 8, limbs := hField h 168 8, scra := hField h 176 16,
        scrw := hField h 192 16, lat := (List.range 8).map (fun c => hField h (208 + 4 * c) 4), bound := hField h 320 32,
        patv := patv, pats := pats, rcv := rcv.map (fun e => (base + e.1, base + e.2)), minor := hField h 32 8 }

/-- Bytes of an object that firmware translates: header, code, tables and data (R349). DESIGN CHOICE (log 46): a section without
bytes (NRCV, PATV or DATASZ of 0) takes no place, whatever its offset. -/
def objectSize (h : Nat) : Nat :=
  let upTo (at_ n : Nat) : Nat := if n = 0 then 0 else at_ + n
  maxList 256 [256 + hField h 96 32, upTo (hField h 256 32) (8 * hField h 240 8),
    upTo (hField h 288 32) (if hField h 248 4 = 0 then 0 else 256), upTo (hField h 384 32) (hField h 416 32)]

/-- A native object inside `size` bytes: header, code, tables and data (R110; log 46). -/
def withinSize (h size : Nat) : Bool := hField h 48 2 == 0 && headerOk h && decide (objectSize h ≤ size)

/-- Whether a partition runs half-cores (R350). -/
def runsHalves (s : State) (part : Nat) : Bool := (vals s.cores).any (fun k => k.split && (k.ownA == part || k.ownB == part))

/-- A translation that firmware holds of an object with a digest (R349). -/
def heldTranslation (s : State) (part vf digest : Nat) (half : Bool) : Option XEntry :=
  (s.part part).xcache.find? (fun e => e.digest == digest && e.half == half && e.vf == vf)
/-- Places a new translation: in memory that the driver has reserved, mapped for fetch and not for stores, clear of every translation
that firmware holds in that address space, so that no running code changes (R349, log 16). -/
def placeTranslation (s : State) (who : Misser) (part vf digest : Nat) (half : Bool) (nat : List Byte) : Loads (XEntry × State) :=
  let base := Config.reservedBase vf digest half
  let cuts := pageCuts (nat.length / 4096 + 2) base nat.length
  if (s.part part).xcache.any (fun e => e.vf == vf && runsMeet e.base e.size base nat.length) then .error .badKernel
  else
    match translateRun s Config.numCores vf .fetch cuts, translateRun s Config.numCores vf .store cuts with
    | .error f, _ => .error (.ofFlt s who vf f)
    | .ok _, .ok _ => .error .badKernel
    | .ok (ps, _), .error _ =>
      let e : XEntry := ⟨digest, half, vf, base, nat.length⟩
      .ok (e, (storePieces s (Asker.device part) ps nat).mapPart part (fun p => { p with xcache := p.xcache ++ [e] }))

/-- Firmware's translation of a portable object, held or made anew (R349, log 16): an encoding that breaks R105 to R108, or a table
that breaks R111, refuses it. -/
def firmwareKernel (s : State) (who : Misser) (part vf kaddr h threads : Nat) : Loads (Kernel × State) :=
  if overWg h threads then .error (.refuse 0x10)
  else
  match loadAt s who vf kaddr (objectSize h) with
  | .error e => .error e
  | .ok bs =>
    if !kpfCode ((bs.drop 256).take (hField h 96 32)) ||
        !rcvOk (hField h 96 32) (rcvTable (bs.drop (hField h 256 32)) (hField h 240 8)) then .error .badKernel
    else
    let half := runsHalves s part
    let digest := Crypto.sha512 bs
    let placed : Loads (XEntry × State) := match heldTranslation s part vf digest half, firmwareTranslate half bs with
      | some e, _ => .ok (e, s)
      | none, none => .error .badKernel
      | none, some tr =>
        if withinSize (leNat (tr.bytes.take 256)) tr.bytes.length then placeTranslation s who part vf digest half tr.bytes
        else .error .badKernel
    match placed with
    | .error e => .error e
    | .ok (e, s) =>
      match loadAt s who vf e.base 256 with
      | .error e => .error e
      | .ok hb =>
        match nativeKernel s who vf e.base (leNat hb) threads with
        | .error e => .error e
        | .ok k => .ok (k, s)

/-- The kernel that a record of workgroups of `threads` launches (R109, R110). DEDUCED (log 74): the refusal of a KADDR that is
not aligned to 256 bytes is among those of the code object, BAD_KERNEL (R42). -/
def loadKernel (s : State) (who : Misser) (vf part kaddr threads : Nat) : Loads (Kernel × State) :=
  if kaddr % 256 ≠ 0 then .error .badKernel
  else
    match loadAt s who vf kaddr 256 with
    | .error e => .error e
    | .ok hb =>
      let h := leNat hb
      if !headerOk h then .error .badKernel
      else
        match hField h 48 2 with
        | 0 =>
          (match nativeKernel s who vf kaddr h threads with
           | .error e => .error e
           | .ok k => .ok (k, s))
        | 1 => if (s.part part).xlen then firmwareKernel s who part vf kaddr h threads else .error .badKernel
        | _ =>
          let base := kaddr + hField h 448 32
          if hField h 448 32 % 256 ≠ 0 then .error .badKernel
          else
            match loadAt s who vf base 256 with
            | .error e => .error e
            | .ok tb =>
              if !withinSize (leNat tb) (hField h 480 32) then .error .badKernel
              else
                match nativeKernel s who vf base (leNat tb) threads with
                | .error e => .error e
                | .ok k => .ok (k, s)

/-! ## What a workgroup needs, and where it goes (R40, R36, R176) -/

/-- Sheet contexts, thread slots, registers, A and W blocks, tiles and limbs of one workgroup. -/
structure Need where
  sheets : Nat
  slots : Nat
  regs : Nat
  a : Nat
  w : Nat
  tiles : Nat
  limbs : Nat
  deriving DecidableEq, Repr
def needOf (k : Kernel) (r : LRec) : Need :=
  let n := ceilDiv r.threads (max k.width 1)
  ⟨n, n * k.width, n * k.width * k.regs, k.scra + r.dyna, k.scrw + r.dynw, 2 * k.tiles, k.limbs⟩
def Need.add (x y : Need) : Need :=
  ⟨x.sheets + y.sheets, x.slots + y.slots, x.regs + y.regs, x.a + y.a, x.w + y.w, x.tiles + y.tiles, x.limbs + y.limbs⟩
/-- The limits of R40, of a core or of a half-core. -/
def Need.fits (x : Need) (half : Bool) : Bool :=
  let d := if half then 2 else 1
  decide (x.sheets * d ≤ 16) && decide (x.slots * d ≤ 512) && decide (x.regs * d ≤ 32768) && decide (x.a * d ≤ 128) &&
  decide (x.w * d ≤ 256) && decide (x.tiles * d ≤ 16) && decide (x.limbs * d ≤ 16)

/-- A unit of a partition: core, column, whether a half-core. -/
structure Place where
  core : Nat
  col : Nat
  half : Bool
  deriving DecidableEq, Repr
/-- The units that a partition owns (R313). -/
def unitsOf (s : State) (part : Nat) : List Place :=
  s.cores.flatMap (fun (c, k) =>
    if k.split then (if k.ownA = part then [⟨c, 0, true⟩] else []) ++ (if k.ownB = part then [⟨c, 1, true⟩] else [])
    else if k.ownA = part then [⟨c, 0, false⟩] else [])

/-- The workgroups on a unit. -/
def onUnit (s : State) (p : Place) : List Workgroup :=
  (vals s.wgs).filter (fun w => w.core == p.core && (!p.half || w.col == p.col))
def needOfWg (s : State) (w : Workgroup) : Need :=
  match s.grid? w.grid with
  | some g => needOf g.kernel g.lrec
  | none => ⟨0, 0, 0, 0, 0, 0, 0⟩

/-- The first place of `n` blocks in a buffer of `cap` blocks (R176): at a bank boundary, or inside one bank. -/
def findBlocks (cap n : Nat) (used : List (Nat × Nat)) : Option Nat :=
  if n = 0 then some 0
  else
    (List.range cap).find? (fun x => decide (x + n ≤ cap) &&
      (if 16 ≤ n then x % 16 == 0 else x / 16 == (x + n - 1) / 16) &&
      used.all (fun (y, m) => !runsMeet x n y m))

/-- Where a unit can hold a further workgroup: its contexts in ascending order (R34), and its allocations. -/
def canHold (s : State) (p : Place) (n : Need) : Option (List Nat × Nat × Nat) :=
  let here := onUnit s p
  let sum := here.foldl (fun x w => x.add (needOfWg s w)) n
  let ctxs := (if p.half then (List.range 8).map (· + 8 * p.col) else List.range 16).filter (fun c =>
    here.all (fun w => !w.ctxs.contains c))
  let cap := if p.half then 64 else 128
  if !sum.fits p.half || (s.core p.core).change.isSome || decide (ctxs.length < n.sheets) then none
  else
    match findBlocks cap n.a (here.map (fun w => (w.aAt, w.aSize / 1024))),
          findBlocks (2 * cap) n.w (here.map (fun w => (w.wAt, w.wSize / 1024))) with
    | some a, some w => some (ctxs.take n.sheets, a, w)
    | _, _ => none

/-- A workgroup placed, not yet started. -/
def mkWorkgroup (gn g : Nat) (p : Place) (n : Need) (h : List Nat × Nat × Nat) : Workgroup :=
  { grid := gn, g := g, core := p.core, col := p.col, ctxs := h.1, started := false, w := [], aSize := n.a * 1024,
    wSize := n.w * 1024, aAt := h.2.1, wAt := h.2.2, abuf := [], wbuf := [], banks := [], tiles := [], tileInt := [],
    tileBind := [], nextTile := 0, limbs := [], tags := [], iovf := false, bars := [], steps := [] }
/-- A workgroup dispatched to a unit, whose reuse latch is invalid from now on (R230). -/
def putWorkgroup (s : State) (gn g : Nat) (p : Place) (n : Need) (h : List Nat × Nat × Nat) : State :=
  let s := (clearReuse s p.core p.col).mapGrid gn (fun x => { x with placed := put x.placed g s.nextWg })
  { s.setWg s.nextWg (mkWorkgroup gn g p n h) with nextWg := s.nextWg + 1 }

/-- The unit of a die that takes the next workgroup (R274): the fewest resident workgroups, then the lower core. -/
def bestUnit (s : State) (us : List Place) (n : Need) : Option (Place × (List Nat × Nat × Nat)) :=
  (us.filterMap (fun p => (canHold s p n).map (fun h => (p, h)))).foldl (fun best e =>
    match best with
    | none => some e
    | some b => if (onUnit s e.1).length < (onUnit s b.1).length then some e else best) none

/-- The members of a cluster group in a hardware cluster (R36): a unit of the core of each rank, if each can hold its member. -/
def groupPlaces (s : State) (us : List Place) (cl clw : Nat) (n : Need) : Option (List (Place × (List Nat × Nat × Nat))) :=
  (List.range clw).mapM (fun r => bestUnit s (us.filter (fun p => p.core == cl * 8 + r)) n)

/-- Places the next workgroup or cluster group of a grid on a die (R274). -/
def placeOn (s : State) (gn die : Nat) : Option State :=
  match s.grid? gn with
  | none => none
  | some g =>
    let n := needOf g.kernel g.lrec
    let us := (unitsOf s g.part).filter (fun p => dieOf p.core == die)
    if g.lrec.clw = 0 then
      match bestUnit s us n with
      | some (p, h) => some ((putWorkgroup s gn g.nextG p n h).mapGrid gn (fun x => { x with nextG := g.nextG + 1 }))
      | none => none
    else
      match ((List.range 48).map (· + 48 * die)).findSome? (fun cl => groupPlaces s us cl g.lrec.clw n) with
      | some l =>
        let s := (l.zipIdx).foldl (fun s ((p, h), r) => putWorkgroup s gn (g.nextG + r) p n h) s
        some (s.mapGrid gn (fun x => { x with nextG := g.nextG + g.lrec.clw }))
      | none => none

/-- Places up to `k` on a die: how many, and the state. -/
def placeMany (gn die : Nat) : Nat → State → Nat × State
  | 0, s => (0, s)
  | k + 1, s =>
    match placeOn s gn die with
    | some s' => let (n, s'') := placeMany gn die k s'; (n + 1, s'')
    | none => (0, s)

/-- The free-slot count of a die for a grid (R273): how many of its workgroups or cluster groups the die could hold, at most 64,
however many remain. -/
def freeSlots (s : State) (gn die : Nat) : Nat := (placeMany gn die 64 s).1
/-- The die with the largest free-slot count, the lower on a tie. -/
def bestDie (s : State) (gn : Nat) : Nat :=
  (List.range Config.numDies).foldl (fun b d => if freeSlots s gn b < freeSlots s gn d then d else b) 0
/-- Workgroups or cluster groups of a grid still to place. -/
def Grid.remaining (g : Grid) : Nat := (g.lrec.total - g.nextG) / max g.lrec.clw 1

/-- One batch of a grid (R273): on the die that can hold the most, the lesser of its count and what remains. -/
def placeBatch (s : State) (gn : Nat) : Option State :=
  match s.grid? gn with
  | none => none
  | some g =>
    let (n, s') := placeMany gn (bestDie s gn) (min 64 g.remaining) s
    if n = 0 then none else some s'

/-- Places a whole cooperative grid (R55); none where it does not fit. -/
def placeAll (gn : Nat) : Nat → State → Option State
  | 0, _ => none
  | k + 1, s =>
    match s.grid? gn with
    | none => none
    | some g => if g.lrec.total ≤ g.nextG then some s else (placeBatch s gn).bind (placeAll gn k)

/-! ## Acceptance (R41, R42) -/

/-- The decision on a launch: accepted with a new grid in the state, refused with a code, or waiting for a page. -/
inductive Verdict where
  | accept (s : State)
  | refuse (code : Nat)
  | wait (f : Flt)

/-- Whether an empty unit of the partition could hold a workgroup, or a cluster with such units a group (R40). -/
def fitsEmpty (s : State) (part : Nat) (n : Need) (clw : Nat) : Bool :=
  let us := (unitsOf s part).filter (fun p => n.fits p.half)
  if clw = 0 then !us.isEmpty
  else (List.range Config.numClusters).any (fun cl => (List.range clw).all (fun r => us.any (fun p => p.core == cl * 8 + r)))

/-- The grid that a record makes, none of whose workgroups is placed. -/
def newGrid (vf part : Nat) (parent : Option Nat) (depth : Nat) (record : W64) (host : Bool) (batch : Option Batch) (r : LRec) (k : Kernel) : Grid :=
  { record := record, vf := vf, part := part, lrec := r, kernel := k, depth := depth, parent := parent, host := host, nextG := 0,
    placed := [], done := 0, batch := batch, queues := [], clBars := [], gridBars := [], restart := none, ending := none, ended := false }

/-- The checks of R38 to R40, R55 and QUEUE_FULL in the order of R41; an accepted grid is in the state, queued, or
placed whole if it is cooperative. `raw` holds the reserved bits of the record. -/
def judge (s : State) (who : Misser) (vf part : Nat) (parent : Option Nat) (depth : Nat) (record : W64) (host : Bool)
    (batch : Option Batch) (raw : Nat) (r : LRec) : Verdict :=
  if recBad raw r then .refuse 0x10
  else
    match loadKernel s who vf part r.kaddr.toNat r.threads with
    | .error (.miss f) => .wait f
    | .error (.refuse c) => .refuse c
    | .ok (k, s) =>
        let n := needOf k r
        let gn := s.nextGrid
        let s1 := { s.setGrid gn (newGrid vf part parent depth record host batch r k) with nextGrid := gn + 1 }
        let full := 4096 ≤ (s.grids.filter (fun e => e.2.part == part)).length
        if !fitsEmpty s part n r.clw then .refuse 0x12
        else if r.coop then
          if 24576 < r.total then .refuse 0x12
          else
            match placeAll gn (r.total + 1) s1 with
            | none => .refuse 0x12
            | some s2 => if full then .refuse 0x14 else .accept s2
        else if full then .refuse 0x14
        else .accept { s1 with lqueue := s1.lqueue ++ [gn] }

/-- Physical address of a record in an address space, writable and readable (R43). -/
def recordAt (s : State) (vf : Nat) (va : W64) : Except Flt Nat :=
  match translate s Config.numCores vf va .atomic with
  | .ok p => .ok p.pa
  | .error f => .error f

/-- A final STATUS with FDET and RTS (R42). -/
def writeFinal (s : State) (part pa code fdet : Nat) : State :=
  engineWrite s (Asker.device part) (pa + 48) (leBytes 4 code ++ leBytes 4 fdet ++ leBytes 8 s.ts)
/-- Sets bits of IRQST; a bit that was clear raises MSI-X vector 0 (R351; log 91). -/
def raiseIrq (s : State) (vf b : Nat) : State :=
  let v := s.vf vf
  s.setVf vf { v with irqst := v.irqst ||| b, msix := v.msix + (if v.irqst ||| b = v.irqst then 0 else 1) }
/-- A failed submission (R352). -/
def launchError (s : State) (vf code : Nat) (va : W64) : State :=
  let v := s.vf vf
  raiseIrq (s.setVf vf { v with lerrCount := min (v.lerrCount + 1) (2 ^ 32 - 1), lerrCode := code, leaddr := va.toNat }) vf 2

/-- Whether a launch is a submission through a function. -/
def LaunchReq.through (vf : Nat) : LaunchReq → Bool
  | .host a _ => a == vf
  | .failed a _ _ => a == vf
  | .move _ _ _ _ _ => false
/-- A submission that fails is recorded in its turn, behind the older ones of its function (R351). -/
def failSubmission (s : State) (vf code : Nat) (va : W64) : State :=
  if s.launches.any (LaunchReq.through vf) then { s with launches := s.launches ++ [.failed vf va code] }
  else launchError s vf code va

/-- LAUNCH_SUBMISSION (R351, R352): the first failure in the order of R352, or a launch asked for. -/
def launchSubmission (vf size : Nat) (v : W64) (s : State) : State :=
  let f := s.vf vf
  if f.resetting then failSubmission s vf 5 v
  else if size ≠ 8 then failSubmission s vf 4 v
  else if f.part.isNone then failSubmission s vf 3 v
  else if v.toNat % 64 ≠ 0 then failSubmission s vf 1 v
  else
    match recordAt s vf v with
    | .error _ => failSubmission s vf 2 v
    | .ok _ => { s with launches := s.launches ++ [.host vf v] }

/-- The code of a launch lands in the launching sheet's `sys.q`, or in the launch error register (R41, R352). -/
def answerLaunch (s : State) (q : LaunchReq) (code : Nat) : State :=
  match q with
  | .host vf va => if code = 0x13 then launchError s vf 6 va else s
  | .failed _ _ _ => s
  | .move sid wg id _ _ => s.mapSheet sid (fun sh => if sh.wg = wg then sh.fill id (some (w64 code)) none else sh)

/-- The decision on a record at a physical address. -/
def acceptRecord (s : State) (q : LaunchReq) (vf part : Nat) (parent : Option Nat) (depth : Nat) (va : W64) (host : Bool)
    (pa : Nat) (s0 : State) : State :=
  let raw := s.readNat pa 64
  let r := parseRec raw
  if recStatus s pa = 1 then answerLaunch (forgetRefusals s (.launch q)) q 0x13
  else
    match judge s (.launch q) vf part parent depth va host none raw r with
    | .accept s => answerLaunch (engineWrite (forgetRefusals s (.launch q)) (Asker.device part) (pa + 48) (leBytes 4 1)) q 0
    | .refuse c =>
      let s := writeFinal (forgetRefusals s (.launch q)) part pa c 0
      answerLaunch (if host && r.irq then raiseIrq s vf 1 else s) q c
    | .wait f => deviceMiss s0 (.launch q) part vf f

/-- Whether an older launch of the same virtual function or sheet waits. -/
def behindLaunch (s : State) (k : Nat) (q : LaunchReq) : Bool :=
  (s.launches.take k).any (fun o => match o, q with
    | .move a _ _ _ _, .move b _ _ _ _ => a == b
    | o, .host b _ => o.through b
    | o, .failed b _ _ => o.through b
    | _, _ => false)

/-- LAUNCH_ACCEPTANCE (R41): one step against STATUS; a page that is missing delays it (R479). A grid under termination launches
nothing (R48). DESIGN CHOICE (log 75): a record of LAUNCH that no longer translates is refused with BAD_RECORD, and nothing
is written. -/
def launchAcceptance (k : Nat) (s : State) : State :=
  match s.launches[k]? with
  | none => s
  | some q =>
    if behindLaunch s k q then s
    else
      let s' := { s with launches := s.launches.take k ++ s.launches.drop (k + 1) }
      let out := forgetRefusals s' (.launch q)
      match q with
      | .host vf va =>
        if (s.vf vf).resetting then launchError out vf 5 va
        else
          (match (s.vf vf).part, recordAt s vf va with
           | none, _ => launchError out vf 3 va
           | _, .error _ => launchError out vf 2 va
           | some part, .ok pa => acceptRecord s' q vf part none 0 va true pa s)
      | .failed vf va code => launchError out vf code va
      | .move _ _ _ gn va =>
        match s.grid? gn with
        | none => out
        | some g =>
          if g.ending.isSome then out
          else
          match recordAt s g.vf va with
          | .error _ => answerLaunch out q 0x10
          | .ok pa => acceptRecord s' q g.vf g.part (some gn) (g.depth + 1) va false pa s

/-! ## Spawned launches (R49 to R54) -/

/-- A spawned launch refused (R54). -/
def spawnRefused (s : State) (part pa code : Nat) : State := engineWrite s (Asker.device part) (pa + 36) (leBytes 4 code)
/-- A spawned launch made (R51): LNCH advances to TAIL, NLAUNCH counts. -/
def spawnMade (s : State) (part pa : Nat) : State :=
  let s := engineWrite s (Asker.device part) (pa + 28) (leBytes 4 (qTail s pa))
  engineWrite s (Asker.device part) (pa + 40) (leBytes 8 ((qField s pa 40 8 + 1) % 2 ^ 64))

/-- The child grid of a queue whose header stands at `pa`: its template is read, changed and judged. An earlier launch may have
taken the entries for which this one was due: at least THRESH must be pending, or one at the end of the grid (R51, R52). -/
def spawnFrom (s : State) (s0 : State) (q : SpawnReq) (g : Grid) (pa : Nat) : State :=
  let gn := q.grid
  let queue := q.queue
  let who : Misser := .spawn q
  let n := ixSub (qTail s pa) (qLnch s pa)
  let lrec := qField s pa 0 8
  let s := forgetRefusals s who
  if n = 0 ∨ qErr s pa ≠ 0 ∨ (q.atEnd = false ∧ n < qThresh s pa) then s
  else if lrec % 64 ≠ 0 then spawnRefused s g.part pa 0x10
  else
    match loadAt s0 who g.vf lrec 64 with
    | .error (.refuse _) => spawnRefused s g.part pa 0x10
    | .error (.miss f) => deviceMiss s0 who g.part g.vf f
    | .ok bs =>
      let raw := leNat bs
      let r := parseRec raw
      if r.wy ≠ 1 ∨ r.wz ≠ 1 ∨ r.clw ≠ 0 ∨ r.coop then spawnRefused s g.part pa 0x10
      else
        let first := (qBase s pa + 16 * (qLnch s pa % max (qCap s pa) 1)) % 2 ^ 64
        let r := { r with gx := ceilDiv n (max r.wx 1), gy := 1, gz := 1 }
        let b : Batch := ⟨queue, first, n⟩
        match judge { s with refusedPages := s0.refusedPages } who g.vf g.part (some gn) (g.depth + 1) (w64 lrec) false (some b) raw r with
        | .refuse c => spawnRefused s g.part pa c
        | .wait f => deviceMiss s0 who g.part g.vf f
        | .accept s' =>
          spawnMade { forgetRefusals s' who with batches := s'.batches ++ [⟨g.vf, ⟨queue, (qLnch s pa + n) % 2 ^ 32, n⟩, s.nextGrid, false⟩] } g.part pa

/-- SPAWNED_LAUNCH (R51, R52). -/
def spawnedLaunch (k : Nat) (s : State) : State :=
  match s.spawns[k]? with
  | none => s
  | some q =>
    let s' := { s with spawns := s.spawns.take k ++ s.spawns.drop (k + 1) }
    match s.grid? q.grid with
    | none => s'
    | some g =>
      match g.ending, recordAt s g.vf q.queue with
      | none, .ok pa => spawnFrom s' s q g pa
      | _, _ => s'

/-- Whether an older batch of the same queue is not yet released. -/
def batchBlocked (s : State) (k : Nat) (b : BatchRec) : Bool :=
  (s.batches.take k).any (fun o => o.vf == b.vf && o.batch.queue == b.batch.queue)
/-- HEAD advances over the batches that are final, in launch order (R53). DESIGN CHOICE (log 76): a header that no longer
translates is not written. -/
def releaseBatches : Nat → State → State
  | 0, s => s
  | n + 1, s =>
    match (s.batches.zipIdx).find? (fun e => e.1.final && !batchBlocked s e.2 e.1) with
    | none => s
    | some (b, k) =>
      let s := { s with batches := s.batches.take k ++ s.batches.drop (k + 1) }
      releaseBatches n (match recordAt s b.vf b.batch.queue with
        | .ok pa => engineWrite s (Asker.device ((s.vf b.vf).part.getD noPart)) (pa + 32) (leBytes 4 b.batch.first)
        | .error _ => s)

/-! ## The end of a grid (R42, R44, R47, R48, R53) -/

/-- A grid's STATUS becomes final (R42); the grid is gone. A virtual function under reset is done with its last grid (R353).
DESIGN CHOICE (log 76): a record that no longer translates is not written. -/
def gridFinal (s : State) (gn : Nat) (g : Grid) (code fdet : Nat) : State :=
  let s := match g.batch, recordAt s g.vf g.record with
    | none, .ok pa => writeFinal s g.part pa code fdet
    | _, _ => s
  let s := if g.host && g.lrec.irq then raiseIrq s g.vf 1 else s
  let s := { s with grids := drop s.grids gn, lqueue := s.lqueue.filter (· != gn)
                    batches := s.batches.map (fun b => if b.grid = gn then { b with final := true } else b) }
  let s := releaseBatches s.batches.length s
  if s.grids.any (fun e => e.2.vf == g.vf) then s else s.setVf g.vf { s.vf g.vf with resetting := false }

def childOf (s : State) (gn : Nat) : Bool := s.grids.any (fun e => e.2.parent == some gn)
/-- Launches and spawned launches of a grid not yet decided. -/
def launchPending (s : State) (gn : Nat) : Bool :=
  s.spawns.any (fun q => q.grid == gn) || s.launches.any (fun q => match q with
    | .move _ _ _ p _ => p == gn
    | _ => false)

/-- GRID_RETIRE (R47): every workgroup has exited, every child is gone. -/
def gridRetire (gn : Nat) (s : State) : State :=
  match s.grid? gn with
  | none => s
  | some g =>
    if g.ending.isNone ∧ g.done = g.lrec.total ∧ childOf s gn = false ∧ launchPending s gn = false then
      gridFinal s gn g 2 0
    else s

/-- Whether the conditions of R47 on a sheet's exit hold. -/
def mayExit (s : State) (sid : Nat) (sh : Sheet) : Bool :=
  sh.left && sh.park == .running && sh.held.isNone && sh.issuing.isNone && sh.queue.isEmpty && sh.lates.isEmpty &&
  s.homeq.all (fun h => h.sid != sid) && (vals (s.core (coreOf sid)).cmds).all (fun c => c.sid != sid)

/-- SHEET_EXIT (R47): a sheet without threads, its queues empty, its stores at their homes and its statuses delivered,
releases its context; the last one ends the workgroup, the last workgroup launches what is pending (R52). -/
def sheetExit (sid : Nat) (s : State) : State :=
  match s.sheet? sid with
  | none => s
  | some sh =>
    if mayExit s sid sh then
      let s := s.dropSheet sid
      if (vals s.sheets).any (fun o => o.wg == sh.wg) then bindTiles s sh.wg
      else
        match s.wg? sh.wg with
        | none => s
        | some w =>
          let s := clearReuse { s with wgs := drop s.wgs sh.wg } w.core w.col
          match s.grid? w.grid with
          | none => s
          | some g =>
            let s := s.setGrid w.grid { g with done := g.done + 1 }
            if g.done + 1 < g.lrec.total then s
            else
              { s with spawns := s.spawns ++ (g.queues.filter (fun q => match recordAt s g.vf q with
                  | .ok pa => qErr s pa == 0 && qTail s pa != qLnch s pa
                  | .error _ => false)).map (fun q => ⟨q, w.grid, true⟩) }
    else s

/-- Whether grid `a` is an ancestor of a grid, within the ten depths of R46. -/
def isAncestor (s : State) (a : Nat) : Nat → Nat → Bool
  | 0, _ => false
  | n + 1, g =>
    match (s.grid? g).bind (·.parent) with
    | some p => p == a || isAncestor s a n p
    | none => false

/-- The stores of a sheet that may be performed are performed, in their order. -/
def drainStores : Nat → State → Nat → State
  | 0, s, _ => s
  | n + 1, s, sid =>
    match s.sheet? sid with
    | none => s
    | some sh =>
      match (sh.queue.zipIdx).find? (fun (a, k) => a.kind == .store && canPerform s sid (sh.queue.take k) a) with
      | none => s
      | some (a, k) => drainStores n (performEntry s sid (s.partOf sh) (sh.queue.take k) a (sh.queue.drop (k + 1))) sid

/-- A number that no sheet context has. -/
def noSheet : Nat := 2 ^ 40
/-- A request of a sheet that is gone: what it asks is done, and answers no sheet. -/
def PeerReq.orphan (sid : Nat) (q : PeerReq) : PeerReq :=
  { q with op := match q.op with
      | .access x a => .access (if x = sid then noSheet else x) a
      | .boarr n x slot => .boarr n (if x = sid then noSheet else x) slot
      | .botest x id => .botest (if x = sid then noSheet else x) id
      | op => op }

/-- A sheet is gone from its core: the stores that it had committed are performed, its commands and requests end (log 45). -/
def removeSheet (s : State) (sid : Nat) : State :=
  let n := match s.sheet? sid with
    | some sh => sumList (sh.queue.map (fun a => a.places.length + 1))
    | none => 0
  let s := drainStores n s sid
  let core := coreOf sid
  let s := drainHomes s (fun h => h.sid == sid)
  let s := match s.sheet? sid with
    | some sh => tally s (s.partOf sh)
    | none => s
  let gone := ((s.core core).cmds.filter (fun e => e.2.sid == sid)).map (·.1)
  let s := s.mapCore core (fun k => { k with cmds := k.cmds.filter (fun e => e.2.sid != sid) })
  let cl := s.cluster (clusterOf core)
  let s := s.setCluster (clusterOf core)
    { cl with resv := cl.resv.filter (fun q => !(q.core == core && gone.contains q.e)) }
  let drops (w : Misser) : Bool := match w with
    | .user (.sheet x) => x == sid
    | .user (.command c e) => c == core && gone.contains e
    | _ => false
  let s := { s with
    peerReqs := s.peerReqs.map (PeerReq.orphan sid)
    dies := s.dies.map (fun (d : Nat × Die) => (d.1, { d.2 with prq := d.2.prq.map (fun (r : PageReq) =>
      { r with who := r.who.filter (fun w => !drops w) }) })) }
  (leavePort s sid).dropSheet sid

/-- The workgroup that a record of an image belongs to. -/
def ImageRec.wg? : ImageRec → Option Nat
  | .sheet _ sh => some sh.wg
  | .workgroup id _ => some id
  | .abuf id _ => some id
  | .wbuf id _ => some id
  | .tiles id _ _ => some id
  | .limbs id _ _ => some id
  | .bankFmt id _ => some id
  | _ => none

/-- An image without a grid, its workgroups `ids` and their sheets: what has ended does not come back (R42). -/
def imageWithout (gn : Nat) (g : Option Grid) (ids : List Nat) (img : List ImageRec) : List ImageRec :=
  let sids := img.filterMap (fun r => match r with
    | .sheet sid sh => if ids.contains sh.wg then some sid else none
    | _ => none)
  let keep (r : ImageRec) : Bool := match r with
    | .grid k _ => k != gn
    | .trap sid _ => !sids.contains sid
    | .timing sid _ _ _ _ _ _ _ => !sids.contains sid
    | .graphPos rrec args _ kaddr _ _ _ _ =>
      !g.any (fun g => g.record == rrec && g.lrec.args == args && g.lrec.kaddr == kaddr)
    | r => !(ImageRec.wg? r).any ids.contains
  let l := img.filter keep
  l.map (fun r => match r with
    | .image d fw _ p cd k t => .image d fw l.length p cd k t
    | r => r)

/-- The workgroups of a grid stop, resident or saved, and their resources are free (R48). -/
def stopGrid (s : State) (gn : Nat) : State :=
  let ws := keys (s.wgs.filter (fun e => e.2.grid == gn))
  let s := ((s.sheets.filter (fun e => ws.contains e.2.wg)).map (·.1)).foldl removeSheet s
  let saved := (s.parts.flatMap (fun p => p.2.image)).filterMap (fun r => match r with
    | .workgroup id w => if w.grid == gn then some id else none
    | _ => none)
  let gone (w : Misser) : Bool := match w with
    | .launch (.move _ _ _ p _) => p == gn
    | .spawn q => q.grid == gn
    | _ => false
  { s with
    wgs := s.wgs.filter (fun e => e.2.grid != gn)
    launches := s.launches.filter (fun q => match q with
      | .move _ _ _ p _ => p != gn
      | _ => true)
    lqueue := s.lqueue.filter (· != gn)
    spawns := s.spawns.filter (fun q => q.grid != gn)
    refusedPages := s.refusedPages.filter (fun r => !gone r.1)
    dies := s.dies.map (fun (d : Nat × Die) => (d.1, { d.2 with redirects := d.2.redirects.filter (fun r => !saved.contains r.wg) }))
    parts := s.parts.map (fun (p : Nat × Part) => (p.1, { p.2 with image := imageWithout gn (s.grid? gn) (ws ++ saved) p.2.image })) }

/-- The termination of a grid begins (R48): it and its descendants stop, the descendants with KILLED. -/
def endGrid (s : State) (gn : Nat) (why : Cause × Nat) : State :=
  let desc := (keys s.grids).filter (fun k => isAncestor s gn 10 k)
  let mark (s : State) (k : Nat) (w : Cause × Nat) : State :=
    s.mapGrid k (fun g => if g.ending.isNone then { g with ending := some w } else g)
  let s := desc.foldl (fun s k => mark s k (.none, 0)) (mark s gn why)
  (gn :: desc).foldl stopGrid s

/-- FDET of a cause at a core (R38). -/
def fdetOf (c : Cause) (core : Nat) : Nat :=
  c.code + 2 ^ 8 * dieOf core + 2 ^ 16 * (clusterOf core % 48) + 2 ^ 22 * (core % 8)

/-- GRID_TERMINATION (R48): after the last descendant. -/
def gridTermination (gn : Nat) (s : State) : State :=
  match s.grid? gn with
  | none => s
  | some g =>
    match g.ending with
    | none => s
    | some (c, core) =>
      if childOf s gn then s
      else if c = .none then gridFinal s gn g 4 0
      else gridFinal s gn g 3 (fdetOf c core)

/-- FUNCTION_LEVEL_RESET (R353): every root grid submitted through the function is killed; the reset lasts until their
final STATUS. -/
def functionLevelReset (vf : Nat) (s : State) : State :=
  let roots := keys (s.grids.filter (fun e => e.2.host && e.2.vf == vf))
  let s := roots.foldl (fun s g => endGrid s g (.none, 0)) s
  if roots.isEmpty then s else s.setVf vf { s.vf vf with resetting := true }

/-! ## Dispatch (R271 to R273) -/

/-- Whether a partition's context may be given new work: it is not saved, and class D does not stop it. A class G request
lets its operator grids run on to the boundary (R291). -/
def servable (s : State) (part : Nat) : Bool :=
  (s.part part).image.isEmpty && (match (s.part part).preempt with
    | some p => !p.classD
    | none => true)

/-- The grid a partition serves (R271): the oldest of its highest nonempty level. -/
def servedGrid (s : State) (part : Nat) : Option Nat :=
  let mine := s.lqueue.filterMap (fun k => (s.grid? k).bind (fun g => if g.part == part then some (k, g.lrec.prio) else none))
  let top := maxList 0 (mine.map (·.2))
  (mine.find? (fun e => e.2 == top)).map (·.1)

/-- The partition's next batch, if one can be placed. -/
def batchOf (s : State) (part : Nat) : Option State :=
  if servable s part then (servedGrid s part).bind (placeBatch s) else none

/-- DISPATCH_BATCH (R271, R273): the partitions are served in rotation. -/
def dispatchBatch (part : Nat) (s : State) : State :=
  let before := (List.range ((part + Config.numPartitions - s.turn % Config.numPartitions) % Config.numPartitions)).map
    (fun k => (s.turn + k) % Config.numPartitions)
  if before.any (fun p => (batchOf s p).isSome) then s
  else
    match servedGrid s part, batchOf s part with
    | some gn, some s =>
      let full := match s.grid? gn with
        | some g => decide (g.lrec.total ≤ g.nextG)
        | none => true
      { s with turn := (part + 1) % Config.numPartitions, lqueue := if full then s.lqueue.filter (· != gn) else s.lqueue }
    | _, _ => s

/-! ## Scrub and start (R45, R186, R196, R197) -/

/-- Whether a unit is under scrub at its column. -/
def scrubbing (s : State) (core col : Nat) : Bool := (lookup (s.core core).scrub col).isSome
/-- Whether a partition's workgroup on a unit must wait for a scrub. -/
def scrubDue (s : State) (core col part : Nat) : Bool :=
  let served := getD (s.core core).served 0 col
  served != 0 && served != part + 1

/-- The core of a workgroup of a sheet's cluster group (R177): also where it has exited or is saved, that of its rank. -/
def mateCore (s : State) (sid : Nat) (sh : Sheet) (wg : Nat) : Option Nat :=
  match s.wg? wg, s.gridOf sh with
  | some w, _ => if w.started then some w.core else none
  | none, some g => (g.placed.find? (fun e => e.2 == wg)).map (fun e => clusterOf (coreOf sid) * 8 + e.1 % max g.lrec.clw 1)
  | none, none => none
/-- The core that an access or a step still queued is aimed at as a peer's (R177, R196). -/
def peerCore (s : State) (sid : Nat) (sh : Sheet) (a : Access) : Option Nat :=
  if a.space = .pa then mateCore s sid sh a.peer
  else
    match a.object? s sid sh with
    | some (wg, _, _) => if wg = sh.wg then none else mateCore s sid sh wg
    | none => none
/-- Whether a command of another core is a copy into an A buffer of a core (R196). -/
def copiesInto (s : State) (core : Nat) (c : Cmd) : Bool :=
  c.phase != .completed && coreOf c.sid != core && (match s.sheet? c.sid with
    | some sh => c.writes.any (fun r => match r with
      | .ablock wg _ => mateCore s c.sid sh wg == some core
      | _ => false)
    | none => false)
/-- Whether every engine command and peer access that involves a column of a core has completed (R196). -/
def unitQuiet (s : State) (core col : Nat) : Bool :=
  (vals (s.core core).cmds).all (fun c => s.colOf c.sid != col) && s.allCmds.all (fun c => !copiesInto s core c) &&
  s.peerReqs.all (fun q => q.core != core && (s.wg? q.wg).all (fun w => w.core != core || w.col != col)) &&
  s.sheets.all (fun e => e.2.queue.all (fun a => peerCore s e.1 e.2 a != some core))

/-- SCRUB_START (R196): a workgroup of another context waits, and the previous context has left the unit. -/
def scrubStart (core col : Nat) (s : State) : State :=
  let here := (vals s.wgs).filter (fun w => w.core == core && w.col == col)
  let partOfWg (w : Workgroup) : Nat := match s.grid? w.grid with
    | some g => g.part
    | none => 0
  if here.any (fun w => !w.started && scrubDue s core col (partOfWg w)) && here.all (fun w => !w.started) &&
      !scrubbing s core col && unitQuiet s core col then
    s.mapCore core (fun k => { k with scrub := put k.scrub col (s.cycle core + 2048) })
  else s

/-- Whether a scrub of a column leaves a word of the core's L1, its ways being the other half's (R90). -/
def otherHalf (k : Core) (col key : Nat) : Bool := k.split && key / 2 ^ 50 != col
/-- Whether a translation cached in a core is of the context that its other half serves (log 43). -/
def otherContext (s : State) (k : Core) (col key : Nat) : Bool :=
  k.split && (match (s.vf (key / 2 ^ 36)).part with
    | some p => getD k.served 0 (1 - col) == p + 1
    | none => false)

/-- What a scrub leaves (R196): L1, instruction cache, translation cache and registrations of the core empty, of a half-core its
own share (R90; log 43), the reuse latch invalid; a workgroup already placed there finds buffers, tiles and limbs of 0, its
registers start anew with it. -/
def scrubbed (s : State) (core col : Nat) : State :=
  let k0 := s.core core
  let s := (clearReuse s core col).mapCore core (fun k =>
    { k with scrub := drop k.scrub col, served := drop k.served col
             l1 := k.l1.filter (fun e => otherHalf k0 col e.1), tlb := k.tlb.filter (fun e => otherContext s k0 col e.1)
             icache := k.icache.filter (fun x => k0.split && x.half != col)
             lastTarget := setD k.lastTarget 0 (100 + col) (s.cycle core) })
  { s with
    reg := s.reg.filter (fun e => e.2 != core + 1 || (k0.split && (lookup k0.l1 (l1Key (1 - col) e.1)).isSome))
    wgs := s.wgs.map (fun e => if e.2.core = core ∧ e.2.col = col then
        (e.1, { e.2 with abuf := [], wbuf := [], tiles := [], limbs := [], tags := [], banks := [] })
      else e) }

/-- SCRUB_COMPLETE (R196): after 2,048 cycles. -/
def scrubComplete (core col : Nat) (s : State) : State :=
  match lookup (s.core core).scrub col with
  | some t => if t ≤ s.cycle core then scrubbed s core col else s
  | none => s

/-- The sheet of a workgroup at dispatch (R45, R186): registers s0 to s3, active threads, patterns; at the restore of a
graph position, BADDR and s4 to s7 (R292). -/
def startSheet (wg : Nat) (g : Grid) (num : Nat) (cyc : Nat) : Sheet :=
  let k := g.kernel
  let active := Mask.ofFn (fun t => decide (t < k.width ∧ num * k.width + t < g.lrec.threads))
  let sh := Sheet.fresh wg num k.width (w64 (k.base + k.entry)) active
  let sh := (sh.setS 0 g.lrec.args).setS 1 g.record
  let sh := match g.batch with
    | some b => (sh.setS 2 (w64 b.first)).setS 3 (w64 b.count)
    | none => sh
  let sh := match g.restart with
    | some (pc, l) => { (l.zipIdx).foldl (fun (x : Sheet) (v, k) => x.setS (4 + k) v) sh with pc := pc }
    | none => sh
  { sh with
    xp := ((List.range 4).filter (fun n => bitAt k.patv n && xpNf (k.pats.getD n 0) != 0)).map (fun n => (n, k.pats.getD n 0))
    readySince := cyc, nextIssue := cyc }

/-- WORKGROUP_START (R45, R197): a placed workgroup starts once its unit is not under scrub and needs none. It starts with an
acquire at device scope, so that its threads see every store before their launch (R44) and a resumed context what others
stored meanwhile (R211). -/
def workgroupStart (wg : Nat) (s : State) : State :=
  match s.wg? wg with
  | none => s
  | some w =>
    match s.grid? w.grid with
    | none => s
    | some g =>
      if w.started || !servable s g.part || scrubbing s w.core w.col || scrubDue s w.core w.col g.part then s
      else
        let cyc := s.cycle w.core
        let s := s.setWg wg { w with started := true }
        let s := s.mapCore w.core (fun k => { k with served := put k.served w.col (g.part + 1) })
        let s := selfInvalidate s w.core w.col
        (w.ctxs.zipIdx).foldl (fun s (c, num) => s.setSheet (w.core * 16 + c) (startSheet wg g num cyc)) s

/-! ## The steps -/

/-- LAUNCH_SUBMISSION (R351). -/
def execLaunchSubmission (vf size : Nat) (v : W64) (s : State) : Host.Outcome State Fault Refusal :=
  runEvent (.launchSubmission vf size v) (launchSubmission vf size v) s
/-- LAUNCH_ACCEPTANCE (R41). -/
def execLaunchAcceptance (k : Nat) (s : State) : Host.Outcome State Fault Refusal :=
  runEvent (.launchAcceptance k) (launchAcceptance k) s
/-- SPAWNED_LAUNCH (R51). -/
def execSpawnedLaunch (k : Nat) (s : State) : Host.Outcome State Fault Refusal :=
  runEvent (.spawnedLaunch k) (spawnedLaunch k) s
/-- DISPATCH_BATCH (R273). -/
def execDispatchBatch (part : Nat) (s : State) : Host.Outcome State Fault Refusal :=
  runEvent (.dispatchBatch part) (dispatchBatch part) s
/-- WORKGROUP_START (R45). -/
def execWorkgroupStart (w : Nat) (s : State) : Host.Outcome State Fault Refusal :=
  runEvent (.workgroupStart w) (workgroupStart w) s
/-- SHEET_EXIT (R47). -/
def execSheetExit (sid : Nat) (s : State) : Host.Outcome State Fault Refusal :=
  runEvent (.sheetExit sid) (sheetExit sid) s
/-- GRID_RETIRE (R47). -/
def execGridRetire (g : Nat) (s : State) : Host.Outcome State Fault Refusal :=
  runEvent (.gridRetire g) (gridRetire g) s
/-- GRID_TERMINATION (R48). -/
def execGridTermination (g : Nat) (s : State) : Host.Outcome State Fault Refusal :=
  runEvent (.gridTermination g) (gridTermination g) s
/-- FUNCTION_LEVEL_RESET (R353). -/
def execFunctionLevelReset (vf : Nat) (s : State) : Host.Outcome State Fault Refusal :=
  runEvent (.functionLevelReset vf) (functionLevelReset vf) s
/-- SCRUB_START (R196). -/
def execScrubStart (core col : Nat) (s : State) : Host.Outcome State Fault Refusal :=
  runEvent (.scrubStart core col) (scrubStart core col) s
/-- SCRUB_COMPLETE (R197). -/
def execScrubComplete (core col : Nat) (s : State) : Host.Outcome State Fault Refusal :=
  runEvent (.scrubComplete core col) (scrubComplete core col) s

end Sys2Proof.Machine
end

