-- ==== Sys2Proof/Machine/Fetch.lean ====
section
/-! DEFINITION. The next bundle of a sheet (04 R92, R93; 03 R83): from the loop buffer, or fetched and decoded. -/

namespace Sys2Proof.Machine

/-- The bundle that bytes hold; bytes that are none raise BUNDLE_ILLEGAL (R104). -/
def decodeBytes (bs : List Byte) : Except Flt Instr :=
  match decode bs with
  | .ok i => .ok i
  | .error _ => .error Cause.bundleIllegal.flt

/-- The bytes of the bundle at a sheet's pc: its first 16 say whether 16 more follow (R92). -/
def fetchWhole (s : State) (sid : Nat) (sh : Sheet) : Except Flt (List Byte) :=
  match fetchBytes s sid sh sh.pc 16 with
  | .error f => .error f
  | .ok bs =>
    if fmtSize bs = 16 then .ok bs
    else
      match fetchBytes s sid sh (sh.pc + 16) 16 with
      | .error f => .error { f with addr := sh.pc }
      | .ok r => .ok (bs ++ r)
/-- The bundle at a sheet's pc. -/
def fetchInstr (s : State) (sid : Nat) (sh : Sheet) : Except Flt Instr := (fetchWhole s sid sh).bind decodeBytes

/-- The moves of bytes that are no legal bundle, by their FMT (R92, R94, R100, R102); none of a marker. -/
def looseBundle (n : Nat) : Option Bundle :=
  let slots (lo k : Nat) : List Move := (List.range k).map (slotAt n lo)
  match n % 4 with
  | 0 => some ⟨.wide, 0, false, false, slots 28 6⟩
  | 1 => none
  | 2 => some ⟨.wideLimm 0 0, 0, false, false, slots 28 5⟩
  | _ => some ⟨.narrow, 0, false, false, slots 14 3⟩

/-- The next bundle: one whose passes are under way, one of the loop buffer that was fetched before (R83), or the one at the
pc. -/
def nextInstr (s : State) (sid : Nat) (sh : Sheet) : Except Flt Instr :=
  match sh.issuing, sh.nest.bind (fun n => n.buf[n.pos]?) with
  | some g, _ => .ok g.inst
  | none, some (_, i) => .ok i
  | none, none => fetchInstr s sid sh

/-- The slot blocks of the stop of a bundle that decoding refuses (R284): its slots that are not empty, none of them done. -/
def stopBlocks (s : State) (sid : Nat) (sh : Sheet) : List SavedMove :=
  match nextInstr s sid sh, fetchWhole s sid sh with
  | .error _, .ok bs => ((looseBundle (leNat bs)).map (fun b => readMoves s sid sh b (s.cycle (coreOf sid)))).getD []
  | _, _ => []

/-- DP of a bundle (R94, R103). -/
def Instr.dp : Instr → Bool
  | .bundleIssue b => b.dp
  | .markerBundle m => m.dp
  | _ => false

/-- Whether a bundle holds a LAUNCH trigger (R291). -/
def Instr.holdsLaunch : Instr → Bool
  | .bundleIssue b => b.slots.any (fun m => match decodeMove m with
    | .ok (.launch _) => true
    | _ => false)
  | _ => false

end Sys2Proof.Machine
end

