-- ==== Sys2Proof/Machine/Faults.lean ====
section
/-! DEFINITION. What follows a stop (11 R278 to R282, R288, R482): the disposition of the management core, emulation, the
debugger, the watchdog, soft and uncorrectable errors, sample records (13 R337) and answers to SVC (17 R463). -/

namespace Sys2Proof.Machine

/-! ## Dispositions (R279) -/

/-- Whether a stop is a translation miss, which a page request can serve (R279). -/
def Trap.miss (t : Trap) : Bool := t.cause == .translation && bits t.info 4 4 == 0

/-- T: the grid of the sheet is terminated. -/
def terminate (s : State) (sid : Nat) (sh : Sheet) (t : Trap) : State :=
  match s.wg? sh.wg with
  | some w => endGrid s w.grid (t.cause, coreOf sid)
  | none => s

/-- A stopped sheet with another park state and record. -/
def parkAs (s : State) (sid : Nat) (sh : Sheet) (p : Park) (t : Trap) : State :=
  s.setSheet sid { sh with park := p, trap := some t }

/-- S: the reported slot is skipped in the threads where it faulted, and SKIPST receives the cause (R279, R482). -/
def skipMove (s : State) (sid : Nat) (sh : Sheet) (t : Trap) : State :=
  let old := ((t.skips.find? (fun e => e.1 == t.rslot)).map (·.2)).getD 0
  s.setSheet sid { sh with
    park := .resume, skipst := BitVec.ofNat 8 t.cause.code
    trap := some { t with skips := (t.rslot, old ||| t.fmask) :: t.skips.filter (fun e => e.1 != t.rslot) } }

/-- R: the service of the table of R279 begins, or is done at once. -/
def serve (s : State) (sid : Nat) (sh : Sheet) (t : Trap) : State :=
  let park (p : Park) (t : Trap) : State := parkAs s sid sh p t
  match t.cause with
  | .opRetired => park .service t
  | .opAbsent => park .service t
  | .translation => if t.miss then park .service t else terminate s sid sh t
  | .guardData =>
    let s := park .service t
    { s with agenda := s.agenda ++ [.commandResume (coreOf sid) t.ent] }
  | .intervalEmpty => park .resume { t with waive := t.rslot :: t.waive }
  | .fpEnabled => park .resume { t with waive := t.rslot :: t.waive }
  | .intDivide => park .resume { t with waive := t.rslot :: t.waive }
  | .barrierOverrun => park .service t
  | .spawnOverflow => park .service t
  | _ => terminate s sid sh t

/-- FAULT_HANDLING: the stop is reported on the operator's view (R344), and takes the disposition that FDISP selects: T where that
is not allowed or no debugger is attached. -/
def faultHandling (sid : Nat) (s : State) : State :=
  match s.sheet? sid with
  | none => s
  | some sh =>
    match sh.park, sh.trap with
    | .raised, some t =>
      let p := s.part (s.partOf sh)
      let s := reportStop s sh t
      (match disposition p.fdisp t.cause with
       | 1 => serve s sid sh t
       | 2 => if p.debugger then parkAs s sid sh .debug t else terminate s sid sh t
       | 3 => skipMove s sid sh t
       | _ => terminate s sid sh t)
    | _, _ => s

/-! ## Emulation (R288) -/

/-- Whether a unit has a second latch `w` (R61). -/
def hasW (u : FUnit) : Bool := u == .imu || u == .fpa || u == .fpb || u == .lsa || u == .lsb

/-- The threads of an emulated move: those of its EXEC mask, or those in which a uniform move starts a lane unit (R67). -/
def emuThreads (sh : Sheet) (m : SavedMove) (u : FUnit) : List Nat := (trigMask sh m u).threads
/-- What the library gives in each thread; none where it has no emulation. -/
def emuOuts (sh : Sheet) (m : SavedMove) (u : FUnit) : Option (List (Nat × W64 × W64 × Flags)) :=
  (emuThreads sh m u).mapM (fun t =>
    (Config.emulation u.num m.move.opc.toNat m.move.mod.toNat
      ((List.range 4).map (fun p => sh.getX u p t) ++ [m.vals.getD (if Move.uniform m.move then 0 else t) 0])).map
      (fun o => (t, o.1, o.2.1, o.2.2)))

/-- The results of an emulation: landed in the latches behind what is on its way there, flags in FPSR. -/
def emuWrite (sh : Sheet) (u : FUnit) (l : List (Nat × W64 × W64 × Flags)) : Sheet :=
  l.foldl (fun sh (th, q, w, f) =>
    let sh := sh.deliverStalling u th (some q) (if hasW u then some w else none)
    { sh with fpsr := sh.fpsr ||| f }) (sh.landWhere (fun f => !f.stalling))
/-- The emulated move is done, and the sheet goes back to the scheduler. -/
def emuDone (sh : Sheet) (t : Trap) (m : SavedMove) : Sheet :=
  { sh with park := .resume
            trap := some { t with done := t.done ++ [m.slot], blocks := t.blocks.filter (fun b => b.slot != m.slot) } }

/-- The flags of the threads whose enables are set: an emulation that traps. -/
def emuTraps (sh : Sheet) (l : List (Nat × W64 × W64 × Flags)) : List (Nat × Flags) :=
  (l.map (fun (th, _, _, f) => (th, f))).filter (fun e => Flags.traps sh.fpcr e.2)

/-- The stop goes on under another cause, for the management core to handle. -/
def Sheet.completeAs (sh : Sheet) (t : Trap) (c : Cause) (info : Nat) : Sheet :=
  { sh with park := .raised, trap := some { t with cause := c, info := info } }

/-- What an emulation makes of a parked sheet: by the firmware's library, which is not in the spec (log 22); none exists:
OP_UNASSIGNED. The results are written and the flags raised before an enabled flag completes the fault. -/
def emulated (sh : Sheet) : Option Sheet :=
  match sh.park, sh.trap with
  | .service, some t =>
    if t.cause ≠ .opAbsent ∧ t.cause ≠ .opRetired then none
    else
      match t.reported.bind (fun m => m.trig.map (fun u => (m, u))) with
      | none => none
      | some (m, u) =>
        match emuOuts sh m u with
        | none => some (sh.completeAs t .opUnassigned t.info)
        | some l =>
          match (if t.waive.contains m.slot then [] else emuTraps sh l) with
          | [] => some (emuDone (emuWrite sh u l) t m)
          | e :: r =>
            some ((emuWrite sh u l).completeAs t (if Flags.trapsEmpty sh.fpcr e.2 then .intervalEmpty else .fpEnabled)
              ((e :: r).foldl (fun f x => f ||| x.2) (0 : Flags)).toNat)
  | _, _ => none

/-! ### Sheets of a saved context (R297) -/

/-- A sheet of an image, with its trap record. -/
def savedSheet (img : List ImageRec) (sid : Nat) : Option Sheet :=
  (img.findSome? (fun r => match r with
    | .sheet k sh => if k = sid then some sh else none
    | _ => none)).map (fun sh => { sh with trap := img.findSome? (fun r => match r with
      | .trap k t => if k = sid then some t else none
      | _ => none) })
/-- An image with a sheet of it, and its trap record, changed. -/
def putSaved (img : List ImageRec) (sid : Nat) (sh : Sheet) : List ImageRec :=
  img.map (fun r => match r with
    | .sheet k x => if k = sid then .sheet k { sh with trap := none } else .sheet k x
    | .trap k t => if k = sid then .trap k (sh.trap.getD t) else .trap k t
    | r => r)
/-- The partition whose image holds a parked sheet of this number. -/
def savedPart (s : State) (sid : Nat) : Option Nat :=
  (s.parts.find? (fun e => (savedSheet e.2.image sid).any (fun sh => sh.park == .service))).map (·.1)
/-- A service done for a sheet of a partition, or for its saved image (R297). -/
def serveSheet (s : State) (part sid : Nat) (f : Sheet → Option Sheet) : State :=
  match savedSheet (s.part part).image sid with
  | some sh =>
    (match f sh with
     | some sh => s.mapPart part (fun p => { p with image := putSaved p.image sid sh })
     | none => s)
  | none =>
    match s.sheet? sid with
    | some sh => if s.partOf sh = part then ((f sh).map (s.setSheet sid)).getD s else s
    | none => s

/-- EMULATION: of a parked sheet, or of one saved in its park (R297). -/
def emulation (sid : Nat) (s : State) : State :=
  match (s.sheet? sid).bind emulated, savedPart s sid with
  | some sh, _ => s.setSheet sid sh
  | none, some part => serveSheet s part sid emulated
  | none, none => s

/-! ## The debugger (R279) -/

/-- The command of a stop after commit: it resumes where its section allows this, or is cancelled. -/
def endCommand (s : State) (sid : Nat) (t : Trap) (resume : Bool) : State :=
  if resume ∧ t.cause = .guardData then commandResume (coreOf sid) t.ent s else cancelCmd (coreOf sid) t.ent s

/-- What the driver orders for a sheet parked for the debugger. -/
def debugged (sid : Nat) (s : State) (f : Sheet → Trap → State) : State :=
  match s.sheet? sid with
  | none => s
  | some sh =>
    match sh.park, sh.trap with
    | .debug, some t => f sh t
    | _, _ => s

/-- DEBUGGER_RESUME: the moves that are not done execute again; the command of a late cause resumes or is cancelled. -/
def debuggerResume (sid : Nat) (s : State) : State :=
  debugged sid s (fun sh t =>
    let s := parkAs s sid sh .resume t
    if t.late then endCommand s sid t true else s)

/-- DEBUGGER_SKIP: the reported move is skipped as by S; the command of a late cause is cancelled. -/
def debuggerSkip (sid : Nat) (s : State) : State :=
  debugged sid s (fun sh t =>
    if t.late then endCommand (parkAs s sid sh .resume t) sid t false
    else if t.blocks.isEmpty then parkAs s sid sh .resume t
    else skipMove s sid sh t)

/-- DEBUGGER_TERMINATE. -/
def debuggerTerminate (sid : Nat) (s : State) : State := debugged sid s (fun sh t => terminate s sid sh t)

/-! ## Watchdog and memory errors (R281, R282) -/

/-- The record of a sheet that WATCHDOG stops before its next bundle: the slots of that bundle, whose sources are read now where
none of its passes has issued, and no slot done (R284). -/
def watchTrap (s : State) (sid : Nat) (sh : Sheet) : Trap :=
  match nextInstr s sid sh with
  | .ok (.bundleIssue b) =>
    let c := s.cycle (coreOf sid)
    let ms := mergeMoves sh.issued?.length ((sh.issuing.map (·.moves)).getD []) (readMoves s sid sh b c)
    { formTrap s (Bundle.info b sh) (.bundleIssue b) ms [] [] [] [] with
      cause := .watchdog, rslot := 0, whole := sh.issuing.isNone }
  | _ => bundleTrap sh s.ts Cause.watchdog.flt []

/-- The record of a stopped sheet whose resumed bundle WATCHDOG stops: the slots that are still not done. -/
def Trap.watched (t : Trap) (ts : Nat) : Trap :=
  { t with cause := .watchdog, info := 0, faddr := 0, rslot := 0, sfault := [], fmask := 0, causes := [], ts := ts }

/-- WATCHDOG: the sheet has waited WDLIM cycles at one bundle on a stalling port, a wired barrier or an entry; the bundle is its next
one, or the one made of the moves of a stop (R287). -/
def watchdog (sid : Nat) (s : State) : State :=
  match s.sheet? sid with
  | none => s
  | some sh =>
    let lim := (s.part (s.partOf sh)).wdlim
    if lim = 0 ∨ sh.watch < lim then s
    else
      let out := s.setSheet sid { sh with waitAt := none, watch := 0, issuing := none }
      match sh.park, sh.trap with
      | .running, _ => out.takeCause sid (watchTrap s sid sh)
      | .resume, some t => out.takeCause sid (t.watched s.ts)
      | _, _ => s

/-- SOFT_ERROR_CORRECTED: counted where it occurs, corrected in place. -/
def softErrorCorrected (x : EccPlace) (s : State) : State :=
  s.event x.part x.core (unitSid x.core (ownCol s x.core x.part)) 7 16 1

/-- UNCORRECTABLE: a corrupted value that the next bundle of a sheet reads in a slot, one that a started command reads,
a sector poisoned when it is written back, or a row of a reduction round that cannot be written (R238). -/
def uncorrectable (x : ErrTarget) (s : State) : State :=
  match x with
  | .move sid slot => s.mapSheet sid (fun sh => { sh with corrupt := some slot })
  | .command core e =>
    match s.cmd? core e with
    | some c => if c.phase = .started then lateCause s core e c Cause.uncorrectable.flt else s
    | none => s
  | .sector pa => if s.poisoned.contains (pa / 32) then s else { s with poisoned := s.poisoned ++ [pa / 32] }
  | .round part g roff =>
    match s.group part g, getRound s part g roff with
    | some d, some r => if roundFull d r && decide (r.rows < Group.rows d) then failRound part g roff r s else s
    | _, _ => s

/-! ## Sample records and SVC -/

/-- Source number of the block that causes an event (R327, R328). DESIGN CHOICE (log 39): an event of no core is one of die 0's
blocks, or of the management core; a memory controller stands there as die number. -/
def eventSource (s : State) (sid ev : Nat) : Nat :=
  if Config.numCores ≤ coreOf sid then
    match ev with
    | 8 => srcDie (sid % 16) 3
    | 11 => srcDie 0 0
    | 0x17 => srcDie 0 2
    | _ => srcHub 1
  else
  match ev with
  | 4 => srcUnit s sid .mxe
  | 5 => srcUnit s sid .cfe
  | 6 => srcUnit s sid .cpy
  | 11 => srcDie (dieOf (coreOf sid)) 0
  | 0x17 => srcDie (dieOf (coreOf sid)) 2
  | _ => srcIssue s sid

/-- SAMPLE_RECORD (R337): counter `n` has reached a multiple of its period by an event of a sheet. -/
def sampleRecord (part n sid slot : Nat) (s : State) : State :=
  let v := (getD (s.part part).pcsel 0 n).toNat
  if bitAt v 31 ∧ bits v 10 5 ≠ 0 then
    let baddr := match s.sheet? sid with
      | some sh => sh.lastPc
      | none => 0
    traceRecord s part sid 1 (eventSource s sid (bits v 0 10)) baddr n 0 slot
  else s

/-- The answer of service `k` (R463): the driver's `v` for those forwarded to it. -/
def svcResult (s : State) (part k : Nat) (v : W64) : W64 :=
  match k with
  | 0 => Config.firmwareVersion.setWidth 64
  | 1 => w64 s.deviceNo
  | 2 => w64 part
  | 3 => w64 (s.part part).polid
  | k => if 0x8000 ≤ k then v else BitVec.allOnes 64

/-- A sheet that waits for the answer to SVC has it. -/
def Sheet.answered (s : State) (part : Nat) (v : W64) (sh : Sheet) : Option Sheet :=
  match sh.sys with
  | .svc k _ id => some { sh.fill id (some (svcResult s part k v)) none with sys := .land id }
  | _ => none
/-- SVC_ANSWER: the answer lands in `sys.q` and the sheet goes on; a class D stop that waited for the end of this park follows at
the next bundle boundary (R295, R463). The service of a sheet that is saved completes on its image (R297). -/
def svcAnswer (sid : Nat) (v : W64) (s : State) : State :=
  match (s.sheet? sid).bind (fun sh => (sh.answered s (s.partOf sh) v).map (fun y => (sh, y))),
      s.parts.find? (fun e => ((savedSheet e.2.image sid).bind (Sheet.answered s e.1 v)).isSome) with
  | some (sh, y), _ => if sh.park = .running then s.setSheet sid { y with stopNext := classDPending s sh } else s
  | none, some e => serveSheet s e.1 sid (Sheet.answered s e.1 v)
  | none, none => s

/-! ## The steps -/

/-- FAULT_HANDLING (R279). -/
def execFaultHandling (sid : Nat) (s : State) : Host.Outcome State Fault Refusal :=
  runEvent (.faultHandling sid) (faultHandling sid) s
/-- EMULATION (R288). -/
def execEmulation (sid : Nat) (s : State) : Host.Outcome State Fault Refusal :=
  runEvent (.emulation sid) (emulation sid) s
/-- DEBUGGER_RESUME (R279). -/
def execDebuggerResume (sid : Nat) (s : State) : Host.Outcome State Fault Refusal :=
  runEvent (.debuggerResume sid) (debuggerResume sid) s
/-- DEBUGGER_SKIP (R279). -/
def execDebuggerSkip (sid : Nat) (s : State) : Host.Outcome State Fault Refusal :=
  runEvent (.debuggerSkip sid) (debuggerSkip sid) s
/-- DEBUGGER_TERMINATE (R279). -/
def execDebuggerTerminate (sid : Nat) (s : State) : Host.Outcome State Fault Refusal :=
  runEvent (.debuggerTerminate sid) (debuggerTerminate sid) s
/-- WATCHDOG (R281). -/
def execWatchdog (sid : Nat) (s : State) : Host.Outcome State Fault Refusal :=
  runEvent (.watchdog sid) (watchdog sid) s
/-- SOFT_ERROR_CORRECTED (R282). -/
def execSoftErrorCorrected (x : EccPlace) (s : State) : Host.Outcome State Fault Refusal :=
  runEvent (.softErrorCorrected x) (softErrorCorrected x) s
/-- UNCORRECTABLE (R282). -/
def execUncorrectable (x : ErrTarget) (s : State) : Host.Outcome State Fault Refusal :=
  runEvent (.uncorrectable x) (uncorrectable x) s
/-- SAMPLE_RECORD (R337). -/
def execSampleRecord (part n sid slot : Nat) (s : State) : Host.Outcome State Fault Refusal :=
  runEvent (.sampleRecord part n sid slot) (sampleRecord part n sid slot) s
/-- SVC_ANSWER (R463). -/
def execSvcAnswer (sid : Nat) (v : W64) (s : State) : Host.Outcome State Fault Refusal :=
  runEvent (.svcAnswer sid v) (svcAnswer sid v) s

end Sys2Proof.Machine
end

