-- ==== Sys2Proof/Machine/Power.lean ====
section
/-! DEFINITION. Bandwidth and power (12 R316 to R325, R354): memory controllers, network ports, Reef budgets, limit measures,
pair balancing, boost leases, rails and clocks. -/

namespace Sys2Proof.Machine

/-! ## Management requests (R354) -/

/-- Whether a port holds the semaphore of a management group. -/
def holds (s : State) (port g : Nat) : Bool := getD s.sems 0 g == port + 1
/-- A request refused is reported to its requester: the answer is 1. -/
def refuse (s : State) : State := { s with reply := 1 }
/-- A request carried out: the answer is 0. -/
def carried (s : State) : State := { s with reply := 0 }
/-- A management request that writes to a group. -/
def guarded (port g : Nat) (s : State) (f : State → Option State) : State :=
  if holds s port g then
    match f s with
    | some s => carried s
    | none => refuse s
  else refuse s

/-! ## Memory controllers (R316) -/

/-- MEMORY_REQUEST_ARRIVAL: a request that reaches a controller from outside what the model names. -/
def memoryRequestArrival (ch cls n sector : Nat) (s : State) : State := memArrive s ch (Asker.device cls) n sector false

/-- Whether an older waiting request shares a sector. -/
def memBlocked (c : Channel) (k : Nat) (r : MemReq) : Bool :=
  (c.waiting.take k).any (fun o => runsMeet o.sector o.n r.sector r.n)
/-- Whether a request goes before another: the lesser start tag, then the lower partition; the older stands first. -/
def memBefore (a b : MemReq) : Bool := decide (a.start < b.start) || (decide (a.start = b.start) && decide (a.cls < b.cls))
/-- The waiting request that the controller serves, by its place. -/
def memNext (c : Channel) : Option (MemReq × Nat) :=
  (c.waiting.zipIdx.filter (fun e => !memBlocked c e.2 e.1)).foldl (fun best e =>
    match best with
    | none => some e
    | some b => if memBefore e.1 b.1 then some e else best) none

/-- MEMORY_REQUEST_SERVE: the least start tag; virtual time follows. The sectors count at the core that asked (R328, R329). -/
def memoryRequestServe (ch : Nat) (s : State) : State :=
  let c := s.channel ch
  match memNext c with
  | none => s
  | some (r, k) =>
    let w := c.waiting.take k ++ c.waiting.drop (k + 1)
    let v := if w.isEmpty then (vals c.finish).foldl max 0 else r.start
    let s := s.setChannel ch { c with v := v, waiting := w }
    if r.cls < Config.numPartitions then s.event r.cls r.core (16 * Config.numCores + ch / 32) 7 8 r.n else s

/-! ## Core network ports (R317, R318) -/

/-- The partitions that own a unit of a core. -/
def portParts (k : Core) : List Nat :=
  ((if k.split then [k.ownA, k.ownB] else [k.ownA]).filter (· < Config.numPartitions)).dedup

/-- One sector granted, and for what: the next partition in rotation with a token and a waiting request. -/
def grantSector (k : Core) : Option (Core × NetWho) :=
  let order := (List.range Config.numPartitions).map (fun n => (k.netTurn + n) % Config.numPartitions)
  match order.find? (fun p => k.netQueue.any (·.part == p) && decide (0 < getD k.buckets 0 p)) with
  | none => none
  | some p =>
    let i := k.netQueue.findIdx (·.part == p)
    let r := k.netQueue.getD i ⟨0, 0, .fetch 0⟩
    let q := if r.sectors ≤ 1 then k.netQueue.take i ++ k.netQueue.drop (i + 1)
      else k.netQueue.take i ++ [{ r with sectors := r.sectors - 1 }] ++ k.netQueue.drop (i + 1)
    some ({ k with netQueue := q, buckets := setD k.buckets 0 p (getD k.buckets 0 p - 1)
                   netTurn := (p + 1) % Config.numPartitions }, r.who)
/-- Up to `n` sectors granted, and for what each. -/
def grantSectors : Nat → Core → Core × List NetWho
  | 0, k => (k, [])
  | n + 1, k =>
    match grantSector k with
    | some (k, w) => let r := grantSectors n k; (r.1, w :: r.2)
    | none => (k, [])

/-- The partition with which a cycle's rotation begins. DEDUCED (log 89): in a split core that of the column which owns the port in
this cycle (R88); the other is served in the same cycle, as in the example of R318. -/
def portTurn (s : State) (core : Nat) : Nat :=
  let k := s.core core
  if k.split then (if (s.cycle core - k.splitFrom) % 2 = 0 then k.ownA else k.ownB) else k.netTurn
/-- Whether a core's port can move a sector in this cycle. -/
def portReady (s : State) (core : Nat) : Bool :=
  (s.core core).netAt != s.cycle core + 1 && (grantSector (s.core core)).isSome

/-- NETWORK_SECTOR_GRANT: the sectors of one cycle, up to four; what waited for them has their tokens. -/
def networkSectorGrant (core : Nat) (s : State) : State :=
  if portReady s core then
    let r := grantSectors 4 { s.core core with netTurn := portTurn s core }
    r.2.foldl (fun s w => netPay s core w) (s.setCore core { r.1 with netAt := s.cycle core + 1 })
  else s

/-- The buckets of a new period from those of the last (R318). -/
def refilled (s : State) (k : Core) : SMap Nat :=
  let pool := k.pool + sumList (vals k.buckets)
  let ps := portParts k
  let waiting := ps.filter (fun p => k.netQueue.any (fun r => r.part == p))
  let sum := sumList (waiting.map (fun p => (s.part p).memw))
  ps.foldl (fun m p =>
    let share := if waiting.contains p then pool * (s.part p).memw / max sum 1 else 0
    setD m 0 p ((s.part p).rate + share)) []

/-- REFILL_PERIOD_END: 1,024 cycles after the last; what the division leaves lapses. -/
def refillPeriodEnd (core : Nat) (s : State) : State :=
  let k := s.core core
  if k.refillAt ≤ s.cycle core then
    s.setCore core { k with refillAt := k.refillAt + 1024, buckets := refilled s k, pool := 0 }
  else s

/-! ## Owners of a cluster (R313) -/

/-- The owner of each half-core of a core: two for a whole core. -/
def halfOwners (k : Core) : List Nat :=
  (if k.split then [k.ownA, k.ownB] else [k.ownA, k.ownA]).filter (· < Config.numPartitions)
/-- The owners of a cluster's half-cores. -/
def clusterOwners (s : State) (cl : Nat) : List Nat :=
  (s.cores.filter (fun e => clusterOf e.1 == cl)).flatMap (fun e => halfOwners e.2)
/-- HCORES of a partition (R311). -/
def hcores (s : State) (part : Nat) : Nat := (s.cores.flatMap (fun e => halfOwners e.2)).count part
/-- The clusters that somebody owns. -/
def ownedClusters (s : State) : List Nat :=
  ((s.cores.filter (fun e => !(halfOwners e.2).isEmpty)).map (fun e => clusterOf e.1)).dedup

/-! ## Reef budgets (R319) -/

/-- Demand of a partition per half-core. -/
def demand (s : State) (part : Nat) : Nat :=
  let p := s.part part
  let n := p.unitNs + partUnits s part * (s.ts - p.unitFrom)
  if p.waited then 14 - p.floor else ceilDiv n (max (1000000 * hcores s part) 1) - p.floor

/-- What a grant of `g` per half-core gives the partitions of a tier. -/
def tierCost (s : State) (tier g : Nat) (ps : List Nat) : Nat :=
  sumList ((ps.filter (fun p => (s.part p).tier == tier)).map (fun p => min g (demand s p) * hcores s p))
/-- The greatest common grant of a tier within a surplus, up to the largest demand of the tier. -/
def tierGrant (s : State) (tier surplus : Nat) (ps : List Nat) : Nat :=
  let top := maxList 0 ((ps.filter (fun p => (s.part p).tier == tier)).map (demand s))
  ((List.range (top + 1)).filter (fun g => decide (tierCost s tier g ps ≤ surplus))).foldl max 0
/-- The grants of the tiers in order. -/
def tierGrants (s : State) (ps : List Nat) : Nat → Nat → Nat → List Nat
  | 0, _, _ => []
  | n + 1, tier, surplus =>
    let g := tierGrant s tier surplus ps
    g :: tierGrants s ps n (tier + 1) (surplus - tierCost s tier g ps)

/-- The budget of a cluster: no grant goes to an owner that is not VALID, which is of no tier's list. -/
def budgetOf (s : State) (gs : List Nat) (cl : Nat) : Nat :=
  min 224 (max 16 (sumList ((clusterOwners s cl).map (fun p =>
    (s.part p).floor + if (s.part p).valid then min (gs.getD (s.part p).tier 0) (demand s p) else 0))))

/-- Whether a request of a partition waits at a Reef: one that came in an earlier cycle and is not the next to be granted. -/
def reefWaits (s : State) (part : Nat) : Bool :=
  s.clusters.any (fun (cl, k) => k.resv.zipIdx.any (fun (q, i) =>
    decide (q.at_ < s.cycle q.core) && !(i == 0 && grantable s cl) && (s.cmd? q.core q.e).any (fun c => partOfCmd s c == part)))
/-- The partitions with a request that waits. -/
def reefWaiters (s : State) : List Nat := (List.range Config.numPartitions).filter (reefWaits s)

/-- BUDGET_PERIOD: every 1 ms. -/
def budgetPeriod (s : State) : State :=
  if s.ts < s.budgetNext then s
  else
    let ps := (List.range Config.numPartitions).filter (fun p => (s.part p).valid)
    let floors := sumList (ps.map (fun p => (s.part p).floor * hcores s p))
    let gs := tierGrants s ps 4 0 (s.enga - floors)
    let us := (List.range Config.numClusters).map (fun cl => (cl, budgetOf s gs cl))
    let s' := us.foldl (fun x (cl, u) => x.setCluster cl { x.cluster cl with budget := u }) s
    let s' := ps.foldl (fun x p => x.mapPart p (fun q =>
      { q with waited := reefWaits s p, unitNs := 0, unitFrom := s.ts })) s'
    { s' with budgetNext := (s.ts / 1000000 + 1) * 1000000 }

/-! ## Rails and clocks (R24, R324, R325) -/

/-- Rail of a cluster (R324): six to a die, each feeding four stacked pairs. -/
def railOf (cl : Nat) : Nat := cl / 48 * 6 + cl % 48 / 8
def railClusters (r : Nat) : List Nat := (List.range 8).map (fun k => r / 6 * 48 + r % 6 * 8 + k)
/-- The highest clock that a layer voltage supports. -/
def clockLimit (mv : Nat) : Nat := if mv < 680 then 940 else if mv < 720 then 1020 else 1120
/-- The layer voltage that a clock needs. -/
def voltFor (mhz : Nat) : Nat := if mhz ≤ 940 then 650 else if mhz ≤ 1020 then 680 else 720
def Rail.highest (r : Rail) : Nat := maxList 650 (vals r.votes)

/-- An active lease of a partition. -/
def activeLease (s : State) (part : Nat) : Option Lease :=
  match (s.part part).lease with
  | some l => if l.suspended then none else some l
  | none => none
/-- The clock that a cluster may run at: the lowest lease, if every owner holds one (R24), within power management's own
setting and the voltage of its rail. -/
def clockOf (s : State) (cl : Nat) : Nat :=
  let k := s.cluster cl
  let ps := (clusterOwners s cl).dedup
  let leases := ps.filterMap (fun p => (activeLease s p).map (·.mhz))
  if k.target < 940 then k.target
  else if ps.isEmpty || leases.length != ps.length then 940
  else min (minList 1120 leases) (clockLimit (s.rail (railOf cl)).mv)

/-- The cores of a cluster, and of a rail. -/
def clusterCores (cl : Nat) : List Nat := (List.range 8).map (cl * 8 + ·)
def railCores (r : Nat) : List Nat := (railClusters r).flatMap clusterCores
/-- Whether every core of a cluster has confirmed: no fall steps it down (R325). -/
def clusterConfirmed (s : State) (cl : Nat) : Bool := (clusterCores cl).all (fun c => (s.core c).confirmed)

/-- The clusters of a rail rise to the clock they may run at (R324). -/
def raiseClocks (s : State) (r : Nat) : State :=
  (railClusters r).foldl (fun s cl =>
    if (s.rail r).fallTo.isNone ∧ (s.cluster cl).mhz < clockOf s cl then s.setClock cl (clockOf s cl) else s) s
/-- The clusters of a rail that no fall steps down come down to it at once (R24). -/
def lowerClocks (s : State) (r : Nat) : State :=
  (railClusters r).foldl (fun s cl =>
    if clusterConfirmed s cl ∧ clockOf s cl < (s.cluster cl).mhz then s.setClock cl (clockOf s cl) else s) s

/-- The clusters that a fall to a voltage steps down. -/
def fallClusters (s : State) (r mv : Nat) : List Nat :=
  (railClusters r).filter (fun cl => decide (clockLimit mv < (s.cluster cl).mhz))
/-- The clock to which a fall to a voltage steps a cluster down. -/
def fallTarget (s : State) (cl mv : Nat) : Nat := min (clockOf s cl) (clockLimit mv)

/-- The cores of a rail have all confirmed, but those of some clusters, which step down from now on. -/
def startSteps (s : State) (r : Nat) (cls : List Nat) : State :=
  let s := (railCores r).foldl (fun s c => s.mapCore c (fun k => { k with confirmed := !cls.contains (clusterOf c) })) s
  cls.foldl (fun s cl => s.setCluster cl { s.cluster cl with stepAt := s.ts + 250 }) s

/-- A rail follows its votes: a rise towards the highest one, the end of a fall, or the start of one (R324, R325). A vote that
leaves the voltage of a fall under way as it is changes nothing of it. -/
def followVotes (s : State) (r : Nat) : State :=
  let x := s.rail r
  let top := x.highest
  if x.mv ≤ top then
    raiseClocks (startSteps (s.setRail r { x with
      fallTo := none, fallAt := none, rising := if x.mv < top then some top else none }) r []) r
  else if x.fallTo = some top then s
  else
    let cls := fallClusters s r top
    startSteps (s.setRail r { x with
      fallTo := some top, rising := none, fallAt := if cls.isEmpty then some (x.fallAt.getD (s.ts + 50000)) else none }) r cls

/-- A vote on a rail. -/
def voteRail (s : State) (r part mv : Nat) : State :=
  let x := s.rail r
  followVotes (s.setRail r { x with votes := setD x.votes 0 part mv }) r

/-- The partitions that own units on a rail, which vote (R324). -/
def railOwners (s : State) (r : Nat) : List Nat := ((railClusters r).flatMap (clusterOwners s)).dedup
/-- The voltage that a partition's clock needs. -/
def partVote (s : State) (part : Nat) : Nat := match activeLease s part with
  | some l => voltFor l.mhz
  | none => 650
/-- The owners of units on a rail have changed: each owner votes, the votes of others leave (R324, R325), and no cluster runs
faster than its owners' leases allow (R24). -/
def revoteRail (s : State) (r : Nat) : State :=
  let votes := (railOwners s r).foldl (fun m p => setD m 0 p (partVote s p)) []
  lowerClocks (followVotes (s.setRail r { s.rail r with votes := votes }) r) r

/-- VOLTAGE_VOTE: of a partition that owns units on the rail, for the voltage that its clock needs. -/
def voltageVote (rail part mv : Nat) (s : State) : State :=
  if mv = partVote s part ∧ part ∈ railOwners s rail then lowerClocks (voteRail s rail part mv) rail else s

/-- Whether a cluster steps down now: one of its cores has not confirmed, its clock is above its target, its time has come. -/
def stepDue (s : State) (cl mv : Nat) : Bool :=
  !clusterConfirmed s cl && decide (fallTarget s cl mv < (s.cluster cl).mhz) && decide ((s.cluster cl).stepAt ≤ s.ts)

/-- CLOCK_STEP_CONFIRM: the core's cluster makes its next step of 20 MHz, 0.25 µs after the last; a core confirms once it runs at
the new clock, and the last confirmation starts the 50 µs to the fall. -/
def clockStepConfirm (core : Nat) (s : State) : State :=
  let cl := clusterOf core
  let r := railOf cl
  let x := s.rail r
  match x.fallTo with
  | none => s
  | some mv =>
    let k := s.cluster cl
    if (s.core core).confirmed then s
    else if stepDue s cl mv then
      (s.setCluster cl { k with stepAt := k.stepAt + 250 }).setClock cl (max (fallTarget s cl mv) (k.mhz - 20))
    else if fallTarget s cl mv < k.mhz then s
    else
      let s := s.mapCore core (fun k => { k with confirmed := true })
      if (railCores r).all (fun c => (s.core c).confirmed) then s.setRail r { x with fallAt := some (s.ts + 50000) } else s

/-- RAIL_FALL: 50 µs after the last confirmation; the rail has settled, and clocks that it supports may rise. A higher vote that
came during the fall then raises the rail. -/
def railFall (rail : Nat) (s : State) : State :=
  let x := s.rail rail
  match x.fallTo, x.fallAt with
  | some mv, some t =>
    if t ≤ s.ts then
      raiseClocks (lowerClocks (s.setRail rail { x with
        mv := mv, fallTo := none, fallAt := none, rising := if mv < x.highest then some x.highest else none }) rail) rail
    else s
  | _, _ => s

/-- RAIL_SETTLED: the rail stands at the voted voltage, and clocks may rise. -/
def railSettled (rail : Nat) (s : State) : State :=
  let x := s.rail rail
  match x.rising with
  | some mv => raiseClocks (s.setRail rail { x with mv := mv, rising := none }) rail
  | none => s

/-! ## Boost leases (R323) -/

/-- The rails on which a partition owns units. -/
def railsOf (s : State) (part : Nat) : List Nat :=
  ((ownedClusters s).filter (fun cl => (clusterOwners s cl).contains part)).map railOf |>.dedup
/-- A partition's vote on all its rails. -/
def voteAll (s : State) (part mv : Nat) : State :=
  (railsOf s part).foldl (fun s r => lowerClocks (voteRail s r part mv) r) s
/-- A partition's lease, and the vote that goes with it. -/
def setLease (s : State) (part : Nat) (l : Option Lease) : State :=
  let s := s.mapPart part (fun p => { p with lease := l })
  voteAll s part (partVote s part)
/-- Whether power management can meet a lease's vote: a free choice, which the spec does not state (log 2). -/
def canMeet (s : State) : Bool := s.free 2000 % 2 == 1

/-- BOOST_LEASE_REQUEST: `dur` in ns. -/
def boostLeaseRequest (port part mhz dur : Nat) (s : State) : State :=
  guarded port 6 s (fun s =>
    if 960 ≤ mhz ∧ mhz ≤ 1120 ∧ mhz % 20 = 0 ∧ 1000 ≤ dur ∧ dur ≤ 1000000000 ∧ canMeet s then
      some (setLease s.drew part (some ⟨mhz, dur, false⟩))
    else none)

/-- LEASE_EXPIRY: its running time has run out. -/
def leaseExpiry (part : Nat) (s : State) : State :=
  match (s.part part).lease with
  | some l => if l.left = 0 ∧ l.suspended = false then setLease s part none else s
  | none => s
/-- LEASE_RETRY: a suspended lease is resumed if power management grants it. -/
def leaseRetry (part : Nat) (s : State) : State :=
  match (s.part part).lease with
  | some l =>
    if l.suspended ∧ (s.part part).image.isEmpty then
      if canMeet s then setLease s.drew part (some { l with suspended := false }) else s.drew
    else s
  | none => s
/-- A lease is suspended with its remaining time. -/
def suspendLease (s : State) (part : Nat) : State :=
  match (s.part part).lease with
  | some l => if l.suspended then s else setLease s part (some { l with suspended := true })
  | none => s
/-- Whether a lease raises a clock now, so that its time runs (R24, R323). -/
def leaseRuns (s : State) (part : Nat) : Bool :=
  (activeLease s part).isSome &&
  (ownedClusters s).any (fun cl => (clusterOwners s cl).contains part && decide (940 < (s.cluster cl).mhz))

/-! ## Limits and pairs (R320, R322) -/

/-- The best tier of a cluster's owners: the lowest number. -/
def bestTier (s : State) (cl : Nat) : Nat := minList 3 ((clusterOwners s cl).map (fun p => (s.part p).tier))
/-- Of the clusters where a measure can still act, those whose best tier is the highest number. -/
def firstToAct (s : State) (can : Nat → Bool) : List Nat :=
  let l := (ownedClusters s).filter can
  let top := maxList 0 (l.map (bestTier s))
  l.filter (fun cl => bestTier s cl == top)

/-- POWER_LIMIT_MEASURES: the next step of the stages of R320, while the limit does not hold. -/
def powerLimitMeasures (exceeded : Bool) (s : State) : State :=
  if !exceeded then s
  else
    match firstToAct s (fun cl => (clusterOwners s cl).any (fun p => (activeLease s p).isSome)) with
    | c :: r => ((c :: r).flatMap (clusterOwners s)).dedup.foldl suspendLease s
    | [] =>
      match firstToAct s (fun cl => decide (4 < (s.cluster cl).droopCap)) with
      | c :: r => (c :: r).foldl (fun s cl => s.setCluster cl { s.cluster cl with droopCap := (s.cluster cl).droopCap - 1 }) s
      | [] =>
        (firstToAct s (fun cl => decide (500 < (s.cluster cl).target))).foldl (fun s cl =>
          let t := (s.cluster cl).target - 20
          (s.setCluster cl { s.cluster cl with target := t }).setClock cl (min (s.cluster cl).mhz t)) s

/-- Partition of the head request of a cluster's Reef, if it would fit. -/
def headPart (s : State) (cl : Nat) : Option Nat :=
  match (s.cluster cl).resv with
  | q :: _ =>
    if heldUnits s cl + q.units ≤ (s.cluster cl).budget then (s.cmd? q.core q.e).map (partOfCmd s) else none
  | [] => none

/-- A deferral at a Reef counts once for a head request that would fit (R328). -/
def countDeferred (s : State) (cl : Nat) : State :=
  match headPart s cl, (s.cluster cl).resv with
  | some p, q :: r =>
    if (s.cluster cl).defer && !q.counted then
      (s.setCluster cl { s.cluster cl with resv := { q with counted := true } :: r }).event p (cl * 8) (cl * 8 * 16) 7 13 1
    else s
  | _, _ => s

/-- PAIR_BALANCE: the measured core-rail currents of the two clusters of a stacked pair. -/
def pairBalance (pair lower upper : Nat) (s : State) : State :=
  let a := 2 * pair
  let b := 2 * pair + 1
  let (light, heavy, il, ih) := if lower ≤ upper then (a, b, lower, upper) else (b, a, upper, lower)
  let put (s : State) (cl : Nat) (d l : Bool) : State := s.setCluster cl { s.cluster cl with defer := d, ballast := l }
  if il * 100 < ih * 92 then
    countDeferred (put (put s heavy true false) light false true) heavy
  else if (ih - il) * 100 ≤ ih * 5 then put (put s a false false) b false false
  else s

/-! ## The steps -/

/-- MEMORY_REQUEST_ARRIVAL (R316). -/
def execMemoryRequestArrival (ch cls n sector : Nat) (s : State) : Host.Outcome State Fault Refusal :=
  runAt (channelOk ch) (memoryRequestArrival ch cls n sector) s
/-- MEMORY_REQUEST_SERVE (R316). -/
def execMemoryRequestServe (ch : Nat) (s : State) : Host.Outcome State Fault Refusal :=
  runAt (channelOk ch) (memoryRequestServe ch) s
/-- NETWORK_SECTOR_GRANT (R317). -/
def execNetworkSectorGrant (core : Nat) (s : State) : Host.Outcome State Fault Refusal :=
  runAt (coreOk core) (networkSectorGrant core) s
/-- REFILL_PERIOD_END (R318). -/
def execRefillPeriodEnd (core : Nat) (s : State) : Host.Outcome State Fault Refusal :=
  runAt (coreOk core) (refillPeriodEnd core) s
/-- BUDGET_PERIOD (R319). -/
def execBudgetPeriod (s : State) : Host.Outcome State Fault Refusal := runAt true budgetPeriod s
/-- POWER_LIMIT_MEASURES (R320). -/
def execPowerLimitMeasures (exceeded : Bool) (s : State) : Host.Outcome State Fault Refusal :=
  runAt true (powerLimitMeasures exceeded) s
/-- PAIR_BALANCE (R322). -/
def execPairBalance (pair lower upper : Nat) (s : State) : Host.Outcome State Fault Refusal :=
  runAt (decide (pair < 96)) (pairBalance pair lower upper) s
/-- BOOST_LEASE_REQUEST (R323). -/
def execBoostLeaseRequest (port part mhz dur : Nat) (s : State) : Host.Outcome State Fault Refusal :=
  runAt (portOk port && partOk part) (boostLeaseRequest port part mhz dur) s
/-- LEASE_EXPIRY (R323). -/
def execLeaseExpiry (part : Nat) (s : State) : Host.Outcome State Fault Refusal :=
  runAt (partOk part) (leaseExpiry part) s
/-- LEASE_RETRY (R323). -/
def execLeaseRetry (part : Nat) (s : State) : Host.Outcome State Fault Refusal :=
  runAt (partOk part) (leaseRetry part) s
/-- VOLTAGE_VOTE (R324). -/
def execVoltageVote (rail part mv : Nat) (s : State) : Host.Outcome State Fault Refusal :=
  runAt (railOk rail && partOk part) (voltageVote rail part mv) s
/-- CLOCK_STEP_CONFIRM (R325). -/
def execClockStepConfirm (core : Nat) (s : State) : Host.Outcome State Fault Refusal :=
  runAt (coreOk core) (clockStepConfirm core) s
/-- RAIL_FALL (R325). -/
def execRailFall (rail : Nat) (s : State) : Host.Outcome State Fault Refusal := runAt (railOk rail) (railFall rail) s
/-- RAIL_SETTLED (R324). -/
def execRailSettled (rail : Nat) (s : State) : Host.Outcome State Fault Refusal :=
  runAt (railOk rail) (railSettled rail) s

end Sys2Proof.Machine
end

