-- ==== Sys2Proof/Machine/Image.lean ====
section
/-! DEFINITION. Context images (11 R299, R300): the records of an image as bytes, each a header of 8 bytes and its payload; the
payloads that the spec lays out (R284, R292). -/

namespace Sys2Proof.Machine

/-- The payload of a record whose layout the spec leaves to firmware (R300; log 18). -/
opaque payloadBytes : ImageRec → List Byte
/-- The record that a loader reads from the payload of a type, where the layout is firmware's (log 18). -/
opaque payloadParse : Nat → List Byte → Option ImageRec

/-- TYPE of a record (R300). -/
def ImageRec.type : ImageRec → Nat
  | .image _ _ _ _ _ _ _ => 0x0001
  | .graphPos _ _ _ _ _ _ _ _ => 0x0002
  | .sheet _ _ => 0x0010
  | .trap _ _ => 0x0011
  | .timing _ _ _ _ _ _ _ _ => 0x0012
  | .workgroup _ _ => 0x0020
  | .abuf _ _ => 0x0021
  | .wbuf _ _ => 0x0022
  | .tiles _ _ _ => 0x0023
  | .limbs _ _ _ => 0x0024
  | .bankFmt _ _ => 0x0025
  | .grid _ _ => 0x0030
  | .lease _ _ => 0x0040
  | .counters _ => 0x0041
  | .unknown ty _ _ => ty
  | .end_ => 0xFFFF
/-- The types that a loader knows. -/
def knownTypes : List Nat :=
  [0x0001, 0x0002, 0x0010, 0x0011, 0x0012, 0x0020, 0x0021, 0x0022, 0x0023, 0x0024, 0x0025, 0x0030, 0x0040, 0x0041, 0xFFFF]
/-- VERSION of a record: 1 of every type that this device writes, the least there is (R299; log 79). -/
def ImageRec.version : ImageRec → Nat
  | .unknown _ v _ => v
  | _ => 1
/-- IGN of a record: TIMING carries it always (R300), LEASE and COUNTERS too (R364). -/
def ImageRec.ign : ImageRec → Bool
  | .timing _ _ _ _ _ _ _ _ => true
  | .lease _ _ => true
  | .counters _ => true
  | .unknown _ _ g => g
  | _ => false

/-- The graph position record, 512 bits (R292). -/
def graphWord (rrec args baddr kaddr s4 s5 s6 s7 : W64) : BitVec 512 :=
  s7 ++ s6 ++ s5 ++ s4 ++ args ++ rrec ++ baddr ++ kaddr
/-- A field of 64 bits of such a record. -/
def graphField (w : BitVec 512) (k : Nat) : W64 := w.extractLsb' (64 * k) 64
/-- The record of a graph position word. -/
def graphOf (w : BitVec 512) : ImageRec :=
  .graphPos (graphField w 2) (graphField w 3) (graphField w 1) (graphField w 0) (graphField w 4) (graphField w 5)
    (graphField w 6) (graphField w 7)

/-- Width of a sheet of an image. -/
def imageWidth (img : List ImageRec) (sid : Nat) : Nat :=
  (img.findSome? (fun r => match r with
    | .sheet k sh => if k = sid then some sh.width else none
    | _ => none)).getD 32
/-- The payload of a record of an image. -/
def payload (img : List ImageRec) (r : ImageRec) : List Byte :=
  match r with
  | .graphPos a b c d e f g h => leBytes 64 (graphWord a b c d e f g h).toNat
  | .trap sid t => trapBytes t (imageWidth img sid)
  | .end_ => []
  | r => payloadBytes r

/-- The header of a record (R299). -/
def recordHeader (r : ImageRec) (length : Nat) : Nat :=
  r.type % 2 ^ 16 + 2 ^ 16 * (r.version % 2 ^ 8) + 2 ^ 24 * ofBool r.ign + 2 ^ 32 * (length % 2 ^ 32)
/-- A record as bytes: header, payload, zeros up to a multiple of 8 (R299). -/
def recordBytes (img : List ImageRec) (r : ImageRec) : List Byte :=
  let p := payload img r
  leBytes 8 (recordHeader r p.length) ++ p ++ List.replicate ((8 - p.length % 8) % 8) 0
/-- A context image as bytes. -/
def imageLayout (img : List ImageRec) : List Byte := img.flatMap (recordBytes img)

/-- The causes in the order of their codes (R278). -/
def causesByCode : List Cause :=
  [.none, .bundleIllegal, .moveIllegal, .opUnassigned, .opRetired, .opAbsent, .translation, .protection, .alignment,
   .spaceBounds, .guardStatic, .guardData, .intervalEmpty, .fpEnabled, .intDivide, .barrierOverrun, .nestDepth,
   .atomicUnsupported, .undecidedBranch, .divergeDepth, .breakpoint, .softwareTrap, .engineError, .uncorrectable,
   .spawnOverflow, .watchdog]
/-- Slot blocks read from bytes (R284): EXEC and the saved values of each move. -/
def readBlocks : List SavedMove → List Byte → List SavedMove
  | [], _ => []
  | m :: r, bs =>
    let n := m.vals.length
    { m with exec := BitVec.ofNat 128 (leNat (bs.take 16))
             vals := (List.range n).map (fun k => w64 (leNat ((bs.drop (16 + 8 * k)).take 8))) }
      :: readBlocks r (bs.drop (16 + 8 * n))
/-- The slots whose bits of a field of six are set. -/
def slotsAt (h k : Nat) : List Nat := (List.range 6).filter (fun j => bitAt h (k + j))
/-- A trap record read from its bytes (R284). What its layout does not hold is as firmware reads it (log 18): `t`, the bundle's
moves among it. -/
def Trap.read (t : Trap) (p : List Byte) : Trap :=
  let h := leNat (p.take 64)
  let done := slotsAt h 20
  let left := (List.range 6).flatMap (fun k => t.blocks.filter (fun m => m.slot == k && !done.contains k))
  { t with
    cause := causesByCode.getD (bits h 8 8) .none, late := bitAt h 16, rslot := bits h 17 3, done := done, sfault := slotsAt h 26
    ent := bits h 32 8, fmask := BitVec.ofNat 128 (bits h 128 128), ts := bits h 256 64, info := bits h 320 64
    baddr := w64 (bits h 384 64), faddr := w64 (bits h 448 64), blocks := readBlocks left (p.drop 64) }

/-- The record that a loader makes of a frame: one of a type it does not know, or of a higher version, it cannot apply (R301). A
TRAP record is of the sheet whose SHEET record it follows, `sid`. -/
def readRecord (sid ty version : Nat) (ign : Bool) (p : List Byte) : ImageRec :=
  let unknown : ImageRec := .unknown ty version ign
  if !knownTypes.contains ty || version != 1 || ((ty == 1 || ty == 0xFFFF) && ign) then unknown
  else if ty = 0xFFFF then .end_
  else if ty = 2 then graphOf (BitVec.ofNat 512 (leNat (p.take 64)))
  else if ty = 0x11 then
    .trap sid ((match payloadParse ty p with
      | some (.trap _ t) => t
      | _ => Trap.blank 0 0).read p)
  else (payloadParse ty p).getD unknown
/-- The sheet that the next TRAP record belongs to. -/
def ImageRec.owner (r : ImageRec) (sid : Nat) : Nat := match r with
  | .sheet k _ => k
  | _ => sid
/-- The records of an image's bytes, up to END (R299); what follows END is padding of its last message (R362). -/
def imageParse (sid : Nat) : Nat → List Byte → List ImageRec
  | 0, _ => []
  | n + 1, bs =>
    if bs.length < 8 then []
    else
      let h := leNat (bs.take 8)
      let len := bits h 32 32
      let r := readRecord sid (bits h 0 16) (bits h 16 8) (bitAt h 24) ((bs.drop 8).take len)
      if r = .end_ then [r] else r :: imageParse (r.owner sid) n (bs.drop (8 + (len + 7) / 8 * 8))

end Sys2Proof.Machine
end

