-- ==== Sys2Proof/Machine/Preempt.lean ====
section
/-! DEFINITION. Pre-emption (11 R290 to R298): class G and class D, drain points and forced stops; save and restore of a
context image (R296 to R301; 10 R260, R267 to R269); the kill of a context (12 R323). -/

namespace Sys2Proof.Machine

/-! ## The sheets of a context -/

/-- The resident sheets of a partition's context (log 14). -/
def ownSheets (s : State) (part : Nat) : List (Nat × Sheet) := s.sheets.filter (fun e => s.partOf e.2 == part)
/-- The grids of a context. -/
def ownGrids (s : State) (part : Nat) : List (Nat × Grid) := s.grids.filter (fun e => e.2.part == part)
/-- The workgroups of a context on the device. -/
def ownWgs (s : State) (part : Nat) : List (Nat × Workgroup) :=
  s.wgs.filter (fun e => match s.grid? e.2.grid with
    | some g => g.part == part
    | none => false)

def setPreempt (s : State) (part : Nat) (p : Option Preempt) : State := s.mapPart part (fun q => { q with preempt := p })

/-- BOWAIT's deadline as the cycles that remain while the sheet is saved (R264, R295). -/
def Sheet.pauseWait (sh : Sheet) (c : Nat) : Sheet :=
  match sh.wait with
  | .object off d id => { sh with wait := .object off (d - c) id }
  | _ => sh
/-- And as a deadline again. -/
def Sheet.resumeWait (sh : Sheet) (c : Nat) : Sheet :=
  match sh.wait with
  | .object off d id => { sh with wait := .object off (c + d) id }
  | _ => sh

/-- A running sheet stops where it is. -/
def stopSheet (s : State) (sid : Nat) (sh : Sheet) : State :=
  s.setSheet sid { sh with park := .stopped, stopNext := false }

/-! ## Class G (R291 to R294) -/

/-- CLASS_G_REQUEST: a resident context that is not asked to stop yet. -/
def classGRequest (part : Nat) (s : State) : State :=
  match (s.part part).preempt with
  | none => if (s.part part).image.isEmpty then setPreempt s part (some ⟨false, s.ts⟩) else s
  | some _ => s

/-- Whether a sheet whose next bundle is `i` is at a graph boundary (R291): the only sheet of a root grid, DP and LAUNCH,
no operator grid of the context left, no command of its own pending. -/
def atBoundary (s : State) (sid : Nat) (sh : Sheet) (i : Instr) : Bool :=
  match s.gridOf sh with
  | some g =>
    g.parent.isNone && g.lrec.total == 1 && decide (g.lrec.threads ≤ g.kernel.width) && Instr.dp i && Instr.holdsLaunch i &&
    (ownGrids s g.part).all (fun e => e.2.parent.isNone) &&
    (vals (s.core (coreOf sid)).cmds).all (fun c => c.sid != sid)
  | none => false

/-- Whether a class G request holds a sheet before the bundle `i`. -/
def heldAtBoundary (s : State) (sid : Nat) (sh : Sheet) (i : Instr) : Bool :=
  match (s.part (s.partOf sh)).preempt with
  | some p => !p.classD && atBoundary s sid sh i
  | none => false

/-- The graph position record of a root sheet (R292). -/
def graphPos (g : Grid) (sh : Sheet) : ImageRec :=
  .graphPos g.record g.lrec.args sh.pc g.lrec.kaddr (sh.getS 4) (sh.getS 5) (sh.getS 6) (sh.getS 7)

/-- The IMAGE record of a partition, of an image of `count` records (R300). -/
def imageHead (s : State) (part : Nat) (classD : Bool) (count : Nat) : ImageRec :=
  .image s.deviceNo Config.firmwareVersion count part classD ((s.part part).boundKey.getD 0)
    ((s.vfs.filter (fun e => e.2.part == some part)).map (fun e => (e.1, e.2.troot)))
/-- The LEASE and COUNTERS records; the lease is suspended with its remaining time (R323). -/
def imageTail (s : State) (part : Nat) : List ImageRec :=
  let p := s.part part
  (match p.lease with
   | some l => [.lease l.left l.mhz]
   | none => []) ++ [.counters p.counters, .end_]
/-- The context is saved: its image stands, its request is met, its lease is in the image. -/
def putImage (s : State) (part : Nat) (img : List ImageRec) : State :=
  let s := suspendLease s part
  s.mapPart part (fun p => { p with image := img, preempt := none, lease := none })

/-- The ordering operations with which a sheet may be saved: those of BAR, BARW, BOWAIT and LWAIT that wait (R295), and an arrival
that waits for an earlier phase, each of which has its release behind it. -/
def OrdAction.waits : OrdAction → Bool
  | .held _ => true
  | .arrive _ _ _ _ => true
  | .await _ _ _ => true
  | _ => false

/-- Nothing that a sheet has asked for is still to be answered, its accesses are performed and its stores at their homes, which
is a release at system scope (R211, R286). -/
def quiet (s : State) (sid : Nat) : Bool :=
  (vals (s.core (coreOf sid)).cmds).all (fun c => c.sid != sid) && s.homeq.all (fun h => h.sid != sid) &&
  (s.sheet? sid).all (fun sh => sh.held.isNone && sh.issuing.isNone && sh.queue.all (fun a => a.isOrder && a.act.waits)) &&
  s.launches.all (fun q => match q with
    | .move x _ _ _ _ => x != sid
    | _ => true) &&
  s.peerReqs.all (fun q => match q.op with
    | .access x _ => x != sid
    | .boarr _ x _ => x != sid
    | .botest x _ => x != sid
    | _ => true)

/-- The positions of a context's grids at their graph boundaries; fewer than its grids where one does not wait there. -/
def boundaries (s : State) (part : Nat) : List ImageRec :=
  let shs := ownSheets s part
  let sheetOf (gn : Nat) : Option (Nat × Sheet) := shs.find? (fun e => match s.wg? e.2.wg with
    | some w => w.grid == gn
    | none => false)
  (ownGrids s part).filterMap (fun e => match sheetOf e.1 with
    | some (_, sh) => if sh.park = .boundary then some (graphPos e.2 sh) else none
    | none => none)
/-- Whether every grid of a context waits at a graph boundary (R291). -/
def allAtBoundary (s : State) (part : Nat) : Bool :=
  !(ownGrids s part).isEmpty && (boundaries s part).length == (ownGrids s part).length

/-- An image with its IMAGE record first. -/
def imageOf (s : State) (part : Nat) (classD : Bool) (rest : List ImageRec) : List ImageRec :=
  imageHead s part classD (rest.length + 1) :: rest

/-- GRAPH_BOUNDARY_STOP: every root grid waits at a boundary; the records are written and the workgroups are gone. -/
def graphBoundaryStop (part : Nat) (s : State) : State :=
  match (s.part part).preempt with
  | none => s
  | some p =>
    let gs := ownGrids s part
    let shs := ownSheets s part
    if p.classD || !allAtBoundary s part || !shs.all (fun e => quiet s e.1) then s
    else
      let img := imageOf s part false (gs.map (fun e => .grid e.1 e.2) ++ boundaries s part ++ imageTail s part)
      let s := shs.foldl (fun s e => removeSheet s e.1) s
      let s := (ownWgs s part).foldl (fun s e => clearReuse { s with wgs := drop s.wgs e.1 } e.2.core e.2.col) s
      putImage s part img

/-- Deadline of a class G request: the largest BOUND of the running kernels and 50 µs (R294). -/
def boundDeadline (s : State) (part at_ : Nat) : Nat :=
  at_ + 1000 * maxList 0 ((ownGrids s part).map (fun e => e.2.kernel.bound)) + 50000

/-! ## Class D (R295) -/

/-- Class D begins; sheets at a boundary are stopped there. -/
def beginClassD (s : State) (part : Nat) : State :=
  let s := setPreempt s part (some ⟨true, s.ts⟩)
  (ownSheets s part).foldl (fun s e => s.mapSheet e.1 (fun sh => if sh.park = .boundary then { sh with park := .stopped } else sh)) s

/-- Whether a class G request has reached its deadline without a boundary (R294). -/
def escalates (s : State) (part : Nat) : Bool :=
  match (s.part part).preempt with
  | some p => !p.classD && decide (boundDeadline s part p.at_ ≤ s.ts) && !allAtBoundary s part
  | none => false
/-- CLASS_G_ESCALATION: no boundary by the deadline. -/
def classGEscalation (part : Nat) (s : State) : State :=
  match (s.part part).preempt with
  | some _ => if escalates s part then beginClassD s part else s
  | none => s
/-- CLASS_D_REQUEST. -/
def classDRequest (part : Nat) (s : State) : State :=
  match (s.part part).preempt with
  | some p => if p.classD then s else beginClassD s part
  | none => if (s.part part).image.isEmpty then beginClassD s part else s

/-- Whether a sheet waits at a cycle in BAR, BARW, BOWAIT or LWAIT, where it stops as it is. -/
def Sheet.waitsHere (sh : Sheet) (c : Nat) : Bool :=
  (match sh.wait with
   | .bar _ _ _ => !sh.waitOver c
   | .barSheet _ => !sh.waitOver c
   | .object _ _ _ => true
   | _ => false) || (match sh.sys with
   | .lwait _ _ _ => true
   | _ => false)

/-- Whether nothing but its own results keeps a sheet from its next bundle. -/
def Sheet.betweenBundles (sh : Sheet) : Bool :=
  sh.park == .running && sh.skip == 0 && sh.lates.isEmpty && sh.held.isNone && sh.issuing.isNone && (match sh.wait with
    | .none => true
    | .land _ => true
    | _ => false) && (match sh.sys with
    | .none => true
    | .land _ => true
    | _ => false)

/-- DRAIN_POINT_STOP: before the next bundle with DP set, at the next bundle boundary after a park, or where the sheet waits; one
whose threads are all gone has exited (R289). -/
def drainPointStop (sid : Nat) (s : State) : State :=
  match s.sheet? sid with
  | none => s
  | some sh =>
    if !classDPending s sh || sh.park != .running || sh.left || sh.issuing.isSome then s
    else if Sheet.waitsHere sh (s.cycle (coreOf sid)) then stopSheet s sid sh
    else if Sheet.betweenBundles sh then
      if sh.stopNext then stopSheet s sid sh
      else
      match nextInstr s sid sh with
      | .ok i => if Instr.dp i then stopSheet s sid sh else s
      | .error _ => s
    else s

/-- Whether class D began at least 100 µs ago. -/
def forceDue (s : State) (part : Nat) : Bool :=
  match (s.part part).preempt with
  | some p => p.classD && decide (p.at_ + 100000 ≤ s.ts)
  | none => false

/-- Whether a sheet is parked: for a stop, or for the answer to SVC (R463). -/
def Sheet.parked (sh : Sheet) : Bool :=
  sh.park == .raised || sh.park == .service || sh.park == .resume || sh.park == .debug || (match sh.sys with
    | .svc _ _ _ => true
    | _ => false)

/-- FORCED_STOP_DEADLINE: each sheet that is neither parked nor stopped stops once its commands have delivered. -/
def forcedStopDeadline (part : Nat) (s : State) : State :=
  if !forceDue s part then s
  else
    (ownSheets s part).foldl (fun s e =>
      match s.sheet? e.1 with
      | some sh =>
        if sh.park = .running ∧ !Sheet.parked sh ∧ !sh.left ∧ sh.skip = 0 ∧ sh.held = none ∧ sh.issuing = none ∧ (vals (s.core (coreOf e.1)).cmds).all (fun c => c.sid != e.1) then
          (stopSheet s e.1 sh).event part (coreOf e.1) e.1 7 12 1
        else s
      | none => s) s

/-! ## Save (R296, R297) -/

/-- A sheet as its SHEET record holds it: results landed, times relative, counting registers in TIMING (R300, R332). -/
def Sheet.saved (sh : Sheet) (c : Nat) : Sheet :=
  { (Sheet.landAll { sh with flights := sh.flights.map (fun (f : Flight) => if f.unit = .imu then { f with ready := true } else f) }).pauseWait c with
    flow := none, fetch := none, trap := none, cycAcc := 0, issued := 0, droop := 0, drift := 0, markArm := true, markLog := true, armed := false
    cycFrom := sh.cycFrom.map (fun _ => 0), waitAt := sh.waitAt.map (fun (a, k, n) => (c - a, k, n))
    readySince := 0, nextIssue := 0 }
/-- The records of a sheet. -/
def sheetRecs (s : State) (sid : Nat) (sh : Sheet) : List ImageRec :=
  let c := s.cycle (coreOf sid)
  [.sheet sid (Sheet.saved sh c),
   .timing sid (Sheet.cycleAt sh c) sh.issued sh.droop sh.drift sh.markArm sh.markLog sh.armed] ++
  (match sh.trap with
   | some t => [.trap sid t]
   | none => [])
/-- The records of a workgroup that leaves its core. -/
def wgRecs (id : Nat) (w : Workgroup) : List ImageRec :=
  [.workgroup id { w with abuf := [], wbuf := [], tiles := [], tileInt := [], limbs := [], tags := [], banks := [] },
   .abuf id w.abuf, .wbuf id w.wbuf, .tiles id w.tiles w.tileInt, .limbs id w.limbs w.tags, .bankFmt id w.banks]

/-- Pintle redirect entries of a die that are free (R267). -/
def redirectRoom (s : State) (die : Nat) : Nat := 512 - (s.die die).redirects.length
/-- Adds the redirect entry of a saved workgroup. -/
def addRedirect (part : Nat) (s : State) (e : Nat × Workgroup) : State :=
  let d := s.die (dieOf e.2.core)
  s.setDie (dieOf e.2.core) { d with redirects := d.redirects ++ [⟨part, e.2.core, e.2.col, e.1, e.1, e.2.aSize, false⟩] }

/-- CONTEXT_SAVE: every sheet has stopped under class D, or is parked beyond the deadline; with reassignment the
workgroups leave their cores too. DESIGN CHOICE (log 92): the pins of the context stay (R194), whose lines its restore finds. -/
def contextSave (part : Nat) (reassign : Bool) (s : State) : State :=
  let shs := ownSheets s part
  let ws := ownWgs s part
  let isD := match (s.part part).preempt with
    | some p => p.classD
    | none => false
  let stopped := shs.all (fun e => e.2.park == .stopped || (forceDue s part && Sheet.parked e.2))
  let room := !reassign || (List.range Config.numDies).all (fun d =>
    decide ((ws.filter (fun e => dieOf e.2.core == d)).length ≤ redirectRoom s d))
  if !isD || !stopped || !room || !shs.all (fun e => quiet s e.1) then s
  else
    let img := imageOf s part true ((ownGrids s part).map (fun e => .grid e.1 e.2)
      ++ (if reassign then ws.flatMap (fun e => wgRecs e.1 e.2) else [])
      ++ shs.flatMap (fun e => sheetRecs s e.1 e.2) ++ imageTail s part)
    let s := shs.foldl (fun s e => (leavePort s e.1).dropSheet e.1) s
    let s := ws.foldl (fun s e => clearReuse s e.2.core e.2.col) s
    let s := if reassign then
        ws.foldl (fun s e => { addRedirect part s e with wgs := drop s.wgs e.1 }) s
      else s
    putImage s part img

/-! ## Restore (R269, R300, R301, R363) -/

/-- First page, and number of pages, that a partition's dirty-tracking descriptor tracks (R309). DEDUCED (log 94): they are its
device-memory region. -/
def bmFirst (p : Part) : Nat := bits p.dirty.toNat 52 40
def bmCount (p : Part) : Nat := bits p.dirty.toNat 96 32

/-- The tracked pages that are of this device's memory: no other page is sent (R363). -/
def tracked (p : Part) : List Nat := (List.range (bmCount p)).filter (fun n => decide ((bmFirst p + n) * 4096 < Config.devMemTop))
/-- The place of a page's sequence number in the table of a session (R362). -/
def seqAt (p : Part) (page : Nat) : Nat := p.precopy.table + 8 * (page - bmFirst p)
/-- No message has been applied to a page (R362). -/
def seqNone : Nat := 2 ^ 64 - 1
/-- Whether an image that came in a session belongs to a region of the same pages (R363). DEDUCED (log 94): round 0 sends every
page of the source's region (R361), so the regions agree if every page of this one has come and no other. -/
def regionAgrees (s : State) (p : Part) : Bool :=
  p.precopy.image.isEmpty || (!p.precopy.foreign && (tracked p).all (fun n =>
    s.readNat (seqAt p (bmFirst p + n)) 8 != seqNone))

/-- Whether a loader can apply an image: IMAGE first with the partition's key, END last, nothing unknown that it may not
skip; a migrated one of the partition's own region. -/
def loadable (s : State) (part : Nat) (img : List ImageRec) : Bool :=
  regionAgrees s (s.part part) &&
  (match img.head? with
   | some (.image _ _ _ _ _ k _) => k == (s.part part).boundKey.getD 0
   | _ => false) && img.getLast? == some .end_ &&
  img.all (fun r => match r with
    | .unknown _ _ ign => ign
    | _ => true)

/-- The workgroups of an image, whole again. -/
def imageWgs (img : List ImageRec) : List (Nat × Workgroup) :=
  img.filterMap (fun r => match r with
    | .workgroup id w =>
      some (id, img.foldl (fun (w : Workgroup) r => match r with
        | .abuf k m => if k = id then { w with abuf := m } else w
        | .wbuf k m => if k = id then { w with wbuf := m } else w
        | .tiles k m ty => if k = id then { w with tiles := m, tileInt := ty } else w
        | .limbs k m t => if k = id then { w with limbs := m, tags := t } else w
        | .bankFmt k m => if k = id then { w with banks := m } else w
        | _ => w) w)
    | _ => none)

/-- The sheets of an image, with their timing and traps. -/
def imageSheets (img : List ImageRec) : List (Nat × Sheet) :=
  img.filterMap (fun r => match r with
    | .sheet sid sh =>
      some (sid, img.foldl (fun (sh : Sheet) r => match r with
        | .timing k cyc iss dr drift arm log armed =>
          if k = sid then { sh with cycAcc := cyc, issued := iss, droop := dr, drift := drift, markArm := arm,
                                    markLog := log, armed := armed } else sh
        | .trap k t => if k = sid then { sh with trap := some t } else sh
        | _ => sh) sh)
    | _ => none)

/-- A number of an image, of one of `ids`, as this device gives it. -/
def renumbered (next : Nat) (ids : List Nat) (k : Nat) : Nat := if k ∈ ids then next + ids.idxOf k else k
/-- The records of a migrated image under the numbers of this device (R363). DESIGN CHOICE (log 98): the partition's, those of its
virtual functions in their order, new ones for grids and workgroups. -/
def rebased (s : State) (part : Nat) (img : List ImageRec) : List ImageRec :=
  let g := renumbered s.nextGrid (img.filterMap (fun r => match r with
    | .grid id _ => some id
    | _ => none))
  let w := renumbered s.nextWg (img.filterMap (fun r => match r with
    | .workgroup id _ => some id
    | _ => none))
  let theirs := img.flatMap (fun r => match r with
    | .image _ _ _ _ _ _ l => l.map (·.1)
    | _ => [])
  let ours := (s.vfs.filter (fun e => e.2.part == some part)).map (·.1)
  let vf (k : Nat) : Nat := ours.getD (theirs.idxOf k) k
  img.map (fun r => match r with
    | .image d f n _ c k l => .image d f n part c k (l.map (fun e => (vf e.1, e.2)))
    | .grid id x => .grid (g id) { x with part := part, vf := vf x.vf, parent := x.parent.map g, placed := x.placed.map (fun e => (e.1, w e.2)) }
    | .workgroup id x => .workgroup (w id) { x with grid := g x.grid }
    | .sheet sid sh => .sheet sid { sh with wg := w sh.wg }
    | .abuf id m => .abuf (w id) m
    | .wbuf id m => .wbuf (w id) m
    | .tiles id m ty => .tiles (w id) m ty
    | .limbs id m t => .limbs (w id) m t
    | .bankFmt id m => .bankFmt (w id) m
    | r => r)

/-- The grids of an image that the device does not hold. -/
def putGrids (s : State) (img : List ImageRec) : State :=
  img.foldl (fun s r => match r with
    | .grid id g =>
      if (s.grid? id).isSome then s
      else
        let s := s.setGrid id g
        { s with nextGrid := max s.nextGrid (id + 1), lqueue := if g.nextG < g.lrec.total then s.lqueue ++ [id] else s.lqueue }
    | _ => s) s

/-- The units of a partition that are clean for it, or have served it last. -/
def cleanUnits (s : State) (part : Nat) : List Place :=
  (unitsOf s part).filter (fun p => !scrubbing s p.core p.col && !scrubDue s p.core p.col part)

/-- A place for a saved workgroup: any unit, or the unit of its rank in the cluster where its group can stand (R36). -/
def placeSaved (s : State) (us : List Place) (ws : List (Nat × Workgroup)) (e : Nat × Workgroup) :
    Option (Place × (List Nat × Nat × Nat)) :=
  match s.grid? e.2.grid with
  | none => none
  | some g =>
    let n := needOf g.kernel g.lrec
    if g.lrec.clw = 0 then bestUnit s us n
    else
      let clw := g.lrec.clw
      let mates := ws.filter (fun o => o.2.grid == e.2.grid && o.2.g / clw == e.2.g / clw)
      let holdAt (cl : Nat) (o : Nat × Workgroup) : Option (Place × (List Nat × Nat × Nat)) :=
        bestUnit s (us.filter (fun p => p.core == cl * 8 + o.2.g % clw)) n
      let placed := (ownWgs s g.part).find? (fun o => o.2.grid == e.2.grid && o.2.g / clw == e.2.g / clw)
      match placed with
      | some o => holdAt (clusterOf o.2.core) e
      | none =>
        ((List.range Config.numClusters).find? (fun cl => mates.all (fun o => (holdAt cl o).isSome))).bind (fun cl => holdAt cl e)

/-- A register that every context reads at its latest value. -/
def WReg.settled (r : WReg) : WReg := ⟨r.val, r.val, 0, 16, []⟩
/-- A workgroup moved to a place; its registers read their latest values, no step at its objects is of this cycle. -/
def moveWg (w : Workgroup) (p : Place) (h : List Nat × Nat × Nat) : Workgroup :=
  { w with core := p.core, col := p.col, ctxs := h.1, aAt := h.2.1, wAt := h.2.2, steps := []
           w := w.w.map (fun (k, r) => (k, r.settled)), banks := w.banks.map (fun (k, r) => (k, r.settled)) }

/-- All workgroups of an image placed on the units, in order; none where one finds no place. -/
def placeImage (part : Nat) (all : List (Nat × Workgroup)) : List (Nat × Workgroup) → State → Option State
  | [], s => some s
  | e :: r, s =>
    match placeSaved s (cleanUnits s part) all e with
    | none => none
    | some (p, h) =>
      let s := (clearReuse s p.core p.col).setWg e.1 (moveWg e.2 p h)
      let s := if e.2.started then s.mapCore p.core (fun k => { k with served := put k.served p.col (part + 1) }) else s
      placeImage part all r { s with nextWg := max s.nextWg (e.1 + 1) }

/-- The context of a sheet's number in its workgroup as it stands now. -/
def contextOf (s : State) (sid : Nat) (sh : Sheet) : Nat :=
  match s.wg? sh.wg with
  | some w => w.core * 16 + w.ctxs.getD sh.num (ctxOf sid)
  | none => sid

/-- Where a record's STATUS stands now. DESIGN CHOICE (log 78): a record that no longer translates is watched where it stood. -/
def recordPlace (s : State) (sid : Nat) (sh : Sheet) (va : W64) (pa : Nat) : Nat :=
  match translate s (coreOf sid) (s.vfOf sh) va .load with
  | .ok p => p.pa
  | .error _ => pa
/-- LWAIT reads its record again, by the translation of now (R306, R433). -/
def rewatch (s : State) (sid : Nat) (sh : Sheet) : SysWait :=
  match sh.sys with
  | .lwait va pa id =>
    let q := recordPlace s sid sh va pa
    if 2 ≤ recStatus s q then .found (recStatus s q) id else .lwait va q id
  | x => x

/-- A sheet of an image back at a context (R211, R295): an acquire at device scope, times counted from here. A BOWAIT that was
woken meanwhile has its value (R268). -/
def restoreSheet (s : State) (e : Nat × Sheet) : State :=
  let sid := contextOf s e.1 e.2
  let c := s.cycle (coreOf sid)
  let sh := Sheet.resumeWait { e.2 with
    park := if e.2.park = .stopped then .running else e.2.park
    cycFrom := e.2.cycFrom.map (fun _ => c), waitAt := e.2.waitAt.map (fun (a, k, n) => (c - a, k, n))
    readySince := c, nextIssue := c, sys := rewatch s sid e.2 } c
  acquire (s.setSheet sid sh) sid .dev

/-- The sheets of a context are at other contexts than when they were saved: what names them follows, all at once (R308, R480). -/
def renameSheets (part : Nat) (l : List (Nat × Sheet)) (s : State) : State :=
  let to_ (k : Nat) : Option Nat := (l.find? (fun e => e.1 == k)).map (fun e => contextOf s e.1 e.2)
  let who (w : Misser) : Misser := match w with
    | .user (.sheet k) => .user (.sheet ((to_ k).getD k))
    | w => w
  { s with
    rounds := s.rounds.map (fun (r : Round) => { r with contribs := r.contribs.map (fun (k : Contrib) =>
      if l.any (fun e => e.1 == k.sid && e.2.wg == k.wg) then
        { k with sid := (to_ k.sid).getD k.sid, core := coreOf ((to_ k.sid).getD k.sid) } else k) })
    dies := s.dies.map (fun (d : Nat × Die) => (d.1, { d.2 with
      prq := d.2.prq.map (fun (r : PageReq) => if r.part = part then { r with who := r.who.map who } else r)
      waiting := d.2.waiting.map (fun w => if w.1 = part then (w.1, who w.2) else w) })) }

/-- The requests held for restored workgroups are applied at their cores, in order (R269). -/
def applyHeld (ws : List Nat) : Nat → State → State
  | 0, s => s
  | n + 1, s =>
    match s.peerReqs.findIdx? (fun q => ws.contains q.wg) with
    | none => s
    | some k =>
      match s.peerReqs[k]? with
      | none => s
      | some q => applyHeld ws n (requestAt q { s with peerReqs := s.peerReqs.take k ++ s.peerReqs.drop (k + 1) })

/-- The redirect entries of workgroups, changed or removed. -/
def mapRedirects (s : State) (f : Redirect → Option Redirect) : State :=
  { s with dies := s.dies.map (fun (d : Nat × Die) => (d.1, { d.2 with redirects := d.2.redirects.filterMap f })) }

/-- The lease, counters and TROOTs of an image (R300, R323, R363); what a skipped record would carry is at reset (R301). The lease
is resumed if power management grants it, and stays suspended otherwise (R323). -/
def restoreTail (part : Nat) (img : List ImageRec) (s : State) : State :=
  let skipped (ty : Nat) : Bool := img.any (fun r => match r with
    | .unknown t _ _ => t == ty
    | _ => false)
  let s := s.mapPart part (fun p => { p with
    lease := if skipped 0x40 then none else p.lease, counters := if skipped 0x41 then [] else p.counters })
  let s := img.foldl (fun s r => match r with
    | .lease left mhz => if left = 0 then s else s.mapPart part (fun p => { p with lease := some ⟨mhz, left, true⟩ })
    | .counters m => s.mapPart part (fun p => { p with counters := m })
    | .image _ _ _ _ _ _ l => l.foldl (fun s (vf, t) =>
        if (s.vf vf).part = some part then s.setVf vf { s.vf vf with troot := t } else s) s
    | _ => s) s
  leaseRetry part (s.mapPart part (fun p => { p with image := [], preempt := none, precopy := { p.precopy with image := [] } }))

/-- A context of graph positions: each root workgroup is dispatched anew and starts at BADDR (R292). -/
def restoreGraph (part : Nat) (img : List ImageRec) (s : State) : Option State :=
  img.foldl (fun o r => match o, r with
    | some s, .graphPos rrec args baddr kaddr a b c d =>
      (match (ownGrids s part).find? (fun e => e.2.record == rrec && e.2.lrec.args == args && e.2.lrec.kaddr == kaddr &&
          s.wgs.all (fun w => w.2.grid != e.1)) with
       | none => none
       | some (gn, g) =>
         let s := s.setGrid gn { g with nextG := 0, clBars := [], gridBars := [], restart := some (baddr, [a, b, c, d]) }
         (List.range Config.numDies).findSome? (fun die => placeOn s gn die))
    | o, _ => o) (some s)

/-- What keeps a context from its units is scrubbed away: entries are locked, idle units of others are cleaned. -/
def prepareRestore (s : State) (part : Nat) (ws : List Nat) : State :=
  let s := mapRedirects s (fun r => some (if ws.contains r.wg then { r with locked := true } else r))
  (unitsOf s part).foldl (fun s p =>
    if scrubDue s p.core p.col part && !scrubbing s p.core p.col && (onUnit s p).isEmpty && unitQuiet s p.core p.col then
      s.mapCore p.core (fun k => { k with scrub := put k.scrub p.col (s.cycle p.core + 2048) })
    else s) s

/-- The whole context of an image back on the device. -/
def restoreAll (part : Nat) (img : List ImageRec) (s : State) : Option State :=
  let ws := imageWgs img
  let s := putGrids s img
  match restoreGraph part img s with
  | none => none
  | some s =>
    match placeImage part ws ws s with
    | none => none
    | some s =>
      let ids := ws.map (·.1)
      let s := mapRedirects s (fun r => if ids.contains r.wg then none else some r)
      let shs := imageSheets img
      let s := (ownWgs s part).foldl (fun s e => clearReuse s e.2.core e.2.col) s
      let s := restoreTail part img (shs.foldl restoreSheet (renameSheets part shs s))
      some (applyHeld ids s.peerReqs.length s)

/-- CONTEXT_RESTORE: refused and reported where the image cannot be loaded; else the context comes back as a unit (R260),
once its units are clean. -/
def contextRestore (part : Nat) (s : State) : State :=
  let img := (s.part part).image
  let img := if (s.part part).precopy.image.isEmpty then img else rebased s part img
  if img.isEmpty then s
  else if !loadable s part img then
    s.mapPart part (fun p => { p with driverReports := p.driverReports ++ [0x100] })
  else
    match restoreAll part img s with
    | some s => s
    | none => prepareRestore s part ((imageWgs img).map (·.1))

/-! ## Kill (R323) -/

/-- CONTEXT_KILL: every grid of the context is killed, its image discarded, its lease and pins released (R194). -/
def contextKill (part : Nat) (s : State) : State :=
  let ids := (imageWgs (s.part part).image).map (·.1)
  let s := ((ownGrids s part).filter (fun e => e.2.parent.isNone)).foldl (fun s e => endGrid s e.1 (.none, 0)) s
  let s := mapRedirects s (fun r => if ids.contains r.wg then none else some r)
  let s := setLease s part none
  { s.mapPart part (fun p => { p with image := [], preempt := none, precopy := { p.precopy with image := [] } }) with
    pinned := s.pinned.filter (fun e => e.2 != part) }

/-! ## The steps -/

/-- CLASS_G_REQUEST (R290). -/
def execClassGRequest (part : Nat) (s : State) : Host.Outcome State Fault Refusal :=
  runEvent (.classGRequest part) (classGRequest part) s
/-- GRAPH_BOUNDARY_STOP (R292). -/
def execGraphBoundaryStop (part : Nat) (s : State) : Host.Outcome State Fault Refusal :=
  runEvent (.graphBoundaryStop part) (graphBoundaryStop part) s
/-- CLASS_G_ESCALATION (R294). -/
def execClassGEscalation (part : Nat) (s : State) : Host.Outcome State Fault Refusal :=
  runEvent (.classGEscalation part) (classGEscalation part) s
/-- CLASS_D_REQUEST (R295). -/
def execClassDRequest (part : Nat) (s : State) : Host.Outcome State Fault Refusal :=
  runEvent (.classDRequest part) (classDRequest part) s
/-- DRAIN_POINT_STOP (R295). -/
def execDrainPointStop (sid : Nat) (s : State) : Host.Outcome State Fault Refusal :=
  runEvent (.drainPointStop sid) (drainPointStop sid) s
/-- FORCED_STOP_DEADLINE (R295). -/
def execForcedStopDeadline (part : Nat) (s : State) : Host.Outcome State Fault Refusal :=
  runEvent (.forcedStopDeadline part) (forcedStopDeadline part) s
/-- CONTEXT_SAVE (R296). -/
def execContextSave (part : Nat) (reassign : Bool) (s : State) : Host.Outcome State Fault Refusal :=
  runEvent (.contextSave part reassign) (contextSave part reassign) s
/-- CONTEXT_RESTORE (R301). -/
def execContextRestore (part : Nat) (s : State) : Host.Outcome State Fault Refusal :=
  runEvent (.contextRestore part) (contextRestore part) s
/-- CONTEXT_KILL (R323). -/
def execContextKill (part : Nat) (s : State) : Host.Outcome State Fault Refusal :=
  runEvent (.contextKill part) (contextKill part) s

end Sys2Proof.Machine
end

