-- ==== Sys2Proof/Machine/Pages.lean ====
section
/-! DEFINITION. Walks and the caches of translations (11 R305, R306), page requests and their answers (R307, R308). -/

namespace Sys2Proof.Machine

/-! ## Invalidation (R306) -/

/-- The pages of 4 KiB that a leaf, or the group of leaves that it belongs to, maps (R302, R303). -/
def Leaf.span (l : Leaf) : Nat := if l.level = 4 ∧ bitAt l.entry.toNat 11 then 16 else leafSize l.level / 4096
/-- Whether a selection of R306 names a cached translation: by page, that of an entry which maps the page. -/
def tlbNamed (x : TlbSel) (key : Nat) (l : Leaf) : Bool :=
  match x with
  | .all => true
  | .ident vf => key / 2 ^ 36 == vf
  | .page vf p => key / 2 ^ 36 == vf && key % 2 ^ 36 / l.span == p % 2 ^ 36 / l.span
/-- Whether it names the address space of a sheet. -/
def vfNamed (x : TlbSel) (vf : Nat) : Bool :=
  match x with
  | .all => true
  | .ident v => v == vf
  | .page v _ => v == vf
/-- A cache without what is named. -/
def purge (x : TlbSel) (m : SMap Leaf) : SMap Leaf := m.filter (fun e => !tlbNamed x e.1 e.2)

/-- Whether a sheet or one of its commands still has an access to perform that has used a translation: in its queues, on its way
to its home, or among the writes of a copy that has consumed its operands. -/
def usesOld (s : State) (sid : Nat) (sh : Sheet) : Bool :=
  sh.queue.any (fun a => !a.isOrder && a.space == .g) || s.homeq.any (fun h => h.sid == sid) ||
  (vals (s.core (coreOf sid)).cmds).any (fun c => c.sid == sid && c.phase == .consumed && c.outs.any (fun o => match o with
    | .glob _ _ => true
    | _ => false))

/-- No cache holds a named translation; the sheets in LWAIT find their records anew (log 78). -/
def purgeAll (x : TlbSel) (s : State) : State :=
  let s := { s with
    cores := s.cores.map (fun (c : Nat × Core) => (c.1, { c.2 with tlb := purge x c.2.tlb }))
    clusters := s.clusters.map (fun (c : Nat × Cluster) => (c.1, { c.2 with tlb := purge x c.2.tlb }))
    dies := s.dies.map (fun (d : Nat × Die) => (d.1, { d.2 with tlb := purge x d.2.tlb })) }
  { s with sheets := s.sheets.map (fun e => if vfNamed x (s.vfOf e.2) then (e.1, { e.2 with sys := rewatch s e.1 e.2 }) else e) }

/-- TRANSLATION_INVALIDATION: it completes once every access that used a translation is performed, and then no cache holds one. -/
def translationInvalidation (port : Nat) (x : TlbSel) (s : State) : State :=
  if s.sheets.any (fun e => vfNamed x (s.vfOf e.2) && usesOld s e.1 e.2) then (if holds s port 9 then s else refuse s)
  else guarded port 9 s (fun s => some (purgeAll x s))

/-! ## Page requests (R308) -/

/-- Whether a requester already waits at an entry. -/
def requested (s : State) (x : Requester) : Bool := s.dies.any (fun d => d.2.prq.any (fun r => r.who.contains (.user x)))

/-- The miss of a copy that has started, if it misses. -/
def copyMiss (s : State) (core e : Nat) : Option (Cmd × Flt) :=
  match s.cmd? core e with
  | some c =>
    if c.phase = .started then
      match c.copy? with
      | some k =>
        match copyOuts s core c k with
        | .error f => if isMiss f then some (c, f) else none
        | .ok _ => none
      | none => none
    else none
  | none => none

/-- PAGE_REQUEST_ENQUEUE: under R the miss joins or takes an entry, or waits; a copy that misses under another
disposition stops (R225). -/
def pageRequestEnqueue (x : Requester) (s : State) : State :=
  if requested s x then s
  else
    match x with
    | .sheet sid =>
      (match s.sheet? sid with
       | some sh =>
         (match sh.park, sh.trap with
          | .service, some t =>
            if t.miss then
              (joinRequest s (dieOf (coreOf sid)) (s.partOf sh) (s.vfOf sh) (t.faddr.toNat / 4096) (t.info % 8) (.user x))
            else s
          | _, _ => s)
       | none => s)
    | .command core e =>
      match copyMiss s core e with
      | none => s
      | some (c, f) =>
        match s.sheet? c.sid with
        | none => s
        | some sh =>
          let s := if (s.die (dieOf core)).waiting.any (fun w => w.2 == .user x) then s
            else lookPage s (s.vfOf sh) core c.sid c.slot f.addr.toNat
          if disposition (s.part (s.partOf sh)).fdisp .translation = 1 then
            joinRequest s (dieOf core) (s.partOf sh) (s.vfOf sh) (f.addr.toNat / 4096) (f.info % 8) (.user x)
          else lateCause s core e c f

/-- The entry that a driver answers: the oldest of its partition (R308). -/
def answered (s : State) (die k : Nat) : Option PageReq :=
  let q := (s.die die).prq
  match q[k]? with
  | some r => if (q.take k).any (fun o => o.part == r.part) then none else some r
  | none => none
def dropRequest (s : State) (die k : Nat) : State :=
  let d := s.die die
  s.setDie die { d with prq := d.prq.take k ++ d.prq.drop (k + 1) }

/-- PAGE_REQUEST_MAPPED: the requesters retry, a saved one once it is restored (R297). An answer is a request of management group 9 (R354). -/
def pageRequestMapped (port die k : Nat) (s : State) : State :=
  guarded port 9 s (fun s =>
    (answered s die k).map (fun r =>
      r.who.foldl (fun s w => match w with
        | .user (.sheet sid) => serveSheet s r.part sid (fun sh => if sh.park = .service then some { sh with park := .resume } else none)
        | _ => s) (dropRequest s die k)))

/-- INFO with reason 0100 (R285). -/
def refusedInfo (info : Nat) : Nat := info % 16 + 16 * 4 + info / 256 * 256

/-- The grid of a workgroup, resident or in an image. -/
def gridOfWg (s : State) (part wg : Nat) : Option Nat :=
  match s.wg? wg with
  | some w => some w.grid
  | none => (s.part part).image.findSome? (fun r => match r with
    | .workgroup id w => if id = wg then some w.grid else none
    | _ => none)
/-- The sheet of a number that waits in service for a partition, resident or saved. -/
def servedSheet (s : State) (part sid : Nat) : Option Sheet :=
  ((savedSheet (s.part part).image sid).or (s.sheet? sid)).filter (fun sh => sh.park == .service)

/-- The fault of a sheet that waits in service completes under T with reason 0100, and is reported anew (R308, R344; log 21). -/
def refuseSheet (s : State) (part sid : Nat) : State :=
  match servedSheet s part sid with
  | some sh =>
    let t := sh.trap.map (fun (t : Trap) => { t with info := refusedInfo t.info })
    let s := serveSheet s part sid (fun sh => some { sh with trap := t })
    let s := match t with
      | some t => reportStop s sh t
      | none => s
    match gridOfWg s part sh.wg with
    | some g => endGrid s g (.translation, coreOf sid)
    | none => s
  | none => s

/-- PAGE_REQUEST_REFUSED: each requester's fault completes under T, a command stops at the address and level of its walk; a
request of the device itself is remembered until it has been taken account of (R238, R479; log 42). -/
def pageRequestRefused (port die k : Nat) (s : State) : State :=
  match if holds s port 9 then answered s die k else none with
  | some r => refusePage (carried s) die k r
  | none => refuse s
where
  /-- What the refusal of an entry leaves. -/
  refusePage (s : State) (die k : Nat) (r : PageReq) : State :=
    let s := dropRequest s die k
    r.who.foldl (fun s w => match w with
      | .user (.sheet sid) => refuseSheet s r.part sid
      | .user (.command core e) =>
        (match copyMiss s core e with
         | some (c, f) => lateCause s core e c { f with info := refusedInfo f.info }
         | none => s)
      | w => { s with refusedPages := s.refusedPages ++ [(w, r.vf, r.page)] }) s

/-- A requester that names a unit of the device. -/
def requesterOk : Requester → Bool
  | .sheet sid => sidOk sid
  | .command core e => entryOk core e

/-! ## The steps -/

/-- PAGE_WALK (R305). -/
def execPageWalk (core vf vpage : Nat) (s : State) : Host.Outcome State Fault Refusal :=
  runEvent (.pageWalk core vf vpage) (pageWalk core vf vpage) s
/-- PAGE_REQUEST_ENQUEUE (R308). -/
def execPageRequestEnqueue (x : Requester) (s : State) : Host.Outcome State Fault Refusal :=
  runAt (requesterOk x) (pageRequestEnqueue x) s
/-- PAGE_REQUEST_MAPPED (R308). -/
def execPageRequestMapped (port die k : Nat) (s : State) : Host.Outcome State Fault Refusal :=
  runAt (portOk port && dieOk die) (pageRequestMapped port die k) s
/-- PAGE_REQUEST_REFUSED (R308). -/
def execPageRequestRefused (port die k : Nat) (s : State) : Host.Outcome State Fault Refusal :=
  runAt (portOk port && dieOk die) (pageRequestRefused port die k) s
/-- TRANSLATION_INVALIDATION (R306). -/
def execTranslationInvalidation (port : Nat) (x : TlbSel) (s : State) : Host.Outcome State Fault Refusal :=
  runAt (portOk port) (translationInvalidation port x) s

end Sys2Proof.Machine
end

