-- ==== Sys2Proof/Machine/Manage.lean ====
section
/-! DEFINITION. The tables and registers that the management core writes (12 R311 to R315, 09 R236, 07 R194, 11 R280, R281,
R302, R309, 12 R319, 14 R354). A write that is refused leaves everything as it was. -/

namespace Sys2Proof.Machine

/-! ## The partition table (R311, R312, R340) -/

/-- An entry with the fields of a 256-bit write. -/
def partWritten (p : Part) (n : Nat) : Part :=
  { p with valid := bitAt n 0, memw := bits n 8 8, rate := bits n 16 13, tier := bits n 32 2, floor := bits n 36 4,
           prqcap := bits n 40 7, polid := bits n 48 16, pinq := bits n 64 32, xlen := bitAt n 96 }

/-- Whether two partitions that share a core would hold more than 4,096 tokens. -/
def rateShared (s : State) : Bool :=
  s.cores.any (fun e => e.2.split && decide (e.2.ownA < Config.numPartitions) && decide (e.2.ownB < Config.numPartitions)
    && e.2.ownA != e.2.ownB && decide (4096 < (s.part e.2.ownA).rate + (s.part e.2.ownB).rate))
/-- The sum of FLOOR times HCORES over the valid entries. -/
def floorSum (s : State) : Nat :=
  sumList ((s.parts.filter (fun e => e.2.valid)).map (fun e => e.2.floor * hcores s e.1))

/-- Whether the policy of a write is refused (R312, R340). DEDUCED (log 55): every write of the entry writes POLID; one that leaves
VALID 0 ends the binding and is not held to it. -/
def polRefused (s : State) (p q : Part) : Bool :=
  (q.polid != 0 && (lookup s.policies q.polid).isNone) ||
  (q.valid && (match p.boundKey with
    | none => false
    | some k =>
      match lookup s.policies q.polid with
      | none => true
      | some pol => pol.keyDigest != k || decide (pol.serial ≤ p.serial)))

/-- What follows a write that is taken: the binding (R340), the policy in force, whose sequence
numbers start anew (R343; log 80), the counters of a new entry (R328). -/
def partSettled (s : State) (p q : Part) : Part :=
  let pol := getD s.policies Policy.openPolicy q.polid
  let q := if q.polid = p.polid then q else { q with seqs := [], serial := pol.serial }
  let q := if q.polid ≠ 0 ∧ q.boundKey = none then { q with boundKey := some pol.keyDigest, serial := pol.serial } else q
  let q := if !q.valid then { q with boundKey := none, serial := 0 } else q
  if q.valid && !p.valid then { q with counters := [], history := [] } else q

/-- A partition's pins are released (R194). -/
def releasePins (s : State) (part : Nat) : State := { s with pinned := s.pinned.filter (fun e => e.2 != part) }

/-- PARTITION_TABLE_WRITE. -/
def partitionTableWrite (port part : Nat) (v : BitVec 256) (s : State) : State :=
  guarded port 0 s (fun s =>
    let p := s.part part
    let q := partWritten p v.toNat
    let s' := s.setPart part (partSettled s p q)
    if q.memw = 0 ∨ 4096 < q.rate ∨ 14 < q.floor ∨ q.prqcap = 0 ∨ 64 < q.prqcap ∨ rateShared s' ∨
        s.enga < floorSum s' ∨ polRefused s p q then none
    else if !q.valid && p.valid then some (releasePins s' part)
    else some s')

/-! ## Core assignment (R313, R314) -/

/-- A core's entry as written: SPLIT, OWNA, OWNB. -/
def entrySplit (v : BitVec 16) : Bool := v.getLsbD 15
def entryA (v : BitVec 16) : Nat := bits v.toNat 0 6
def entryB (v : BitVec 16) : Nat := bits v.toNat 6 6

/-- A core with the entry as its own. -/
def Core.withEntry (k : Core) (v : BitVec 16) : Core := { k with split := entrySplit v, ownA := entryA v, ownB := entryB v }
/-- A core's entry as it reads (R313). -/
def Core.entry (k : Core) : BitVec 16 := BitVec.ofNat 16 (ofBool k.split * 2 ^ 15 + k.ownB * 2 ^ 6 + k.ownA)

/-- Whether a partition would own whole cores and half-cores, by the written entry, the entries of the other cores in force and
those asked for and not yet in force. -/
def mixedUnits (s : State) (core : Nat) (v : BitVec 16) : Bool :=
  let s' := s.mapCore core (fun k => { k.withEntry v with change := none })
  let due := { s' with cores := s'.cores.map (fun e => (e.1, match e.2.change with
    | some w => e.2.withEntry w
    | none => e.2)) }
  (List.range Config.numPartitions).any (fun p =>
    let us := unitsOf s' p ++ unitsOf due p
    us.any (fun u => u.half) && us.any (fun u => !u.half))

/-- The columns that a change changes: both halves with SPLIT, else those that go to another owner. -/
def changedCols (k : Core) (v : BitVec 16) : List Nat :=
  if k.split != entrySplit v then [0, 1]
  else (if k.ownA ≠ entryA v then [0] else []) ++ (if k.ownB ≠ entryB v then [1] else [])
/-- The columns that are scrubbed with it (R314): both halves with SPLIT, else those that get an owner. -/
def scrubCols (k : Core) (v : BitVec 16) : List Nat :=
  if k.split != entrySplit v then [0, 1]
  else (changedCols k v).filter (fun x => decide ((if x = 0 then entryA v else entryB v) < Config.numPartitions))

/-- The workgroups on the changed columns. -/
def onChanged (s : State) (core : Nat) (v : BitVec 16) : List Workgroup :=
  (vals s.wgs).filter (fun w => w.core == core && (changedCols (s.core core) v).contains w.col)

/-- CORE_ASSIGNMENT_WRITE: the change is asked for, and the pre-emption of each context resident there (R314), of class G
(DEDUCED, log 77); the change takes effect by CORE_ASSIGNMENT_EFFECT. -/
def coreAssignmentWrite (port core : Nat) (v : BitVec 16) (s : State) : State :=
  guarded port 1 s (fun s =>
    let bad (p : Nat) : Bool := decide (40 ≤ p ∧ p ≤ 62)
    if bad (entryA v) || bad (entryB v) || (!entrySplit v && entryB v != 63) || mixedUnits s core v then none
    else
      let parts := ((onChanged s core v).filterMap (fun w => (s.grid? w.grid).map (fun g => g.part))).dedup
      some (parts.foldl (fun s p => classGRequest p s) (s.mapCore core (fun k => { k with change := some v }))))

/-- CORE_ASSIGNMENT_EFFECT: no workgroup is resident on the changed units, and what involves them has completed; they are scrubbed
(R196, R314), the buckets of the port start with RATE, and the owners of the core's rail vote anew (R324, R325). -/
def coreAssignmentEffect (core : Nat) (s : State) : State :=
  let k := s.core core
  match k.change with
  | none => s
  | some v =>
    if !(onChanged s core v).isEmpty || !(changedCols k v).all (unitQuiet s core) then s
    else
      let c := s.cycle core
      let k := { k.withEntry v with
        change := none
        splitFrom := if k.split = entrySplit v then k.splitFrom else c
        refillAt := c + 1024, pool := 0, netTurn := 0
        scrub := (scrubCols k v).foldl (fun m x => put m x (c + 2048)) k.scrub }
      revoteRail (s.setCore core { k with buckets := (portParts k).foldl (fun m p => setD m 0 p (s.part p).rate) [] })
        (railOf (clusterOf core))

/-! ## Virtual functions, reduction groups, pins -/

/-- VF_ASSIGNMENT_WRITE (R315): refused while a grid submitted through the function runs; 40 and above: no partition. -/
def vfAssignmentWrite (port vf part : Nat) (s : State) : State :=
  guarded port 2 s (fun s =>
    if s.grids.any (fun e => e.2.vf == vf) then none
    else some (s.setVf vf { s.vf vf with part := if part < Config.numPartitions then some part else none }))

/-- The device whose memory a physical address reaches (R356): none of host memory. -/
def deviceOf (s : State) (pa : Nat) : Option Nat :=
  if pa < Config.devMemTop then some s.deviceNo else if 2 ^ 50 ≤ pa then some ((pa - 2 ^ 50) / 2 ^ 39) else none

/-- Whether an entry and its list break R236. -/
def groupBad (s : State) (g : Group) : Bool :=
  let f := gField g
  let ddev := f 272 16
  let member (lo : Nat) : Bool := (Group.index g ddev (f lo 11) (f (lo + 11) 1)).isSome
  g.members.any (fun d => decide (2 ^ 28 ≤ d.toNat)) || g.members.dedup.length != g.members.length ||
  !member 336 || (f 242 2 == 1 && !member 320) || decide (2 ≤ f 242 2) || f 244 12 == 0 || f 256 5 == 0 ||
  decide (16 < f 256 5) || f 352 32 % 4 != 0 || f 303 17 % 16 != 0 ||
  (f 242 2 == 0 && (match translate s Config.numCores (f 288 10) (w64 (f 384 64)) .engineStore with
    | .ok p => deviceOf s p.pa != some ddev
    | .error _ => false))

/-- An entry as written: its RES0 fields keep 0 (R7, R236). -/
def groupWritten (v : BitVec 512) : BitVec 512 :=
  let n := v.toNat
  BitVec.ofNat 512 (bits n 240 58 * 2 ^ 240 + bits n 303 29 * 2 ^ 303 + bits n 336 12 * 2 ^ 336 + bits n 352 160 * 2 ^ 352)

/-- REDUCTION_GROUP_WRITE (R236): the member list is read and copied; VALID 0 is spared none of the checks. -/
def reductionGroupWrite (port part g : Nat) (v : BitVec 512) (s : State) : State :=
  guarded port 3 s (fun s =>
    let v := groupWritten v
    let put_ (x : Group) : State := s.mapPart part (fun p => { p with groups := put p.groups g x })
    let e : Group := ⟨v, []⟩
    if (s.vf (gField e 288 10)).part ≠ some part then none
    else
      match readVirtual s (gField e 288 10) (gField e 448 64) (8 * Group.nmem e) with
      | .error _ => none
      | .ok bs =>
        let e : Group := ⟨v, (List.range (Group.nmem e)).map (fun k => w64 (leNat ((bs.drop (8 * k)).take 8)))⟩
        if groupBad s e then none else some (put_ e))

/-- PIN_RELEASE (R194). -/
def pinRelease (part : Nat) (s : State) : State := releasePins s part

/-! ## Registers without behaviour of their own (R354) -/

/-- The management group of a register. -/
def MgmtReg.group : MgmtReg → Nat
  | .fdisp _ => 4 | .wdlim _ => 4 | .troot _ => 2 | .enga => 6 | .dirty _ => 7 | .seqTable _ => 7 | .firmware => 10
  | .deviceNo => 10 | .route _ => 10 | .reserved g => g

/-- The table of sequence numbers starts: no message has been applied to any page of the region (R362). -/
def startTable (s : State) (part : Nat) : State :=
  if (s.part part).precopy.table = 0 then s
  else engineWrite s Asker.outside (s.part part).precopy.table (List.replicate (8 * bmCount (s.part part)) 0xFF)

/-- MANAGEMENT_REGISTER_WRITE: RES0 bits read 0; ENGA above 43,008 is refused (R319), and so are a group above 10 (R354) and a table of
sequence numbers outside device memory (R362). DESIGN CHOICE (log 95): the device number and the route table are firmware's, of
group 10: a route names link 0 to 11, or 16 plus an Ethernet port; any other number is no route. -/
def managementRegisterWrite (port : Nat) (r : MgmtReg) (v : BitVec 128) (s : State) : State :=
  guarded port (MgmtReg.group r) s (fun s =>
    let n := v.toNat
    match r with
    | .fdisp p => some (s.mapPart p (fun q => { q with fdisp := w64 (bits n 2 50 * 4) }))
    | .wdlim p => some (s.mapPart p (fun q => { q with wdlim := n % 2 ^ 64 }))
    | .troot vf => some (s.setVf vf { s.vf vf with troot := n % 2 ^ 40 })
    | .enga => if n % 2 ^ 64 ≤ 43008 then some { s with enga := n % 2 ^ 64 } else none
    | .dirty p => some (s.mapPart p (fun q =>
        { q with dirty := BitVec.ofNat 128 (n % 2 + bits n 12 80 * 2 ^ 12 + bits n 96 32 * 2 ^ 96) }))
    | .seqTable p =>
      if n % 8 = 0 ∧ n + 8 * bmCount (s.part p) ≤ Config.devMemTop then
        some (startTable (s.mapPart p (fun q => { q with precopy := { q.precopy with table := n } })) p)
      else none
    | .firmware => some s
    | .deviceNo => some { s with deviceNo := n % 4096 }
    | .route dev => some { s with routes := if n < 12 ∨ (16 ≤ n ∧ n < 20) then put s.routes dev n else drop s.routes dev }
    | .reserved _ => none)

/-- What the entry of a partition reads (R311): the RES0 fields 0. A read needs no semaphore (R354). -/
def partEntry (s : State) (part : Nat) : BitVec 256 :=
  let p := s.part part
  BitVec.ofNat 256 (ofBool p.valid + p.memw * 2 ^ 8 + p.rate * 2 ^ 16 + p.tier * 2 ^ 32 + p.floor * 2 ^ 36 +
    p.prqcap * 2 ^ 40 + p.polid * 2 ^ 48 + p.pinq * 2 ^ 64 + ofBool p.xlen * 2 ^ 96 +
    hcores s part * 2 ^ 128)
/-- What a management register reads (R8). -/
def MgmtReg.read (r : MgmtReg) (s : State) : BitVec 128 :=
  match r with
  | .fdisp p => BitVec.ofNat 128 (s.part p).fdisp.toNat
  | .wdlim p => BitVec.ofNat 128 (s.part p).wdlim
  | .troot vf => BitVec.ofNat 128 (s.vf vf).troot
  | .enga => BitVec.ofNat 128 s.enga
  | .dirty p => (s.part p).dirty
  | .seqTable p => BitVec.ofNat 128 (s.part p).precopy.table
  | .firmware => BitVec.ofNat 128 Config.firmwareVersion.toNat
  | .deviceNo => BitVec.ofNat 128 s.deviceNo
  | .route dev => BitVec.ofNat 128 ((lookup s.routes dev).getD 15)
  | .reserved _ => 0

/-- What a pre-copy descriptor reads (R360): GO reads 0, since STATE has left 0 once a session has started. -/
def Precopy.descriptor (p : Precopy) : BitVec 256 :=
  p.word ||| BitVec.ofNat 256 (p.last % 2 ^ 32 * 2 ^ 32 + p.sent % 2 ^ 32 * 2 ^ 64 + p.state * 2 ^ 112)

/-! ## The steps -/

/-- PARTITION_TABLE_WRITE (R312). -/
def execPartitionTableWrite (port part : Nat) (v : BitVec 256) (s : State) : Host.Outcome State Fault Refusal :=
  runAt (portOk port && partOk part) (partitionTableWrite port part v) s
/-- CORE_ASSIGNMENT_WRITE (R313). -/
def execCoreAssignmentWrite (port core : Nat) (v : BitVec 16) (s : State) : Host.Outcome State Fault Refusal :=
  runAt (portOk port && coreOk core) (coreAssignmentWrite port core v) s
/-- CORE_ASSIGNMENT_EFFECT (R314). -/
def execCoreAssignmentEffect (core : Nat) (s : State) : Host.Outcome State Fault Refusal :=
  runAt (coreOk core) (coreAssignmentEffect core) s
/-- VF_ASSIGNMENT_WRITE (R315). -/
def execVfAssignmentWrite (port vf part : Nat) (s : State) : Host.Outcome State Fault Refusal :=
  runAt (portOk port && vfOk vf && decide (part < 64)) (vfAssignmentWrite port vf part) s
/-- REDUCTION_GROUP_WRITE (R236). -/
def execReductionGroupWrite (port part g : Nat) (v : BitVec 512) (s : State) : Host.Outcome State Fault Refusal :=
  runAt (portOk port && partOk part && groupOk g) (reductionGroupWrite port part g v) s
/-- PIN_RELEASE (R194). -/
def execPinRelease (part : Nat) (s : State) : Host.Outcome State Fault Refusal :=
  runAt (partOk part) (pinRelease part) s
/-- MANAGEMENT_REGISTER_WRITE (R354). -/
def execManagementRegisterWrite (port : Nat) (r : MgmtReg) (v : BitVec 128) (s : State) : Host.Outcome State Fault Refusal :=
  runAt (portOk port && mgmtOk r) (managementRegisterWrite port r v) s

end Sys2Proof.Machine
end

