-- ==== Sys2Proof/Machine/Observe.lean ====
section
/-! DEFINITION. Counters and their views (13 R328 to R331, R341, R342), record rings' descriptors (R336) and disclosure
policies (R338, R339). -/

namespace Sys2Proof.Machine

/-! ## Counters -/

/-- A counter's value at the end of a millisecond (R342). -/
def counterAt (p : Part) (ms n : Nat) : Nat := ((p.history.find? (fun e => decide (e.1 ≤ ms))).map (fun e => getD e.2 0 n)).getD 0
/-- A counter as the operator sees it under a policy (R342). -/
def operatorValue (s : State) (part n : Nat) : Nat :=
  let p := s.part part
  let v := getD p.counters 0 n
  let c := (policyOf s part).counters.getD n 0
  match bits c 14 2 with
  | 0 => v
  | 1 => v / 2 ^ (c % 2 ^ 14) * 2 ^ (c % 2 ^ 14)
  | 2 => counterAt p (s.ts / 1000000 / max (c % 2 ^ 14) 1 * (c % 2 ^ 14)) n
  | _ => 2 ^ 64 - 1
/-- The value that a reader gets; a virtual function reads the counters of its own partition only. -/
def readCounter (s : State) (who : Reader) (part n : Nat) : Option Nat :=
  match who with
  | .operator => some (operatorValue s part n)
  | .tenant vf => if (s.vf vf).part = some part then some (getD (s.part part).counters 0 n) else none
/-- Key of a requester's latch for a counter (R331). -/
def latchKey (who : Reader) (n : Nat) : Nat :=
  (match who with
   | .operator => 0
   | .tenant vf => 1 + vf) * 64 + n

/-- COUNTER_READ: 8 bytes. -/
def counterRead (who : Reader) (part n : Nat) (s : State) : State :=
  match readCounter s who part n with
  | some v => { s with reply := v }
  | none => s
/-- COUNTER_LOW_READ: the high half of the same value is latched. -/
def counterLowRead (who : Reader) (part n : Nat) (s : State) : State :=
  match readCounter s who part n with
  | some v =>
    { s.mapPart part (fun p => { p with latches := setD p.latches 0 (latchKey who n) (v / 2 ^ 32) }) with
      reply := v % 2 ^ 32 }
  | none => s
/-- COUNTER_HIGH_READ: the latch, no counter. -/
def counterHighRead (who : Reader) (part n : Nat) (s : State) : State :=
  match readCounter s who part n with
  | some _ => { s with reply := getD (s.part part).latches 0 (latchKey who n) }
  | none => s

/-- The counters at the end of a millisecond are kept for the longest window, 16,383 ms. -/
def captured (ms : Nat) (p : Part) : Part :=
  let old := p.history.filter (fun e => decide (e.1 < ms))
  let old := old.takeWhile (fun e => decide (ms < e.1 + 16384)) ++ (old.dropWhile (fun e => decide (ms < e.1 + 16384))).take 1
  { p with history := if (old.head?.map (·.2)).getD [] = p.counters then old else (ms, p.counters) :: old }
/-- COUNTER_WINDOW_END: windows end at multiples of T × 10^6; what the counters then hold is kept whatever T a policy names, now or
later (R342, R345). -/
def counterWindowEnd (part _n : Nat) (s : State) : State :=
  if s.ts % 1000000 = 0 then s.mapPart part (captured (s.ts / 1000000)) else s

/-- The events that a counter can count (R329). -/
def eventKnown (ev : Nat) : Bool := decide (ev ≤ 0x1C)

/-- PCSEL_WRITE: the counter starts at 0; a reserved event, or a place that no unit of the partition matches, counts
nothing and EN reads 0. -/
def pcselWrite (part n : Nat) (v : W64) (s : State) : State :=
  let v : W64 := w64 (bits v.toNat 0 28 + 2 ^ 31 * ofBool (v.getLsbD 31))
  let ok := eventKnown (bits v.toNat 0 10) && (unitsOf s part).any (fun u => pcselCovers v u.core)
  let v : W64 := if ok then v else w64 (v.toNat % 2 ^ 31)
  s.mapPart part (fun p => { p with pcsel := setD p.pcsel 0 n v, counters := setD p.counters 0 n 0 })

/-! ## Rings (R336) -/

/-- A power of two from 16 to 2^24. -/
def ringCapOk (n : Nat) : Bool := (List.range 21).any (fun k => n == 2 ^ (k + 4))

/-- RING_DESCRIPTOR_WRITE: refused where the ring does not lie wholly in device memory. A LOST that is still to be written stays. -/
def ringDescriptorWrite (port part : Nat) (r : RingKind) (d : RingDesc) (s : State) : State :=
  guarded port 8 s (fun s =>
    if Config.devMemTop < d.base + d.cap * recSize r ∨ d.base % recSize r ≠ 0 ∨ !ringCapOk d.cap then none
    else some (s.mapPart part (fun p => { p with rings := setD p.rings Ring.reset (ringKey r) ⟨d, (getD p.rings Ring.reset (ringKey r)).lost⟩ })))

/-- RING_READ_ADVANCE: the reader frees `n` records; no more than the ring holds. -/
def ringReadAdvance (part : Nat) (r : RingKind) (n : Nat) (s : State) : State :=
  let g := getD (s.part part).rings Ring.reset (ringKey r)
  if n ≤ (g.desc.wr - g.desc.rd).toNat then
    let g' := { g with desc := { g.desc with rd := g.desc.rd + BitVec.ofNat 32 n } }
    s.mapPart part (fun p => { p with rings := setD p.rings Ring.reset (ringKey r) g' })
  else s

/-! ## Policies (R338, R339) -/

def polBytes (bs : List Byte) (at_ n : Nat) : Nat := leNat ((bs.drop at_).take n)
/-- A counter's mode and parameter in range. -/
def polCounterOk (c : Nat) : Bool :=
  let v := c % 2 ^ 14
  match bits c 14 2 with
  | 1 => decide (1 ≤ v ∧ v ≤ 63)
  | 2 => decide (1 ≤ v ∧ v ≤ 16383)
  | _ => v == 0
/-- The fields of a policy record. -/
def parsePolicy (bs : List Byte) : Policy :=
  { tenant := polBytes bs 8 8, serial := polBytes bs 16 16, keyDigest := Crypto.sha512 ((bs.drop 500).take 133)
    counters := (List.range 64).map (fun n => polBytes bs (32 + 2 * n) 2)
    trace := (List.range 4).map (fun k => polBytes bs (164 + k) 1)
    tsamp := polBytes bs 169 1, fdet := polBytes bs 170 1, tsres := polBytes bs 171 1 }
/-- What the root of trust verifies (R339); by the algorithms that R338 names (log 17). -/
def policyOk (bs : List Byte) : Bool :=
  let p := parsePolicy bs
  bs.length == 768 && polBytes bs 0 2 == 0x5044 && polBytes bs 2 2 == 1 && polBytes bs 4 4 == 0 &&
  polBytes bs 160 4 == 0 && polBytes bs 168 1 == 0 && polBytes bs 172 328 == 0 && polBytes bs 633 3 == 0 &&
  p.counters.all polCounterOk && p.trace.all (fun t => decide (t ≤ 2)) && decide (1 ≤ p.tsamp ∧ p.tsamp ≤ 20) &&
  decide (p.fdet ≤ 2) && decide (p.tsres ≤ 30) && Crypto.isP521Point ((bs.drop 500).take 133) &&
  Crypto.signatureVerifies ((bs.drop 500).take 133) (bs.take 636) ((bs.drop 636).take 132)

/-- POLICY_SUBMIT: a policy that passes receives the next identifier, which is the answer times 2^16. -/
def policySubmit (port : Nat) (bytes : List Byte) (s : State) : State :=
  if holds s port 5 ∧ policyOk bytes ∧ s.nextPolicy < 65536 then
    { s with policies := put s.policies s.nextPolicy (parsePolicy bytes), nextPolicy := s.nextPolicy + 1
             reply := s.nextPolicy * 2 ^ 16 }
  else refuse s

/-! ## The steps -/

/-- COUNTER_READ (R342). -/
def execCounterRead (who : Reader) (part n : Nat) (s : State) : Host.Outcome State Fault Refusal :=
  runAt (partOk part && counterOk n) (counterRead who part n) s
/-- COUNTER_LOW_READ (R331). -/
def execCounterLowRead (who : Reader) (part n : Nat) (s : State) : Host.Outcome State Fault Refusal :=
  runAt (partOk part && counterOk n) (counterLowRead who part n) s
/-- COUNTER_HIGH_READ (R331). -/
def execCounterHighRead (who : Reader) (part n : Nat) (s : State) : Host.Outcome State Fault Refusal :=
  runAt (partOk part && counterOk n) (counterHighRead who part n) s
/-- COUNTER_WINDOW_END (R342). -/
def execCounterWindowEnd (part n : Nat) (s : State) : Host.Outcome State Fault Refusal :=
  runAt (partOk part && counterOk n) (counterWindowEnd part n) s
/-- PCSEL_WRITE (R329). -/
def execPcselWrite (part n : Nat) (v : W64) (s : State) : Host.Outcome State Fault Refusal :=
  runAt (partOk part && counterOk n && decide (16 ≤ n)) (pcselWrite part n v) s
/-- RING_DESCRIPTOR_WRITE (R336). -/
def execRingDescriptorWrite (port part : Nat) (r : RingKind) (d : RingDesc) (s : State) : Host.Outcome State Fault Refusal :=
  runAt (portOk port && partOk part) (ringDescriptorWrite port part r d) s
/-- RING_READ_ADVANCE (R336). -/
def execRingReadAdvance (part : Nat) (r : RingKind) (n : Nat) (s : State) : Host.Outcome State Fault Refusal :=
  runAt (partOk part) (ringReadAdvance part r n) s
/-- POLICY_SUBMIT (R339). -/
def execPolicySubmit (port : Nat) (bytes : List Byte) (s : State) : Host.Outcome State Fault Refusal :=
  runAt (portOk port) (policySubmit port bytes) s

end Sys2Proof.Machine
end

