-- ==== Sys2Proof/Machine/HostPort.lean ====
section
/-! DEFINITION. The host ports, the Tumbler, peer devices and links (14 R351 to R359; 08 R210; 13 R326). -/

namespace Sys2Proof.Machine

/-! ## Virtual function registers (R351, R352) -/

/-- What an aligned read of 8 bytes of a register page returns (R8, R351): LAUNCH reads 0, as does what the table does not list. -/
def pageRegister (s : State) (vf off : Nat) : Nat :=
  let f := s.vf vf
  if off = 8 then f.lerrCount * 2 ^ 32 + f.lerrCode
  else if off = 0x10 then f.leaddr.toNat
  else if off = 0x18 then f.irqst
  else if 0x100 ≤ off ∧ off < 0x300 then
    match f.part with
    | some p => (readCounter s (.tenant vf) p ((off - 0x100) / 8)).getD 0
    | none => 0
  else 0

/-- LERR_READ: COUNT is cleared by the read. The other registers of the page read without effect. -/
def lerrRead (vf : Nat) (s : State) : State :=
  { s.setVf vf { s.vf vf with lerrCount := 0 } with reply := pageRegister s vf 8 }
/-- IRQST_WRITE: a 1 clears its bit. -/
def irqstWrite (vf : Nat) (v : W64) (s : State) : State :=
  let f := s.vf vf
  s.setVf vf { f with irqst := f.irqst - (f.irqst &&& (v.toNat % 4)) }

/-! ## The Tumbler (R355) -/

/-- SEMAPHORE_READ; `tie`: both ports read it in this cycle, and the loser of the last tie wins. -/
def semaphoreRead (port g : Nat) (tie : Bool) (s : State) : State :=
  let held := getD s.sems 0 g
  let winner := if tie then s.tieLoser else port
  let s := if held = 0 then
      { s with sems := setD s.sems 0 g (winner + 1), tieLoser := if tie then 1 - winner else s.tieLoser }
    else s
  let now := getD s.sems 0 g
  { s with reply := now + 2 ^ 7 * ofBool (now == port + 1) }
/-- SEMAPHORE_RELEASE: by the holder only. -/
def semaphoreRelease (port g : Nat) (s : State) : State :=
  if holds s port g then { s with sems := drop s.sems g } else s
/-- PORT_LINK_DOWN: the port's semaphores are released. -/
def portLinkDown (port : Nat) (s : State) : State := { s with sems := s.sems.filter (fun e => e.2 != port + 1) }
/-- LINK_TRAINING (R357). -/
def linkTraining (port : Nat) (v : BitVec 5) (s : State) : State := { s with hpcap := setD s.hpcap 0 port v }

/-! ## Host accesses (R210, R358) -/

/-- A read of `n` bytes of device memory at its home L2, for an outside reader. -/
def homeRead (s : State) (pa n : Nat) : State := { l2Use s Asker.outside false pa n with reply := s.readNat pa n }

/-- HOST_POSTED_WRITE to device memory, performed at its home. -/
def hostPostedWrite (_port pa : Nat) (bytes : List Byte) (s : State) : State :=
  if pa + bytes.length ≤ Config.devMemTop then engineWrite s Asker.outside pa bytes else s
/-- A ring descriptor as a read answers it. DESIGN CHOICE (log 96): the spec gives its fields no places. -/
def ringWord (d : RingDesc) : Nat :=
  d.base + d.cap * 2 ^ 40 + ofBool d.en * 2 ^ 80 + d.wr.toNat * 2 ^ 96 + d.rd.toNat * 2 ^ 128
/-- What attestation reports of a partition (R340): the digest of the key bound to it, above the SERIAL in force (log 96). -/
def attested (p : Part) : Nat := p.boundKey.getD 0 * 2 ^ 128 + p.serial
/-- What a register or table entry reads (R311, R313, R315, R340, R351, R354, R360; log 96). -/
def targetWord (s : State) : HostTarget → Nat
  | .memory _ => 0
  | .page vf off => pageRegister s vf off
  | .register r => (MgmtReg.read r s).toNat
  | .partition part => (partEntry s part).toNat
  | .core core => (Core.entry (s.core core)).toNat
  | .function vf => (s.vf vf).part.getD 63
  | .group part g => ((lookup (s.part part).groups g).map (·.word.toNat)).getD 0
  | .ring part r => ringWord (getD (s.part part).rings Ring.reset (ringKey r)).desc
  | .session part => (Precopy.descriptor (s.part part).precopy).toNat
  | .attestation part => attested (s.part part)
/-- HOST_READ of `n` bytes: of device memory at its home, or the low bytes of a register, which needs no semaphore (R354). -/
def hostRead (_port : Nat) (x : HostTarget) (n : Nat) (s : State) : State :=
  match x with
  | .memory pa => if pa + n ≤ Config.devMemTop then homeRead s pa n else s
  | .page vf 8 => { lerrRead vf s with reply := targetWord s x % 256 ^ n }
  | _ => { s with reply := targetWord s x % 256 ^ n }
/-- Base of the window of host memory through a port (R356), which is as long as its base. -/
def portWindow (port : Nat) : Nat := 2 ^ 48 * (port + 1)
/-- HOST_STORE_TO_COHERENT_MAPPING: host memory changes; its lines leave the home, and with them every L1 that registered a word. -/
def hostStoreToCoherentMapping (port pa : Nat) (bytes : List Byte) (s : State) : State :=
  if portWindow port ≤ pa ∧ pa + bytes.length ≤ 2 * portWindow port then
    homeWrite ((((sectorsOf pa bytes.length).map (· / 4)).dedup).foldl evictLine s) pa bytes
  else s

/-! ## Peer devices and links (R356, R359) -/

/-- An atomic at the home L2: the value it finds, and the memory after it. -/
def homeAtomic (s : State) (z pa : Nat) (f : Nat → Option Nat) : Nat × State :=
  let old := s.readNat pa z
  match f old with
  | some n => (old, engineWrite s Asker.outside pa (leBytes z n))
  | none => (old, l2Use s Asker.outside false pa z)
/-- The same for a peer device (R358), at an aligned place of this device's memory; the value found is the answer. -/
def peerAtomic (s : State) (z pa : Nat) (f : Nat → Option Nat) : State :=
  if pa + z ≤ Config.devMemTop ∧ pa % z = 0 then
    let (old, s) := homeAtomic s z pa f
    { s with reply := old }
  else s

/-- A contribution from a member on another device joins its round (R237). -/
def peerContribution (s : State) (part group roff rank : Nat) (bytes : List Byte) : State :=
  match s.group part group with
  | none => s
  | some g =>
    let rows := (List.range (Group.rows g * 128)).map (fun k => BitVec.ofNat 32 (leNat ((bytes.drop (4 * k)).take 4)))
    let c : Contrib := ⟨rank, 0, 0, Config.numCores, 0, rows⟩
    if !Group.valid g || decide (Group.nmem g ≤ rank) then s
    else
      match getRound s part group roff with
      | none => { s with rounds := s.rounds ++ [⟨part, group, roff, [c], 0⟩] }
      | some r =>
        if r.contribs.any (fun k => k.m == rank) then s
        else setRound s part group roff (fun r => { r with contribs := r.contribs ++ [c] })

/-- PEER_DEVICE_REQUEST: performed at the home L2. -/
def peerDeviceRequest (r : PeerDevReq) (s : State) : State :=
  match r with
  | .load pa n => if pa + n ≤ Config.devMemTop then homeRead s pa n else s
  | .store pa bs => if pa + bs.length ≤ Config.devMemTop then engineWrite s Asker.outside pa bs else s
  | .atomic op dbl pa v cmp =>
    let z := if dbl then 8 else 4
    peerAtomic s z pa (fun old => RmwOp.apply op z old v.toNat cmp.toNat)
  | .acas2 pa v cmp => peerAtomic s 16 pa (fun old => if old = cmp.toNat then some v.toNat else none)
  | .copyWrite pa bs => if pa + bs.length ≤ Config.devMemTop then engineWrite s Asker.outside pa bs else s
  | .contribution part group roff rank bs => peerContribution s part group roff rank bs

/-- What keeps a command from going on when no route remains (R359): the read of a copy that has started, or a write on its way. -/
def cutOff (s : State) (core : Nat) (c : Cmd) : Option Flt :=
  match c.phase, c.copy? with
  | .started, some k =>
    (match copyOuts s core c k with
     | .error f => if f.cause = .engineError then some f else none
     | .ok _ => none)
  | .consumed, _ => if c.outs.any (fun w => match w with
      | .glob pa _ => noRoute s pa
      | _ => false) then some Cause.engineError.flt else none
  | _, _ => none
/-- The first access of a sheet that no route reaches. -/
def stranded (s : State) (sh : Sheet) : Option Access :=
  sh.queue.find? (fun a => a.space == .g && a.pieces.any (fun p => noRoute s p.1))
def Access.accKind (a : Access) : AccKindT :=
  match a.kind with
  | .load => .load
  | .store => .store
  | _ => .atomic
/-- Firmware's routes once a link has failed: those over it lead over `via`, or are gone. -/
def rerouted (s : State) (link : Nat) (via : Option Nat) : State :=
  { s with linksDown := if s.linksDown.contains link then s.linksDown else s.linksDown ++ [link]
           routes := s.routes.filterMap (fun e => if e.2 = link then via.map (fun v => (e.1, v)) else some e) }
/-- LINK_FAILURE: what was in flight is replayed over the new routes and nothing is lost. Where no route remains, a waiting access
takes TRANSLATION with reason 0100 under T, and a command stops with ENGINE_ERROR. -/
def linkFailure (link : Nat) (via : Option Nat) (s : State) : State :=
  let s := rerouted s link via
  let s := s.cores.foldl (fun s k => k.2.cmds.foldl (fun s e =>
    match cutOff s k.1 e.2 with
    | some f => lateCause s k.1 e.1 e.2 f
    | none => s) s) s
  s.sheets.foldl (fun s e =>
    match s.sheet? e.1, stranded s e.2 with
    | some sh, some a =>
      let t := { Trap.blank sh.lastPc s.ts with
        cause := .translation, info := trInfo a.accKind 4 1, late := true, faddr := a.va }
      terminate (reportStop (s.sheetEvent e.1 sh a.slot 15 1) sh t) e.1 sh t
    | _, _ => s) s

/-! ## Device reset (R326) -/

/-- DEVICE_RESET: every register at its reset value, time from 0; memory keeps its bytes. -/
def deviceReset (s : State) : State :=
  { State.reset with mem := s.mem, poisoned := s.poisoned, freeCtr := s.freeCtr, agenda := s.agenda }

/-! ## The steps -/

/-- LERR_READ (R352). -/
def execLerrRead (vf : Nat) (s : State) : Host.Outcome State Fault Refusal := runAt (vfOk vf) (lerrRead vf) s
/-- IRQST_WRITE (R351). -/
def execIrqstWrite (vf : Nat) (v : W64) (s : State) : Host.Outcome State Fault Refusal :=
  runAt (vfOk vf) (irqstWrite vf v) s
/-- SEMAPHORE_READ (R355). -/
def execSemaphoreRead (port g : Nat) (tie : Bool) (s : State) : Host.Outcome State Fault Refusal :=
  runAt (portOk port && decide (g < 16)) (semaphoreRead port g tie) s
/-- SEMAPHORE_RELEASE (R355). -/
def execSemaphoreRelease (port g : Nat) (s : State) : Host.Outcome State Fault Refusal :=
  runAt (portOk port && decide (g < 16)) (semaphoreRelease port g) s
/-- PORT_LINK_DOWN (R355). -/
def execPortLinkDown (port : Nat) (s : State) : Host.Outcome State Fault Refusal :=
  runAt (portOk port) (portLinkDown port) s
/-- LINK_TRAINING (R357). -/
def execLinkTraining (port : Nat) (v : BitVec 5) (s : State) : Host.Outcome State Fault Refusal :=
  runAt (portOk port) (linkTraining port v) s
/-- HOST_POSTED_WRITE (R210). -/
def execHostPostedWrite (port pa : Nat) (bytes : List Byte) (s : State) : Host.Outcome State Fault Refusal :=
  runAt (portOk port) (hostPostedWrite port pa bytes) s
/-- HOST_READ (R210). -/
def execHostRead (port : Nat) (x : HostTarget) (n : Nat) (s : State) : Host.Outcome State Fault Refusal :=
  runAt (portOk port && targetOk x) (hostRead port x n) s
/-- HOST_STORE_TO_COHERENT_MAPPING (R358). -/
def execHostStoreToCoherentMapping (port pa : Nat) (bytes : List Byte) (s : State) : Host.Outcome State Fault Refusal :=
  runAt (portOk port) (hostStoreToCoherentMapping port pa bytes) s
/-- PEER_DEVICE_REQUEST (R356). -/
def execPeerDeviceRequest (r : PeerDevReq) (s : State) : Host.Outcome State Fault Refusal :=
  runAt true (peerDeviceRequest r) s
/-- LINK_FAILURE (R359). -/
def execLinkFailure (link : Nat) (via : Option Nat) (s : State) : Host.Outcome State Fault Refusal :=
  runAt (decide (link < 12) && via.all (fun v => decide (v < 24))) (linkFailure link via) s
/-- DEVICE_RESET (R326). -/
def execDeviceReset (s : State) : Host.Outcome State Fault Refusal := runAt true deviceReset s

end Sys2Proof.Machine
end

