-- ==== Sys2Proof/Machine/Migrate.lean ====
section
/-! DEFINITION. Pre-copy sessions (14 R360 to R364): the descriptor, rounds over the dirty bitmap (R309, R310), the messages of pages and of
the context image, and what the receiver makes of them. -/

namespace Sys2Proof.Machine

def preField (w : BitVec 256) (lo n : Nat) : Nat := bits w.toNat lo n

/-- The RW fields of a descriptor as written (R7, R8, R360): the others keep 0 in it. -/
def preWritten (v : BitVec 256) : BitVec 256 :=
  let n := v.toNat
  BitVec.ofNat 256 (bits n 96 6 * 2 ^ 96 + bits n 120 36 * 2 ^ 120 + bits n 160 96 * 2 ^ 160)

/-- A session of a descriptor, of which nothing has been sent or received: its key is agreed on (R360); the table's memory stays. -/
def newSession (p : Precopy) (v : BitVec 256) : Precopy :=
  { Precopy.reset with word := preWritten v, key := Config.sessionKey (preField v 160 32), table := p.table }
/-- A descriptor that is written without GO. DESIGN CHOICE (log 18): another SID begins a session, in which the destination receives
(R362); the same SID sets the fields alone. -/
def rewritten (p : Precopy) (v : BitVec 256) : Precopy :=
  if preField p.word 160 32 = preField v 160 32 then { p with word := preWritten v } else newSession p v
/-- Whether the engine works at a partition's session. -/
def Precopy.runs (p : Precopy) : Bool := p.state == 1 || p.state == 2
/-- PRECOPY_GO (R360): the descriptor is written; GO starts the session. DESIGN CHOICE (log 93): a write with GO = 1 whose SID, PORTS
or MAXR is 0, or whose partition's dirty-tracking descriptor has EN = 0, is refused whole; while a session runs its RW fields take
what is written (R8), and GO starts nothing. -/
def precopyGo (port : Nat) (v : BitVec 256) (s : State) : State :=
  guarded port 7 s (fun s =>
    let part := preField v 96 6
    let p := s.part part
    if 40 ≤ part then none
    else if p.precopy.runs then some (s.mapPart part (fun q => { q with precopy := { q.precopy with word := preWritten v } }))
    else if preField v 0 1 = 0 then
      let s := s.mapPart part (fun q => { q with precopy := rewritten q.precopy v })
      some (if preField p.precopy.word 160 32 = preField v 160 32 then s else startTable s part)
    else if preField v 160 32 = 0 ∨ preField v 152 4 = 0 ∨ preField v 120 8 = 0 ∨ p.dirty.getLsbD 0 = false then none
    else some (s.mapPart part (fun q => { q with precopy := { newSession q.precopy v with state := 1 } })))

/-! ## Rounds (R361) -/

/-- Base of a partition's bitmap (R309). -/
def bmBase (p : Part) : Nat := bits p.dirty.toNat 12 40 * 4096
/-- The tracked pages whose bit is set, in address order. -/
def dirtyPages (s : State) (p : Part) : List Nat :=
  (tracked p).filter (fun n => bitAt (s.readByte (bmBase p + n / 8)).toNat (n % 8))
/-- The whole bitmap cleared. -/
def clearBitmap (s : State) (p : Part) : State :=
  s.writeBytes (bmBase p) ((List.range (ceilDiv (bmCount p) 64 * 8)).map (fun _ => 0))

/-! ## Messages (R362) -/

/-- PAGE of an image message. -/
def imagePage : Nat := 2 ^ 64 - 1
def msgSid (m : PageMsg) : Nat := bits m.header.toNat 0 32
def msgPage (m : PageMsg) : Nat := bits m.header.toNat 64 64
def msgSeq (m : PageMsg) : Nat := bits m.header.toNat 128 64
/-- The nonce of a message: SID in its high 32 bits, the sequence number below. -/
def nonceOf (sid seq : Nat) : BitVec 96 := BitVec.ofNat 96 (sid * 2 ^ 64 + seq % 2 ^ 64)
/-- A message: its header, the bytes under AES-256-GCM, the tag, for which the header is associated data. -/
def sealMsg (key : BitVec 256) (sid page seq : Nat) (data : List Byte) : PageMsg :=
  let h : BitVec 192 := BitVec.ofNat 192 (sid + page * 2 ^ 64 + seq * 2 ^ 128)
  let c := Crypto.gcmCrypt key (nonceOf sid seq) data
  ⟨h, c, Crypto.gcmTag key (nonceOf sid seq) (leBytes 24 h.toNat) c⟩
/-- The bytes of a message, where its tag verifies. -/
def openMsg (key : BitVec 256) (m : PageMsg) : Option (List Byte) :=
  let n := nonceOf (msgSid m) (msgSeq m)
  if Crypto.gcmTag key n (leBytes 24 m.header.toNat) m.cipher = m.tag then some (Crypto.gcmCrypt key n m.cipher) else none

/-- Messages that leave in order of their sequence numbers. DESIGN CHOICE (log 18): they take the ports of PORTS in turn. -/
def Precopy.send (c : Precopy) (ms : List (Nat × List Byte)) : Precopy :=
  let ports := (List.range 4).filter (fun k => bitAt (preField c.word 152 4) k)
  { c with
    seq := c.seq + ms.length
    outbox := c.outbox ++ ms.zipIdx.map (fun (m, k) =>
      ⟨ports.getD ((c.seq + k) % max ports.length 1) 0, BitVec.ofNat 64 (preField c.word 192 64),
       sealMsg c.key (preField c.word 160 32) m.1 (c.seq + k) m.2⟩) }

/-- One round: the pages of `all`, or those whose bit is set, cleared and sent as their homes hold them. -/
def sendRound (s : State) (part : Nat) (all : Bool) : State :=
  let p := s.part part
  let ns := if all then tracked p else dirtyPages s p
  let s := ns.foldl (fun s n => l2Use s Asker.outside false ((bmFirst p + n) * 4096) 4096) (clearBitmap s p)
  let ms := ns.map (fun n => (bmFirst p + n, s.readBytes ((bmFirst p + n) * 4096) 4096))
  s.mapPart part (fun q => { q with precopy :=
    { p.precopy.send ms with sent := ns.length, last := ns.length, round := p.precopy.round + 1 } })

/-- PRECOPY_ROUND (R361): after it, the final part begins where few pages were sent or MAXR is reached. -/
def precopyRound (part : Nat) (s : State) : State :=
  let c := (s.part part).precopy
  if c.state ≠ 1 then s
  else
    let s := sendRound s part (c.round == 0)
    if (s.part part).precopy.last ≤ preField c.word 128 24 ∨ preField c.word 120 8 ≤ c.round then
      classGRequest part (s.mapPart part (fun p => { p with precopy := { p.precopy with state := 2 } }))
    else s

/-- The records as they leave the device: a lease has remaining time 0 (R323). -/
def migrated (img : List ImageRec) : List ImageRec :=
  img.map (fun r => match r with
    | .lease _ mhz => .lease 0 mhz
    | r => r)
/-- 4,096-byte pieces, the last padded with zeros. -/
def pieces4k (bs : List Byte) : List (List Byte) :=
  (List.range (ceilDiv bs.length 4096)).map (fun k =>
    let b := (bs.drop (4096 * k)).take 4096
    b ++ (List.range (4096 - b.length)).map (fun _ => 0))
/-- The image of a context in messages; with them the session is done. -/
def sendImage (p : Part) : Precopy :=
  { p.precopy.send ((pieces4k (imageLayout (migrated p.image))).map (fun b => (imagePage, b))) with state := 3 }

/-- PRECOPY_FINAL (R361): the context has stopped; a round, and after one that sends nothing the image: what the host writes between
two rounds prolongs them. -/
def precopyFinal (part : Nat) (s : State) : State :=
  let p := s.part part
  if p.precopy.state ≠ 2 ∨ p.image.isEmpty then s
  else
    let s := sendRound s part false
    if (s.part part).precopy.sent = 0 then s.mapPart part (fun p => { p with precopy := sendImage p }) else s

/-! ## The receiver (R362) -/

/-- Whether a message belongs to the session of a partition that has not failed. -/
def ofSession (p : Part) (m : PageMsg) : Bool :=
  msgSid m == preField p.precopy.word 160 32 && p.precopy.state != 4 && msgSid m != 0
/-- A message whose tag fails aborts the session. DESIGN CHOICE (log 18): it goes back to the other end, where it fails too. -/
def abortSession (s : State) (part : Nat) (m : PageMsg) : State :=
  s.mapPart part (fun p => { p with precopy := { p.precopy with
    state := 4, outbox := p.precopy.outbox ++ [⟨0, BitVec.ofNat 64 (preField p.precopy.word 192 64), m⟩] } })
/-- A message of a partition's session: its bytes, where the partition is the receiver, do what `f` says. -/
def receive (part : Nat) (m : PageMsg) (s : State) (f : List Byte → State) : State :=
  let p := s.part part
  if !ofSession p m then s
  else
    match openMsg p.precopy.key m with
    | none => abortSession s part m
    | some bs => if p.precopy.state = 0 ∧ bs.length = 4096 then f bs else s

/-- Whether a page is of a partition's region. -/
def ownPage (p : Part) (page : Nat) : Bool := decide (bmFirst p ≤ page ∧ page < bmFirst p + bmCount p)
/-- PAGE_MESSAGE_RECEIVE (R362): a page of the region is written only by a message newer than the last applied to it. -/
def pageMessageReceive (part : Nat) (m : PageMsg) (s : State) : State :=
  receive part m s (fun bs =>
    let p := s.part part
    if msgPage m = imagePage then s
    else if !ownPage p (msgPage m) ∨ p.precopy.table = 0 then
      s.mapPart part (fun p => { p with precopy := { p.precopy with foreign := true } })
    else
      let old := s.readNat (seqAt p (msgPage m)) 8
      if old = seqNone ∨ old < msgSeq m then
        engineWrite (engineWrite s Asker.outside (msgPage m * 4096) bs) Asker.outside (seqAt p (msgPage m)) (leBytes 8 (msgSeq m))
      else s)

/-- The image that messages carry, once all of them have come. -/
def wholeImage (msgs : SMap (List Byte)) : Option (List ImageRec) :=
  let ks : List Nat := keys msgs
  let bs := msgs.flatMap (fun e => e.2)
  let recs := imageParse 0 bs.length bs
  let first : Bool := match recs.head? with
    | some (.image _ _ _ _ _ _ _) => true
    | _ => false
  if ks = (List.range ks.length).map (fun k => ks.headD 0 + k) ∧ first = true ∧ recs.getLast? = some .end_ then some recs else none
/-- IMAGE_MESSAGE_RECEIVE (R362): the next bytes of the image; a whole image is the context that a restore applies. -/
def imageMessageReceive (part : Nat) (m : PageMsg) (s : State) : State :=
  receive part m s (fun bs =>
    if msgPage m ≠ imagePage then s
    else
      s.mapPart part (fun p =>
        let msgs := put p.precopy.image (msgSeq m) bs
        { p with precopy := { p.precopy with image := msgs }
                 image := if p.image.isEmpty then (wholeImage msgs).getD [] else p.image }))

/-! ## The steps -/

/-- PRECOPY_GO (R360). -/
def execPrecopyGo (port : Nat) (v : BitVec 256) (s : State) : Host.Outcome State Fault Refusal :=
  runAt (portOk port) (precopyGo port v) s
/-- PRECOPY_ROUND (R361). -/
def execPrecopyRound (part : Nat) (s : State) : Host.Outcome State Fault Refusal :=
  runAt (partOk part) (precopyRound part) s
/-- PRECOPY_FINAL (R361). -/
def execPrecopyFinal (part : Nat) (s : State) : Host.Outcome State Fault Refusal :=
  runAt (partOk part) (precopyFinal part) s
/-- PAGE_MESSAGE_RECEIVE (R362). -/
def execPageMessageReceive (part : Nat) (m : PageMsg) (s : State) : Host.Outcome State Fault Refusal :=
  runAt (partOk part) (pageMessageReceive part m) s
/-- IMAGE_MESSAGE_RECEIVE (R362). -/
def execImageMessageReceive (part : Nat) (m : PageMsg) (s : State) : Host.Outcome State Fault Refusal :=
  runAt (partOk part) (imageMessageReceive part m) s

end Sys2Proof.Machine
end

