-- ==== Sys2Proof/Machine/Dispatch.lean ====
section
/-! DEFINITION. One step of the machine for each instruction: every arm is one call of its meaning. -/

namespace Sys2Proof.Machine

def exec (i : Instr) (s : State) : Host.Outcome State Fault Refusal :=
  match i with
  | .add u h m => Sys2Proof.Machine.execAdd u h m s
  | .sub u h m => Sys2Proof.Machine.execSub u h m s
  | .rsub u h m => Sys2Proof.Machine.execRsub u h m s
  | .and u h m => Sys2Proof.Machine.execAnd u h m s
  | .or u h m => Sys2Proof.Machine.execOr u h m s
  | .xor u h m => Sys2Proof.Machine.execXor u h m s
  | .andn u h m => Sys2Proof.Machine.execAndn u h m s
  | .shl u h m => Sys2Proof.Machine.execShl u h m s
  | .shr u h m => Sys2Proof.Machine.execShr u h m s
  | .sar u h m => Sys2Proof.Machine.execSar u h m s
  | .rol u h m => Sys2Proof.Machine.execRol u h m s
  | .min u h m => Sys2Proof.Machine.execMin u h m s
  | .max u h m => Sys2Proof.Machine.execMax u h m s
  | .minu u h m => Sys2Proof.Machine.execMinu u h m s
  | .maxu u h m => Sys2Proof.Machine.execMaxu u h m s
  | .abs u h m32 => Sys2Proof.Machine.execAbs u h m32 s
  | .sel u h m => Sys2Proof.Machine.execSel u h m s
  | .ceq u h m => Sys2Proof.Machine.execCeq u h m s
  | .cne u h m => Sys2Proof.Machine.execCne u h m s
  | .clt u h m => Sys2Proof.Machine.execClt u h m s
  | .cle u h m => Sys2Proof.Machine.execCle u h m s
  | .cltu u h m => Sys2Proof.Machine.execCltu u h m s
  | .cleu u h m => Sys2Proof.Machine.execCleu u h m s
  | .popc u h m32 => Sys2Proof.Machine.execPopc u h m32 s
  | .clz u h m32 => Sys2Proof.Machine.execClz u h m32 s
  | .ctz u h m32 => Sys2Proof.Machine.execCtz u h m32 s
  | .brev u h m32 => Sys2Proof.Machine.execBrev u h m32 s
  | .bfx u h m => Sys2Proof.Machine.execBfx u h m s
  | .bfi u h m => Sys2Proof.Machine.execBfi u h m s
  | .perm u h x1 => Sys2Proof.Machine.execPerm u h x1 s
  | .lea u h m => Sys2Proof.Machine.execLea u h m s
  | .sext u h m => Sys2Proof.Machine.execSext u h m s
  | .zext u h m => Sys2Proof.Machine.execZext u h m s
  | .pand u h x1 => Sys2Proof.Machine.execPand u h x1 s
  | .por u h x1 => Sys2Proof.Machine.execPor u h x1 s
  | .pnot u h => Sys2Proof.Machine.execPnot u h s
  | .psure u h => Sys2Proof.Machine.execPsure u h s
  | .poss u h => Sys2Proof.Machine.execPoss u h s
  | .pass u h => Sys2Proof.Machine.execPass u h s
  | .mul h m => Sys2Proof.Machine.execMul h m s
  | .mulh h m => Sys2Proof.Machine.execMulh h m s
  | .mulhu h m => Sys2Proof.Machine.execMulhu h m s
  | .mad h m32 => Sys2Proof.Machine.execMad h m32 s
  | .mulw h m => Sys2Proof.Machine.execMulw h m s
  | .mulwu h m => Sys2Proof.Machine.execMulwu h m s
  | .div h m => Sys2Proof.Machine.execDiv h m s
  | .divu h m => Sys2Proof.Machine.execDivu h m s
  | .rem h m => Sys2Proof.Machine.execRem h m s
  | .remu h m => Sys2Proof.Machine.execRemu h m s
  | .fadd u h m => Sys2Proof.Machine.execFadd u h m s
  | .fsub u h m => Sys2Proof.Machine.execFsub u h m s
  | .fmul u h m => Sys2Proof.Machine.execFmul u h m s
  | .ffma u h m => Sys2Proof.Machine.execFfma u h m s
  | .fmin u h ty => Sys2Proof.Machine.execFmin u h ty s
  | .fmax u h ty => Sys2Proof.Machine.execFmax u h ty s
  | .fcmp u h m => Sys2Proof.Machine.execFcmp u h m s
  | .fclass u h ty => Sys2Proof.Machine.execFclass u h ty s
  | .fcvt u h m => Sys2Proof.Machine.execFcvt u h m s
  | .fcvti u h m => Sys2Proof.Machine.execFcvti u h m s
  | .icvtf u h m => Sys2Proof.Machine.execIcvtf u h m s
  | .frnd u h m => Sys2Proof.Machine.execFrnd u h m s
  | .fsgn u h m => Sys2Proof.Machine.execFsgn u h m s
  | .ivadd u h => Sys2Proof.Machine.execIvadd u h s
  | .ivsub u h => Sys2Proof.Machine.execIvsub u h s
  | .ivmul u h => Sys2Proof.Machine.execIvmul u h s
  | .ivfma u h => Sys2Proof.Machine.execIvfma u h s
  | .ivsqr u h => Sys2Proof.Machine.execIvsqr u h s
  | .ivhull u h => Sys2Proof.Machine.execIvhull u h s
  | .ivmeet u h => Sys2Proof.Machine.execIvmeet u h s
  | .ivmid u h => Sys2Proof.Machine.execIvmid u h s
  | .ivwid u h => Sys2Proof.Machine.execIvwid u h s
  | .ivcmp u h r => Sys2Proof.Machine.execIvcmp u h r s
  | .ivmake u h => Sys2Proof.Machine.execIvmake u h s
  | .ivlo u h => Sys2Proof.Machine.execIvlo u h s
  | .ivhi u h => Sys2Proof.Machine.execIvhi u h s
  | .ivbis u h => Sys2Proof.Machine.execIvbis u h s
  | .ivabs u h => Sys2Proof.Machine.execIvabs u h s
  | .ivin u h => Sys2Proof.Machine.execIvin u h s
  | .rcp h ty => Sys2Proof.Machine.execRcp h ty s
  | .rsq h ty => Sys2Proof.Machine.execRsq h ty s
  | .sqrt h ty => Sys2Proof.Machine.execSqrt h ty s
  | .exp2 h ty => Sys2Proof.Machine.execExp2 h ty s
  | .log2 h ty => Sys2Proof.Machine.execLog2 h ty s
  | .sin h ty => Sys2Proof.Machine.execSin h ty s
  | .cos h ty => Sys2Proof.Machine.execCos h ty s
  | .tanh h ty => Sys2Proof.Machine.execTanh h ty s
  | .ivrcp h => Sys2Proof.Machine.execIvrcp h s
  | .ivsqrt h => Sys2Proof.Machine.execIvsqrt h s
  | .ivexp2 h => Sys2Proof.Machine.execIvexp2 h s
  | .ivlog2 h => Sys2Proof.Machine.execIvlog2 h s
  | .cvtn h m => Sys2Proof.Machine.execCvtn h m s
  | .cvtw h f => Sys2Proof.Machine.execCvtw h f s
  | .shfi h => Sys2Proof.Machine.execShfi h s
  | .shup h wrap => Sys2Proof.Machine.execShup h wrap s
  | .shdn h wrap => Sys2Proof.Machine.execShdn h wrap s
  | .shxr h => Sys2Proof.Machine.execShxr h s
  | .vote h k => Sys2Proof.Machine.execVote h k s
  | .ballot h => Sys2Proof.Machine.execBallot h s
  | .rdsum h m32 => Sys2Proof.Machine.execRdsum h m32 s
  | .rdmax h m => Sys2Proof.Machine.execRdmax h m s
  | .rdfsum h m => Sys2Proof.Machine.execRdfsum h m s
  | .ld u h m => Sys2Proof.Machine.execLd u h m s
  | .lds u h m => Sys2Proof.Machine.execLds u h m s
  | .ldp u h m => Sys2Proof.Machine.execLdp u h m s
  | .st u h m => Sys2Proof.Machine.execSt u h m s
  | .stp u h m => Sys2Proof.Machine.execStp u h m s
  | .ldx u h m => Sys2Proof.Machine.execLdx u h m s
  | .lda u h m => Sys2Proof.Machine.execLda u h m s
  | .stl u h m => Sys2Proof.Machine.execStl u h m s
  | .ldiv u h m => Sys2Proof.Machine.execLdiv u h m s
  | .stiv u h m => Sys2Proof.Machine.execStiv u h m s
  | .aadd u h m => Sys2Proof.Machine.execAadd u h m s
  | .amin u h m => Sys2Proof.Machine.execAmin u h m s
  | .amax u h m => Sys2Proof.Machine.execAmax u h m s
  | .aminu u h m => Sys2Proof.Machine.execAminu u h m s
  | .amaxu u h m => Sys2Proof.Machine.execAmaxu u h m s
  | .aand u h m => Sys2Proof.Machine.execAand u h m s
  | .aor u h m => Sys2Proof.Machine.execAor u h m s
  | .axor u h m => Sys2Proof.Machine.execAxor u h m s
  | .axchg u h m => Sys2Proof.Machine.execAxchg u h m s
  | .acas u h m => Sys2Proof.Machine.execAcas u h m s
  | .acas2 u h m => Sys2Proof.Machine.execAcas2 u h m s
  | .afadd u h m => Sys2Proof.Machine.execAfadd u h m s
  | .qsync u h => Sys2Proof.Machine.execQsync u h s
  | .pref u h pin => Sys2Proof.Machine.execPref u h pin s
  | .br h => Sys2Proof.Machine.execBr h s
  | .bri h => Sys2Proof.Machine.execBri h s
  | .call h => Sys2Proof.Machine.execCall h s
  | .ret h => Sys2Proof.Machine.execRet h s
  | .brp h r => Sys2Proof.Machine.execBrp h r s
  | .brp3 h => Sys2Proof.Machine.execBrp3 h s
  | .brany h r => Sys2Proof.Machine.execBrany h r s
  | .brall h r => Sys2Proof.Machine.execBrall h r s
  | .loop h => Sys2Proof.Machine.execLoop h s
  | .lbrk h => Sys2Proof.Machine.execLbrk h s
  | .exit h => Sys2Proof.Machine.execExit h s
  | .yield h => Sys2Proof.Machine.execYield h s
  | .mma h m => Sys2Proof.Machine.execMma h m s
  | .mmab h m => Sys2Proof.Machine.execMmab h m s
  | .mmai h m => Sys2Proof.Machine.execMmai h m s
  | .mxzero h m => Sys2Proof.Machine.execMxzero h m s
  | .mxdrain h c => Sys2Proof.Machine.execMxdrain h c s
  | .mxred h c => Sys2Proof.Machine.execMxred h c s
  | .mxld h m => Sys2Proof.Machine.execMxld h m s
  | .mxst h c => Sys2Proof.Machine.execMxst h c s
  | .mxrel h c => Sys2Proof.Machine.execMxrel h c s
  | .cpack h d => Sys2Proof.Machine.execCpack h d s
  | .cpackv h d => Sys2Proof.Machine.execCpackv h d s
  | .cmul h d => Sys2Proof.Machine.execCmul h d s
  | .cmac h d => Sys2Proof.Machine.execCmac h d s
  | .csqr h d => Sys2Proof.Machine.execCsqr h d s
  | .cadd h d => Sys2Proof.Machine.execCadd h d s
  | .csub h d => Sys2Proof.Machine.execCsub h d s
  | .cshl h d => Sys2Proof.Machine.execCshl h d s
  | .cext h => Sys2Proof.Machine.execCext h s
  | .cextv h => Sys2Proof.Machine.execCextv h s
  | .cgw h => Sys2Proof.Machine.execCgw h s
  | .cclr h d => Sys2Proof.Machine.execCclr h d s
  | .cbig h d => Sys2Proof.Machine.execCbig h d s
  | .dcopy h m => Sys2Proof.Machine.execDcopy h m s
  | .dfill h m => Sys2Proof.Machine.execDfill h m s
  | .dgath h m => Sys2Proof.Machine.execDgath h m s
  | .dscat h m => Sys2Proof.Machine.execDscat h m s
  | .dstat h ch1 => Sys2Proof.Machine.execDstat h ch1 s
  | .bar h l => Sys2Proof.Machine.execBar h l s
  | .bara h l => Sys2Proof.Machine.execBara h l s
  | .barw h l => Sys2Proof.Machine.execBarw h l s
  | .boinit h => Sys2Proof.Machine.execBoinit h s
  | .boarr h peer => Sys2Proof.Machine.execBoarr h peer s
  | .boexp h => Sys2Proof.Machine.execBoexp h s
  | .bowait h => Sys2Proof.Machine.execBowait h s
  | .botest h peer => Sys2Proof.Machine.execBotest h peer s
  | .boinv h => Sys2Proof.Machine.execBoinv h s
  | .fence h m => Sys2Proof.Machine.execFence h m s
  | .acq h sc => Sys2Proof.Machine.execAcq h sc s
  | .rel h sc => Sys2Proof.Machine.execRel h sc s
  | .trap h => Sys2Proof.Machine.execTrap h s
  | .brk h => Sys2Proof.Machine.execBrk h s
  | .csrrd h => Sys2Proof.Machine.execCsrrd h s
  | .csrwr h => Sys2Proof.Machine.execCsrwr h s
  | .launch h => Sys2Proof.Machine.execLaunch h s
  | .lwait h => Sys2Proof.Machine.execLwait h s
  | .ivspawn h => Sys2Proof.Machine.execIvspawn h s
  | .svc h => Sys2Proof.Machine.execSvc h s
  | .tstamp h => Sys2Proof.Machine.execTstamp h s
  | .yields h => Sys2Proof.Machine.execYields h s
  | .bundleIssue b => Sys2Proof.Machine.execBundleIssue b s
  | .markerBundle m => Sys2Proof.Machine.execMarkerBundle m s
  | .resultLanding sid u t => Sys2Proof.Machine.execResultLanding sid u t s
  | .loadPerformed sid k => Sys2Proof.Machine.execLoadPerformed sid k s
  | .divideComplete sid t => Sys2Proof.Machine.execDivideComplete sid t s
  | .storePerformedAtL1 sid k => Sys2Proof.Machine.execStorePerformedAtL1 sid k s
  | .storePerformedAtHome k => Sys2Proof.Machine.execStorePerformedAtHome k s
  | .homeInvalidation core word => Sys2Proof.Machine.execHomeInvalidation core word s
  | .l2LineEviction line => Sys2Proof.Machine.execL2LineEviction line s
  | .xpcfgWrite sid => Sys2Proof.Machine.execXpcfgWrite sid s
  | .bankFormatWrite sid => Sys2Proof.Machine.execBankFormatWrite sid s
  | .commandIssue core e => Sys2Proof.Machine.execCommandIssue core e s
  | .reservationGrant cl => Sys2Proof.Machine.execReservationGrant cl s
  | .operandsConsumed core e => Sys2Proof.Machine.execOperandsConsumed core e s
  | .commandCompletion core e => Sys2Proof.Machine.execCommandCompletion core e s
  | .statusLanding sid u => Sys2Proof.Machine.execStatusLanding sid u s
  | .byteArrival k => Sys2Proof.Machine.execByteArrival k s
  | .bowaitTimeout sid => Sys2Proof.Machine.execBowaitTimeout sid s
  | .roundClose part g roff => Sys2Proof.Machine.execRoundClose part g roff s
  | .groupArrival k => Sys2Proof.Machine.execGroupArrival k s
  | .roundFailure part g roff => Sys2Proof.Machine.execRoundFailure part g roff s
  | .lateCauseStop sid => Sys2Proof.Machine.execLateCauseStop sid s
  | .commandCancel core e => Sys2Proof.Machine.execCommandCancel core e s
  | .commandResume core e => Sys2Proof.Machine.execCommandResume core e s
  | .faultHandling sid => Sys2Proof.Machine.execFaultHandling sid s
  | .emulation sid => Sys2Proof.Machine.execEmulation sid s
  | .resumedBundle sid => Sys2Proof.Machine.execResumedBundle sid s
  | .debuggerResume sid => Sys2Proof.Machine.execDebuggerResume sid s
  | .debuggerSkip sid => Sys2Proof.Machine.execDebuggerSkip sid s
  | .debuggerTerminate sid => Sys2Proof.Machine.execDebuggerTerminate sid s
  | .watchdog sid => Sys2Proof.Machine.execWatchdog sid s
  | .softErrorCorrected x => Sys2Proof.Machine.execSoftErrorCorrected x s
  | .uncorrectable x => Sys2Proof.Machine.execUncorrectable x s
  | .sampleRecord part n sid slot => Sys2Proof.Machine.execSampleRecord part n sid slot s
  | .svcAnswer sid v => Sys2Proof.Machine.execSvcAnswer sid v s
  | .launchSubmission vf size v => Sys2Proof.Machine.execLaunchSubmission vf size v s
  | .launchAcceptance k => Sys2Proof.Machine.execLaunchAcceptance k s
  | .spawnedLaunch k => Sys2Proof.Machine.execSpawnedLaunch k s
  | .dispatchBatch part => Sys2Proof.Machine.execDispatchBatch part s
  | .workgroupStart w => Sys2Proof.Machine.execWorkgroupStart w s
  | .sheetExit sid => Sys2Proof.Machine.execSheetExit sid s
  | .gridRetire g => Sys2Proof.Machine.execGridRetire g s
  | .gridTermination g => Sys2Proof.Machine.execGridTermination g s
  | .functionLevelReset vf => Sys2Proof.Machine.execFunctionLevelReset vf s
  | .scrubStart core col => Sys2Proof.Machine.execScrubStart core col s
  | .scrubComplete core col => Sys2Proof.Machine.execScrubComplete core col s
  | .classGRequest part => Sys2Proof.Machine.execClassGRequest part s
  | .graphBoundaryStop part => Sys2Proof.Machine.execGraphBoundaryStop part s
  | .classGEscalation part => Sys2Proof.Machine.execClassGEscalation part s
  | .classDRequest part => Sys2Proof.Machine.execClassDRequest part s
  | .drainPointStop sid => Sys2Proof.Machine.execDrainPointStop sid s
  | .forcedStopDeadline part => Sys2Proof.Machine.execForcedStopDeadline part s
  | .contextSave part reassign => Sys2Proof.Machine.execContextSave part reassign s
  | .contextRestore part => Sys2Proof.Machine.execContextRestore part s
  | .redirectedRequest k => Sys2Proof.Machine.execRedirectedRequest k s
  | .discardedRequest k => Sys2Proof.Machine.execDiscardedRequest k s
  | .contextKill part => Sys2Proof.Machine.execContextKill part s
  | .pageWalk core vf vpage => Sys2Proof.Machine.execPageWalk core vf vpage s
  | .pageRequestEnqueue x => Sys2Proof.Machine.execPageRequestEnqueue x s
  | .pageRequestMapped port die k => Sys2Proof.Machine.execPageRequestMapped port die k s
  | .pageRequestRefused port die k => Sys2Proof.Machine.execPageRequestRefused port die k s
  | .translationInvalidation port x => Sys2Proof.Machine.execTranslationInvalidation port x s
  | .partitionTableWrite port part v => Sys2Proof.Machine.execPartitionTableWrite port part v s
  | .coreAssignmentWrite port core v => Sys2Proof.Machine.execCoreAssignmentWrite port core v s
  | .coreAssignmentEffect core => Sys2Proof.Machine.execCoreAssignmentEffect core s
  | .vfAssignmentWrite port vf part => Sys2Proof.Machine.execVfAssignmentWrite port vf part s
  | .reductionGroupWrite port part g v => Sys2Proof.Machine.execReductionGroupWrite port part g v s
  | .pinRelease part => Sys2Proof.Machine.execPinRelease part s
  | .managementRegisterWrite port r v => Sys2Proof.Machine.execManagementRegisterWrite port r v s
  | .memoryRequestArrival ch cls n sector => Sys2Proof.Machine.execMemoryRequestArrival ch cls n sector s
  | .memoryRequestServe ch => Sys2Proof.Machine.execMemoryRequestServe ch s
  | .networkSectorGrant core => Sys2Proof.Machine.execNetworkSectorGrant core s
  | .refillPeriodEnd core => Sys2Proof.Machine.execRefillPeriodEnd core s
  | .budgetPeriod => Sys2Proof.Machine.execBudgetPeriod s
  | .powerLimitMeasures exceeded => Sys2Proof.Machine.execPowerLimitMeasures exceeded s
  | .pairBalance pair lower upper => Sys2Proof.Machine.execPairBalance pair lower upper s
  | .boostLeaseRequest port part mhz dur => Sys2Proof.Machine.execBoostLeaseRequest port part mhz dur s
  | .leaseExpiry part => Sys2Proof.Machine.execLeaseExpiry part s
  | .leaseRetry part => Sys2Proof.Machine.execLeaseRetry part s
  | .voltageVote rail part mv => Sys2Proof.Machine.execVoltageVote rail part mv s
  | .clockStepConfirm core => Sys2Proof.Machine.execClockStepConfirm core s
  | .railFall rail => Sys2Proof.Machine.execRailFall rail s
  | .counterRead who part n => Sys2Proof.Machine.execCounterRead who part n s
  | .counterLowRead who part n => Sys2Proof.Machine.execCounterLowRead who part n s
  | .counterHighRead who part n => Sys2Proof.Machine.execCounterHighRead who part n s
  | .pcselWrite part n v => Sys2Proof.Machine.execPcselWrite part n v s
  | .ringDescriptorWrite port part r d => Sys2Proof.Machine.execRingDescriptorWrite port part r d s
  | .ringReadAdvance part r n => Sys2Proof.Machine.execRingReadAdvance part r n s
  | .policySubmit port bytes => Sys2Proof.Machine.execPolicySubmit port bytes s
  | .lerrRead vf => Sys2Proof.Machine.execLerrRead vf s
  | .irqstWrite vf v => Sys2Proof.Machine.execIrqstWrite vf v s
  | .semaphoreRead port g tie => Sys2Proof.Machine.execSemaphoreRead port g tie s
  | .semaphoreRelease port g => Sys2Proof.Machine.execSemaphoreRelease port g s
  | .portLinkDown port => Sys2Proof.Machine.execPortLinkDown port s
  | .linkTraining port v => Sys2Proof.Machine.execLinkTraining port v s
  | .hostPostedWrite port pa bytes => Sys2Proof.Machine.execHostPostedWrite port pa bytes s
  | .hostRead port x n => Sys2Proof.Machine.execHostRead port x n s
  | .linkFailure link via => Sys2Proof.Machine.execLinkFailure link via s
  | .precopyGo port v => Sys2Proof.Machine.execPrecopyGo port v s
  | .precopyRound part => Sys2Proof.Machine.execPrecopyRound part s
  | .precopyFinal part => Sys2Proof.Machine.execPrecopyFinal part s
  | .pageMessageReceive part m => Sys2Proof.Machine.execPageMessageReceive part m s
  | .imageMessageReceive part m => Sys2Proof.Machine.execImageMessageReceive part m s
  | .deviceReset => Sys2Proof.Machine.execDeviceReset s
  | .peerDeviceRequest r => Sys2Proof.Machine.execPeerDeviceRequest r s
  | .hostStoreToCoherentMapping port pa bytes => Sys2Proof.Machine.execHostStoreToCoherentMapping port pa bytes s
  | .railSettled rail => Sys2Proof.Machine.execRailSettled rail s
  | .counterWindowEnd part n => Sys2Proof.Machine.execCounterWindowEnd part n s

end Sys2Proof.Machine
end

