-- ==== Sys2Proof/Machine/Schedule.lean ====
section
/-! DEFINITION. What may happen next (log 3, log 4, log 9): the bundles that the issue stages choose (10 R275, R276), the
events whose time has come, the events whose time the spec leaves open, and the passing of a nanosecond. -/

namespace Sys2Proof.Machine

/-- Something that may happen in a state. -/
abbrev Action := State → Host.Outcome State Fault Refusal

/-- Whether a step of the device changes anything. -/
def changes (f : State → State) (s : State) : Bool := decide (f s ≠ s)

/-! ## Issue stages (R275, R276) -/

/-- The state were every issue stage of a sheet's core free. -/
def stageFreed (s : State) (sid : Nat) : State := s.mapCore (coreOf sid) (fun k => { k with busy := [] })
/-- A sheet's bundle issues now, were its stage free; none where it must wait. -/
def tryIssue (s : State) (sid : Nat) (i : Instr) : Option State :=
  let s := stageFreed s sid
  match i with
  | .bundleIssue b => issueBundle s sid b i (sheetMeanings s sid)
  | .markerBundle m => issueMarker s sid m
  | _ => none

/-- What a sheet would do at its issue stage: issue its next bundle, stop at one that cannot be fetched, go on with the bundle
of its stop. -/
inductive Next where
  | issue (i : Instr)
  | stop (f : Flt)
  | resumed (t : Trap)

/-- Whether a stop is of a bundle some of whose moves issue anew. -/
def Trap.reissues (t : Trap) : Bool := !t.late && !t.whole

/-- What a ready sheet would do (R275): a sheet that may issue and whose bundle has been fetched, or a stopped one whose bundle is
resumed. -/
def readyBundle (s : State) (e : Nat × Sheet) : Option Next :=
  if e.2.mayIssue (s.cycle (coreOf e.1)) then
    if !(missingLines s e.1 e.2).isEmpty then none
    else
    match nextInstr s e.1 e.2 with
    | .error f => some (.stop f)
    | .ok i =>
      if heldAtBoundary s e.1 e.2 i || (classDPending s e.2 && Instr.dp i) || (tryIssue s e.1 i).isNone then none
      else some (.issue i)
  else
    match e.2.trap with
    | some t => if t.reissues && (issueResumed (stageFreed s e.1) e.1).isSome then some (.resumed t) else none
    | none => none

/-- Idle count of an engine at an issue stage (R276). -/
def idleCount (s : State) (core col e : Nat) : Nat :=
  let k := s.core core
  min (2 ^ 32 - 1) (s.cycle core - (lookup k.lastTarget (col * 4 + e)).getD (getD k.lastTarget 0 (100 + col)))

/-- Rank of a sheet's bundle, plus 1 (R276), by its moves that execute. -/
def bundleRank (s : State) (e : Nat × Sheet) (n : Next) : Nat :=
  let core := coreOf e.1
  let ms : List SavedMove := match n with
    | .issue (.bundleIssue b) => readMoves s e.1 e.2 b (s.cycle core)
    | .resumed t => t.blocks
    | _ => []
  maxList 0 ((targets ms).map (fun x => idleCount s core (s.colOf e.1) x + 1))

/-- A sheet that is ready at its stage. -/
structure Ready where
  sid : Nat
  since : Nat
  rank : Nat
  next : Next

/-- Whether `a` goes before `b`, which stands in a lower context (R276). -/
def Ready.before (starving : Bool) (a b : Ready) : Bool :=
  if starving then decide (a.since < b.since)
  else decide (b.rank < a.rank) || (a.rank == b.rank && decide (a.since < b.since))

/-- The choice among ready sheets, in context order. -/
def chooseReady (c : Nat) (l : List Ready) : Option Ready :=
  let old := l.filter (fun r => decide (r.since + 32 ≤ c))
  let pick (starving : Bool) (l : List Ready) : Option Ready := l.foldl (fun b r => match b with
    | none => some r
    | some x => if Ready.before starving r x then some r else some x) none
  if old.isEmpty then pick false l else pick true old

/-- The issue stages with resident sheets: core and column. -/
def stages (s : State) : List (Nat × Nat) := (s.sheets.map (fun e => (coreOf e.1, s.colOf e.1))).dedup

/-- The sheet that a free stage takes: one whose next bundle, or next pass of a bundle (R71, R72), is ready. -/
def stagePick (s : State) (st : Nat × Nat) : Option (Nat × Next) :=
  if s.cycle st.1 < getD (s.core st.1).busy 0 st.2 then none
  else
    let here := s.sheets.filter (fun e => coreOf e.1 == st.1 && s.colOf e.1 == st.2)
    (chooseReady (s.cycle st.1) (here.filterMap (fun e =>
      (readyBundle s e).map (fun n => ⟨e.1, e.2.readySince, bundleRank s e n, n⟩)))).map (fun r => (r.sid, r.next))

/-- What the free issue stages take. -/
def picks (s : State) : List (Nat × Next) := (stages s).filterMap (stagePick s)

/-- A sheet stops where its bundle cannot be had (R104, R283): its pages were looked up (R305), a poisoned sector raises UNCORRECTABLE
once (R282). -/
def stopFetch (s : State) (sid : Nat) (sh : Sheet) (f : Flt) : State :=
  let t := bundleTrap sh s.ts f (stopBlocks s sid sh)
  let s := lookRun s (s.vfOf sh) (coreOf sid) sid 7 sh.pc.toNat 32
  (if f.cause = .uncorrectable then clearPoison s (coreOf sid) (s.vfOf sh) f.addr else s).takeCause sid t

/-- A sheet that a stage has taken: its bundle issues, the bundle of its stop is resumed, or the sheet stops where the bundle
cannot be had (R104, R283). -/
def issuePick (p : Nat × Next) (s : State) : Host.Outcome State Fault Refusal :=
  match p.2 with
  | .issue i => exec i { s with focus := p.1 }
  | .resumed _ => execResumedBundle p.1 s
  | .stop f =>
    match s.sheet? p.1 with
    | some sh => .next (stopFetch s p.1 sh f)
    | none => .next s

/-! ## Events at their time -/

/-- A condition with what it allows. -/
def when_ (b : Bool) (a : Action) : List Action := if b then [a] else []

/-- Whether a sheet's bundle waits for no step any more (R481). -/
def heldOver (sh : Sheet) : Bool := match sh.held with
  | some h => h.todo.isEmpty
  | none => false

/-- An access of a sheet that has waited for nothing but its performance, once the time in which a device performs it is over
(R57; log 3). -/
def flowDue (s : State) (e : Nat × Sheet) : List Action :=
  match e.2.flow with
  | some (id, since) =>
    if since + Config.performBound ≤ s.ts then
      (e.2.queue.zipIdx.filter (fun a => a.1.id == id && (performAt s e.1 a.2).isSome)).map (fun a =>
        if a.1.isLoad then execLoadPerformed e.1 a.2 else execStorePerformedAtL1 e.1 a.2)
    else []
  | none => []

/-- Steps of a sheet that happen as soon as they can: an ordering operation completes (log 11), a bundle whose steps are made
commits (R481), accesses and a fetch ask for their sectors and a fetch ends (R275, R317), the bundles of a skipped body pass (R83),
a graph boundary holds the sheet (R291), class D stops it (R295), LWAIT has found its STATUS (R433), a deadline is reached (R57,
R264, R281). -/
def sheetDue (s : State) (e : Nat × Sheet) : List Action :=
  let c := s.cycle (coreOf e.1)
  when_ (nextOrder s e.1).isSome (fun s => .next (settle 64 s e.1)) ++
  when_ (heldOver e.2) (fun s => .next (finishHeld e.1 (sheetMeanings s e.1) s)) ++
  when_ (changes (fun s => askSheet s e.1 e.2) s) (fun s => .next (askSheet s e.1 e.2)) ++
  when_ (wantsFetch s e.1 e.2) (fun s => .next (fetchAsk s e.1 e.2)) ++
  when_ (e.2.fetch.any (fun f => f.2 == 0)) (fun s => .next (fetchDone s e.1 e.2)) ++ flowDue s e ++
  when_ (classDPending s e.2 && e.2.park == .running && changes (drainPointStop e.1) s) (execDrainPointStop e.1) ++
  when_ (e.2.park == .running && e.2.skip != 0 && changes (fun s => skipBody 16 s e.1) s) (fun s => .next (skipBody 16 s e.1)) ++
  when_ (e.2.mayIssue c && (s.part (s.partOf e.2)).preempt.isSome && (match nextInstr s e.1 e.2 with
    | .ok i => heldAtBoundary s e.1 e.2 i
    | .error _ => false)) (fun s => .next (s.mapSheet e.1 (fun sh => { sh with park := .boundary }))) ++
  (match e.2.sys with
   | .found v id => [fun s => .next (lwaitFound s e.1 v id)]
   | _ => []) ++
  when_ (match e.2.wait with
    | .object off _ _ => timeoutDue s e.1 e.2 off && changes (bowaitTimeout e.1) s
    | _ => false) (execBowaitTimeout e.1) ++
  (let lim := (s.part (s.partOf e.2)).wdlim
   when_ ((e.2.park == .running || e.2.park == .resume) && lim != 0 && decide (lim ≤ e.2.watch)) (execWatchdog e.1))

/-- Steps of a core whose cycle has come: a scrub ends (R196), a refill period ends (R318), its network port moves the sectors of
the cycle (R317). -/
def coreDue (s : State) (e : Nat × Core) : List Action :=
  e.2.scrub.flatMap (fun x => when_ (decide (x.2 ≤ s.cycle e.1)) (execScrubComplete e.1 x.1)) ++
  when_ (!(portParts e.2).isEmpty && decide (e.2.refillAt ≤ s.cycle e.1)) (execRefillPeriodEnd e.1) ++
  when_ (portReady s e.1) (execNetworkSectorGrant e.1)

/-- Steps of a partition whose time has come: escalation and forced stop (R294, R295), the end of a lease (R323). -/
def partDue (s : State) (e : Nat × Part) : List Action :=
  when_ (escalates s e.1) (execClassGEscalation e.1) ++
  when_ (forceDue s e.1 && changes (forcedStopDeadline e.1) s) (execForcedStopDeadline e.1) ++
  when_ (match e.2.lease with
    | some l => l.left == 0 && !l.suspended
    | none => false) (execLeaseExpiry e.1)

/-- Whether a rail's fall is due (R325). -/
def railDue (s : State) (x : Rail) : Bool :=
  match x.fallTo, x.fallAt with
  | some _, some t => decide (t ≤ s.ts)
  | _, _ => false

/-- The clusters that a rail's fall steps down now, 20 MHz each 0.25 µs (R325). -/
def stepsDue (s : State) (e : Nat × Rail) : List Action :=
  match e.2.fallTo with
  | none => []
  | some mv => (railClusters e.1).flatMap (fun cl => when_ (stepDue s cl mv)
      (execClockStepConfirm (((clusterCores cl).find? (fun c => !(s.core c).confirmed)).getD 0)))

/-- The oldest store on its way, once the time in which a device brings every store home is over (R57, R205; log 3). -/
def homeDue (s : State) : Bool := match s.homeq with
  | h :: _ => decide (h.sent + Config.homeBound ≤ s.ts)
  | [] => false

/-- Arrivals that have reached their objects, in their order (R265), and requests at allocations that are saved or gone. -/
def arrivalSteps (s : State) : List Action :=
  (List.range s.arrivals.length).flatMap (fun k => when_ (changes (byteArrival k) s) (execByteArrival k)) ++
  (List.range s.roundArrivals.length).flatMap (fun k => when_ (changes (groupArrival k) s) (execGroupArrival k))

/-- What is due: time does not go on before it. -/
def dueSteps (s : State) : List Action :=
  s.sheets.flatMap (sheetDue s) ++ s.cores.flatMap (coreDue s) ++ s.parts.flatMap (partDue s) ++
  s.rails.flatMap (fun e => when_ (railDue s e.2) (execRailFall e.1) ++ stepsDue s e) ++
  when_ (homeDue s) (execStorePerformedAtHome 0) ++ arrivalSteps s ++
  s.clusters.flatMap (fun e => when_ (grantable s e.1) (execReservationGrant e.1)) ++
  when_ (decide (s.budgetNext ≤ s.ts)) execBudgetPeriod

/-! ## Events whose time is open -/

/-- Steps of a sheet's results (R70, R401), queues (R199), waiting register writes (R180, R188) and SVC (R463). -/
def flowSteps (s : State) (e : Nat × Sheet) : List Action :=
  let sid := e.1
  let sh := e.2
  (sh.flights.filter (fun f => oldestFlight sh f.unit f.thread == some f && !f.stalling &&
    !(f.unit == .sys && decide (s.cycle (coreOf sid) < f.due)))).map (fun f => execResultLanding sid f.unit f.thread) ++
  (((sh.flights.filter (fun f => f.unit == .imu && f.stalling && !f.ready && decide (f.due ≤ s.cycle (coreOf sid)))).map
    (·.thread)).dedup).map (fun t => execDivideComplete sid t) ++
  (sh.queue.zipIdx.filter (fun a => (a.1.isLoad || a.1.kind == .store) && (performAt s sid a.2).isSome)).map (fun a =>
    if a.1.isLoad then execLoadPerformed sid a.2 else execStorePerformedAtL1 sid a.2) ++
  (match sh.sys with
   | .csr w =>
     if w.num = 0x004 then [execXpcfgWrite sid]
     else (match csrBank w.num, s.wg? sh.wg with
       | some (a, b), some g => when_ (!bankHeld s sh.wg g a b) (execBankFormatWrite sid)
       | _, _ => [])
   | .svc k _ _ => when_ (sh.park == .running && decide (k < 0x8000)) (execSvcAnswer sid 0)
   | _ => [])

/-- Steps of a sheet that stops or ends (R47, R225, R279, R288, R308); a stop of a whole bundle, or one after commit, is left
outside the choice of the stage, for no move issues anew (R287). -/
def stopSteps (s : State) (e : Nat × Sheet) : List Action :=
  let sid := e.1
  let sh := e.2
  when_ (sh.park == .running && !sh.lates.isEmpty) (execLateCauseStop sid) ++
  when_ (sh.park == .raised) (execFaultHandling sid) ++
  (match sh.park, sh.trap with
   | .service, some t =>
     when_ ((t.cause == .opAbsent || t.cause == .opRetired)) (execEmulation sid) ++
     when_ (t.miss && !requested s (.sheet sid) && changes (pageRequestEnqueue (.sheet sid)) s)
       (execPageRequestEnqueue (.sheet sid))
   | _, _ => []) ++
  when_ (sh.trap.any (fun t => !t.reissues) && (issueResumed s sid).isSome) (execResumedBundle sid) ++
  when_ (mayExit s sid sh) (execSheetExit sid)

/-- Steps of a command (R221 to R224, R308). -/
def cmdSteps (s : State) (core : Nat) (e : Nat × Cmd) : List Action :=
  let c := e.2
  let miss := (copyMiss s core e.1).isSome
  when_ (canIssue s core e.1) (execCommandIssue core e.1) ++
  when_ (c.phase == .started && changes (operandsConsumed core e.1) s) (execOperandsConsumed core e.1) ++
  when_ (miss && !requested s (.command core e.1) && changes (pageRequestEnqueue (.command core e.1)) s)
    (execPageRequestEnqueue (.command core e.1)) ++
  when_ (c.phase == .consumed && changes (commandCompletion core e.1) s) (execCommandCompletion core e.1) ++
  when_ (c.phase == .completed && decide (c.ended < s.cycle core) && (oldestOf s c.sid c.unit).map (·.1) == some e.1) (execStatusLanding c.sid c.unit)

/-- Steps of a core: its commands, its assignment (R314), a confirmation (R325), the start of a scrub (R196). -/
def coreSteps (s : State) (e : Nat × Core) : List Action :=
  let core := e.1
  let k := e.2
  k.cmds.flatMap (cmdSteps s core) ++
  when_ (k.change.isSome && changes (coreAssignmentEffect core) s) (execCoreAssignmentEffect core) ++
  when_ (!k.confirmed && changes (clockStepConfirm core) s) (execClockStepConfirm core) ++
  (if s.wgs.any (fun w => w.2.core == core && !w.2.started) then
    [0, 1].flatMap (fun col => when_ (!scrubbing s core col && changes (scrubStart core col) s) (execScrubStart core col))
   else [])

/-- Steps of launches, dispatch and the ends of grids (R41, R45, R47, R48, R51, R273). -/
def gridSteps (s : State) : List Action :=
  (List.range s.launches.length).flatMap (fun k => when_ (changes (launchAcceptance k) s) (execLaunchAcceptance k)) ++
  (List.range s.spawns.length).flatMap (fun k => when_ (changes (spawnedLaunch k) s) (execSpawnedLaunch k)) ++
  ((s.lqueue.filterMap (fun g => (s.grid? g).map (·.part))).dedup).flatMap (fun p =>
    when_ (changes (dispatchBatch p) s) (execDispatchBatch p)) ++
  s.wgs.flatMap (fun e => when_ (!e.2.started && changes (workgroupStart e.1) s) (execWorkgroupStart e.1)) ++
  s.grids.flatMap (fun e =>
    when_ (e.2.ending.isNone && e.2.done == e.2.lrec.total && !childOf s e.1 && !launchPending s e.1) (execGridRetire e.1) ++
    when_ (e.2.ending.isSome && !childOf s e.1) (execGridTermination e.1))

/-- Steps of reduction rounds and of requests to workgroups that are not resident (R238, R268, R270). -/
def roundSteps (s : State) : List Action :=
  s.rounds.flatMap (fun r => when_ (changes (roundClose r.part r.group r.roff) s) (execRoundClose r.part r.group r.roff) ++
    when_ (changes (roundFailure r.part r.group r.roff) s) (execRoundFailure r.part r.group r.roff)) ++
  (List.range s.peerReqs.length).flatMap (fun k =>
    when_ (changes (redirectedRequest k) s) (execRedirectedRequest k) ++
    when_ (changes (discardedRequest k) s) (execDiscardedRequest k))

/-- Steps of memory: stores reach their homes (R205), lines leave an L2 (R193), controllers serve (R316). -/
def memorySteps (s : State) : List Action :=
  (List.range s.homeq.length).flatMap (fun k => when_ (changes (storePerformedAtHome k) s) (execStorePerformedAtHome k)) ++
  (((keys s.l2).filter (fun l => (lookup s.pinned l).isNone)).map (fun l => execL2LineEviction l)) ++
  s.channels.flatMap (fun e => when_ (!e.2.waiting.isEmpty) (execMemoryRequestServe e.1))

/-- Services that are under way for the sheets of a saved image (R297). -/
def savedSteps (s : State) (e : Nat × Part) : List Action :=
  (imageSheets e.2.image).flatMap (fun x =>
    when_ (changes (emulation x.1) s) (execEmulation x.1) ++
    (match x.2.sys with
     | .svc k _ _ => when_ (decide (k < 0x8000) && changes (svcAnswer x.1 0) s) (execSvcAnswer x.1 0)
     | _ => []))

/-- Steps of a partition: a stop at graph boundaries (R292), services of its image (R297), a pre-copy session (R361). -/
def partSteps (s : State) (e : Nat × Part) : List Action :=
  savedSteps s e ++
  when_ (e.2.preempt.isSome && changes (graphBoundaryStop e.1) s) (execGraphBoundaryStop e.1) ++
  when_ (e.2.precopy.state == 1) (execPrecopyRound e.1) ++
  when_ (e.2.precopy.state == 2 && !e.2.image.isEmpty) (execPrecopyFinal e.1)

/-- What may happen now or later. -/
def openSteps (s : State) : List Action :=
  s.sheets.flatMap (fun e => flowSteps s e ++ stopSteps s e) ++ s.cores.flatMap (coreSteps s) ++
  gridSteps s ++ roundSteps s ++ memorySteps s ++ s.parts.flatMap (partSteps s) ++
  s.rails.flatMap (fun e => when_ e.2.rising.isSome (execRailSettled e.1))

/-! ## A nanosecond passes (R23, R326) -/

/-- Cycles that a core's clock gains by a nanosecond. -/
def gained (s : State) (core : Nat) : Nat := State.cycle { s with ts := s.ts + 1 } core - s.cycle core

/-- The moves of an instruction as a bundle; a marker has none. -/
def Instr.asBundle : Instr → Bundle
  | .bundleIssue b => b
  | _ => ⟨.narrow, 0, false, false, []⟩

/-- `d` cycles of a wait: those for a stalling port or an interlock count (R329), and those of R281 towards WDLIM. -/
def waitCycles (s : State) (sid d : Nat) (sh : Sheet) : Option Waiting → State
  | none => s
  | some w =>
    let s := if w.cause = 0 ∧ w.limited then s.sheetEvent sid sh 7 0x12 d
      else if w.cause = 1 then s.sheetEvent sid sh 7 0x13 d else s
    if w.limited then s.mapSheet sid (fun y => { y with watch := y.watch + d }) else s

/-- The oldest access of a sheet that may be performed, and since when (R57). -/
def flowOf (s : State) (sid : Nat) (sh : Sheet) : Option (Nat × Nat) :=
  ((sh.queue.zipIdx.find? (fun a => mayPerform s sid (sh.queue.take a.2) a.1)).map (·.1.id)).map (fun id =>
    match sh.flow with
    | some (x, t) => if x = id then (x, t) else (id, s.ts)
    | none => (id, s.ts))

/-- A cycle of a sheet that does not issue: a ready one waits for its stage (R329); of another the wait is noted (R281, R337), and it
is ready no earlier than the next cycle (R275). -/
def tickSheet (s : State) (e : Nat × Sheet) : State :=
  let sid := e.1
  let sh := e.2
  let c := s.cycle (coreOf sid)
  let d := gained s (coreOf sid)
  let flow := flowOf s sid sh
  let s := s.mapSheet sid (fun y => { y with flow := flow })
  if (readyBundle s e).isSome then s.sheetEvent sid sh 7 0x11 d
  else
    let s := s.mapSheet sid (fun y => { y with readySince := max y.readySince (c + d) })
    match sh.park, nextInstr s sid sh with
    | .running, .ok i =>
      if sh.nextIssue ≤ c then
        let mean := sheetMeanings s sid
        waitCycles (noteWait s sid (Instr.asBundle i) mean) sid d sh (waitReason s sid sh (Instr.asBundle i) mean)
      else s
    | .resume, _ =>
      (match sh.trap with
       | some t => if resumedWaits s sid sh t (sheetMeanings s sid) then s.mapSheet sid (fun y => { y with watch := y.watch + d }) else s
       | none => s)
    | _, _ => s

/-- The units with a resident workgroup, with its partition. -/
def residentUnits (s : State) : List (Nat × Nat × Nat) :=
  (s.wgs.filterMap (fun e => (s.grid? e.2.grid).map (fun g => (e.2.core, e.2.col, g.part)))).dedup

/-- The first core of a cluster in which a partition owns a unit. -/
def coreIn (s : State) (cl part : Nat) : Nat :=
  ((clusterCores cl).find? (fun c => (portParts (s.core c)).contains part)).getD (cl * 8)

/-- Cycles counted for partitions (R328, R329): resident units, waits for a Reef and for tokens, ballast. -/
def tickCounts (s : State) : State :=
  let s1 := (residentUnits s).foldl (fun x (core, col, part) => x.event part core (unitSid core col) 7 1 (gained s core)) s
  let s2 := s.cores.foldl (fun x e =>
    let x := (vals e.2.cmds).foldl (fun x c =>
      if c.phase = .requested then x.event (partOfCmd s c) e.1 c.sid 7 0x18 (gained s e.1) else x) x
    e.2.netQueue.foldl (fun x r =>
      if getD e.2.buckets 0 r.part = 0 then x.event r.part e.1 (unitSid e.1 (ownCol s e.1 r.part)) 7 0x19 (gained s e.1) else x) x) s1
  s.clusters.foldl (fun x e =>
    if e.2.ballast then (clusterOwners s e.1).dedup.foldl (fun x p =>
      x.event p (coreIn s e.1 p) (unitSid (coreIn s e.1 p) (ownCol s (coreIn s e.1 p) p)) 7 14 (gained s (e.1 * 8))) x
    else x) s2

/-- The running leases lose a nanosecond (R323); every millisecond the suspended ones are tried again. -/
def tickLeases (s : State) : State :=
  (keys s.parts).foldl (fun x p =>
    let x := if leaseRuns s p then
        x.mapPart p (fun q => { q with lease := q.lease.map (fun (l : Lease) => { l with left := l.left - 1 }) })
      else x
    if (s.ts + 1) % 1000000 = 0 then leaseRetry p x else x) s

/-- The windows of counters that end now (R342). -/
def tickWindows (s : State) : State :=
  if s.ts % 1000000 = 0 then (keys s.parts).foldl (fun x p => counterWindowEnd p 0 x) s else s

/-- The partitions with a request that waits for a grant, whose demand is the greatest (R319). -/
def tickReefs (s : State) : State := (reefWaiters s).foldl (fun s p => s.mapPart p (fun q => { q with waited := true })) s

/-- The pair controllers compare the currents of the pairs that somebody owns, each microsecond; the currents are not the model's
to know (R322, log 2). -/
def tickPairs (s : State) : State :=
  let s := (keys s.clusters).foldl countDeferred s
  if s.ts % 1000 = 0 then
    (((ownedClusters s).map (· / 2)).dedup).foldl (fun s n => (pairBalance n (s.free 2010) (s.free 2011) s).drew) s
  else s

/-- A nanosecond passes in which no stage issues. -/
def tick (s : State) : State :=
  let s := tickLeases (tickReefs (tickCounts (s.sheets.foldl tickSheet s)))
  tickPairs (tickWindows { s with ts := s.ts + 1 })

/-! ## A sheet that runs a given bundle (log 50) -/

/-- Where its bundle stands: virtual and physical address. -/
def runnerPc : Nat := 0x1000
/-- Page of the top table; the table below it follows. -/
def runnerRoot : Nat := 0x10
/-- The bytes of an instruction numbered as the opcode table numbers it. -/
def tableBytes (nbits w : Nat) : List Byte :=
  if nbits ≤ 40 then leBytes 16 (Bundle.word (oneMove (Move.ofWord (w % 2 ^ 38) (bitAt w 38)))) else leBytes 32 w

/-- A kernel with every register, at address 0. -/
def runnerKernel : Kernel :=
  { Kernel.none with entry := runnerPc, codesz := 4096, regs := 128, wgmax := 32, tiles := 2, limbs := 16, scra := 16,
                     scrw := 16, bound := 250 }
/-- The grid of one workgroup of 32 threads. -/
def runnerGrid : Grid :=
  { record := 0, vf := 0, part := 0,
    lrec := { kaddr := 0, args := 0, gx := 1, gy := 1, gz := 1, wx := 32, wy := 1, wz := 1, dyna := 0, dynw := 0, irq := false,
              coop := false, clw := 1, prio := 0 }
    kernel := runnerKernel, depth := 0, parent := none, host := true, nextG := 1, placed := [(0, 0)], done := 0, batch := none, queues := [],
    clBars := [], gridBars := [], restart := none, ending := none, ended := false }
/-- Its workgroup, at context 0 of core 0. -/
def runnerWg : Workgroup :=
  { mkWorkgroup 0 0 ⟨0, 0, false⟩ ⟨1, 32, 4096, 16, 16, 4, 16⟩ ([0], 0, 0) with started := true }
/-- Its sheet. -/
def runnerSheet : Sheet := Sheet.fresh 0 0 32 (w64 runnerPc) (Mask.firstN 32)

/-- A sheet that is ready at context 0 of core 0, with an address space that maps the first GiB of device memory, whose bundle has
been fetched: its bytes stand in memory and in the core's instruction cache. -/
def State.placeRunner (s : State) (bytes : List Byte) : State :=
  let s := { s with sheets := [(0, runnerSheet)], wgs := [(0, runnerWg)], grids := [(0, runnerGrid)], agenda := [], focus := 0
                    nextWg := max s.nextWg 1, nextGrid := max s.nextGrid 1 }
  let s := s.setVf 0 { s.vf 0 with part := some 0, troot := runnerRoot }
  let s := s.writeBytes (runnerRoot * 4096) (leBytes 8 ((runnerRoot + 1) * 4096 + 1))
  let s := s.writeBytes ((runnerRoot + 1) * 4096) (leBytes 8 0x87)
  let s := s.writeBytes runnerPc bytes
  s.mapCore 0 (fun k => { k with icache := [⟨runnerPc / 64, 0, s.readBytes runnerPc 64⟩] })

/-! ## The choice -/

/-- Everything that may happen in a state; time passes only where nothing is due and no stage issues. -/
def actions (s : State) : List Action :=
  let now := dueSteps s ++ (picks s).map issuePick
  now ++ openSteps s ++ (if now.isEmpty then [fun s => .next (tick s)] else [])

/-- One of the actions: the only one, or a free choice (log 2). -/
def chooseAction (s : State) : Host.Outcome State Fault Refusal :=
  match actions s with
  | [] => .next (tick s)
  | [a] => a s
  | a :: b :: r => ((a :: b :: r).getD (s.free 3000 % (r.length + 2)) a) s.drew

end Sys2Proof.Machine
end

