-- ==== Sys2Proof/Machine/Step.lean ====
section
/-! DEFINITION. One step of the machine: the next event placed on the agenda, or one of the actions that may happen
(log 3); and a state in which a given instruction runs next (log 50). -/

namespace Sys2Proof.Machine

/-- One step. -/
def step (s : State) : Host.Outcome State Fault Refusal :=
  match s.agenda with
  | i :: r => exec i { s with agenda := r }
  | [] => chooseAction s

/-- The state with an instruction stored where the next step fetches it: the bundle that holds a move alone, or the
bytes of a bundle, at the pc of a sheet that is ready at context 0 of core 0. Nothing runs in the machine right after
reset, so this stands for a launch by the host and its dispatch. -/
def State.withFetchWord (s : State) (nbits w : Nat) : State :=
  s.placeRunner (tableBytes nbits w)

end Sys2Proof.Machine
end

