-- ==== Sys2Proof/Safety.lean ====
section
/-! DEFINITION. What the statements speak of: when the sheet in focus can issue an operation alone, what the operation
then sees, the invariants of the state, and a safe step. -/

namespace Sys2Proof.Machine

/-! ## One operation alone (log 4) -/

/-- The cycle of the core of the sheet in focus. -/
def State.now (s : State) : Nat := s.cycle (coreOf s.focus)
/-- The cycles at which the passes of the sheet's move issue and read when it issues alone (R30, R88, R91). -/
def opCycle (s : State) (sh : Sheet) (m : Move) : Nat → Nat := readCycle s s.focus sh (oneMove m)
/-- The state as the sheet in focus begins to issue a move alone: results that are due have landed (R70). -/
def opBegun (s : State) (sh : Sheet) (m : Move) : State := beginIssue s s.focus sh (opCycle s sh m) .narrow
/-- The sheet then. -/
def opSheet (s : State) (sh : Sheet) (m : Move) : Sheet := begunSheet s s.focus sh (opCycle s sh m) .narrow
/-- The move with its guard and source read. -/
def opMove (s : State) (sh : Sheet) (m : Move) : SavedMove :=
  evalMove (opBegun s sh m) s.focus (opSheet s sh m) (opCycle s sh m 0) 0 m
/-- The bundle in hand. -/
def opBundle (s : State) (sh : Sheet) (m : Move) : BInfo := Bundle.info (oneMove m) (opSheet s sh m)
/-- The trigger as the operation finds it, with the table entries that the bundle needs and the cycles that the droop governor
adds to its first pass. -/
def opCtx (s : State) (sh : Sheet) (m : Move) (u : FUnit) : TrigCtx :=
  trigCtx (opBegun s sh m) s.focus (opSheet s sh m) { opBundle s sh m with
    engines := engineMoves [opMove s sh m], droop0 := passLen (dcap s s.focus) [opMove s sh m] 0 - 1 } [] [] (opMove s sh m) u

/-- Whether the guard of the move holds in some thread. -/
def opRuns (s : State) (sh : Sheet) (m : Move) : Prop := (opMove s sh m).exec ≠ 0

/-- The sheet in focus can issue a move into a unit's trigger alone: it may issue (R275, R257) at a stage that is
free, in a cycle of its column (R88), with no bundle of its own under way; the bundle and the move are
legal (R104), some thread of the sheet is left, no soft error is outstanding (R282), no interlock record is armed (R337), and in
no pass a port, a divide or an extraction holds the move (R71, R72, R244, R401). -/
structure CanIssue (s : State) (sh : Sheet) (m : Move) (u : FUnit) : Prop where
  here : s.sheet? s.focus = some sh
  opens : stageOpen s s.focus sh = true
  whole : sh.issuing = none
  slot : slotWaits s s.focus sh (oneMove m) = false
  form : bundleOk sh (s.core (coreOf s.focus)).split (oneMove m) = true
  left : sh.left = false
  clean : sh.corrupt = none
  quiet : sh.armed = false
  unit : Dst.ofCode m.dst.toNat = some (.t u)
  legal : moveOk m (s.kernelOf sh).regs (s.core (coreOf s.focus)).split = true
  free : waitingPass (opBegun s sh m) s.focus (opSheet s sh m) (opCycle s sh m) [opMove s sh m] sh.passes 0 = none

/-- The same where an interlock record is armed (R337): the sheet could issue the move were it not. -/
def CanIssueArmed (s : State) (sh : Sheet) (m : Move) (u : FUnit) : Prop :=
  s.sheet? s.focus = some sh ∧ sh.armed = true ∧
    CanIssue (s.setSheet s.focus { sh with armed := false }) { sh with armed := false } m u

/-- The pass in which its trigger starts the operation in a thread (R30, R67): pass 0 of a uniform move. -/
def opPass (m : Move) (th : Nat) : Nat := if Move.uniform m then 0 else th / 32
/-- The threads in which its trigger acts (R67). -/
def opThreads (s : State) (sh : Sheet) (m : Move) (u : FUnit) : List Nat :=
  (trigMask (opSheet s sh m) (opMove s sh m) u).threads
/-- What the operation reads in a thread. -/
def opIn (s : State) (sh : Sheet) (m : Move) (u : FUnit) (th : Nat) : LaneIn := (opCtx s sh m u).laneIn th

/-- Every active thread of the operation has a result on its way to the latch of its unit: the values `f` gives for what the
thread reads, due after the latency of class `cls` (R69, R70); FPSR has received the flags and nothing else (R152). -/
def Delivers (s t : State) (sh : Sheet) (m : Move) (u : FUnit) (cls : LaneIn → Nat) (f : LaneIn → LaneOut) : Prop :=
  ∃ y, t.sheet? s.focus = some y ∧
    (∀ th ∈ opThreads s sh m u, opPass m th < sh.passes → ∃ r ∈ y.flights, r.unit = u ∧ r.thread = th ∧ sh.nextId ≤ r.id ∧
      r.q = (f (opIn s sh m u th)).q ∧ r.w = (f (opIn s sh m u th)).w ∧ r.ready = true ∧ r.stalling = false ∧
      r.due = opCycle s sh m (opPass m th) + native (cls (opIn s sh m u th))) ∧
    (∀ b, y.fpsr.getLsbD b = (sh.fpsr.getLsbD b || (opThreads s sh m u).any (fun th =>
      decide (opPass m th < sh.passes) && (f (opIn s sh m u th)).flags.getLsbD b)))

/-- A per-thread operation completes: where its sheet can issue it and no flag it raises is enabled (R153), it runs and
delivers what `f` gives. -/
def Computes (i : Instr) (u : FUnit) (cls : LaneIn → Nat) (f : LaneIn → LaneOut) : Prop :=
  ∀ s sh m, i.move = some m → CanIssue s sh m u →
    (∀ th ∈ opThreads s sh m u, Flags.traps sh.fpcr (f (opIn s sh m u th)).flags = false) →
    ∃ t, exec i s = .next t ∧ Delivers s t sh m u cls f

/-! ## Values of operations in the words of their rules -/

/-- Operand A of a frame with `.x1` (R370), and the entry that A does not use. -/
def LaneIn.first (i : LaneIn) (x1 : Bool) : W64 := if x1 then i.x1 else i.x0
def LaneIn.third (i : LaneIn) (x1 : Bool) : W64 := if x1 then i.x0 else i.x1

/-- A function of n-bit words at the width of the operation, n = 32 sign-extended (R370). -/
def atWidth (m32 : Bool) (f : {n : Nat} → BitVec n → BitVec n → BitVec n) (a b : W64) : W64 :=
  if m32 then (f (a.setWidth 32) (b.setWidth 32)).signExtend 64 else f a b
/-- The same with a third word. -/
def atWidth3 (m32 : Bool) (f : {n : Nat} → BitVec n → BitVec n → BitVec n → BitVec n) (a b c : W64) : W64 :=
  if m32 then (f (a.setWidth 32) (b.setWidth 32) (c.setWidth 32)).signExtend 64 else f a b c
/-- 1 or 0. -/
def truth {n : Nat} (b : Bool) : BitVec n := if b then 1 else 0

/-- The field of BFX (R377): `len` bits of `a` from bit `pos` on, zeros above bit n - 1, zero- or sign-extended. -/
def fieldOut (sgn : Bool) {n : Nat} (a b : BitVec n) : BitVec n :=
  let f := (a >>> (b.toNat % 64)).setWidth (min (b.toNat / 256 % 128) n)
  if sgn then f.signExtend n else f.setWidth n
/-- The insertion of BFI (R377): bit `i` is bit `i - pos` of `c` inside the field, and that of `a` outside. -/
def fieldIn {n : Nat} (a b c : BitVec n) : BitVec n :=
  let mask := (BitVec.allOnes n >>> (n - min (b.toNat / 256 % 128) n)) <<< (b.toNat % 64)
  (a &&& ~~~mask) ||| ((c <<< (b.toNat % 64)) &&& mask)
/-- PERM (R447): byte `k` is the byte of C:A that nibble `k` of B names. -/
def permByte (a b c : W64) (k : Nat) : Byte := (c ++ a : BitVec 128).extractLsb' (8 * (b.toNat / 2 ^ (4 * k) % 16)) 8
def permWord (a b c : W64) : W64 :=
  permByte a b c 7 ++ permByte a b c 6 ++ permByte a b c 5 ++ permByte a b c 4 ++ permByte a b c 3 ++ permByte a b c 2 ++
    permByte a b c 1 ++ permByte a b c 0

/-- Three-valued codes (R158): 00 false, 01 true, 10 and 11 undecided. -/
def kAnd (a b : BitVec 2) : W64 := if a = 0 ∨ b = 0 then 0 else if a = 1 ∧ b = 1 then 1 else 2
def kOr (a b : BitVec 2) : W64 := if a = 1 ∨ b = 1 then 1 else if a = 0 ∧ b = 0 then 0 else 2
def kNot (a : BitVec 2) : W64 := if a = 0 then 1 else if a = 1 then 0 else 2

/-- The high half of a signed and of an unsigned product (R435). -/
def signedHigh {n : Nat} (a b : BitVec n) : BitVec n := (a.signExtend (2 * n) * b.signExtend (2 * n)).extractLsb' n n
def unsignedHigh {n : Nat} (a b : BitVec n) : BitVec n := (a.setWidth (2 * n) * b.setWidth (2 * n)).extractLsb' n n

/-- Whether a divide of the operation divides by zero in a thread (R400). -/
def ZeroDivisor (s : State) (sh : Sheet) (m : Move) (x : X1M32) (th : Nat) : Prop :=
  (opIn s sh m .imu th).t.toNat % 2 ^ widthOf x.m32 = 0

/-- A divide starts: every active thread's results, `q` first, are pending in the stalling port (R400, R401). -/
def Divides (i : Instr) (x : X1M32) (q w : {n : Nat} → BitVec n → BitVec n → BitVec n) : Prop :=
  ∀ s sh m, i.move = some m → CanIssue s sh m .imu → (∀ th ∈ opThreads s sh m .imu, ¬ ZeroDivisor s sh m x th) →
    ∃ t y, exec i s = .next t ∧ t.sheet? s.focus = some y ∧ y.fpsr = sh.fpsr ∧
      ∀ th ∈ opThreads s sh m .imu, opPass m th < sh.passes → ∃ r ∈ y.flights, r.unit = .imu ∧ r.thread = th ∧ sh.nextId ≤ r.id ∧
        r.q = some (atWidth x.m32 q ((opIn s sh m .imu th).first x.x1) (opIn s sh m .imu th).t) ∧
        r.w = some (atWidth x.m32 w ((opIn s sh m .imu th).first x.x1) (opIn s sh m .imu th).t) ∧
        r.ready = false ∧ r.stalling = true ∧
        r.due = opCycle s sh m (opPass m th) + (if (s.core (coreOf s.focus)).split then 2 else 1) * (if x.m32 then 20 else 36)

/-- FCMP (R159, R408): 0, 1 or 2, with NV for a signaling NaN. -/
def fpCompare (r : Rel) (a b : FVal) : LaneOut :=
  if a.isNan ∨ b.isNan then ⟨some 2, none, .when (a.isSig || b.isSig) .nv⟩
  else ⟨some (truth (match r with
    | .eq => cmpVal a b == 0
    | .lt => decide (cmpVal a b < 0)
    | .le => decide (cmpVal a b ≤ 0)
    | .ne => cmpVal a b != 0)), none, 0⟩
/-- FSGN (R413): T with the sign bit of its type from A, from its complement, from the exclusive or, or cleared. -/
def withSign (m : FpSgn) (a t : W64) : W64 :=
  let sb := m.ty.fmt.width - 1
  let sign := match m.op with
    | .cs => a.getLsbD sb
    | .ns => !a.getLsbD sb
    | .xs => a.getLsbD sb ^^ t.getLsbD sb
    | .abs => false
  (t &&& (BitVec.allOnes sb).setWidth 64) ||| (truth sign <<< sb)
/-- An interval with its flags. -/
def ivOut (r : W64 × Flags) : LaneOut := ⟨some r.1, none, r.2⟩
/-- A function of the XFU at a type (R125, R404, R450). -/
def xfuOut (ty : XType) (f : Fmt → Bool → FVal → Nat → Nat × Flags) (i : LaneIn) : LaneOut :=
  qFlags (f ty.fmt (i.ftz && ty.flushes) (unpack ty.fmt (i.ftz && ty.flushes) (i.t.toNat % 2 ^ ty.fmt.width)) i.free)

/-- An operation across threads completes (R31, R70): with the last pass, every active thread's result is on its way, and
the flags of the move enter FPSR once. -/
def Crosses (i : Instr) (cls : Nat) (g : TrigCtx → Nat → W64) (flags : TrigCtx → Flags) : Prop :=
  ∀ s sh m, i.move = some m → CanIssue s sh m .xfu → 0 < sh.passes →
    (opThreads s sh m .xfu ≠ [] → Flags.traps sh.fpcr (flags (opCtx s sh m .xfu)) = false) →
    ∃ t y, exec i s = .next t ∧ t.sheet? s.focus = some y ∧
      y.fpsr = sh.fpsr ||| (if opThreads s sh m .xfu = [] then 0 else flags (opCtx s sh m .xfu)) ∧
      ∀ th ∈ opThreads s sh m .xfu, ∃ r ∈ y.flights, r.unit = .xfu ∧ r.thread = th ∧ sh.nextId ≤ r.id ∧
        r.q = some (g (opCtx s sh m .xfu) th) ∧ r.w = none ∧ r.ready = true ∧ r.stalling = false ∧
        r.due = opCycle s sh m (sh.passes - 1) + native cls
/-- The distance that a thread names in its own X0 (R457). -/
def dist (x : TrigCtx) (th : Nat) : Nat := ((x.x 0 th).setWidth 7).toNat
/-- The value of a partner thread if the move executes there, else the thread's own (R457). -/
def fromPartner (x : TrigCtx) (th : Nat) (partner : Option Nat) : W64 :=
  match partner with
  | some j => if x.runs j then x.val j else x.val th
  | none => x.val th
/-- The sum of words at a width (R451). -/
def sumWord (m32 : Bool) (l : List W64) : W64 := if m32 then (l.sum.setWidth 32).signExtend 64 else l.sum

/-! ## Accesses -/

/-- Every byte of memory as before. -/
def SameMemory (s t : State) : Prop := ∀ a, t.readByte a = s.readByte a
/-- No partition tracks dirty pages (R309), so that a write changes no bitmap. -/
def Untracked (s : State) : Prop := ∀ e ∈ s.parts, e.2.dirty.getLsbD 0 = false
/-- Memory as before, but where stores on their way go, which a walk that goes out behind them on their route finds performed
(R13, R305). -/
def SameButHomes (s t : State) : Prop :=
  (s.homeq = [] → SameMemory s t) ∧
    (Untracked s → ∀ a, (∀ h ∈ s.homeq, ¬ (h.pa ≤ a ∧ a < h.pa + h.bytes.length)) → t.readByte a = s.readByte a)

/-- Where the checks of R175 let an access of `n` bytes at `addr` go: aligned, within its space or translated, with no
poisoned sector among what it reads (R282). -/
def Reaches (s : State) (sh : Sheet) (m : Move) (space : Space) (acc : AccKindT) (align : Nat) (span : Nat × Nat) (r : Reach) : Prop :=
  span.1 % align = 0 ∧ reach (opBegun s sh m) s.focus (opSheet s sh m) space acc span.1 span.2 = .ok r ∧
    (space = .g ∧ acc ≠ .store → ∀ q ∈ s.poisoned, ∀ p ∈ r.pieces, runsMeet p.1 p.2 (q * 32) 32 = false)

/-- Accesses enter the queues (R198): where every thread of the move passes the checks and no host completer lacks the
AtomicOp (R213), the sheet's program order grows by one entry for each thread in thread order, memory is as before, and an
operation of `words` result words has a result pending in the stalling port of its unit for each entry (R71, R426). -/
def Accesses (i : Instr) (u : FUnit) (space : Space) (acc : AccKindT) (align words : Nat) (span : Sheet → LaneIn → Nat × Nat)
    (pre : Sheet → Prop) (lacks : State → Reach → Bool) (what : Sheet → LaneIn → Access → Prop) : Prop :=
  ∀ s sh m, i.move = some m → CanIssue s sh m u → pre sh → ∀ r : Nat → Reach,
    (∀ th ∈ opThreads s sh m u, Reaches s sh m space acc align (span sh (opIn s sh m u th)) (r th) ∧ lacks s (r th) = false) →
    ∃ t y new, exec i s = .next t ∧ t.sheet? s.focus = some y ∧ y.queue = sh.queue ++ new ∧
      new.map (·.thread) = (opThreads s sh m u).filter (fun th => decide (opPass m th < sh.passes)) ∧
      SameButHomes s t ∧
      ∀ e ∈ new, e.pieces = (r e.thread).pieces ∧ e.mt = (r e.thread).mt ∧ e.mt1 = (r e.thread).mt1 ∧ e.peer = (r e.thread).wg ∧ e.space = space ∧
        e.unit = u ∧ e.act = .nothing ∧ e.drain = false ∧ what sh (opIn s sh m u e.thread) e ∧
        (words ≠ 0 → ∃ f ∈ y.flights, f.id = e.flight ∧ sh.nextId ≤ f.id ∧ f.unit = u ∧ f.thread = e.thread ∧ f.ready = false ∧
          f.stalling = true ∧ f.w.isSome = decide (words = 2))

/-- The address X0 + T, or T alone under `.nox` (R175, R426). -/
def addrIn (nox : Bool) (i : LaneIn) : Nat := (if nox then i.t else i.x0 + i.t).toNat
/-- The plain parts of an entry: its kind, the form of its value, its bytes, and the orderings it carries. -/
def Access.Is (e : Access) (k : AccKind) (f : LoadForm) (data cmp : List Byte) (acq rel : Option Scope) : Prop :=
  e.kind = k ∧ e.form = f ∧ e.data = data ∧ e.cmp = cmp ∧ e.acq = acq ∧ e.rel = rel ∧ e.blockLoads = acq.isSome ∧
    e.blockStores = (acq.isSome || rel.isSome)

/-- A load of `n` bytes (R426). -/
def PlainLoad (i : Instr) (u : LsuUnit) (nox : Bool) (space : Space) (n words : Nat) (f : LoadForm) (acq : Option Scope) : Prop :=
  Accesses i u.unit space .load n words (fun _ a => (addrIn nox a, n)) (fun _ => True) (fun _ _ => false)
    (fun _ _ e => e.Is .load f [] [] acq none)
/-- A store of `n` bytes (R459). -/
def PlainStore (i : Instr) (u : LsuUnit) (nox : Bool) (space : Space) (n : Nat) (data : LaneIn → List Byte) (rel : Option Scope) : Prop :=
  Accesses i u.unit space .store n 0 (fun _ a => (addrIn nox a, n)) (fun _ => True) (fun _ _ => false)
    (fun _ a e => e.Is .store .zext (data a) [] none rel)
/-- Whether an atomic of these pieces is sent to a host completer that lacks its AtomicOp, or for which there is none (R213); one
to a peer device goes to that device's home (R358). -/
def lacksOp (space : ASpace) (scope : AScope) (bit : Option Nat) (s : State) (r : Reach) : Bool :=
  let pa := (r.pieces.getD 0 (0, 0)).1
  space == .g && decide (pa < 2 ^ 50) && (r.mt == 2 || (r.mt == 1 && scope == .sys)) && (match bit with
    | none => true
    | some b => !(getD s.hpcap 0 (portOfPa pa)).getLsbD b)
/-- An atomic of the frame of R367: `b` of HPCAP is the bit of its AtomicOp at 4 bytes less one more at 8. -/
def Atomics (i : Instr) (u : LsuUnit) (op : RmwOp) (m : AtomMod) (host : Bool) : Prop :=
  let z := if m.dbl then 8 else 4
  Accesses i u.unit (ASpace.space m.space) .atomic z 1 (fun _ a => ((a.x0 + a.t).toNat, z)) (fun _ => True)
    (lacksOp m.space m.scope (if host then some (if m.dbl then 1 else 0) else none))
    (fun _ a e => e.Is (.atomic op m.dbl) .zext (leBytes z (if op = .cas then a.x2 else a.x1).toNat) (leBytes z a.x1.toNat) none none ∧
      e.sys = decide (m.scope = .sys))

/-- The bits of LDX's element (R189): position, width and sign. -/
def elementBits (nox : Bool) (img : BitVec 512) (i : LaneIn) : Nat × Nat × Bool :=
  let e := (i.t.setWidth 32).toNat
  let j := e % xpNf img
  (8 * (if nox then 0 else i.x0.toNat) + xpPeriod img * (e / xpNf img) + (xpField img j).1, (xpField img j).2.1, (xpField img j).2.2)
/-- The bytes that hold bits `pos` to `pos + width - 1`. -/
def elementSpan (b : Nat × Nat × Bool) : Nat × Nat := (b.1 / 8, (b.1 + b.2.1 - 1) / 8 - b.1 / 8 + 1)
/-- Bytes of a plain size (R459). -/
def sizeBytes : LdSize → Nat
  | .b => 1 | .h => 2 | .s => 4 | .d => 8

/-- A value delivered to a uniform port, or for a thread: in the latch, where every older result of the port is there by now. -/
def Lands (s : State) (sh y : Sheet) (u : FUnit) (th : Nat) (v : W64) : Prop :=
  (∀ f ∈ sh.flights, f.unit = u → f.thread = th → f.ready = true ∧ f.stalling = false ∧ f.due ≤ s.now) → y.getQ u 0 th = v
/-- The queue once an ordering operation has entered it: it completes at once where the queue is empty, and otherwise waits
behind accesses alone (R208). -/
def Ordered (sh y : Sheet) (what : Access → Prop) : Prop :=
  (sh.queue = [] → y.queue = []) ∧
    (sh.queue ≠ [] → (∀ a ∈ sh.queue, a.kind ≠ .order) → ∃ e, y.queue = sh.queue ++ [e] ∧ e.kind = .order ∧ what e)

/-- A translation that does not hang on which of its free values are drawn (log 2). -/
def Steady {α : Type} (f : State → α) (s : State) (r : α) : Prop := ∀ k, f { s with freeCtr := k } = r
/-- Every cached translation of an address space that a core may use is what a walk finds (R305). -/
def CachesAgree (s : State) (core vf : Nat) : Prop :=
  ∀ va l, va < 2 ^ 48 → (lookup (s.core core).tlb (tlbKey vf va) = some l ∨
      lookup (s.cluster (clusterOf core)).tlb (tlbKey vf va) = some l ∨ lookup (s.die (dieOf core)).tlb (tlbKey vf va) = some l) →
    Steady (fun z => walk z vf va) s (.ok l)
/-- The code of PREF (R195) where its address translates to `r`: 4 or 5 where it does not, 3 to 0 of a pin; a line of a peer device
to which no way is left is not pinnable either (R359). -/
def pinCode (s : State) (sh : Sheet) (r : Except Flt PAddr) (pin : Bool) : Nat :=
  match r with
  | .error f => if f.cause = .protection then 5 else if bits f.info 4 4 = 4 then (if pin then 3 else 0) else 4
  | .ok p =>
    if pin = false then 0
    else if p.mt = 2 then 3
    else if s.pinned.any (fun e => e.1 == p.pa / 128) then 0
    else if 12 ≤ (s.pinned.filter (fun e => homeSet e.1 == homeSet (p.pa / 128))).length then 1
    else if (s.part (s.partOf sh)).pinq ≤ (s.pinned.filter (fun e => e.2 == s.partOf sh)).length then 2
    else 0

/-! ## Transfers of control -/

/-- A sheet past a bundle: what an issue may change before its transfer of control, the registers and the path as before. -/
def Past (sh y : Sheet) : Prop :=
  y.v = sh.v ∧ y.s = sh.s ∧ y.p = sh.p ∧ y.ent = sh.ent ∧ y.stack = sh.stack ∧ y.mask = sh.mask ∧ y.gone = sh.gone ∧ y.rcv = sh.rcv ∧
    y.queue = sh.queue ∧ y.fpsr = sh.fpsr ∧ y.fpcr = sh.fpcr ∧ y.park = .running ∧ y.trap = none ∧ y.skip = sh.skip ∧
    y.nextId = sh.nextId

/-- A transfer of control completes: where the guard holds and `legal` does, the sheet that has moved past its bundle by
`past` goes where `go` says, and its path may have arrived (R79). -/
def Transfers (i : Instr) (past : Sheet → Sheet → Prop) (legal : State → Sheet → Move → Prop) (go : State → Sheet → Move → Sheet → Sheet) : Prop :=
  ∀ s sh m, i.move = some m → CanIssue s sh m .bru → opRuns s sh m → legal s sh m →
    ∃ t y, exec i s = .next t ∧ Past sh y ∧ past sh y ∧ t.sheet? s.focus = some (go s sh m y).arrive ∧ ∀ a, t.readByte a = s.readByte a

/-- The trigger value of a transfer, and the address of an offset in the code object (R379). -/
def opT (s : State) (sh : Sheet) (m : Move) : W64 := (opCtx s sh m .bru).tv
def codeAt (s : State) (sh : Sheet) (off : W64) : W64 := BitVec.ofNat 64 (s.kernelOf sh).base + off
/-- An offset that R380 allows: below 2^32, a multiple of 16, a bundle's room within the code. -/
def OffsetOk (s : State) (sh : Sheet) (off : W64) : Prop :=
  off.toNat < 2 ^ 32 ∧ off.toNat % 16 = 0 ∧ 256 ≤ off.toNat ∧ off.toNat + 16 ≤ 256 + (s.kernelOf sh).codesz
/-- The code of the predicate that a branch names in X0, in a thread (R381); 3 reads as 2. -/
def branchCode (sh : Sheet) (th : Nat) : Nat :=
  min (sh.getP ((sh.getX .bru 0 0).toNat % 16) th).toNat 2
/-- The active threads whose code is in a list. -/
def codeThreads (sh : Sheet) (l : List Nat) : Mask := Mask.ofFn (fun th => sh.active.has th && l.contains (branchCode sh th))
/-- The codes that count as taken under a rule for undecided lanes (R381). -/
def takenCodes : ERule → List Nat
  | .uf => [1] | .ut => [1, 2] | .ux => [1]
def otherCodes : ERule → List Nat
  | .uf => [0, 2] | .ut => [0] | .ux => [0, 2]
/-- A branch to its nonempty paths (R78): one alone is a jump, more push a level with the reconvergence address of the bundle. -/
def branchTo (s : State) (sh : Sheet) (l : List (W64 × Mask)) (y : Sheet) : Sheet :=
  let j := ((s.kernelOf sh).rcv.find? (fun e => e.1 == sh.pc.toNat)).map (fun e => BitVec.ofNat 64 e.2)
  match l.filter (fun e => e.2 != 0) with
  | [] => y
  | [a] => { y with pc := a.1 }
  | a :: b :: r => { y with stack := ⟨j, sh.mask, sh.rcv, some b, r.head?⟩ :: sh.stack, pc := a.1, mask := a.2, rcv := j }
/-- The conditions under which a predicate branch raises nothing (R80, R381). -/
def BranchOk (s : State) (sh : Sheet) (offs : List W64) (ux : Bool) (paths : List (W64 × Mask)) : Prop :=
  (sh.getX .bru 0 0).toNat < 16 ∧ (∀ o ∈ offs, OffsetOk s sh o) ∧
    (ux = true → ∀ th ∈ sh.active.threads, branchCode sh th ≠ 2) ∧
    (2 ≤ (paths.filter (fun e => e.2 != 0)).length → sh.stack.length < 16)

/-! ## Engine commands -/

/-- An engine trigger completes: where its guard holds, `ok` does and a table entry is free, its command enters a free entry with
the core's next number, captures its trigger and operand entries, and its value is pending in the engine's port (R220, R226,
R437); the other entries and memory are as before. -/
def Enters (i : Instr) (u : FUnit) (ok : State → TrigCtx → Prop) (after : State → TrigCtx → State → Sheet → Cmd → Prop) : Prop :=
  ∀ s sh m, i.move = some m → CanIssue s sh m u → 0 < sh.passes → opRuns s sh m → ok s (opCtx s sh m u) → freeEntries s s.focus ≠ [] →
    ∃ t y c e, e ∈ freeEntries s s.focus ∧ exec i s = .next t ∧ t.sheet? s.focus = some y ∧ lookup (t.core (coreOf s.focus)).cmds e = some c ∧
      c.num = (s.core (coreOf s.focus)).nextCmd ∧ (t.core (coreOf s.focus)).nextCmd = c.num + 1 ∧
      (∀ k, k ≠ e → lookup (t.core (coreOf s.focus)).cmds k = lookup (s.core (coreOf s.focus)).cmds k) ∧
      c.sid = s.focus ∧ c.wg = sh.wg ∧ c.unit = u ∧ c.phase = .queued ∧ c.trig = (opCtx s sh m u).tv ∧ c.x0 = sh.getX u 0 0 ∧
      c.x1 = sh.getX u 1 0 ∧ c.baddr = sh.pc ∧ c.slot = 0 ∧ c.cause = .none ∧
      (∃ f ∈ y.flights, f.id = c.flight ∧ sh.nextId ≤ f.id ∧ f.unit = u ∧ f.thread = 0 ∧ f.ready = false ∧ f.stalling = true) ∧
      after s (opCtx s sh m u) t y c
/-- Shape register `h` of an engine is captured from the shadow copy under a swap, which exchanges the copies, and from the
active copy otherwise (R133, R226). -/
def Captures (eng h : Nat) (swap : Bool) (x : TrigCtx) (y : Sheet) (shape : List (BitVec 32)) : Prop :=
  (∀ f < 16, shape.getD f 0 = getD (if swap then x.sh.shShadow else x.sh.shActive) 0 (shapeKey eng h f)) ∧
    (if swap then ∀ f < 16, getD y.shActive 0 (shapeKey eng h f) = getD x.sh.shShadow 0 (shapeKey eng h f) ∧
        getD y.shShadow 0 (shapeKey eng h f) = getD x.sh.shActive 0 (shapeKey eng h f)
      else y.shActive = x.sh.shActive ∧ y.shShadow = x.sh.shShadow)

/-- An MXE trigger that names no reserved bit, and a tile name within `.tiles` (R132). -/
def MxeNames (x : TrigCtx) (c : Tile) : Prop := x.tv.toNat < 8 ∧ c.val < x.kernel.tiles
/-- The tile name may be used (R232, R233): fresh with a tile of the pool unmapped, or mapped to a tile of the type. -/
def TileMay (x : TrigCtx) (c : Tile) (fresh int : Bool) : Prop :=
  if fresh then (mappedTiles x.s x.sh.wg).length < poolSize x.s x.sh.wg
  else (lookup x.sh.tileMap c.val).isSome ∧ x.tileIsInt c = int
/-- The A-buffer bytes of a drain, store or load of rows at DADDR (R234). -/
def RowsFit (x : TrigCtx) (z : Nat) : Prop :=
  x.mf 4 < 2 ^ 17 ∧ x.mf 4 % 16 = 0 ∧ 1 ≤ x.mf 9 ∧ x.mf 9 ≤ 16 ∧ x.mf 4 + 128 * x.mf 9 * z ≤ x.aSize
/-- What an MXE trigger leaves (R133, R232): the capture, and the tile that its name maps, a new one of the type if fresh. -/
def MxeLeaves (c : Tile) (fresh int : Bool) (s : State) (x : TrigCtx) (t : State) (y : Sheet) (k : Cmd) : Prop :=
  SameMemory s t ∧ Captures 0 (x.tv.toNat % 4) (x.tv.getLsbD 2) x y k.shape ∧
    (if fresh then ∃ w w', s.wg? x.sh.wg = some w ∧ t.wg? x.sh.wg = some w' ∧ k.tile = w.nextTile ∧ w'.nextTile = w.nextTile + 1 ∧
        lookup y.tileMap c.val = some w.nextTile ∧ getD w'.tileInt false w.nextTile = int
      else lookup x.sh.tileMap c.val = some k.tile)
/-- A matrix product enters (R229 to R231, R438), where no extraction still writes a register that it reads (R244): its registers'
values, unless the reuse latch of the sheet holds those of the same product, and the formats of its banks are captured. -/
def Multiplies (i : Instr) (k : MmaKind) (m : MmaMod) : Prop :=
  Enters i .mxe (fun s x => mmaCheck k m x = [] ∧ x.wgp.isSome ∧ ((latchedRegs k m (x.mf 2) s s.focus).isSome ∨
      ∀ r ∈ mmaRegs k (x.mf 0) (x.mf 1) (x.mf 2), vregBusy s s.focus r = false)) (fun s x t y c => MxeLeaves m.tile m.fresh k.int s x t y c ∧
    (m.fresh = false → lookup y.tileMap m.tile.val = lookup x.sh.tileMap m.tile.val) ∧
    ((m.reuse = false ∨ s.reuse s.focus = none) → c.regs = collect x.sh (mmaRegs k (x.mf 0) (x.mf 1) (x.mf 2))) ∧
    (∀ r, m.reuse = true → s.reuse s.focus = some r → r.sid = s.focus → r.opc = k.opc → r.kblk = x.mf 2 → c.regs = r.regs) ∧
    (∀ w, x.wgp = some w → c.fmts = (mmaBanks k (x.mf 3) (x.mf 2)).map (bankRead w false)))

/-- A CFE trigger (R130, R132): no bit above 10, 0 in a field that the operation does not use, limbs within `.limbs`. -/
def CfeNames (x : TrigCtx) (d : Option Limb) (useA useB : Bool) : Prop :=
  x.tv.toNat < 2 ^ 11 ∧ (if useA then cfeA x.tv < x.kernel.limbs else cfeA x.tv = 0) ∧
    (if useB then cfeB x.tv < x.kernel.limbs else cfeB x.tv = 0) ∧ (∀ k, d = some k → k.val < x.kernel.limbs)
/-- A result tag under BOUND (R242), and the checks of R243 on it. -/
def boundTag (bound : Nat) (sg : Bool) (s n b : Nat) (d : Bool) : LimbTag :=
  if bound = 0 then ⟨sg, s, n, min b (2 ^ 64 - 1), d⟩ else ⟨sg, s, n, bound, true⟩
def TagFits (t : LimbTag) : Prop := t.n * t.s ≤ 1024 ∧ t.b ≤ (if t.sg then 2 ^ (t.s - 1) - 1 else 2 ^ t.s - 1)
/-- The product's bound p of R242. -/
def productBound (a b : LimbTag) : Nat := min a.n b.n * a.b * b.b
/-- A CFE command enters, reading and writing limbs of its workgroup, and the destination's tag becomes `tag` (R240 to R242). -/
def Tags (i : Instr) (d : Limb) (useA useB : Bool) (ok : TrigCtx → Prop) (reads : TrigCtx → List Nat)
    (tag : TrigCtx → Option LimbTag) : Prop :=
  Enters i .cfe (fun _ x => CfeNames x (some d) useA useB ∧ ok x) (fun s x t y c =>
    SameMemory s t ∧ Captures 1 (cfeH x.tv) (cfeSwap x.tv) x y c.shape ∧
    c.reads = (reads x).map (Res.limb x.sh.wg) ∧ c.writes = [.limb x.sh.wg d.val] ∧
    ((t.wg? x.sh.wg).bind (fun w => lookup w.tags d.val)) = tag x ∧
    (∀ k, k ≠ d.val → ((t.wg? x.sh.wg).bind (fun w => lookup w.tags k)) = x.tag k))
/-- The tag of a limb, where it carries one. -/
def TrigCtx.tagOr (x : TrigCtx) (k : Nat) : LimbTag := (x.tag k).getD ⟨false, 0, 0, 0, false⟩
/-- The result tags of R242, with A, B and the destination. -/
def mulTagOf (x : TrigCtx) (b : LimbTag) : LimbTag :=
  let a := x.tagOr (cfeA x.tv)
  boundTag (x.cf 6) (a.sg || b.sg) a.s (a.n + b.n - 1) (productBound a b) (a.d || b.d)
def macTagOf (x : TrigCtx) (d : Limb) : LimbTag :=
  let a := x.tagOr (cfeA x.tv)
  let b := x.tagOr (cfeB x.tv)
  let t := x.tagOr d.val
  boundTag (x.cf 6) (a.sg || b.sg || t.sg) a.s (max t.n (a.n + b.n - 1)) (t.b + productBound a b) (a.d || b.d || t.d)
def sumTagOf (x : TrigCtx) (sub : Bool) : LimbTag :=
  let a := x.tagOr (cfeA x.tv)
  let b := x.tagOr (cfeB x.tv)
  boundTag (x.cf 6) (a.sg || b.sg || sub) a.s (max a.n b.n) (a.b + b.b) (a.d || b.d)
def shiftTagOf (x : TrigCtx) : LimbTag :=
  let a := x.tagOr (cfeA x.tv)
  boundTag (x.cf 6) a.sg a.s (a.n + (x.x 0 0).toNat) a.b a.d
/-- Two tagged limbs of one stride, each of at most 512 bits (R243). -/
def Factors (x : TrigCtx) (k l : Nat) : Prop :=
  (x.tag k).isSome ∧ (x.tag l).isSome ∧ (x.tagOr k).s = (x.tagOr l).s ∧ (x.tagOr k).n * (x.tagOr k).s ≤ 512 ∧
    (x.tagOr l).n * (x.tagOr l).s ≤ 512
/-- Both sources untagged, or both tagged with one stride and the sum's tag fitting (R243). -/
def SumOk (x : TrigCtx) (sub : Bool) : Prop :=
  (x.tag (cfeA x.tv) = none ∧ x.tag (cfeB x.tv) = none) ∨
    ((x.tag (cfeA x.tv)).isSome ∧ (x.tag (cfeB x.tv)).isSome ∧ (x.tagOr (cfeA x.tv)).s = (x.tagOr (cfeB x.tv)).s ∧ TagFits (sumTagOf x sub))

/-- The shape registers of a CPY trigger's pair are captured (R131, R133). -/
def CapturesPair (x : TrigCtx) (y : Sheet) (c : Cmd) : Prop :=
  Captures 2 (2 * (x.tv.toNat % 2)) (x.tv.getLsbD 1) x y (c.shape.take 16) ∧
    Captures 2 (2 * (x.tv.toNat % 2) + 1) (x.tv.getLsbD 1) x y (c.shape.drop 16)
/-- No step at an object or a header stands in a sheet's queues, so that no ordering operation that completes makes one (R263, R423). -/
def Stepless (sh : Sheet) : Prop := ∀ a ∈ sh.queue, a.act.atomic = false
/-- A copy's command enters with the formats between which it converts (R182, R248, R250, R397). Its release is in the sheet's
order, and the command does not issue before it is complete: at once where nothing older is outstanding (R217). -/
def Copies (i : Instr) (k : CopyKind) (m : CpyMod) : Prop :=
  Enters i .cpy (fun _ x => copyCheck k m x = [] ∧ x.wgp.isSome)
    (fun s x t y c => (Stepless x.sh → SameMemory s t) ∧ CapturesPair x y c ∧
      (x.sh.queue = [] → (∀ h ∈ s.homeq, h.sid ≠ s.focus) → y.queue = []) ∧
      (x.sh.queue ≠ [] → (∀ a ∈ x.sh.queue, a.kind ≠ .order) →
        ∃ e, y.queue = x.sh.queue ++ [e] ∧ e.act = .trigger c.num ∧ e.rel = some m.scope) ∧
      c.copy? = some (copyFrom k m.scope c.shape c.fmts) ∧ ∀ w, x.wgp = some w → c.fmts = (copyOf k m.scope c.shape w).fmtWords)

/-! ## SYN and SYS -/

/-- A uniform operation completes: where its guard holds and `ok` does, it runs and leaves what `after` says. -/
def Acts (i : Instr) (u : FUnit) (ok : State → Sheet → TrigCtx → Prop) (after : State → Sheet → TrigCtx → State → Sheet → Prop) : Prop :=
  ∀ s sh m, i.move = some m → CanIssue s sh m u → 0 < sh.passes → opRuns s sh m → ok s sh (opCtx s sh m u) →
    ∃ t y, exec i s = .next t ∧ t.sheet? s.focus = some y ∧ after s sh (opCtx s sh m u) t y
/-- Nothing older is outstanding: the sheet's queues are empty, and no store of it is on its way to its home (R206). -/
def Drained (s : State) (sh : Sheet) : Prop := sh.queue = [] ∧ ∀ h ∈ s.homeq, h.sid ≠ s.focus
/-- A result pending in a uniform port, with its number. -/
def Pending (sh y : Sheet) (u : FUnit) (id : Nat) : Prop :=
  ∃ f ∈ y.flights, f.id = id ∧ sh.nextId ≤ id ∧ f.unit = u ∧ f.thread = 0 ∧ f.ready = false ∧ f.stalling = true

/-- A wired barrier that the sheet may name (R255). -/
def BarMay (s : State) (sh : Sheet) (x : TrigCtx) (l : BarLevel) : Prop :=
  x.tv.toNat < levelCount l ∧ (∀ e ∈ s.sheets, e.1 = s.focus → e.2 = sh) ∧
    ∃ w g, s.wg? sh.wg = some w ∧ s.grid? w.grid = some g ∧ (l = .cl → g.lrec.clw ≠ 0) ∧ (l = .grid → g.lrec.coop = true)
/-- The phase plus 1 of the sheet's latest arrival at a barrier (R257). -/
def arrivalOf (sh : Sheet) (l : BarLevel) (n : Nat) : Nat := getD sh.arrivals 0 (levelNum l * 16 + n)
/-- Whether every other member has arrived, so that this sheet is the last: the sheets of the barrier's workgroups, all of which
have started (R256, R257). -/
def LastToArrive (s : State) (sh : Sheet) (l : BarLevel) (n : Nat) : Prop :=
  (∀ e ∈ s.sheets, e.1 ≠ s.focus → sameBar s l sh.wg e.2.wg = true → e.2.left = false →
    memberKey s e.2 ∈ (getBar s sh.wg l n).arrived ++ [memberKey s sh]) ∧
  ∀ e ∈ s.wgs, e.2.started = false → sameBar s l sh.wg e.1 = false
/-- The ordering operations that a sheet still has to complete, and nothing else. -/
def Queued (y : Sheet) (l : List OrdAction) : Prop := y.queue.map (·.act) = l ∧ ∀ a ∈ y.queue, a.kind = .order

/-- A barrier object that a trigger may name (R262, R263): in the A allocation, aligned, in no block that an engine owns, its core
under no scrub, and the turn of the step has come among the steps of this cycle (R197, R265). -/
def ObjectMay (s : State) (sh : Sheet) (x : TrigCtx) (peer : Bool) (wg : Nat) : Prop :=
  Drained s sh ∧ x.tv.toNat < 2 ^ 17 ∧ x.tv.toNat % 16 = 0 ∧ (∃ w, s.wg? sh.wg = some w ∧ x.tv.toNat + 16 ≤ w.aSize) ∧
    objectFree s wg x.tv.toNat = true ∧ stepTurn s wg x.tv.toNat (synRank s s.focus sh peer) = true ∧
    lowerStep s s.focus wg x.tv.toNat (synRank s s.focus sh peer) = false
/-- The object as a state holds it. -/
def objOf (s : State) (wg : Nat) (x : TrigCtx) : Nat := readObj s wg x.tv.toNat
/-- The fields of an object (R261). -/
def ObjIs (o pend expect phase byts waiters : Nat) (valid : Bool) : Prop :=
  objPend o = pend ∧ objExpect o = expect ∧ objPhase o = phase ∧ objBytes o = byts ∧ objWaiters o = waiters ∧ bitAt o 45 = valid
/-- An object after an arrival of `n` (R263): complete where nothing is pending any more. -/
def ObjArrived (o n o' : Nat) : Prop :=
  if objPend o = n ∧ objBytes o = 0 then ObjIs o' (objExpect o) (objExpect o) ((objPhase o + 1) % 16) 0 0 true
  else ObjIs o' (objPend o - n) (objExpect o) (objPhase o) (objBytes o) (objWaiters o) true
/-- BOARR and BOTEST of a target workgroup: resident, they act on the object; away, the request goes on to it, and the commit of
BOARR waits for its answer (R263, R268, R481). -/
def ArrivesAt (i : Instr) (peer : Bool) (target : State → Sheet → TrigCtx → Nat → Prop) : Prop :=
  ∀ wg, Acts i .syn (fun s sh x => target s sh x wg ∧ ObjectMay s sh x peer wg ∧ 1 ≤ (x.x 0 0).toNat ∧ (x.x 0 0).toNat < 2 ^ 20 ∧
      ((s.wg? wg).isSome → objValid (objOf s wg x) = true ∧ (x.x 0 0).toNat ≤ objPend (objOf s wg x)))
    (fun s sh x t y => if (s.wg? wg).isSome then
        Lands s sh y .syn 0 (BitVec.ofNat 64 (objPhase (objOf s wg x))) ∧ ObjArrived (objOf s wg x) (x.x 0 0).toNat (objOf t wg x)
      else ∃ h r, y.held = some h ∧ h.todo = [0] ∧ y.pc = sh.pc ∧ Queued y [.sent 0] ∧ t.peerReqs = s.peerReqs ++ [r] ∧ r.wg = wg ∧
        r.off = x.tv.toNat ∧ r.op = .boarr (x.x 0 0).toNat s.focus 0)
def TestsAt (i : Instr) (peer : Bool) (target : State → Sheet → TrigCtx → Nat → Prop) : Prop :=
  ∀ wg, Acts i .syn (fun s sh x => target s sh x wg ∧ ObjectMay s sh x peer wg)
    (fun s sh x t y => if (s.wg? wg).isSome then
        Lands s sh y .syn 0 (BitVec.ofNat 64 (objOf s wg x)) ∧ objOf t wg x = objOf s wg x
      else ∃ id r, Pending sh y .syn id ∧ Queued y [.held id] ∧ t.peerReqs = s.peerReqs ++ [r] ∧ r.wg = wg ∧ r.off = x.tv.toNat ∧
        r.op = .botest s.focus id)
/-- The sheet's own workgroup; the peer of the rank in X1 (R177). -/
def OwnTarget (_ : State) (sh : Sheet) (_ : TrigCtx) (wg : Nat) : Prop := wg = sh.wg
def PeerTarget (s : State) (sh : Sheet) (x : TrigCtx) (wg : Nat) : Prop :=
  ∃ w g, s.wg? sh.wg = some w ∧ s.grid? w.grid = some g ∧ (x.x 1 0).toNat < g.lrec.clw ∧ wg = peerOf s w g.lrec.clw (x.x 1 0).toNat

/-- A register read delivers a value (R392). -/
def Reads (h : Head) (n : Nat) (ok : State → Sheet → Prop) (v : State → Sheet → Move → W64) : Prop :=
  ∀ s sh m, (Instr.csrrd h).move = some m → CanIssue s sh m .sys → 0 < sh.passes → opRuns s sh m → (opCtx s sh m .sys).tv = BitVec.ofNat 64 n →
    ok s sh → ∃ t y, exec (.csrrd h) s = .next t ∧ t.sheet? s.focus = some y ∧ Lands s sh y .sys 0 (v s sh m) ∧
      y.skipst = (if n = 0x030 then 0 else sh.skipst) ∧ y.fpsr = sh.fpsr ∧ y.fpcr = sh.fpcr ∧ SameMemory s t
/-- A register write takes effect (R392): `X0` is the value. -/
def Writes (h : Head) (n : Nat) (ok : State → Sheet → W64 → Prop) (after : State → Sheet → W64 → State → Sheet → Prop) : Prop :=
  Acts (.csrwr h) .sys (fun s sh x => x.tv = BitVec.ofNat 64 n ∧ ok s sh (x.x 0 0))
    (fun s sh x t y => SameMemory s t ∧ after s sh (x.x 0 0) t y)
/-- A bank format register after a write of `v` (R180): a bank that does not exist ignores it; where an engine owns a block of the
bank the sheet is held, else the register is written, but where a sheet of a lesser context wrote it in this cycle. -/
def BankWritten (isA : Bool) (b : Nat) (s : State) (sh : Sheet) (v : W64) (t : State) (y : Sheet) : Prop :=
  ∀ w, s.wg? sh.wg = some w →
    if bankExists w isA b = true ∧ bankHeld s sh.wg w isA b = true then
      ∃ k, y.sys = .csr k ∧ csrBank k.num = some (isA, b) ∧ k.val = v ∧ Pending sh y .sys k.id
    else Lands s sh y .sys 0 0 ∧ ∃ w', t.wg? sh.wg = some w' ∧
      (bankExists w isA b = false → w'.banks = w.banks) ∧
      (bankExists w isA b = true → (∀ r, lookup w.banks (bankKey isA b) = some r → r.cycle < s.now) → bankRead w' isA b = bankMask isA v)

/-- The system registers that a write may change, beside FPSR (R392). -/
def sysWord (y : Sheet) : BitVec 9 × Bool × Bool × Bool × Bool × BitVec 8 := (y.fpcr, y.cfeSoft, y.cfeGdx, y.markArm, y.markLog, y.skipst)

/-- A sheet stopped at its bundle (R283, R284): it is parked there with a trap record and its registers unchanged, no slot is done. -/
def StopsAt (s t : State) (sh : Sheet) (what : Trap → Prop) : Prop :=
  ∃ y r, t.sheet? s.focus = some y ∧ y.park = .raised ∧ y.trap = some r ∧ r.late = false ∧ r.baddr = sh.pc ∧ r.done = [] ∧ y.pc = sh.pc ∧
    y.v = sh.v ∧ y.s = sh.s ∧ y.p = sh.p ∧ y.ent = sh.ent ∧ y.fpsr = sh.fpsr ∧ y.queue = sh.queue ∧ what r
/-- A stop for what slot 0 raises (R283 to R285): the trap record names the slot and the threads. -/
def StopsSlot (s t : State) (sh : Sheet) (who : Nat → Prop) (what : Trap → Prop) : Prop :=
  StopsAt s t sh (fun r => r.rslot = 0 ∧ r.sfault = [0] ∧ (∀ th, r.fmask.has th = true ↔ who th) ∧ what r)
/-- The same, with its cause and INFO. -/
def Raises (s t : State) (sh : Sheet) (c : Cause) (info : Nat) (who : Nat → Prop) : Prop :=
  StopsSlot s t sh who (fun r => r.cause = c ∧ r.info = info)

/-- The cause that stops an access (R175, R283, R426, R459): at its lowest failing thread, of address `a`, an address that is not
aligned, one outside its space or its peer's allocation, or one whose translation fails (R302 to R304); FADDR is the address, FMASK
the threads that fail. -/
def AccessStops (i : Instr) (u : FUnit) (space : Space) (acc : AccKindT) (align : Nat) (span : LaneIn → Nat × Nat)
    (lacks : State → Reach → Bool) : Prop :=
  ∀ s sh m, i.move = some m → CanIssue s sh m u →
    let passes (th : Nat) : Prop := ∃ r, Reaches s sh m space acc align (span (opIn s sh m u th)) r ∧ lacks s r = false
    ∀ th ∈ opThreads s sh m u, (∀ q ∈ opThreads s sh m u, q < th → passes q) →
    let a := (span (opIn s sh m u th)).1
    let n := (span (opIn s sh m u th)).2
    let stops (c : Cause) (info : Nat) (addr : W64) : Prop := ∃ t, exec i s = .next t ∧ SameButHomes s t ∧
      StopsSlot s t sh (fun q => q ∈ opThreads s sh m u ∧ ¬ passes q) (fun r => r.cause = c ∧ r.info = info ∧ r.faddr = addr)
    (a % align ≠ 0 → stops .alignment 0 (BitVec.ofNat 64 a)) ∧
    (a % align = 0 → space = .g → 2 ^ 48 ≤ a → stops .translation (trInfo acc 5 1) (BitVec.ofNat 64 a)) ∧
    (a % align = 0 → space = .g → a < 2 ^ 48 → 0 < n → a % 4096 + n ≤ 4096 → ∀ f,
      translate (opBegun s sh m) (coreOf s.focus) (s.vfOf sh) (BitVec.ofNat 64 a) acc = .error f → stops f.cause f.info f.addr) ∧
    (a % align = 0 → ∀ w, s.wg? sh.wg = some w → (space = .a ∧ w.aSize < a + n ∨ space = .w ∧ w.wSize < a + n) →
      stops .spaceBounds 0 (BitVec.ofNat 64 a)) ∧
    (a % align = 0 → space = .pa → reachPeer s sh a n = none → stops .spaceBounds 0 (BitVec.ofNat 64 a))
/-- A load, a store, and an atomic of the frame of R367. -/
def LoadStops (i : Instr) (u : LsuUnit) (nox : Bool) (space : Space) (n : Nat) : Prop :=
  AccessStops i u.unit space .load n (fun a => (addrIn nox a, n)) (fun _ _ => false)
def StoreStops (i : Instr) (u : LsuUnit) (nox : Bool) (space : Space) (n : Nat) : Prop :=
  AccessStops i u.unit space .store n (fun a => (addrIn nox a, n)) (fun _ _ => false)
def AtomicStops (i : Instr) (u : LsuUnit) (m : AtomMod) (host : Bool) : Prop :=
  AccessStops i u.unit (ASpace.space m.space) .atomic (if m.dbl then 8 else 4) (fun a => ((a.x0 + a.t).toNat, if m.dbl then 8 else 4))
    (lacksOp m.space m.scope (if host then some (if m.dbl then 1 else 0) else none))

/-- An operation of the FPU or XFU that would raise an enabled flag in some thread (R153): INTERVAL_EMPTY where EI is raised and enabled
in the lowest such thread, else FP_ENABLED; INFO has every flag of the faulting threads, FMASK those threads; FPSR and the latches
receive nothing. -/
def FpStops (i : Instr) (u : FUnit) (f : LaneIn → LaneOut) : Prop :=
  ∀ s sh m, i.move = some m → CanIssue s sh m u →
    let traps (th : Nat) : Bool := Flags.traps sh.fpcr (f (opIn s sh m u th)).flags
    ∀ th ∈ opThreads s sh m u, traps th = true → (∀ q ∈ opThreads s sh m u, q < th → traps q = false) →
    ∃ t, exec i s = .next t ∧ SameMemory s t ∧ StopsSlot s t sh (fun q => q ∈ opThreads s sh m u ∧ traps q = true)
      (fun r => r.cause = (if Flags.trapsEmpty sh.fpcr (f (opIn s sh m u th)).flags then .intervalEmpty else .fpEnabled) ∧
        ∀ b < 6, r.info.testBit b = (opThreads s sh m u).any (fun q => traps q && (f (opIn s sh m u q)).flags.getLsbD b))

/-- A tagged operation whose result tag the checks of R243 refuse faults with GUARD_STATIC; limbs and tags are as before. -/
def GuardStops (i : Instr) (d : Limb) (useA useB : Bool) (bad : TrigCtx → Prop) : Prop :=
  ∀ s sh m, i.move = some m → CanIssue s sh m .cfe → opRuns s sh m → CfeNames (opCtx s sh m .cfe) (some d) useA useB →
    bad (opCtx s sh m .cfe) → ∃ t, exec i s = .next t ∧ SameMemory s t ∧
      (∀ k w, s.wg? k = some w → ∃ w', t.wg? k = some w' ∧ w'.limbs = w.limbs ∧ w'.tags = w.tags) ∧
      Raises s t sh .guardStatic 0 (fun th => sh.active.lowest = some th)

/-- A record address that LAUNCH, LWAIT and IVSPAWN accept: aligned, translated for the access, no sector corrupted among the `n`
bytes that they read at byte `at_` (R282, R424, R433). -/
def RecordAt (s : State) (sh : Sheet) (x : TrigCtx) (acc : AccKindT) (at_ n : Nat) (p : PAddr) : Prop :=
  x.tv.toNat % 64 = 0 ∧ Steady (fun z => translate z (coreOf s.focus) (s.vfOf sh) x.tv acc) s (.ok p) ∧
    ∀ q ∈ s.poisoned, runsMeet (p.pa + at_) n (q * 32) 32 = false
/-- The depth of the sheet's grid (R46). -/
def depthOf (s : State) (sh : Sheet) : Nat := ((s.gridOf sh).map (·.depth)).getD 0

/-! ## Bundles -/

/-- The cycles at which a bundle's passes read, the state and the sheet as it begins to issue, and its moves as read then. -/
def bundleCycle (s : State) (sh : Sheet) (b : Bundle) : Nat → Nat := readCycle s s.focus sh b
def bundleBegun (s : State) (sh : Sheet) (b : Bundle) : State := beginIssue s s.focus sh (bundleCycle s sh b) b.format
def bundleSheet (s : State) (sh : Sheet) (b : Bundle) : Sheet := begunSheet s s.focus sh (bundleCycle s sh b) b.format
def bundleMoves (s : State) (sh : Sheet) (b : Bundle) : List SavedMove :=
  readMoves (bundleBegun s sh b) s.focus (bundleSheet s sh b) b (bundleCycle s sh b 0)

/-- A bundle of register moves that the sheet in focus can issue: as `CanIssue`, with no trigger among its moves. -/
structure CanIssueMoves (s : State) (sh : Sheet) (b : Bundle) : Prop where
  here : s.sheet? s.focus = some sh
  opens : stageOpen s s.focus sh = true
  whole : sh.issuing = none
  slot : slotWaits s s.focus sh b = false
  form : bundleOk sh (s.core (coreOf s.focus)).split b = true
  left : sh.left = false
  clean : sh.corrupt = none
  quiet : sh.armed = false
  legal : ∀ e ∈ liveSlots b, moveOk e.2 (s.kernelOf sh).regs (s.core (coreOf s.focus)).split = true ∧ ∀ u, Dst.ofCode e.2.dst.toNat ≠ some (.t u)
  apart : ∀ e ∈ liveSlots b, ∀ e' ∈ liveSlots b, e.1 ≠ e'.1 → e.2.dst ≠ e'.2.dst
  free : waitingPass (bundleBegun s sh b) s.focus (bundleSheet s sh b) (bundleCycle s sh b) (bundleMoves s sh b) sh.passes 0 = none

/-- What a source delivers to a thread of the bundle, before anything of it is written (R64, R97). -/
def bundleRead (s : State) (sh : Sheet) (b : Bundle) (th : Nat) (src : Src) : W64 :=
  readSrc (bundleBegun s sh b) s.focus (bundleSheet s sh b) th (bundleCycle s sh b 0) src

/-- Registers as before: every vector, uniform and predicate register and operand entry of every sheet, and the workgroup
registers. -/
def KeepsRegisters (s t : State) : Prop :=
  (∀ k x, s.sheet? k = some x → ∃ y, t.sheet? k = some y ∧ y.v = x.v ∧ y.s = x.s ∧ y.p = x.p ∧ y.ent = x.ent) ∧
    (∀ k x, s.wg? k = some x → ∃ y, t.wg? k = some y ∧ y.w = x.w)
/-- Every buffer, bank format, tile, limb and overflow bit of the workgroups as before, and of their tags what `tags` says. -/
def KeepsBuffers (s t : State) (tags : Nat → Workgroup → Workgroup → Prop) : Prop :=
  ∀ k x, s.wg? k = some x → ∃ y, t.wg? k = some y ∧ y.abuf = x.abuf ∧ y.wbuf = x.wbuf ∧ y.banks = x.banks ∧
    y.tiles = x.tiles ∧ y.limbs = x.limbs ∧ y.iovf = x.iovf ∧ tags k x y
/-- Every tag as before; or every one but that of a limb of the sheet in focus's workgroup. -/
def SameTags (_ : Nat) (x y : Workgroup) : Prop := y.tags = x.tags
def TagsBut (s : State) (d : Option Nat) (k : Nat) (x y : Workgroup) : Prop :=
  ∀ l, ¬ (d = some l ∧ (s.sheet? s.focus).map (·.wg) = some k) → lookup y.tags l = lookup x.tags l
/-- The limb that a CFE operation writes (R240). -/
def limbWritten : Instr → Option Nat
  | .cpack _ d => some d.val
  | .cpackv _ d => some d.val
  | .cmul _ d => some d.val
  | .cmac _ d => some d.val
  | .csqr _ d => some d.val
  | .cadd _ d => some d.val
  | .csub _ d => some d.val
  | .cshl _ d => some d.val
  | .cclr _ d => some d.val
  | .cbig _ d => some d.val
  | _ => none
/-- Status as before: FPSR, FPCR, CFECFG, MARKCFG, SKIPST, the patterns and the tile names of every sheet. -/
def KeepsStatus (s t : State) (but : Sheet → Sheet → Prop) : Prop :=
  ∀ k x, s.sheet? k = some x → ∃ y, t.sheet? k = some y ∧ sysWord y = sysWord x ∧ y.xp = x.xp ∧ y.tileMap = x.tileMap ∧
    y.shActive = x.shActive ∧ y.shShadow = x.shShadow ∧ (y.fpsr = x.fpsr ∨ (k = s.focus ∧ but x y))
/-- Status as an engine trigger leaves it: as before, but that the trigger may exchange the copies of its own engine's shape registers
and, of MXE, map or free a tile name of its sheet (R133, R232). -/
def KeepsStatusOutside (s t : State) (eng : Nat) (names : Bool) : Prop :=
  ∀ k x, s.sheet? k = some x → ∃ y, t.sheet? k = some y ∧ sysWord y = sysWord x ∧ y.xp = x.xp ∧ y.fpsr = x.fpsr ∧
    (k ≠ s.focus ∨ names = false → y.tileMap = x.tileMap) ∧ (k ≠ s.focus → y.shActive = x.shActive ∧ y.shShadow = x.shShadow) ∧
    ∀ e h f, e ≠ eng → h < 4 → f < 16 → getD y.shActive 0 (shapeKey e h f) = getD x.shActive 0 (shapeKey e h f) ∧
      getD y.shShadow 0 (shapeKey e h f) = getD x.shShadow 0 (shapeKey e h f)
/-- The unit that an operation triggers. -/
def Triggers (i : Instr) (u : FUnit) : Prop := ∃ m, i.move = some m ∧ Dst.ofCode m.dst.toNat = some (.t u)

/-! ## Events -/

/-- A step of an event is taken, and what `Q` says holds after it. -/
def Does (i : Instr) (s : State) (Q : State → Prop) : Prop := ∃ t, exec i s = .next t ∧ Q t

/-- Nothing but the named part of the state differs, and of it only the one at the key. -/
def OnlySheet (s t : State) (sid : Nat) : Prop := t = { s with sheets := t.sheets } ∧ ∀ k, k ≠ sid → t.sheet? k = s.sheet? k
def OnlyPart (s t : State) (p : Nat) : Prop := t = { s with parts := t.parts } ∧ ∀ k, k ≠ p → t.part k = s.part k
def OnlyCore (s t : State) (c : Nat) : Prop := t = { s with cores := t.cores } ∧ ∀ k, k ≠ c → t.core k = s.core k
def OnlyVf (s t : State) (v : Nat) : Prop := t = { s with vfs := t.vfs } ∧ ∀ k, k ≠ v → t.vf k = s.vf k
/-- The bytes of a run are those given, and every byte outside it is as before where no page is tracked (R192, R310). -/
def WroteRun (s t : State) (pa : Nat) (bs : List Byte) : Prop :=
  (∀ k < bs.length, t.readByte (pa + k) = bs.getD k 0) ∧
    (Untracked s → ∀ a, ¬ (pa ≤ a ∧ a < pa + bs.length) → t.readByte a = s.readByte a)

/-- A result is the only one on its way to its latch and thread. -/
def OnlyFlight (sh : Sheet) (f : Flight) : Prop := f ∈ sh.flights ∧ ∀ g ∈ sh.flights, g.unit = f.unit → g.thread = f.thread → g = f
/-- A result has reached its latch. -/
def Landed (y : Sheet) (f : Flight) (q w : Option W64) : Prop :=
  (∀ v, q = some v → y.getQ f.unit 0 f.thread = v) ∧ (∀ v, w = some v → y.getQ f.unit 1 f.thread = v)

/-- The bytes that a load finds at its places (R199, R201): its buffer's, or the home's where its core has no word of them and no
store on its way, and no store on its way stands before the load on its route (R13), with the bytes of older stores of its sheet
over them. -/
def Finds (s : State) (sid : Nat) (pre : List Access) (a : Access) (bs : List Byte) : Prop :=
  if a.space = .g then
    (∀ p ∈ a.places, a.mtAt p ≠ 2 → l1Find s (coreOf sid) (s.colOf sid) (p / 4) = none ∧ ∀ h ∈ s.homeq, h.core ≠ coreOf sid ∧
      (h.flush = false → sameRoute (coreOf sid) (32 * (p / 32)) h.core h.pa = false)) ∧
      bs = a.places.map (fun p => forwardByte pre a p (s.readByte p))
  else ∃ w, s.wg? a.peer = some w ∧
      bs = a.places.map (fun p => forwardByte pre a p (getD (if a.space = .w then w.wbuf else w.abuf) 0 p))
/-- An access that may be performed, in a cycle of its column (R88), whose sectors have crossed its core's port (R317), in no buffer
under scrub (R197), and behind which no ordering operation waits. -/
def MayPerform (s : State) (sid k : Nat) (sh : Sheet) (a : Access) : Prop :=
  s.sheet? sid = some sh ∧ sh.queue[k]? = some a ∧ canPerform s sid (sh.queue.take k) a = true ∧ ownsNow s sid = true ∧
    Access.sectors s sid a ≤ a.paid ∧ underScrub s a = false ∧ ∀ b ∈ sh.queue, b.kind ≠ .order

/-- An arrival at an object (R263): at an invalid object nothing; more bytes than expected, or an arrival where none is pending, set
OVR; else it counts down, and completes the phase where nothing is pending any more. -/
def ObjArrival (o : Nat) (bytes : Option Nat) (o' : Nat) : Prop :=
  if objValid o = false then o' = o
  else match bytes with
    | some m =>
      if objBytes o < m then objOvr o' = true ∧ ObjIs o' (objPend o) (objExpect o) (objPhase o) (objBytes o) (objWaiters o) true
      else if objPend o = 0 ∧ objBytes o = m then ObjIs o' (objExpect o) (objExpect o) ((objPhase o + 1) % 16) 0 0 true
      else ObjIs o' (objPend o) (objExpect o) (objPhase o) (objBytes o - m) (objWaiters o) true
    | none =>
      if objPend o = 0 then objOvr o' = true ∧ ObjIs o' (objPend o) (objExpect o) (objPhase o) (objBytes o) (objWaiters o) true
      else ObjArrived o 1 o'
/-- An arrival taken from its list: it acts on the object of a resident workgroup and wakes those that wait in BOWAIT where the phase
completes; for a workgroup that is away it goes on as a request. -/
def Arrives (s t : State) (a : Arrival) : Prop :=
  SameMemory s t ∧ if (s.wg? a.wg).isSome then
    ObjArrival (readObj s a.wg a.off) a.bytes (readObj t a.wg a.off) ∧
    (objPhase (readObj t a.wg a.off) ≠ objPhase (readObj s a.wg a.off) → ∀ sid x d id, s.sheet? sid = some x → x.wg = a.wg →
      x.wait = .object a.off d id → ∃ y, t.sheet? sid = some y ∧ y.wait = .land id ∧ ∀ e ∈ y.queue, e.act ≠ .held id)
  else ∃ q, t.peerReqs = s.peerReqs ++ [q] ∧ q.part = a.part ∧ q.wg = a.wg ∧ q.off = a.off ∧ q.op = .arrive a.bytes ∧ q.ord = a.ord
/-- An arrival that is not held: its object's block is not engine-owned, its core not under scrub, and its turn has come among the
steps of a cycle (R197, R265); or its workgroup is away. -/
def NotHeld (s : State) (a : Arrival) : Prop :=
  (s.wg? a.wg).isSome → objectFree s a.wg a.off = true ∧ stepTurn s a.wg a.off a.ord = true
/-- A fixed counter has grown (R328) where a context of the partition is resident. -/
def Counts (s t : State) (part ev k : Nat) : Prop :=
  contextResident s part = true → (∀ e ∈ (s.part part).pcsel, 16 ≤ e.1) →
    getD (t.part part).counters 0 (ev - 1) = (getD (s.part part).counters 0 (ev - 1) + k) % 2 ^ 64
/-- A run of bytes of a buffer, in a map that differs nowhere else. -/
def PutRun (m n : SMap Byte) (off : Nat) (bs : List Byte) : Prop :=
  ∀ c, getD n 0 c = if off ≤ c ∧ c < off + bs.length then bs.getD (c - off) 0 else getD m 0 c

/-- A row of a round stands where it goes (R236): in memory, over one piece or two of different pages; in a resident workgroup's A
buffer; on its way to one that is away, or to another device. -/
def RowStands (s t : State) (p : RowPlace) (bs : List Byte) : Prop :=
  match p with
  | .glob [(pa, _)] => WroteRun s t pa bs
  | .glob [(pa, n), (pb, m)] => Untracked s → runsMeet pa n pb m = false → n + m = bs.length →
      (∀ k < n, t.readByte (pa + k) = bs.getD k 0) ∧ ∀ k < m, t.readByte (pb + k) = bs.getD (n + k) 0
  | .glob _ => True
  | .abuf w off => SameMemory s t ∧ (∀ x, s.wg? w = some x → ∃ x', t.wg? w = some x' ∧ PutRun x.abuf x'.abuf off bs) ∧
      (s.wg? w = none → ∃ q, t.peerReqs = s.peerReqs ++ [q] ∧ q.wg = w ∧ q.off = off ∧ q.op = .write bs)
  | .away => SameMemory s t ∧ t.wgs = s.wgs

/-- What a command writes stands where it goes. -/
def OutMade (s t : State) (w : CmdWrite) : Prop :=
  match w with
  | .abuf g off bs => ∀ x, s.wg? g = some x → ∃ x', t.wg? g = some x' ∧ x'.readBuf true off bs.length = bs
  | .wbuf g off bs => ∀ x, s.wg? g = some x → ∃ x', t.wg? g = some x' ∧ x'.readBuf false off bs.length = bs
  | .glob pa bs => ∀ k < bs.length, t.readByte (pa + k) = bs.getD k 0
  | .tile g p row l => l.length ≤ 128 → ∀ x, s.wg? g = some x → ∃ x', t.wg? g = some x' ∧ ∀ j < l.length, getD x'.tiles 0 (tileKey p row j) = l.getD j 0
  | .limb g k v => ∀ x, s.wg? g = some x → ∃ x', t.wg? g = some x' ∧ getD x'.limbs 0 k = v
  | .vreg sid key v => ∀ x, s.sheet? sid = some x → ∃ x', t.sheet? sid = some x' ∧ getD x'.v 0 key = v
/-- A cause stops a command (R225): it keeps its entry, its operands and its results' places with the cause, and its sheet will
stop. -/
def Halts (t : State) (core e : Nat) (c : Cmd) (sh : Sheet) (cause : Cause) (info : Nat) : Prop :=
  (∃ c', t.cmd? core e = some c' ∧ c'.phase = .stopped ∧ c'.cause = cause ∧ c'.info = info ∧ c'.reads = c.reads ∧ c'.writes = c.writes) ∧
    ∃ y r, t.sheet? c.sid = some y ∧ y.lates = sh.lates ++ [r] ∧ r.cause = cause ∧ r.late = true ∧ r.ent = e ∧ r.baddr = c.baddr
/-- The same, with global memory unchanged outside the bytes that a copy has written and those of stores on their way (R13). -/
def Stops (s t : State) (core e : Nat) (c : Cmd) (sh : Sheet) (cause : Cause) (info : Nat) : Prop :=
  (c.copy? = none → SameMemory s t) ∧
    (Untracked s → ∀ a, (∀ pa bs, .glob pa bs ∈ (writtenAt s core c).1 → ¬ (pa ≤ a ∧ a < pa + bs.length)) →
      (∀ h ∈ s.homeq, ¬ (h.pa ≤ a ∧ a < h.pa + h.bytes.length)) → t.readByte a = s.readByte a) ∧
    Halts t core e c sh cause info
/-- No contribution of a round is the command of a copy, as none is that an MXRED made (R237). -/
def PlainContribs (s : State) (r : Round) : Prop :=
  ∀ c ∈ r.contribs, ∀ p ∈ (s.core c.core).cmds, p.2.num = c.num → p.2.copy? = none
/-- A limb of a workgroup as a word. -/
def limbWord (w : Workgroup) (k : Nat) : BitVec 1024 := getD w.limbs 0 k
/-- The operands of a command are due to be consumed. -/
def DueToConsume (s : State) (core e : Nat) (c : Cmd) : Prop :=
  core < 1536 ∧ e < 32 ∧ s.cmd? core e = some c ∧ c.phase = .started ∧ c.start + (c.cycles s).1 ≤ s.cycle core
/-- A CFE command computes a limb (R240, R246). -/
def LimbResult (s : State) (core e : Nat) (c : Cmd) (op : Instr) (d : Limb) (f : Workgroup → BitVec 1024) : Prop :=
  ∀ w, DueToConsume s core e c → c.op = op → c.unit = .cfe → s.wg? c.wg = some w →
    Does (.operandsConsumed core e) s (fun t => SameMemory s t ∧ ∃ c', t.cmd? core e = some c' ∧ c'.phase = .consumed ∧
      c'.outs = [.limb c.wg d.val (f w)])
/-- An MXE command computes rows (R232, R438 to R443). -/
def MxeResult (s : State) (core e : Nat) (c : Cmd) (op : Instr) (what : Workgroup → Cmd → Prop) : Prop :=
  ∀ w, DueToConsume s core e c → c.op = op → c.unit = .mxe → s.wg? c.wg = some w →
    Does (.operandsConsumed core e) s (fun t => SameMemory s t ∧ ∃ c', t.cmd? core e = some c' ∧ c'.phase = .consumed ∧ what w c')
/-- The rows of a tile that a product writes: of the 16, the element at each column (R232). -/
def WritesTile (w : Workgroup) (c : Cmd) (outs : List CmdWrite) (f : Nat → Nat → Nat) : Prop :=
  ∀ i < 16, ∃ l, outs[i]? = some (.tile c.wg (getD w.tileBind 0 c.tile) i l) ∧ ∀ j < 128, (l.getD j 0).toNat = f i j % 2 ^ 32
/-- C as a product finds it: 0 under `.fresh` (R438). -/
def cellOf (m : MmaMod) (w : Workgroup) (c : Cmd) (i j : Nat) : Nat :=
  if m.fresh then 0 else (getD w.tiles 0 (tileKey (getD w.tileBind 0 c.tile) i j)).toNat
/-- What `n` steps in order make of a value. -/
def inOrder {α : Type} (step : Nat → α → α) : Nat → α → α
  | 0, x => x
  | n + 1, x => step n (inOrder step n x)
/-- The bank format of a product's block, its scale, and element B[k][j] (R181, R231), of a block of `banks` banks. -/
def blockFmt (c : Cmd) (b : Nat) : Nat := (c.fmts.getD b 0).toNat % 16
def blockScale (c : Cmd) (b : Nat) : Nat := (c.fmts.getD b 0).toNat / 2 ^ 32
def weightAt (banks : Nat) (c : Cmd) (w : Workgroup) (b k j : Nat) : Nat :=
  packedAt (tileOf w (c.f 3 + banks * b) (blockFmt c b)) (fmtBits (blockFmt c b)) (128 * k + j)
/-- C after block `b` of an FP8 product (R165): the sum of the 128 products is exact, in units of 2^-18; C plus its product with both
scales is rounded once; a NaN among the elements, in C or in the scales, and 0 times infinity, give the canonical NaN. -/
def fp8Block (c : Cmd) (w : Workgroup) (i j b acc : Nat) : Nat :=
  let av (k : Nat) : FVal := unpack .e4m3 false (aElem c.regs.toArray 8 8 b i k)
  let bv (k : Nat) : FVal := unpack ((fmtFloat (blockFmt c b)).getD .e4m3) false (weightAt 1 c w b k j)
  if (∃ k ∈ List.range 128, (av k).isNan = true ∨ (bv k).isNan = true) ∨ (unpack .f32 false acc).isNan = true then 0x7FC00000
  else
    let sm := sum128 (fun k => units9 (av k) * units9 (bv k))
    let x := (mulVal (.fin (decide (sm < 0)) sm.natAbs (-18)) (unpack .f32 false (aScale c.regs.toArray 8 (c.f 2) b i))).bind
      (fun y => mulVal y (unpack .f32 false (blockScale c b)))
    match x with
    | none => 0x7FC00000
    | some (.fin n m e) => (fpAdd .f32 .rne false (unpack .f32 false acc) (.fin (n && m != 0) m e)).1
    | some y => (fpAdd .f32 .rne false (unpack .f32 false acc) y).1
/-- C after block `b` of a BF16 product (R166): its eight groups of 16 consecutive k, in order. -/
def bf16Block (c : Cmd) (w : Workgroup) (i j b acc : Nat) : Nat :=
  let av (k : Nat) : FVal := unpack .bf16 false (aElem c.regs.toArray 16 16 b i k)
  let bv (k : Nat) : FVal := unpack .bf16 false (packedAt (tileOf w (c.f 3 + 2 * b) (blockFmt c b)) 16 (128 * k + j))
  inOrder (fun g x => bf16Group ((List.range 16).map (fun q =>
    if (av (16 * g + q)).isNan || (bv (16 * g + q)).isNan then none else mulVal (av (16 * g + q)) (bv (16 * g + q)))) x) 8 acc
/-- The sum of the 128 integer products of a block (R167). -/
def int8Sum (c : Cmd) (w : Workgroup) (i j b : Nat) : Int :=
  sum128 (fun k => signed 8 (aElem c.regs.toArray 8 8 b i k) * signed (fmtBits (blockFmt c b)) (weightAt 1 c w b k j))
/-- C, as an integer modulo 2^32, and whether a block has overflowed, after block `b` of an INT8 product (R167). -/
def int8Block (c : Cmd) (w : Workgroup) (i j b : Nat) (r : BitVec 32 × Bool) : BitVec 32 × Bool :=
  let v := r.1.toInt + int8Sum c w i j b
  (BitVec.ofInt 32 v, r.2 || decide (v < -(2 ^ 31 : Int)) || decide ((2 ^ 31 : Int) ≤ v))
/-- The element that MXDRAIN writes, by the table of R234, of a tile type into a format, with DSCALE. -/
def drained (int : Bool) (dfmt scale : Nat) (v : BitVec 32) : Nat :=
  let sc := unpack .f32 false scale
  let x := (fpMul .f32 .rne false (unpack .f32 false v.toNat) sc).1
  if int then
    if dfmt = 5 then v.toNat
    else if dfmt = 0 then (fpMul .f32 .rne false (ofInt v.toInt) sc).1
    else match mulVal (ofInt v.toInt) sc with
      | some y => ((toInt 8 .rne y).1 % 256).toNat
      | none => 0
  else if dfmt = 0 then x
  else if dfmt = 1 then (fpConv .bf16 .rne false (unpack .f32 false x)).1
  else if dfmt = 2 then (fpConv .f16 .rne false (unpack .f32 false x)).1
  else (toNarrowCode .e4m3 false .f32 x).1
/-- The packed value of CNT elements of a bit string, ESTEP bits apart, at weights STRIDE apart, in reverse under REV (R171, R240). -/
def packed (c : Cmd) (str : Nat) : Int :=
  ((List.range (c.f 2)).map (fun i =>
    let e := bits str (c.f 4 * i) (ewWidth (c.f 1))
    (if ewSigned (c.f 1) then signed (ewWidth (c.f 1)) e else (e : Int)) *
      (2 ^ (c.f 3 * (if c.f 5 = 1 then c.f 2 - 1 - i else i)) : Nat))).sum
/-- The rest of a value and its coefficient, by the recursion of R173. -/
def coefOf (s : Nat) (sg : Bool) (rem : Int) : Int :=
  let f := rem % (2 ^ s : Nat)
  if sg ∧ (2 ^ (s - 1) : Nat) ≤ f then f - (2 ^ s : Nat) else f
def remAt (s : Nat) (sg : Bool) (v : Int) : Nat → Int
  | 0 => v
  | m + 1 => (remAt s sg v m - coefOf s sg (remAt s sg v m)) / (2 ^ s : Nat)
/-- Coefficient FIRST + q of the limb that an extraction reads, and its check (R244). -/
def extracted (c : Cmd) (w : Workgroup) (q : Nat) : Int :=
  let s := (c.regs.getD 0 0).toNat
  let sg := c.regs.getD 1 0 == 1
  coefOf s sg (remAt s sg (limbWord w (cfeA c.trig)).toInt (c.f 9 + q))
def guardFails (c : Cmd) (w : Workgroup) (q : Nat) : Prop :=
  let v := extracted c w q
  let v := if c.regs.getD 1 0 = 1 then (v.natAbs : Int) else v
  (c.f 6 ≠ 0 ∧ (c.f 6 : Int) < v) ∨ (c.f 6 = 0 ∧ c.regs.getD 2 0 = 1 ∧ ((c.regs.getD 3 0).toNat : Int) < v)
/-- What an extraction writes for element `q` (R244): at SRC + q × OUTSTEP in A, or in thread q of register SRC. -/
def extracts (toV : Bool) (c : Cmd) (w : Workgroup) (q : Nat) : CmdWrite :=
  let v := coefOut (c.f 7) (extracted c w q)
  if toV then .vreg c.sid (tkey (c.f 0) q) (BitVec.ofInt 64 v)
  else .abuf c.wg (c.f 0 + q * c.f 8) (leBytes (outBytes (c.f 7)) (v % (2 ^ (8 * outBytes (c.f 7)) : Nat)).toNat)
/-- An extraction (R244): its elements in order; the first beyond the check bound stops it, or, under GSOFT, is written and sets GDX. -/
def Extracts (s : State) (core e : Nat) (c : Cmd) (op : Instr) (toV : Bool) : Prop :=
  ∀ w sh, DueToConsume s core e c → c.op = op → c.unit = .cfe → c.at_ = 0 → s.wg? c.wg = some w → s.sheet? c.sid = some sh →
    scrubHolds s c.wg = false →
    ((sh.cfeSoft = true ∨ ∀ q < c.f 10, ¬ guardFails c w q) → Does (.operandsConsumed core e) s (fun t => SameMemory s t ∧
      (∃ c', t.cmd? core e = some c' ∧ c'.phase = .consumed ∧ c'.outs = (List.range (c.f 10)).map (extracts toV c w)) ∧
      ∃ y, t.sheet? c.sid = some y ∧ (y.cfeGdx = true ↔ sh.cfeGdx = true ∨ ∃ q < c.f 10, guardFails c w q))) ∧
    ∀ q < c.f 10, sh.cfeSoft = false → guardFails c w q → (∀ p < q, ¬ guardFails c w p) →
      Does (.operandsConsumed core e) s (fun t => SameMemory s t ∧ Halts t core e c sh .guardData (c.f 9 + q) ∧
        ∀ p, p + 1 = q → OutMade s t (extracts toV c w p))
/-- Where `n` bytes at an address of a copy's space lie: within its buffer, or on one page of global memory that its core's cache
holds, translated for the copy, and free of corrupted sectors where it reads them. -/
def PlaceAt (s : State) (core vf : Nat) (space : Space) (size : Nat) (acc : AccKindT) (a : Int) (n p : Nat) : Prop :=
  0 ≤ a ∧ if space = .g then
    a.toNat + n ≤ 2 ^ 48 ∧ a.toNat % 4096 + n ≤ 4096 ∧ (lookup (s.core core).tlb (tlbKey vf a.toNat)).isSome ∧
      (∃ mt, Steady (fun z => translate z core vf (BitVec.ofNat 64 a.toNat) acc) s (.ok ⟨p, mt⟩)) ∧
      ∀ q ∈ s.poisoned, runsMeet p n (q * 32) 32 = false
  else a + n ≤ size ∧ p = a.toNat
/-- A byte of a place of a space, and the byte that a command's writes put there. -/
def spaceByte (s : State) (w : Workgroup) (space : Space) (p : Nat) : Byte :=
  if space = .g then s.readByte p else if space = .a then getD w.abuf 0 p else getD w.wbuf 0 p
def outByte (outs : List CmdWrite) (space : Space) (wg p : Nat) : Option Byte :=
  outs.findSome? (fun o => match o with
    | .glob a bs => if space = .g ∧ a ≤ p then bs[p - a]? else none
    | .abuf g a bs => if space = .a ∧ g = wg ∧ a ≤ p then bs[p - a]? else none
    | .wbuf g a bs => if space = .w ∧ g = wg ∧ a ≤ p then bs[p - a]? else none
    | _ => none)
/-- The loop indices, the index number q and the element offsets of iteration `k` of a copy (R249, R398), `x` its IDX[q]. -/
def loopAt (k : CopyShape) (n j : Nat) : Nat := n / ((List.range j).map (fun i => k.w (6 + i))).prod % k.w (6 + j)
def indexNo (k : CopyShape) (n : Nat) : Nat :=
  loopAt k n 1 + k.w 7 * (loopAt k n 2 + k.w 8 * (loopAt k n 3 + k.w 9 * (loopAt k n 4 + k.w 10 * loopAt k n 5)))
def srcElem (k : CopyShape) (n : Nat) (x : Int) : Int :=
  if k.kind = .gath then loopAt k n 0 * k.sstr 0 + x * k.sstr 1 else ((List.range 6).map (fun j => (loopAt k n j : Int) * k.sstr j)).sum
def dstElem (k : CopyShape) (n : Nat) (x : Int) : Int :=
  if k.kind = .scat then loopAt k n 0 * k.dstr 0 + x * k.dstr 1 else ((List.range 6).map (fun j => (loopAt k n j : Int) * k.dstr j)).sum
/-- A copy without conversion moves its elements (R249, R398): where its places are known, no destination element is written twice and
none is a source, each destination element receives the bytes of its source element, or the low bytes of FILL. -/
def Moves (s : State) (core e : Nat) (c : Cmd) : Prop :=
  ∀ k w sh (sp dp : Nat → Nat) (x : Nat → Int) (ip : Nat → Nat), DueToConsume s core e c → readSectors s core c ≤ c.paid → c.copy? = some k →
    k.conv = none → k.w 5 ≤ 4 → k.scope ≠ .wg → k.dstSpace ≠ .pa → k.srcSpace ≠ .pa → s.homeq = [] → s.wg? c.wg = some w →
    s.sheet? c.sid = some sh → sh.wg = c.wg →
    let z : Nat := 2 ^ k.w 5
    (∀ n < k.total, (k.indexed = true → PlaceAt s core (s.vfOf sh) .g 0 .engine (k.idx + indexNo k n * k.idxBytes) k.idxBytes (ip n) ∧
        x n = signed (8 * k.idxBytes) (s.readNat (ip n) k.idxBytes)) ∧
      (k.kind ≠ .fill → PlaceAt s core (s.vfOf sh) k.srcSpace (spaceSize w k.srcSpace) .engine (k.src + srcElem k n (x n) * z) z (sp n)) ∧
      PlaceAt s core (s.vfOf sh) k.dstSpace (spaceSize w k.dstSpace) .engineStore (k.dst + dstElem k n (x n) * z) z (dp n)) →
    (∀ n < k.total, ∀ l < k.total, n ≠ l → runsMeet (dp n) z (dp l) z = false) →
    (k.kind ≠ .fill → k.srcSpace = k.dstSpace → ∀ n < k.total, ∀ l < k.total, runsMeet (sp n) z (dp l) z = false) →
    Does (.operandsConsumed core e) s (fun t => SameMemory s t ∧ ∃ c', t.cmd? core e = some c' ∧ c'.phase = .consumed ∧
      ∀ n < k.total, ∀ b < z, outByte c'.outs k.dstSpace c.wg (dp n + b) =
        some (if k.kind = .fill then BitVec.ofNat 8 (k.fillVal / 2 ^ (8 * b)) else spaceByte s w k.srcSpace (sp n + b)))
/-- An MXRED sends its rows (R237, R442): its contribution joins the round of its group and ROFF, which it opens if it is the first. -/
def Contributes (s : State) (core e : Nat) (c : Cmd) (op : Instr) : Prop :=
  ∀ w sh g m, DueToConsume s core e c → readSectors s core c ≤ c.paid → c.op = op → s.wg? c.wg = some w → s.sheet? c.sid = some sh →
    s.group (s.partOf sh) (c.f 7) = some g → Group.index g s.deviceNo (coreOf c.sid) (s.colOf c.sid) = some m →
    Does (.operandsConsumed core e) s (fun t => SameMemory s t ∧ (∃ c', t.cmd? core e = some c' ∧ c'.phase = .consumed ∧ c'.outs = c.outs) ∧
      ∃ r k, getRound t (s.partOf sh) (c.f 7) (c.f 8) = some r ∧
        r.contribs = ((getRound s (s.partOf sh) (c.f 7) (c.f 8)).map (·.contribs)).getD [] ++ [k] ∧ k.m = m ∧ k.sid = c.sid ∧ k.wg = c.wg ∧
        k.num = c.num ∧ k.rows.length = 128 * Group.rows g ∧
        ∀ i < Group.rows g, ∀ j < 128, k.rows.getD (128 * i + j) 0 = getD w.tiles 0 (tileKey (getD w.tileBind 0 c.tile) i j))

/-- A grid stops (R48): it ends for a reason, unless it ends already; none of its workgroups, nor a sheet of them, remains. -/
def GridEnds (s t : State) (gn : Nat) (why : Cause × Nat) : Prop :=
  (∀ g, s.grid? gn = some g → ∃ g', t.grid? gn = some g' ∧ g'.ending = some (g.ending.getD why) ∧ g'.kernel = g.kernel ∧ g'.record = g.record) ∧
    (∀ k w, t.wg? k = some w → w.grid ≠ gn) ∧
    ∀ sid sh w, s.sheet? sid = some sh → s.wg? sh.wg = some w → w.grid = gn → t.sheet? sid = none
/-- A stopped sheet takes another park state; nothing else changes. -/
def Parks (s t : State) (sid : Nat) (sh : Sheet) (p : Park) (r : Trap) : Prop :=
  OnlySheet s t sid ∧ t.sheet? sid = some { sh with park := p, trap := some r }
/-- The reported slot is skipped in the threads where it faulted (R279): SKIPST receives the cause, the sheet may resume. -/
def Skips (s t : State) (sid : Nat) (sh : Sheet) (r : Trap) : Prop :=
  OnlySheet s t sid ∧ ∃ r' m, t.sheet? sid = some { sh with park := .resume, skipst := BitVec.ofNat 8 r.cause.code, trap := some r' } ∧
    r'.skips.head? = some (r.rslot, m) ∧ (∀ th, r.fmask.has th = true → m.has th = true) ∧ r'.blocks = r.blocks ∧ r'.done = r.done ∧
    r'.waive = r.waive ∧ r'.cause = r.cause

/-- What the library makes of the reported move of a parked sheet (R288): no emulation, OP_UNASSIGNED; else its results stand in the
latches and its flags in FPSR, and the move is done, or the stop goes on where an enabled flag is raised, INFO the flags of the threads
that raise one. -/
def Emulates (sh y : Sheet) (r : Trap) (m : SavedMove) (u : FUnit) : Prop :=
  (emuOuts sh m u = none → y = { sh with park := .raised, trap := some { r with cause := .opUnassigned } }) ∧
  ∀ l, emuOuts sh m u = some l → y.v = sh.v ∧ y.s = sh.s ∧ y.p = sh.p ∧ y.pc = sh.pc ∧
    (sh.flights = [] → ∀ e ∈ l, y.getQ u 0 e.1 = e.2.1) ∧
    (∀ b, y.fpsr.getLsbD b = (sh.fpsr.getLsbD b || l.any (fun x => x.2.2.2.getLsbD b))) ∧
    (emuTraps sh l = [] → y.park = .resume ∧ ∃ r', y.trap = some r' ∧ m.slot ∈ r'.done ∧ ∀ b ∈ r'.blocks, b.slot ≠ m.slot) ∧
    ∀ e, m.slot ∉ r.waive → (emuTraps sh l).head? = some e → y.park = .raised ∧ ∃ r', y.trap = some r' ∧ r'.done = r.done ∧
      r'.blocks = r.blocks ∧ r'.cause = (if Flags.trapsEmpty sh.fpcr e.2 then .intervalEmpty else .fpEnabled) ∧
      ∀ b < 6, r'.info.testBit b = (emuTraps sh l).any (fun x => x.2.getLsbD b)
/-- The answer of service `k` for a partition, `v` the driver's (R463). -/
def svcValue (s : State) (part k : Nat) (v : W64) : W64 :=
  if k = 0 then Config.firmwareVersion.setWidth 64 else if k = 1 then BitVec.ofNat 64 s.deviceNo
  else if k = 2 then BitVec.ofNat 64 part else if k = 3 then BitVec.ofNat 64 (s.part part).polid
  else if 0x8000 ≤ k then v else BitVec.allOnes 64

/-- A failed submission (R352): the error register counts, holds the code and the address, and bit 1 of IRQST is set, vector 0 raised
where it was not (R351). -/
def SubmissionFails (s t : State) (vf code : Nat) (va : W64) : Prop :=
  OnlyVf s t vf ∧ (t.vf vf).lerrCount = min ((s.vf vf).lerrCount + 1) (2 ^ 32 - 1) ∧ (t.vf vf).lerrCode = code ∧
    (t.vf vf).leaddr.toNat = va.toNat ∧ (t.vf vf).irqst = (s.vf vf).irqst ||| 2 ∧
    (t.vf vf).msix = (s.vf vf).msix + (if (s.vf vf).irqst ||| 2 = (s.vf vf).irqst then 0 else 1) ∧ (t.vf vf).part = (s.vf vf).part ∧ (t.vf vf).troot = (s.vf vf).troot
/-- STATUS, FDET and RTS of a record at a physical address (R38, R42). -/
def FinalStatus (s t : State) (pa code fdet : Nat) : Prop :=
  WroteRun s t (pa + 48) (leBytes 4 code ++ leBytes 4 fdet ++ leBytes 8 s.ts)
/-- What a record asks for, by the checks of R41 in their order: the first that fails names the code, else a grid is made. -/
def Judged (s : State) (who : Misser) (vf part raw : Nat) (r : LRec) (v : Nat) : Prop :=
  if recBad raw r = true then v = 0x10
  else match loadKernel s who vf part r.kaddr.toNat r.threads with
    | .error (.refuse c) => v = c
    | .error (.miss _) => False
    | .ok (k, s') =>
      if fitsEmpty s' part (needOf k r) r.clw = false then v = 0x12
      else r.coop = false ∧ v = if 4096 ≤ (s'.grids.filter (fun e => e.2.part == part)).length then 0x14 else 0
/-- The state in which the workgroups of a cooperative grid from the host are placed (R55). -/
def coopGrid (s : State) (vf part : Nat) (va : W64) (r : LRec) (k : Kernel) : State :=
  { s.setGrid s.nextGrid (newGrid vf part none 0 va true none r k) with nextGrid := s.nextGrid + 1 }
/-- A spawned launch has entries to launch: at least THRESH, or any at the end of its grid (R51, R52). -/
def SpawnDue (s : State) (q : SpawnReq) (pa : Nat) : Prop :=
  ixSub (qTail s pa) (qLnch s pa) ≠ 0 ∧ (q.atEnd = true ∨ qThresh s pa ≤ ixSub (qTail s pa) (qLnch s pa))
/-- The sheet that a workgroup starts with in a context (R45): registers s0 and s1, the entry, the active threads. -/
def Starts (wg : Nat) (g : Grid) (num : Nat) (y : Sheet) : Prop :=
  y.wg = wg ∧ y.num = num ∧ y.width = g.kernel.width ∧ y.getS 0 = g.lrec.args ∧ y.getS 1 = g.record ∧ y.park = .running ∧ y.v = [] ∧ y.p = [] ∧ y.fpcr = 0 ∧
    (g.restart = none → y.pc = BitVec.ofNat 64 (g.kernel.base + g.kernel.entry)) ∧
    (∀ th < 128, y.active.has th = decide (th < g.kernel.width ∧ num * g.kernel.width + th < g.lrec.threads)) ∧
    ∀ b, g.batch = some b → y.getS 2 = BitVec.ofNat 64 b.first ∧ y.getS 3 = BitVec.ofNat 64 b.count

/-- A partition's request for pre-emption becomes what is given, and nothing else of the machine changes but sheets that waited at a
boundary, which are stopped (R290, R295). -/
def PreemptIs (s t : State) (part : Nat) (p : Option Preempt) (stop : Bool) : Prop :=
  t = { s with parts := t.parts, sheets := t.sheets } ∧ (t.part part).preempt = p ∧ (∀ k, k ≠ part → t.part k = s.part k) ∧
    ∀ sid sh, s.sheet? sid = some sh → ∃ y, t.sheet? sid = some y ∧ (y = sh ∨ (stop = true ∧ sh.park = .boundary ∧ y = { sh with park := .stopped }))
/-- A sheet that stops where it is (R295): everything of it is kept. -/
def StopsHere (t : State) (sid : Nat) (sh : Sheet) : Prop :=
  ∃ y, t.sheet? sid = some y ∧ y.park = .stopped ∧ y.pc = sh.pc ∧ y.v = sh.v ∧ y.s = sh.s ∧ y.p = sh.p ∧ y.ent = sh.ent ∧ y.lat = sh.lat ∧
    y.flights = sh.flights ∧ y.queue = sh.queue ∧ y.sys = sh.sys ∧ y.mask = sh.mask ∧ y.wait = sh.wait
/-- A context saved (R290, R300, R323): its image begins with IMAGE and ends with END, the request is met, the lease is in the image. -/
def Saves (s t : State) (part : Nat) (classD : Bool) : Prop :=
  (t.part part).preempt = none ∧ (t.part part).lease = none ∧ (t.part part).image.getLast? = some .end_ ∧
    ∃ troots, (t.part part).image.head? = some (.image s.deviceNo Config.firmwareVersion (t.part part).image.length part classD
      ((s.part part).boundKey.getD 0) troots)

/-- A management request without its group's semaphore is refused and changes nothing (R354). -/
def NeedsSemaphore (i : Instr) (s : State) (port g : Nat) : Prop := getD s.sems 0 g ≠ port + 1 → exec i s = .next { s with reply := 1 }
/-- A management request refused by its own rule: the answer is 1, nothing else changes. -/
def Refused (i : Instr) (s : State) : Prop := exec i s = .next { s with reply := 1 }
/-- A page-request entry of a die for a page (R307, R308). -/
def Requests (t : State) (die part vf page : Nat) (x : Misser) : Prop :=
  ∃ r ∈ (t.die die).prq, r.part = part ∧ r.vf = vf ∧ r.page = page ∧ x ∈ r.who
/-- Whether a miss finds its entry, or a free one and no earlier miss of its partition that waits for one (R308). -/
def HasRoom (s : State) (die part vf page : Nat) (x : Misser) : Prop :=
  (∃ r ∈ (s.die die).prq, r.part = part ∧ r.vf = vf ∧ r.page = page) ∨
    ((∀ w ∈ ((s.die die).waiting.filter (fun w => w.2.stands s)).takeWhile (fun w => w.2 != x), w.1 ≠ part) ∧
      (prqCount (s.die die).prq part false < 4 ∨
        (prqCount (s.die die).prq part true < min 64 (s.part part).prqcap ∧ ((s.die die).prq.filter (fun r => r.shared)).length < 352)))
/-- The entry of a table for a virtual address at a level (R302). -/
def tableEntry (s : State) (table va level : Nat) : W64 := BitVec.ofNat 64 (s.readNat (table + 8 * (va / 2 ^ (48 - 9 * level) % 512)) 8)

/-- The surplus that a tier finds, when the tiers before it have taken the grants `gs` (R319). -/
def surplusAt (s : State) (ps gs : List Nat) (all : Nat) : Nat → Nat
  | 0 => all
  | n + 1 => surplusAt s ps gs all n - tierCost s n (gs.getD n 0) ps
/-- The partitions of the table that are valid. -/
def validParts (s : State) : List Nat := (List.range 40).filter (fun p => (s.part p).valid)
/-- A rail after a vote, with the confirmations and steps that go with it (R324, R325): a vote that leaves the voltage of a fall
under way as it is changes nothing of the fall. -/
def Voted (s t : State) (rail part mv : Nat) : Prop :=
  let x := s.rail rail
  let top := maxList 650 (vals (setD x.votes 0 part mv))
  let y := t.rail rail
  SameMemory s t ∧ y.mv = x.mv ∧ y.votes = setD x.votes 0 part mv ∧
    (x.mv < top → y.rising = some top ∧ y.fallTo = none ∧ y.fallAt = none) ∧
    (top = x.mv → y.rising = none ∧ y.fallTo = none ∧ y.fallAt = none) ∧
    (top < x.mv → x.fallTo = some top → y.rising = x.rising ∧ y.fallTo = x.fallTo ∧ y.fallAt = x.fallAt) ∧
    (top < x.mv → x.fallTo ≠ some top → y.rising = none ∧ y.fallTo = some top ∧
      (fallClusters s rail top = [] → y.fallAt = some (x.fallAt.getD (s.ts + 50000))) ∧
      (fallClusters s rail top ≠ [] → y.fallAt = none ∧ ∀ cl ∈ fallClusters s rail top, (t.cluster cl).stepAt = s.ts + 250 ∧
        ∀ c ∈ clusterCores cl, (t.core c).confirmed = false))

/-- What the operator reads of a counter under the policy in force (R342): `m` the mode, `p` the parameter. -/
def OperatorReads (s : State) (part n m p v : Nat) : Prop :=
  ((policyOf s part).counters.getD n 0) = m * 2 ^ 14 + p ∧ p < 2 ^ 14 ∧
    v = (if m = 0 then getD (s.part part).counters 0 n else if m = 1 then getD (s.part part).counters 0 n - getD (s.part part).counters 0 n % 2 ^ p
      else if m = 2 then counterAt (s.part part) (s.ts / 1000000 / p * p) n else 2 ^ 64 - 1)
/-- What a reader gets of a counter: a virtual function the value, the operator the filtered value. -/
def ReadsCounter (s : State) (who : Reader) (part n v : Nat) : Prop :=
  match who with
  | .tenant vf => (s.vf vf).part = some part ∧ v = getD (s.part part).counters 0 n
  | .operator => ∃ m p, m < 4 ∧ OperatorReads s part n m p v

/-- A message of a migration session (R362): its session number is the descriptor's, and the session has not been aborted. -/
def OfSession (s : State) (part : Nat) (m : PageMsg) : Prop :=
  msgSid m ≠ 0 ∧ msgSid m = preField (s.part part).precopy.word 160 32 ∧ (s.part part).precopy.state ≠ 4
/-- A message of a session on its way to the other device (R362): its header, and the bytes under AES-256-GCM with the session's key, the
nonce of SID and sequence number, and the header as associated data; it leaves by a port of PORTS for RDEV. -/
def Carries (c : Precopy) (o : Outgoing) (page seq : Nat) (data : List Byte) : Prop :=
  let sid := preField c.word 160 32
  let nonce : BitVec 96 := BitVec.ofNat 96 (sid * 2 ^ 64 + seq % 2 ^ 64)
  o.msg.header = BitVec.ofNat 192 (sid + page * 2 ^ 64 + seq * 2 ^ 128) ∧ o.msg.cipher = Crypto.gcmCrypt c.key nonce data ∧
    o.msg.tag = Crypto.gcmTag c.key nonce (leBytes 24 o.msg.header.toNat) o.msg.cipher ∧
    o.dest = BitVec.ofNat 64 (preField c.word 192 64) ∧ (preField c.word 152 4 ≠ 0 → bitAt (preField c.word 152 4) o.port = true)
/-- The page messages of a round over a partition's bitmap (R361, R362): the tracked pages `ns`, numbered on, with the bytes that memory holds after it. -/
def RoundSent (s t : State) (part : Nat) (ns : List Nat) (p : Precopy) (l : List Outgoing) : Prop :=
  let c := (s.part part).precopy
  p.sent = ns.length ∧ p.seq = c.seq + ns.length ∧ l.length = ns.length ∧
    ∀ k o n, l[k]? = some o → ns[k]? = some n →
      Carries c o (bmFirst (s.part part) + n) (c.seq + k) (t.readBytes ((bmFirst (s.part part) + n) * 4096) 4096)

/-- The bundle at a sheet's pc outside a loop buffer (R92, R93, R302): the bytes that a fetch at its translated addresses reads, 16 of
them or 32 by FMT, decode to it. -/
def Fetches (s : State) (sid : Nat) (sh : Sheet) (i : Instr) : Prop :=
  sh.nest = none ∧ ∃ bs, fetchBytes s sid sh sh.pc 16 = .ok bs ∧ bs.length = 16 ∧
    ((fmtSize bs = 16 ∧ decode bs = .ok i) ∨
      ∃ r, fmtSize bs = 32 ∧ fetchBytes s sid sh (sh.pc + 16) 16 = .ok r ∧ decode (bs ++ r) = .ok i)

end Sys2Proof.Machine
end

