-- ==== Sys2Proof/Certificates/Slice0/Obligations.lean ====
section
/-! DEFINITION. The statements about the model, for the provers. -/

open Sys2Proof Sys2Proof.Machine

/-! ## Decoding, stepping and reset -/

/-- A step takes the next event of the agenda, or else one of the actions that may happen (log 3): where one sheet is ready, its
stage is free, and nothing else may happen, it is the instruction that the sheet's bytes at its pc decode to, with that
sheet in focus (a bundle issues once its fetch, whose steps come before, has brought its lines); where other actions may happen
too, that instruction is one of them. -/
def Obligations.StepRunsDecodedBundle : Prop := ∀ (s : State),
  (∀ i r, s.agenda = i :: r → step s = exec i { s with agenda := r }) ∧
  (s.agenda = [] → ∃ a ∈ actions s, step s = a s ∨ step s = a s.drew) ∧
  (∀ sid sh n, s.sheets = [(sid, sh)] → getD (s.core (coreOf sid)).busy 0 (s.colOf sid) ≤ s.cycle (coreOf sid) →
    readyBundle s (sid, sh) = some n → picks s = [(sid, n)]) ∧
  ∀ sid sh i j, s.sheet? sid = some sh → (∀ e ∈ s.sheets, e.1 = sid → e.2 = sh) → sh.issuing = none → Fetches s sid sh i →
    (sid, Next.issue j) ∈ picks s →
    (∃ a ∈ actions s, ∀ x, a x = exec i { x with focus := sid }) ∧
    (s.agenda = [] → dueSteps s = [] → openSteps s = [] → picks s = [(sid, Next.issue j)] → step s = exec i { s with focus := sid })

/-- Every well-formed instruction ends in a next state, whatever the state; a step ends in a next state or in the fault of an
event that names a unit the device does not have; nothing is refused (R11, R17, R19). That an operation or event whose condition
does not hold answers the state unchanged, and that a unit's number out of range is a fault, are the model's choices (log 7). -/
def Obligations.EveryInstructionEnds : Prop := ∀ (s : State),
  (∀ i : Instr, i.wf = true → ∃ t, exec i s = .next t) ∧ (∀ (i : Instr) (r : Refusal), exec i s ≠ .refused r) ∧
  ((∃ t, step s = .next t) ∨ step s = .fault .noSuchUnit)

/-- Decoding and encoding agree (R92 to R103, R117 to R135): the move of every well-formed operation decodes to the operation,
with every guard, source, UNI bit and modifier; every well-formed bundle and every marker decodes from its bytes, whatever
follows. -/
def Obligations.EncodingRoundTrip : Prop := (∀ (i : Instr) (m : Move), i.wf = true → i.move = some m →
    decodeMove m = .ok i ∧ decodeTableWord 39 (m.word + 2 ^ 38 * ofBool m.uni) = some i) ∧
  (∀ (b : Bundle) (rest : List Byte), (Instr.bundleIssue b).wf = true →
    decode (leBytes (Format.size b.format) b.word ++ rest) = .ok (.bundleIssue b)) ∧
  ∀ (m : Marker) (rest : List Byte), decode (leBytes 16 m.word ++ rest) = .ok (.markerBundle m)

/-- Words written out from the encoding tables decode to what they stand for: the moves ADD of `v3`, SHR `.x1.m32` of `alb.q` if
p2, DIV of −2 if not p15, FFMA `.f64.rup` of `s9`, SIN `.bf16` of `v127` if p7 is undecided, LD `.h.w.nox` of `p1`, BRP
`.ux` of `limm`, MMA `.c5.fresh`, CMUL `.k9`, DFILL `.sys.ch1`, BAR `.grid`, TRAP, an empty narrow bundle and a marker (R94
to R103, R117 to R135). -/
def Obligations.WordsDecode : Prop := decodeMove (Move.ofWord 0b00_0000_0100001111_0000000011_0000001_00000 false) = .ok (.add .ala ⟨.always, 3, false⟩ ⟨false, false⟩) ∧
  decodeMove (Move.ofWord 0b01_0010_0100011111_0011100001_0001001_11000 false) = .ok (.shr .alb ⟨.ifTrue 2, 0x0E1, false⟩ ⟨true, true⟩) ∧
  decodeMove (Move.ofWord 0b10_1111_0100101111_1111111110_0000111_00000 false) = .ok (.div ⟨.ifFalse 15, 0x3FE, false⟩ ⟨false, false⟩) ∧
  decodeMove (Move.ofWord 0b00_0000_0100111111_0010001001_0000100_00110 true) = .ok (.ffma .fpa ⟨.always, 0x089, true⟩ ⟨.f64, .rup⟩) ∧
  decodeMove (Move.ofWord 0b11_0111_0101011111_0001111111_0000110_01100 false) = .ok (.sin ⟨.ifUndecided 7, 127, false⟩ .bf16) ∧
  decodeMove (Move.ofWord 0b00_0000_0101111111_0011010001_0000001_10110 false) = .ok (.ld .lsb ⟨.always, 0x0D1, false⟩ ⟨true, .h, .w⟩) ∧
  decodeMove (Move.ofWord 0b00_0000_0110011111_0011111110_0000101_00010 true) = .ok (.brp ⟨.always, 0x0FE, true⟩ .ux) ∧
  decodeMove (Move.ofWord 0b00_0000_0110101111_0000000000_0000001_01101 true) = .ok (.mma ⟨.always, 0, true⟩ ⟨5, true, false⟩) ∧
  decodeMove (Move.ofWord 0b00_0000_0110111111_0010111111_0000011_01001 true) = .ok (.cmul ⟨.always, 0x0BF, true⟩ 9) ∧
  decodeMove (Move.ofWord 0b00_0000_0111001111_1000000001_0000010_00111 true) = .ok (.dfill ⟨.always, 0x201, true⟩ ⟨.sys, true⟩) ∧
  decodeMove (Move.ofWord 0b00_0000_0111011111_1000000000_0000001_00010 true) = .ok (.bar ⟨.always, 0x200, true⟩ .grid) ∧
  decodeMove (Move.ofWord 0b00_0000_0111101111_1000000000_0000100_00000 true) = .ok (.trap ⟨.always, 0x200, true⟩) ∧
  decode (leBytes 16 (3 + 2 ^ 7 * 5 + 2 ^ 6 + 2 ^ 2 + 2 ^ 36 * 0x3FF + 2 ^ 74 * 0x3FF + 2 ^ 112 * 0x3FF)) =
    .ok (.bundleIssue ⟨.narrow, 5, true, true, [Move.empty, Move.empty, Move.empty]⟩) ∧
  decode (leBytes 16 (1 + 2 ^ 10 * 2 + 2 ^ 24 * 1000 + 2 ^ 64 * 7 + 2 ^ 80 * 9)) = .ok (.markerBundle ⟨9, 7, 1000, 2, false, false⟩)

/-- The memory keeps its canonical form: every step from a state whose memory lists rising addresses and no byte that reads so
unlisted answers such a state. -/
def Obligations.StepKeepsMemoryForm : Prop := ∀ (s t : State), Sys2Proof.Machine.Memory.wf s.mem → step s = .next t →
  Sys2Proof.Machine.Memory.wf t.mem

/-- The machine after reset: the time stamp is 0 (R326); no sheet, grid or launch; ENGA is 31,744 (R319); every partition's
entry has the reset values of R311, FDISP those of R280, WDLIM 2^32 (R281), no rings, tracking, pre-copy or lease; every
core is whole and unowned (R313); clocks are at 940 MHz (R23) and droop caps at 8 (R91); no semaphore is held (R355); the
memory form holds (model's choices: logs 1, 5, 31, 32). -/
def Obligations.ResetState : Prop := State.reset.ts = 0 ∧ State.reset.sheets = [] ∧ State.reset.wgs = [] ∧ State.reset.grids = [] ∧ State.reset.launches = [] ∧
  State.reset.enga = 31744 ∧ State.reset.tieLoser = 0 ∧ (∀ g, getD State.reset.sems 0 g = 0) ∧
  Sys2Proof.Machine.Memory.wf Sys2Proof.Machine.State.reset.mem ∧ (∀ a, State.reset.readByte a = 0) ∧
  (∀ p, let q := State.reset.part p
    q.valid = false ∧ q.memw = 1 ∧ q.rate = 0 ∧ q.tier = 0 ∧ q.floor = 0 ∧ q.prqcap = 64 ∧ q.polid = 0 ∧ q.pinq = 0 ∧ q.xlen = false ∧
    q.wdlim = 2 ^ 32 ∧ q.rings = [] ∧ q.dirty = 0 ∧ q.precopy.state = 0 ∧ q.lease = none ∧ q.image = [] ∧
    ∀ c : Cause, disposition q.fdisp c =
      if c ∈ [.opRetired, .opAbsent, .translation, .spawnOverflow] then 1 else if c = .breakpoint then 2 else 0) ∧
  (∀ c, (State.reset.core c).split = false ∧ (State.reset.core c).ownA = 63 ∧ (State.reset.core c).ownB = 63) ∧
  (∀ c, (State.reset.cluster c).mhz = 940 ∧ (State.reset.cluster c).droopCap = 8 ∧ (State.reset.cluster c).budget = 224) ∧
  (∀ r, (State.reset.rail r).mv = 650) ∧
  ∀ v, (State.reset.vf v).part = none ∧ (State.reset.vf v).irqst = 0 ∧ (State.reset.vf v).lerrCount = 0 ∧ (State.reset.vf v).lerrCode = 0

/-! ## The lane units -/

/-- ADD, SUB, RSUB, LEA and ABS complete, and every active thread's result is the sum, the difference, the reversed difference,
A plus B shifted by the scale, or the absolute value of B modulo 2^n (R370, R374, R431, R371, R444). -/
def Obligations.AluArithmetic : Prop := ∀ (u : AluUnit) (h : Head) (m : X1M32) (l : LeaMod) (m32 : Bool),
  Computes (.add u h m) u.unit (fun _ => aluClass u) (fun i => qOnly (atWidth m.m32 (fun a b => a + b) (i.first m.x1) i.t)) ∧
  Computes (.sub u h m) u.unit (fun _ => aluClass u) (fun i => qOnly (atWidth m.m32 (fun a b => a - b) (i.first m.x1) i.t)) ∧
  Computes (.rsub u h m) u.unit (fun _ => aluClass u) (fun i => qOnly (atWidth m.m32 (fun a b => b - a) (i.first m.x1) i.t)) ∧
  Computes (.lea u h l) u.unit (fun _ => aluClass u)
    (fun i => qOnly (atWidth l.m32 (fun a b => a + (b <<< l.scale.val)) (i.first l.x1) i.t)) ∧
  Computes (.abs u h m32) u.unit (fun _ => aluClass u) (fun i => qOnly (atWidth m32 (fun _ b => b.abs) i.x0 i.t))

/-- AND, OR, XOR and ANDN complete bit by bit; SHL, SHR, SAR and ROL shift and rotate A by B modulo n (R374, R444, R455). -/
def Obligations.AluLogicAndShift : Prop := ∀ (u : AluUnit) (h : Head) (m : X1M32),
  Computes (.and u h m) u.unit (fun _ => aluClass u) (fun i => qOnly (atWidth m.m32 (fun a b => a &&& b) (i.first m.x1) i.t)) ∧
  Computes (.or u h m) u.unit (fun _ => aluClass u) (fun i => qOnly (atWidth m.m32 (fun a b => a ||| b) (i.first m.x1) i.t)) ∧
  Computes (.xor u h m) u.unit (fun _ => aluClass u) (fun i => qOnly (atWidth m.m32 (fun a b => a ^^^ b) (i.first m.x1) i.t)) ∧
  Computes (.andn u h m) u.unit (fun _ => aluClass u)
    (fun i => qOnly (atWidth m.m32 (fun a b => a &&& ~~~b) (i.first m.x1) i.t)) ∧
  Computes (.shl u h m) u.unit (fun _ => aluClass u)
    (fun i => qOnly (atWidth m.m32 (fun {n} a b => a <<< (b.toNat % n)) (i.first m.x1) i.t)) ∧
  Computes (.shr u h m) u.unit (fun _ => aluClass u)
    (fun i => qOnly (atWidth m.m32 (fun {n} a b => a >>> (b.toNat % n)) (i.first m.x1) i.t)) ∧
  Computes (.sar u h m) u.unit (fun _ => aluClass u)
    (fun i => qOnly (atWidth m.m32 (fun {n} a b => a.sshiftRight (b.toNat % n)) (i.first m.x1) i.t)) ∧
  Computes (.rol u h m) u.unit (fun _ => aluClass u)
    (fun i => qOnly (atWidth m.m32 (fun {n} a b => a.rotateLeft (b.toNat % n)) (i.first m.x1) i.t))

/-- MIN, MAX, MINU and MAXU pick an operand by signed or unsigned order; SEL picks A where the code in the entry that A does not
use is 01; the comparisons give 1 or 0 (R386, R436, R456). PAND, POR, PNOT, PSURE and POSS compute three-valued logic on
codes, 11 read as 10 (R158, R445). -/
def Obligations.AluComparesAndLogic : Prop :=
  (∀ (u : AluUnit) (h : Head) (m : X1M32),
  Computes (.min u h m) u.unit (fun _ => aluClass u)
    (fun i => qOnly (atWidth m.m32 (fun a b => if a.sle b then a else b) (i.first m.x1) i.t)) ∧
  Computes (.max u h m) u.unit (fun _ => aluClass u)
    (fun i => qOnly (atWidth m.m32 (fun a b => if a.sle b then b else a) (i.first m.x1) i.t)) ∧
  Computes (.minu u h m) u.unit (fun _ => aluClass u)
    (fun i => qOnly (atWidth m.m32 (fun a b => if a.ule b then a else b) (i.first m.x1) i.t)) ∧
  Computes (.maxu u h m) u.unit (fun _ => aluClass u)
    (fun i => qOnly (atWidth m.m32 (fun a b => if a.ule b then b else a) (i.first m.x1) i.t)) ∧
  Computes (.sel u h m) u.unit (fun _ => aluClass u)
    (fun i => qOnly (atWidth3 m.m32 (fun a b c => if c.setWidth 2 = 1#2 then a else b) (i.first m.x1) i.t (i.third m.x1))) ∧
  Computes (.ceq u h m) u.unit (fun _ => aluClass u)
    (fun i => qOnly (atWidth m.m32 (fun a b => truth (a == b)) (i.first m.x1) i.t)) ∧
  Computes (.cne u h m) u.unit (fun _ => aluClass u)
    (fun i => qOnly (atWidth m.m32 (fun a b => truth (a != b)) (i.first m.x1) i.t)) ∧
  Computes (.clt u h m) u.unit (fun _ => aluClass u)
    (fun i => qOnly (atWidth m.m32 (fun a b => truth (a.slt b)) (i.first m.x1) i.t)) ∧
  Computes (.cle u h m) u.unit (fun _ => aluClass u)
    (fun i => qOnly (atWidth m.m32 (fun a b => truth (a.sle b)) (i.first m.x1) i.t)) ∧
  Computes (.cltu u h m) u.unit (fun _ => aluClass u)
    (fun i => qOnly (atWidth m.m32 (fun a b => truth (a.ult b)) (i.first m.x1) i.t)) ∧
  Computes (.cleu u h m) u.unit (fun _ => aluClass u)
    (fun i => qOnly (atWidth m.m32 (fun a b => truth (a.ule b)) (i.first m.x1) i.t))) ∧
  (∀ (u : AluUnit) (h : Head) (x1 : Bool),
  Computes (.pand u h x1) u.unit (fun _ => aluClass u) (fun i => qOnly (kAnd ((i.first x1).setWidth 2) (i.t.setWidth 2))) ∧
  Computes (.por u h x1) u.unit (fun _ => aluClass u) (fun i => qOnly (kOr ((i.first x1).setWidth 2) (i.t.setWidth 2))) ∧
  Computes (.pnot u h) u.unit (fun _ => aluClass u) (fun i => qOnly (kNot (i.t.setWidth 2))) ∧
  Computes (.psure u h) u.unit (fun _ => aluClass u) (fun i => qOnly (truth (i.t.setWidth 2 == 1#2))) ∧
  Computes (.poss u h) u.unit (fun _ => aluClass u) (fun i => qOnly (truth (i.t.setWidth 2 != 0#2))))

/-- POPC, CLZ, CTZ and BREV count and reverse the bits of B; BFX, BFI and PERM take and place fields and bytes; SEXT and ZEXT
extend the low bits of T; PASS delivers T (R371, R377, R445, R446, R447, R448). -/
def Obligations.AluBitsAndFields : Prop := ∀ (u : AluUnit) (h : Head) (m : X1M32) (bx : BfxMod) (m32 x1 : Bool) (e : ExtWidth),
  Computes (.popc u h m32) u.unit (fun _ => aluClass u) (fun i => qOnly (atWidth m32 (fun _ b => b.cpop) i.x0 i.t)) ∧
  Computes (.clz u h m32) u.unit (fun _ => aluClass u) (fun i => qOnly (atWidth m32 (fun _ b => b.clz) i.x0 i.t)) ∧
  Computes (.ctz u h m32) u.unit (fun _ => aluClass u) (fun i => qOnly (atWidth m32 (fun _ b => b.ctz) i.x0 i.t)) ∧
  Computes (.brev u h m32) u.unit (fun _ => aluClass u) (fun i => qOnly (atWidth m32 (fun _ b => b.reverse) i.x0 i.t)) ∧
  Computes (.bfx u h bx) u.unit (fun _ => aluClass u) (fun i => qOnly (atWidth bx.m32 (fieldOut bx.sgn) (i.first bx.x1) i.t)) ∧
  Computes (.bfi u h m) u.unit (fun _ => aluClass u)
    (fun i => qOnly (atWidth3 m.m32 fieldIn (i.first m.x1) i.t (i.third m.x1))) ∧
  Computes (.perm u h x1) u.unit (fun _ => aluClass u) (fun i => qOnly (permWord (i.first x1) i.t (i.third x1))) ∧
  Computes (.sext u h e) u.unit (fun _ => aluClass u) (fun i => qOnly ((i.t.setWidth (extBits e)).signExtend 64)) ∧
  Computes (.zext u h e) u.unit (fun _ => aluClass u) (fun i => qOnly ((i.t.setWidth (extBits e)).setWidth 64)) ∧
  Computes (.pass u h) u.unit (fun _ => aluClass u) (fun i => qOnly i.t)

/-- MUL, MULH and MULHU deliver the low and the high halves of the product, MULW and MULWU both, MAD the sum of a product and T
(R435). DIV, DIVU, REM and REMU start where no thread divides by zero: quotient and remainder, truncated, are pending in the
stalling port of IMU, due after 36 cycles, or 20 under `.m32`, twice that in split mode (R400, R401, R453). -/
def Obligations.ImuArithmetic : Prop :=
  (∀ (h : Head) (m : X1M32) (m32 : Bool),
  Computes (.mul h m) .imu (fun _ => 2) (fun i => qOnly (atWidth m.m32 (fun a b => a * b) (i.first m.x1) i.t)) ∧
  Computes (.mulh h m) .imu (fun _ => 2) (fun i => qOnly (atWidth m.m32 signedHigh (i.first m.x1) i.t)) ∧
  Computes (.mulhu h m) .imu (fun _ => 2) (fun i => qOnly (atWidth m.m32 unsignedHigh (i.first m.x1) i.t)) ∧
  Computes (.mad h m32) .imu (fun _ => 2) (fun i => qOnly (atWidth3 m32 (fun a b c => a * b + c) i.x0 i.x1 i.t)) ∧
  Computes (.mulw h m) .imu (fun _ => 2) (fun i =>
    ⟨some (atWidth m.m32 (fun a b => a * b) (i.first m.x1) i.t), some (atWidth m.m32 signedHigh (i.first m.x1) i.t), 0⟩) ∧
  Computes (.mulwu h m) .imu (fun _ => 2) (fun i =>
    ⟨some (atWidth m.m32 (fun a b => a * b) (i.first m.x1) i.t), some (atWidth m.m32 unsignedHigh (i.first m.x1) i.t), 0⟩)) ∧
  (∀ (h : Head) (m : X1M32),
  Divides (.div h m) m BitVec.sdiv BitVec.srem ∧ Divides (.divu h m) m BitVec.udiv BitVec.umod ∧
  Divides (.rem h m) m BitVec.srem BitVec.sdiv ∧ Divides (.remu h m) m BitVec.umod BitVec.udiv)

/-- FADD, FSUB, FMUL and FFMA complete and deliver the sum, the difference, the product and X0 × X1 + T, rounded once, with
their flags; FMIN and FMAX the smaller and the larger operand (R405, R406, R411). FCMP, FCLASS, FCVT, FCVTI, ICVTF, FRND and
FSGN complete and deliver the code of the relation, the class bit, the converted or rounded number, and T with its sign bit
changed (R407 to R409, R412, R413). -/
def Obligations.FpuNumbers : Prop :=
  (∀ (u : FpuUnit) (h : Head) (m : FpRnd) (ty : FType),
  Computes (.fadd u h m) u.unit (fun _ => fpClass m.ty) (fun i =>
    qFlags (fpAdd m.ty.fmt m.rnd (ftzOf m.ty i.ftz) (fpRead m.ty i.ftz i.x0) (fpRead m.ty i.ftz i.t))) ∧
  Computes (.fsub u h m) u.unit (fun _ => fpClass m.ty) (fun i =>
    qFlags (fpAdd m.ty.fmt m.rnd (ftzOf m.ty i.ftz) (fpRead m.ty i.ftz i.x0) (fpRead m.ty i.ftz i.t).negate)) ∧
  Computes (.fmul u h m) u.unit (fun _ => fpClass m.ty) (fun i =>
    qFlags (fpMul m.ty.fmt m.rnd (ftzOf m.ty i.ftz) (fpRead m.ty i.ftz i.x0) (fpRead m.ty i.ftz i.t))) ∧
  Computes (.ffma u h m) u.unit (fun _ => fpClass m.ty) (fun i =>
    qFlags (fpFma m.ty.fmt m.rnd (ftzOf m.ty i.ftz) (fpRead m.ty i.ftz i.x0) (fpRead m.ty i.ftz i.x1) (fpRead m.ty i.ftz i.t))) ∧
  Computes (.fmin u h ty) u.unit (fun _ => fpClass ty) (fpMinMax ty true) ∧
  Computes (.fmax u h ty) u.unit (fun _ => fpClass ty) (fpMinMax ty false)) ∧
  (∀ (u : FpuUnit) (h : Head) (r : FpRel) (ty : FType) (m : FpRnd) (k : FpInt)
    (g : FpSgn),
  Computes (.fcmp u h r) u.unit (fun _ => fpClass r.ty) (fun i => fpCompare r.rel (fpRead r.ty i.ftz i.x0) (fpRead r.ty i.ftz i.t)) ∧
  Computes (.fclass u h ty) u.unit (fun _ => fpClass ty) (fun i => qOnly (1 <<< classBit ty.fmt (fpRead ty i.ftz i.t))) ∧
  Computes (.fcvt u h m) u.unit
    (fun i => if m.ty = .f64 ∨ FType.ofCode (i.x0.setWidth 2).toNat = .f64 then 4 else 3)
    (fun i => qFlags (fpConv m.ty.fmt m.rnd (ftzOf m.ty i.ftz) (fpRead (FType.ofCode (i.x0.setWidth 2).toNat) i.ftz i.t))) ∧
  Computes (.fcvti u h k) u.unit (fun _ => fpClass k.ty) (fun i =>
    let n := toInt (if k.i32 then 32 else 64) k.rnd (fpRead k.ty i.ftz i.t)
    ⟨some (BitVec.ofInt 64 n.1), none, n.2⟩) ∧
  Computes (.icvtf u h k) u.unit (fun _ => fpClass k.ty) (fun i =>
    qFlags (deliverVal k.ty.fmt k.rnd (ftzOf k.ty i.ftz) (ofInt (if k.i32 then (i.t.setWidth 32).toInt else i.t.toInt)))) ∧
  Computes (.frnd u h m) u.unit (fun _ => fpClass m.ty)
    (fun i => qFlags (fpRound m.ty.fmt m.rnd (ftzOf m.ty i.ftz) (fpRead m.ty i.ftz i.t))) ∧
  Computes (.fsgn u h g) u.unit (fun _ => fpClass g.ty) (fun i => qOnly (withSign g i.x0 i.t)))

/-- The sixteen interval operations complete and deliver the interval, bound, code or pair of their rules, IVBIS both halves,
with NV and EI alone as flags (R414 to R421). The signs of bounds that are zero, and -0 below +0 in a hull or a meet, are the
model's choice (log 34). -/
def Obligations.FpuIntervals : Prop := ∀ (u : FpuUnit) (h : Head) (r : Rel),
  Computes (.ivadd u h) u.unit (fun _ => 5) (fun i => ivOut (Ival.add i.x0.toNat i.t.toNat)) ∧
  Computes (.ivsub u h) u.unit (fun _ => 5) (fun i => ivOut (Ival.sub i.x0.toNat i.t.toNat)) ∧
  Computes (.ivmul u h) u.unit (fun _ => 5) (fun i => ivOut (Ival.mul i.x0.toNat i.t.toNat)) ∧
  Computes (.ivfma u h) u.unit (fun _ => 5) (fun i => ivOut (Ival.fma i.x0.toNat i.x1.toNat i.t.toNat)) ∧
  Computes (.ivsqr u h) u.unit (fun _ => 5) (fun i => ivOut (Ival.sqr i.t.toNat)) ∧
  Computes (.ivhull u h) u.unit (fun _ => 5) (fun i => ivOut (Ival.hull i.x0.toNat i.t.toNat)) ∧
  Computes (.ivmeet u h) u.unit (fun _ => 5) (fun i => ivOut (Ival.meet i.x0.toNat i.t.toNat)) ∧
  Computes (.ivmid u h) u.unit (fun _ => 5) (fun i => qOnly (Ival.mid i.t.toNat)) ∧
  Computes (.ivwid u h) u.unit (fun _ => 5) (fun i => qOnly (Ival.wid i.t.toNat)) ∧
  Computes (.ivcmp u h r) u.unit (fun _ => 5) (fun i => qOnly (Ival.cmp r i.x0.toNat i.t.toNat)) ∧
  Computes (.ivmake u h) u.unit (fun _ => 5) (fun i => ivOut (Ival.mk (i.x0.toNat % 2 ^ 32) (i.t.toNat % 2 ^ 32))) ∧
  Computes (.ivlo u h) u.unit (fun _ => 5) (fun i => qOnly (Ival.lo i.t.toNat)) ∧
  Computes (.ivhi u h) u.unit (fun _ => 5) (fun i => qOnly (Ival.hi i.t.toNat)) ∧
  Computes (.ivbis u h) u.unit (fun _ => 5) (fun i => ⟨some (Ival.bis i.t.toNat).1, some (Ival.bis i.t.toNat).2, 0⟩) ∧
  Computes (.ivabs u h) u.unit (fun _ => 5) (fun i => ivOut (Ival.abs i.t.toNat)) ∧
  Computes (.ivin u h) u.unit (fun _ => 5) (fun i => qOnly (Ival.isIn i.x0.toNat i.t.toNat))

/-- RCP, RSQ, SQRT, EXP2, LOG2, SIN, COS, TANH, the four interval functions, CVTN and CVTW complete and deliver the value of
their rules; where a rule gives a bound, any value within it (R389, R393, R394, R404, R418, R450, R458; free values of log 19).
That IVRCP and IVSQRT take a zero bound with its sign is the model's choice (log 34). -/
def Obligations.XfuFunctions : Prop := ∀ (h : Head) (ty : XType) (c : CvtnMod) (f : NFmt),
  Computes (.rcp h ty) .xfu (fun _ => 6) (xfuOut ty fpRcp) ∧ Computes (.rsq h ty) .xfu (fun _ => 6) (xfuOut ty fpRsq) ∧
  Computes (.sqrt h ty) .xfu (fun _ => 6) (xfuOut ty (fun g z v _ => fpSqrt g z v)) ∧
  Computes (.exp2 h ty) .xfu (fun _ => 6) (xfuOut ty fpExp2) ∧ Computes (.log2 h ty) .xfu (fun _ => 6) (xfuOut ty fpLog2) ∧
  Computes (.sin h ty) .xfu (fun _ => 6) (xfuOut ty fpSin) ∧ Computes (.cos h ty) .xfu (fun _ => 6) (xfuOut ty fpCos) ∧
  Computes (.tanh h ty) .xfu (fun _ => 6) (xfuOut ty fpTanh) ∧
  Computes (.ivrcp h) .xfu (fun _ => 6) (fun i => ivOut (Ival.rcp i.t.toNat i.free)) ∧
  Computes (.ivsqrt h) .xfu (fun _ => 6) (fun i => ivOut (Ival.sqrt i.t.toNat i.free)) ∧
  Computes (.ivexp2 h) .xfu (fun _ => 6) (fun i => ivOut (Ival.exp2 i.t.toNat i.free)) ∧
  Computes (.ivlog2 h) .xfu (fun _ => 6) (fun i => ivOut (Ival.log2 i.t.toNat i.free)) ∧
  Computes (.cvtn h c) .xfu (fun _ => 6) (fun i => qFlags (narrowOf c (i.t.setWidth 32).toNat)) ∧
  Computes (.cvtw h f) .xfu (fun _ => 6) (fun i => qOnly (widen f i.t.toNat))

/-- SHFI, SHUP, SHDN and SHXR deliver the value of the partner thread if the move executes there, else the thread's own; VOTE,
BALLOT, RDSUM, RDMAX and RDFSUM one value over the threads in which it executes (R375, R451, R457, R466). -/
def Obligations.XfuAcrossThreads : Prop := ∀ (h : Head) (wrap : Bool) (k : VoteKind) (m32 : Bool) (mm : MaxMod) (rf : RdfMod),
  Crosses (.shfi h) 7 (fun x th => fromPartner x th (some (dist x th))) (fun _ => 0) ∧
  Crosses (.shup h wrap) 7 (fun x th => fromPartner x th (if wrap then some ((th + x.sh.width - dist x th % x.sh.width) % x.sh.width)
    else if dist x th ≤ th then some (th - dist x th) else none)) (fun _ => 0) ∧
  Crosses (.shdn h wrap) 7 (fun x th => fromPartner x th (if wrap then some ((th + dist x th) % x.sh.width)
    else some (th + dist x th))) (fun _ => 0) ∧
  Crosses (.shxr h) 7 (fun x th => fromPartner x th (some (Nat.xor th (dist x th)))) (fun _ => 0) ∧
  Crosses (.vote h k) 7 (fun x _ => voteValue k (x.members.map x.val)) (fun _ => 0) ∧
  Crosses (.ballot h) 7 (fun x th => ballotPart x ((x.x 0 th).toNat % 2)) (fun _ => 0) ∧
  Crosses (.rdsum h m32) 6 (fun x _ => sumWord m32 (x.members.map x.val)) (fun _ => 0) ∧
  Crosses (.rdmax h mm) 6 (fun x _ => sext64 (widthOf mm.m32)
    (maxValue (widthOf mm.m32) mm.uns (x.members.map (fun t => (x.val t).toNat % 2 ^ widthOf mm.m32)))) (fun _ => 0) ∧
  Crosses (.rdfsum h rf) 6 (fun x _ => BitVec.ofNat 64 (rdfsumOf rf x).1) (fun x => (rdfsumOf rf x).2)

/-! ## Accesses and control flow -/

/-- LD, LDS, LDP, LDIV, LDA and LDX complete: each executing thread's load of its size, at X0 + T or T alone, is in the load
queue with a result pending; LDA carries an acquire; LDX names the bytes of its element (R189, R426 to R430). -/
def Obligations.LsuLoads : Prop := ∀ (u : LsuUnit) (h : Head) (m : LdMod) (p : LdpMod) (x : LdxMod) (a : LdaMod) (img : BitVec 512),
  PlainLoad (.ld u h m) u m.nox m.space (sizeBytes m.size) 1 .zext none ∧
  PlainLoad (.lds u h m) u m.nox m.space (sizeBytes m.size) 1 .sext none ∧
  PlainLoad (.ldp u h p) u p.nox p.space 16 2 .pair none ∧
  PlainLoad (.ldiv u h p) u p.nox p.space 16 1 .ldiv none ∧
  PlainLoad (.lda u h a) u false a.space (if a.dbl then 8 else 4) 1 .zext (some a.scope) ∧
  (0 < xpNf img → Accesses (.ldx u h x) u.unit x.space .load 1 1 (fun _ i => elementSpan (elementBits x.nox img i))
    (fun sh => lookup sh.xp x.pat.val = some img) (fun _ _ => false) (fun _ i e =>
      e.Is .load (.field ((elementBits x.nox img i).1 % 8) (elementBits x.nox img i).2.1 (elementBits x.nox img i).2.2) [] [] none none))

/-- ST, STP, STL and STIV complete: each executing thread's store, with the little-endian bytes of X1, of X1 and X2, or of the
two bounds of the interval in X1 as f64, is in the store queue; STL carries a release (R459 to R462). -/
def Obligations.LsuStores : Prop := ∀ (u : LsuUnit) (h : Head) (m : LdMod) (p : LdpMod) (a : LdaMod),
  PlainStore (.st u h m) u m.nox m.space (sizeBytes m.size) (fun i => leBytes (sizeBytes m.size) i.x1.toNat) none ∧
  PlainStore (.stp u h p) u p.nox p.space 16 (fun i => leBytes 8 i.x1.toNat ++ leBytes 8 i.x2.toNat) none ∧
  PlainStore (.stiv u h p) u p.nox p.space 16
    (fun i => leBytes 8 (Ival.toF64 i.x1.toNat).1 ++ leBytes 8 (Ival.toF64 i.x1.toNat).2) none ∧
  PlainStore (.stl u h a) u false a.space (if a.dbl then 8 else 4) (fun i => leBytes (if a.dbl then 8 else 4) i.x1.toNat) (some a.scope)

/-- The atomics complete: each executing thread's one entry for both queues carries its operation, its operand X1 (ACAS: X2,
compared with X1) and its place X0 + T; ACAS2 compares X2:X1 at X0 and writes T:X3 (R198, R367, R372). QSYNC enters the
sheet's order once, holding every later access back behind every earlier one; PREF delivers its code to each executing
thread, makes no access, and pins the line where its code is 0 under `.pin` (R194, R195, R203, R449). That code 1 goes before
code 2 where 12 ways are pinned and the quota is reached is the model's choice (log 70). -/
def Obligations.LsuAtomicsAndHints : Prop :=
  (∀ (u : LsuUnit) (h : Head) (m : AtomMod) (c : Acas2Mod),
  Atomics (.aadd u h m) u .add m true ∧ Atomics (.amin u h m) u .min m false ∧ Atomics (.amax u h m) u .max m false ∧
  Atomics (.aminu u h m) u .minu m false ∧ Atomics (.amaxu u h m) u .maxu m false ∧ Atomics (.aand u h m) u .and m false ∧
  Atomics (.aor u h m) u .or m false ∧ Atomics (.axor u h m) u .xor m false ∧ Atomics (.axchg u h m) u .xchg m true ∧
  Atomics (.acas u h m) u .cas m true ∧ Atomics (.afadd u h m) u .fadd m false ∧
  Accesses (.acas2 u h c) u.unit (ASpace.space c.space) .atomic 16 2 (fun _ i => (i.x0.toNat, 16)) (fun _ => True)
    (lacksOp c.space c.scope (some 2)) (fun _ i e => e.Is .cas2 .pair (leBytes 8 i.x3.toNat ++ leBytes 8 i.t.toNat)
      (leBytes 8 i.x1.toNat ++ leBytes 8 i.x2.toNat) none none ∧ e.sys = decide (c.scope = .sys))) ∧
  (∀ (u : LsuUnit) (h : Head) (pin : Bool),
  (∀ s sh m, (Instr.qsync u h).move = some m → CanIssue s sh m u.unit →
    (∃ th, (opThreads s sh m u.unit).head? = some th ∧ opPass m th < sh.passes) →
    ∃ t y, exec (.qsync u h) s = .next t ∧ t.sheet? s.focus = some y ∧ (Stepless sh → SameMemory s t) ∧
      Ordered sh y (fun e => e.blockLoads = true ∧ e.blockStores = true ∧ e.drain = true ∧ e.acq = none ∧ e.rel = none)) ∧
  (∀ s sh m (r : Nat → Except Flt PAddr), (Instr.pref u h pin).move = some m → CanIssue s sh m u.unit →
    s.homeq = [] → CachesAgree s (coreOf s.focus) (s.vfOf sh) → (pin = true → (opThreads s sh m u.unit).length ≤ 1) →
    (∀ th ∈ opThreads s sh m u.unit, opPass m th < sh.passes →
      Steady (fun x => translate x (coreOf s.focus) (s.vfOf sh) ((opIn s sh m u.unit th).x0 + (opIn s sh m u.unit th).t) .load) s (r th)) →
    ∃ t y, exec (.pref u h pin) s = .next t ∧ t.sheet? s.focus = some y ∧ (∀ a, t.readByte a = s.readByte a) ∧ y.queue = sh.queue ∧
      (∀ th ∈ opThreads s sh m u.unit, opPass m th < sh.passes →
        Lands s sh y u.unit th (BitVec.ofNat 64 (pinCode s sh (r th) pin)) ∧
        (pin = true → ∀ q, r th = .ok q → pinCode s sh (r th) true = 0 → (lookup t.pinned (q.pa / 128)).isSome))))

/-- BR and CALL jump to an offset in the code object, BRI and RET to an address; CALL leaves the next address in `bru.q` (R379,
R380, R454). -/
def Obligations.BruJumps : Prop := ∀ (h : Head),
  Transfers (.br h) (fun _ _ => True) (fun s sh m => OffsetOk s sh (opT s sh m)) (fun s sh m y => { y with pc := codeAt s sh (opT s sh m) }) ∧
  Transfers (.call h) (fun _ _ => True) (fun s sh m => OffsetOk s sh (opT s sh m))
    (fun s sh m y => { y with pc := codeAt s sh (opT s sh m) }.setQ .bru 0 0 (sh.pc + 16)) ∧
  Transfers (.bri h) (fun _ _ => True) (fun s sh m => (opT s sh m).toNat % 16 = 0) (fun s sh m y => { y with pc := opT s sh m }) ∧
  Transfers (.ret h) (fun _ _ => True) (fun s sh m => (opT s sh m).toNat % 16 = 0) (fun s sh m y => { y with pc := opT s sh m })

/-- BRP and BRP3 split the active threads by the codes of a predicate, fall-through first, then taken, then undecided; BRANY and
BRALL jump as a whole where any, or every, active thread's code counts as taken (R76, R78, R381). -/
def Obligations.BruPredicateBranches : Prop := ∀ (h : Head) (r : ERule),
  Transfers (.brp h r) (fun sh y => sh.nest = none → y.pc = sh.pc + 16)
    (fun s sh m => BranchOk s sh [opT s sh m] (r == .ux) [(0, codeThreads sh (otherCodes r)), (0, codeThreads sh (takenCodes r))])
    (fun s sh m y => branchTo s sh [(sh.pc + 16, codeThreads sh (otherCodes r)), (codeAt s sh (opT s sh m), codeThreads sh (takenCodes r))] y) ∧
  Transfers (.brp3 h) (fun sh y => sh.nest = none → y.pc = sh.pc + 16)
    (fun s sh m => BranchOk s sh [opT s sh m, sh.getX .bru 1 0] false
      [(0, codeThreads sh [0]), (0, codeThreads sh [1]), (0, codeThreads sh [2])])
    (fun s sh m y => branchTo s sh [(sh.pc + 16, codeThreads sh [0]), (codeAt s sh (opT s sh m), codeThreads sh [1]),
      (codeAt s sh (sh.getX .bru 1 0), codeThreads sh [2])] y) ∧
  Transfers (.brany h r) (fun sh y => sh.nest = none → y.pc = sh.pc + 16) (fun s sh m => BranchOk s sh [opT s sh m] (r == .ux) [])
    (fun s sh m y => if codeThreads sh (takenCodes r) = 0 then y else { y with pc := codeAt s sh (opT s sh m) }) ∧
  Transfers (.brall h r) (fun sh y => sh.nest = none → y.pc = sh.pc + 16) (fun s sh m => BranchOk s sh [opT s sh m] (r == .ux) [])
    (fun s sh m y => if codeThreads sh (takenCodes r) = sh.active then { y with pc := codeAt s sh (opT s sh m) } else y)

/-- LOOP starts a nest of six counts over the next bundles; LBRK ends the nest; EXIT makes the active threads gone; YIELD keeps
the sheet from issuing for T bits 7:0 more cycles (R81, R83, R403, R425, R432, R467). -/
def Obligations.BruLoopsExitYield : Prop := ∀ (h : Head),
  Transfers (.loop h) (fun sh y => y.pc = sh.pc + 16 ∧ y.nest = none)
    (fun s sh m => sh.nest = none ∧ (opT s sh m).toNat % 64 ≤ 58 ∧ (opT s sh m).toNat / 64 % 4 = 0 ∧ (opT s sh m).toNat / 2 ^ 12 = 0 ∧
      ∀ k < 6, (sh.getS ((opT s sh m).toNat % 64 + k)).setWidth 32 ≠ 0#32)
    (fun s sh m y => { y with nest := some ⟨[], (opT s sh m).toNat / 256 % 16 + 1,
      (List.range 6).map (fun k => (sh.getS ((opT s sh m).toNat % 64 + k)).toNat % 2 ^ 32), [0, 0, 0, 0, 0, 0], 0⟩ }) ∧
  (∀ s sh m, (Instr.loop h).move = some m → CanIssue s sh m .bru → opRuns s sh m → sh.nest = none →
    (opT s sh m).toNat % 64 ≤ 58 → (opT s sh m).toNat / 64 % 4 = 0 → (opT s sh m).toNat / 2 ^ 12 = 0 →
    (∃ k < 6, (sh.getS ((opT s sh m).toNat % 64 + k)).setWidth 32 = 0#32) →
    ∃ t z, exec (.loop h) s = .next t ∧ t.sheet? s.focus = some z ∧ z.nest = none) ∧
  Transfers (.lbrk h) (fun _ _ => True) (fun _ sh _ => ∃ n, sh.nest = some n ∧ n.pos + 1 = n.len)
    (fun _ sh _ y => { y with nest := none, pc := sh.pc + 16 }) ∧
  (∀ pc b, Transfers (.lbrk h) (fun _ _ => True)
    (fun _ sh _ => ∃ n, sh.nest = some n ∧ n.pos + 1 < n.len ∧ n.buf.length = n.len ∧ n.buf.getLast? = some (pc, .bundleIssue b))
    (fun _ _ _ y => { y with nest := none, pc := pc + BitVec.ofNat 64 (Format.size b.format) })) ∧
  (∀ s sh m, (Instr.exit h).move = some m → CanIssue s sh m .bru → opRuns s sh m →
    ∃ t y z, exec (.exit h) s = .next t ∧ Past sh y ∧ t.sheet? s.focus = some z ∧ z.gone = sh.gone ||| sh.active ∧
      (Mask.firstN sh.width &&& ~~~(sh.gone ||| sh.active) ≠ 0#128 → z = ({ y with gone := sh.gone ||| sh.active } : Sheet).arrive)) ∧
  Transfers (.yield h) (fun sh y => y.readySince = y.nextIssue ∧ (sh.nest = none → y.pc = sh.pc + 16)) (fun _ _ _ => True)
    (fun s sh m y => { y with nextIssue := y.nextIssue + ((opT s sh m).setWidth 8).toNat,
                              readySince := y.nextIssue + ((opT s sh m).setWidth 8).toNat })

/-! ## The engines -/

/-- MMA, MMAB, MMAI, MXZERO, MXDRAIN, MXST, MXLD, MXREL and MXRED enter the dependency table with their shape register, tile and
operands captured; a fresh name maps a new tile of the operation's type, and MXREL unmaps its name (R229 to R237, R437 to
R443). -/
def Obligations.MxeCommands : Prop := ∀ (h : Head) (m : MmaMod) (f : MxfMod) (c : Tile),
  Multiplies (.mma h m) mmaKind m ∧ Multiplies (.mmab h m) mmabKind m ∧ Multiplies (.mmai h m) mmaiKind m ∧
  Enters (.mxzero h f) .mxe (fun _ x => MxeNames x f.tile ∧ (x.mf 5 = 0 ∨ x.mf 5 = 5) ∧ TileMay x f.tile f.fresh (x.mf 5 == 5))
    (fun s x t y k => MxeLeaves f.tile f.fresh (x.mf 5 == 5) s x t y k ∧ k.reads = [] ∧ k.writes = [.tile x.sh.wg k.tile]) ∧
  Enters (.mxdrain h c) .mxe (fun _ x => MxeNames x c ∧ x.mf 5 ≤ 5 ∧ RowsFit x (dfmtBytes (x.mf 5)) ∧ (lookup x.sh.tileMap c.val).isSome ∧
      (if x.tileIsInt c then x.mf 5 ∈ [0, 4, 5] else x.mf 5 ∈ [0, 1, 2, 3]))
    (fun s x t y k => MxeLeaves c false false s x t y k ∧ k.reads = [.tile x.sh.wg k.tile] ∧
      k.writes = blocksOf true x.sh.wg (x.mf 4) (128 * x.mf 9 * dfmtBytes (x.mf 5))) ∧
  Enters (.mxst h c) .mxe (fun _ x => MxeNames x c ∧ RowsFit x 4 ∧ (lookup x.sh.tileMap c.val).isSome)
    (fun s x t y k => MxeLeaves c false false s x t y k ∧ k.reads = [.tile x.sh.wg k.tile] ∧
      k.writes = blocksOf true x.sh.wg (x.mf 4) (512 * x.mf 9)) ∧
  Enters (.mxld h f) .mxe (fun _ x => MxeNames x f.tile ∧ RowsFit x 4 ∧ (x.mf 5 = 0 ∨ x.mf 5 = 5) ∧ TileMay x f.tile f.fresh (x.mf 5 == 5))
    (fun s x t y k => MxeLeaves f.tile f.fresh (x.mf 5 == 5) s x t y k ∧ k.reads = blocksOf true x.sh.wg (x.mf 4) (512 * x.mf 9) ∧
      k.writes = [.tile x.sh.wg k.tile]) ∧
  Enters (.mxrel h c) .mxe (fun _ x => MxeNames x c ∧ (lookup x.sh.tileMap c.val).isSome)
    (fun s x t y k => MxeLeaves c false false s x t y k ∧ lookup y.tileMap c.val = none) ∧
  Enters (.mxred h c) .mxe (fun s x => MxeNames x c ∧ x.mf 7 < 64 ∧ x.mf 8 < 65536 ∧ (lookup x.sh.tileMap c.val).isSome ∧
      ∃ g, s.group (s.partOf x.sh) (x.mf 7) = some g ∧ Group.valid g = true ∧ (Group.index g s.deviceNo (coreOf s.focus) (s.colOf s.focus)).isSome ∧
        x.tileIsInt c = Group.int g ∧ x.mf 8 + Group.rows g ≤ 65536)
    (fun s x t y k => MxeLeaves c false false s x t y k ∧ k.reads = [.tile x.sh.wg k.tile] ∧ k.writes = [])

/-- CMUL, CMAC, CSQR, CADD, CSUB, CSHL, CCLR and CBIG enter with the source limbs as operands and the destination as result, and
the destination's tag is the result tag of R242 where the checks of R243 pass; CADD and CSUB of untagged limbs, and CBIG,
leave none (R240 to R243, R384, R385). That a product of two cleared limbs has n = 0 is the model's choice (log 72). -/
def Obligations.CfeTaggedCommands : Prop := ∀ (h : Head) (d : Limb),
  Tags (.cmul h d) d true true (fun x => Factors x (cfeA x.tv) (cfeB x.tv) ∧ TagFits (mulTagOf x (x.tagOr (cfeB x.tv))))
    (fun x => [cfeA x.tv, cfeB x.tv]) (fun x => some (mulTagOf x (x.tagOr (cfeB x.tv)))) ∧
  Tags (.cmac h d) d true true (fun x => Factors x (cfeA x.tv) (cfeB x.tv) ∧ (x.tag d.val).isSome ∧
      (x.tagOr d.val).s = (x.tagOr (cfeA x.tv)).s ∧ TagFits (macTagOf x d))
    (fun x => [cfeA x.tv, cfeB x.tv, d.val]) (fun x => some (macTagOf x d)) ∧
  Tags (.csqr h d) d true false (fun x => Factors x (cfeA x.tv) (cfeA x.tv) ∧ TagFits (mulTagOf x (x.tagOr (cfeA x.tv))))
    (fun x => [cfeA x.tv]) (fun x => some (mulTagOf x (x.tagOr (cfeA x.tv)))) ∧
  Tags (.cadd h d) d true true (fun x => SumOk x false) (fun x => [cfeA x.tv, cfeB x.tv])
    (fun x => if x.tag (cfeA x.tv) = none then none else some (sumTagOf x false)) ∧
  Tags (.csub h d) d true true (fun x => SumOk x true) (fun x => [cfeA x.tv, cfeB x.tv])
    (fun x => if x.tag (cfeA x.tv) = none then none else some (sumTagOf x true)) ∧
  Tags (.cshl h d) d true false (fun x => (x.x 0 0).toNat < 512 ∧ (x.tag (cfeA x.tv)).isSome ∧ TagFits (shiftTagOf x))
    (fun x => [cfeA x.tv]) (fun x => some (shiftTagOf x)) ∧
  Tags (.cclr h d) d false false (fun x => 2 ≤ x.cf 3 ∧ x.cf 3 ≤ 64) (fun _ => []) (fun x => some ⟨false, x.cf 3, 0, 0, false⟩) ∧
  Tags (.cbig h d) d true true (fun _ => True) (fun x => [cfeA x.tv, cfeB x.tv]) (fun _ => none)

/-- CPACK and CPACKV enter with the tag of packed elements, CEXT and CEXTV with the bound of their limb captured, CGW with the
narrowest safe stride as its value (R174, R240, R241, R244, R245, R387, R388, R390). -/
def Obligations.CfePackingCommands : Prop := ∀ (h : Head) (d : Limb),
  Enters (.cpack h d) .cfe (fun _ x => packCheck d false x = []) (fun s x t y c => SameMemory s t ∧
    Captures 1 (cfeH x.tv) (cfeSwap x.tv) x y c.shape ∧ c.writes = [.limb x.sh.wg d.val] ∧
    ((t.wg? x.sh.wg).bind (fun w => lookup w.tags d.val)) =
      some ⟨ewSigned (x.cf 1), x.cf 3, x.cf 2, if ewSigned (x.cf 1) then 2 ^ (ewWidth (x.cf 1) - 1) else 2 ^ ewWidth (x.cf 1) - 1, false⟩) ∧
  Enters (.cpackv h d) .cfe (fun s x => packCheck d true x = [] ∧ vregBusy s s.focus (x.cf 0) = false) (fun s x t y c => SameMemory s t ∧
    Captures 1 (cfeH x.tv) (cfeSwap x.tv) x y c.shape ∧ c.reads = [] ∧ c.writes = [.limb x.sh.wg d.val] ∧
    c.regs = (List.range 32).map (fun th => x.sh.getV (x.cf 0) th) ∧
    ((t.wg? x.sh.wg).bind (fun w => lookup w.tags d.val)) =
      some ⟨ewSigned (x.cf 1), x.cf 3, x.cf 2, if ewSigned (x.cf 1) then 2 ^ (ewWidth (x.cf 1) - 1) else 2 ^ ewWidth (x.cf 1) - 1, false⟩) ∧
  Enters (.cext h) .cfe (fun _ x => extCheck false x = []) (fun s x t y c => SameMemory s t ∧
    Captures 1 (cfeH x.tv) (cfeSwap x.tv) x y c.shape ∧ c.reads = [.limb x.sh.wg (cfeA x.tv)] ∧ c.regs.length = 4 ∧
    (∀ g, x.tag (cfeA x.tv) = some g → c.regs.getD 0 0 = BitVec.ofNat 64 g.s ∧ c.regs.getD 3 0 = BitVec.ofNat 64 g.b)) ∧
  Enters (.cextv h) .cfe (fun _ x => extCheck true x = []) (fun s x t y c => SameMemory s t ∧
    Captures 1 (cfeH x.tv) (cfeSwap x.tv) x y c.shape ∧ c.reads = [.limb x.sh.wg (cfeA x.tv)] ∧ c.writes = [.vreg s.focus (x.cf 0)] ∧
    (∀ g, x.tag (cfeA x.tv) = some g → c.regs.getD 0 0 = BitVec.ofNat 64 g.s ∧ c.regs.getD 3 0 = BitVec.ofNat 64 g.b)) ∧
  Enters (.cgw h) .cfe (fun _ x => CfeNames x none false false ∧ x.cf 1 < 32 ∧ 1 ≤ ewWidth (x.cf 1) ∧ ewWidth (x.cf 1) ≤ 8 ∧
      1 ≤ x.cf 2 ∧ x.cf 2 ≤ 64)
    (fun s x t y c => SameMemory s t ∧ Captures 1 (cfeH x.tv) (cfeSwap x.tv) x y c.shape ∧
      c.value = BitVec.ofNat 64 (safeStride (x.cf 1) (x.cf 2) (x.cf 6)))

/-- DCOPY, DFILL, DGATH and DSCAT enter with the selected pair of shape registers captured, DSTAT with the number of unfinished
commands of its channel in bits 15:0 of its value (R131, R248, R252, R397, R402). -/
def Obligations.CopyCommands : Prop := ∀ (h : Head) (m : CpyMod) (ch1 : Bool),
  Copies (.dcopy h m) .copy m ∧ Copies (.dfill h m) .fill m ∧ Copies (.dgath h m) .gath m ∧ Copies (.dscat h m) .scat m ∧
  Enters (.dstat h ch1) .cpy (fun s x => x.tv.toNat < 4 ∧ (ch1 = true → (s.core (coreOf s.focus)).split = false))
    (fun s x t y c => SameMemory s t ∧
      CapturesPair x y c ∧ c.value.toNat % 2 ^ 16 = (channelCmds s s.focus (if ch1 then 1 else s.colOf s.focus)).length % 256)

/-! ## SYN and SYS -/

/-- BARA, BAR and BARW at a wired level: an arrival is recorded with its phase, the last one completes the phase; BAR waits for
the phase's end, BARA goes on with 0, and a sheet that has arrived already waits; at `.sh`, BAR and BARW wait for everything
triggered and BARA delivers 0 (R255, R257, R258, R376). -/
def Obligations.WiredBarriers : Prop := ∀ (h : Head) (l : BarLevel),
  (l ≠ .sh →
    Acts (.bara h l) .syn (fun s sh x => BarMay s sh x l ∧ Drained s sh ∧ arrivalOf sh l x.tv.toNat ≠ (getBar s sh.wg l x.tv.toNat).phase + 1)
      (fun s sh x t y => Lands s sh y .syn 0 0 ∧ y.queue = [] ∧ arrivalOf y l x.tv.toNat = (getBar s sh.wg l x.tv.toNat).phase + 1 ∧
        (¬ LastToArrive s sh l x.tv.toNat → getBar t sh.wg l x.tv.toNat =
          ⟨(getBar s sh.wg l x.tv.toNat).phase, (getBar s sh.wg l x.tv.toNat).arrived ++ [memberKey s sh]⟩) ∧
        (LastToArrive s sh l x.tv.toNat → getBar t sh.wg l x.tv.toNat = ⟨(getBar s sh.wg l x.tv.toNat).phase + 1, []⟩)) ∧
    Acts (.bar h l) .syn (fun s sh x => BarMay s sh x l ∧ Drained s sh ∧ arrivalOf sh l x.tv.toNat ≠ (getBar s sh.wg l x.tv.toNat).phase + 1)
      (fun s sh x t y =>
        arrivalOf y l x.tv.toNat = (getBar s sh.wg l x.tv.toNat).phase + 1 ∧
        (¬ LastToArrive s sh l x.tv.toNat → (∃ id, y.wait = .bar l x.tv.toNat id ∧ Pending sh y .syn id ∧ Queued y [.await l x.tv.toNat id]) ∧
          getBar t sh.wg l x.tv.toNat =
            ⟨(getBar s sh.wg l x.tv.toNat).phase, (getBar s sh.wg l x.tv.toNat).arrived ++ [memberKey s sh]⟩) ∧
        (LastToArrive s sh l x.tv.toNat → getBar t sh.wg l x.tv.toNat = ⟨(getBar s sh.wg l x.tv.toNat).phase + 1, []⟩ ∧
          Lands s sh y .syn 0 0 ∧ y.queue = [])) ∧
    Acts (.bara h l) .syn (fun s sh x => BarMay s sh x l ∧ Drained s sh ∧ arrivalOf sh l x.tv.toNat = (getBar s sh.wg l x.tv.toNat).phase + 1)
      (fun s sh x t y => (∃ id, Pending sh y .syn id ∧ Queued y [.arrive l x.tv.toNat id false]) ∧ barHolds t s.focus y = true ∧
        getBar t sh.wg l x.tv.toNat = getBar s sh.wg l x.tv.toNat) ∧
    Acts (.bar h l) .syn (fun s sh x => BarMay s sh x l ∧ Drained s sh ∧ arrivalOf sh l x.tv.toNat = (getBar s sh.wg l x.tv.toNat).phase + 1)
      (fun s sh x t y => (∃ id, y.wait = .bar l x.tv.toNat id ∧ Pending sh y .syn id ∧
          Queued y [.arrive l x.tv.toNat id true, .await l x.tv.toNat id]) ∧
        getBar t sh.wg l x.tv.toNat = getBar s sh.wg l x.tv.toNat) ∧
    Acts (.barw h l) .syn (fun s sh x => BarMay s sh x l ∧ sh.queue = [])
      (fun s sh x t y => getBar t sh.wg l x.tv.toNat = getBar s sh.wg l x.tv.toNat ∧
        if arrivalOf sh l x.tv.toNat = (getBar s sh.wg l x.tv.toNat).phase + 1 then
          ∃ id, y.wait = .bar l x.tv.toNat id ∧ Pending sh y .syn id ∧ Queued y [.await l x.tv.toNat id]
        else Lands s sh y .syn 0 0 ∧ y.queue = [])) ∧
  Acts (.bar h .sh) .syn (fun _ _ x => x.tv = 0) (fun _ sh _ _ y => ∃ id, y.wait = .barSheet id ∧ Pending sh y .syn id) ∧
  Acts (.barw h .sh) .syn (fun _ _ x => x.tv = 0) (fun _ sh _ _ y => ∃ id, y.wait = .barSheet id ∧ Pending sh y .syn id) ∧
  Acts (.bara h .sh) .syn (fun _ _ x => x.tv = 0) (fun s sh _ _ y => Lands s sh y .syn 0 0 ∧ y.wait = .none)

/-- The operations on a barrier object: BOINIT makes it, BOARR counts arrivals down and completes a phase, BOEXP adds expected
bytes, BOWAIT delivers 0 or 1 or waits to its deadline, BOTEST delivers its low word, BOINV ends it (R261 to R264, R378). -/
def Obligations.BarrierObjects : Prop := ∀ (h : Head),
  Acts (.boinit h) .syn (fun s sh x => ObjectMay s sh x false sh.wg ∧ 1 ≤ (x.x 0 0).toNat ∧ (x.x 0 0).toNat < 2 ^ 20 ∧ objValid (objOf s sh.wg x) = false)
    (fun s sh x t y => Lands s sh y .syn 0 0 ∧ ObjIs (objOf t sh.wg x) (x.x 0 0).toNat (x.x 0 0).toNat 0 0 0 true ∧ objValid (objOf t sh.wg x) = true) ∧
  ArrivesAt (.boarr h false) false OwnTarget ∧ ArrivesAt (.boarr h true) true PeerTarget ∧
  TestsAt (.botest h false) false OwnTarget ∧ TestsAt (.botest h true) true PeerTarget ∧
  Acts (.boexp h) .syn (fun s sh x => ObjectMay s sh x false sh.wg ∧ objValid (objOf s sh.wg x) = true ∧ objBytes (objOf s sh.wg x) + (x.x 0 0).toNat < 2 ^ 48)
    (fun s sh x t y => Lands s sh y .syn 0 (BitVec.ofNat 64 (objPhase (objOf s sh.wg x))) ∧ ObjIs (objOf t sh.wg x) (objPend (objOf s sh.wg x))
      (objExpect (objOf s sh.wg x)) (objPhase (objOf s sh.wg x)) (objBytes (objOf s sh.wg x) + (x.x 0 0).toNat) (objWaiters (objOf s sh.wg x)) true) ∧
  Acts (.bowait h) .syn (fun s sh x => ObjectMay s sh x false sh.wg ∧ (x.x 0 0).toNat < 16 ∧ (x.x 1 0).toNat < 2 ^ 32)
    (fun s sh x t y =>
      if objValid (objOf s sh.wg x) = false then Lands s sh y .syn 0 0
      else if objPhase (objOf s sh.wg x) ≠ (x.x 0 0).toNat then Lands s sh y .syn 0 1
      else if (x.x 1 0).toNat = 0 then Lands s sh y .syn 0 0
      else (∃ id, y.wait = .object x.tv.toNat (s.now + (x.x 1 0).toNat) id ∧ Pending sh y .syn id) ∧
        (sh.num < 16 → bitAt (objWaiters (objOf t sh.wg x)) sh.num = true)) ∧
  Acts (.boinv h) .syn (fun s sh x => ObjectMay s sh x false sh.wg)
    (fun s sh x t y => Lands s sh y .syn 0 0 ∧ bitAt (objOf t sh.wg x) 45 = false ∧ objWaiters (objOf t sh.wg x) = 0)

/-- FENCE, ACQ and REL enter the sheet's order and deliver 0 once what they order is done: at once where the queue is empty;
behind accesses, FENCE holds every later access back, REL every later store, and ACQ, behind a load, every later access
(R208, R373, R410, R452). SVC parks the sheet with its number and argument for the management core; TSTAMP delivers the time
stamp when its pass issues; YIELDS delivers 0, or 1 and stops the sheet where a class D stop is pending (R326, R463, R465,
R468). -/
def Obligations.SysOrderingAndServices : Prop :=
  (∀ (h : Head) (m : FenceMod) (sc : Scope),
  Acts (.fence h m) .sys (fun s sh _ => sh.queue = [] → Drained s sh) (fun s sh _ t y => (Stepless sh → SameMemory s t) ∧ (sh.queue = [] → Lands s sh y .sys 0 0) ∧
    Ordered sh y (fun e => e.blockLoads = true ∧ e.blockStores = true ∧ e.drain = true ∧
      e.acq = (if m.halves = .rel then none else some m.scope) ∧ e.rel = (if m.halves = .acq then none else some m.scope))) ∧
  Acts (.rel h sc) .sys (fun s sh _ => sh.queue = [] → Drained s sh) (fun s sh _ t y => (Stepless sh → SameMemory s t) ∧ (sh.queue = [] → Lands s sh y .sys 0 0) ∧
    Ordered sh y (fun e => e.blockLoads = false ∧ e.blockStores = true ∧ e.acq = none ∧ e.rel = some sc)) ∧
  Acts (.acq h sc) .sys (fun _ sh _ => ∀ a ∈ sh.queue, a.kind ≠ .order) (fun s sh _ t y => SameMemory s t ∧
    if sh.queue.any Access.isLoad then ∃ e, y.queue = sh.queue ++ [e] ∧ e.kind = .order ∧ e.blockLoads = true ∧ e.blockStores = true ∧ e.acq = some sc ∧ e.rel = none
    else y.queue = sh.queue ∧ Lands s sh y .sys 0 0)) ∧
  (∀ (h : Head),
  Acts (.svc h) .sys (fun _ _ x => x.tv.toNat < 2 ^ 16)
    (fun s sh x t y => SameMemory s t ∧ ∃ id, y.sys = .svc x.tv.toNat (sh.getX .sys 0 0) id ∧ Pending sh y .sys id) ∧
  (∀ s sh m, (Instr.tstamp h).move = some m → CanIssue s sh m .sys → 0 < sh.passes → opRuns s sh m →
    ∃ t y, exec (.tstamp h) s = .next t ∧ t.sheet? s.focus = some y ∧ SameMemory s t ∧ Lands s sh y .sys 0
      (BitVec.ofNat 64 (s.ts + (opCycle s sh m 0 - s.now) * 1000 / max (s.cluster (clusterOf (coreOf s.focus))).mhz 1))) ∧
  Acts (.yields h) .sys (fun _ _ _ => True) (fun s sh _ t y => SameMemory s t ∧
    (((s.part (s.partOf sh)).preempt.map (·.classD)) = some true → Lands s sh y .sys 0 1 ∧ y.park = .stopped) ∧
    (((s.part (s.partOf sh)).preempt.map (·.classD)) ≠ some true → Lands s sh y .sys 0 0 ∧ y.park = .running)))

/-- CSRRD delivers each register's value: FPCR, CFECFG, XPCFG, CYCLE, ISSUED, DROOP_BUBBLES, DRIFT, MARKCFG, SKIPST (cleared by
the read), the bank formats and the workgroup's overflow bit; MARKCFG with ARMED where the interlock trace is armed (R333, R337); FPSR once every FPU and XFU result has landed (R152, R333, R391,
R392). That ISSUED counts the bundle that reads it is the model's choice (log 29). -/
def Obligations.RegisterReads : Prop := ∀ (h : Head) (b : Nat),
  (∀ s sh m, (Instr.csrrd h).move = some m → CanIssue s sh m .sys → 0 < sh.passes → opRuns s sh m → (opCtx s sh m .sys).tv = 1 →
    ∃ t y, exec (.csrrd h) s = .next t ∧ t.sheet? s.focus = some y ∧ y.fpsr = sh.fpsr ∧
      ∃ f ∈ y.flights, f.unit = .sys ∧ f.thread = 0 ∧ f.q = some (sh.fpsr.setWidth 64) ∧ f.ready = true ∧ f.stalling = false ∧
        ∀ g ∈ (opSheet s sh m).flights, g.unit = .fpa ∨ g.unit = .fpb ∨ g.unit = .xfu → g.due ≤ f.due) ∧
  Reads h 0x002 (fun _ _ => True) (fun _ sh _ => sh.fpcr.setWidth 64) ∧
  Reads h 0x003 (fun _ _ => True) (fun _ sh _ => truth sh.cfeSoft + (truth sh.cfeGdx <<< 8)) ∧
  Reads h 0x004 (fun _ _ => True) (fun _ sh _ => sh.xpPat.setWidth 64 + (sh.xpAoff.setWidth 64 <<< 6) +
    BitVec.ofNat 64 (2 ^ 17 * slotsNat ((keys sh.xp).filter (fun k => decide (k < 4))))) ∧
  Reads h 0x010 (fun _ sh => sh.cycFrom.isSome) (fun s sh m => BitVec.ofNat 64 (sh.cycAcc + (opCycle s sh m 0 - sh.cycFrom.getD 0))) ∧
  Reads h 0x011 (fun _ _ => True) (fun _ sh _ => BitVec.ofNat 64 (sh.issued + 1)) ∧
  Reads h 0x012 (fun _ _ => True) (fun _ sh _ => BitVec.ofNat 64 sh.droop) ∧
  Reads h 0x020 (fun _ _ => True) (fun _ sh _ => sh.drift.signExtend 64) ∧
  Reads h 0x021 (fun _ _ => True) (fun _ sh _ => truth sh.markLog + (truth sh.markArm <<< 1)) ∧
  (∀ s sh m, (Instr.csrrd h).move = some m → CanIssueArmed s sh m .sys → s.homeq = [] → 0 < sh.passes → opRuns s sh m →
    (opCtx s sh m .sys).tv = 0x021 → ∃ t y, exec (.csrrd h) s = .next t ∧ t.sheet? s.focus = some y ∧
      Lands s sh y .sys 0 (truth sh.markLog + (truth sh.markArm <<< 1) + 4)) ∧
  Reads h 0x030 (fun _ _ => True) (fun _ sh _ => sh.skipst.setWidth 64) ∧
  (b < 8 → Reads h (0x100 + b) (fun s sh => (s.wg? sh.wg).isSome) (fun s sh _ => ((s.wg? sh.wg).map (fun w => bankRead w true b)).getD 0)) ∧
  (b < 16 → Reads h (0x110 + b) (fun s sh => (s.wg? sh.wg).isSome) (fun s sh _ => ((s.wg? sh.wg).map (fun w => bankRead w false b)).getD 0)) ∧
  Reads h 0x120 (fun s sh => (s.wg? sh.wg).isSome) (fun s sh _ => truth (((s.wg? sh.wg).map (·.iovf)).getD false))

/-- CSRWR writes the writable fields of FPSR, FPCR, CFECFG and MARKCFG at once, clears overflow and guard bits where it writes
1, leaves a read-only register as it is, holds the sheet for XPCFG, writes a bank format where no block of the bank is
engine-owned, and holds the sheet where one is (R7, R8, R180, R188, R392). That the image of XPCFG is the one that stands at the
trigger is the model's choice (log 38). -/
def Obligations.RegisterWrites : Prop := ∀ (h : Head) (b : Nat),
  Writes h 0x001 (fun _ _ _ => True) (fun _ sh v _ y => y.fpsr = v.setWidth 6 ∧ sysWord y = sysWord sh) ∧
  Writes h 0x002 (fun _ _ _ => True) (fun s sh v _ y => Lands s sh y .sys 0 0 ∧ y.fpsr = sh.fpsr ∧ sysWord y =
    (v.setWidth 9 &&& 0x13F, sh.cfeSoft, sh.cfeGdx, sh.markArm, sh.markLog, sh.skipst)) ∧
  Writes h 0x003 (fun _ _ _ => True) (fun s sh v _ y => Lands s sh y .sys 0 0 ∧ y.fpsr = sh.fpsr ∧ sysWord y =
    (sh.fpcr, v.getLsbD 0, sh.cfeGdx && !v.getLsbD 8, sh.markArm, sh.markLog, sh.skipst)) ∧
  Writes h 0x021 (fun _ _ _ => True) (fun s sh v _ y => Lands s sh y .sys 0 0 ∧ y.fpsr = sh.fpsr ∧ sysWord y =
    (sh.fpcr, sh.cfeSoft, sh.cfeGdx, v.getLsbD 1, v.getLsbD 0, sh.skipst)) ∧
  (b ∈ [0x010, 0x011, 0x012, 0x020, 0x030] → Writes h b (fun _ _ _ => True)
    (fun s sh _ _ y => Lands s sh y .sys 0 0 ∧ y.fpsr = sh.fpsr ∧ sysWord y = sysWord sh ∧ y.drift = sh.drift)) ∧
  Writes h 0x120 (fun _ _ _ => True) (fun s sh v t y => Lands s sh y .sys 0 0 ∧ sysWord y = sysWord sh ∧
    ∀ w, s.wg? sh.wg = some w → ∃ w', t.wg? sh.wg = some w' ∧ w'.iovf = (w.iovf && !v.getLsbD 0)) ∧
  Writes h 0x004 (fun s sh v => ∃ w, s.wg? sh.wg = some w ∧ xpOffset v + 64 ≤ w.aSize ∧ xpValid (xpImage w v) = true ∧
      (∀ r ∈ blocksOf true sh.wg (xpOffset v) 64, engineOwned s r = false) ∧
      ∀ a ∈ sh.queue, a.space = .a → a.isStore = true → ∀ p ∈ a.pieces, runsMeet p.1 p.2 (xpOffset v) 64 = false)
    (fun s sh v _ y => ∃ w k, s.wg? sh.wg = some w ∧ y.sys = .csr k ∧ k.num = 4 ∧ k.val = v ∧ k.image = xpImage w v ∧ Pending sh y .sys k.id) ∧
  (b < 16 → Writes h (0x110 + b) (fun s sh v => ∃ w, s.wg? sh.wg = some w ∧ (bankExists w false b = true → v.toNat % 16 < 11))
    (BankWritten false b)) ∧
  (b < 8 → Writes h (0x100 + b) (fun s sh v => ∃ w, s.wg? sh.wg = some w ∧ (bankExists w true b = true → v.toNat % 16 < 11))
    (BankWritten true b))

/-- LAUNCH asks for the launch of a record; LWAIT delivers a final STATUS or waits for one; IVSPAWN appends an entry for each
undecided thread in one step and delivers the old TAIL and the number of entries (R46, R49, R50, R423, R424, R433). -/
def Obligations.LaunchingOperations : Prop := ∀ (h : Head) (p : PAddr) (places : List (List (Nat × Nat))),
  Acts (.launch h) .sys (fun s sh x => Drained s sh ∧ depthOf s sh < 9 ∧ RecordAt s sh x .atomic 0 64 p)
    (fun s sh x t y => SameButHomes s t ∧ ∃ id, Pending sh y .sys id ∧
      t.launches = s.launches ++ [.move s.focus sh.wg id (((s.wg? sh.wg).map (·.grid)).getD 0) x.tv]) ∧
  Acts (.lwait h) .sys (fun s sh x => sh.queue = [] ∧ RecordAt s sh x .load 48 4 p)
    (fun s sh x t y => SameButHomes s t ∧ if 2 ≤ t.readNat (p.pa + 48) 4 then Lands s sh y .sys 0 (BitVec.ofNat 64 (t.readNat (p.pa + 48) 4))
      else ∃ id, y.sys = .lwait x.tv p.pa id ∧ Pending sh y .sys id) ∧
  Acts (.ivspawn h) .sys (fun s sh x => spawnLayoutBad x = false ∧ depthOf s sh < 9 ∧ x.tv.toNat % 64 = 0 ∧ spawnThreads x = [] ∧ Drained s sh)
    (fun s sh _ t y => SameMemory s t ∧ Lands s sh y .sys 0 0) ∧
  Acts (.ivspawn h) .sys (fun s sh x => spawnLayoutBad x = false ∧ depthOf s sh < 9 ∧ spawnThreads x ≠ [] ∧ sh.queue = [] ∧ s.homeq = [] ∧
      CachesAgree s (coreOf s.focus) (s.vfOf sh) ∧ RecordAt s sh x .atomic 0 64 p ∧
      vregBusy s s.focus (spawnIreg x) = false ∧ vregBusy s s.focus (spawnTreg x) = false ∧
      powTwo24 (qCap s p.pa) = true ∧ 1 ≤ qThresh s p.pa ∧ qThresh s p.pa ≤ qCap s p.pa ∧
      ixSub (qTail s p.pa) (qHead s p.pa) + (spawnThreads x).length ≤ qCap s p.pa ∧
      Steady (fun z => spawnPlaces z (coreOf s.focus) (s.vfOf sh) p.pa (spawnThreads x).length) s (.ok places))
    (fun s sh x t y => Lands s sh y .sys 0 (BitVec.ofNat 64 (qTail s p.pa * 2 ^ 32 + (spawnThreads x).length)) ∧
      qTail t p.pa = (qTail s p.pa + (spawnThreads x).length) % 2 ^ 32 ∧
      ∀ th a, Untracked s → spawnThreads x = [th] → places = [[(a, 16)]] → ∀ k < 16,
        ¬ (p.pa + 24 ≤ a + k ∧ a + k < p.pa + 28) →
        t.readByte (a + k) = (leBytes 8 (sh.getV (spawnIreg x) th).toNat ++ leBytes 8 (sh.getV (spawnTreg x) th).toNat).getD k 0)

/-- A divide by zero in some thread is the cause INT_DIVIDE: the sheet stops at its bundle, and FMASK names the threads that
divide by zero (R283, R284, R400). TRAP takes the exception SOFTWARE_TRAP and BRK the exception BREAKPOINT: the sheet parks
at its bundle with the trap record of R284, FMASK naming its lowest active thread (R283, R284, R382, R464). A load, store or atomic
stops with ALIGNMENT, with SPACE_BOUNDS outside its space, and with TRANSLATION or PROTECTION where its translation fails, FADDR its
address (R175, R283, R426, R459); an FPU or XFU operation with FP_ENABLED or INTERVAL_EMPTY where it would raise an enabled flag
(R153); a move that breaks a check of its own with MOVE_ILLEGAL, a bundle that breaks one of its checks, before any move, with
BUNDLE_ILLEGAL (R104); a tagged CFE operation whose result tag does not fit with GUARD_STATIC (R243). -/
def Obligations.CausesTaken : Prop :=
  (∀ (h : Head) (m : X1M32) (i : Instr),
  i = .div h m ∨ i = .divu h m ∨ i = .rem h m ∨ i = .remu h m →
  ∀ s sh mv, i.move = some mv → CanIssue s sh mv .imu →
    (∃ th ∈ opThreads s sh mv .imu, ZeroDivisor s sh mv m th) →
    ∃ t, exec i s = .next t ∧ SameMemory s t ∧
      Raises s t sh .intDivide 0 (fun th => th ∈ opThreads s sh mv .imu ∧ ZeroDivisor s sh mv m th)) ∧
  (∀ (h : Head) s sh m, CanIssue s sh m .sys → opRuns s sh m →
  ((Instr.trap h).move = some m →
    ∃ t, exec (.trap h) s = .next t ∧ SameMemory s t ∧ Raises s t sh .softwareTrap 0 (fun th => sh.active.lowest = some th)) ∧
  ((Instr.brk h).move = some m → ∃ t, exec (.brk h) s = .next t ∧ Raises s t sh .breakpoint 0 (fun th => sh.active.lowest = some th))) ∧
  (∀ (u : LsuUnit) (h : Head) (m : LdMod) (p : LdpMod) (a : LdaMod) (x : AtomMod) (c : Acas2Mod),
  LoadStops (.ld u h m) u m.nox m.space (sizeBytes m.size) ∧ LoadStops (.lds u h m) u m.nox m.space (sizeBytes m.size) ∧
  LoadStops (.ldp u h p) u p.nox p.space 16 ∧ LoadStops (.ldiv u h p) u p.nox p.space 16 ∧
  LoadStops (.lda u h a) u false a.space (if a.dbl then 8 else 4) ∧ StoreStops (.st u h m) u m.nox m.space (sizeBytes m.size) ∧
  StoreStops (.stp u h p) u p.nox p.space 16 ∧ StoreStops (.stiv u h p) u p.nox p.space 16 ∧
  StoreStops (.stl u h a) u false a.space (if a.dbl then 8 else 4) ∧
  AtomicStops (.aadd u h x) u x true ∧ AtomicStops (.amin u h x) u x false ∧ AtomicStops (.amax u h x) u x false ∧
  AtomicStops (.aminu u h x) u x false ∧ AtomicStops (.amaxu u h x) u x false ∧ AtomicStops (.aand u h x) u x false ∧
  AtomicStops (.aor u h x) u x false ∧ AtomicStops (.axor u h x) u x false ∧ AtomicStops (.axchg u h x) u x true ∧
  AtomicStops (.acas u h x) u x true ∧ AtomicStops (.afadd u h x) u x false ∧
  AccessStops (.acas2 u h c) u.unit (ASpace.space c.space) .atomic 16 (fun i => (i.x0.toNat, 16)) (lacksOp c.space c.scope (some 2))) ∧
  (∀ (u : FpuUnit) (h : Head) (m : FpRnd) (ty : FType) (r : FpRel) (k : FpInt),
  FpStops (.fadd u h m) u.unit (fun i => qFlags (fpAdd m.ty.fmt m.rnd (ftzOf m.ty i.ftz) (fpRead m.ty i.ftz i.x0) (fpRead m.ty i.ftz i.t))) ∧
  FpStops (.fsub u h m) u.unit (fun i => qFlags (fpAdd m.ty.fmt m.rnd (ftzOf m.ty i.ftz) (fpRead m.ty i.ftz i.x0) (fpRead m.ty i.ftz i.t).negate)) ∧
  FpStops (.fmul u h m) u.unit (fun i => qFlags (fpMul m.ty.fmt m.rnd (ftzOf m.ty i.ftz) (fpRead m.ty i.ftz i.x0) (fpRead m.ty i.ftz i.t))) ∧
  FpStops (.ffma u h m) u.unit (fun i =>
    qFlags (fpFma m.ty.fmt m.rnd (ftzOf m.ty i.ftz) (fpRead m.ty i.ftz i.x0) (fpRead m.ty i.ftz i.x1) (fpRead m.ty i.ftz i.t))) ∧
  FpStops (.fmin u h ty) u.unit (fpMinMax ty true) ∧ FpStops (.fmax u h ty) u.unit (fpMinMax ty false) ∧
  FpStops (.fcmp u h r) u.unit (fun i => fpCompare r.rel (fpRead r.ty i.ftz i.x0) (fpRead r.ty i.ftz i.t)) ∧
  FpStops (.fcvt u h m) u.unit (fun i => qFlags (fpConv m.ty.fmt m.rnd (ftzOf m.ty i.ftz) (fpRead (FType.ofCode (i.x0.setWidth 2).toNat) i.ftz i.t))) ∧
  FpStops (.fcvti u h k) u.unit (fun i =>
    let n := toInt (if k.i32 then 32 else 64) k.rnd (fpRead k.ty i.ftz i.t)
    ⟨some (BitVec.ofInt 64 n.1), none, n.2⟩) ∧
  FpStops (.frnd u h m) u.unit (fun i => qFlags (fpRound m.ty.fmt m.rnd (ftzOf m.ty i.ftz) (fpRead m.ty i.ftz i.t))) ∧
  FpStops (.ivadd u h) u.unit (fun i => ivOut (Ival.add i.x0.toNat i.t.toNat)) ∧
  FpStops (.ivmul u h) u.unit (fun i => ivOut (Ival.mul i.x0.toNat i.t.toNat)) ∧
  FpStops (.ivmeet u h) u.unit (fun i => ivOut (Ival.meet i.x0.toNat i.t.toNat)) ∧
  FpStops (.ivmake u h) u.unit (fun i => ivOut (Ival.mk (i.x0.toNat % 2 ^ 32) (i.t.toNat % 2 ^ 32)))) ∧
  (∀ (h : Head) (ty : XType) (c : CvtnMod),
  FpStops (.rcp h ty) .xfu (xfuOut ty fpRcp) ∧ FpStops (.rsq h ty) .xfu (xfuOut ty fpRsq) ∧
  FpStops (.sqrt h ty) .xfu (xfuOut ty (fun g z v _ => fpSqrt g z v)) ∧ FpStops (.log2 h ty) .xfu (xfuOut ty fpLog2) ∧
  FpStops (.cvtn h c) .xfu (fun i => qFlags (narrowOf c (i.t.setWidth 32).toNat)) ∧
  FpStops (.ivsqrt h) .xfu (fun i => ivOut (Ival.sqrt i.t.toNat i.free)) ∧ FpStops (.ivlog2 h) .xfu (fun i => ivOut (Ival.log2 i.t.toNat i.free))) ∧
  (∀ (i : Instr) (b : Bundle) s sh m, s.sheet? s.focus = some sh → stageOpen s s.focus sh = true → sh.issuing = none →
    sh.corrupt = none → sh.armed = false →
    (i.move = some m → slotWaits s s.focus sh (oneMove m) = false → bundleOk sh (s.core (coreOf s.focus)).split (oneMove m) = true →
      waitingPass (opBegun s sh m) s.focus (opSheet s sh m) (opCycle s sh m) [opMove s sh m] sh.passes 0 = none →
      moveOk m (s.kernelOf sh).regs (s.core (coreOf s.focus)).split = false → opRuns s sh m →
      ∃ t, exec i s = .next t ∧ SameMemory s t ∧ Raises s t sh .moveIllegal 0
        (fun th => if Move.uniform m then sh.active.lowest = some th else (opMove s sh m).exec.has th = true)) ∧
    (bundleOk sh (s.core (coreOf s.focus)).split b = false → ∃ t, exec (.bundleIssue b) s = .next t ∧ SameMemory s t ∧
      StopsAt s t sh (fun r => r.cause = .bundleIllegal ∧ r.info = 0 ∧ r.faddr = 0))) ∧
  (∀ (h : Head) (d : Limb),
  GuardStops (.cmul h d) d true true (fun x => ¬ (Factors x (cfeA x.tv) (cfeB x.tv) ∧ TagFits (mulTagOf x (x.tagOr (cfeB x.tv))))) ∧
  GuardStops (.cmac h d) d true true (fun x => ¬ (Factors x (cfeA x.tv) (cfeB x.tv) ∧ (x.tag d.val).isSome ∧
    (x.tagOr d.val).s = (x.tagOr (cfeA x.tv)).s ∧ TagFits (macTagOf x d))) ∧
  GuardStops (.csqr h d) d true false (fun x => ¬ (Factors x (cfeA x.tv) (cfeA x.tv) ∧ TagFits (mulTagOf x (x.tagOr (cfeA x.tv))))) ∧
  GuardStops (.cadd h d) d true true (fun x => ¬ SumOk x false) ∧ GuardStops (.csub h d) d true true (fun x => ¬ SumOk x true) ∧
  GuardStops (.cshl h d) d true false (fun x => (x.x 0 0).toNat < 512 ∧ ¬ ((x.tag (cfeA x.tv)).isSome ∧ TagFits (shiftTagOf x))))

/-! ## Bundles and frames -/

/-- A bundle of register moves completes: every source is read before anything is written; a lane move writes a vector register, a
predicate or an operand entry of a lane unit in the threads where its guard holds and nowhere else; a uniform move reads for the
lowest active thread and writes a uniform register, a workgroup register (the newest write of it then), an entry of a uniform unit,
a shape shadow, or a vector register, predicate or lane entry in every thread of the sheet; the path goes on behind the bundle
(R64, R66, R67, R68, R74, R86, R99). That a uniform move writes a predicate in every thread is the model's choice (log 68). -/
def Obligations.BundleOfMoves : Prop := ∀ (b : Bundle) s sh, CanIssueMoves s sh b →
  ∃ t y, exec (.bundleIssue b) s = .next t ∧ t.sheet? s.focus = some y ∧ SameMemory s t ∧ y.limm = limmUpdate sh.limm b.format ∧
    y.fpsr = sh.fpsr ∧ y.fpcr = sh.fpcr ∧
    (sh.nest = none → sh.rcv ≠ some (sh.pc + BitVec.ofNat 64 (Format.size b.format)) → y.pc = sh.pc + BitVec.ofNat 64 (Format.size b.format)) ∧
    (∀ e ∈ liveSlots b, ∀ r src, Dst.ofCode e.2.dst.toNat = some (.v r) → Src.ofCode e.2.src.toNat = some src → Move.uniform e.2 = false →
      ∀ th < sh.width, th < 128 → y.getV r th = if sh.active.has th ∧ guardHolds sh e.2 th then bundleRead s sh b th src else sh.getV r th) ∧
    (∀ e ∈ liveSlots b, ∀ r src, Dst.ofCode e.2.dst.toNat = some (.p r) → Src.ofCode e.2.src.toNat = some src → Move.uniform e.2 = false →
      ∀ th < sh.width, th < 128 → y.getP r th = if sh.active.has th ∧ guardHolds sh e.2 th then (bundleRead s sh b th src).setWidth 2 else sh.getP r th) ∧
    (∀ e ∈ liveSlots b, ∀ r src th, Dst.ofCode e.2.dst.toNat = some (.s r) → Src.ofCode e.2.src.toNat = some src → sh.active.lowest = some th →
      y.getS r = if guardHolds sh e.2 th then bundleRead s sh b th src else sh.getS r) ∧
    (∀ e ∈ liveSlots b, ∀ u port src, Dst.ofCode e.2.dst.toNat = some (.x u port) → Src.ofCode e.2.src.toNat = some src → Move.uniform e.2 = false →
      ∀ th < sh.width, th < 128 → y.getX u port th = if sh.active.has th ∧ guardHolds sh e.2 th then bundleRead s sh b th src else sh.getX u port th) ∧
    (∀ e ∈ liveSlots b, ∀ src lead, Src.ofCode e.2.src.toNat = some src → Move.uniform e.2 = true → sh.active.lowest = some lead →
      (∀ r, Dst.ofCode e.2.dst.toNat = some (.v r) → ∀ th < sh.width, th < 128 →
        y.getV r th = if guardHolds sh e.2 lead then bundleRead s sh b lead src else sh.getV r th) ∧
      (∀ r, Dst.ofCode e.2.dst.toNat = some (.p r) → ∀ th < sh.width, th < 128 →
        y.getP r th = if guardHolds sh e.2 lead then (bundleRead s sh b lead src).setWidth 2 else sh.getP r th) ∧
      (∀ u port, Dst.ofCode e.2.dst.toNat = some (.x u port) → u.uniform = false → ∀ th < sh.width, th < 128 →
        y.getX u port th = if guardHolds sh e.2 lead then bundleRead s sh b lead src else sh.getX u port th) ∧
      (∀ u port, Dst.ofCode e.2.dst.toNat = some (.x u port) → u.uniform = true →
        y.getX u port 0 = if guardHolds sh e.2 lead then bundleRead s sh b lead src else sh.getX u port 0) ∧
      (∀ eng h f, Dst.ofCode e.2.dst.toNat = some (.shape eng h f) → getD y.shShadow 0 (shapeKey eng h f) =
        if guardHolds sh e.2 lead then (bundleRead s sh b lead src).setWidth 32 else getD sh.shShadow 0 (shapeKey eng h f)) ∧
      ∀ r w, Dst.ofCode e.2.dst.toNat = some (.w r) → s.wg? sh.wg = some w → ∃ w', t.wg? sh.wg = some w' ∧
        if guardHolds sh e.2 lead then
          (∀ x, lookup w.w r = some x → x.cycle < s.now) → (lookup w'.w r).map (·.val) = some (bundleRead s sh b lead src)
        else lookup w'.w r = lookup w.w r) ∧
    (∀ u port th, port < 4 → (∀ e ∈ liveSlots b, Dst.ofCode e.2.dst.toNat ≠ some (.x u port)) → y.getX u port th = sh.getX u port th) ∧
    (∀ eng h f, h < 4 → f < 16 → (∀ e ∈ liveSlots b, Dst.ofCode e.2.dst.toNat ≠ some (.shape eng h f)) →
      getD y.shShadow 0 (shapeKey eng h f) = getD sh.shShadow 0 (shapeKey eng h f)) ∧ y.shActive = sh.shActive ∧
    (∀ k w, s.wg? k = some w → ∃ w', t.wg? k = some w' ∧
      ∀ r, (k = sh.wg → ∀ e ∈ liveSlots b, Dst.ofCode e.2.dst.toNat ≠ some (.w r)) → lookup w'.w r = lookup w.w r) ∧
    (∀ r th, r < 256 → (∀ e ∈ liveSlots b, Dst.ofCode e.2.dst.toNat ≠ some (.v r)) → y.getV r th = sh.getV r th) ∧
    (∀ r th, r < 256 → (∀ e ∈ liveSlots b, Dst.ofCode e.2.dst.toNat ≠ some (.p r)) → y.getP r th = sh.getP r th) ∧
    (∀ r, (∀ e ∈ liveSlots b, Dst.ofCode e.2.dst.toNat ≠ some (.s r)) → y.getS r = sh.getS r)

/-- A marker bundle completes: DRIFT becomes the difference of CYCLE and the expected cycle, saturated to 24 bits; the interlock
trace is armed where MARKCFG allows it, the threshold is not 0 and the drift has grown by more than it (R103, R333, R334). -/
def Obligations.MarkerSetsDrift : Prop := ∀ (m : Marker) s sh c0, s.sheet? s.focus = some sh → stageOpen s s.focus sh = true → sh.nest = none → sh.left = false → sh.armed = false → sh.cycFrom = some c0 →
  sh.rcv ≠ some (sh.pc + 16) →
  ∃ t y, exec (.markerBundle m) s = .next t ∧ t.sheet? s.focus = some y ∧ y.pc = sh.pc + 16 ∧
    (let d : Int := ((sh.cycAcc + (s.now - c0)) % 2 ^ 64 : Nat) - (m.ecyc.toNat : Int)
     let d : Int := max (-(2 ^ 23)) (min d (2 ^ 23 - 1))
     y.drift = BitVec.ofInt 24 d ∧ (y.armed = true ↔ sh.markArm = true ∧ m.thresh ≠ 0 ∧ (m.thresh.toNat : Int) < d - sh.drift.toInt)) ∧
    y.v = sh.v ∧ y.s = sh.s ∧ y.p = sh.p ∧ y.ent = sh.ent ∧ y.fpsr = sh.fpsr ∧ sysWord y = sysWord sh

/-- A bundle that holds one operation alone does what the operation does: the bundle's decoder and meaning table give every
operation the meaning that its own row has (R64, R102, log 4). -/
def Obligations.BundleOfOneOperation : Prop := ∀ (i : Instr) (m : Move) (s : State), i.move = some m → decodeMove m = .ok i →
  exec (.bundleIssue (oneMove m)) s = exec i s

/-- No operation writes a register of its own (R63): whatever its outcome, every vector, uniform, predicate and workgroup
register and every operand entry is as before. -/
def Obligations.OperationsKeepRegisters : Prop := ∀ (i : Instr) (m : Move) (s t : State), i.move = some m → exec i s = .next t →
  KeepsRegisters s t

/-- The operations of the lane units, the load and store units, BRU and the engines change no byte of memory when they issue, but where
an LSU operation's page walk finds older stores on its route performed (R13, R305), and no buffer, bank format, tile or limb, nor a
tag but that of a CFE operation's destination; no status but FPSR, which FPU and XFU operations may set bits of, and, of an engine
trigger, the copies of its own shape registers and the tile names (R63, R133, R152, R198, R220, R232, R242). -/
def Obligations.OperationsKeepStorage : Prop := ∀ (i : Instr) (u : FUnit) (s t : State), Triggers i u → exec i s = .next t →
  (∀ sh, s.sheet? s.focus = some sh → sh.armed = false ∧ Stepless sh) →
  (u ∈ [.ala, .alb, .sal, .imu, .bru] → SameMemory s t ∧ KeepsBuffers s t SameTags ∧ KeepsStatus s t (fun _ _ => False)) ∧
  (u ∈ [.lsa, .lsb] → SameButHomes s t ∧ KeepsBuffers s t SameTags ∧ KeepsStatus s t (fun _ _ => False)) ∧
  (u ∈ [.fpa, .fpb, .xfu] → SameMemory s t ∧ KeepsBuffers s t SameTags ∧ KeepsStatus s t (fun x y => ∃ f : Flags, y.fpsr = x.fpsr ||| f)) ∧
  (u = .mxe → SameMemory s t ∧ KeepsBuffers s t SameTags ∧ KeepsStatusOutside s t 0 true) ∧
  (u = .cfe → SameMemory s t ∧ KeepsBuffers s t (TagsBut s (limbWritten i)) ∧ KeepsStatusOutside s t 1 false) ∧
  (u = .cpy → SameMemory s t ∧ KeepsBuffers s t SameTags ∧ KeepsStatusOutside s t 2 false)

/-! ## Results, accesses and commands on their way -/

/-- A result on its way lands in its latch and thread and nowhere else (R70); a divide completes and lands (R401); a waiting
write of XPCFG loads the pattern and the register's fields (R188), one of a bank format the bank's register once no block of
the bank is engine-owned (R180), and each then delivers 0. -/
def Obligations.ResultsLand : Prop := ∀ (s : State) (sid : Nat) (sh : Sheet), sid < 24576 → s.sheet? sid = some sh →
  (∀ u th f, oldestFlight sh u th = some f → f.stalling = false → f.ready = true → (u = .sys → f.due ≤ s.cycle (coreOf sid)) →
    Does (.resultLanding sid u th) s (fun t => OnlySheet s t sid ∧
      t.sheet? sid = some { sh.deliver u th f.q f.w with flights := sh.flights.erase f })) ∧
  (∀ th f, OnlyFlight sh f → f.unit = .imu → f.thread = th → f.stalling = true → f.ready = false →
    Does (.divideComplete sid th) s (fun t => OnlySheet s t sid ∧ ∃ y, t.sheet? sid = some y ∧ Landed y f f.q f.w ∧
      ∀ g ∈ y.flights, g.unit = .imu → g.thread ≠ th)) ∧
  (∀ w, sh.sys = .csr w → w.num = 4 → Does (.xpcfgWrite sid) s (fun t => OnlySheet s t sid ∧ ∃ y, t.sheet? sid = some y ∧
    y.xpAoff = (w.val >>> 6).setWidth 11 ∧ y.xpPat = w.val.setWidth 2 ∧ y.sys = .land w.id ∧
    lookup y.xp (w.val.toNat % 4) = (if xpNf w.image = 0 then none else some w.image) ∧
    (∀ p, p ≠ w.val.toNat % 4 → lookup y.xp p = lookup sh.xp p) ∧
    ∀ f, OnlyFlight sh f → f.id = w.id → f.stalling = true → Landed y f (some 0) none)) ∧
  (∀ w g a b, sh.sys = .csr w → s.wg? sh.wg = some g → csrBank w.num = some (a, b) → bankExists g a b = true → bankHeld s sh.wg g a b = false →
    Does (.bankFormatWrite sid) s (fun t => SameMemory s t ∧ (∃ g', t.wg? sh.wg = some g' ∧ bankRead g' a b = bankMask a w.val ∧
        ∀ a' b', bankKey a' b' ≠ bankKey a b → bankRead g' a' b' = bankRead g a' b') ∧
      ∃ y, t.sheet? sid = some y ∧ y.sys = .land w.id ∧ ∀ f, OnlyFlight sh f → f.id = w.id → f.stalling = true → Landed y f (some 0) none))

/-- An access of a queue is performed (R199, R201, R212): a load delivers the bytes found, an atomic the old value after it has
written the new one, a store its bytes, at the buffer, at the L1 and on its way to the home, or at the host port whose flush is
still to come; the entry leaves the queue (R191, R206). An access of two 8-byte units, each single-copy atomic on its own, is
performed whole or one unit first, and keeps its place until the other is performed (R202). -/
def Obligations.AccessesPerformed : Prop := ∀ (s : State) (sid k : Nat) (sh : Sheet) (a : Access), sid < 24576 → MayPerform s sid k sh a →
  (∀ f bs, a.kind = .load → a.seen = [] → OnlyFlight sh f → f.id = a.flight → f.stalling = true → Finds s sid (sh.queue.take k) a bs →
    (a.splits = false → Does (.loadPerformed sid k) s (fun t => SameMemory s t ∧ ∃ y, t.sheet? sid = some y ∧
      y.queue = sh.queue.eraseIdx k ∧ Landed y f (a.form.value bs).1 (a.form.value bs).2)) ∧
    (a.splits = true → Does (.loadPerformed sid k) s (fun t => SameMemory s t ∧ ∃ y, t.sheet? sid = some y ∧
      ((y.queue = sh.queue.eraseIdx k ∧ Landed y f (a.form.value bs).1 (a.form.value bs).2) ∨
       ∃ u b, y.queue = sh.queue.set k b ∧ b = { a with seen := b.seen } ∧
         ∀ e ∈ a.places.zip bs, lookup b.seen e.1 = if e.1 / 8 = u then some e.2 else none)))) ∧
  (∀ f bs v, a.kind = .load → a.splits = true → (∀ p ∈ a.places, ((lookup a.seen p).isNone ↔ p / 8 = v)) → (∃ p ∈ a.places, p / 8 = v) →
    OnlyFlight sh f → f.id = a.flight → f.stalling = true → Finds s sid (sh.queue.take k) a bs →
    Does (.loadPerformed sid k) s (fun t => SameMemory s t ∧ ∃ y, t.sheet? sid = some y ∧ y.queue = sh.queue.eraseIdx k ∧
      (let l := (a.places.zip bs).map (fun e => if e.1 / 8 = v then e.2 else getD a.seen 0 e.1)
       Landed y f (a.form.value l).1 (a.form.value l).2))) ∧
  (∀ f op dbl pa, a.kind = .atomic op dbl → a.space = .g → a.pieces = [(pa, if dbl then 8 else 4)] → s.homeq = [] →
    OnlyFlight sh f → f.id = a.flight → f.stalling = true →
    Does (.loadPerformed sid k) s (fun t => (∃ y, t.sheet? sid = some y ∧ y.queue = sh.queue.eraseIdx k ∧
        Landed y f (some (w64 (s.readNat pa (if dbl then 8 else 4)))) none) ∧
      match RmwOp.apply op (if dbl then 8 else 4) (s.readNat pa (if dbl then 8 else 4)) (leNat a.data) (leNat a.cmp) with
      | some v => WroteRun s t pa (leBytes (if dbl then 8 else 4) v)
      | none => SameMemory s t)) ∧
  (∀ f pa, a.kind = .cas2 → a.space = .g → a.pieces = [(pa, 16)] → s.homeq = [] → OnlyFlight sh f → f.id = a.flight → f.stalling = true →
    Does (.loadPerformed sid k) s (fun t => (∃ y, t.sheet? sid = some y ∧ y.queue = sh.queue.eraseIdx k ∧
        Landed y f (some (w64 (s.readNat pa 8))) (some (w64 (s.readNat (pa + 8) 8)))) ∧
      if s.readNat pa 16 = leNat a.cmp then WroteRun s t pa (leBytes 16 (leNat a.data)) else SameMemory s t)) ∧
  (∀ pa, a.kind = .store → a.space = .g → a.mt ≠ 2 → a.pieces = [(pa, a.data.length)] → a.data.length ≤ 16 →
    Does (.storePerformedAtL1 sid k) s (fun t => SameMemory s t ∧ (∃ y, t.sheet? sid = some y ∧ y.queue = sh.queue.eraseIdx k) ∧
      t.homeq = s.homeq ++ [⟨coreOf sid, sid, pa, a.data, s.partOf sh, s.ts, false, a.slot⟩] ∧
      ∀ w, pa ≤ 4 * w → 4 * w + 4 ≤ pa + a.data.length →
        l1Find t (coreOf sid) (s.colOf sid) w = some ⟨true, BitVec.ofNat 32 (leNat ((a.data.drop (4 * w - pa)).take 4))⟩)) ∧
  (∀ pa, a.kind = .store → a.space = .g → a.mt = 2 → a.pieces = [(pa, a.data.length)] → a.data.length ≠ 16 →
    Does (.storePerformedAtL1 sid k) s (fun t => WroteRun s t pa a.data ∧ (∃ y, t.sheet? sid = some y ∧ y.queue = sh.queue.eraseIdx k) ∧
      t.homeq = s.homeq ++ [⟨coreOf sid, sid, pa, a.data, s.partOf sh, s.ts, true, a.slot⟩])) ∧
  (∀ pa, a.kind = .store → a.space = .g → a.mt = 2 → a.pieces = [(pa, 16)] → a.data.length = 16 → pa % 8 = 0 → a.seen = [] →
    Does (.storePerformedAtL1 sid k) s (fun t => ∃ y, t.sheet? sid = some y ∧
      ((WroteRun s t pa a.data ∧ y.queue = sh.queue.eraseIdx k ∧
          t.homeq = s.homeq ++ [⟨coreOf sid, sid, pa, a.data, s.partOf sh, s.ts, true, a.slot⟩]) ∨
       ∃ j b, j < 2 ∧ WroteRun s t (pa + 8 * j) ((a.data.drop (8 * j)).take 8) ∧ y.queue = sh.queue.set k b ∧ b.kind = .store ∧
         b.pieces = [(pa + 8 * (1 - j), 8)] ∧ b.data = (a.data.drop (8 * (1 - j))).take 8 ∧
         t.homeq = s.homeq ++ [⟨coreOf sid, sid, pa + 8 * j, (a.data.drop (8 * j)).take 8, s.partOf sh, s.ts, true, a.slot⟩]))) ∧
  (∀ off w, a.kind = .store → a.space ≠ .g → s.wg? a.peer = some w → a.pieces = [(off, a.data.length)] →
    Does (.storePerformedAtL1 sid k) s (fun t => SameMemory s t ∧ t.homeq = s.homeq ∧ ∃ w', t.wg? a.peer = some w' ∧
      ∀ c isA, getD (if isA then w'.abuf else w'.wbuf) 0 c =
        if isA = (a.space != .w) ∧ off ≤ c ∧ c < off + a.data.length then a.data.getD (c - off) 0
        else getD (if isA then w.abuf else w.wbuf) 0 c))

/-- A store on its way is performed at its home, in its turn: its bytes stand in memory, its words are registered to its core and
are in no other L1 that was registered (R13, R193, R205). A home takes a word back from the L1 registered for it; a line that
leaves an L2 unregisters its words, and a pinned line does not leave (R22, R193, R194). -/
def Obligations.HomesAndRegistrations : Prop := ∀ (s : State),
  (∀ k h, s.homeq[k]? = some h → homeBehind (s.homeq.take k) h = false → (∀ sh, s.sheet? h.sid = some sh → ∀ a ∈ sh.queue, a.kind ≠ .order) →
    (h.flush = true → Does (.storePerformedAtHome k) s (fun t => SameMemory s t ∧ t.homeq = s.homeq.eraseIdx k)) ∧
    (h.flush = false → Does (.storePerformedAtHome k) s (fun t => WroteRun s t h.pa h.bytes ∧ t.homeq = s.homeq.eraseIdx k ∧
      ∀ w ∈ wordsOf h.pa h.bytes.length, getD t.reg 0 w = h.core + 1 ∧
        ∀ c, c ≠ h.core → getD s.reg 0 w = c + 1 → l1Find t c 0 w = none ∧ l1Find t c 1 w = none))) ∧
  (∀ core word, core < 1536 → getD s.reg 0 word = core + 1 → Does (.homeInvalidation core word) s (fun t => SameMemory s t ∧
    t.homeq = s.homeq ∧ l1Find t core 0 word = none ∧ l1Find t core 1 word = none ∧ getD t.reg 0 word = 0 ∧
    (∀ k, k ≠ l1Key 0 word → k ≠ l1Key 1 word → lookup (t.core core).l1 k = lookup (s.core core).l1 k) ∧
    (∀ w, w ≠ word → getD t.reg 0 w = getD s.reg 0 w) ∧ ∀ c, c ≠ core → t.core c = s.core c)) ∧
  (∀ line, (lookup s.pinned line).isSome → exec (.l2LineEviction line) s = .next s) ∧
  (∀ line, line < 2 ^ 45 → lookup s.pinned line = none → Does (.l2LineEviction line) s (fun t => SameMemory s t ∧ t.homeq = s.homeq ∧
    lookup t.l2 line = none ∧ (∀ l, l ≠ line → lookup t.l2 l = lookup s.l2 l) ∧
    (∀ w, w / 32 = line → getD t.reg 0 w = 0 ∧ ∀ c, getD s.reg 0 w = c + 1 → l1Find t c 0 w = none ∧ l1Find t c 1 w = none) ∧
    ∀ w, w < 2 ^ 50 → w / 32 ≠ line → getD t.reg 0 w = getD s.reg 0 w ∧ ∀ c, l1Find t c 0 w = l1Find s c 0 w ∧ l1Find t c 1 w = l1Find s c 1 w))

/-- Byte and group arrivals act on their barrier object in their turn (R251, R263, R265); BOWAIT's time runs out: the sheet's bit is
cleared, and it gets 0 behind its acquire (R209, R264). A request to a workgroup that is away is performed on its image, held
while its entry is locked, performed at the core that holds the workgroup again, or discarded and counted, its load, BOARR or
BOTEST delivering 0 (R197, R268, R269, R270). That BOARR and BOTEST get 0 too, and that each request counts one, is the model's
choice (log 25). -/
def Obligations.ArrivalsAndRequests : Prop := ∀ (s : State),
  (∀ k a, s.arrivals[k]? = some a → NotHeld s a → Does (.byteArrival k) s (fun t => t.arrivals = s.arrivals.eraseIdx k ∧ Arrives s t a)) ∧
  (∀ k a, s.roundArrivals[k]? = some a → NotHeld s a →
    Does (.groupArrival k) s (fun t => t.roundArrivals = s.roundArrivals.eraseIdx k ∧ Arrives s t a)) ∧
  (∀ sid sh off d id n, sid < 24576 → s.sheet? sid = some sh → sh.wait = .object off d id → sh.park = .running → d ≤ s.cycle (coreOf sid) →
    (s.wg? sh.wg).isSome → objectFree s sh.wg off = true → stepTurn s sh.wg off (synRank s sid sh false) = true →
    lowerStep s sid sh.wg off (synRank s sid sh false) = false → bitAt (objWaiters (readObj s sh.wg off)) sh.num = true →
    sh.queue = [orderEntry n (some .dev) none true true false (.held id)] →
    Does (.bowaitTimeout sid) s (fun t => SameMemory s t ∧ bitAt (objWaiters (readObj t sh.wg off)) sh.num = false ∧
      ∃ y, t.sheet? sid = some y ∧ y.wait = .land id ∧ y.queue = [] ∧
        (∀ f, OnlyFlight sh f → f.id = id → f.stalling = true → Landed y f (some 0) none))) ∧
  (∀ k q, s.peerReqs[k]? = some q → (∀ o ∈ s.peerReqs.take k, o.wg ≠ q.wg) →
    (∀ r, redirectOf s q.wg = some r → r.locked = true → exec (.redirectedRequest k) s = .next s) ∧
    (∀ bs w, q.op = .write bs → redirectOf s q.wg = none → s.wg? q.wg = some w → scrubHolds s q.wg = false → requestHeld s q = false → Does (.redirectedRequest k) s (fun t => SameMemory s t ∧
      t.peerReqs = s.peerReqs.eraseIdx k ∧ ∃ w', t.wg? q.wg = some w' ∧ PutRun w.abuf w'.abuf q.off bs)) ∧
    (∀ bs r w m, q.op = .write bs → redirectOf s q.wg = some r → r.locked = false → ImageRec.workgroup q.wg w ∈ (s.part r.part).image →
      ImageRec.abuf q.wg m ∈ (s.part r.part).image → (∀ m', ImageRec.abuf q.wg m' ∈ (s.part r.part).image → m' = m) →
      Does (.redirectedRequest k) s (fun t => SameMemory s t ∧ t.peerReqs = s.peerReqs.eraseIdx k ∧
        ∃ m', ImageRec.abuf q.wg m' ∈ (t.part r.part).image ∧ PutRun m m' q.off bs)) ∧
    (redirectOf s q.wg = none → s.wg? q.wg = none →
      ((∀ sid id, q.op ≠ .botest sid id) → Does (.discardedRequest k) s (fun t => SameMemory s t ∧ t.peerReqs = s.peerReqs.eraseIdx k ∧
        Counts s t q.part 11 1 ∧
        (∀ sid sh a f, q.op = .access sid a → a.kind = .load → s.sheet? sid = some sh → OnlyFlight sh f → f.id = a.flight →
          f.stalling = true → ∃ y, t.sheet? sid = some y ∧ y.queue = sh.queue.filter (fun b => b.id != a.id) ∧ Landed y f (some 0) none) ∧
        ∀ m sid slot sh h, q.op = .boarr m sid slot → s.sheet? sid = some sh → sh.held = some h → (∀ f ∈ sh.flights, f.unit ≠ .syn) →
          ∃ y h', t.sheet? sid = some y ∧ y.held = some h' ∧ h'.todo = h.todo.filter (· != slot) ∧ y.getQ .syn 0 0 = 0)) ∧
      ∀ sid id n sh f, q.op = .botest sid id → s.sheet? sid = some sh → sh.queue = [orderEntry n (some .dev) none true true false (.held id)] →
        OnlyFlight sh f → f.id = id → f.stalling = true → Does (.discardedRequest k) s (fun t => SameMemory s t ∧
          t.peerReqs = s.peerReqs.eraseIdx k ∧ Counts s t q.part 11 1 ∧ ∃ y, t.sheet? sid = some y ∧ y.queue = [] ∧ Landed y f (some 0) none)))

/-- A full round closes: its rows are written in order in the group's destination, the round ends, and its completion object on this
device gets one arrival; a row that misses in translation waits with its page request; where a row cannot be written, the round ends and its contribution's command is cancelled with ENGINE_ERROR,
or its sheet stops before its next bundle (R236, R238, R480). That rows and the arrival for another device count as delivered, and
that an offset beyond the allocation is a failure, are the model's choices (log 41). -/
def Obligations.RoundsEnd : Prop := ∀ (s : State) (part gi roff : Nat) (g : Group) (r : Round), part < 40 → gi < 64 →
  s.group part gi = some g → getRound s part gi roff = some r → roundFull g r = true → r.rows < Group.rows g → Group.rows g ≤ 16 →
  (∀ d x w, gField g 272 16 = s.deviceNo → gField g 242 2 = 1 → gWorkgroup g r 320 = some d → s.wg? d = some x → gWorkgroup g r 336 = some w →
    lookup (s.core x.core).scrub x.col = none → (∀ k < Group.rows g, gField g 384 17 + (r.roff + k) * gField g 352 32 + 512 ≤ x.aSize) →
    Does (.roundClose part gi roff) s (fun t => SameMemory s t ∧ getRound t part gi roff = none ∧
      t.roundArrivals = s.roundArrivals ++ [⟨none, none, w, gField g 303 17, part, s.ts, 2⟩] ∧ ∃ x', t.wg? d = some x' ∧ ∀ j < 128,
        leNat (x'.readBuf true (gField g 384 17 + (r.roff + (Group.rows g - 1)) * gField g 352 32 + 4 * j) 4) =
          ((roundRow g r.contribs (Group.rows g - 1)).getD j 0).toNat)) ∧
  (∀ p, r.rows + 1 = Group.rows g → rowPlace s g r r.rows = .ok p → rowFree s p = true →
    Does (.roundClose part gi roff) s (fun t => RowStands s t p ((roundRow g r.contribs r.rows).flatMap (fun v => leBytes 4 v.toNat)) ∧
      getRound t part gi roff = none ∧ (∀ w, gField g 272 16 = s.deviceNo → gWorkgroup g r 336 = some w →
        t.roundArrivals = s.roundArrivals ++ [⟨none, none, w, gField g 303 17, part, s.ts, 2⟩]) ∧
      (gField g 272 16 ≠ s.deviceNo → t.roundArrivals = s.roundArrivals))) ∧
  (∀ p, r.rows + 1 < Group.rows g → rowPlace s g r r.rows = .ok p → rowFree s p = true →
    Does (.roundClose part gi roff) s (fun t => getRound t part gi roff = none ∨ ∃ r', getRound t part gi roff = some r' ∧ r.rows < r'.rows)) ∧
  (∀ f, rowPlace s g r r.rows = .error f → openMiss s (.round part gi roff) (gField g 288 10) f = true →
    Does (.roundClose part gi roff) s (fun t => t = { s with dies := t.dies }) ∧ exec (.roundFailure part gi roff) s = .next s) ∧
  (∀ f, rowPlace s g r r.rows = .error f → openMiss s (.round part gi roff) (gField g 288 10) f = false → Does (.roundFailure part gi roff) s (fun t =>
    (PlainContribs s r → SameMemory s t) ∧ getRound t part gi roff = none ∧
    (∀ c e k, r.contribs = [c] → c.core < 1536 → (s.core c.core).cmds.find? (fun p => p.2.num == c.num) = some (e, k) →
      ∃ k', t.cmd? c.core e = some k' ∧ k'.phase = .completed ∧ k'.cause = .engineError ∧ k'.canc = true) ∧
    (∀ c sh, r.contribs = [c] → c.core < 1536 → (∀ p ∈ (s.core c.core).cmds, p.2.num ≠ c.num) → s.sheet? c.sid = some sh → sh.wg = c.wg →
      ∃ y x, t.sheet? c.sid = some y ∧ y.lates = sh.lates ++ [x] ∧ x.cause = .engineError ∧ x.late = true)))

/-- A command whose resource is free issues: it starts, in split mode in its own windows, or asks its cluster's Reef for units first,
behind the requests of earlier cycles and, of its own cycle, those of lesser core and entry; the head request is granted from the
next cycle on where its units fit the budget, and its command starts (R89, R221 to R223, R253, R254). A command whose results are
due and whose sectors have moved writes them (R223, R317), unless a core under scrub is to take them (R197); a completed command delivers its value in
its engine's port, after its byte arrival, and frees its entry (R224, R298). A cause found after commit stops the sheet before its next bundle with its
record; a stopped command is cancelled with CAN in its status, or, stopped by GUARD_DATA, goes on behind the failing
coefficient and its parked sheet may resume (R224, R225, R244, R284). The start of a half-core's command in its windows is the
model's choice (log 27). -/
def Obligations.CommandsRunAndStop : Prop :=
  (∀ (s : State) (core e : Nat) (c : Cmd), core < 1536 → e < 32 → s.cmd? core e = some c →
  (canIssue s core e = true → c.units = 0 → Does (.commandIssue core e) s (fun t => SameMemory s t ∧ t.sheets = s.sheets ∧
    t.cmd? core e = some { c with phase := .started, start := engineStart s core c } ∧ ∀ k, k ≠ e → t.cmd? core k = s.cmd? core k)) ∧
  (canIssue s core e = true → c.units ≠ 0 → Does (.commandIssue core e) s (fun t => SameMemory s t ∧ t.sheets = s.sheets ∧
    t.cmd? core e = some { c with phase := .requested } ∧ (∀ k, k ≠ e → t.cmd? core k = s.cmd? core k) ∧
    ∃ l r, (s.cluster (clusterOf core)).resv = l ++ r ∧
      (t.cluster (clusterOf core)).resv = l ++ [⟨core, e, c.units, s.cycle core, false⟩] ++ r ∧
      (∀ p ∈ l, ¬ (p.at_ = s.cycle core ∧ core * 32 + e < p.core * 32 + p.e)) ∧
      (∀ p, r.head? = some p → p.at_ = s.cycle core ∧ core * 32 + e < p.core * 32 + p.e))) ∧
  (∀ cl q r, cl < 192 → (s.cluster cl).resv = q :: r → q.core = core → q.e = e → (s.cluster cl).defer = false → q.at_ < s.cycle core →
    heldUnits s cl + q.units ≤ (s.cluster cl).budget → Does (.reservationGrant cl) s (fun t => SameMemory s t ∧ t.sheets = s.sheets ∧
      t.cmd? core e = some { c with phase := .started, start := engineStart s core c } ∧ (t.cluster cl).resv = r)) ∧
  (c.phase = .consumed → c.start + (c.cycles s).2 ≤ s.cycle core → writeSectors s core c ≤ c.paid → c.outs.any (outHeld s) = false → Does (.commandCompletion core e) s (fun t =>
    (∃ c', t.cmd? core e = some c' ∧ c'.phase = .completed ∧ c'.outs = [] ∧ c'.value = cmdValue e c) ∧
    ∀ l w, c.outs = l ++ [w] → OutMade s t w)) ∧
  (∀ sid u sh f, sid < 24576 → oldestOf s sid u = some (e, c) → coreOf sid = core → c.phase = .completed → c.ended < s.cycle core → arrivalUnderWay s core c.num = false → s.sheet? sid = some sh → OnlyFlight sh f →
    f.id = c.flight → f.stalling = true → Does (.statusLanding sid u) s (fun t => SameMemory s t ∧ t.cmd? core e = none ∧
      (∀ k, k ≠ e → t.cmd? core k = s.cmd? core k) ∧ ∃ y, t.sheet? sid = some y ∧ Landed y f (some c.value) none))) ∧
  (∀ (s : State),
  (∀ sid sh r l, sid < 24576 → s.sheet? sid = some sh → sh.lates = r :: l → sh.park = .running →
    Does (.lateCauseStop sid) s (fun t => SameMemory s t ∧ ∃ y, t.sheet? sid = some y ∧ y.lates = l ∧ y.park = .raised ∧
      y.trap = some { r with ts := s.ts } ∧ y.v = sh.v ∧ y.s = sh.s ∧ y.p = sh.p ∧ y.pc = sh.pc)) ∧
  (∀ core e c, core < 1536 → e < 32 → s.cmd? core e = some c → c.phase = .stopped →
    Does (.commandCancel core e) s (fun t => t = { s with cores := t.cores, parts := t.parts } ∧ (∀ k, k ≠ core → t.core k = s.core k) ∧
      (∀ k, k ≠ e → t.cmd? core k = s.cmd? core k) ∧ ∃ c', t.cmd? core e = some c' ∧
      c'.phase = .completed ∧ c'.canc = true ∧ c'.outs = [] ∧ c'.value.toNat % 256 = c.cause.code ∧ c'.value.toNat / 256 % 256 = e ∧
      c'.value.getLsbD 17 = true)) ∧
  (∀ core e c w sh, core < 1536 → e < 32 → s.cmd? core e = some c → c.phase = .stopped → c.cause = .guardData → s.wg? c.wg = some w →
    s.sheet? c.sid = some sh → Does (.commandResume core e) s (fun t => SameMemory s t ∧ (∃ c', t.cmd? core e = some c' ∧
      c'.phase = .started ∧ c'.at_ = c.at_ + 1 ∧ c'.cause = .none) ∧
      ∀ r, sh.park = .service → sh.trap = some r → r.late = true → r.ent = e → ∃ y, t.sheet? c.sid = some y ∧ y.park = .resume)))

/-- The results of engine commands when their operands are consumed: the limbs of CMUL, CMAC, CSQR, CADD, CSUB, CSHL, CCLR and
CBIG as 1,024-bit words (R384, R385), and those of CPACK and CPACKV as packed values (R171, R240, R390); the coefficients that CEXT and
CEXTV write, and the first beyond its bound, which stops them (R173, R244, R387); the elements of MMA, MMAB and MMAI through all their
blocks, with IOVF (R165 to R167, R438); the rows of MXZERO, MXDRAIN, MXST and MXLD (R234, R440, R441, R443), and those that MXRED
contributes to its round (R237, R442); and the elements that DCOPY, DFILL, DGATH and DSCAT move where no conversion applies (R249,
R398). The upper half of a 16-byte element of DFILL (log 73) and the sign of a zero that MXDRAIN writes (log 86) are the model's
choices. -/
def Obligations.EngineResults : Prop := ∀ (s : State) (core e : Nat) (c : Cmd) (h : Head) (d : Limb),
  LimbResult s core e c (.cmul h d) d (fun w => limbWord w (cfeA c.trig) * limbWord w (cfeB c.trig)) ∧
  LimbResult s core e c (.cmac h d) d (fun w => limbWord w d.val + limbWord w (cfeA c.trig) * limbWord w (cfeB c.trig)) ∧
  LimbResult s core e c (.csqr h d) d (fun w => limbWord w (cfeA c.trig) * limbWord w (cfeA c.trig)) ∧
  LimbResult s core e c (.cadd h d) d (fun w => limbWord w (cfeA c.trig) + limbWord w (cfeB c.trig)) ∧
  LimbResult s core e c (.csub h d) d (fun w => limbWord w (cfeA c.trig) - limbWord w (cfeB c.trig)) ∧
  LimbResult s core e c (.cshl h d) d (fun w => limbWord w (cfeA c.trig) <<< ((c.regs.getD 0 0).toNat * c.x0.toNat)) ∧
  LimbResult s core e c (.cclr h d) d (fun _ => 0) ∧
  LimbResult s core e c (.cbig h d) d (fun w =>
    ((limbWord w (cfeA c.trig)).setWidth 512).setWidth 1024 * ((limbWord w (cfeB c.trig)).setWidth 512).setWidth 1024) ∧
  LimbResult s core e c (.cpack h d) d (fun w =>
    BitVec.ofInt 1024 (packed c (leNat (w.readBuf true (c.f 0) ((c.f 4 * (c.f 2 - 1) + ewWidth (c.f 1) + 7) / 8))))) ∧
  LimbResult s core e c (.cpackv h d) d (fun _ => BitVec.ofInt 1024 (packed c (leNat (c.regs.flatMap (fun v => leBytes 8 v.toNat))))) ∧
  Extracts s core e c (.cext h) false ∧ Extracts s core e c (.cextv h) true ∧
  (∀ m, c.fmts.length = c.f 2 → MxeResult s core e c (.mma h m) (fun w k => WritesTile w c k.outs (fun i j =>
    inOrder (fp8Block c w i j) (c.f 2) (cellOf m w c i j)))) ∧
  (∀ m, c.fmts.length = c.f 2 → MxeResult s core e c (.mmab h m) (fun w k => WritesTile w c k.outs (fun i j =>
    inOrder (bf16Block c w i j) (c.f 2) (cellOf m w c i j)))) ∧
  (∀ m, c.fmts.length = c.f 2 → MxeResult s core e c (.mmai h m) (fun w k =>
    WritesTile w c k.outs (fun i j => (inOrder (int8Block c w i j) (c.f 2) (BitVec.ofNat 32 (cellOf m w c i j), false)).1.toNat) ∧
    (k.ovf = true ↔ ∃ i < 16, ∃ j < 128, (inOrder (int8Block c w i j) (c.f 2) (BitVec.ofNat 32 (cellOf m w c i j), false)).2 = true))) ∧
  (∀ m, MxeResult s core e c (.mxzero h m) (fun w k => ∀ i < 16,
    k.outs[i]? = some (.tile c.wg (getD w.tileBind 0 c.tile) i (List.replicate 128 0)))) ∧
  (∀ m, c.f 5 < 6 → MxeResult s core e c (.mxdrain h m) (fun w k => ∀ i < c.f 9, ∃ bs,
    k.outs[i]? = some (.abuf c.wg (c.f 4 + 128 * i * dfmtBytes (c.f 5)) bs) ∧ bs.length = 128 * dfmtBytes (c.f 5) ∧
    ((if getD w.tileInt false c.tile then c.f 5 ∈ [0, 4, 5] else c.f 5 ∈ [0, 1, 2, 3]) →
      ∀ j < 128, leNat ((bs.drop (j * dfmtBytes (c.f 5))).take (dfmtBytes (c.f 5))) =
        drained (getD w.tileInt false c.tile) (c.f 5) (c.f 6) (getD w.tiles 0 (tileKey (getD w.tileBind 0 c.tile) i j)) %
          2 ^ (8 * dfmtBytes (c.f 5))))) ∧
  (∀ m, MxeResult s core e c (.mxst h m) (fun w k => ∀ i < c.f 9, ∃ bs, k.outs[i]? = some (.abuf c.wg (c.f 4 + 512 * i) bs) ∧ bs.length = 512 ∧
    ∀ j < 128, leNat ((bs.drop (4 * j)).take 4) = (getD w.tiles 0 (tileKey (getD w.tileBind 0 c.tile) i j)).toNat)) ∧
  (∀ m, MxeResult s core e c (.mxld h m) (fun w k =>
    (∀ i < min 16 (c.f 9), ∃ l, k.outs[i]? = some (.tile c.wg (getD w.tileBind 0 c.tile) i l) ∧
      l.length = 128 ∧ ∀ j < 128, (l.getD j 0).toNat = leNat (w.readBuf true (c.f 4 + 512 * i + 4 * j) 4)) ∧
    (m.fresh = true → ∀ i < 16, c.f 9 ≤ i → k.outs[i]? = some (.tile c.wg (getD w.tileBind 0 c.tile) i (List.replicate 128 0))) ∧
    (m.fresh = false → k.outs.length = min 16 (c.f 9)))) ∧
  (∀ d, Contributes s core e c (.mxred h d)) ∧ Moves s core e c

/-! ## Stops -/

/-- The management core handles a stop by the disposition that FDISP selects (R279, R280): a service, completion without the
trap, a skip, the debugger where it is attached, or the termination of the grid; the debugger's orders resume, skip or
terminate. It reports the stop on the operator's view as the policy's fault detail allows (R344). That the report is its answer
(log 21), and that the debugger's skip sets SKIPST (log 52), are the model's choices. -/
def Obligations.StopsAreHandled : Prop := ∀ (s : State) (sid : Nat) (sh : Sheet) (r : Trap) (w : Workgroup), sid < 24576 → s.sheet? sid = some sh →
  sh.trap = some r → s.wg? sh.wg = some w →
  (sh.park = .raised → disposition (s.part (s.partOf sh)).fdisp r.cause = 1 →
    (r.cause = .opRetired ∨ r.cause = .opAbsent ∨ (r.cause = .translation ∧ r.miss = true) →
      Does (.faultHandling sid) s (fun t => Parks (reportStop s sh r) t sid sh .service r)) ∧
    (r.cause = .intervalEmpty ∨ r.cause = .fpEnabled ∨ r.cause = .intDivide →
      Does (.faultHandling sid) s (fun t => Parks (reportStop s sh r) t sid sh .resume { r with waive := r.rslot :: r.waive })) ∧
    (r.cause = .barrierOverrun ∨ r.cause = .spawnOverflow →
      Does (.faultHandling sid) s (fun t => Parks (reportStop s sh r) t sid sh .service r)) ∧
    (r.cause = .guardData → Does (.faultHandling sid) s (fun t => t.agenda = s.agenda ++ [.commandResume (coreOf sid) r.ent] ∧
      t.sheet? sid = some { sh with park := .service, trap := some r } ∧ SameMemory s t))) ∧
  (sh.park = .raised → disposition (s.part (s.partOf sh)).fdisp r.cause = 2 → (s.part (s.partOf sh)).debugger = true →
    Does (.faultHandling sid) s (fun t => Parks (reportStop s sh r) t sid sh .debug r)) ∧
  (sh.park = .raised → disposition (s.part (s.partOf sh)).fdisp r.cause = 3 → Does (.faultHandling sid) s (fun t => Skips (reportStop s sh r) t sid sh r)) ∧
  (sh.park = .raised → (disposition (s.part (s.partOf sh)).fdisp r.cause = 0 ∨ (disposition (s.part (s.partOf sh)).fdisp r.cause = 2 ∧
      (s.part (s.partOf sh)).debugger = false)) → Does (.faultHandling sid) s (fun t => GridEnds s t w.grid (r.cause, coreOf sid))) ∧
  (sh.park = .debug → r.late = false → Does (.debuggerResume sid) s (fun t => Parks s t sid sh .resume r)) ∧
  (sh.park = .debug → r.late = false → r.blocks ≠ [] → Does (.debuggerSkip sid) s (fun t => Skips s t sid sh r)) ∧
  (sh.park = .debug → r.late = true → ∀ c, r.ent < 32 → s.cmd? (coreOf sid) r.ent = some c → c.phase = .stopped →
    Does (.debuggerSkip sid) s (fun t => t.sheet? sid = some { sh with park := .resume, trap := some r } ∧
      ∃ c', t.cmd? (coreOf sid) r.ent = some c' ∧ c'.phase = .completed ∧ c'.canc = true)) ∧
  (sh.park = .debug → Does (.debuggerTerminate sid) s (fun t => GridEnds s t w.grid (r.cause, coreOf sid))) ∧
  (reportStop s sh r = { s with reply := (reportStop s sh r).reply } ∧ ∀ ts, ts = r.ts / 2 ^ (policyOf s (s.partOf sh)).tsres * 2 ^ (policyOf s (s.partOf sh)).tsres →
    ((policyOf s (s.partOf sh)).fdet = 0 → (reportStop s sh r).reply = leNat (leBytes 64 (Trap.header { r with ts := ts, faddr := 0, info := 0 } sh.width))) ∧
    ((policyOf s (s.partOf sh)).fdet = 1 → (reportStop s sh r).reply =
      leNat (leBytes 64 (Trap.header { r with ts := ts, faddr := w64 (r.faddr.toNat / 4096 * 4096) } sh.width))) ∧
    ((policyOf s (s.partOf sh)).fdet = 2 → (reportStop s sh r).reply = leNat (trapBytes { r with ts := ts } sh.width)))

/-- A parked sheet goes on: the library emulates an operation of another profile and delivers its results, then the stop becomes
FP_ENABLED or INTERVAL_EMPTY where a flag that it raises is enabled, and OP_UNASSIGNED where the library has no emulation
(R288); a stop of the whole bundle or after commit returns to its pc, one whose moves are all done goes on behind its bundle, and
the sheet stops there where a class D stop is pending (R287, R295); SVC's answer lands (R463). Emulation and the answer to SVC complete
in a saved context too, on its image (R297). A sheet that has waited WDLIM cycles at one bundle, its next one or one made of the moves
of a stop, takes WATCHDOG (R281). That the record's cause changes in the same stop (log 61), and that an operation
without an emulation becomes OP_UNASSIGNED (log 22), are the model's choices. -/
def Obligations.ParkedSheetsGoOn : Prop :=
  (∀ (s : State) (sid part : Nat) (sh : Sheet), sid < 24576 → part < 40 → s.sheet? sid = none → savedSheet (s.part part).image sid = some sh →
    (∀ e ∈ s.parts, (savedSheet e.2.image sid).isSome → e.1 = part) →
    (∀ r m u, sh.park = .service → sh.trap = some r → r.cause = .opAbsent ∨ r.cause = .opRetired → r.reported = some m → m.trig = some u →
      Does (.emulation sid) s (fun t => OnlyPart s t part ∧ ∃ y, savedSheet (t.part part).image sid = some y ∧ Emulates sh y r m u)) ∧
    (∀ k x id v f, sh.sys = .svc k x id → OnlyFlight sh f → f.id = id → f.stalling = true → Does (.svcAnswer sid v) s (fun t => OnlyPart s t part ∧
      ∃ y, savedSheet (t.part part).image sid = some y ∧ y.sys = .land id ∧ y.park = sh.park ∧ Landed y f (some (svcValue s part k v)) none))) ∧
  ∀ (s : State) (sid : Nat) (sh : Sheet), sid < 24576 → s.sheet? sid = some sh →
  (∀ r m u, sh.park = .service → sh.trap = some r → r.cause = .opAbsent ∨ r.cause = .opRetired → r.reported = some m → m.trig = some u →
    Does (.emulation sid) s (fun t => OnlySheet s t sid ∧ ∃ y, t.sheet? sid = some y ∧ Emulates sh y r m u)) ∧
  (∀ r, sh.park = .resume → sh.trap = some r → getD (s.core (coreOf sid)).busy 0 (s.colOf sid) ≤ s.cycle (coreOf sid) →
    sh.nextIssue ≤ s.cycle (coreOf sid) →
    (r.late = true ∨ r.whole = true → Does (.resumedBundle sid) s (fun t => OnlySheet s t sid ∧
      t.sheet? sid = some { sh with trap := none, park := .running, stopNext := !sh.left && classDPending s sh })) ∧
    (r.late = false → r.whole = false → r.blocks = [] → sh.nest = none → sh.skip = 0 → sh.left = false → sh.armed = false →
      sh.rcv ≠ some (r.baddr + BitVec.ofNat 64 r.format.size) → Does (.resumedBundle sid) s (fun t => SameMemory s t ∧
        ∃ y, t.sheet? sid = some y ∧ y.trap = none ∧ y.park = .running ∧ y.pc = r.baddr + BitVec.ofNat 64 r.format.size ∧
          y.stopNext = classDPending s sh ∧ y.v = sh.v ∧ y.s = sh.s ∧ y.p = sh.p))) ∧
  (∀ k x id v, sh.sys = .svc k x id → sh.park = .running → Does (.svcAnswer sid v) s (fun t => OnlySheet s t sid ∧ ∃ y, t.sheet? sid = some y ∧
    y.sys = .land id ∧ y.stopNext = classDPending s sh ∧ ∀ f, OnlyFlight sh f → f.id = id → f.stalling = true →
      Landed y f (some (svcValue s (s.partOf sh) k v)) none)) ∧
  ((s.part (s.partOf sh)).wdlim ≠ 0 → (s.part (s.partOf sh)).wdlim ≤ sh.watch →
    (sh.park = .running → Does (.watchdog sid) s (fun t => SameMemory s t ∧ ∃ y r, t.sheet? sid = some y ∧
      y.park = .raised ∧ y.trap = some r ∧ r.cause = .watchdog ∧ r.baddr = sh.pc ∧ r.late = false ∧ y.pc = sh.pc ∧ y.v = sh.v)) ∧
    (∀ r, sh.park = .resume → sh.trap = some r → Does (.watchdog sid) s (fun t => SameMemory s t ∧ ∃ y r', t.sheet? sid = some y ∧
      y.park = .raised ∧ y.trap = some r' ∧ r'.cause = .watchdog ∧ r'.baddr = r.baddr ∧ r'.blocks = r.blocks ∧ r'.done = r.done ∧
      y.pc = sh.pc ∧ y.v = sh.v)))

/-- A corrected error counts (R282); an uncorrectable one marks the value that a slot of the next bundle reads, stops the
command that reads it with UNCORRECTABLE, poisons its sector, or fails the round whose row it meets (R238, R282); a sample record is written in its partition's trace
ring (R336, R337). The slot, the source and the address of a sample are the model's choice (log 39). -/
def Obligations.ErrorsAndSamples : Prop := ∀ (s : State),
  (∀ part core, part < 40 → core < 1536 → Does (.softErrorCorrected ⟨part, core⟩) s (fun t => SameMemory s t ∧ t.sheets = s.sheets ∧ Counts s t part 16 1)) ∧
  (∀ sid slot sh, sid < 24576 → s.sheet? sid = some sh → Does (.uncorrectable (.move sid slot)) s (fun t => OnlySheet s t sid ∧
    t.sheet? sid = some { sh with corrupt := some slot })) ∧
  (∀ core e c sh, core < 1536 → e < 32 → s.cmd? core e = some c → c.phase = .started → s.sheet? c.sid = some sh →
    Does (.uncorrectable (.command core e)) s (fun t => Stops s t core e c sh .uncorrectable 0)) ∧
  (∀ pa, Does (.uncorrectable (.sector pa)) s (fun t => t = { s with poisoned := t.poisoned } ∧ (pa / 32) ∈ t.poisoned ∧
    ∀ q, q ≠ pa / 32 → (q ∈ t.poisoned ↔ q ∈ s.poisoned))) ∧
  (∀ part gi roff g r, part < 40 → gi < 64 → s.group part gi = some g → getRound s part gi roff = some r → roundFull g r = true → r.rows < Group.rows g →
    Does (.uncorrectable (.round part gi roff)) s (fun t => (PlainContribs s r → SameMemory s t) ∧ getRound t part gi roff = none)) ∧
  (∀ part n sid slot sh r, part < 40 → sid < 24576 → s.sheet? sid = some sh → bitAt (getD (s.part part).pcsel 0 n).toNat 31 = true →
    bits (getD (s.part part).pcsel 0 n).toNat 10 5 ≠ 0 → getD (s.part part).rings Ring.reset 2 = r → r.desc.en = true →
    (r.desc.wr - r.desc.rd).toNat < r.desc.cap → (getD (s.part part).rings Ring.reset 3).desc.en = false →
    Does (.sampleRecord part n sid slot) s (fun t =>
      t.readBytes (r.desc.base + r.desc.wr.toNat % r.desc.cap * 32) 32 = leBytes 32 (2 + 2 ^ 8 * ofBool r.lost + 2 ^ 9 * slot + 2 ^ 96 * (n % 2 ^ 32) +
        2 ^ 128 * eventSource s sid (bits (getD (s.part part).pcsel 0 n).toNat 0 10) + 2 ^ 144 * (sh.lastPc.toNat % 2 ^ 48) + 2 ^ 192 * s.ts) ∧
      (getD (t.part part).rings Ring.reset 2).desc.wr = r.desc.wr + 1 ∧ (getD (t.part part).rings Ring.reset 2).lost = false))

/-! ## Launches, workgroups and contexts -/

/-- A store to a launch register asks for a launch, or fails with the first code of R352 (R351, R352). A launch is decided
against its record: STATUS 1 and code 0x13 where it is active, else the first failing check of R41 or acceptance with STATUS
1; the code lands at a LAUNCH move; a grid that is not cooperative joins its launch queue (R38 to R42). A portable object
is refused where the partition has no load-time translation, its code breaks R105 to R108 or its table R111 (R105, R110, R111).
A spawned launch whose queue has THRESH entries, or which is due at the end of its grid, advances LNCH or records its error (R51,
R52, R54). Code 2 where a leaf without W or V1 holds the record (log 44), BAD_KERNEL for a misaligned KADDR (log 74), the
comparison of WG before the tables (log 81), and the count of vector 0 only for a bit newly set (log 91) are the model's choices. -/
def Obligations.LaunchesAreDecided : Prop := ∀ (s : State),
  (∀ who vf part va n hb bs, va % 256 = 0 → n ≤ hField (leNat hb) 144 16 → loadAt s who vf va 256 = .ok hb → hField (leNat hb) 48 2 = 1 →
    loadAt s who vf va (objectSize (leNat hb)) = .ok bs →
    (s.part part).xlen = false ∨ kpfCode ((bs.drop 256).take (hField (leNat hb) 96 32)) = false ∨
      rcvOk (hField (leNat hb) 96 32) (rcvTable (bs.drop (hField (leNat hb) 256 32)) (hField (leNat hb) 240 8)) = false →
    loadKernel s who vf part va n = .error (.refuse 0x11)) ∧
  (∀ vf size v, vf < 1024 → let f := s.vf vf
    let fails (c : Nat) : Prop := Does (.launchSubmission vf size v) s (fun t =>
      if s.launches.any (LaunchReq.through vf) then t = { s with launches := s.launches ++ [.failed vf v c] } else SubmissionFails s t vf c v)
    (f.resetting = true → fails 5) ∧ (f.resetting = false → size ≠ 8 → fails 4) ∧
    (f.resetting = false → size = 8 → f.part = none → fails 3) ∧
    (f.resetting = false → size = 8 → f.part ≠ none → v.toNat % 64 ≠ 0 → fails 1) ∧
    (f.resetting = false → size = 8 → f.part ≠ none → v.toNat % 64 = 0 → (match recordAt s vf v with
      | .error _ => fails 2
      | .ok _ => Does (.launchSubmission vf size v) s (fun t => t = { s with launches := s.launches ++ [.host vf v] })))) ∧
  (∀ k vf va code, s.launches[k]? = some (.failed vf va code) → behindLaunch s k (.failed vf va code) = false →
    (∀ r ∈ s.refusedPages, r.1 ≠ .launch (.failed vf va code)) → Does (.launchAcceptance k) s (fun t =>
      SubmissionFails { s with launches := s.launches.eraseIdx k } t vf code va)) ∧
  (∀ k vf va part pa code, s.launches[k]? = some (.host vf va) → behindLaunch s k (.host vf va) = false → (s.vf vf).resetting = false →
    (s.vf vf).part = some part → recordAt s vf va = .ok pa →
    (recStatus s pa = 1 → Does (.launchAcceptance k) s (fun t => SameMemory s t ∧ t.launches = s.launches.eraseIdx k ∧ (t.vf vf).lerrCode = 6)) ∧
    (recStatus s pa ≠ 1 → Judged { s with launches := s.launches.eraseIdx k } (.launch (.host vf va)) vf part (s.readNat pa 64) (parseRec (s.readNat pa 64)) code → Does (.launchAcceptance k) s (fun t =>
      t.launches = s.launches.eraseIdx k ∧ t.readNat (pa + 48) 4 = (if code = 0 then 1 else code) ∧
      (code = 0 → t.lqueue = s.lqueue ++ [s.nextGrid] ∧ t.nextGrid = s.nextGrid + 1 ∧ ∃ g, t.grid? s.nextGrid = some g ∧ g.record = va ∧ g.vf = vf ∧
        g.part = part ∧ g.lrec = parseRec (s.readNat pa 64) ∧ g.depth = 0 ∧ g.parent = none ∧ g.host = true ∧ g.nextG = 0)))) ∧
  (∀ k vf va part pa r s0 s', s.launches[k]? = some (.host vf va) → behindLaunch s k (.host vf va) = false → (s.vf vf).resetting = false →
    (s.vf vf).part = some part → recordAt s vf va = .ok pa → recStatus s pa ≠ 1 → r = parseRec (s.readNat pa 64) → recBad (s.readNat pa 64) r = false →
    s0 = { s with launches := s.launches.eraseIdx k } →
    (∀ f, loadKernel s0 (.launch (.host vf va)) vf part r.kaddr.toNat r.threads = .error (.miss f) → Does (.launchAcceptance k) s (fun t => t = { s with dies := t.dies })) ∧
    (∀ ker, loadKernel s0 (.launch (.host vf va)) vf part r.kaddr.toNat r.threads = .ok (ker, s') → r.coop = true → fitsEmpty s' part (needOf ker r) r.clw = true →
      (24576 < r.total ∨ placeAll s'.nextGrid (r.total + 1) (coopGrid s' vf part va r ker) = none →
        Does (.launchAcceptance k) s (fun t => t.readNat (pa + 48) 4 = 0x12 ∧ t.nextGrid = s.nextGrid)) ∧
      ∀ s3, r.total ≤ 24576 → placeAll s'.nextGrid (r.total + 1) (coopGrid s' vf part va r ker) = some s3 →
        Does (.launchAcceptance k) s (fun t => if 4096 ≤ (s'.grids.filter (fun e => e.2.part == part)).length then t.readNat (pa + 48) 4 = 0x14
          else t.readNat (pa + 48) 4 = 1 ∧ t.lqueue = s.lqueue ∧ ∃ g, t.grid? s.nextGrid = some g ∧ g.lrec = r ∧ r.total ≤ g.nextG))) ∧
  (∀ k sid id gn va g pa code sh f, s.launches[k]? = some (.move sid sh.wg id gn va) → behindLaunch s k (.move sid sh.wg id gn va) = false →
    s.grid? gn = some g → g.ending = none → recordAt s g.vf va = .ok pa → recStatus s pa ≠ 1 →
    Judged { s with launches := s.launches.eraseIdx k } (.launch (.move sid sh.wg id gn va)) g.vf g.part (s.readNat pa 64) (parseRec (s.readNat pa 64)) code →
    s.sheet? sid = some sh → OnlyFlight sh f → f.id = id → f.stalling = true → Does (.launchAcceptance k) s (fun t =>
      t.launches = s.launches.eraseIdx k ∧ t.readNat (pa + 48) 4 = (if code = 0 then 1 else code) ∧ (∃ y, t.sheet? sid = some y ∧
        Landed y f (some (BitVec.ofNat 64 code)) none) ∧ (code = 0 → ∃ c, t.grid? s.nextGrid = some c ∧ c.depth = g.depth + 1 ∧ c.parent = some gn))) ∧
  (∀ k q g pa, s.spawns[k]? = some q → s.grid? q.grid = some g → g.ending = none → recordAt s g.vf q.queue = .ok pa → Untracked s →
    (qErr s pa ≠ 0 → Does (.spawnedLaunch k) s (fun t => t = { s with spawns := s.spawns.eraseIdx k, refusedPages := t.refusedPages })) ∧
    (qErr s pa = 0 → SpawnDue s q pa → qField s pa 0 8 % 64 ≠ 0 → Does (.spawnedLaunch k) s (fun t => t.nextGrid = s.nextGrid ∧
      t.spawns = s.spawns.eraseIdx k ∧ WroteRun s t (pa + 36) (leBytes 4 0x10))) ∧
    (∀ bs c r, qErr s pa = 0 → SpawnDue s q pa → qField s pa 0 8 % 64 = 0 → loadAt s (.spawn q) g.vf (qField s pa 0 8) 64 = .ok bs →
      (parseRec (leNat bs)).wy = 1 → (parseRec (leNat bs)).wz = 1 → (parseRec (leNat bs)).clw = 0 → (parseRec (leNat bs)).coop = false →
      r = { parseRec (leNat bs) with gx := ceilDiv (ixSub (qTail s pa) (qLnch s pa)) (max (parseRec (leNat bs)).wx 1), gy := 1, gz := 1 } →
      Judged { s with spawns := s.spawns.eraseIdx k } (.spawn q) g.vf g.part (leNat bs) r c → Does (.spawnedLaunch k) s (fun t => t.spawns = s.spawns.eraseIdx k ∧
        if c = 0 then qLnch t pa = qTail t pa ∧ ∃ x b, t.grid? s.nextGrid = some x ∧ x.depth = g.depth + 1 ∧ x.batch = some b ∧
          b.count = ixSub (qTail s pa) (qLnch s pa) else t.readNat (pa + 36) 4 = c)))

/-- A batch places workgroups of the partition's grid whose turn it is; a placed workgroup starts with a sheet in each of its
contexts (R45, R271, R273, R274). -/
def Obligations.WorkgroupsStart : Prop := ∀ (s : State),
  (∀ part s', part < 40 → batchOf s part = some s' → (∀ p < 40, (p + 40 - s.turn % 40) % 40 < (part + 40 - s.turn % 40) % 40 → batchOf s p = none) →
    Does (.dispatchBatch part) s (fun t => SameMemory s t ∧ t.sheets = s.sheets ∧ t.turn = (part + 1) % 40 ∧ s.nextWg < t.nextWg ∧
      (∀ k w, s.wg? k = some w → k < s.nextWg → t.wg? k = some w) ∧
      ∀ gn g, servedGrid s part = some gn → s.grid? gn = some g → let c := max g.lrec.clw 1
        t.nextWg = s.nextWg + c * min (freeSlots s gn (bestDie s gn)) (min 64 ((g.lrec.total - g.nextG) / c)) ∧
        ∀ k, s.nextWg ≤ k → k < t.nextWg → ∃ w, t.wg? k = some w ∧ w.grid = gn ∧ w.started = false ∧ w.g = g.nextG + (k - s.nextWg) ∧
          dieOf w.core = bestDie s gn ∧ (∃ u ∈ unitsOf s part, u.core = w.core ∧ u.col = w.col) ∧
          (g.lrec.clw ≠ 0 → g.lrec.clw ≤ 8 → w.core % 8 = (k - s.nextWg) % c))) ∧
  (∀ wg w g, s.wg? wg = some w → s.grid? w.grid = some g → w.started = false → servable s g.part = true →
    scrubbing s w.core w.col = false → scrubDue s w.core w.col g.part = false → w.ctxs.Nodup → Does (.workgroupStart wg) s (fun t => SameMemory s t ∧
      t.wg? wg = some { w with started := true } ∧ getD (t.core w.core).served 0 w.col = g.part + 1 ∧
      (∀ num c, w.ctxs[num]? = some c → ∃ y, t.sheet? (w.core * 16 + c) = some y ∧ Starts wg g num y) ∧
      ∀ sid, (∀ c ∈ w.ctxs, sid ≠ w.core * 16 + c) → t.sheet? sid = s.sheet? sid))

/-- A sheet without threads leaves its context, the last one ends its workgroup (R47); a grid whose workgroups have exited
retires with STATUS 2, one that was terminated ends with 3 and its fault detail or 4 (R42, R47, R48); a function-level reset
kills the root grids of its function (R353); a scrub starts where another context waits and, complete, leaves the unit's share of
L1, instruction cache, translations and registrations empty (R90, R196, R197). Which registrations are the share of a half is the
model's choice (log 43). -/
def Obligations.GridsEnd : Prop := ∀ (s : State),
  (∀ sid sh, sid < 24576 → s.sheet? sid = some sh → sh.left = true → sh.park = .running → sh.held = none → sh.issuing = none → sh.queue = [] → sh.lates = [] →
    (∀ h ∈ s.homeq, h.sid ≠ sid) → (∀ c ∈ vals (s.core (coreOf sid)).cmds, c.sid ≠ sid) → Does (.sheetExit sid) s (fun t => SameMemory s t ∧
      t.sheet? sid = none ∧ (∀ k, k ≠ sid → t.sheet? k = s.sheet? k) ∧ ∀ w g, s.wg? sh.wg = some w → s.grid? w.grid = some g →
        (∀ e ∈ s.sheets, e.1 ≠ sid → e.2.wg ≠ sh.wg) → t.wg? sh.wg = none ∧ ∃ g', t.grid? w.grid = some g' ∧ g'.done = g.done + 1)) ∧
  (∀ gn g pa, s.grid? gn = some g → childOf s gn = false → g.batch = none → recordAt s g.vf g.record = .ok pa → s.batches = [] →
    (g.ending = none → g.done = g.lrec.total → launchPending s gn = false →
      Does (.gridRetire gn) s (fun t => FinalStatus s t pa 2 0 ∧ t.grid? gn = none ∧ t.sheets.length = s.sheets.length)) ∧
    (∀ c core, g.ending = some (c, core) → Does (.gridTermination gn) s (fun t => t.grid? gn = none ∧
      if c = .none then FinalStatus s t pa 4 0 else FinalStatus s t pa 3 (fdetOf c core)))) ∧
  (∀ vf gn g, vf < 1024 → s.grid? gn = some g → g.host = true → g.vf = vf → Does (.functionLevelReset vf) s (fun t => (t.vf vf).resetting = true ∧
    (∃ g', t.grid? gn = some g' ∧ g'.ending.isSome = true) ∧ ∀ k w, t.wg? k = some w → w.grid ≠ gn)) ∧
  (∀ core col wg w g, core < 1536 → col < 2 → s.wg? wg = some w → s.grid? w.grid = some g → w.core = core → w.col = col → scrubDue s core col g.part = true →
    (∀ e ∈ s.wgs, e.2.core = core → e.2.col = col → e.2.started = false) → scrubbing s core col = false →
    unitQuiet s core col = true →
    Does (.scrubStart core col) s (fun t => OnlyCore s t core ∧ lookup (t.core core).scrub col = some (s.cycle core + 2048))) ∧
  (∀ core col c, core < 1536 → col < 2 → lookup (s.core core).scrub col = some c → c ≤ s.cycle core → Does (.scrubComplete core col) s (fun t =>
    SameMemory s t ∧ t.sheets = s.sheets ∧ lookup (t.core core).scrub col = none ∧ lookup (t.core core).served col = none ∧
    (∀ k w, s.wg? k = some w → ¬ (w.core = core ∧ w.col = col) → t.wg? k = some w) ∧
    (∀ k w, s.wg? k = some w → w.core = core → w.col = col → ∃ w', t.wg? k = some w' ∧ w'.abuf = [] ∧ w'.wbuf = [] ∧ w'.tiles = [] ∧ w'.limbs = []) ∧
    (if (s.core core).split then
      (∀ e ∈ (t.core core).l1, e.1 / 2 ^ 50 ≠ col) ∧ (∀ x ∈ (t.core core).icache, x.half ≠ col) ∧
        ∀ w, getD t.reg 0 w = core + 1 → (l1Find s core (1 - col) w).isSome
    else (t.core core).l1 = [] ∧ (t.core core).tlb = [] ∧ (t.core core).icache = [] ∧ ∀ w, getD t.reg 0 w ≠ core + 1) ∧
    (if col = 0 then (t.core core).reuseA = none else (t.core core).reuseB = none)))

/-- Pre-emption is asked for in class G or D, a class G request without a boundary escalates after the largest bound of the running
kernels and 50 µs (R290, R294); under class D a sheet stops before a bundle with DP, at the next bundle boundary after a park, or
where it waits, and 100 µs after the request every running sheet stops whose commands have delivered (R295); one whose threads have
all exited does not stop (R289); a stop at graph boundaries writes the positions and frees the
workgroups (R292). -/
def Obligations.PreemptionStops : Prop := ∀ (s : State) (part : Nat), part < 40 →
  ((s.part part).preempt = none → (s.part part).image = [] →
    Does (.classGRequest part) s (fun t => OnlyPart s t part ∧ (t.part part) = { s.part part with preempt := some ⟨false, s.ts⟩ }) ∧
    Does (.classDRequest part) s (fun t => PreemptIs s t part (some ⟨true, s.ts⟩) true)) ∧
  (∀ p, (s.part part).preempt = some p → p.classD = false →
    Does (.classDRequest part) s (fun t => PreemptIs s t part (some ⟨true, s.ts⟩) true) ∧
    (p.at_ + 1000 * maxList 0 ((ownGrids s part).map (fun e => e.2.kernel.bound)) + 50000 ≤ s.ts → allAtBoundary s part = false →
      Does (.classGEscalation part) s (fun t => PreemptIs s t part (some ⟨true, s.ts⟩) true)) ∧
    (allAtBoundary s part = true → exec (.classGEscalation part) s = .next s) ∧
    (s.ts < p.at_ + 1000 * maxList 0 ((ownGrids s part).map (fun e => e.2.kernel.bound)) + 50000 → exec (.classGEscalation part) s = .next s) ∧
    (∀ gn g sid sh w, s.grids = [(gn, g)] → g.part = part → s.sheets = [(sid, sh)] → s.wgs = [(sh.wg, w)] → w.grid = gn → sh.park = .boundary →
      quiet s sid = true → sh.queue = [] → s.homeq = [] → Does (.graphBoundaryStop part) s (fun t => SameMemory s t ∧ t.sheets = [] ∧ t.wgs = [] ∧
        t.grid? gn = some g ∧ Saves s t part false ∧ graphPos g sh ∈ (t.part part).image))) ∧
  (∀ sid sh, sid < 24576 → s.sheet? sid = some sh → classDPending s sh = true → sh.park = .running →
    (sh.left = true → exec (.drainPointStop sid) s = .next s) ∧
    (sh.left = false → sh.issuing = none → Sheet.waitsHere sh (s.cycle (coreOf sid)) = true →
      Does (.drainPointStop sid) s (fun t => OnlySheet s t sid ∧ StopsHere t sid sh)) ∧
    (sh.left = false → Sheet.betweenBundles sh = true → sh.stopNext = true → Does (.drainPointStop sid) s (fun t => OnlySheet s t sid ∧ StopsHere t sid sh)) ∧
    (∀ i, sh.left = false → Sheet.waitsHere sh (s.cycle (coreOf sid)) = false → Sheet.betweenBundles sh = true → sh.stopNext = false → nextInstr s sid sh = .ok i →
      if Instr.dp i then Does (.drainPointStop sid) s (fun t => OnlySheet s t sid ∧ StopsHere t sid sh)
      else exec (.drainPointStop sid) s = .next s)) ∧
  (∀ p, (s.part part).preempt = some p → p.classD = true → p.at_ + 100000 ≤ s.ts → Does (.forcedStopDeadline part) s (fun t => SameMemory s t ∧
    ∀ sid sh, s.sheet? sid = some sh → s.partOf sh = part → sh.park = .running → Sheet.parked sh = false →
      sh.left = false → sh.skip = 0 → sh.held = none → sh.issuing = none → (∀ c ∈ vals (s.core (coreOf sid)).cmds, c.sid ≠ sid) → StopsHere t sid sh))

/-- A stopped context is saved: its sheets leave their contexts with their records in the image, and with reassignment its
workgroups leave their cores behind redirect entries (R260, R267, R296, R300). An image that cannot be loaded is refused and
reported (R301), as is a migrated one whose region is not this one's; a migrated one takes this device's numbers (R363; that the
region is the tracked pages, log 94, and which numbers it takes, log 98, are the model's choices); one that can be loaded comes back: its image, its entries and its request are gone (R260, R269). A killed
context's grids end and its image, lease and pins are gone (R323). The number 0x100 of the report of a refusal is the model's (log
49). -/
def Obligations.ContextsSavedAndRestored : Prop := ∀ (s : State) (part : Nat), part < 40 →
  (∀ p, (s.part part).preempt = some p → p.classD = true → (∀ e ∈ ownSheets s part, e.2.park = .stopped ∧ quiet s e.1 = true) →
    (Does (.contextSave part false) s (fun t => Saves s t part true ∧ (∀ k, (s.wg? k).isSome → (t.wg? k).isSome) ∧
      ∀ sid sh, s.sheet? sid = some sh → s.partOf sh = part → t.sheet? sid = none ∧ ∃ y, ImageRec.sheet sid y ∈ (t.part part).image ∧ y.pc = sh.pc ∧
        y.v = sh.v ∧ y.s = sh.s ∧ y.p = sh.p ∧ y.ent = sh.ent ∧ y.mask = sh.mask ∧ y.stack = sh.stack ∧ y.fpcr = sh.fpcr)) ∧
    (s.sheets = [] → (∀ d < 4, ((ownWgs s part).filter (fun e => dieOf e.2.core == d)).length ≤ 512 - (s.die d).redirects.length) →
      Does (.contextSave part true) s (fun t => SameMemory s t ∧ Saves s t part true ∧ (∀ e ∈ ownWgs s part, t.wg? e.1 = none ∧
        ∃ r, r ∈ (t.die (dieOf e.2.core)).redirects ∧ r.wg = e.1 ∧ r.part = part ∧ r.locked = false) ∧
        ∀ e ∈ ownWgs s part, ImageRec.abuf e.1 e.2.abuf ∈ (t.part part).image ∧ ImageRec.limbs e.1 e.2.limbs e.2.tags ∈ (t.part part).image))) ∧
  (∀ img, img = (if (s.part part).precopy.image = [] then (s.part part).image else rebased s part (s.part part).image) → img ≠ [] →
    (loadable s part img = false → Does (.contextRestore part) s (fun t => OnlyPart s t part ∧
      t.part part = { s.part part with driverReports := (s.part part).driverReports ++ [0x100] })) ∧
    (loadable s part img = true → ∀ s', restoreAll part img s = some s' →
      Does (.contextRestore part) s (fun t => t = s' ∧ (t.part part).image = [] ∧ (t.part part).preempt = none ∧ (t.part part).precopy.image = [])) ∧
    (loadable s part img = true → (∀ r ∈ img, (∀ k w, r ≠ .workgroup k w) ∧ ∀ a b c d e f g h, r ≠ .graphPos a b c d e f g h) →
    Does (.contextRestore part) s (fun t => (t.part part).image = [] ∧ (t.part part).preempt = none ∧
      ∀ sid sh, ImageRec.sheet sid sh ∈ img → (∀ k y, ImageRec.sheet k y ∈ img → k = sid ∧ y = sh) →
        ∃ y, t.sheet? (contextOf s sid sh) = some y ∧ y.pc = sh.pc ∧ y.v = sh.v ∧ y.s = sh.s ∧ y.p = sh.p ∧ y.ent = sh.ent ∧ y.mask = sh.mask ∧
          y.stack = sh.stack ∧ y.fpcr = sh.fpcr ∧ y.queue = sh.queue ∧ (sh.park = .stopped → y.park = .running)))) ∧
  Does (.contextKill part) s (fun t => (t.part part).image = [] ∧ (t.part part).preempt = none ∧ (t.part part).lease = none ∧
    (∀ e ∈ t.pinned, e.2 ≠ part) ∧ ∀ gn g, s.grid? gn = some g → g.part = part → g.parent = none → (∃ g', t.grid? gn = some g' ∧ g'.ending.isSome = true) ∧
      ∀ k w, t.wg? k = some w → w.grid ≠ gn)

/-! ## Management -/

/-- A walk of four levels finds the leaf of a 4 KiB page (R302, R303); a walk's leaf enters the caches that missed, a hit in an
outer cache those inside it (R305). A miss under R joins an entry of its die's queue, takes one, or waits in its partition's order; a
copy's miss under another disposition stops the command; an answer lets the requesters retry, or ends them (R307, R308). An
invalidation waits for the accesses that used a translation, and leaves no cache with a translation it names (R306). That a refusal
of a request of the device itself is remembered for its requester is the model's choice (log 42). -/
def Obligations.Translations : Prop := ∀ (s : State),
  (∀ vf va t1 t2 t3, t1 = (s.vf vf).troot * 4096 → t2 = leafAddr (tableEntry s t1 va 1) → t3 = leafAddr (tableEntry s t2 va 2) →
    let t4 := leafAddr (tableEntry s t3 va 3)
    let e := tableEntry s t4 va 4
    (∀ p ∈ [(t1, 1), (t2, 2), (t3, 3)], p.1 < 2 ^ 39 ∧ (tableEntry s p.1 va p.2).getLsbD 0 = true ∧ (tableEntry s p.1 va p.2).getLsbD 7 = false ∧
      ((tableEntry s p.1 va p.2).getLsbD 2 = true → (tableEntry s p.1 va p.2).getLsbD 1 = true) ∧
      entryResOk (tableEntry s p.1 va p.2) p.2 false = true) → t4 < 2 ^ 39 →
    (∀ p ∈ [(t1, 1), (t2, 2), (t3, 3), (t4, 4)], (p.1 + 8 * (va / 2 ^ (48 - 9 * p.2) % 512)) / 32 ∉ s.poisoned) → e.getLsbD 0 = true → e.getLsbD 11 = false → leafOk e 4 = true →
    walk s vf va = .ok ⟨4, e, leafAddr e⟩) ∧
  (∀ core vf page l, core < 1536 → vf < 1024 → page < 2 ^ 36 → lookup (s.core core).tlb (tlbKey vf (page * 4096)) = none →
    (lookup (s.cluster (clusterOf core)).tlb (tlbKey vf (page * 4096)) = some l → Does (.pageWalk core vf page) s (fun t => SameMemory s t ∧
      lookup (t.core core).tlb (tlbKey vf (page * 4096)) = some l)) ∧
    (lookup (s.cluster (clusterOf core)).tlb (tlbKey vf (page * 4096)) = none → lookup (s.die (dieOf core)).tlb (tlbKey vf (page * 4096)) = none →
      walk s vf (page * 4096) = .ok l → Does (.pageWalk core vf page) s (fun t => SameButHomes s t ∧ lookup (t.core core).tlb (tlbKey vf (page * 4096)) = some l ∧
        lookup (t.cluster (clusterOf core)).tlb (tlbKey vf (page * 4096)) = some l ∧ lookup (t.die (dieOf core)).tlb (tlbKey vf (page * 4096)) = some l))) ∧
  (∀ sid sh r, sid < 24576 → s.sheet? sid = some sh → sh.park = .service → sh.trap = some r → r.miss = true → requested s (.sheet sid) = false →
    (HasRoom s (dieOf (coreOf sid)) (s.partOf sh) (s.vfOf sh) (r.faddr.toNat / 4096) (.user (.sheet sid)) →
      Does (.pageRequestEnqueue (.sheet sid)) s (fun t => t = { s with dies := t.dies } ∧
        Requests t (dieOf (coreOf sid)) (s.partOf sh) (s.vfOf sh) (r.faddr.toNat / 4096) (.user (.sheet sid)))) ∧
    (¬ HasRoom s (dieOf (coreOf sid)) (s.partOf sh) (s.vfOf sh) (r.faddr.toNat / 4096) (.user (.sheet sid)) →
      Does (.pageRequestEnqueue (.sheet sid)) s (fun t => t = { s with dies := t.dies } ∧
        (t.die (dieOf (coreOf sid))).prq = (s.die (dieOf (coreOf sid))).prq ∧ ∃ w ∈ (t.die (dieOf (coreOf sid))).waiting, w.2 = .user (.sheet sid)))) ∧
  (∀ core e c f sh, core < 1536 → e < 32 → requested s (.command core e) = false → copyMiss s core e = some (c, f) → s.sheet? c.sid = some sh →
    disposition (s.part (s.partOf sh)).fdisp .translation ≠ 1 →
    let z := if (s.die (dieOf core)).waiting.any (fun w => w.2 == .user (.command core e)) then s
      else lookPage s (s.vfOf sh) core c.sid c.slot f.addr.toNat
    SameButHomes s z ∧ Does (.pageRequestEnqueue (.command core e)) s (fun t => Stops z t core e c sh f.cause f.info)) ∧
  (∀ port die k, port < 2 → die < 4 → NeedsSemaphore (.pageRequestMapped port die k) s port 9 ∧ NeedsSemaphore (.pageRequestRefused port die k) s port 9) ∧
  (∀ port die k r, port < 2 → die < 4 → getD s.sems 0 9 = port + 1 → answered s die k = some r →
    Does (.pageRequestMapped port die k) s (fun t => SameMemory s t ∧ (t.die die).prq = (s.die die).prq.eraseIdx k ∧
      ∀ sid sh, .user (.sheet sid) ∈ r.who → savedSheet (s.part r.part).image sid = none → s.sheet? sid = some sh → s.partOf sh = r.part →
        sh.park = .service → t.sheet? sid = some { sh with park := .resume }) ∧
    (∀ w, r.who = [w] → (∀ x, w ≠ .user x) → Does (.pageRequestRefused port die k) s (fun t => SameMemory s t ∧ t.reply = 0 ∧
      (t.die die).prq = (s.die die).prq.eraseIdx k ∧ t.refusedPages = s.refusedPages ++ [(w, r.vf, r.page)])) ∧
    (∀ sid sh w, r.who = [.user (.sheet sid)] → savedSheet (s.part r.part).image sid = none → s.sheet? sid = some sh → sh.park = .service →
      s.wg? sh.wg = some w → Does (.pageRequestRefused port die k) s (fun t => GridEnds s t w.grid (.translation, coreOf sid) ∧
        ∀ x, sh.trap = some x → ∃ n, t.reply = (reportStop s sh { x with info := n }).reply ∧ bits n 4 4 = 4 ∧ bits n 8 2 = bits x.info 8 2)) ∧
    (∀ core e c f sh, r.who = [.user (.command core e)] → copyMiss (dropRequest (carried s) die k) core e = some (c, f) → s.sheet? c.sid = some sh →
      Does (.pageRequestRefused port die k) s (fun t => ∃ n, Stops (dropRequest (carried s) die k) t core e c sh .translation n ∧
        bits n 4 4 = 4 ∧ bits n 8 2 = bits f.info 8 2))) ∧
  (∀ port x, port < 2 → NeedsSemaphore (.translationInvalidation port x) s port 9 ∧
    (getD s.sems 0 9 = port + 1 → (∃ e ∈ s.sheets, vfNamed x (s.vfOf e.2) = true ∧ usesOld s e.1 e.2 = true) →
      exec (.translationInvalidation port x) s = .next s) ∧
    (getD s.sems 0 9 = port + 1 → (∀ e ∈ s.sheets, vfNamed x (s.vfOf e.2) = true → usesOld s e.1 e.2 = false) →
      Does (.translationInvalidation port x) s (fun t => t.reply = 0 ∧ ∀ key l, tlbNamed x key l = true →
        (∀ c, lookup (t.core c).tlb key ≠ some l) ∧ (∀ c, lookup (t.cluster c).tlb key ≠ some l) ∧ ∀ d, lookup (t.die d).tlb key ≠ some l)))

/-- The management core's tables: a partition entry takes the fields written unless a field is out of range (R311, R312); a
core's new owner waits for its workgroups and then takes effect with a scrub and full token buckets (R196, R313, R314); a
virtual function changes its partition (R315), a reduction group its entry without what is RES0 (R7, R236); pins are released
(R194); FDISP, WDLIM, TROOT, ENGA and the dirty-tracking registers take their fields (R280, R281, R302, R309, R319); the table of
sequence numbers has its place reserved (R362). Each needs its group's semaphore, and a group above 10 is refused (R354). That the
registers of group 10 include the device number and the route table (log 95), and that the table starts with no message applied (log 94),
are the model's choices. That the buckets hold their RATE from the moment an assignment takes effect (log 30; R318), that
a function assigned to 40 or above has no partition (log 56), and that class G is asked of the contexts on a core whose owner
changes (log 77), are the model's choices. -/
def Obligations.ManagementWrites : Prop := ∀ (s : State) (port part : Nat), port < 2 → part < 40 →
  (∀ (v : BitVec 256), let n := v.toNat
    NeedsSemaphore (.partitionTableWrite port part v) s port 0 ∧
    (getD s.sems 0 0 = port + 1 → (bits n 8 8 = 0 ∨ 4096 < bits n 16 13 ∨ 14 < bits n 36 4 ∨ bits n 40 7 = 0 ∨ 64 < bits n 40 7) →
      Refused (.partitionTableWrite port part v) s) ∧
    (getD s.sems 0 0 = port + 1 → bits n 8 8 ≠ 0 → bits n 16 13 ≤ 4096 → bits n 36 4 ≤ 14 → 1 ≤ bits n 40 7 → bits n 40 7 ≤ 64 →
      rateShared (s.setPart part (partSettled s (s.part part) (partWritten (s.part part) n))) = false →
      floorSum (s.setPart part (partSettled s (s.part part) (partWritten (s.part part) n))) ≤ s.enga →
      polRefused s (s.part part) (partWritten (s.part part) n) = false → Does (.partitionTableWrite port part v) s (fun t => SameMemory s t ∧
        t.reply = 0 ∧ t.sheets = s.sheets ∧ (∀ k, k ≠ part → t.part k = s.part k) ∧ (let q := t.part part
          q.valid = v.getLsbD 0 ∧ q.memw = bits n 8 8 ∧ q.rate = bits n 16 13 ∧ q.tier = bits n 32 2 ∧ q.floor = bits n 36 4 ∧ q.prqcap = bits n 40 7 ∧
          q.polid = bits n 48 16 ∧ q.pinq = bits n 64 32 ∧ q.xlen = v.getLsbD 96) ∧
        ((s.part part).valid = true → v.getLsbD 0 = false → ∀ e ∈ t.pinned, e.2 ≠ part)))) ∧
  (∀ core (v : BitVec 16), core < 1536 → NeedsSemaphore (.coreAssignmentWrite port core v) s port 1 ∧
    (getD s.sems 0 1 = port + 1 → (40 ≤ (v.setWidth 6).toNat ∧ (v.setWidth 6).toNat ≤ 62) ∨ (v.getLsbD 15 = false ∧ ((v >>> 6).setWidth 6).toNat ≠ 63) →
      Refused (.coreAssignmentWrite port core v) s) ∧
    (getD s.sems 0 1 = port + 1 → ((v.setWidth 6).toNat < 40 ∨ (v.setWidth 6).toNat = 63) → (((v >>> 6).setWidth 6).toNat < 40 ∨ ((v >>> 6).setWidth 6).toNat = 63) →
      (v.getLsbD 15 = false → ((v >>> 6).setWidth 6).toNat = 63) → mixedUnits s core v = false → Does (.coreAssignmentWrite port core v) s (fun t =>
        t = { s with cores := t.cores, parts := t.parts, reply := 0 } ∧ (∀ k, k ≠ core → t.core k = s.core k) ∧
        t.core core = { s.core core with change := some v } ∧
        (∀ p, t.part p = { s.part p with preempt := (t.part p).preempt }) ∧
        ∀ w ∈ onChanged s core v, ∀ g, s.grid? w.grid = some g → (s.part g.part).preempt = none → (s.part g.part).image = [] →
          (t.part g.part).preempt = some ⟨false, s.ts⟩)) ∧
    ((s.core core).change = some v → (∀ e ∈ s.wgs, e.2.core = core → e.2.col ∉ changedCols (s.core core) v) →
      (∀ x ∈ changedCols (s.core core) v, unitQuiet s core x = true) → Does (.coreAssignmentEffect core) s (fun t =>
      SameMemory s t ∧ t.sheets = s.sheets ∧ t.wgs = s.wgs ∧
      (∀ k, railOf (clusterOf k) ≠ railOf (clusterOf core) → t.core k = s.core k) ∧ (t.core core).split = v.getLsbD 15 ∧ (t.core core).ownA = (v.setWidth 6).toNat ∧ (t.core core).ownB = ((v >>> 6).setWidth 6).toNat ∧
      (t.core core).change = none ∧ (t.core core).refillAt = s.cycle core + 1024 ∧
      (∀ c ∈ scrubCols (s.core core) v, lookup (t.core core).scrub c = some (s.cycle core + 2048)) ∧
      ∀ p ∈ portParts (t.core core), getD (t.core core).buckets 0 p = (s.part p).rate))) ∧
  (∀ vf p, vf < 1024 → p < 64 → NeedsSemaphore (.vfAssignmentWrite port vf p) s port 2 ∧
    (getD s.sems 0 2 = port + 1 → (∃ e ∈ s.grids, e.2.vf = vf) → Refused (.vfAssignmentWrite port vf p) s) ∧
    (getD s.sems 0 2 = port + 1 → (∀ e ∈ s.grids, e.2.vf ≠ vf) → Does (.vfAssignmentWrite port vf p) s (fun t => t = { s with vfs := t.vfs, reply := 0 } ∧
      (∀ k, k ≠ vf → t.vf k = s.vf k) ∧ t.vf vf = { s.vf vf with part := if p < 40 then some p else none }))) ∧
  (∀ g (v : BitVec 512), g < 64 → NeedsSemaphore (.reductionGroupWrite port part g v) s port 3 ∧
    (∀ b, (groupWritten v).getLsbD b = (v.getLsbD b &&
      decide ((240 ≤ b ∧ b < 298) ∨ (303 ≤ b ∧ b < 332) ∨ (336 ≤ b ∧ b < 348) ∨ (352 ≤ b ∧ b < 512)))) ∧
    (getD s.sems 0 3 = port + 1 → (s.vf (bits v.toNat 288 10)).part ≠ some part → Refused (.reductionGroupWrite port part g v) s) ∧
    (getD s.sems 0 3 = port + 1 → (s.vf (bits v.toNat 288 10)).part = some part →
      (∀ f, readVirtual s (bits v.toNat 288 10) (bits v.toNat 448 64) (8 * bits v.toNat 244 12) = .error f → Refused (.reductionGroupWrite port part g v) s) ∧
      ∀ bs l, readVirtual s (bits v.toNat 288 10) (bits v.toNat 448 64) (8 * bits v.toNat 244 12) = .ok bs →
        l = (List.range (bits v.toNat 244 12)).map (fun k => BitVec.ofNat 64 (leNat ((bs.drop (8 * k)).take 8))) →
        (groupBad s ⟨groupWritten v, l⟩ = true → Refused (.reductionGroupWrite port part g v) s) ∧
        (groupBad s ⟨groupWritten v, l⟩ = false → Does (.reductionGroupWrite port part g v) s (fun t =>
          t = { s with parts := t.parts, reply := 0 } ∧ (∀ k, k ≠ part → t.part k = s.part k) ∧
          t.group part g = some ⟨groupWritten v, l⟩ ∧ ∀ k, k ≠ g → t.group part k = s.group part k)))) ∧
  Does (.pinRelease part) s (fun t => t = { s with pinned := t.pinned } ∧ ∀ e, e ∈ t.pinned ↔ e ∈ s.pinned ∧ e.2 ≠ part) ∧
  (∀ (v : BitVec 128) vf, vf < 1024 →
    NeedsSemaphore (.managementRegisterWrite port (.fdisp part) v) s port 4 ∧ NeedsSemaphore (.managementRegisterWrite port (.troot vf) v) s port 2 ∧
    NeedsSemaphore (.managementRegisterWrite port .enga v) s port 6 ∧ NeedsSemaphore (.managementRegisterWrite port (.dirty part) v) s port 7 ∧
    NeedsSemaphore (.managementRegisterWrite port .firmware v) s port 10 ∧
    (∀ g, 11 ≤ g → g < 16 → Refused (.managementRegisterWrite port (.reserved g) v) s) ∧
    (getD s.sems 0 10 = port + 1 → exec (.managementRegisterWrite port .firmware v) s = .next { s with reply := 0 } ∧
      exec (.managementRegisterWrite port .deviceNo v) s = .next { s with deviceNo := v.toNat % 4096, reply := 0 } ∧
      ∀ dev, dev < 4096 → Does (.managementRegisterWrite port (.route dev) v) s (fun t => t = { s with routes := t.routes, reply := 0 } ∧
        lookup t.routes dev = (if v.toNat < 12 ∨ (16 ≤ v.toNat ∧ v.toNat < 20) then some v.toNat else none) ∧
        ∀ k, k ≠ dev → lookup t.routes k = lookup s.routes k)) ∧
    NeedsSemaphore (.managementRegisterWrite port (.seqTable part) v) s port 7 ∧
    (getD s.sems 0 7 = port + 1 → if v.toNat % 8 = 0 ∧ v.toNat + 8 * bmCount (s.part part) ≤ 2 ^ 39 then
        Does (.managementRegisterWrite port (.seqTable part) v) s (fun t => t.reply = 0 ∧ (∀ k, k ≠ part → t.part k = s.part k) ∧
          t.part part = { s.part part with precopy := { (s.part part).precopy with table := v.toNat } } ∧
          if v.toNat = 0 then SameMemory s t else WroteRun s t v.toNat (List.replicate (8 * bmCount (s.part part)) 0xFF))
      else Refused (.managementRegisterWrite port (.seqTable part) v) s) ∧
    (getD s.sems 0 4 = port + 1 → Does (.managementRegisterWrite port (.fdisp part) v) s (fun t => t = { s with parts := t.parts, reply := 0 } ∧
        (∀ k, k ≠ part → t.part k = s.part k) ∧ t.part part = { s.part part with fdisp := v.setWidth 64 &&& 0xFFFFFFFFFFFFC }) ∧
      Does (.managementRegisterWrite port (.wdlim part) v) s (fun t => t = { s with parts := t.parts, reply := 0 } ∧
        t.part part = { s.part part with wdlim := v.toNat % 2 ^ 64 })) ∧
    (getD s.sems 0 2 = port + 1 → Does (.managementRegisterWrite port (.troot vf) v) s (fun t => t = { s with vfs := t.vfs, reply := 0 } ∧
      t.vf vf = { s.vf vf with troot := v.toNat % 2 ^ 40 })) ∧
    (getD s.sems 0 6 = port + 1 → if v.toNat % 2 ^ 64 ≤ 43008 then exec (.managementRegisterWrite port .enga v) s = .next { s with enga := v.toNat % 2 ^ 64, reply := 0 }
      else Refused (.managementRegisterWrite port .enga v) s) ∧
    (getD s.sems 0 7 = port + 1 → Does (.managementRegisterWrite port (.dirty part) v) s (fun t => t = { s with parts := t.parts, reply := 0 } ∧
      ((t.part part).dirty.getLsbD 0 = v.getLsbD 0 ∧ bmBase (t.part part) = bits v.toNat 12 40 * 4096 ∧ bmFirst (t.part part) = bits v.toNat 52 40 ∧
        bmCount (t.part part) = bits v.toNat 96 32))))

/-- A memory controller gives an arriving request its start and finish tags, and serves of the waiting requests that no older
one to the same sector blocks the one with the least start tag, then of the lower partition, then the older (R316). A
network port moves a lone request's sectors, at most four a cycle and as many as it has tokens, and what
waited for them has them; it serves two partitions in rotation, in one cycle of a split core too (log 89, DEDUCED); a partition
without tokens gets none (R317); at the end of a period each bucket gets its RATE and its share of the surplus (R318). -/
def Obligations.BandwidthShares : Prop := ∀ (s : State),
  (∀ ch cls n sector, ch < 128 → Does (.memoryRequestArrival ch cls n sector) s (fun t => t = { s with channels := t.channels } ∧
    let c := s.channel ch
    let start := max c.v (getD c.finish 0 cls)
    let weight : Nat := if cls < 40 then max (s.part cls).memw 1 else 255
    (t.channel ch).waiting = c.waiting ++ [⟨cls, n, sector, start, false, 1536⟩] ∧ getD (t.channel ch).finish 0 cls = start + (n : Rat) * 256 / (weight : Rat) ∧
    (t.channel ch).v = c.v ∧ (∀ k, k ≠ cls → getD (t.channel ch).finish 0 k = getD c.finish 0 k) ∧ ∀ k, k ≠ ch → t.channel k = s.channel k)) ∧
  (∀ ch, ch < 128 → (s.channel ch).waiting ≠ [] → Does (.memoryRequestServe ch) s (fun t => SameMemory s t ∧ ∃ k r,
    (s.channel ch).waiting[k]? = some r ∧ memBlocked (s.channel ch) k r = false ∧ (t.channel ch).waiting = (s.channel ch).waiting.eraseIdx k ∧
    (t.channel ch).finish = (s.channel ch).finish ∧ (2 ≤ (s.channel ch).waiting.length → (t.channel ch).v = r.start) ∧
    ((s.channel ch).waiting.length = 1 → (t.channel ch).v = (vals (s.channel ch).finish).foldl max 0) ∧
    ∀ k' r', (s.channel ch).waiting[k']? = some r' → memBlocked (s.channel ch) k' r' = false →
      r.start < r'.start ∨ (r.start = r'.start ∧ (r.cls < r'.cls ∨ (r.cls = r'.cls ∧ k ≤ k'))))) ∧
  (∀ core, core < 1536 → (portReady s core = false → exec (.networkSectorGrant core) s = .next s) ∧
    Does (.networkSectorGrant core) s (fun t => SameMemory s t ∧ ∀ p, getD (t.core core).buckets 0 p ≤ getD (s.core core).buckets 0 p) ∧
    (∀ p q n m who who', p < 40 → q < 40 → p ≠ q → 3 ≤ n → 3 ≤ m → (s.core core).netQueue = [⟨p, n, who⟩, ⟨q, m, who'⟩] →
      2 ≤ getD (s.core core).buckets 0 p → 2 ≤ getD (s.core core).buckets 0 q → (s.core core).netAt ≠ s.cycle core + 1 →
      Does (.networkSectorGrant core) s (fun t => SameMemory s t ∧ (t.core core).netQueue = [⟨p, n - 2, who⟩, ⟨q, m - 2, who'⟩] ∧
        getD (t.core core).buckets 0 p = getD (s.core core).buckets 0 p - 2 ∧ getD (t.core core).buckets 0 q = getD (s.core core).buckets 0 q - 2)) ∧
    ∀ p n who, p < 40 → 1 ≤ n → (s.core core).netQueue = [⟨p, n, who⟩] → 1 ≤ getD (s.core core).buckets 0 p →
      (s.core core).netAt ≠ s.cycle core + 1 →
      Does (.networkSectorGrant core) s (fun t => let got := min 4 (min n (getD (s.core core).buckets 0 p))
        SameMemory s t ∧ (t.core core).netAt = s.cycle core + 1 ∧ getD (t.core core).buckets 0 p = getD (s.core core).buckets 0 p - got ∧
        (t.core core).netQueue = (if got = n then [] else [⟨p, n - got, who⟩]) ∧
        (∀ sid sh f, who = .fetch sid → s.sheet? sid = some sh → sh.fetch = some f → t.sheet? sid = some { sh with fetch := some (f.1, f.2 - got) }) ∧
        (∀ sid id sh, who = .access sid id → s.sheet? sid = some sh → t.sheet? sid =
          some { sh with queue := sh.queue.map (fun (a : Access) => if a.id = id then { a with paid := a.paid + got } else a) }) ∧
        ∀ e num k, who = .command e num → lookup (s.core core).cmds e = some k → k.num = num →
          lookup (t.core core).cmds e = some { k with paid := k.paid + got })) ∧
  (∀ core, core < 1536 → (s.core core).refillAt ≤ s.cycle core → Does (.refillPeriodEnd core) s (fun t => OnlyCore s t core ∧
    let k := s.core core
    let waiting := (portParts k).filter (fun p => k.netQueue.any (fun r => r.part == p))
    (t.core core).refillAt = k.refillAt + 1024 ∧ (t.core core).pool = 0 ∧ (t.core core).netQueue = k.netQueue ∧
    ∀ p ∈ portParts k, getD (t.core core).buckets 0 p = (s.part p).rate + (if p ∈ waiting then
      (k.pool + sumList (vals k.buckets)) * (s.part p).memw / sumList (waiting.map (fun p => (s.part p).memw)) else 0)))

/-- Every millisecond each cluster's budget is set from the floors and the greatest common grants of the tiers, within 16 and
224 units (R319). The measures of a power limit act one stage at a time, on the clusters of the highest best tier first
(R320). A pair whose lighter cluster draws less than 92 % defers the heavier and ballasts the lighter, until they are within
5 % (R322). The greatest whole grant, and that clusters without an owner are passed over, are the model's choices (log 54). -/
def Obligations.PowerBudgets : Prop := ∀ (s : State),
  (s.budgetNext ≤ s.ts → Does .budgetPeriod s (fun t => SameMemory s t ∧ t.sheets = s.sheets ∧ t.budgetNext = (s.ts / 1000000 + 1) * 1000000 ∧
    ∃ gs : List Nat, let all := s.enga - sumList ((validParts s).map (fun p => (s.part p).floor * hcores s p))
      (∀ n < 4, let top := maxList 0 (((validParts s).filter (fun p => (s.part p).tier == n)).map (demand s))
        gs.getD n 0 ≤ top ∧ tierCost s n (gs.getD n 0) (validParts s) ≤ surplusAt s (validParts s) gs all n ∧
        ∀ g ≤ top, tierCost s n g (validParts s) ≤ surplusAt s (validParts s) gs all n → g ≤ gs.getD n 0) ∧
      ∀ cl < 192, (t.cluster cl).budget = min 224 (max 16 (sumList ((clusterOwners s cl).map (fun p =>
        (s.part p).floor + if (s.part p).valid then min (gs.getD (s.part p).tier 0) (demand s p) else 0)))))) ∧
  (s.ts < s.budgetNext → exec .budgetPeriod s = .next s) ∧
  exec (.powerLimitMeasures false) s = .next s ∧
  (let leased := firstToAct s (fun cl => (clusterOwners s cl).any (fun p => (activeLease s p).isSome))
    let capped := firstToAct s (fun cl => decide (4 < (s.cluster cl).droopCap))
    let slowed := firstToAct s (fun cl => decide (500 < (s.cluster cl).target))
    (leased ≠ [] → Does (.powerLimitMeasures true) s (fun t => SameMemory s t ∧ ∀ cl ∈ leased, ∀ p ∈ clusterOwners s cl, ∀ l,
      activeLease s p = some l → (t.part p).lease = some { l with suspended := true })) ∧
    (leased = [] → capped ≠ [] → Does (.powerLimitMeasures true) s (fun t => t = { s with clusters := t.clusters } ∧
      (∀ cl ∈ capped, (t.cluster cl).droopCap + 1 = (s.cluster cl).droopCap ∧ (t.cluster cl).mhz = (s.cluster cl).mhz) ∧
      ∀ cl, cl ∉ capped → t.cluster cl = s.cluster cl)) ∧
    (leased = [] → capped = [] → Does (.powerLimitMeasures true) s (fun t => t = { s with clusters := t.clusters, dies := t.dies } ∧
      (∀ cl ∈ slowed, (t.die (cl / 48)).l2mhz = t.dieClock (cl / 48)) ∧
      (∀ cl ∈ slowed, (t.cluster cl).target + 20 = (s.cluster cl).target ∧ (t.cluster cl).mhz = min (s.cluster cl).mhz ((s.cluster cl).target - 20)) ∧
      ∀ cl, cl ∉ slowed → t.cluster cl = s.cluster cl))) ∧
  (∀ pair il ih, pair < 96 → il ≤ ih →
    (il * 100 < ih * 92 → Does (.pairBalance pair il ih) s (fun t => SameMemory s t ∧ (t.cluster (2 * pair + 1)).defer = true ∧
        (t.cluster (2 * pair)).ballast = true ∧ (t.cluster (2 * pair)).defer = false ∧ (t.cluster (2 * pair + 1)).ballast = false) ∧
      (il < ih → Does (.pairBalance pair ih il) s (fun t => SameMemory s t ∧ (t.cluster (2 * pair)).defer = true ∧ (t.cluster (2 * pair + 1)).ballast = true))) ∧
    (ih * 92 ≤ il * 100 → (ih - il) * 100 ≤ ih * 5 → Does (.pairBalance pair il ih) s (fun t => t = { s with clusters := t.clusters } ∧
      (t.cluster (2 * pair)).defer = false ∧ (t.cluster (2 * pair)).ballast = false ∧ (t.cluster (2 * pair + 1)).defer = false ∧
      (t.cluster (2 * pair + 1)).ballast = false)) ∧
    (ih * 92 ≤ il * 100 → ih * 5 < (ih - il) * 100 → exec (.pairBalance pair il ih) s = .next s))

/-- A boost lease out of range is refused, one in range granted or refused as power management can meet it; it ends with its
time, and a suspended one is tried again (R323). The vote of an owner of units on a rail, for what its clock needs, changes what the rail runs towards; in a
fall a cluster above its new clock steps down by 20 MHz each 0.25 µs, a core whose cluster runs at it confirms, and the last
confirmation sets the fall 50 µs later; the fall and the rise end at their voltage, and no clock of the rail then exceeds
what is due, or stays below it (R324, R325). That only owners vote and that a fall with no cluster to step down begins its 50 µs
at once (log 54), that a new lease replaces an old one (log 53) and whether one is granted (log 57) are the model's choices. -/
def Obligations.LeasesAndRails : Prop := ∀ (s : State) (port part rail : Nat), port < 2 → part < 40 → rail < 24 →
  (∀ mhz dur, NeedsSemaphore (.boostLeaseRequest port part mhz dur) s port 6 ∧ (getD s.sems 0 6 = port + 1 →
    (mhz < 960 ∨ 1120 < mhz ∨ mhz % 20 ≠ 0 ∨ dur < 1000 ∨ 1000000000 < dur → Refused (.boostLeaseRequest port part mhz dur) s) ∧
    (960 ≤ mhz → mhz ≤ 1120 → mhz % 20 = 0 → 1000 ≤ dur → dur ≤ 1000000000 → Does (.boostLeaseRequest port part mhz dur) s (fun t => SameMemory s t ∧
      (t = { s with reply := 1 } ∨ (t.reply = 0 ∧ (t.part part).lease = some ⟨mhz, dur, false⟩ ∧ ∀ k, k ≠ part → t.part k = s.part k)))))) ∧
  (∀ l, (s.part part).lease = some l →
    (l.left = 0 → l.suspended = false → Does (.leaseExpiry part) s (fun t => SameMemory s t ∧ (t.part part).lease = none ∧ ∀ k, k ≠ part → t.part k = s.part k)) ∧
    (l.suspended = true → (s.part part).image = [] → Does (.leaseRetry part) s (fun t => SameMemory s t ∧
      ((t.part part).lease = some l ∨ (t.part part).lease = some { l with suspended := false })))) ∧
  (∀ mv, let needs := match activeLease s part with
      | some l => if l.mhz ≤ 940 then 650 else if l.mhz ≤ 1020 then 680 else 720
      | none => 650
    (mv = needs → part ∈ railOwners s rail → Does (.voltageVote rail part mv) s (fun t => Voted s t rail part mv)) ∧
    (part ∉ railOwners s rail → exec (.voltageVote rail part mv) s = .next s) ∧
    (mv ≠ needs → exec (.voltageVote rail part mv) s = .next s)) ∧
  (∀ core, core < 1536 → let cl := clusterOf core; let r := railOf cl
    ((s.rail r).fallTo = none ∨ (s.core core).confirmed = true → exec (.clockStepConfirm core) s = .next s) ∧
    ∀ mv, (s.rail r).fallTo = some mv → (s.core core).confirmed = false →
      (fallTarget s cl mv < (s.cluster cl).mhz → (s.cluster cl).stepAt ≤ s.ts → Does (.clockStepConfirm core) s (fun t =>
        t = { s with clusters := t.clusters, dies := t.dies } ∧ (∀ k, k ≠ cl → t.cluster k = s.cluster k) ∧
        (t.cluster cl).mhz = max (fallTarget s cl mv) ((s.cluster cl).mhz - 20) ∧ (t.cluster cl).stepAt = (s.cluster cl).stepAt + 250 ∧
        (t.die (cl / 48)).l2mhz = t.dieClock (cl / 48))) ∧
      (fallTarget s cl mv < (s.cluster cl).mhz → s.ts < (s.cluster cl).stepAt → exec (.clockStepConfirm core) s = .next s) ∧
      ((s.cluster cl).mhz ≤ fallTarget s cl mv → Does (.clockStepConfirm core) s (fun t => t = { s with cores := t.cores, rails := t.rails } ∧
        t.core core = { s.core core with confirmed := true } ∧ (∀ k, k ≠ core → t.core k = s.core k) ∧
        ((∀ c ∈ railCores r, c ≠ core → (s.core c).confirmed = true) → (t.rail r).fallAt = some (s.ts + 50000)) ∧
        ((∃ c ∈ railCores r, c ≠ core ∧ (s.core c).confirmed = false) → t.rails = s.rails)))) ∧
  (∀ mv at_, (s.rail rail).fallTo = some mv → (s.rail rail).fallAt = some at_ → at_ ≤ s.ts → Does (.railFall rail) s (fun t => SameMemory s t ∧
    (t.rail rail).mv = mv ∧ (t.rail rail).fallTo = none ∧ (t.rail rail).fallAt = none ∧
    (t.rail rail).rising = (if mv < maxList 650 (vals (s.rail rail).votes) then some (maxList 650 (vals (s.rail rail).votes)) else none) ∧
    ∀ cl ∈ railClusters rail, clockOf t cl ≤ (t.cluster cl).mhz ∧ (clusterConfirmed s cl = true → (t.cluster cl).mhz ≤ clockOf t cl))) ∧
  (∀ mv, (s.rail rail).rising = some mv → Does (.railSettled rail) s (fun t => SameMemory s t ∧ (t.rail rail).mv = mv ∧ (t.rail rail).rising = none ∧
    ((s.rail rail).fallTo = none → ∀ cl ∈ railClusters rail, clockOf t cl ≤ (t.cluster cl).mhz)))

/-- A counter is read whole, or its low half with the high half latched for the requester, and the latch by the high half
(R331), through the disclosure filter for the operator (R342); the counters at the end of each millisecond stand for every window, of
a later policy too, for as long as the longest (R342); a select register takes
its fields, EN reads 0 where nothing can count (R329); a ring's descriptor and its read index (R336), a policy (R339), the
launch error register and IRQST (R351, R352). That a window counts which ended under another policy is the model's choice (log 80). -/
def Obligations.CountersRingsPolicies : Prop := ∀ (s : State) (part n : Nat), part < 40 → n < 64 →
  (∀ who v, ReadsCounter s who part n v → Does (.counterRead who part n) s (fun t => t = { s with reply := v }) ∧
    Does (.counterLowRead who part n) s (fun t => OnlyPart { s with reply := v % 2 ^ 32 } t part ∧
      getD (t.part part).latches 0 (latchKey who n) = v / 2 ^ 32 ∧ (t.part part).counters = (s.part part).counters ∧
      ∀ k, k ≠ latchKey who n → getD (t.part part).latches 0 k = getD (s.part part).latches 0 k)) ∧
  (∀ who v, ReadsCounter s who part n v → Does (.counterHighRead who part n) s (fun t =>
    t = { s with reply := getD (s.part part).latches 0 (latchKey who n) })) ∧
  (s.ts % 1000000 ≠ 0 → exec (.counterWindowEnd part n) s = .next s) ∧
  (s.ts % 1000000 = 0 → Does (.counterWindowEnd part n) s (fun t => OnlyPart s t part ∧
    counterAt (t.part part) (s.ts / 1000000) n = getD (s.part part).counters 0 n ∧ (t.part part).counters = (s.part part).counters ∧
    ∀ ms, ms < s.ts / 1000000 → s.ts / 1000000 < ms + 16384 → counterAt (t.part part) ms n = counterAt (s.part part) ms n)) ∧
  (∀ (v : W64), 16 ≤ n → Does (.pcselWrite part n v) s (fun t => OnlyPart s t part ∧ getD (t.part part).counters 0 n = 0 ∧
    let w := getD (t.part part).pcsel 0 n
    (∀ b < 28, w.getLsbD b = v.getLsbD b) ∧ (∀ b, 28 ≤ b → b ≠ 31 → w.getLsbD b = false) ∧
    (0x1C < (v.setWidth 10).toNat → w.getLsbD 31 = false) ∧ ((∀ u ∈ unitsOf s part, pcselCovers v u.core = false) → w.getLsbD 31 = false) ∧
    ((v.setWidth 10).toNat ≤ 0x1C → (∃ u ∈ unitsOf s part, pcselCovers v u.core = true) → w.getLsbD 31 = v.getLsbD 31))) ∧
  (∀ port r d, port < 2 → NeedsSemaphore (.ringDescriptorWrite port part r d) s port 8 ∧ (getD s.sems 0 8 = port + 1 →
    (2 ^ 39 < d.base + d.cap * recSize r → Refused (.ringDescriptorWrite port part r d) s) ∧
    (d.base + d.cap * recSize r ≤ 2 ^ 39 → d.base % recSize r = 0 → (∃ k ≤ 20, d.cap = 2 ^ (k + 4)) → Does (.ringDescriptorWrite port part r d) s (fun t =>
      t = { s with parts := t.parts, reply := 0 } ∧ (∀ k, k ≠ part → t.part k = s.part k) ∧
      getD (t.part part).rings Ring.reset (ringKey r) = ⟨d, (getD (s.part part).rings Ring.reset (ringKey r)).lost⟩ ∧
      ∀ k, k ≠ ringKey r → getD (t.part part).rings Ring.reset k = getD (s.part part).rings Ring.reset k)))) ∧
  (∀ r k g, getD (s.part part).rings Ring.reset (ringKey r) = g → k ≤ (g.desc.wr - g.desc.rd).toNat → Does (.ringReadAdvance part r k) s (fun t =>
    OnlyPart s t part ∧ getD (t.part part).rings Ring.reset (ringKey r) = { g with desc := { g.desc with rd := g.desc.rd + BitVec.ofNat 32 k } })) ∧
  (∀ port bs, port < 2 → (getD s.sems 0 5 ≠ port + 1 ∨ policyOk bs = false ∨ 65536 ≤ s.nextPolicy → Refused (.policySubmit port bs) s) ∧
    (getD s.sems 0 5 = port + 1 → policyOk bs = true → s.nextPolicy < 65536 → Does (.policySubmit port bs) s (fun t =>
      t = { s with policies := t.policies, nextPolicy := s.nextPolicy + 1, reply := s.nextPolicy * 2 ^ 16 } ∧
      lookup t.policies s.nextPolicy = some (parsePolicy bs) ∧ ∀ k, k ≠ s.nextPolicy → lookup t.policies k = lookup s.policies k))) ∧
  (∀ vf (v : W64), vf < 1024 →
    Does (.lerrRead vf) s (fun t => t = { s with vfs := t.vfs, reply := (s.vf vf).lerrCount * 2 ^ 32 + (s.vf vf).lerrCode } ∧
      t.vf vf = { s.vf vf with lerrCount := 0 }) ∧
    Does (.irqstWrite vf v) s (fun t => OnlyVf s t vf ∧ ∀ b, bitAt (t.vf vf).irqst b = (bitAt (s.vf vf).irqst b && !(v.getLsbD b && decide (b < 2)))))

/-- A semaphore read takes a free semaphore for its port, or for the loser of the last tie, and says who holds it; only the
holder releases it, and a link that goes down releases its port's (R355). Link training sets the port's capabilities (R357).
Host and peer accesses read and write device memory at its home, a peer's atomics of 16 bytes too (R210, R356, R358); a read of a
register needs no semaphore (R354); a store to a coherent mapping recalls its lines whole (R193); a link failure changes the routes over
the link, and where no route remains ends what waits on it and stops a command (R359). The event of an access that is cut off is
reported by the model's trap record (log 58). That a port whose link goes down keeps HPCAP, and that the event names the ways that are left, are the model's
choices (log 58), as is what a function without a partition reads (log 96). -/
def Obligations.HostAndPeers : Prop := ∀ (s : State) (port : Nat), port < 2 →
  (∀ g, g < 16 → (getD s.sems 0 g = 0 → Does (.semaphoreRead port g false) s (fun t => t = { s with sems := t.sems, reply := port + 1 + 2 ^ 7 } ∧
      getD t.sems 0 g = port + 1 ∧ ∀ k, k ≠ g → getD t.sems 0 k = getD s.sems 0 k)) ∧
    (getD s.sems 0 g = 0 → s.tieLoser < 2 → Does (.semaphoreRead port g true) s (fun t => getD t.sems 0 g = s.tieLoser + 1 ∧ t.tieLoser = 1 - s.tieLoser ∧
      t.reply = s.tieLoser + 1 + (if s.tieLoser = port then 2 ^ 7 else 0))) ∧
    (∀ h tie, getD s.sems 0 g = h + 1 → Does (.semaphoreRead port g tie) s (fun t => t = { s with reply := h + 1 + (if h = port then 2 ^ 7 else 0) })) ∧
    (getD s.sems 0 g = port + 1 → Does (.semaphoreRelease port g) s (fun t => t = { s with sems := t.sems } ∧ getD t.sems 0 g = 0 ∧
      ∀ k, k ≠ g → getD t.sems 0 k = getD s.sems 0 k)) ∧
    (getD s.sems 0 g ≠ port + 1 → exec (.semaphoreRelease port g) s = .next s)) ∧
  Does (.portLinkDown port) s (fun t => t = { s with sems := t.sems } ∧ ∀ g, getD t.sems 0 g ≠ port + 1) ∧
  (∀ v, Does (.linkTraining port v) s (fun t => t = { s with hpcap := t.hpcap } ∧ getD t.hpcap 0 port = v ∧
    ∀ p, p ≠ port → getD t.hpcap 0 p = getD s.hpcap 0 p)) ∧
  (∀ pa bs, pa + bs.length ≤ 2 ^ 39 → Does (.hostPostedWrite port pa bs) s (fun t => WroteRun s t pa bs ∧
      ∀ w ∈ wordsOf pa bs.length, ∀ c, getD s.reg 0 w = c + 1 → ∀ h < 2, lookup (t.core c).l1 (l1Key h w) = none) ∧
    Does (.peerDeviceRequest (.store pa bs)) s (fun t => WroteRun s t pa bs) ∧ Does (.peerDeviceRequest (.copyWrite pa bs)) s (fun t => WroteRun s t pa bs)) ∧
  (∀ vf part core, vf < 1024 → part < 40 → core < 1536 →
    let reads (x : HostTarget) (v : Nat) : Prop := ∀ n, Does (.hostRead port x n) s (fun t => t = { s with reply := v % 256 ^ n })
    reads (.page vf 0x10) (s.vf vf).leaddr.toNat ∧ reads (.page vf 0x18) (s.vf vf).irqst ∧ reads (.page vf 0) 0 ∧
    reads (.register (.fdisp part)) (s.part part).fdisp.toNat ∧ reads (.register (.wdlim part)) ((s.part part).wdlim % 2 ^ 128) ∧
    reads (.register (.troot vf)) ((s.vf vf).troot % 2 ^ 128) ∧ reads (.register .enga) (s.enga % 2 ^ 128) ∧
    reads (.register (.dirty part)) (s.part part).dirty.toNat ∧ reads (.function vf) ((s.vf vf).part.getD 63) ∧
    reads (.core core) ((ofBool (s.core core).split * 2 ^ 15 + (s.core core).ownB * 2 ^ 6 + (s.core core).ownA) % 2 ^ 16)) ∧
  (∀ pa n, pa + n ≤ 2 ^ 39 → Does (.hostRead port (.memory pa) n) s (fun t => t.reply = s.readNat pa n ∧ SameMemory s t ∧ t.sheets = s.sheets ∧ t.wgs = s.wgs) ∧
    Does (.peerDeviceRequest (.load pa n)) s (fun t => t.reply = s.readNat pa n ∧ SameMemory s t ∧ t.sheets = s.sheets ∧ t.wgs = s.wgs)) ∧
  (∀ pa bs, 2 ^ 48 * (port + 1) ≤ pa → pa + bs.length ≤ 2 ^ 49 * (port + 1) → Does (.hostStoreToCoherentMapping port pa bs) s (fun t => WroteRun s t pa bs ∧
    ∀ q ∈ wordsOf pa bs.length, lookup t.l2 (q / 32) = none ∧ ∀ w, w / 32 = q / 32 → ∀ c, getD s.reg 0 w = c + 1 →
      ∀ h < 2, lookup (t.core c).l1 (l1Key h w) = none)) ∧
  (∀ op dbl pa x y, pa + (if dbl then 8 else 4) ≤ 2 ^ 39 → pa % (if dbl then 8 else 4) = 0 → Does (.peerDeviceRequest (.atomic op dbl pa x y)) s (fun t =>
    t.reply = s.readNat pa (if dbl then 8 else 4) ∧
      match RmwOp.apply op (if dbl then 8 else 4) (s.readNat pa (if dbl then 8 else 4)) x.toNat y.toNat with
      | some v => WroteRun s t pa (leBytes (if dbl then 8 else 4) v)
      | none => SameMemory s t)) ∧
  (∀ pa (x y : BitVec 128), pa + 16 ≤ 2 ^ 39 → pa % 16 = 0 → Does (.peerDeviceRequest (.acas2 pa x y)) s (fun t => t.reply = s.readNat pa 16 ∧
    if s.readNat pa 16 = y.toNat then WroteRun s t pa (leBytes 16 x.toNat) else SameMemory s t)) ∧
  (∀ link via, link < 12 → (∀ v ∈ via, v < 24) → (keys s.routes).Nodup →
    let z (pa : Nat) : Prop := 2 ^ 50 ≤ pa ∧ lookup s.routes ((pa - 2 ^ 50) / 2 ^ 39) = some link ∧ via = none
    ((∀ e ∈ s.cores, e.2.cmds = []) → (∀ e ∈ s.sheets, ∀ a ∈ e.2.queue, ∀ p ∈ a.pieces, p.1 < 2 ^ 50) →
      Does (.linkFailure link via) s (fun t => t = { s with linksDown := t.linksDown, routes := t.routes } ∧
        (∀ l, l ∈ t.linksDown ↔ l = link ∨ l ∈ s.linksDown) ∧
        ∀ dev, lookup t.routes dev = (if lookup s.routes dev = some link then via else lookup s.routes dev))) ∧
    (∀ sid sh a r w, s.sheets = [(sid, sh)] → (∀ e ∈ s.cores, e.2.cmds = []) → sh.queue = a :: r → a.space = .g → (∃ p ∈ a.pieces, z p.1) →
      s.wg? sh.wg = some w → Does (.linkFailure link via) s (fun t => link ∈ t.linksDown ∧ GridEnds s t w.grid (.translation, coreOf sid) ∧
        ∃ x, t.reply = (reportStop s sh x).reply ∧ x.cause = .translation ∧ bits x.info 4 4 = 4 ∧ x.faddr = a.va ∧ x.late = true)) ∧
    (∀ core k e c sh pa bs, core < 1536 → s.cores = [(core, k)] → k.cmds = [(e, c)] → s.sheets = [(c.sid, sh)] → sh.queue = [] →
      c.phase = .consumed → .glob pa bs ∈ c.outs → z pa →
      Does (.linkFailure link via) s (fun t => link ∈ t.linksDown ∧ Halts t core e c sh .engineError 0))) ∧
  (∀ part gi roff rank bs g, s.group part gi = some g → Group.valid g = true → rank < Group.nmem g →
    (∀ r, getRound s part gi roff = some r → (∀ c ∈ r.contribs, c.m ≠ rank)) → Does (.peerDeviceRequest (.contribution part gi roff rank bs)) s (fun t =>
      t = { s with rounds := t.rounds } ∧ ∃ r' c, getRound t part gi roff = some r' ∧
        r'.contribs = ((getRound s part gi roff).map (·.contribs)).getD [] ++ [c] ∧ c.m = rank ∧
        ∀ j < Group.rows g * 128, (c.rows.getD j 0).toNat = leNat ((bs.drop (4 * j)).take 4)))

/-- A pre-copy session starts by GO, with the fields of its descriptor that can be written (R7, R8) and the key that the roots of
trust agree on (R360). It sends every tracked page in its first round and the dirty ones in each further, each message under AES-256-GCM;
the final part repeats a round until it sends no page, and sends the image (R360 to R362). At the receiver a page message newer than
the last applied to its page writes it, one whose tag fails aborts the session, and image messages gather the image (R362). A device
reset sets every register to its reset value and keeps memory (R326; what else it leaves, log 5). The refusals of GO and what is written
while a session runs (log 93), that a session identifier written without GO begins a session, the ports in turn and the echo of a message
that failed (log 18), and the table of the region's sequence numbers (log 94), are the model's choices; which key a session has is opaque, and its algorithms
are those of the standards (log 17). -/
def Obligations.MigrationAndReset : Prop := ∀ (s : State) (port part : Nat), port < 2 → part < 40 →
  let p := s.part part
  let c := p.precopy
  let sets (t : State) (d : Precopy) : Prop := (∀ k, k ≠ part → t.part k = s.part k) ∧ t.part part = { p with precopy := d }
  (∀ (v : BitVec 256), let fresh : Precopy := { Precopy.reset with word := preWritten v, key := Config.sessionKey (bits v.toNat 160 32), table := c.table }
    NeedsSemaphore (.precopyGo port v) s port 7 ∧
    (∀ b, (preWritten v).getLsbD b = (v.getLsbD b && decide ((96 ≤ b ∧ b < 102) ∨ (120 ≤ b ∧ b < 156) ∨ 160 ≤ b))) ∧
    (getD s.sems 0 7 = port + 1 → bits v.toNat 96 6 = part →
      (c.state = 1 ∨ c.state = 2 → Does (.precopyGo port v) s (fun t => t = { s with parts := t.parts, reply := 0 } ∧
        sets t { c with word := preWritten v })) ∧
      (c.state ≠ 1 → c.state ≠ 2 → v.getLsbD 0 = false →
        (bits c.word.toNat 160 32 = bits v.toNat 160 32 → Does (.precopyGo port v) s (fun t => t = { s with parts := t.parts, reply := 0 } ∧
          sets t { c with word := preWritten v })) ∧
        (bits c.word.toNat 160 32 ≠ bits v.toNat 160 32 → Does (.precopyGo port v) s (fun t => t.reply = 0 ∧ sets t fresh ∧
          if c.table = 0 then SameMemory s t else WroteRun s t c.table (List.replicate (8 * bmCount p) 0xFF)))) ∧
      (c.state ≠ 1 → c.state ≠ 2 → v.getLsbD 0 = true →
        (bits v.toNat 160 32 = 0 ∨ bits v.toNat 152 4 = 0 ∨ bits v.toNat 120 8 = 0 ∨ p.dirty.getLsbD 0 = false → Refused (.precopyGo port v) s) ∧
        (bits v.toNat 160 32 ≠ 0 → bits v.toNat 152 4 ≠ 0 → bits v.toNat 120 8 ≠ 0 → p.dirty.getLsbD 0 = true →
          Does (.precopyGo port v) s (fun t => t = { s with parts := t.parts, reply := 0 } ∧ sets t { fresh with state := 1 }))))) ∧
  (c.state = 1 → Does (.precopyRound part) s (fun t => ∃ l, (t.part part).precopy.outbox = c.outbox ++ l ∧
    (t.part part).precopy.round = c.round + 1 ∧ (t.part part).precopy.last = l.length ∧
    RoundSent s t part (if c.round = 0 then tracked p else dirtyPages s p) (t.part part).precopy l ∧
    (∀ n < bmCount p, bitAt (t.readByte (bmBase p + n / 8)).toNat (n % 8) = false) ∧
    ((t.part part).precopy.state = 2 ↔ l.length ≤ bits c.word.toNat 128 24 ∨ bits c.word.toNat 120 8 ≤ c.round))) ∧
  (c.state = 2 → p.image ≠ [] → Does (.precopyFinal part) s (fun t => (t.part part).image = p.image ∧
    (∀ n < bmCount p, bitAt (t.readByte (bmBase p + n / 8)).toNat (n % 8) = false) ∧
    ∃ l, (t.part part).precopy.outbox = c.outbox ++ l ∧
      if dirtyPages s p = [] then (t.part part).precopy.state = 3 ∧ ∃ ds : List (List Byte), l.length = ds.length ∧
        ds.flatten.take (imageLayout (migrated p.image)).length = imageLayout (migrated p.image) ∧
        ∀ k o d, l[k]? = some o → ds[k]? = some d → d.length = 4096 ∧ Carries c o (2 ^ 64 - 1) (c.seq + k) d
      else (t.part part).precopy.state = 2 ∧ RoundSent s t part (dirtyPages s p) (t.part part).precopy l)) ∧
  (∀ m, OfSession s part m → openMsg c.key m = none →
    let fails (i : Instr) : Prop := Does i s (fun t => OnlyPart s t part ∧
      sets t { c with state := 4, outbox := c.outbox ++ [⟨0, BitVec.ofNat 64 (bits c.word.toNat 192 64), m⟩] })
    fails (.pageMessageReceive part m) ∧ fails (.imageMessageReceive part m)) ∧
  (∀ m, openMsg c.key m = none ↔
    Crypto.gcmTag c.key (BitVec.ofNat 96 (msgSid m * 2 ^ 64 + msgSeq m)) (leBytes 24 m.header.toNat) m.cipher ≠ m.tag) ∧
  (∀ m bs, OfSession s part m → openMsg c.key m = some bs → bs.length = 4096 →
    (c.state ≠ 0 → exec (.pageMessageReceive part m) s = .next s ∧ exec (.imageMessageReceive part m) s = .next s) ∧
    (c.state = 0 → msgPage m ≠ 2 ^ 64 - 1 →
      (¬ (bmFirst p ≤ msgPage m ∧ msgPage m < bmFirst p + bmCount p) ∨ c.table = 0 → Does (.pageMessageReceive part m) s (fun t =>
        OnlyPart s t part ∧ sets t { c with foreign := true })) ∧
      (bmFirst p ≤ msgPage m → msgPage m < bmFirst p + bmCount p → c.table ≠ 0 →
        let at_ := c.table + 8 * (msgPage m - bmFirst p)
        let old := s.readNat at_ 8
        (old = 2 ^ 64 - 1 ∨ old < msgSeq m → Untracked s → runsMeet (msgPage m * 4096) 4096 at_ 8 = false → Does (.pageMessageReceive part m) s (fun t =>
          t.readBytes (msgPage m * 4096) 4096 = bs ∧ t.readNat at_ 8 = msgSeq m ∧ ∀ a, ¬ (msgPage m * 4096 ≤ a ∧ a < msgPage m * 4096 + 4096) →
            ¬ (at_ ≤ a ∧ a < at_ + 8) → t.readByte a = s.readByte a)) ∧
        (old ≠ 2 ^ 64 - 1 → msgSeq m ≤ old → exec (.pageMessageReceive part m) s = .next s))) ∧
    (c.state = 0 → msgPage m = 2 ^ 64 - 1 → Does (.imageMessageReceive part m) s (fun t => OnlyPart s t part ∧
      lookup (t.part part).precopy.image (msgSeq m) = some bs ∧ (t.part part).precopy.state = 0))) ∧
  Does .deviceReset s (fun t => SameMemory s t ∧ t = { State.reset with mem := s.mem, poisoned := s.poisoned, freeCtr := s.freeCtr, agenda := s.agenda })
end

