-- ==== Sys2Proof/Laws/Codec.lean ====
section
/-! SUPPORT. Every code of a modifier, a guard and a trigger port reads back as what it stands for (R95, R98, R118 to R135). -/

set_option maxRecDepth 4000

namespace Sys2Proof

theorem X1M32.ofCode_code : ∀ a b, X1M32.ofCode (BitVec.ofNat 5 (X1M32.code ⟨a,b⟩)).toNat = some ⟨a,b⟩ := by decide
theorem BfxMod.ofCode_code : ∀ a b c, BfxMod.ofCode (BitVec.ofNat 5 (BfxMod.code ⟨a,b,c⟩)).toNat = some ⟨a,b,c⟩ := by decide
theorem LeaMod.ofCode_code : ∀ a b c, LeaMod.ofCode (BitVec.ofNat 5 (LeaMod.code ⟨a,b,c⟩)).toNat = some ⟨a,b,c⟩ := by decide
theorem ExtWidth.ofCode_code (e) : ExtWidth.ofCode (BitVec.ofNat 5 (ExtWidth.code e)).toNat = some e := by cases e <;> rfl
theorem FpRnd.ofCode_code (m:FpRnd) : FpRnd.ofCode (BitVec.ofNat 5 m.code).toNat = some m := by rcases m with ⟨a,b⟩; cases a <;> cases b <;> rfl
theorem FpRel.ofCode_code (m:FpRel) : FpRel.ofCode (BitVec.ofNat 5 m.code).toNat = some m := by rcases m with ⟨a,b⟩; cases a <;> cases b <;> rfl
theorem FpInt.ofCode_code (m:FpInt) : FpInt.ofCode (BitVec.ofNat 5 m.code).toNat = some m := by rcases m with ⟨c,a,b⟩; cases a <;> cases b <;> cases c <;> rfl
theorem FpSgn.ofCode_code (m:FpSgn) : FpSgn.ofCode (BitVec.ofNat 5 m.code).toNat = some m := by rcases m with ⟨a,b⟩; cases a <;> cases b <;> rfl
theorem Rel.ofModCode_modCode (m:Rel) : Rel.ofModCode (BitVec.ofNat 5 m.modCode).toNat = some m := by cases m <;> rfl
theorem XType.ofCode_code (m:XType) : XType.ofCode (BitVec.ofNat 5 m.code).toNat = some m := by cases m <;> rfl
theorem NFmt.ofCode_code (m:NFmt) : NFmt.ofCode (BitVec.ofNat 5 m.code).toNat = some m := by cases m <;> rfl
theorem CvtnMod.ofCode_code (m:CvtnMod) (h: !m.nan || m.fmt == .e4m3) : CvtnMod.ofCode (BitVec.ofNat 5 m.code).toNat = some m := by rcases m with ⟨a,b⟩; revert h; cases a <;> cases b <;> decide
theorem VoteKind.ofCode_code (m:VoteKind) : VoteKind.ofCode (BitVec.ofNat 5 m.code).toNat = some m := by cases m <;> rfl
theorem MaxMod.ofCode_code (m:MaxMod) : MaxMod.ofCode (BitVec.ofNat 5 m.code).toNat = some m := by rcases m with ⟨a,b⟩; cases a <;> cases b <;> rfl
theorem RdfMod.ofCode_code (m:RdfMod) : RdfMod.ofCode (BitVec.ofNat 5 m.code).toNat = some m := by rcases m with ⟨a,b⟩; cases a <;> cases b <;> rfl
theorem LdMod.ofCode_code (m:LdMod) : LdMod.ofCode (BitVec.ofNat 5 m.code).toNat = some m := by rcases m with ⟨c,a,b⟩; cases a <;> cases b <;> cases c <;> rfl
theorem LdpMod.ofCode_code (m:LdpMod) : LdpMod.ofCode (BitVec.ofNat 5 m.code).toNat = some m := by rcases m with ⟨a,b⟩; cases a <;> cases b <;> rfl
theorem LdaMod.ofCode_code (m:LdaMod) : LdaMod.ofCode (BitVec.ofNat 5 m.code).toNat = some m := by rcases m with ⟨c,a,b⟩; cases a <;> cases b <;> cases c <;> rfl
theorem AtomMod.ofCode_code (m:AtomMod) : AtomMod.ofCode (BitVec.ofNat 5 m.code).toNat = some m := by rcases m with ⟨c,a,b⟩; cases a <;> cases b <;> cases c <;> rfl
theorem Acas2Mod.ofCode_code (m:Acas2Mod) : Acas2Mod.ofCode (BitVec.ofNat 5 m.code).toNat = some m := by rcases m with ⟨a,b⟩; cases a <;> cases b <;> rfl
theorem ERule.ofCode_code (m:ERule) : ERule.ofCode (BitVec.ofNat 5 m.code).toNat = some m := by cases m <;> rfl
theorem MmaMod.ofCode_code : ∀ (t:Fin 8) a b, MmaMod.ofCode (BitVec.ofNat 5 (MmaMod.code ⟨t,a,b⟩)).toNat = some ⟨t,a,b⟩ := by decide
theorem MxfMod.ofCode_code : ∀ (t:Fin 8) a, MxfMod.ofCode (BitVec.ofNat 5 (MxfMod.code ⟨t,a⟩)).toNat = some ⟨t,a⟩ := by decide
theorem CpyMod.ofCode_code (m:CpyMod) : CpyMod.ofCode (BitVec.ofNat 5 m.code).toNat = some m := by rcases m with ⟨a,b⟩; cases a <;> cases b <;> rfl
theorem BarLevel.ofCode_code (m:BarLevel) : BarLevel.ofCode (BitVec.ofNat 5 m.code).toNat = some m := by cases m <;> rfl
theorem FenceMod.ofCode_code (m:FenceMod) : FenceMod.ofCode (BitVec.ofNat 5 m.code).toNat = some m := by rcases m with ⟨a,b⟩; cases a <;> cases b <;> rfl
theorem Scope.ofModCode_modCode (m:Scope) : Scope.ofModCode (BitVec.ofNat 5 m.modCode).toNat = some m := by cases m <;> rfl
theorem FType.ofModCode_modCode (m:FType) : FType.ofModCode (BitVec.ofNat 5 m.modCode).toNat = some m := by cases m <;> rfl
theorem tileOf_val : ∀ (t:Fin 8), tileOf (BitVec.ofNat 5 t.val).toNat = some t := by decide
theorem limbOf_val : ∀ (t:Fin 16), limbOf (BitVec.ofNat 5 t.val).toNat = some t := by intro t; fin_cases t <;> rfl
theorem flagOf_three : ∀ b, flagOf 3 (BitVec.ofNat 5 (flagCode 3 b)).toNat = some b := by decide
theorem flagOf_four : ∀ b, flagOf 4 (BitVec.ofNat 5 (flagCode 4 b)).toNat = some b := by decide
theorem flagOf_two : ∀ b, flagOf 2 (BitVec.ofNat 5 (flagCode 2 b)).toNat = some b := by decide
theorem flagOf_zero : ∀ b, flagOf 0 (BitVec.ofNat 5 (flagCode 0 b)).toNat = some b := by decide
theorem Guard.ofBits_code (g:Guard) : Guard.ofBits (BitVec.ofNat 2 g.sense).toNat (BitVec.ofNat 4 g.pred).toNat = some g := by
  cases g <;> first | rfl | (rename_i p; fin_cases p <;> rfl)
theorem unitOfT_tPort (u:FUnit) : unitOfT (BitVec.ofNat 10 u.tPort).toNat = some u := by cases u <;> rfl
theorem LdxMod.ofCode_code (m:LdxMod) : LdxMod.ofCode (BitVec.ofNat 5 m.code).toNat = some m := by rcases m with ⟨c,a,b⟩; fin_cases a <;> cases b <;> cases c <;> rfl
theorem withMod_some {α : Type} {o : Option α} {x : α} {f : α → Instr} (h : o = some x) : withMod o f = .ok (f x) := by subst h; rfl
theorem decodeOp_alu (u : AluUnit) (h o m) : decodeOp u.unit h o m = decodeAlu u h o m := by cases u <;> rfl
theorem decodeOp_fpu (u : FpuUnit) (h o m) : decodeOp u.unit h o m = decodeFpu u h o m := by cases u <;> rfl
theorem decodeOp_lsu (u : LsuUnit) (h o m) : decodeOp u.unit h o m = decodeLsu u h o m := by cases u <;> rfl

end Sys2Proof
end

