-- ==== Sys2Proof/Laws/Map.lean ====
section
/-! SUPPORT. Sparse maps and little-endian bytes: what a put, a drop and a write with a default leave to read, and the
canonical form. -/

namespace Sys2Proof

variable {α : Type}

@[simp] theorem lookup_nil (k : Nat) : lookup ([] : SMap α) k = none := rfl

theorem lookup_filter_ne (m : SMap α) (k j : Nat) (h : j ≠ k) :
    lookup (m.filter (fun e => e.1 != k)) j = lookup m j := by
  induction m with
  | nil => rfl
  | cons e r ih =>
    obtain ⟨a, v⟩ := e
    by_cases ha : a = k
    · subst ha
      have : a ≠ j := fun h' => h h'.symm
      simp [lookup, this, ih]
    · by_cases hj : a = j
      · subst hj; simp [ha, lookup]
      · simp [ha, lookup, hj, ih]

@[simp] theorem lookup_drop_self (m : SMap α) (k : Nat) : lookup (drop m k) k = none := by
  unfold drop
  induction m with
  | nil => rfl
  | cons e r ih =>
    obtain ⟨a, v⟩ := e
    by_cases ha : a = k
    · subst ha; simp [ih]
    · simp [ha, lookup, ih]

theorem lookup_drop_ne (m : SMap α) (k j : Nat) (h : j ≠ k) : lookup (drop m k) j = lookup m j :=
  lookup_filter_ne m k j h

theorem lookup_insertAt_ne (m : SMap α) (k j : Nat) (v : α) (h : j ≠ k) : lookup (insertAt m k v) j = lookup m j := by
  have hk : k ≠ j := fun h' => h h'.symm
  induction m with
  | nil => simp [insertAt, lookup, hk]
  | cons e r ih =>
    obtain ⟨a, w⟩ := e
    unfold insertAt
    split
    · simp [lookup, hk]
    · by_cases ha : a = j <;> simp [lookup, ha, ih]

theorem lookup_insertAt_self (m : SMap α) (k : Nat) (v : α) (h : lookup m k = none) : lookup (insertAt m k v) k = some v := by
  induction m with
  | nil => simp [insertAt, lookup]
  | cons e r ih =>
    obtain ⟨a, w⟩ := e
    have ha : a ≠ k := by rintro rfl; simp [lookup] at h
    have hr : lookup r k = none := by simpa [lookup, ha] using h
    unfold insertAt
    split
    · simp [lookup]
    · simp [lookup, ha, ih hr]

@[simp] theorem lookup_put_self (m : SMap α) (k : Nat) (v : α) : lookup (put m k v) k = some v :=
  lookup_insertAt_self _ _ _ (lookup_drop_self m k)

theorem lookup_put_ne (m : SMap α) (k j : Nat) (v : α) (h : j ≠ k) : lookup (put m k v) j = lookup m j := by
  unfold put; rw [lookup_insertAt_ne _ _ _ _ h, lookup_drop_ne _ _ _ h]

theorem drop_insertAt (m : SMap α) (k : Nat) (v : α) : drop (insertAt m k v) k = drop m k := by
  induction m with
  | nil => simp [insertAt, drop]
  | cons e r ih =>
    unfold insertAt
    split
    · simp [drop]
    · unfold drop at ih ⊢
      simp only [List.filter_cons, ih]

theorem drop_drop (m : SMap α) (k : Nat) : drop (drop m k) k = drop m k := by
  unfold drop; simp

@[simp] theorem put_put (m : SMap α) (k : Nat) (v w : α) : put (put m k v) k w = put m k w := by
  unfold put; rw [drop_insertAt, drop_drop]

theorem getD_setD_self [DecidableEq α] (m : SMap α) (d : α) (k : Nat) (v : α) : getD (setD m d k v) d k = v := by
  unfold getD setD
  split
  · next h => simp [h]
  · simp

theorem getD_setD_ne [DecidableEq α] (m : SMap α) (d : α) (k j : Nat) (v : α) (h : j ≠ k) :
    getD (setD m d k v) d j = getD m d j := by
  unfold getD setD
  split
  · rw [lookup_drop_ne _ _ _ h]
  · rw [lookup_put_ne _ _ _ _ h]

/-- Reading a map after a write with its default. -/
theorem getD_setD [DecidableEq α] (m : SMap α) (d : α) (k j : Nat) (v : α) :
    getD (setD m d k v) d j = if j = k then v else getD m d j := by
  split
  · next h => subst h; exact getD_setD_self ..
  · next h => exact getD_setD_ne _ _ _ _ _ h

/-! ## The canonical form -/

/-- Keys strictly rising from a bound on. -/
def risingFrom : Nat → SMap α → Prop
  | _, [] => True
  | b, e :: r => b ≤ e.1 ∧ risingFrom (e.1 + 1) r

theorem risingFrom_mono {b c : Nat} (h : c ≤ b) : ∀ {m : SMap α}, risingFrom b m → risingFrom c m
  | [], _ => trivial
  | _ :: _, ⟨h1, h2⟩ => ⟨Nat.le_trans h h1, h2⟩

theorem rising_iff (m : SMap α) : rising m = true ↔ risingFrom 0 m := by
  suffices h : ∀ (b : Nat) (m : SMap α), risingFrom b m ↔ (∀ e ∈ m.head?, b ≤ e.1) ∧ rising m = true by
    rw [h 0 m]; simp
  intro b m
  induction m generalizing b with
  | nil => simp [risingFrom, rising]
  | cons e r ih =>
    cases r with
    | nil => simp [risingFrom, rising]
    | cons f r =>
      simp only [risingFrom, rising, List.head?_cons, Option.mem_some_iff, Bool.and_eq_true, decide_eq_true_eq]
      have := ih (e.1 + 1)
      simp only [risingFrom, List.head?_cons, Option.mem_some_iff] at this
      constructor
      · rintro ⟨h1, h2⟩
        have := this.mp h2
        exact ⟨fun e' he => by subst he; exact h1, by have := this.1 f rfl; omega, this.2⟩
      · rintro ⟨h1, h2, h3⟩
        refine ⟨h1 e rfl, this.mpr ⟨fun e' he => by subst he; omega, h3⟩⟩

theorem risingFrom_filter (p : Nat × α → Bool) : ∀ {b : Nat} {m : SMap α}, risingFrom b m → risingFrom b (m.filter p)
  | _, [], _ => trivial
  | b, e :: r, ⟨h1, h2⟩ => by
    have hr := risingFrom_filter p h2
    by_cases hp : p e
    · simp only [List.filter_cons, hp, if_true]; exact ⟨h1, hr⟩
    · simp only [List.filter_cons, hp]; exact risingFrom_mono (by omega) hr

theorem risingFrom_insertAt {k : Nat} {v : α} : ∀ {b : Nat} {m : SMap α}, risingFrom b m → (∀ e ∈ m, e.1 ≠ k) → b ≤ k →
    risingFrom b (insertAt m k v)
  | _, [], _, _, hb => ⟨hb, trivial⟩
  | b, e :: r, ⟨h1, h2⟩, hk, hb => by
    unfold insertAt
    split
    · next h => exact ⟨hb, h, h2⟩
    · next h =>
      have hne : e.1 ≠ k := hk e (List.mem_cons_self ..)
      exact ⟨h1, risingFrom_insertAt h2 (fun x hx => hk x (List.mem_cons_of_mem _ hx)) (by omega)⟩

theorem mem_insertAt {m : SMap α} {k : Nat} {v : α} {e : Nat × α} : e ∈ insertAt m k v → e = (k, v) ∨ e ∈ m := by
  induction m with
  | nil => simp [insertAt]
  | cons f r ih =>
    unfold insertAt
    split
    · simp
    · intro h
      rcases List.mem_cons.mp h with h | h
      · exact .inr (by simp [h])
      · rcases ih h with h | h
        · exact .inl h
        · exact .inr (List.mem_cons_of_mem _ h)

/-- A write with the default keeps the canonical form. -/
theorem canonical_setD [DecidableEq α] (d : α) (m : SMap α) (k : Nat) (v : α) (h : canonical d m = true) :
    canonical d (setD m d k v) = true := by
  unfold canonical at *
  simp only [Bool.and_eq_true, List.all_eq_true, rising_iff] at *
  obtain ⟨hr, ha⟩ := h
  unfold setD
  split
  · exact ⟨risingFrom_filter _ hr, fun e he => ha e (List.mem_filter.mp he).1⟩
  · next hv =>
    refine ⟨risingFrom_insertAt (risingFrom_filter _ hr) (fun e he => ?_) (Nat.zero_le _), fun e he => ?_⟩
    · simpa using (List.mem_filter.mp he).2
    · rcases mem_insertAt he with rfl | he
      · simpa using hv
      · exact ha e (List.mem_filter.mp he).1

/-! ## Bytes -/

@[simp] theorem leBytes_length (k n : Nat) : (leBytes k n).length = k := by
  induction k generalizing n with
  | zero => rfl
  | succ k ih => simp [leBytes, ih]

theorem leNat_leBytes (k n : Nat) : leNat (leBytes k n) = n % 256 ^ k := by
  induction k generalizing n with
  | zero => simp [leBytes, leNat, Nat.mod_one]
  | succ k ih =>
    simp only [leBytes, leNat, ih, BitVec.toNat_ofNat]
    rw [show (2 : Nat) ^ 8 = 256 from rfl, Nat.pow_succ, Nat.mul_comm (256 ^ k) 256, Nat.mod_mul]

theorem leNat_lt (bs : List Byte) : leNat bs < 256 ^ bs.length := by
  induction bs with
  | nil => simp [leNat]
  | cons b r ih =>
    have hb := b.isLt
    simp only [leNat, List.length_cons, Nat.pow_succ]
    have : 256 * leNat r + 256 ≤ 256 * 256 ^ r.length := by omega
    omega

end Sys2Proof
end

