-- ==== Sys2Proof/Laws/Crypto.lean ====
section
/-! SUPPORT. What encryption keeps: the length of what it encrypts (log 17). -/

namespace Sys2Proof.Laws

open Sys2Proof Sys2Proof.Crypto

theorem xorBytes_length (a b : List Byte) : (xorBytes a b).length = min a.length b.length := by simp [xorBytes]

/-- The key expansion adds a word a step, each of four bytes. -/
theorem expandKey_words : ∀ (n i : Nat) (l : List (List Byte)), 8 ≤ l.length → (∀ w ∈ l, w.length = 4) →
    (expandKey n i l).length = l.length + n ∧ ∀ w ∈ expandKey n i l, w.length = 4
  | 0, _, l, _, h => ⟨rfl, h⟩
  | n + 1, i, l, h8, h => by
    have hh : (l.headD []).length = 4 := by
      cases l with
      | nil => simp at h8
      | cons a r => exact h a (by simp)
    have h7 : (l.getD 7 []).length = 4 := by
      rw [List.getD_eq_getElem l [] (by omega)]
      exact h _ (List.getElem_mem _)
    have hx : ∀ t : List Byte, t.length = 4 → ∀ w ∈ xorBytes (l.getD 7 []) t :: l, w.length = 4 := fun t ht w hw => by
      rcases List.mem_cons.1 hw with rfl | hw
      · rw [xorBytes_length, h7, ht]; rfl
      · exact h w hw
    obtain ⟨a, b⟩ := expandKey_words n (i + 1) _ (by simp only [List.length_cons]; omega) (hx _ (by
      show (if i % 8 = 0 then xorBytes (((l.headD []).drop 1 ++ (l.headD []).take 1).map sbox) (rcon (i / 8)) else
        if i % 8 = 4 then (l.headD []).map sbox else l.headD []).length = 4
      generalize l.headD [] = t at hh
      split
      · rw [xorBytes_length]; simp [rcon, hh]
      · split <;> simp [hh]))
    exact ⟨a.trans (by simp only [List.length_cons]; omega), b⟩

theorem keyWords_words (key : BitVec 256) : (keyWords key).length = 60 ∧ ∀ w ∈ keyWords key, w.length = 4 := by
  obtain ⟨a, b⟩ := expandKey_words 52 8 ((List.range 8).map (fun k => ((beBytes 32 key.toNat).drop (4 * k)).take 4)).reverse (by simp)
    (fun w hw => by
      simp only [List.mem_reverse, List.mem_map, List.mem_range] at hw
      obtain ⟨k, hk, rfl⟩ := hw
      simp [beBytes, leBytes_length]; omega)
  exact ⟨by simp [keyWords, a], fun w hw => b w (by simpa [keyWords] using hw)⟩

theorem aesBlock_length (key : BitVec 256) (b : List Byte) : (aesBlock (keyWords key) b).length = 16 := by
  obtain ⟨hl, hw⟩ := keyWords_words key
  have hr : (((keyWords key).drop (4 * 14)).take 4).flatten.length = 16 := by
    rw [List.length_flatten, List.map_congr_left (g := fun _ => 4) (fun w h => hw w (List.mem_of_mem_drop (List.mem_of_mem_take h)))]
    simp [hl]
  simp only [aesBlock, xorBytes_length, hr]
  simp [subShift]

/-- What is encrypted keeps its length. -/
theorem gcmCrypt_length (key : BitVec 256) (nonce : BitVec 96) (bs : List Byte) : (gcmCrypt key nonce bs).length = bs.length := by
  simp only [gcmCrypt, xorBytes_length, List.length_flatMap, aesBlock_length]
  simp
  omega

end Sys2Proof.Laws
end

