-- ==== Sys2Proof/Laws/Home.lean ====
section
/-! SUPPORT. What the use of an L2 can change (R22, R193, R316): words of L1s and their registrations, lines of the L2s, the
requests at the memory controllers, and the counter of free values. -/

namespace Sys2Proof.Machine

/-- Nothing but what the use of an L2 changes differs. -/
def L2Only (s t : State) : Prop :=
  t = { s with cores := t.cores, reg := t.reg, l2 := t.l2, channels := t.channels, freeCtr := t.freeCtr }

theorem L2Only.refl (s : State) : L2Only s s := rfl
theorem L2Only.trans {s t u : State} (h : L2Only s t) (k : L2Only t u) : L2Only s u := by
  unfold L2Only at *
  rw [k, h]
theorem L2Only.foldl {α : Type} {f : State → α → State} (h : ∀ s a, L2Only s (f s a)) : ∀ (l : List α) (s : State), L2Only s (l.foldl f s)
  | [], s => .refl s
  | a :: l, s => (h s a).trans (L2Only.foldl h l (f s a))

theorem memRequest_only (s : State) (x : Asker) (pa : Nat) (w : Bool) : L2Only s (memRequest s x pa w) := by
  unfold memRequest; split <;> rfl
theorem invalidateWord_only (s : State) (core w : Nat) : L2Only s (invalidateWord s core w) := by
  unfold invalidateWord; dsimp only; split <;> rfl
theorem recallWords_only (s : State) (keep : Nat) (ws : List Nat) : L2Only s (recallWords s keep ws) := by
  unfold recallWords
  refine L2Only.foldl (fun s w => ?_) ws s
  dsimp only
  split
  · exact invalidateWord_only ..
  · exact .refl s
theorem evictLine_only (s : State) (line : Nat) : L2Only s (evictLine s line) := by
  unfold evictLine
  dsimp only
  refine (recallWords_only s 0 ((List.range 32).map (line * 32 + ·))).trans ?_
  generalize recallWords s 0 ((List.range 32).map (line * 32 + ·)) = t
  split
  · exact .refl t
  · refine L2Only.trans (t := { t with l2 := drop t.l2 line }) rfl (L2Only.foldl (fun s k => ?_) _ _)
    split
    · exact memRequest_only ..
    · exact .refl s
theorem l2Allocate_only (s : State) (x : Asker) (line : Nat) : L2Only s (l2Allocate s x line) := by
  unfold l2Allocate
  split
  · exact .refl s
  · dsimp only
    split
    · generalize (setVictims s line).getD (s.free 1002 % max (setVictims s line).length 1) line = v
      have h := evictLine_only s v
      generalize evictLine s v = t at h ⊢
      exact h.trans rfl
    · rfl
theorem l2Sector_only (x : Asker) (w : Bool) (pa n : Nat) (s : State) (q : Nat) : L2Only s (l2Sector x w pa n s q) := by
  unfold l2Sector
  dsimp only
  refine (l2Allocate_only s x (q / 4)).trans ?_
  generalize l2Allocate s x (q / 4) = t
  split
  · exact .refl t
  · split
    · rfl
    · exact (memRequest_only t x _ false).trans rfl
/-- All that the use of an L2 can do, but for what it counts. -/
theorem l2Touch_only (s : State) (x : Asker) (w : Bool) (pa n : Nat) : L2Only s (l2Touch s x w pa n) :=
  L2Only.foldl (l2Sector_only x w pa n) _ s

@[simp] theorem l2Touch_parts (s : State) (x : Asker) (w : Bool) (pa n : Nat) : (l2Touch s x w pa n).parts = s.parts := by
  rw [l2Touch_only s x w pa n]

/-- What a request counts is in the counters of partitions and on the agenda (R328). -/
theorem asker_event_only (x : Asker) (s : State) (ev n : Nat) : ∃ p a, x.event s ev n = { s with parts := p, agenda := a } := by
  unfold Asker.event
  split
  · unfold State.event
    dsimp only
    split
    · exact ⟨_, _, rfl⟩
    · exact ⟨_, _, rfl⟩
  · exact ⟨_, _, rfl⟩
/-- All that the counted use of an L2 can do. -/
theorem l2Use_only (s : State) (x : Asker) (w : Bool) (pa n : Nat) : ∃ p a, L2Only { s with parts := p, agenda := a } (l2Use s x w pa n) := by
  obtain ⟨p, a, h⟩ := asker_event_only x (l2Touch s x w pa n) 7 (sectorsOf pa n).length
  refine ⟨p, a, ?_⟩
  unfold l2Use L2Only
  rw [h, l2Touch_only s x w pa n]

@[simp] theorem l2Use_mem (s : State) (x : Asker) (w : Bool) (pa n : Nat) : (l2Use s x w pa n).mem = s.mem := by
  obtain ⟨p, a, h⟩ := l2Use_only s x w pa n
  rw [h]
@[simp] theorem l2Use_sheets (s : State) (x : Asker) (w : Bool) (pa n : Nat) : (l2Use s x w pa n).sheets = s.sheets := by
  obtain ⟨p, a, h⟩ := l2Use_only s x w pa n
  rw [h]
@[simp] theorem l2Use_wgs (s : State) (x : Asker) (w : Bool) (pa n : Nat) : (l2Use s x w pa n).wgs = s.wgs := by
  obtain ⟨p, a, h⟩ := l2Use_only s x w pa n
  rw [h]
@[simp] theorem l2Use_homeq (s : State) (x : Asker) (w : Bool) (pa n : Nat) : (l2Use s x w pa n).homeq = s.homeq := by
  obtain ⟨p, a, h⟩ := l2Use_only s x w pa n
  rw [h]

/-- Where no store is on its way, a request finds its home as it is (R13). -/
theorem drainHomes_none (s : State) (p : HomeStore → Bool) (h : s.homeq = []) : drainHomes s p = s := by
  unfold drainHomes
  rw [h]
  simp only [splitHomes, List.foldl_nil]
  rw [← h]
theorem reachHome_none (s : State) (core pa : Nat) (h : s.homeq = []) : reachHome s core pa = s := by
  unfold reachHome
  split
  · exact drainHomes_none s _ h
  · rfl

end Sys2Proof.Machine
end

