-- ==== Sys2Proof/Laws/State.lean ====
section
/-! SUPPORT. What each update of the state leaves: one lemma for each field of State and each named update, all true by
rfl or by the case where the part is absent. -/

namespace Sys2Proof.Machine

/-! ## State.setCore -/

@[simp] theorem State.setCore_ts (s : State) (c : Nat) (x : Core) : (s.setCore c x).ts = s.ts := rfl
@[simp] theorem State.setCore_sheets (s : State) (c : Nat) (x : Core) : (s.setCore c x).sheets = s.sheets := rfl
@[simp] theorem State.setCore_wgs (s : State) (c : Nat) (x : Core) : (s.setCore c x).wgs = s.wgs := rfl
@[simp] theorem State.setCore_nextWg (s : State) (c : Nat) (x : Core) : (s.setCore c x).nextWg = s.nextWg := rfl
@[simp] theorem State.setCore_clusters (s : State) (c : Nat) (x : Core) : (s.setCore c x).clusters = s.clusters := rfl
@[simp] theorem State.setCore_dies (s : State) (c : Nat) (x : Core) : (s.setCore c x).dies = s.dies := rfl
@[simp] theorem State.setCore_rails (s : State) (c : Nat) (x : Core) : (s.setCore c x).rails = s.rails := rfl
@[simp] theorem State.setCore_parts (s : State) (c : Nat) (x : Core) : (s.setCore c x).parts = s.parts := rfl
@[simp] theorem State.setCore_vfs (s : State) (c : Nat) (x : Core) : (s.setCore c x).vfs = s.vfs := rfl
@[simp] theorem State.setCore_grids (s : State) (c : Nat) (x : Core) : (s.setCore c x).grids = s.grids := rfl
@[simp] theorem State.setCore_nextGrid (s : State) (c : Nat) (x : Core) : (s.setCore c x).nextGrid = s.nextGrid := rfl
@[simp] theorem State.setCore_lqueue (s : State) (c : Nat) (x : Core) : (s.setCore c x).lqueue = s.lqueue := rfl
@[simp] theorem State.setCore_turn (s : State) (c : Nat) (x : Core) : (s.setCore c x).turn = s.turn := rfl
@[simp] theorem State.setCore_mem (s : State) (c : Nat) (x : Core) : (s.setCore c x).mem = s.mem := rfl
@[simp] theorem State.setCore_reg (s : State) (c : Nat) (x : Core) : (s.setCore c x).reg = s.reg := rfl
@[simp] theorem State.setCore_homeq (s : State) (c : Nat) (x : Core) : (s.setCore c x).homeq = s.homeq := rfl
@[simp] theorem State.setCore_l2 (s : State) (c : Nat) (x : Core) : (s.setCore c x).l2 = s.l2 := rfl
@[simp] theorem State.setCore_pinned (s : State) (c : Nat) (x : Core) : (s.setCore c x).pinned = s.pinned := rfl
@[simp] theorem State.setCore_poisoned (s : State) (c : Nat) (x : Core) : (s.setCore c x).poisoned = s.poisoned := rfl
@[simp] theorem State.setCore_launches (s : State) (c : Nat) (x : Core) : (s.setCore c x).launches = s.launches := rfl
@[simp] theorem State.setCore_batches (s : State) (c : Nat) (x : Core) : (s.setCore c x).batches = s.batches := rfl
@[simp] theorem State.setCore_refusedPages (s : State) (c : Nat) (x : Core) : (s.setCore c x).refusedPages = s.refusedPages := rfl
@[simp] theorem State.setCore_spawns (s : State) (c : Nat) (x : Core) : (s.setCore c x).spawns = s.spawns := rfl
@[simp] theorem State.setCore_arrivals (s : State) (c : Nat) (x : Core) : (s.setCore c x).arrivals = s.arrivals := rfl
@[simp] theorem State.setCore_peerReqs (s : State) (c : Nat) (x : Core) : (s.setCore c x).peerReqs = s.peerReqs := rfl
@[simp] theorem State.setCore_rounds (s : State) (c : Nat) (x : Core) : (s.setCore c x).rounds = s.rounds := rfl
@[simp] theorem State.setCore_roundArrivals (s : State) (c : Nat) (x : Core) : (s.setCore c x).roundArrivals = s.roundArrivals := rfl
@[simp] theorem State.setCore_policies (s : State) (c : Nat) (x : Core) : (s.setCore c x).policies = s.policies := rfl
@[simp] theorem State.setCore_nextPolicy (s : State) (c : Nat) (x : Core) : (s.setCore c x).nextPolicy = s.nextPolicy := rfl
@[simp] theorem State.setCore_channels (s : State) (c : Nat) (x : Core) : (s.setCore c x).channels = s.channels := rfl
@[simp] theorem State.setCore_enga (s : State) (c : Nat) (x : Core) : (s.setCore c x).enga = s.enga := rfl
@[simp] theorem State.setCore_budgetNext (s : State) (c : Nat) (x : Core) : (s.setCore c x).budgetNext = s.budgetNext := rfl
@[simp] theorem State.setCore_sems (s : State) (c : Nat) (x : Core) : (s.setCore c x).sems = s.sems := rfl
@[simp] theorem State.setCore_tieLoser (s : State) (c : Nat) (x : Core) : (s.setCore c x).tieLoser = s.tieLoser := rfl
@[simp] theorem State.setCore_hpcap (s : State) (c : Nat) (x : Core) : (s.setCore c x).hpcap = s.hpcap := rfl
@[simp] theorem State.setCore_deviceNo (s : State) (c : Nat) (x : Core) : (s.setCore c x).deviceNo = s.deviceNo := rfl
@[simp] theorem State.setCore_routes (s : State) (c : Nat) (x : Core) : (s.setCore c x).routes = s.routes := rfl
@[simp] theorem State.setCore_linksDown (s : State) (c : Nat) (x : Core) : (s.setCore c x).linksDown = s.linksDown := rfl
@[simp] theorem State.setCore_agenda (s : State) (c : Nat) (x : Core) : (s.setCore c x).agenda = s.agenda := rfl
@[simp] theorem State.setCore_focus (s : State) (c : Nat) (x : Core) : (s.setCore c x).focus = s.focus := rfl
@[simp] theorem State.setCore_freeCtr (s : State) (c : Nat) (x : Core) : (s.setCore c x).freeCtr = s.freeCtr := rfl
@[simp] theorem State.setCore_reply (s : State) (c : Nat) (x : Core) : (s.setCore c x).reply = s.reply := rfl

/-! ## State.setCluster -/

@[simp] theorem State.setCluster_ts (s : State) (c : Nat) (x : Cluster) : (s.setCluster c x).ts = s.ts := rfl
@[simp] theorem State.setCluster_sheets (s : State) (c : Nat) (x : Cluster) : (s.setCluster c x).sheets = s.sheets := rfl
@[simp] theorem State.setCluster_wgs (s : State) (c : Nat) (x : Cluster) : (s.setCluster c x).wgs = s.wgs := rfl
@[simp] theorem State.setCluster_nextWg (s : State) (c : Nat) (x : Cluster) : (s.setCluster c x).nextWg = s.nextWg := rfl
@[simp] theorem State.setCluster_cores (s : State) (c : Nat) (x : Cluster) : (s.setCluster c x).cores = s.cores := rfl
@[simp] theorem State.setCluster_dies (s : State) (c : Nat) (x : Cluster) : (s.setCluster c x).dies = s.dies := rfl
@[simp] theorem State.setCluster_rails (s : State) (c : Nat) (x : Cluster) : (s.setCluster c x).rails = s.rails := rfl
@[simp] theorem State.setCluster_parts (s : State) (c : Nat) (x : Cluster) : (s.setCluster c x).parts = s.parts := rfl
@[simp] theorem State.setCluster_vfs (s : State) (c : Nat) (x : Cluster) : (s.setCluster c x).vfs = s.vfs := rfl
@[simp] theorem State.setCluster_grids (s : State) (c : Nat) (x : Cluster) : (s.setCluster c x).grids = s.grids := rfl
@[simp] theorem State.setCluster_nextGrid (s : State) (c : Nat) (x : Cluster) : (s.setCluster c x).nextGrid = s.nextGrid := rfl
@[simp] theorem State.setCluster_lqueue (s : State) (c : Nat) (x : Cluster) : (s.setCluster c x).lqueue = s.lqueue := rfl
@[simp] theorem State.setCluster_turn (s : State) (c : Nat) (x : Cluster) : (s.setCluster c x).turn = s.turn := rfl
@[simp] theorem State.setCluster_mem (s : State) (c : Nat) (x : Cluster) : (s.setCluster c x).mem = s.mem := rfl
@[simp] theorem State.setCluster_reg (s : State) (c : Nat) (x : Cluster) : (s.setCluster c x).reg = s.reg := rfl
@[simp] theorem State.setCluster_homeq (s : State) (c : Nat) (x : Cluster) : (s.setCluster c x).homeq = s.homeq := rfl
@[simp] theorem State.setCluster_l2 (s : State) (c : Nat) (x : Cluster) : (s.setCluster c x).l2 = s.l2 := rfl
@[simp] theorem State.setCluster_pinned (s : State) (c : Nat) (x : Cluster) : (s.setCluster c x).pinned = s.pinned := rfl
@[simp] theorem State.setCluster_poisoned (s : State) (c : Nat) (x : Cluster) : (s.setCluster c x).poisoned = s.poisoned := rfl
@[simp] theorem State.setCluster_launches (s : State) (c : Nat) (x : Cluster) : (s.setCluster c x).launches = s.launches := rfl
@[simp] theorem State.setCluster_batches (s : State) (c : Nat) (x : Cluster) : (s.setCluster c x).batches = s.batches := rfl
@[simp] theorem State.setCluster_refusedPages (s : State) (c : Nat) (x : Cluster) : (s.setCluster c x).refusedPages = s.refusedPages := rfl
@[simp] theorem State.setCluster_spawns (s : State) (c : Nat) (x : Cluster) : (s.setCluster c x).spawns = s.spawns := rfl
@[simp] theorem State.setCluster_arrivals (s : State) (c : Nat) (x : Cluster) : (s.setCluster c x).arrivals = s.arrivals := rfl
@[simp] theorem State.setCluster_peerReqs (s : State) (c : Nat) (x : Cluster) : (s.setCluster c x).peerReqs = s.peerReqs := rfl
@[simp] theorem State.setCluster_rounds (s : State) (c : Nat) (x : Cluster) : (s.setCluster c x).rounds = s.rounds := rfl
@[simp] theorem State.setCluster_roundArrivals (s : State) (c : Nat) (x : Cluster) : (s.setCluster c x).roundArrivals = s.roundArrivals := rfl
@[simp] theorem State.setCluster_policies (s : State) (c : Nat) (x : Cluster) : (s.setCluster c x).policies = s.policies := rfl
@[simp] theorem State.setCluster_nextPolicy (s : State) (c : Nat) (x : Cluster) : (s.setCluster c x).nextPolicy = s.nextPolicy := rfl
@[simp] theorem State.setCluster_channels (s : State) (c : Nat) (x : Cluster) : (s.setCluster c x).channels = s.channels := rfl
@[simp] theorem State.setCluster_enga (s : State) (c : Nat) (x : Cluster) : (s.setCluster c x).enga = s.enga := rfl
@[simp] theorem State.setCluster_budgetNext (s : State) (c : Nat) (x : Cluster) : (s.setCluster c x).budgetNext = s.budgetNext := rfl
@[simp] theorem State.setCluster_sems (s : State) (c : Nat) (x : Cluster) : (s.setCluster c x).sems = s.sems := rfl
@[simp] theorem State.setCluster_tieLoser (s : State) (c : Nat) (x : Cluster) : (s.setCluster c x).tieLoser = s.tieLoser := rfl
@[simp] theorem State.setCluster_hpcap (s : State) (c : Nat) (x : Cluster) : (s.setCluster c x).hpcap = s.hpcap := rfl
@[simp] theorem State.setCluster_deviceNo (s : State) (c : Nat) (x : Cluster) : (s.setCluster c x).deviceNo = s.deviceNo := rfl
@[simp] theorem State.setCluster_routes (s : State) (c : Nat) (x : Cluster) : (s.setCluster c x).routes = s.routes := rfl
@[simp] theorem State.setCluster_linksDown (s : State) (c : Nat) (x : Cluster) : (s.setCluster c x).linksDown = s.linksDown := rfl
@[simp] theorem State.setCluster_agenda (s : State) (c : Nat) (x : Cluster) : (s.setCluster c x).agenda = s.agenda := rfl
@[simp] theorem State.setCluster_focus (s : State) (c : Nat) (x : Cluster) : (s.setCluster c x).focus = s.focus := rfl
@[simp] theorem State.setCluster_freeCtr (s : State) (c : Nat) (x : Cluster) : (s.setCluster c x).freeCtr = s.freeCtr := rfl
@[simp] theorem State.setCluster_reply (s : State) (c : Nat) (x : Cluster) : (s.setCluster c x).reply = s.reply := rfl

/-! ## State.setDie -/

@[simp] theorem State.setDie_ts (s : State) (c : Nat) (x : Die) : (s.setDie c x).ts = s.ts := rfl
@[simp] theorem State.setDie_sheets (s : State) (c : Nat) (x : Die) : (s.setDie c x).sheets = s.sheets := rfl
@[simp] theorem State.setDie_wgs (s : State) (c : Nat) (x : Die) : (s.setDie c x).wgs = s.wgs := rfl
@[simp] theorem State.setDie_nextWg (s : State) (c : Nat) (x : Die) : (s.setDie c x).nextWg = s.nextWg := rfl
@[simp] theorem State.setDie_cores (s : State) (c : Nat) (x : Die) : (s.setDie c x).cores = s.cores := rfl
@[simp] theorem State.setDie_clusters (s : State) (c : Nat) (x : Die) : (s.setDie c x).clusters = s.clusters := rfl
@[simp] theorem State.setDie_rails (s : State) (c : Nat) (x : Die) : (s.setDie c x).rails = s.rails := rfl
@[simp] theorem State.setDie_parts (s : State) (c : Nat) (x : Die) : (s.setDie c x).parts = s.parts := rfl
@[simp] theorem State.setDie_vfs (s : State) (c : Nat) (x : Die) : (s.setDie c x).vfs = s.vfs := rfl
@[simp] theorem State.setDie_grids (s : State) (c : Nat) (x : Die) : (s.setDie c x).grids = s.grids := rfl
@[simp] theorem State.setDie_nextGrid (s : State) (c : Nat) (x : Die) : (s.setDie c x).nextGrid = s.nextGrid := rfl
@[simp] theorem State.setDie_lqueue (s : State) (c : Nat) (x : Die) : (s.setDie c x).lqueue = s.lqueue := rfl
@[simp] theorem State.setDie_turn (s : State) (c : Nat) (x : Die) : (s.setDie c x).turn = s.turn := rfl
@[simp] theorem State.setDie_mem (s : State) (c : Nat) (x : Die) : (s.setDie c x).mem = s.mem := rfl
@[simp] theorem State.setDie_reg (s : State) (c : Nat) (x : Die) : (s.setDie c x).reg = s.reg := rfl
@[simp] theorem State.setDie_homeq (s : State) (c : Nat) (x : Die) : (s.setDie c x).homeq = s.homeq := rfl
@[simp] theorem State.setDie_l2 (s : State) (c : Nat) (x : Die) : (s.setDie c x).l2 = s.l2 := rfl
@[simp] theorem State.setDie_pinned (s : State) (c : Nat) (x : Die) : (s.setDie c x).pinned = s.pinned := rfl
@[simp] theorem State.setDie_poisoned (s : State) (c : Nat) (x : Die) : (s.setDie c x).poisoned = s.poisoned := rfl
@[simp] theorem State.setDie_launches (s : State) (c : Nat) (x : Die) : (s.setDie c x).launches = s.launches := rfl
@[simp] theorem State.setDie_batches (s : State) (c : Nat) (x : Die) : (s.setDie c x).batches = s.batches := rfl
@[simp] theorem State.setDie_refusedPages (s : State) (c : Nat) (x : Die) : (s.setDie c x).refusedPages = s.refusedPages := rfl
@[simp] theorem State.setDie_spawns (s : State) (c : Nat) (x : Die) : (s.setDie c x).spawns = s.spawns := rfl
@[simp] theorem State.setDie_arrivals (s : State) (c : Nat) (x : Die) : (s.setDie c x).arrivals = s.arrivals := rfl
@[simp] theorem State.setDie_peerReqs (s : State) (c : Nat) (x : Die) : (s.setDie c x).peerReqs = s.peerReqs := rfl
@[simp] theorem State.setDie_rounds (s : State) (c : Nat) (x : Die) : (s.setDie c x).rounds = s.rounds := rfl
@[simp] theorem State.setDie_roundArrivals (s : State) (c : Nat) (x : Die) : (s.setDie c x).roundArrivals = s.roundArrivals := rfl
@[simp] theorem State.setDie_policies (s : State) (c : Nat) (x : Die) : (s.setDie c x).policies = s.policies := rfl
@[simp] theorem State.setDie_nextPolicy (s : State) (c : Nat) (x : Die) : (s.setDie c x).nextPolicy = s.nextPolicy := rfl
@[simp] theorem State.setDie_channels (s : State) (c : Nat) (x : Die) : (s.setDie c x).channels = s.channels := rfl
@[simp] theorem State.setDie_enga (s : State) (c : Nat) (x : Die) : (s.setDie c x).enga = s.enga := rfl
@[simp] theorem State.setDie_budgetNext (s : State) (c : Nat) (x : Die) : (s.setDie c x).budgetNext = s.budgetNext := rfl
@[simp] theorem State.setDie_sems (s : State) (c : Nat) (x : Die) : (s.setDie c x).sems = s.sems := rfl
@[simp] theorem State.setDie_tieLoser (s : State) (c : Nat) (x : Die) : (s.setDie c x).tieLoser = s.tieLoser := rfl
@[simp] theorem State.setDie_hpcap (s : State) (c : Nat) (x : Die) : (s.setDie c x).hpcap = s.hpcap := rfl
@[simp] theorem State.setDie_deviceNo (s : State) (c : Nat) (x : Die) : (s.setDie c x).deviceNo = s.deviceNo := rfl
@[simp] theorem State.setDie_routes (s : State) (c : Nat) (x : Die) : (s.setDie c x).routes = s.routes := rfl
@[simp] theorem State.setDie_linksDown (s : State) (c : Nat) (x : Die) : (s.setDie c x).linksDown = s.linksDown := rfl
@[simp] theorem State.setDie_agenda (s : State) (c : Nat) (x : Die) : (s.setDie c x).agenda = s.agenda := rfl
@[simp] theorem State.setDie_focus (s : State) (c : Nat) (x : Die) : (s.setDie c x).focus = s.focus := rfl
@[simp] theorem State.setDie_freeCtr (s : State) (c : Nat) (x : Die) : (s.setDie c x).freeCtr = s.freeCtr := rfl
@[simp] theorem State.setDie_reply (s : State) (c : Nat) (x : Die) : (s.setDie c x).reply = s.reply := rfl

/-! ## State.setRail -/

@[simp] theorem State.setRail_ts (s : State) (c : Nat) (x : Rail) : (s.setRail c x).ts = s.ts := rfl
@[simp] theorem State.setRail_sheets (s : State) (c : Nat) (x : Rail) : (s.setRail c x).sheets = s.sheets := rfl
@[simp] theorem State.setRail_wgs (s : State) (c : Nat) (x : Rail) : (s.setRail c x).wgs = s.wgs := rfl
@[simp] theorem State.setRail_nextWg (s : State) (c : Nat) (x : Rail) : (s.setRail c x).nextWg = s.nextWg := rfl
@[simp] theorem State.setRail_cores (s : State) (c : Nat) (x : Rail) : (s.setRail c x).cores = s.cores := rfl
@[simp] theorem State.setRail_clusters (s : State) (c : Nat) (x : Rail) : (s.setRail c x).clusters = s.clusters := rfl
@[simp] theorem State.setRail_dies (s : State) (c : Nat) (x : Rail) : (s.setRail c x).dies = s.dies := rfl
@[simp] theorem State.setRail_parts (s : State) (c : Nat) (x : Rail) : (s.setRail c x).parts = s.parts := rfl
@[simp] theorem State.setRail_vfs (s : State) (c : Nat) (x : Rail) : (s.setRail c x).vfs = s.vfs := rfl
@[simp] theorem State.setRail_grids (s : State) (c : Nat) (x : Rail) : (s.setRail c x).grids = s.grids := rfl
@[simp] theorem State.setRail_nextGrid (s : State) (c : Nat) (x : Rail) : (s.setRail c x).nextGrid = s.nextGrid := rfl
@[simp] theorem State.setRail_lqueue (s : State) (c : Nat) (x : Rail) : (s.setRail c x).lqueue = s.lqueue := rfl
@[simp] theorem State.setRail_turn (s : State) (c : Nat) (x : Rail) : (s.setRail c x).turn = s.turn := rfl
@[simp] theorem State.setRail_mem (s : State) (c : Nat) (x : Rail) : (s.setRail c x).mem = s.mem := rfl
@[simp] theorem State.setRail_reg (s : State) (c : Nat) (x : Rail) : (s.setRail c x).reg = s.reg := rfl
@[simp] theorem State.setRail_homeq (s : State) (c : Nat) (x : Rail) : (s.setRail c x).homeq = s.homeq := rfl
@[simp] theorem State.setRail_l2 (s : State) (c : Nat) (x : Rail) : (s.setRail c x).l2 = s.l2 := rfl
@[simp] theorem State.setRail_pinned (s : State) (c : Nat) (x : Rail) : (s.setRail c x).pinned = s.pinned := rfl
@[simp] theorem State.setRail_poisoned (s : State) (c : Nat) (x : Rail) : (s.setRail c x).poisoned = s.poisoned := rfl
@[simp] theorem State.setRail_launches (s : State) (c : Nat) (x : Rail) : (s.setRail c x).launches = s.launches := rfl
@[simp] theorem State.setRail_batches (s : State) (c : Nat) (x : Rail) : (s.setRail c x).batches = s.batches := rfl
@[simp] theorem State.setRail_refusedPages (s : State) (c : Nat) (x : Rail) : (s.setRail c x).refusedPages = s.refusedPages := rfl
@[simp] theorem State.setRail_spawns (s : State) (c : Nat) (x : Rail) : (s.setRail c x).spawns = s.spawns := rfl
@[simp] theorem State.setRail_arrivals (s : State) (c : Nat) (x : Rail) : (s.setRail c x).arrivals = s.arrivals := rfl
@[simp] theorem State.setRail_peerReqs (s : State) (c : Nat) (x : Rail) : (s.setRail c x).peerReqs = s.peerReqs := rfl
@[simp] theorem State.setRail_rounds (s : State) (c : Nat) (x : Rail) : (s.setRail c x).rounds = s.rounds := rfl
@[simp] theorem State.setRail_roundArrivals (s : State) (c : Nat) (x : Rail) : (s.setRail c x).roundArrivals = s.roundArrivals := rfl
@[simp] theorem State.setRail_policies (s : State) (c : Nat) (x : Rail) : (s.setRail c x).policies = s.policies := rfl
@[simp] theorem State.setRail_nextPolicy (s : State) (c : Nat) (x : Rail) : (s.setRail c x).nextPolicy = s.nextPolicy := rfl
@[simp] theorem State.setRail_channels (s : State) (c : Nat) (x : Rail) : (s.setRail c x).channels = s.channels := rfl
@[simp] theorem State.setRail_enga (s : State) (c : Nat) (x : Rail) : (s.setRail c x).enga = s.enga := rfl
@[simp] theorem State.setRail_budgetNext (s : State) (c : Nat) (x : Rail) : (s.setRail c x).budgetNext = s.budgetNext := rfl
@[simp] theorem State.setRail_sems (s : State) (c : Nat) (x : Rail) : (s.setRail c x).sems = s.sems := rfl
@[simp] theorem State.setRail_tieLoser (s : State) (c : Nat) (x : Rail) : (s.setRail c x).tieLoser = s.tieLoser := rfl
@[simp] theorem State.setRail_hpcap (s : State) (c : Nat) (x : Rail) : (s.setRail c x).hpcap = s.hpcap := rfl
@[simp] theorem State.setRail_deviceNo (s : State) (c : Nat) (x : Rail) : (s.setRail c x).deviceNo = s.deviceNo := rfl
@[simp] theorem State.setRail_routes (s : State) (c : Nat) (x : Rail) : (s.setRail c x).routes = s.routes := rfl
@[simp] theorem State.setRail_linksDown (s : State) (c : Nat) (x : Rail) : (s.setRail c x).linksDown = s.linksDown := rfl
@[simp] theorem State.setRail_agenda (s : State) (c : Nat) (x : Rail) : (s.setRail c x).agenda = s.agenda := rfl
@[simp] theorem State.setRail_focus (s : State) (c : Nat) (x : Rail) : (s.setRail c x).focus = s.focus := rfl
@[simp] theorem State.setRail_freeCtr (s : State) (c : Nat) (x : Rail) : (s.setRail c x).freeCtr = s.freeCtr := rfl
@[simp] theorem State.setRail_reply (s : State) (c : Nat) (x : Rail) : (s.setRail c x).reply = s.reply := rfl

/-! ## State.setPart -/

@[simp] theorem State.setPart_ts (s : State) (c : Nat) (x : Part) : (s.setPart c x).ts = s.ts := rfl
@[simp] theorem State.setPart_sheets (s : State) (c : Nat) (x : Part) : (s.setPart c x).sheets = s.sheets := rfl
@[simp] theorem State.setPart_wgs (s : State) (c : Nat) (x : Part) : (s.setPart c x).wgs = s.wgs := rfl
@[simp] theorem State.setPart_nextWg (s : State) (c : Nat) (x : Part) : (s.setPart c x).nextWg = s.nextWg := rfl
@[simp] theorem State.setPart_cores (s : State) (c : Nat) (x : Part) : (s.setPart c x).cores = s.cores := rfl
@[simp] theorem State.setPart_clusters (s : State) (c : Nat) (x : Part) : (s.setPart c x).clusters = s.clusters := rfl
@[simp] theorem State.setPart_dies (s : State) (c : Nat) (x : Part) : (s.setPart c x).dies = s.dies := rfl
@[simp] theorem State.setPart_rails (s : State) (c : Nat) (x : Part) : (s.setPart c x).rails = s.rails := rfl
@[simp] theorem State.setPart_vfs (s : State) (c : Nat) (x : Part) : (s.setPart c x).vfs = s.vfs := rfl
@[simp] theorem State.setPart_grids (s : State) (c : Nat) (x : Part) : (s.setPart c x).grids = s.grids := rfl
@[simp] theorem State.setPart_nextGrid (s : State) (c : Nat) (x : Part) : (s.setPart c x).nextGrid = s.nextGrid := rfl
@[simp] theorem State.setPart_lqueue (s : State) (c : Nat) (x : Part) : (s.setPart c x).lqueue = s.lqueue := rfl
@[simp] theorem State.setPart_turn (s : State) (c : Nat) (x : Part) : (s.setPart c x).turn = s.turn := rfl
@[simp] theorem State.setPart_mem (s : State) (c : Nat) (x : Part) : (s.setPart c x).mem = s.mem := rfl
@[simp] theorem State.setPart_reg (s : State) (c : Nat) (x : Part) : (s.setPart c x).reg = s.reg := rfl
@[simp] theorem State.setPart_homeq (s : State) (c : Nat) (x : Part) : (s.setPart c x).homeq = s.homeq := rfl
@[simp] theorem State.setPart_l2 (s : State) (c : Nat) (x : Part) : (s.setPart c x).l2 = s.l2 := rfl
@[simp] theorem State.setPart_pinned (s : State) (c : Nat) (x : Part) : (s.setPart c x).pinned = s.pinned := rfl
@[simp] theorem State.setPart_poisoned (s : State) (c : Nat) (x : Part) : (s.setPart c x).poisoned = s.poisoned := rfl
@[simp] theorem State.setPart_launches (s : State) (c : Nat) (x : Part) : (s.setPart c x).launches = s.launches := rfl
@[simp] theorem State.setPart_batches (s : State) (c : Nat) (x : Part) : (s.setPart c x).batches = s.batches := rfl
@[simp] theorem State.setPart_refusedPages (s : State) (c : Nat) (x : Part) : (s.setPart c x).refusedPages = s.refusedPages := rfl
@[simp] theorem State.setPart_spawns (s : State) (c : Nat) (x : Part) : (s.setPart c x).spawns = s.spawns := rfl
@[simp] theorem State.setPart_arrivals (s : State) (c : Nat) (x : Part) : (s.setPart c x).arrivals = s.arrivals := rfl
@[simp] theorem State.setPart_peerReqs (s : State) (c : Nat) (x : Part) : (s.setPart c x).peerReqs = s.peerReqs := rfl
@[simp] theorem State.setPart_rounds (s : State) (c : Nat) (x : Part) : (s.setPart c x).rounds = s.rounds := rfl
@[simp] theorem State.setPart_roundArrivals (s : State) (c : Nat) (x : Part) : (s.setPart c x).roundArrivals = s.roundArrivals := rfl
@[simp] theorem State.setPart_policies (s : State) (c : Nat) (x : Part) : (s.setPart c x).policies = s.policies := rfl
@[simp] theorem State.setPart_nextPolicy (s : State) (c : Nat) (x : Part) : (s.setPart c x).nextPolicy = s.nextPolicy := rfl
@[simp] theorem State.setPart_channels (s : State) (c : Nat) (x : Part) : (s.setPart c x).channels = s.channels := rfl
@[simp] theorem State.setPart_enga (s : State) (c : Nat) (x : Part) : (s.setPart c x).enga = s.enga := rfl
@[simp] theorem State.setPart_budgetNext (s : State) (c : Nat) (x : Part) : (s.setPart c x).budgetNext = s.budgetNext := rfl
@[simp] theorem State.setPart_sems (s : State) (c : Nat) (x : Part) : (s.setPart c x).sems = s.sems := rfl
@[simp] theorem State.setPart_tieLoser (s : State) (c : Nat) (x : Part) : (s.setPart c x).tieLoser = s.tieLoser := rfl
@[simp] theorem State.setPart_hpcap (s : State) (c : Nat) (x : Part) : (s.setPart c x).hpcap = s.hpcap := rfl
@[simp] theorem State.setPart_deviceNo (s : State) (c : Nat) (x : Part) : (s.setPart c x).deviceNo = s.deviceNo := rfl
@[simp] theorem State.setPart_routes (s : State) (c : Nat) (x : Part) : (s.setPart c x).routes = s.routes := rfl
@[simp] theorem State.setPart_linksDown (s : State) (c : Nat) (x : Part) : (s.setPart c x).linksDown = s.linksDown := rfl
@[simp] theorem State.setPart_agenda (s : State) (c : Nat) (x : Part) : (s.setPart c x).agenda = s.agenda := rfl
@[simp] theorem State.setPart_focus (s : State) (c : Nat) (x : Part) : (s.setPart c x).focus = s.focus := rfl
@[simp] theorem State.setPart_freeCtr (s : State) (c : Nat) (x : Part) : (s.setPart c x).freeCtr = s.freeCtr := rfl
@[simp] theorem State.setPart_reply (s : State) (c : Nat) (x : Part) : (s.setPart c x).reply = s.reply := rfl

/-! ## State.setVf -/

@[simp] theorem State.setVf_ts (s : State) (c : Nat) (x : Vf) : (s.setVf c x).ts = s.ts := rfl
@[simp] theorem State.setVf_sheets (s : State) (c : Nat) (x : Vf) : (s.setVf c x).sheets = s.sheets := rfl
@[simp] theorem State.setVf_wgs (s : State) (c : Nat) (x : Vf) : (s.setVf c x).wgs = s.wgs := rfl
@[simp] theorem State.setVf_nextWg (s : State) (c : Nat) (x : Vf) : (s.setVf c x).nextWg = s.nextWg := rfl
@[simp] theorem State.setVf_cores (s : State) (c : Nat) (x : Vf) : (s.setVf c x).cores = s.cores := rfl
@[simp] theorem State.setVf_clusters (s : State) (c : Nat) (x : Vf) : (s.setVf c x).clusters = s.clusters := rfl
@[simp] theorem State.setVf_dies (s : State) (c : Nat) (x : Vf) : (s.setVf c x).dies = s.dies := rfl
@[simp] theorem State.setVf_rails (s : State) (c : Nat) (x : Vf) : (s.setVf c x).rails = s.rails := rfl
@[simp] theorem State.setVf_parts (s : State) (c : Nat) (x : Vf) : (s.setVf c x).parts = s.parts := rfl
@[simp] theorem State.setVf_grids (s : State) (c : Nat) (x : Vf) : (s.setVf c x).grids = s.grids := rfl
@[simp] theorem State.setVf_nextGrid (s : State) (c : Nat) (x : Vf) : (s.setVf c x).nextGrid = s.nextGrid := rfl
@[simp] theorem State.setVf_lqueue (s : State) (c : Nat) (x : Vf) : (s.setVf c x).lqueue = s.lqueue := rfl
@[simp] theorem State.setVf_turn (s : State) (c : Nat) (x : Vf) : (s.setVf c x).turn = s.turn := rfl
@[simp] theorem State.setVf_mem (s : State) (c : Nat) (x : Vf) : (s.setVf c x).mem = s.mem := rfl
@[simp] theorem State.setVf_reg (s : State) (c : Nat) (x : Vf) : (s.setVf c x).reg = s.reg := rfl
@[simp] theorem State.setVf_homeq (s : State) (c : Nat) (x : Vf) : (s.setVf c x).homeq = s.homeq := rfl
@[simp] theorem State.setVf_l2 (s : State) (c : Nat) (x : Vf) : (s.setVf c x).l2 = s.l2 := rfl
@[simp] theorem State.setVf_pinned (s : State) (c : Nat) (x : Vf) : (s.setVf c x).pinned = s.pinned := rfl
@[simp] theorem State.setVf_poisoned (s : State) (c : Nat) (x : Vf) : (s.setVf c x).poisoned = s.poisoned := rfl
@[simp] theorem State.setVf_launches (s : State) (c : Nat) (x : Vf) : (s.setVf c x).launches = s.launches := rfl
@[simp] theorem State.setVf_batches (s : State) (c : Nat) (x : Vf) : (s.setVf c x).batches = s.batches := rfl
@[simp] theorem State.setVf_refusedPages (s : State) (c : Nat) (x : Vf) : (s.setVf c x).refusedPages = s.refusedPages := rfl
@[simp] theorem State.setVf_spawns (s : State) (c : Nat) (x : Vf) : (s.setVf c x).spawns = s.spawns := rfl
@[simp] theorem State.setVf_arrivals (s : State) (c : Nat) (x : Vf) : (s.setVf c x).arrivals = s.arrivals := rfl
@[simp] theorem State.setVf_peerReqs (s : State) (c : Nat) (x : Vf) : (s.setVf c x).peerReqs = s.peerReqs := rfl
@[simp] theorem State.setVf_rounds (s : State) (c : Nat) (x : Vf) : (s.setVf c x).rounds = s.rounds := rfl
@[simp] theorem State.setVf_roundArrivals (s : State) (c : Nat) (x : Vf) : (s.setVf c x).roundArrivals = s.roundArrivals := rfl
@[simp] theorem State.setVf_policies (s : State) (c : Nat) (x : Vf) : (s.setVf c x).policies = s.policies := rfl
@[simp] theorem State.setVf_nextPolicy (s : State) (c : Nat) (x : Vf) : (s.setVf c x).nextPolicy = s.nextPolicy := rfl
@[simp] theorem State.setVf_channels (s : State) (c : Nat) (x : Vf) : (s.setVf c x).channels = s.channels := rfl
@[simp] theorem State.setVf_enga (s : State) (c : Nat) (x : Vf) : (s.setVf c x).enga = s.enga := rfl
@[simp] theorem State.setVf_budgetNext (s : State) (c : Nat) (x : Vf) : (s.setVf c x).budgetNext = s.budgetNext := rfl
@[simp] theorem State.setVf_sems (s : State) (c : Nat) (x : Vf) : (s.setVf c x).sems = s.sems := rfl
@[simp] theorem State.setVf_tieLoser (s : State) (c : Nat) (x : Vf) : (s.setVf c x).tieLoser = s.tieLoser := rfl
@[simp] theorem State.setVf_hpcap (s : State) (c : Nat) (x : Vf) : (s.setVf c x).hpcap = s.hpcap := rfl
@[simp] theorem State.setVf_deviceNo (s : State) (c : Nat) (x : Vf) : (s.setVf c x).deviceNo = s.deviceNo := rfl
@[simp] theorem State.setVf_routes (s : State) (c : Nat) (x : Vf) : (s.setVf c x).routes = s.routes := rfl
@[simp] theorem State.setVf_linksDown (s : State) (c : Nat) (x : Vf) : (s.setVf c x).linksDown = s.linksDown := rfl
@[simp] theorem State.setVf_agenda (s : State) (c : Nat) (x : Vf) : (s.setVf c x).agenda = s.agenda := rfl
@[simp] theorem State.setVf_focus (s : State) (c : Nat) (x : Vf) : (s.setVf c x).focus = s.focus := rfl
@[simp] theorem State.setVf_freeCtr (s : State) (c : Nat) (x : Vf) : (s.setVf c x).freeCtr = s.freeCtr := rfl
@[simp] theorem State.setVf_reply (s : State) (c : Nat) (x : Vf) : (s.setVf c x).reply = s.reply := rfl

/-! ## State.setChannel -/

@[simp] theorem State.setChannel_ts (s : State) (c : Nat) (x : Channel) : (s.setChannel c x).ts = s.ts := rfl
@[simp] theorem State.setChannel_sheets (s : State) (c : Nat) (x : Channel) : (s.setChannel c x).sheets = s.sheets := rfl
@[simp] theorem State.setChannel_wgs (s : State) (c : Nat) (x : Channel) : (s.setChannel c x).wgs = s.wgs := rfl
@[simp] theorem State.setChannel_nextWg (s : State) (c : Nat) (x : Channel) : (s.setChannel c x).nextWg = s.nextWg := rfl
@[simp] theorem State.setChannel_cores (s : State) (c : Nat) (x : Channel) : (s.setChannel c x).cores = s.cores := rfl
@[simp] theorem State.setChannel_clusters (s : State) (c : Nat) (x : Channel) : (s.setChannel c x).clusters = s.clusters := rfl
@[simp] theorem State.setChannel_dies (s : State) (c : Nat) (x : Channel) : (s.setChannel c x).dies = s.dies := rfl
@[simp] theorem State.setChannel_rails (s : State) (c : Nat) (x : Channel) : (s.setChannel c x).rails = s.rails := rfl
@[simp] theorem State.setChannel_parts (s : State) (c : Nat) (x : Channel) : (s.setChannel c x).parts = s.parts := rfl
@[simp] theorem State.setChannel_vfs (s : State) (c : Nat) (x : Channel) : (s.setChannel c x).vfs = s.vfs := rfl
@[simp] theorem State.setChannel_grids (s : State) (c : Nat) (x : Channel) : (s.setChannel c x).grids = s.grids := rfl
@[simp] theorem State.setChannel_nextGrid (s : State) (c : Nat) (x : Channel) : (s.setChannel c x).nextGrid = s.nextGrid := rfl
@[simp] theorem State.setChannel_lqueue (s : State) (c : Nat) (x : Channel) : (s.setChannel c x).lqueue = s.lqueue := rfl
@[simp] theorem State.setChannel_turn (s : State) (c : Nat) (x : Channel) : (s.setChannel c x).turn = s.turn := rfl
@[simp] theorem State.setChannel_mem (s : State) (c : Nat) (x : Channel) : (s.setChannel c x).mem = s.mem := rfl
@[simp] theorem State.setChannel_reg (s : State) (c : Nat) (x : Channel) : (s.setChannel c x).reg = s.reg := rfl
@[simp] theorem State.setChannel_homeq (s : State) (c : Nat) (x : Channel) : (s.setChannel c x).homeq = s.homeq := rfl
@[simp] theorem State.setChannel_l2 (s : State) (c : Nat) (x : Channel) : (s.setChannel c x).l2 = s.l2 := rfl
@[simp] theorem State.setChannel_pinned (s : State) (c : Nat) (x : Channel) : (s.setChannel c x).pinned = s.pinned := rfl
@[simp] theorem State.setChannel_poisoned (s : State) (c : Nat) (x : Channel) : (s.setChannel c x).poisoned = s.poisoned := rfl
@[simp] theorem State.setChannel_launches (s : State) (c : Nat) (x : Channel) : (s.setChannel c x).launches = s.launches := rfl
@[simp] theorem State.setChannel_batches (s : State) (c : Nat) (x : Channel) : (s.setChannel c x).batches = s.batches := rfl
@[simp] theorem State.setChannel_refusedPages (s : State) (c : Nat) (x : Channel) : (s.setChannel c x).refusedPages = s.refusedPages := rfl
@[simp] theorem State.setChannel_spawns (s : State) (c : Nat) (x : Channel) : (s.setChannel c x).spawns = s.spawns := rfl
@[simp] theorem State.setChannel_arrivals (s : State) (c : Nat) (x : Channel) : (s.setChannel c x).arrivals = s.arrivals := rfl
@[simp] theorem State.setChannel_peerReqs (s : State) (c : Nat) (x : Channel) : (s.setChannel c x).peerReqs = s.peerReqs := rfl
@[simp] theorem State.setChannel_rounds (s : State) (c : Nat) (x : Channel) : (s.setChannel c x).rounds = s.rounds := rfl
@[simp] theorem State.setChannel_roundArrivals (s : State) (c : Nat) (x : Channel) : (s.setChannel c x).roundArrivals = s.roundArrivals := rfl
@[simp] theorem State.setChannel_policies (s : State) (c : Nat) (x : Channel) : (s.setChannel c x).policies = s.policies := rfl
@[simp] theorem State.setChannel_nextPolicy (s : State) (c : Nat) (x : Channel) : (s.setChannel c x).nextPolicy = s.nextPolicy := rfl
@[simp] theorem State.setChannel_enga (s : State) (c : Nat) (x : Channel) : (s.setChannel c x).enga = s.enga := rfl
@[simp] theorem State.setChannel_budgetNext (s : State) (c : Nat) (x : Channel) : (s.setChannel c x).budgetNext = s.budgetNext := rfl
@[simp] theorem State.setChannel_sems (s : State) (c : Nat) (x : Channel) : (s.setChannel c x).sems = s.sems := rfl
@[simp] theorem State.setChannel_tieLoser (s : State) (c : Nat) (x : Channel) : (s.setChannel c x).tieLoser = s.tieLoser := rfl
@[simp] theorem State.setChannel_hpcap (s : State) (c : Nat) (x : Channel) : (s.setChannel c x).hpcap = s.hpcap := rfl
@[simp] theorem State.setChannel_deviceNo (s : State) (c : Nat) (x : Channel) : (s.setChannel c x).deviceNo = s.deviceNo := rfl
@[simp] theorem State.setChannel_routes (s : State) (c : Nat) (x : Channel) : (s.setChannel c x).routes = s.routes := rfl
@[simp] theorem State.setChannel_linksDown (s : State) (c : Nat) (x : Channel) : (s.setChannel c x).linksDown = s.linksDown := rfl
@[simp] theorem State.setChannel_agenda (s : State) (c : Nat) (x : Channel) : (s.setChannel c x).agenda = s.agenda := rfl
@[simp] theorem State.setChannel_focus (s : State) (c : Nat) (x : Channel) : (s.setChannel c x).focus = s.focus := rfl
@[simp] theorem State.setChannel_freeCtr (s : State) (c : Nat) (x : Channel) : (s.setChannel c x).freeCtr = s.freeCtr := rfl
@[simp] theorem State.setChannel_reply (s : State) (c : Nat) (x : Channel) : (s.setChannel c x).reply = s.reply := rfl

/-! ## State.setSheet -/

@[simp] theorem State.setSheet_ts (s : State) (c : Nat) (x : Sheet) : (s.setSheet c x).ts = s.ts := rfl
@[simp] theorem State.setSheet_wgs (s : State) (c : Nat) (x : Sheet) : (s.setSheet c x).wgs = s.wgs := rfl
@[simp] theorem State.setSheet_nextWg (s : State) (c : Nat) (x : Sheet) : (s.setSheet c x).nextWg = s.nextWg := rfl
@[simp] theorem State.setSheet_cores (s : State) (c : Nat) (x : Sheet) : (s.setSheet c x).cores = s.cores := rfl
@[simp] theorem State.setSheet_clusters (s : State) (c : Nat) (x : Sheet) : (s.setSheet c x).clusters = s.clusters := rfl
@[simp] theorem State.setSheet_dies (s : State) (c : Nat) (x : Sheet) : (s.setSheet c x).dies = s.dies := rfl
@[simp] theorem State.setSheet_rails (s : State) (c : Nat) (x : Sheet) : (s.setSheet c x).rails = s.rails := rfl
@[simp] theorem State.setSheet_parts (s : State) (c : Nat) (x : Sheet) : (s.setSheet c x).parts = s.parts := rfl
@[simp] theorem State.setSheet_vfs (s : State) (c : Nat) (x : Sheet) : (s.setSheet c x).vfs = s.vfs := rfl
@[simp] theorem State.setSheet_grids (s : State) (c : Nat) (x : Sheet) : (s.setSheet c x).grids = s.grids := rfl
@[simp] theorem State.setSheet_nextGrid (s : State) (c : Nat) (x : Sheet) : (s.setSheet c x).nextGrid = s.nextGrid := rfl
@[simp] theorem State.setSheet_lqueue (s : State) (c : Nat) (x : Sheet) : (s.setSheet c x).lqueue = s.lqueue := rfl
@[simp] theorem State.setSheet_turn (s : State) (c : Nat) (x : Sheet) : (s.setSheet c x).turn = s.turn := rfl
@[simp] theorem State.setSheet_mem (s : State) (c : Nat) (x : Sheet) : (s.setSheet c x).mem = s.mem := rfl
@[simp] theorem State.setSheet_reg (s : State) (c : Nat) (x : Sheet) : (s.setSheet c x).reg = s.reg := rfl
@[simp] theorem State.setSheet_homeq (s : State) (c : Nat) (x : Sheet) : (s.setSheet c x).homeq = s.homeq := rfl
@[simp] theorem State.setSheet_l2 (s : State) (c : Nat) (x : Sheet) : (s.setSheet c x).l2 = s.l2 := rfl
@[simp] theorem State.setSheet_pinned (s : State) (c : Nat) (x : Sheet) : (s.setSheet c x).pinned = s.pinned := rfl
@[simp] theorem State.setSheet_poisoned (s : State) (c : Nat) (x : Sheet) : (s.setSheet c x).poisoned = s.poisoned := rfl
@[simp] theorem State.setSheet_launches (s : State) (c : Nat) (x : Sheet) : (s.setSheet c x).launches = s.launches := rfl
@[simp] theorem State.setSheet_batches (s : State) (c : Nat) (x : Sheet) : (s.setSheet c x).batches = s.batches := rfl
@[simp] theorem State.setSheet_refusedPages (s : State) (c : Nat) (x : Sheet) : (s.setSheet c x).refusedPages = s.refusedPages := rfl
@[simp] theorem State.setSheet_spawns (s : State) (c : Nat) (x : Sheet) : (s.setSheet c x).spawns = s.spawns := rfl
@[simp] theorem State.setSheet_arrivals (s : State) (c : Nat) (x : Sheet) : (s.setSheet c x).arrivals = s.arrivals := rfl
@[simp] theorem State.setSheet_peerReqs (s : State) (c : Nat) (x : Sheet) : (s.setSheet c x).peerReqs = s.peerReqs := rfl
@[simp] theorem State.setSheet_rounds (s : State) (c : Nat) (x : Sheet) : (s.setSheet c x).rounds = s.rounds := rfl
@[simp] theorem State.setSheet_roundArrivals (s : State) (c : Nat) (x : Sheet) : (s.setSheet c x).roundArrivals = s.roundArrivals := rfl
@[simp] theorem State.setSheet_policies (s : State) (c : Nat) (x : Sheet) : (s.setSheet c x).policies = s.policies := rfl
@[simp] theorem State.setSheet_nextPolicy (s : State) (c : Nat) (x : Sheet) : (s.setSheet c x).nextPolicy = s.nextPolicy := rfl
@[simp] theorem State.setSheet_channels (s : State) (c : Nat) (x : Sheet) : (s.setSheet c x).channels = s.channels := rfl
@[simp] theorem State.setSheet_enga (s : State) (c : Nat) (x : Sheet) : (s.setSheet c x).enga = s.enga := rfl
@[simp] theorem State.setSheet_budgetNext (s : State) (c : Nat) (x : Sheet) : (s.setSheet c x).budgetNext = s.budgetNext := rfl
@[simp] theorem State.setSheet_sems (s : State) (c : Nat) (x : Sheet) : (s.setSheet c x).sems = s.sems := rfl
@[simp] theorem State.setSheet_tieLoser (s : State) (c : Nat) (x : Sheet) : (s.setSheet c x).tieLoser = s.tieLoser := rfl
@[simp] theorem State.setSheet_hpcap (s : State) (c : Nat) (x : Sheet) : (s.setSheet c x).hpcap = s.hpcap := rfl
@[simp] theorem State.setSheet_deviceNo (s : State) (c : Nat) (x : Sheet) : (s.setSheet c x).deviceNo = s.deviceNo := rfl
@[simp] theorem State.setSheet_routes (s : State) (c : Nat) (x : Sheet) : (s.setSheet c x).routes = s.routes := rfl
@[simp] theorem State.setSheet_linksDown (s : State) (c : Nat) (x : Sheet) : (s.setSheet c x).linksDown = s.linksDown := rfl
@[simp] theorem State.setSheet_agenda (s : State) (c : Nat) (x : Sheet) : (s.setSheet c x).agenda = s.agenda := rfl
@[simp] theorem State.setSheet_focus (s : State) (c : Nat) (x : Sheet) : (s.setSheet c x).focus = s.focus := rfl
@[simp] theorem State.setSheet_freeCtr (s : State) (c : Nat) (x : Sheet) : (s.setSheet c x).freeCtr = s.freeCtr := rfl
@[simp] theorem State.setSheet_reply (s : State) (c : Nat) (x : Sheet) : (s.setSheet c x).reply = s.reply := rfl

/-! ## State.dropSheet -/

@[simp] theorem State.dropSheet_ts (s : State) (c : Nat) : (s.dropSheet c).ts = s.ts := rfl
@[simp] theorem State.dropSheet_wgs (s : State) (c : Nat) : (s.dropSheet c).wgs = s.wgs := rfl
@[simp] theorem State.dropSheet_nextWg (s : State) (c : Nat) : (s.dropSheet c).nextWg = s.nextWg := rfl
@[simp] theorem State.dropSheet_cores (s : State) (c : Nat) : (s.dropSheet c).cores = s.cores := rfl
@[simp] theorem State.dropSheet_clusters (s : State) (c : Nat) : (s.dropSheet c).clusters = s.clusters := rfl
@[simp] theorem State.dropSheet_dies (s : State) (c : Nat) : (s.dropSheet c).dies = s.dies := rfl
@[simp] theorem State.dropSheet_rails (s : State) (c : Nat) : (s.dropSheet c).rails = s.rails := rfl
@[simp] theorem State.dropSheet_parts (s : State) (c : Nat) : (s.dropSheet c).parts = s.parts := rfl
@[simp] theorem State.dropSheet_vfs (s : State) (c : Nat) : (s.dropSheet c).vfs = s.vfs := rfl
@[simp] theorem State.dropSheet_grids (s : State) (c : Nat) : (s.dropSheet c).grids = s.grids := rfl
@[simp] theorem State.dropSheet_nextGrid (s : State) (c : Nat) : (s.dropSheet c).nextGrid = s.nextGrid := rfl
@[simp] theorem State.dropSheet_lqueue (s : State) (c : Nat) : (s.dropSheet c).lqueue = s.lqueue := rfl
@[simp] theorem State.dropSheet_turn (s : State) (c : Nat) : (s.dropSheet c).turn = s.turn := rfl
@[simp] theorem State.dropSheet_mem (s : State) (c : Nat) : (s.dropSheet c).mem = s.mem := rfl
@[simp] theorem State.dropSheet_reg (s : State) (c : Nat) : (s.dropSheet c).reg = s.reg := rfl
@[simp] theorem State.dropSheet_homeq (s : State) (c : Nat) : (s.dropSheet c).homeq = s.homeq := rfl
@[simp] theorem State.dropSheet_l2 (s : State) (c : Nat) : (s.dropSheet c).l2 = s.l2 := rfl
@[simp] theorem State.dropSheet_pinned (s : State) (c : Nat) : (s.dropSheet c).pinned = s.pinned := rfl
@[simp] theorem State.dropSheet_poisoned (s : State) (c : Nat) : (s.dropSheet c).poisoned = s.poisoned := rfl
@[simp] theorem State.dropSheet_launches (s : State) (c : Nat) : (s.dropSheet c).launches = s.launches := rfl
@[simp] theorem State.dropSheet_batches (s : State) (c : Nat) : (s.dropSheet c).batches = s.batches := rfl
@[simp] theorem State.dropSheet_refusedPages (s : State) (c : Nat) : (s.dropSheet c).refusedPages = s.refusedPages := rfl
@[simp] theorem State.dropSheet_spawns (s : State) (c : Nat) : (s.dropSheet c).spawns = s.spawns := rfl
@[simp] theorem State.dropSheet_arrivals (s : State) (c : Nat) : (s.dropSheet c).arrivals = s.arrivals := rfl
@[simp] theorem State.dropSheet_peerReqs (s : State) (c : Nat) : (s.dropSheet c).peerReqs = s.peerReqs := rfl
@[simp] theorem State.dropSheet_rounds (s : State) (c : Nat) : (s.dropSheet c).rounds = s.rounds := rfl
@[simp] theorem State.dropSheet_roundArrivals (s : State) (c : Nat) : (s.dropSheet c).roundArrivals = s.roundArrivals := rfl
@[simp] theorem State.dropSheet_policies (s : State) (c : Nat) : (s.dropSheet c).policies = s.policies := rfl
@[simp] theorem State.dropSheet_nextPolicy (s : State) (c : Nat) : (s.dropSheet c).nextPolicy = s.nextPolicy := rfl
@[simp] theorem State.dropSheet_channels (s : State) (c : Nat) : (s.dropSheet c).channels = s.channels := rfl
@[simp] theorem State.dropSheet_enga (s : State) (c : Nat) : (s.dropSheet c).enga = s.enga := rfl
@[simp] theorem State.dropSheet_budgetNext (s : State) (c : Nat) : (s.dropSheet c).budgetNext = s.budgetNext := rfl
@[simp] theorem State.dropSheet_sems (s : State) (c : Nat) : (s.dropSheet c).sems = s.sems := rfl
@[simp] theorem State.dropSheet_tieLoser (s : State) (c : Nat) : (s.dropSheet c).tieLoser = s.tieLoser := rfl
@[simp] theorem State.dropSheet_hpcap (s : State) (c : Nat) : (s.dropSheet c).hpcap = s.hpcap := rfl
@[simp] theorem State.dropSheet_deviceNo (s : State) (c : Nat) : (s.dropSheet c).deviceNo = s.deviceNo := rfl
@[simp] theorem State.dropSheet_routes (s : State) (c : Nat) : (s.dropSheet c).routes = s.routes := rfl
@[simp] theorem State.dropSheet_linksDown (s : State) (c : Nat) : (s.dropSheet c).linksDown = s.linksDown := rfl
@[simp] theorem State.dropSheet_agenda (s : State) (c : Nat) : (s.dropSheet c).agenda = s.agenda := rfl
@[simp] theorem State.dropSheet_focus (s : State) (c : Nat) : (s.dropSheet c).focus = s.focus := rfl
@[simp] theorem State.dropSheet_freeCtr (s : State) (c : Nat) : (s.dropSheet c).freeCtr = s.freeCtr := rfl
@[simp] theorem State.dropSheet_reply (s : State) (c : Nat) : (s.dropSheet c).reply = s.reply := rfl

/-! ## State.setWg -/

@[simp] theorem State.setWg_ts (s : State) (c : Nat) (x : Workgroup) : (s.setWg c x).ts = s.ts := rfl
@[simp] theorem State.setWg_sheets (s : State) (c : Nat) (x : Workgroup) : (s.setWg c x).sheets = s.sheets := rfl
@[simp] theorem State.setWg_nextWg (s : State) (c : Nat) (x : Workgroup) : (s.setWg c x).nextWg = s.nextWg := rfl
@[simp] theorem State.setWg_cores (s : State) (c : Nat) (x : Workgroup) : (s.setWg c x).cores = s.cores := rfl
@[simp] theorem State.setWg_clusters (s : State) (c : Nat) (x : Workgroup) : (s.setWg c x).clusters = s.clusters := rfl
@[simp] theorem State.setWg_dies (s : State) (c : Nat) (x : Workgroup) : (s.setWg c x).dies = s.dies := rfl
@[simp] theorem State.setWg_rails (s : State) (c : Nat) (x : Workgroup) : (s.setWg c x).rails = s.rails := rfl
@[simp] theorem State.setWg_parts (s : State) (c : Nat) (x : Workgroup) : (s.setWg c x).parts = s.parts := rfl
@[simp] theorem State.setWg_vfs (s : State) (c : Nat) (x : Workgroup) : (s.setWg c x).vfs = s.vfs := rfl
@[simp] theorem State.setWg_grids (s : State) (c : Nat) (x : Workgroup) : (s.setWg c x).grids = s.grids := rfl
@[simp] theorem State.setWg_nextGrid (s : State) (c : Nat) (x : Workgroup) : (s.setWg c x).nextGrid = s.nextGrid := rfl
@[simp] theorem State.setWg_lqueue (s : State) (c : Nat) (x : Workgroup) : (s.setWg c x).lqueue = s.lqueue := rfl
@[simp] theorem State.setWg_turn (s : State) (c : Nat) (x : Workgroup) : (s.setWg c x).turn = s.turn := rfl
@[simp] theorem State.setWg_mem (s : State) (c : Nat) (x : Workgroup) : (s.setWg c x).mem = s.mem := rfl
@[simp] theorem State.setWg_reg (s : State) (c : Nat) (x : Workgroup) : (s.setWg c x).reg = s.reg := rfl
@[simp] theorem State.setWg_homeq (s : State) (c : Nat) (x : Workgroup) : (s.setWg c x).homeq = s.homeq := rfl
@[simp] theorem State.setWg_l2 (s : State) (c : Nat) (x : Workgroup) : (s.setWg c x).l2 = s.l2 := rfl
@[simp] theorem State.setWg_pinned (s : State) (c : Nat) (x : Workgroup) : (s.setWg c x).pinned = s.pinned := rfl
@[simp] theorem State.setWg_poisoned (s : State) (c : Nat) (x : Workgroup) : (s.setWg c x).poisoned = s.poisoned := rfl
@[simp] theorem State.setWg_launches (s : State) (c : Nat) (x : Workgroup) : (s.setWg c x).launches = s.launches := rfl
@[simp] theorem State.setWg_batches (s : State) (c : Nat) (x : Workgroup) : (s.setWg c x).batches = s.batches := rfl
@[simp] theorem State.setWg_refusedPages (s : State) (c : Nat) (x : Workgroup) : (s.setWg c x).refusedPages = s.refusedPages := rfl
@[simp] theorem State.setWg_spawns (s : State) (c : Nat) (x : Workgroup) : (s.setWg c x).spawns = s.spawns := rfl
@[simp] theorem State.setWg_arrivals (s : State) (c : Nat) (x : Workgroup) : (s.setWg c x).arrivals = s.arrivals := rfl
@[simp] theorem State.setWg_peerReqs (s : State) (c : Nat) (x : Workgroup) : (s.setWg c x).peerReqs = s.peerReqs := rfl
@[simp] theorem State.setWg_rounds (s : State) (c : Nat) (x : Workgroup) : (s.setWg c x).rounds = s.rounds := rfl
@[simp] theorem State.setWg_roundArrivals (s : State) (c : Nat) (x : Workgroup) : (s.setWg c x).roundArrivals = s.roundArrivals := rfl
@[simp] theorem State.setWg_policies (s : State) (c : Nat) (x : Workgroup) : (s.setWg c x).policies = s.policies := rfl
@[simp] theorem State.setWg_nextPolicy (s : State) (c : Nat) (x : Workgroup) : (s.setWg c x).nextPolicy = s.nextPolicy := rfl
@[simp] theorem State.setWg_channels (s : State) (c : Nat) (x : Workgroup) : (s.setWg c x).channels = s.channels := rfl
@[simp] theorem State.setWg_enga (s : State) (c : Nat) (x : Workgroup) : (s.setWg c x).enga = s.enga := rfl
@[simp] theorem State.setWg_budgetNext (s : State) (c : Nat) (x : Workgroup) : (s.setWg c x).budgetNext = s.budgetNext := rfl
@[simp] theorem State.setWg_sems (s : State) (c : Nat) (x : Workgroup) : (s.setWg c x).sems = s.sems := rfl
@[simp] theorem State.setWg_tieLoser (s : State) (c : Nat) (x : Workgroup) : (s.setWg c x).tieLoser = s.tieLoser := rfl
@[simp] theorem State.setWg_hpcap (s : State) (c : Nat) (x : Workgroup) : (s.setWg c x).hpcap = s.hpcap := rfl
@[simp] theorem State.setWg_deviceNo (s : State) (c : Nat) (x : Workgroup) : (s.setWg c x).deviceNo = s.deviceNo := rfl
@[simp] theorem State.setWg_routes (s : State) (c : Nat) (x : Workgroup) : (s.setWg c x).routes = s.routes := rfl
@[simp] theorem State.setWg_linksDown (s : State) (c : Nat) (x : Workgroup) : (s.setWg c x).linksDown = s.linksDown := rfl
@[simp] theorem State.setWg_agenda (s : State) (c : Nat) (x : Workgroup) : (s.setWg c x).agenda = s.agenda := rfl
@[simp] theorem State.setWg_focus (s : State) (c : Nat) (x : Workgroup) : (s.setWg c x).focus = s.focus := rfl
@[simp] theorem State.setWg_freeCtr (s : State) (c : Nat) (x : Workgroup) : (s.setWg c x).freeCtr = s.freeCtr := rfl
@[simp] theorem State.setWg_reply (s : State) (c : Nat) (x : Workgroup) : (s.setWg c x).reply = s.reply := rfl

/-! ## State.setGrid -/

@[simp] theorem State.setGrid_ts (s : State) (c : Nat) (x : Grid) : (s.setGrid c x).ts = s.ts := rfl
@[simp] theorem State.setGrid_sheets (s : State) (c : Nat) (x : Grid) : (s.setGrid c x).sheets = s.sheets := rfl
@[simp] theorem State.setGrid_wgs (s : State) (c : Nat) (x : Grid) : (s.setGrid c x).wgs = s.wgs := rfl
@[simp] theorem State.setGrid_nextWg (s : State) (c : Nat) (x : Grid) : (s.setGrid c x).nextWg = s.nextWg := rfl
@[simp] theorem State.setGrid_cores (s : State) (c : Nat) (x : Grid) : (s.setGrid c x).cores = s.cores := rfl
@[simp] theorem State.setGrid_clusters (s : State) (c : Nat) (x : Grid) : (s.setGrid c x).clusters = s.clusters := rfl
@[simp] theorem State.setGrid_dies (s : State) (c : Nat) (x : Grid) : (s.setGrid c x).dies = s.dies := rfl
@[simp] theorem State.setGrid_rails (s : State) (c : Nat) (x : Grid) : (s.setGrid c x).rails = s.rails := rfl
@[simp] theorem State.setGrid_parts (s : State) (c : Nat) (x : Grid) : (s.setGrid c x).parts = s.parts := rfl
@[simp] theorem State.setGrid_vfs (s : State) (c : Nat) (x : Grid) : (s.setGrid c x).vfs = s.vfs := rfl
@[simp] theorem State.setGrid_nextGrid (s : State) (c : Nat) (x : Grid) : (s.setGrid c x).nextGrid = s.nextGrid := rfl
@[simp] theorem State.setGrid_lqueue (s : State) (c : Nat) (x : Grid) : (s.setGrid c x).lqueue = s.lqueue := rfl
@[simp] theorem State.setGrid_turn (s : State) (c : Nat) (x : Grid) : (s.setGrid c x).turn = s.turn := rfl
@[simp] theorem State.setGrid_mem (s : State) (c : Nat) (x : Grid) : (s.setGrid c x).mem = s.mem := rfl
@[simp] theorem State.setGrid_reg (s : State) (c : Nat) (x : Grid) : (s.setGrid c x).reg = s.reg := rfl
@[simp] theorem State.setGrid_homeq (s : State) (c : Nat) (x : Grid) : (s.setGrid c x).homeq = s.homeq := rfl
@[simp] theorem State.setGrid_l2 (s : State) (c : Nat) (x : Grid) : (s.setGrid c x).l2 = s.l2 := rfl
@[simp] theorem State.setGrid_pinned (s : State) (c : Nat) (x : Grid) : (s.setGrid c x).pinned = s.pinned := rfl
@[simp] theorem State.setGrid_poisoned (s : State) (c : Nat) (x : Grid) : (s.setGrid c x).poisoned = s.poisoned := rfl
@[simp] theorem State.setGrid_launches (s : State) (c : Nat) (x : Grid) : (s.setGrid c x).launches = s.launches := rfl
@[simp] theorem State.setGrid_batches (s : State) (c : Nat) (x : Grid) : (s.setGrid c x).batches = s.batches := rfl
@[simp] theorem State.setGrid_refusedPages (s : State) (c : Nat) (x : Grid) : (s.setGrid c x).refusedPages = s.refusedPages := rfl
@[simp] theorem State.setGrid_spawns (s : State) (c : Nat) (x : Grid) : (s.setGrid c x).spawns = s.spawns := rfl
@[simp] theorem State.setGrid_arrivals (s : State) (c : Nat) (x : Grid) : (s.setGrid c x).arrivals = s.arrivals := rfl
@[simp] theorem State.setGrid_peerReqs (s : State) (c : Nat) (x : Grid) : (s.setGrid c x).peerReqs = s.peerReqs := rfl
@[simp] theorem State.setGrid_rounds (s : State) (c : Nat) (x : Grid) : (s.setGrid c x).rounds = s.rounds := rfl
@[simp] theorem State.setGrid_roundArrivals (s : State) (c : Nat) (x : Grid) : (s.setGrid c x).roundArrivals = s.roundArrivals := rfl
@[simp] theorem State.setGrid_policies (s : State) (c : Nat) (x : Grid) : (s.setGrid c x).policies = s.policies := rfl
@[simp] theorem State.setGrid_nextPolicy (s : State) (c : Nat) (x : Grid) : (s.setGrid c x).nextPolicy = s.nextPolicy := rfl
@[simp] theorem State.setGrid_channels (s : State) (c : Nat) (x : Grid) : (s.setGrid c x).channels = s.channels := rfl
@[simp] theorem State.setGrid_enga (s : State) (c : Nat) (x : Grid) : (s.setGrid c x).enga = s.enga := rfl
@[simp] theorem State.setGrid_budgetNext (s : State) (c : Nat) (x : Grid) : (s.setGrid c x).budgetNext = s.budgetNext := rfl
@[simp] theorem State.setGrid_sems (s : State) (c : Nat) (x : Grid) : (s.setGrid c x).sems = s.sems := rfl
@[simp] theorem State.setGrid_tieLoser (s : State) (c : Nat) (x : Grid) : (s.setGrid c x).tieLoser = s.tieLoser := rfl
@[simp] theorem State.setGrid_hpcap (s : State) (c : Nat) (x : Grid) : (s.setGrid c x).hpcap = s.hpcap := rfl
@[simp] theorem State.setGrid_deviceNo (s : State) (c : Nat) (x : Grid) : (s.setGrid c x).deviceNo = s.deviceNo := rfl
@[simp] theorem State.setGrid_routes (s : State) (c : Nat) (x : Grid) : (s.setGrid c x).routes = s.routes := rfl
@[simp] theorem State.setGrid_linksDown (s : State) (c : Nat) (x : Grid) : (s.setGrid c x).linksDown = s.linksDown := rfl
@[simp] theorem State.setGrid_agenda (s : State) (c : Nat) (x : Grid) : (s.setGrid c x).agenda = s.agenda := rfl
@[simp] theorem State.setGrid_focus (s : State) (c : Nat) (x : Grid) : (s.setGrid c x).focus = s.focus := rfl
@[simp] theorem State.setGrid_freeCtr (s : State) (c : Nat) (x : Grid) : (s.setGrid c x).freeCtr = s.freeCtr := rfl
@[simp] theorem State.setGrid_reply (s : State) (c : Nat) (x : Grid) : (s.setGrid c x).reply = s.reply := rfl

/-! ## State.writeByte -/

@[simp] theorem State.writeByte_ts (s : State) (c : Nat) (x : Byte) : (s.writeByte c x).ts = s.ts := rfl
@[simp] theorem State.writeByte_sheets (s : State) (c : Nat) (x : Byte) : (s.writeByte c x).sheets = s.sheets := rfl
@[simp] theorem State.writeByte_wgs (s : State) (c : Nat) (x : Byte) : (s.writeByte c x).wgs = s.wgs := rfl
@[simp] theorem State.writeByte_nextWg (s : State) (c : Nat) (x : Byte) : (s.writeByte c x).nextWg = s.nextWg := rfl
@[simp] theorem State.writeByte_cores (s : State) (c : Nat) (x : Byte) : (s.writeByte c x).cores = s.cores := rfl
@[simp] theorem State.writeByte_clusters (s : State) (c : Nat) (x : Byte) : (s.writeByte c x).clusters = s.clusters := rfl
@[simp] theorem State.writeByte_dies (s : State) (c : Nat) (x : Byte) : (s.writeByte c x).dies = s.dies := rfl
@[simp] theorem State.writeByte_rails (s : State) (c : Nat) (x : Byte) : (s.writeByte c x).rails = s.rails := rfl
@[simp] theorem State.writeByte_parts (s : State) (c : Nat) (x : Byte) : (s.writeByte c x).parts = s.parts := rfl
@[simp] theorem State.writeByte_vfs (s : State) (c : Nat) (x : Byte) : (s.writeByte c x).vfs = s.vfs := rfl
@[simp] theorem State.writeByte_grids (s : State) (c : Nat) (x : Byte) : (s.writeByte c x).grids = s.grids := rfl
@[simp] theorem State.writeByte_nextGrid (s : State) (c : Nat) (x : Byte) : (s.writeByte c x).nextGrid = s.nextGrid := rfl
@[simp] theorem State.writeByte_lqueue (s : State) (c : Nat) (x : Byte) : (s.writeByte c x).lqueue = s.lqueue := rfl
@[simp] theorem State.writeByte_turn (s : State) (c : Nat) (x : Byte) : (s.writeByte c x).turn = s.turn := rfl
@[simp] theorem State.writeByte_reg (s : State) (c : Nat) (x : Byte) : (s.writeByte c x).reg = s.reg := rfl
@[simp] theorem State.writeByte_homeq (s : State) (c : Nat) (x : Byte) : (s.writeByte c x).homeq = s.homeq := rfl
@[simp] theorem State.writeByte_l2 (s : State) (c : Nat) (x : Byte) : (s.writeByte c x).l2 = s.l2 := rfl
@[simp] theorem State.writeByte_pinned (s : State) (c : Nat) (x : Byte) : (s.writeByte c x).pinned = s.pinned := rfl
@[simp] theorem State.writeByte_poisoned (s : State) (c : Nat) (x : Byte) : (s.writeByte c x).poisoned = s.poisoned := rfl
@[simp] theorem State.writeByte_launches (s : State) (c : Nat) (x : Byte) : (s.writeByte c x).launches = s.launches := rfl
@[simp] theorem State.writeByte_batches (s : State) (c : Nat) (x : Byte) : (s.writeByte c x).batches = s.batches := rfl
@[simp] theorem State.writeByte_refusedPages (s : State) (c : Nat) (x : Byte) : (s.writeByte c x).refusedPages = s.refusedPages := rfl
@[simp] theorem State.writeByte_spawns (s : State) (c : Nat) (x : Byte) : (s.writeByte c x).spawns = s.spawns := rfl
@[simp] theorem State.writeByte_arrivals (s : State) (c : Nat) (x : Byte) : (s.writeByte c x).arrivals = s.arrivals := rfl
@[simp] theorem State.writeByte_peerReqs (s : State) (c : Nat) (x : Byte) : (s.writeByte c x).peerReqs = s.peerReqs := rfl
@[simp] theorem State.writeByte_rounds (s : State) (c : Nat) (x : Byte) : (s.writeByte c x).rounds = s.rounds := rfl
@[simp] theorem State.writeByte_roundArrivals (s : State) (c : Nat) (x : Byte) : (s.writeByte c x).roundArrivals = s.roundArrivals := rfl
@[simp] theorem State.writeByte_policies (s : State) (c : Nat) (x : Byte) : (s.writeByte c x).policies = s.policies := rfl
@[simp] theorem State.writeByte_nextPolicy (s : State) (c : Nat) (x : Byte) : (s.writeByte c x).nextPolicy = s.nextPolicy := rfl
@[simp] theorem State.writeByte_channels (s : State) (c : Nat) (x : Byte) : (s.writeByte c x).channels = s.channels := rfl
@[simp] theorem State.writeByte_enga (s : State) (c : Nat) (x : Byte) : (s.writeByte c x).enga = s.enga := rfl
@[simp] theorem State.writeByte_budgetNext (s : State) (c : Nat) (x : Byte) : (s.writeByte c x).budgetNext = s.budgetNext := rfl
@[simp] theorem State.writeByte_sems (s : State) (c : Nat) (x : Byte) : (s.writeByte c x).sems = s.sems := rfl
@[simp] theorem State.writeByte_tieLoser (s : State) (c : Nat) (x : Byte) : (s.writeByte c x).tieLoser = s.tieLoser := rfl
@[simp] theorem State.writeByte_hpcap (s : State) (c : Nat) (x : Byte) : (s.writeByte c x).hpcap = s.hpcap := rfl
@[simp] theorem State.writeByte_deviceNo (s : State) (c : Nat) (x : Byte) : (s.writeByte c x).deviceNo = s.deviceNo := rfl
@[simp] theorem State.writeByte_routes (s : State) (c : Nat) (x : Byte) : (s.writeByte c x).routes = s.routes := rfl
@[simp] theorem State.writeByte_linksDown (s : State) (c : Nat) (x : Byte) : (s.writeByte c x).linksDown = s.linksDown := rfl
@[simp] theorem State.writeByte_agenda (s : State) (c : Nat) (x : Byte) : (s.writeByte c x).agenda = s.agenda := rfl
@[simp] theorem State.writeByte_focus (s : State) (c : Nat) (x : Byte) : (s.writeByte c x).focus = s.focus := rfl
@[simp] theorem State.writeByte_freeCtr (s : State) (c : Nat) (x : Byte) : (s.writeByte c x).freeCtr = s.freeCtr := rfl
@[simp] theorem State.writeByte_reply (s : State) (c : Nat) (x : Byte) : (s.writeByte c x).reply = s.reply := rfl

/-! ## State.drew -/

@[simp] theorem State.drew_ts (s : State) : (s.drew).ts = s.ts := rfl
@[simp] theorem State.drew_sheets (s : State) : (s.drew).sheets = s.sheets := rfl
@[simp] theorem State.drew_wgs (s : State) : (s.drew).wgs = s.wgs := rfl
@[simp] theorem State.drew_nextWg (s : State) : (s.drew).nextWg = s.nextWg := rfl
@[simp] theorem State.drew_cores (s : State) : (s.drew).cores = s.cores := rfl
@[simp] theorem State.drew_clusters (s : State) : (s.drew).clusters = s.clusters := rfl
@[simp] theorem State.drew_dies (s : State) : (s.drew).dies = s.dies := rfl
@[simp] theorem State.drew_rails (s : State) : (s.drew).rails = s.rails := rfl
@[simp] theorem State.drew_parts (s : State) : (s.drew).parts = s.parts := rfl
@[simp] theorem State.drew_vfs (s : State) : (s.drew).vfs = s.vfs := rfl
@[simp] theorem State.drew_grids (s : State) : (s.drew).grids = s.grids := rfl
@[simp] theorem State.drew_nextGrid (s : State) : (s.drew).nextGrid = s.nextGrid := rfl
@[simp] theorem State.drew_lqueue (s : State) : (s.drew).lqueue = s.lqueue := rfl
@[simp] theorem State.drew_turn (s : State) : (s.drew).turn = s.turn := rfl
@[simp] theorem State.drew_mem (s : State) : (s.drew).mem = s.mem := rfl
@[simp] theorem State.drew_reg (s : State) : (s.drew).reg = s.reg := rfl
@[simp] theorem State.drew_homeq (s : State) : (s.drew).homeq = s.homeq := rfl
@[simp] theorem State.drew_l2 (s : State) : (s.drew).l2 = s.l2 := rfl
@[simp] theorem State.drew_pinned (s : State) : (s.drew).pinned = s.pinned := rfl
@[simp] theorem State.drew_poisoned (s : State) : (s.drew).poisoned = s.poisoned := rfl
@[simp] theorem State.drew_launches (s : State) : (s.drew).launches = s.launches := rfl
@[simp] theorem State.drew_batches (s : State) : (s.drew).batches = s.batches := rfl
@[simp] theorem State.drew_refusedPages (s : State) : (s.drew).refusedPages = s.refusedPages := rfl
@[simp] theorem State.drew_spawns (s : State) : (s.drew).spawns = s.spawns := rfl
@[simp] theorem State.drew_arrivals (s : State) : (s.drew).arrivals = s.arrivals := rfl
@[simp] theorem State.drew_peerReqs (s : State) : (s.drew).peerReqs = s.peerReqs := rfl
@[simp] theorem State.drew_rounds (s : State) : (s.drew).rounds = s.rounds := rfl
@[simp] theorem State.drew_roundArrivals (s : State) : (s.drew).roundArrivals = s.roundArrivals := rfl
@[simp] theorem State.drew_policies (s : State) : (s.drew).policies = s.policies := rfl
@[simp] theorem State.drew_nextPolicy (s : State) : (s.drew).nextPolicy = s.nextPolicy := rfl
@[simp] theorem State.drew_channels (s : State) : (s.drew).channels = s.channels := rfl
@[simp] theorem State.drew_enga (s : State) : (s.drew).enga = s.enga := rfl
@[simp] theorem State.drew_budgetNext (s : State) : (s.drew).budgetNext = s.budgetNext := rfl
@[simp] theorem State.drew_sems (s : State) : (s.drew).sems = s.sems := rfl
@[simp] theorem State.drew_tieLoser (s : State) : (s.drew).tieLoser = s.tieLoser := rfl
@[simp] theorem State.drew_hpcap (s : State) : (s.drew).hpcap = s.hpcap := rfl
@[simp] theorem State.drew_deviceNo (s : State) : (s.drew).deviceNo = s.deviceNo := rfl
@[simp] theorem State.drew_routes (s : State) : (s.drew).routes = s.routes := rfl
@[simp] theorem State.drew_linksDown (s : State) : (s.drew).linksDown = s.linksDown := rfl
@[simp] theorem State.drew_agenda (s : State) : (s.drew).agenda = s.agenda := rfl
@[simp] theorem State.drew_focus (s : State) : (s.drew).focus = s.focus := rfl
@[simp] theorem State.drew_reply (s : State) : (s.drew).reply = s.reply := rfl

/-! ## State.mapCore -/

@[simp] theorem State.mapCore_ts (s : State) (c : Nat) (f : Core → Core) : (s.mapCore c f).ts = s.ts := rfl
@[simp] theorem State.mapCore_sheets (s : State) (c : Nat) (f : Core → Core) : (s.mapCore c f).sheets = s.sheets := rfl
@[simp] theorem State.mapCore_wgs (s : State) (c : Nat) (f : Core → Core) : (s.mapCore c f).wgs = s.wgs := rfl
@[simp] theorem State.mapCore_nextWg (s : State) (c : Nat) (f : Core → Core) : (s.mapCore c f).nextWg = s.nextWg := rfl
@[simp] theorem State.mapCore_clusters (s : State) (c : Nat) (f : Core → Core) : (s.mapCore c f).clusters = s.clusters := rfl
@[simp] theorem State.mapCore_dies (s : State) (c : Nat) (f : Core → Core) : (s.mapCore c f).dies = s.dies := rfl
@[simp] theorem State.mapCore_rails (s : State) (c : Nat) (f : Core → Core) : (s.mapCore c f).rails = s.rails := rfl
@[simp] theorem State.mapCore_parts (s : State) (c : Nat) (f : Core → Core) : (s.mapCore c f).parts = s.parts := rfl
@[simp] theorem State.mapCore_vfs (s : State) (c : Nat) (f : Core → Core) : (s.mapCore c f).vfs = s.vfs := rfl
@[simp] theorem State.mapCore_grids (s : State) (c : Nat) (f : Core → Core) : (s.mapCore c f).grids = s.grids := rfl
@[simp] theorem State.mapCore_nextGrid (s : State) (c : Nat) (f : Core → Core) : (s.mapCore c f).nextGrid = s.nextGrid := rfl
@[simp] theorem State.mapCore_lqueue (s : State) (c : Nat) (f : Core → Core) : (s.mapCore c f).lqueue = s.lqueue := rfl
@[simp] theorem State.mapCore_turn (s : State) (c : Nat) (f : Core → Core) : (s.mapCore c f).turn = s.turn := rfl
@[simp] theorem State.mapCore_mem (s : State) (c : Nat) (f : Core → Core) : (s.mapCore c f).mem = s.mem := rfl
@[simp] theorem State.mapCore_reg (s : State) (c : Nat) (f : Core → Core) : (s.mapCore c f).reg = s.reg := rfl
@[simp] theorem State.mapCore_homeq (s : State) (c : Nat) (f : Core → Core) : (s.mapCore c f).homeq = s.homeq := rfl
@[simp] theorem State.mapCore_l2 (s : State) (c : Nat) (f : Core → Core) : (s.mapCore c f).l2 = s.l2 := rfl
@[simp] theorem State.mapCore_pinned (s : State) (c : Nat) (f : Core → Core) : (s.mapCore c f).pinned = s.pinned := rfl
@[simp] theorem State.mapCore_poisoned (s : State) (c : Nat) (f : Core → Core) : (s.mapCore c f).poisoned = s.poisoned := rfl
@[simp] theorem State.mapCore_launches (s : State) (c : Nat) (f : Core → Core) : (s.mapCore c f).launches = s.launches := rfl
@[simp] theorem State.mapCore_batches (s : State) (c : Nat) (f : Core → Core) : (s.mapCore c f).batches = s.batches := rfl
@[simp] theorem State.mapCore_refusedPages (s : State) (c : Nat) (f : Core → Core) : (s.mapCore c f).refusedPages = s.refusedPages := rfl
@[simp] theorem State.mapCore_spawns (s : State) (c : Nat) (f : Core → Core) : (s.mapCore c f).spawns = s.spawns := rfl
@[simp] theorem State.mapCore_arrivals (s : State) (c : Nat) (f : Core → Core) : (s.mapCore c f).arrivals = s.arrivals := rfl
@[simp] theorem State.mapCore_peerReqs (s : State) (c : Nat) (f : Core → Core) : (s.mapCore c f).peerReqs = s.peerReqs := rfl
@[simp] theorem State.mapCore_rounds (s : State) (c : Nat) (f : Core → Core) : (s.mapCore c f).rounds = s.rounds := rfl
@[simp] theorem State.mapCore_roundArrivals (s : State) (c : Nat) (f : Core → Core) : (s.mapCore c f).roundArrivals = s.roundArrivals := rfl
@[simp] theorem State.mapCore_policies (s : State) (c : Nat) (f : Core → Core) : (s.mapCore c f).policies = s.policies := rfl
@[simp] theorem State.mapCore_nextPolicy (s : State) (c : Nat) (f : Core → Core) : (s.mapCore c f).nextPolicy = s.nextPolicy := rfl
@[simp] theorem State.mapCore_channels (s : State) (c : Nat) (f : Core → Core) : (s.mapCore c f).channels = s.channels := rfl
@[simp] theorem State.mapCore_enga (s : State) (c : Nat) (f : Core → Core) : (s.mapCore c f).enga = s.enga := rfl
@[simp] theorem State.mapCore_budgetNext (s : State) (c : Nat) (f : Core → Core) : (s.mapCore c f).budgetNext = s.budgetNext := rfl
@[simp] theorem State.mapCore_sems (s : State) (c : Nat) (f : Core → Core) : (s.mapCore c f).sems = s.sems := rfl
@[simp] theorem State.mapCore_tieLoser (s : State) (c : Nat) (f : Core → Core) : (s.mapCore c f).tieLoser = s.tieLoser := rfl
@[simp] theorem State.mapCore_hpcap (s : State) (c : Nat) (f : Core → Core) : (s.mapCore c f).hpcap = s.hpcap := rfl
@[simp] theorem State.mapCore_deviceNo (s : State) (c : Nat) (f : Core → Core) : (s.mapCore c f).deviceNo = s.deviceNo := rfl
@[simp] theorem State.mapCore_routes (s : State) (c : Nat) (f : Core → Core) : (s.mapCore c f).routes = s.routes := rfl
@[simp] theorem State.mapCore_linksDown (s : State) (c : Nat) (f : Core → Core) : (s.mapCore c f).linksDown = s.linksDown := rfl
@[simp] theorem State.mapCore_agenda (s : State) (c : Nat) (f : Core → Core) : (s.mapCore c f).agenda = s.agenda := rfl
@[simp] theorem State.mapCore_focus (s : State) (c : Nat) (f : Core → Core) : (s.mapCore c f).focus = s.focus := rfl
@[simp] theorem State.mapCore_freeCtr (s : State) (c : Nat) (f : Core → Core) : (s.mapCore c f).freeCtr = s.freeCtr := rfl
@[simp] theorem State.mapCore_reply (s : State) (c : Nat) (f : Core → Core) : (s.mapCore c f).reply = s.reply := rfl

/-! ## State.mapPart -/

@[simp] theorem State.mapPart_ts (s : State) (c : Nat) (f : Part → Part) : (s.mapPart c f).ts = s.ts := rfl
@[simp] theorem State.mapPart_sheets (s : State) (c : Nat) (f : Part → Part) : (s.mapPart c f).sheets = s.sheets := rfl
@[simp] theorem State.mapPart_wgs (s : State) (c : Nat) (f : Part → Part) : (s.mapPart c f).wgs = s.wgs := rfl
@[simp] theorem State.mapPart_nextWg (s : State) (c : Nat) (f : Part → Part) : (s.mapPart c f).nextWg = s.nextWg := rfl
@[simp] theorem State.mapPart_cores (s : State) (c : Nat) (f : Part → Part) : (s.mapPart c f).cores = s.cores := rfl
@[simp] theorem State.mapPart_clusters (s : State) (c : Nat) (f : Part → Part) : (s.mapPart c f).clusters = s.clusters := rfl
@[simp] theorem State.mapPart_dies (s : State) (c : Nat) (f : Part → Part) : (s.mapPart c f).dies = s.dies := rfl
@[simp] theorem State.mapPart_rails (s : State) (c : Nat) (f : Part → Part) : (s.mapPart c f).rails = s.rails := rfl
@[simp] theorem State.mapPart_vfs (s : State) (c : Nat) (f : Part → Part) : (s.mapPart c f).vfs = s.vfs := rfl
@[simp] theorem State.mapPart_grids (s : State) (c : Nat) (f : Part → Part) : (s.mapPart c f).grids = s.grids := rfl
@[simp] theorem State.mapPart_nextGrid (s : State) (c : Nat) (f : Part → Part) : (s.mapPart c f).nextGrid = s.nextGrid := rfl
@[simp] theorem State.mapPart_lqueue (s : State) (c : Nat) (f : Part → Part) : (s.mapPart c f).lqueue = s.lqueue := rfl
@[simp] theorem State.mapPart_turn (s : State) (c : Nat) (f : Part → Part) : (s.mapPart c f).turn = s.turn := rfl
@[simp] theorem State.mapPart_mem (s : State) (c : Nat) (f : Part → Part) : (s.mapPart c f).mem = s.mem := rfl
@[simp] theorem State.mapPart_reg (s : State) (c : Nat) (f : Part → Part) : (s.mapPart c f).reg = s.reg := rfl
@[simp] theorem State.mapPart_homeq (s : State) (c : Nat) (f : Part → Part) : (s.mapPart c f).homeq = s.homeq := rfl
@[simp] theorem State.mapPart_l2 (s : State) (c : Nat) (f : Part → Part) : (s.mapPart c f).l2 = s.l2 := rfl
@[simp] theorem State.mapPart_pinned (s : State) (c : Nat) (f : Part → Part) : (s.mapPart c f).pinned = s.pinned := rfl
@[simp] theorem State.mapPart_poisoned (s : State) (c : Nat) (f : Part → Part) : (s.mapPart c f).poisoned = s.poisoned := rfl
@[simp] theorem State.mapPart_launches (s : State) (c : Nat) (f : Part → Part) : (s.mapPart c f).launches = s.launches := rfl
@[simp] theorem State.mapPart_batches (s : State) (c : Nat) (f : Part → Part) : (s.mapPart c f).batches = s.batches := rfl
@[simp] theorem State.mapPart_refusedPages (s : State) (c : Nat) (f : Part → Part) : (s.mapPart c f).refusedPages = s.refusedPages := rfl
@[simp] theorem State.mapPart_spawns (s : State) (c : Nat) (f : Part → Part) : (s.mapPart c f).spawns = s.spawns := rfl
@[simp] theorem State.mapPart_arrivals (s : State) (c : Nat) (f : Part → Part) : (s.mapPart c f).arrivals = s.arrivals := rfl
@[simp] theorem State.mapPart_peerReqs (s : State) (c : Nat) (f : Part → Part) : (s.mapPart c f).peerReqs = s.peerReqs := rfl
@[simp] theorem State.mapPart_rounds (s : State) (c : Nat) (f : Part → Part) : (s.mapPart c f).rounds = s.rounds := rfl
@[simp] theorem State.mapPart_roundArrivals (s : State) (c : Nat) (f : Part → Part) : (s.mapPart c f).roundArrivals = s.roundArrivals := rfl
@[simp] theorem State.mapPart_policies (s : State) (c : Nat) (f : Part → Part) : (s.mapPart c f).policies = s.policies := rfl
@[simp] theorem State.mapPart_nextPolicy (s : State) (c : Nat) (f : Part → Part) : (s.mapPart c f).nextPolicy = s.nextPolicy := rfl
@[simp] theorem State.mapPart_channels (s : State) (c : Nat) (f : Part → Part) : (s.mapPart c f).channels = s.channels := rfl
@[simp] theorem State.mapPart_enga (s : State) (c : Nat) (f : Part → Part) : (s.mapPart c f).enga = s.enga := rfl
@[simp] theorem State.mapPart_budgetNext (s : State) (c : Nat) (f : Part → Part) : (s.mapPart c f).budgetNext = s.budgetNext := rfl
@[simp] theorem State.mapPart_sems (s : State) (c : Nat) (f : Part → Part) : (s.mapPart c f).sems = s.sems := rfl
@[simp] theorem State.mapPart_tieLoser (s : State) (c : Nat) (f : Part → Part) : (s.mapPart c f).tieLoser = s.tieLoser := rfl
@[simp] theorem State.mapPart_hpcap (s : State) (c : Nat) (f : Part → Part) : (s.mapPart c f).hpcap = s.hpcap := rfl
@[simp] theorem State.mapPart_deviceNo (s : State) (c : Nat) (f : Part → Part) : (s.mapPart c f).deviceNo = s.deviceNo := rfl
@[simp] theorem State.mapPart_routes (s : State) (c : Nat) (f : Part → Part) : (s.mapPart c f).routes = s.routes := rfl
@[simp] theorem State.mapPart_linksDown (s : State) (c : Nat) (f : Part → Part) : (s.mapPart c f).linksDown = s.linksDown := rfl
@[simp] theorem State.mapPart_agenda (s : State) (c : Nat) (f : Part → Part) : (s.mapPart c f).agenda = s.agenda := rfl
@[simp] theorem State.mapPart_focus (s : State) (c : Nat) (f : Part → Part) : (s.mapPart c f).focus = s.focus := rfl
@[simp] theorem State.mapPart_freeCtr (s : State) (c : Nat) (f : Part → Part) : (s.mapPart c f).freeCtr = s.freeCtr := rfl
@[simp] theorem State.mapPart_reply (s : State) (c : Nat) (f : Part → Part) : (s.mapPart c f).reply = s.reply := rfl

/-! ## State.retimeL2 -/

@[simp] theorem State.retimeL2_ts (s : State) (c : Nat) : (s.retimeL2 c).ts = s.ts := by unfold State.retimeL2; dsimp only; split <;> rfl
@[simp] theorem State.retimeL2_sheets (s : State) (c : Nat) : (s.retimeL2 c).sheets = s.sheets := by unfold State.retimeL2; dsimp only; split <;> rfl
@[simp] theorem State.retimeL2_wgs (s : State) (c : Nat) : (s.retimeL2 c).wgs = s.wgs := by unfold State.retimeL2; dsimp only; split <;> rfl
@[simp] theorem State.retimeL2_nextWg (s : State) (c : Nat) : (s.retimeL2 c).nextWg = s.nextWg := by unfold State.retimeL2; dsimp only; split <;> rfl
@[simp] theorem State.retimeL2_cores (s : State) (c : Nat) : (s.retimeL2 c).cores = s.cores := by unfold State.retimeL2; dsimp only; split <;> rfl
@[simp] theorem State.retimeL2_clusters (s : State) (c : Nat) : (s.retimeL2 c).clusters = s.clusters := by unfold State.retimeL2; dsimp only; split <;> rfl
@[simp] theorem State.retimeL2_rails (s : State) (c : Nat) : (s.retimeL2 c).rails = s.rails := by unfold State.retimeL2; dsimp only; split <;> rfl
@[simp] theorem State.retimeL2_parts (s : State) (c : Nat) : (s.retimeL2 c).parts = s.parts := by unfold State.retimeL2; dsimp only; split <;> rfl
@[simp] theorem State.retimeL2_vfs (s : State) (c : Nat) : (s.retimeL2 c).vfs = s.vfs := by unfold State.retimeL2; dsimp only; split <;> rfl
@[simp] theorem State.retimeL2_grids (s : State) (c : Nat) : (s.retimeL2 c).grids = s.grids := by unfold State.retimeL2; dsimp only; split <;> rfl
@[simp] theorem State.retimeL2_nextGrid (s : State) (c : Nat) : (s.retimeL2 c).nextGrid = s.nextGrid := by unfold State.retimeL2; dsimp only; split <;> rfl
@[simp] theorem State.retimeL2_lqueue (s : State) (c : Nat) : (s.retimeL2 c).lqueue = s.lqueue := by unfold State.retimeL2; dsimp only; split <;> rfl
@[simp] theorem State.retimeL2_turn (s : State) (c : Nat) : (s.retimeL2 c).turn = s.turn := by unfold State.retimeL2; dsimp only; split <;> rfl
@[simp] theorem State.retimeL2_mem (s : State) (c : Nat) : (s.retimeL2 c).mem = s.mem := by unfold State.retimeL2; dsimp only; split <;> rfl
@[simp] theorem State.retimeL2_reg (s : State) (c : Nat) : (s.retimeL2 c).reg = s.reg := by unfold State.retimeL2; dsimp only; split <;> rfl
@[simp] theorem State.retimeL2_homeq (s : State) (c : Nat) : (s.retimeL2 c).homeq = s.homeq := by unfold State.retimeL2; dsimp only; split <;> rfl
@[simp] theorem State.retimeL2_l2 (s : State) (c : Nat) : (s.retimeL2 c).l2 = s.l2 := by unfold State.retimeL2; dsimp only; split <;> rfl
@[simp] theorem State.retimeL2_pinned (s : State) (c : Nat) : (s.retimeL2 c).pinned = s.pinned := by unfold State.retimeL2; dsimp only; split <;> rfl
@[simp] theorem State.retimeL2_poisoned (s : State) (c : Nat) : (s.retimeL2 c).poisoned = s.poisoned := by unfold State.retimeL2; dsimp only; split <;> rfl
@[simp] theorem State.retimeL2_launches (s : State) (c : Nat) : (s.retimeL2 c).launches = s.launches := by unfold State.retimeL2; dsimp only; split <;> rfl
@[simp] theorem State.retimeL2_batches (s : State) (c : Nat) : (s.retimeL2 c).batches = s.batches := by unfold State.retimeL2; dsimp only; split <;> rfl
@[simp] theorem State.retimeL2_refusedPages (s : State) (c : Nat) : (s.retimeL2 c).refusedPages = s.refusedPages := by unfold State.retimeL2; dsimp only; split <;> rfl
@[simp] theorem State.retimeL2_spawns (s : State) (c : Nat) : (s.retimeL2 c).spawns = s.spawns := by unfold State.retimeL2; dsimp only; split <;> rfl
@[simp] theorem State.retimeL2_arrivals (s : State) (c : Nat) : (s.retimeL2 c).arrivals = s.arrivals := by unfold State.retimeL2; dsimp only; split <;> rfl
@[simp] theorem State.retimeL2_peerReqs (s : State) (c : Nat) : (s.retimeL2 c).peerReqs = s.peerReqs := by unfold State.retimeL2; dsimp only; split <;> rfl
@[simp] theorem State.retimeL2_rounds (s : State) (c : Nat) : (s.retimeL2 c).rounds = s.rounds := by unfold State.retimeL2; dsimp only; split <;> rfl
@[simp] theorem State.retimeL2_roundArrivals (s : State) (c : Nat) : (s.retimeL2 c).roundArrivals = s.roundArrivals := by unfold State.retimeL2; dsimp only; split <;> rfl
@[simp] theorem State.retimeL2_policies (s : State) (c : Nat) : (s.retimeL2 c).policies = s.policies := by unfold State.retimeL2; dsimp only; split <;> rfl
@[simp] theorem State.retimeL2_nextPolicy (s : State) (c : Nat) : (s.retimeL2 c).nextPolicy = s.nextPolicy := by unfold State.retimeL2; dsimp only; split <;> rfl
@[simp] theorem State.retimeL2_channels (s : State) (c : Nat) : (s.retimeL2 c).channels = s.channels := by unfold State.retimeL2; dsimp only; split <;> rfl
@[simp] theorem State.retimeL2_enga (s : State) (c : Nat) : (s.retimeL2 c).enga = s.enga := by unfold State.retimeL2; dsimp only; split <;> rfl
@[simp] theorem State.retimeL2_budgetNext (s : State) (c : Nat) : (s.retimeL2 c).budgetNext = s.budgetNext := by unfold State.retimeL2; dsimp only; split <;> rfl
@[simp] theorem State.retimeL2_sems (s : State) (c : Nat) : (s.retimeL2 c).sems = s.sems := by unfold State.retimeL2; dsimp only; split <;> rfl
@[simp] theorem State.retimeL2_tieLoser (s : State) (c : Nat) : (s.retimeL2 c).tieLoser = s.tieLoser := by unfold State.retimeL2; dsimp only; split <;> rfl
@[simp] theorem State.retimeL2_hpcap (s : State) (c : Nat) : (s.retimeL2 c).hpcap = s.hpcap := by unfold State.retimeL2; dsimp only; split <;> rfl
@[simp] theorem State.retimeL2_deviceNo (s : State) (c : Nat) : (s.retimeL2 c).deviceNo = s.deviceNo := by unfold State.retimeL2; dsimp only; split <;> rfl
@[simp] theorem State.retimeL2_routes (s : State) (c : Nat) : (s.retimeL2 c).routes = s.routes := by unfold State.retimeL2; dsimp only; split <;> rfl
@[simp] theorem State.retimeL2_linksDown (s : State) (c : Nat) : (s.retimeL2 c).linksDown = s.linksDown := by unfold State.retimeL2; dsimp only; split <;> rfl
@[simp] theorem State.retimeL2_agenda (s : State) (c : Nat) : (s.retimeL2 c).agenda = s.agenda := by unfold State.retimeL2; dsimp only; split <;> rfl
@[simp] theorem State.retimeL2_focus (s : State) (c : Nat) : (s.retimeL2 c).focus = s.focus := by unfold State.retimeL2; dsimp only; split <;> rfl
@[simp] theorem State.retimeL2_freeCtr (s : State) (c : Nat) : (s.retimeL2 c).freeCtr = s.freeCtr := by unfold State.retimeL2; dsimp only; split <;> rfl
@[simp] theorem State.retimeL2_reply (s : State) (c : Nat) : (s.retimeL2 c).reply = s.reply := by unfold State.retimeL2; dsimp only; split <;> rfl

/-! ## State.mapSheet -/

@[simp] theorem State.mapSheet_ts (s : State) (c : Nat) (f : Sheet → Sheet) : (s.mapSheet c f).ts = s.ts := by unfold State.mapSheet; split <;> rfl
@[simp] theorem State.mapSheet_wgs (s : State) (c : Nat) (f : Sheet → Sheet) : (s.mapSheet c f).wgs = s.wgs := by unfold State.mapSheet; split <;> rfl
@[simp] theorem State.mapSheet_nextWg (s : State) (c : Nat) (f : Sheet → Sheet) : (s.mapSheet c f).nextWg = s.nextWg := by unfold State.mapSheet; split <;> rfl
@[simp] theorem State.mapSheet_cores (s : State) (c : Nat) (f : Sheet → Sheet) : (s.mapSheet c f).cores = s.cores := by unfold State.mapSheet; split <;> rfl
@[simp] theorem State.mapSheet_clusters (s : State) (c : Nat) (f : Sheet → Sheet) : (s.mapSheet c f).clusters = s.clusters := by unfold State.mapSheet; split <;> rfl
@[simp] theorem State.mapSheet_dies (s : State) (c : Nat) (f : Sheet → Sheet) : (s.mapSheet c f).dies = s.dies := by unfold State.mapSheet; split <;> rfl
@[simp] theorem State.mapSheet_rails (s : State) (c : Nat) (f : Sheet → Sheet) : (s.mapSheet c f).rails = s.rails := by unfold State.mapSheet; split <;> rfl
@[simp] theorem State.mapSheet_parts (s : State) (c : Nat) (f : Sheet → Sheet) : (s.mapSheet c f).parts = s.parts := by unfold State.mapSheet; split <;> rfl
@[simp] theorem State.mapSheet_vfs (s : State) (c : Nat) (f : Sheet → Sheet) : (s.mapSheet c f).vfs = s.vfs := by unfold State.mapSheet; split <;> rfl
@[simp] theorem State.mapSheet_grids (s : State) (c : Nat) (f : Sheet → Sheet) : (s.mapSheet c f).grids = s.grids := by unfold State.mapSheet; split <;> rfl
@[simp] theorem State.mapSheet_nextGrid (s : State) (c : Nat) (f : Sheet → Sheet) : (s.mapSheet c f).nextGrid = s.nextGrid := by unfold State.mapSheet; split <;> rfl
@[simp] theorem State.mapSheet_lqueue (s : State) (c : Nat) (f : Sheet → Sheet) : (s.mapSheet c f).lqueue = s.lqueue := by unfold State.mapSheet; split <;> rfl
@[simp] theorem State.mapSheet_turn (s : State) (c : Nat) (f : Sheet → Sheet) : (s.mapSheet c f).turn = s.turn := by unfold State.mapSheet; split <;> rfl
@[simp] theorem State.mapSheet_mem (s : State) (c : Nat) (f : Sheet → Sheet) : (s.mapSheet c f).mem = s.mem := by unfold State.mapSheet; split <;> rfl
@[simp] theorem State.mapSheet_reg (s : State) (c : Nat) (f : Sheet → Sheet) : (s.mapSheet c f).reg = s.reg := by unfold State.mapSheet; split <;> rfl
@[simp] theorem State.mapSheet_homeq (s : State) (c : Nat) (f : Sheet → Sheet) : (s.mapSheet c f).homeq = s.homeq := by unfold State.mapSheet; split <;> rfl
@[simp] theorem State.mapSheet_l2 (s : State) (c : Nat) (f : Sheet → Sheet) : (s.mapSheet c f).l2 = s.l2 := by unfold State.mapSheet; split <;> rfl
@[simp] theorem State.mapSheet_pinned (s : State) (c : Nat) (f : Sheet → Sheet) : (s.mapSheet c f).pinned = s.pinned := by unfold State.mapSheet; split <;> rfl
@[simp] theorem State.mapSheet_poisoned (s : State) (c : Nat) (f : Sheet → Sheet) : (s.mapSheet c f).poisoned = s.poisoned := by unfold State.mapSheet; split <;> rfl
@[simp] theorem State.mapSheet_launches (s : State) (c : Nat) (f : Sheet → Sheet) : (s.mapSheet c f).launches = s.launches := by unfold State.mapSheet; split <;> rfl
@[simp] theorem State.mapSheet_batches (s : State) (c : Nat) (f : Sheet → Sheet) : (s.mapSheet c f).batches = s.batches := by unfold State.mapSheet; split <;> rfl
@[simp] theorem State.mapSheet_refusedPages (s : State) (c : Nat) (f : Sheet → Sheet) : (s.mapSheet c f).refusedPages = s.refusedPages := by unfold State.mapSheet; split <;> rfl
@[simp] theorem State.mapSheet_spawns (s : State) (c : Nat) (f : Sheet → Sheet) : (s.mapSheet c f).spawns = s.spawns := by unfold State.mapSheet; split <;> rfl
@[simp] theorem State.mapSheet_arrivals (s : State) (c : Nat) (f : Sheet → Sheet) : (s.mapSheet c f).arrivals = s.arrivals := by unfold State.mapSheet; split <;> rfl
@[simp] theorem State.mapSheet_peerReqs (s : State) (c : Nat) (f : Sheet → Sheet) : (s.mapSheet c f).peerReqs = s.peerReqs := by unfold State.mapSheet; split <;> rfl
@[simp] theorem State.mapSheet_rounds (s : State) (c : Nat) (f : Sheet → Sheet) : (s.mapSheet c f).rounds = s.rounds := by unfold State.mapSheet; split <;> rfl
@[simp] theorem State.mapSheet_roundArrivals (s : State) (c : Nat) (f : Sheet → Sheet) : (s.mapSheet c f).roundArrivals = s.roundArrivals := by unfold State.mapSheet; split <;> rfl
@[simp] theorem State.mapSheet_policies (s : State) (c : Nat) (f : Sheet → Sheet) : (s.mapSheet c f).policies = s.policies := by unfold State.mapSheet; split <;> rfl
@[simp] theorem State.mapSheet_nextPolicy (s : State) (c : Nat) (f : Sheet → Sheet) : (s.mapSheet c f).nextPolicy = s.nextPolicy := by unfold State.mapSheet; split <;> rfl
@[simp] theorem State.mapSheet_channels (s : State) (c : Nat) (f : Sheet → Sheet) : (s.mapSheet c f).channels = s.channels := by unfold State.mapSheet; split <;> rfl
@[simp] theorem State.mapSheet_enga (s : State) (c : Nat) (f : Sheet → Sheet) : (s.mapSheet c f).enga = s.enga := by unfold State.mapSheet; split <;> rfl
@[simp] theorem State.mapSheet_budgetNext (s : State) (c : Nat) (f : Sheet → Sheet) : (s.mapSheet c f).budgetNext = s.budgetNext := by unfold State.mapSheet; split <;> rfl
@[simp] theorem State.mapSheet_sems (s : State) (c : Nat) (f : Sheet → Sheet) : (s.mapSheet c f).sems = s.sems := by unfold State.mapSheet; split <;> rfl
@[simp] theorem State.mapSheet_tieLoser (s : State) (c : Nat) (f : Sheet → Sheet) : (s.mapSheet c f).tieLoser = s.tieLoser := by unfold State.mapSheet; split <;> rfl
@[simp] theorem State.mapSheet_hpcap (s : State) (c : Nat) (f : Sheet → Sheet) : (s.mapSheet c f).hpcap = s.hpcap := by unfold State.mapSheet; split <;> rfl
@[simp] theorem State.mapSheet_deviceNo (s : State) (c : Nat) (f : Sheet → Sheet) : (s.mapSheet c f).deviceNo = s.deviceNo := by unfold State.mapSheet; split <;> rfl
@[simp] theorem State.mapSheet_routes (s : State) (c : Nat) (f : Sheet → Sheet) : (s.mapSheet c f).routes = s.routes := by unfold State.mapSheet; split <;> rfl
@[simp] theorem State.mapSheet_linksDown (s : State) (c : Nat) (f : Sheet → Sheet) : (s.mapSheet c f).linksDown = s.linksDown := by unfold State.mapSheet; split <;> rfl
@[simp] theorem State.mapSheet_agenda (s : State) (c : Nat) (f : Sheet → Sheet) : (s.mapSheet c f).agenda = s.agenda := by unfold State.mapSheet; split <;> rfl
@[simp] theorem State.mapSheet_focus (s : State) (c : Nat) (f : Sheet → Sheet) : (s.mapSheet c f).focus = s.focus := by unfold State.mapSheet; split <;> rfl
@[simp] theorem State.mapSheet_freeCtr (s : State) (c : Nat) (f : Sheet → Sheet) : (s.mapSheet c f).freeCtr = s.freeCtr := by unfold State.mapSheet; split <;> rfl
@[simp] theorem State.mapSheet_reply (s : State) (c : Nat) (f : Sheet → Sheet) : (s.mapSheet c f).reply = s.reply := by unfold State.mapSheet; split <;> rfl

/-! ## State.mapWg -/

@[simp] theorem State.mapWg_ts (s : State) (c : Nat) (f : Workgroup → Workgroup) : (s.mapWg c f).ts = s.ts := by unfold State.mapWg; split <;> rfl
@[simp] theorem State.mapWg_sheets (s : State) (c : Nat) (f : Workgroup → Workgroup) : (s.mapWg c f).sheets = s.sheets := by unfold State.mapWg; split <;> rfl
@[simp] theorem State.mapWg_nextWg (s : State) (c : Nat) (f : Workgroup → Workgroup) : (s.mapWg c f).nextWg = s.nextWg := by unfold State.mapWg; split <;> rfl
@[simp] theorem State.mapWg_cores (s : State) (c : Nat) (f : Workgroup → Workgroup) : (s.mapWg c f).cores = s.cores := by unfold State.mapWg; split <;> rfl
@[simp] theorem State.mapWg_clusters (s : State) (c : Nat) (f : Workgroup → Workgroup) : (s.mapWg c f).clusters = s.clusters := by unfold State.mapWg; split <;> rfl
@[simp] theorem State.mapWg_dies (s : State) (c : Nat) (f : Workgroup → Workgroup) : (s.mapWg c f).dies = s.dies := by unfold State.mapWg; split <;> rfl
@[simp] theorem State.mapWg_rails (s : State) (c : Nat) (f : Workgroup → Workgroup) : (s.mapWg c f).rails = s.rails := by unfold State.mapWg; split <;> rfl
@[simp] theorem State.mapWg_parts (s : State) (c : Nat) (f : Workgroup → Workgroup) : (s.mapWg c f).parts = s.parts := by unfold State.mapWg; split <;> rfl
@[simp] theorem State.mapWg_vfs (s : State) (c : Nat) (f : Workgroup → Workgroup) : (s.mapWg c f).vfs = s.vfs := by unfold State.mapWg; split <;> rfl
@[simp] theorem State.mapWg_grids (s : State) (c : Nat) (f : Workgroup → Workgroup) : (s.mapWg c f).grids = s.grids := by unfold State.mapWg; split <;> rfl
@[simp] theorem State.mapWg_nextGrid (s : State) (c : Nat) (f : Workgroup → Workgroup) : (s.mapWg c f).nextGrid = s.nextGrid := by unfold State.mapWg; split <;> rfl
@[simp] theorem State.mapWg_lqueue (s : State) (c : Nat) (f : Workgroup → Workgroup) : (s.mapWg c f).lqueue = s.lqueue := by unfold State.mapWg; split <;> rfl
@[simp] theorem State.mapWg_turn (s : State) (c : Nat) (f : Workgroup → Workgroup) : (s.mapWg c f).turn = s.turn := by unfold State.mapWg; split <;> rfl
@[simp] theorem State.mapWg_mem (s : State) (c : Nat) (f : Workgroup → Workgroup) : (s.mapWg c f).mem = s.mem := by unfold State.mapWg; split <;> rfl
@[simp] theorem State.mapWg_reg (s : State) (c : Nat) (f : Workgroup → Workgroup) : (s.mapWg c f).reg = s.reg := by unfold State.mapWg; split <;> rfl
@[simp] theorem State.mapWg_homeq (s : State) (c : Nat) (f : Workgroup → Workgroup) : (s.mapWg c f).homeq = s.homeq := by unfold State.mapWg; split <;> rfl
@[simp] theorem State.mapWg_l2 (s : State) (c : Nat) (f : Workgroup → Workgroup) : (s.mapWg c f).l2 = s.l2 := by unfold State.mapWg; split <;> rfl
@[simp] theorem State.mapWg_pinned (s : State) (c : Nat) (f : Workgroup → Workgroup) : (s.mapWg c f).pinned = s.pinned := by unfold State.mapWg; split <;> rfl
@[simp] theorem State.mapWg_poisoned (s : State) (c : Nat) (f : Workgroup → Workgroup) : (s.mapWg c f).poisoned = s.poisoned := by unfold State.mapWg; split <;> rfl
@[simp] theorem State.mapWg_launches (s : State) (c : Nat) (f : Workgroup → Workgroup) : (s.mapWg c f).launches = s.launches := by unfold State.mapWg; split <;> rfl
@[simp] theorem State.mapWg_batches (s : State) (c : Nat) (f : Workgroup → Workgroup) : (s.mapWg c f).batches = s.batches := by unfold State.mapWg; split <;> rfl
@[simp] theorem State.mapWg_refusedPages (s : State) (c : Nat) (f : Workgroup → Workgroup) : (s.mapWg c f).refusedPages = s.refusedPages := by unfold State.mapWg; split <;> rfl
@[simp] theorem State.mapWg_spawns (s : State) (c : Nat) (f : Workgroup → Workgroup) : (s.mapWg c f).spawns = s.spawns := by unfold State.mapWg; split <;> rfl
@[simp] theorem State.mapWg_arrivals (s : State) (c : Nat) (f : Workgroup → Workgroup) : (s.mapWg c f).arrivals = s.arrivals := by unfold State.mapWg; split <;> rfl
@[simp] theorem State.mapWg_peerReqs (s : State) (c : Nat) (f : Workgroup → Workgroup) : (s.mapWg c f).peerReqs = s.peerReqs := by unfold State.mapWg; split <;> rfl
@[simp] theorem State.mapWg_rounds (s : State) (c : Nat) (f : Workgroup → Workgroup) : (s.mapWg c f).rounds = s.rounds := by unfold State.mapWg; split <;> rfl
@[simp] theorem State.mapWg_roundArrivals (s : State) (c : Nat) (f : Workgroup → Workgroup) : (s.mapWg c f).roundArrivals = s.roundArrivals := by unfold State.mapWg; split <;> rfl
@[simp] theorem State.mapWg_policies (s : State) (c : Nat) (f : Workgroup → Workgroup) : (s.mapWg c f).policies = s.policies := by unfold State.mapWg; split <;> rfl
@[simp] theorem State.mapWg_nextPolicy (s : State) (c : Nat) (f : Workgroup → Workgroup) : (s.mapWg c f).nextPolicy = s.nextPolicy := by unfold State.mapWg; split <;> rfl
@[simp] theorem State.mapWg_channels (s : State) (c : Nat) (f : Workgroup → Workgroup) : (s.mapWg c f).channels = s.channels := by unfold State.mapWg; split <;> rfl
@[simp] theorem State.mapWg_enga (s : State) (c : Nat) (f : Workgroup → Workgroup) : (s.mapWg c f).enga = s.enga := by unfold State.mapWg; split <;> rfl
@[simp] theorem State.mapWg_budgetNext (s : State) (c : Nat) (f : Workgroup → Workgroup) : (s.mapWg c f).budgetNext = s.budgetNext := by unfold State.mapWg; split <;> rfl
@[simp] theorem State.mapWg_sems (s : State) (c : Nat) (f : Workgroup → Workgroup) : (s.mapWg c f).sems = s.sems := by unfold State.mapWg; split <;> rfl
@[simp] theorem State.mapWg_tieLoser (s : State) (c : Nat) (f : Workgroup → Workgroup) : (s.mapWg c f).tieLoser = s.tieLoser := by unfold State.mapWg; split <;> rfl
@[simp] theorem State.mapWg_hpcap (s : State) (c : Nat) (f : Workgroup → Workgroup) : (s.mapWg c f).hpcap = s.hpcap := by unfold State.mapWg; split <;> rfl
@[simp] theorem State.mapWg_deviceNo (s : State) (c : Nat) (f : Workgroup → Workgroup) : (s.mapWg c f).deviceNo = s.deviceNo := by unfold State.mapWg; split <;> rfl
@[simp] theorem State.mapWg_routes (s : State) (c : Nat) (f : Workgroup → Workgroup) : (s.mapWg c f).routes = s.routes := by unfold State.mapWg; split <;> rfl
@[simp] theorem State.mapWg_linksDown (s : State) (c : Nat) (f : Workgroup → Workgroup) : (s.mapWg c f).linksDown = s.linksDown := by unfold State.mapWg; split <;> rfl
@[simp] theorem State.mapWg_agenda (s : State) (c : Nat) (f : Workgroup → Workgroup) : (s.mapWg c f).agenda = s.agenda := by unfold State.mapWg; split <;> rfl
@[simp] theorem State.mapWg_focus (s : State) (c : Nat) (f : Workgroup → Workgroup) : (s.mapWg c f).focus = s.focus := by unfold State.mapWg; split <;> rfl
@[simp] theorem State.mapWg_freeCtr (s : State) (c : Nat) (f : Workgroup → Workgroup) : (s.mapWg c f).freeCtr = s.freeCtr := by unfold State.mapWg; split <;> rfl
@[simp] theorem State.mapWg_reply (s : State) (c : Nat) (f : Workgroup → Workgroup) : (s.mapWg c f).reply = s.reply := by unfold State.mapWg; split <;> rfl

/-! ## State.mapGrid -/

@[simp] theorem State.mapGrid_ts (s : State) (c : Nat) (f : Grid → Grid) : (s.mapGrid c f).ts = s.ts := by unfold State.mapGrid; split <;> rfl
@[simp] theorem State.mapGrid_sheets (s : State) (c : Nat) (f : Grid → Grid) : (s.mapGrid c f).sheets = s.sheets := by unfold State.mapGrid; split <;> rfl
@[simp] theorem State.mapGrid_wgs (s : State) (c : Nat) (f : Grid → Grid) : (s.mapGrid c f).wgs = s.wgs := by unfold State.mapGrid; split <;> rfl
@[simp] theorem State.mapGrid_nextWg (s : State) (c : Nat) (f : Grid → Grid) : (s.mapGrid c f).nextWg = s.nextWg := by unfold State.mapGrid; split <;> rfl
@[simp] theorem State.mapGrid_cores (s : State) (c : Nat) (f : Grid → Grid) : (s.mapGrid c f).cores = s.cores := by unfold State.mapGrid; split <;> rfl
@[simp] theorem State.mapGrid_clusters (s : State) (c : Nat) (f : Grid → Grid) : (s.mapGrid c f).clusters = s.clusters := by unfold State.mapGrid; split <;> rfl
@[simp] theorem State.mapGrid_dies (s : State) (c : Nat) (f : Grid → Grid) : (s.mapGrid c f).dies = s.dies := by unfold State.mapGrid; split <;> rfl
@[simp] theorem State.mapGrid_rails (s : State) (c : Nat) (f : Grid → Grid) : (s.mapGrid c f).rails = s.rails := by unfold State.mapGrid; split <;> rfl
@[simp] theorem State.mapGrid_parts (s : State) (c : Nat) (f : Grid → Grid) : (s.mapGrid c f).parts = s.parts := by unfold State.mapGrid; split <;> rfl
@[simp] theorem State.mapGrid_vfs (s : State) (c : Nat) (f : Grid → Grid) : (s.mapGrid c f).vfs = s.vfs := by unfold State.mapGrid; split <;> rfl
@[simp] theorem State.mapGrid_nextGrid (s : State) (c : Nat) (f : Grid → Grid) : (s.mapGrid c f).nextGrid = s.nextGrid := by unfold State.mapGrid; split <;> rfl
@[simp] theorem State.mapGrid_lqueue (s : State) (c : Nat) (f : Grid → Grid) : (s.mapGrid c f).lqueue = s.lqueue := by unfold State.mapGrid; split <;> rfl
@[simp] theorem State.mapGrid_turn (s : State) (c : Nat) (f : Grid → Grid) : (s.mapGrid c f).turn = s.turn := by unfold State.mapGrid; split <;> rfl
@[simp] theorem State.mapGrid_mem (s : State) (c : Nat) (f : Grid → Grid) : (s.mapGrid c f).mem = s.mem := by unfold State.mapGrid; split <;> rfl
@[simp] theorem State.mapGrid_reg (s : State) (c : Nat) (f : Grid → Grid) : (s.mapGrid c f).reg = s.reg := by unfold State.mapGrid; split <;> rfl
@[simp] theorem State.mapGrid_homeq (s : State) (c : Nat) (f : Grid → Grid) : (s.mapGrid c f).homeq = s.homeq := by unfold State.mapGrid; split <;> rfl
@[simp] theorem State.mapGrid_l2 (s : State) (c : Nat) (f : Grid → Grid) : (s.mapGrid c f).l2 = s.l2 := by unfold State.mapGrid; split <;> rfl
@[simp] theorem State.mapGrid_pinned (s : State) (c : Nat) (f : Grid → Grid) : (s.mapGrid c f).pinned = s.pinned := by unfold State.mapGrid; split <;> rfl
@[simp] theorem State.mapGrid_poisoned (s : State) (c : Nat) (f : Grid → Grid) : (s.mapGrid c f).poisoned = s.poisoned := by unfold State.mapGrid; split <;> rfl
@[simp] theorem State.mapGrid_launches (s : State) (c : Nat) (f : Grid → Grid) : (s.mapGrid c f).launches = s.launches := by unfold State.mapGrid; split <;> rfl
@[simp] theorem State.mapGrid_batches (s : State) (c : Nat) (f : Grid → Grid) : (s.mapGrid c f).batches = s.batches := by unfold State.mapGrid; split <;> rfl
@[simp] theorem State.mapGrid_refusedPages (s : State) (c : Nat) (f : Grid → Grid) : (s.mapGrid c f).refusedPages = s.refusedPages := by unfold State.mapGrid; split <;> rfl
@[simp] theorem State.mapGrid_spawns (s : State) (c : Nat) (f : Grid → Grid) : (s.mapGrid c f).spawns = s.spawns := by unfold State.mapGrid; split <;> rfl
@[simp] theorem State.mapGrid_arrivals (s : State) (c : Nat) (f : Grid → Grid) : (s.mapGrid c f).arrivals = s.arrivals := by unfold State.mapGrid; split <;> rfl
@[simp] theorem State.mapGrid_peerReqs (s : State) (c : Nat) (f : Grid → Grid) : (s.mapGrid c f).peerReqs = s.peerReqs := by unfold State.mapGrid; split <;> rfl
@[simp] theorem State.mapGrid_rounds (s : State) (c : Nat) (f : Grid → Grid) : (s.mapGrid c f).rounds = s.rounds := by unfold State.mapGrid; split <;> rfl
@[simp] theorem State.mapGrid_roundArrivals (s : State) (c : Nat) (f : Grid → Grid) : (s.mapGrid c f).roundArrivals = s.roundArrivals := by unfold State.mapGrid; split <;> rfl
@[simp] theorem State.mapGrid_policies (s : State) (c : Nat) (f : Grid → Grid) : (s.mapGrid c f).policies = s.policies := by unfold State.mapGrid; split <;> rfl
@[simp] theorem State.mapGrid_nextPolicy (s : State) (c : Nat) (f : Grid → Grid) : (s.mapGrid c f).nextPolicy = s.nextPolicy := by unfold State.mapGrid; split <;> rfl
@[simp] theorem State.mapGrid_channels (s : State) (c : Nat) (f : Grid → Grid) : (s.mapGrid c f).channels = s.channels := by unfold State.mapGrid; split <;> rfl
@[simp] theorem State.mapGrid_enga (s : State) (c : Nat) (f : Grid → Grid) : (s.mapGrid c f).enga = s.enga := by unfold State.mapGrid; split <;> rfl
@[simp] theorem State.mapGrid_budgetNext (s : State) (c : Nat) (f : Grid → Grid) : (s.mapGrid c f).budgetNext = s.budgetNext := by unfold State.mapGrid; split <;> rfl
@[simp] theorem State.mapGrid_sems (s : State) (c : Nat) (f : Grid → Grid) : (s.mapGrid c f).sems = s.sems := by unfold State.mapGrid; split <;> rfl
@[simp] theorem State.mapGrid_tieLoser (s : State) (c : Nat) (f : Grid → Grid) : (s.mapGrid c f).tieLoser = s.tieLoser := by unfold State.mapGrid; split <;> rfl
@[simp] theorem State.mapGrid_hpcap (s : State) (c : Nat) (f : Grid → Grid) : (s.mapGrid c f).hpcap = s.hpcap := by unfold State.mapGrid; split <;> rfl
@[simp] theorem State.mapGrid_deviceNo (s : State) (c : Nat) (f : Grid → Grid) : (s.mapGrid c f).deviceNo = s.deviceNo := by unfold State.mapGrid; split <;> rfl
@[simp] theorem State.mapGrid_routes (s : State) (c : Nat) (f : Grid → Grid) : (s.mapGrid c f).routes = s.routes := by unfold State.mapGrid; split <;> rfl
@[simp] theorem State.mapGrid_linksDown (s : State) (c : Nat) (f : Grid → Grid) : (s.mapGrid c f).linksDown = s.linksDown := by unfold State.mapGrid; split <;> rfl
@[simp] theorem State.mapGrid_agenda (s : State) (c : Nat) (f : Grid → Grid) : (s.mapGrid c f).agenda = s.agenda := by unfold State.mapGrid; split <;> rfl
@[simp] theorem State.mapGrid_focus (s : State) (c : Nat) (f : Grid → Grid) : (s.mapGrid c f).focus = s.focus := by unfold State.mapGrid; split <;> rfl
@[simp] theorem State.mapGrid_freeCtr (s : State) (c : Nat) (f : Grid → Grid) : (s.mapGrid c f).freeCtr = s.freeCtr := by unfold State.mapGrid; split <;> rfl
@[simp] theorem State.mapGrid_reply (s : State) (c : Nat) (f : Grid → Grid) : (s.mapGrid c f).reply = s.reply := by unfold State.mapGrid; split <;> rfl

/-! ## State.setClock -/

@[simp] theorem State.setClock_ts (s : State) (c x : Nat) : (s.setClock c x).ts = s.ts := by simp [State.setClock]
@[simp] theorem State.setClock_sheets (s : State) (c x : Nat) : (s.setClock c x).sheets = s.sheets := by simp [State.setClock]
@[simp] theorem State.setClock_wgs (s : State) (c x : Nat) : (s.setClock c x).wgs = s.wgs := by simp [State.setClock]
@[simp] theorem State.setClock_nextWg (s : State) (c x : Nat) : (s.setClock c x).nextWg = s.nextWg := by simp [State.setClock]
@[simp] theorem State.setClock_cores (s : State) (c x : Nat) : (s.setClock c x).cores = s.cores := by simp [State.setClock]
@[simp] theorem State.setClock_rails (s : State) (c x : Nat) : (s.setClock c x).rails = s.rails := by simp [State.setClock]
@[simp] theorem State.setClock_parts (s : State) (c x : Nat) : (s.setClock c x).parts = s.parts := by simp [State.setClock]
@[simp] theorem State.setClock_vfs (s : State) (c x : Nat) : (s.setClock c x).vfs = s.vfs := by simp [State.setClock]
@[simp] theorem State.setClock_grids (s : State) (c x : Nat) : (s.setClock c x).grids = s.grids := by simp [State.setClock]
@[simp] theorem State.setClock_nextGrid (s : State) (c x : Nat) : (s.setClock c x).nextGrid = s.nextGrid := by simp [State.setClock]
@[simp] theorem State.setClock_lqueue (s : State) (c x : Nat) : (s.setClock c x).lqueue = s.lqueue := by simp [State.setClock]
@[simp] theorem State.setClock_turn (s : State) (c x : Nat) : (s.setClock c x).turn = s.turn := by simp [State.setClock]
@[simp] theorem State.setClock_mem (s : State) (c x : Nat) : (s.setClock c x).mem = s.mem := by simp [State.setClock]
@[simp] theorem State.setClock_reg (s : State) (c x : Nat) : (s.setClock c x).reg = s.reg := by simp [State.setClock]
@[simp] theorem State.setClock_homeq (s : State) (c x : Nat) : (s.setClock c x).homeq = s.homeq := by simp [State.setClock]
@[simp] theorem State.setClock_l2 (s : State) (c x : Nat) : (s.setClock c x).l2 = s.l2 := by simp [State.setClock]
@[simp] theorem State.setClock_pinned (s : State) (c x : Nat) : (s.setClock c x).pinned = s.pinned := by simp [State.setClock]
@[simp] theorem State.setClock_poisoned (s : State) (c x : Nat) : (s.setClock c x).poisoned = s.poisoned := by simp [State.setClock]
@[simp] theorem State.setClock_launches (s : State) (c x : Nat) : (s.setClock c x).launches = s.launches := by simp [State.setClock]
@[simp] theorem State.setClock_batches (s : State) (c x : Nat) : (s.setClock c x).batches = s.batches := by simp [State.setClock]
@[simp] theorem State.setClock_refusedPages (s : State) (c x : Nat) : (s.setClock c x).refusedPages = s.refusedPages := by simp [State.setClock]
@[simp] theorem State.setClock_spawns (s : State) (c x : Nat) : (s.setClock c x).spawns = s.spawns := by simp [State.setClock]
@[simp] theorem State.setClock_arrivals (s : State) (c x : Nat) : (s.setClock c x).arrivals = s.arrivals := by simp [State.setClock]
@[simp] theorem State.setClock_peerReqs (s : State) (c x : Nat) : (s.setClock c x).peerReqs = s.peerReqs := by simp [State.setClock]
@[simp] theorem State.setClock_rounds (s : State) (c x : Nat) : (s.setClock c x).rounds = s.rounds := by simp [State.setClock]
@[simp] theorem State.setClock_roundArrivals (s : State) (c x : Nat) : (s.setClock c x).roundArrivals = s.roundArrivals := by simp [State.setClock]
@[simp] theorem State.setClock_policies (s : State) (c x : Nat) : (s.setClock c x).policies = s.policies := by simp [State.setClock]
@[simp] theorem State.setClock_nextPolicy (s : State) (c x : Nat) : (s.setClock c x).nextPolicy = s.nextPolicy := by simp [State.setClock]
@[simp] theorem State.setClock_channels (s : State) (c x : Nat) : (s.setClock c x).channels = s.channels := by simp [State.setClock]
@[simp] theorem State.setClock_enga (s : State) (c x : Nat) : (s.setClock c x).enga = s.enga := by simp [State.setClock]
@[simp] theorem State.setClock_budgetNext (s : State) (c x : Nat) : (s.setClock c x).budgetNext = s.budgetNext := by simp [State.setClock]
@[simp] theorem State.setClock_sems (s : State) (c x : Nat) : (s.setClock c x).sems = s.sems := by simp [State.setClock]
@[simp] theorem State.setClock_tieLoser (s : State) (c x : Nat) : (s.setClock c x).tieLoser = s.tieLoser := by simp [State.setClock]
@[simp] theorem State.setClock_hpcap (s : State) (c x : Nat) : (s.setClock c x).hpcap = s.hpcap := by simp [State.setClock]
@[simp] theorem State.setClock_deviceNo (s : State) (c x : Nat) : (s.setClock c x).deviceNo = s.deviceNo := by simp [State.setClock]
@[simp] theorem State.setClock_routes (s : State) (c x : Nat) : (s.setClock c x).routes = s.routes := by simp [State.setClock]
@[simp] theorem State.setClock_linksDown (s : State) (c x : Nat) : (s.setClock c x).linksDown = s.linksDown := by simp [State.setClock]
@[simp] theorem State.setClock_agenda (s : State) (c x : Nat) : (s.setClock c x).agenda = s.agenda := by simp [State.setClock]
@[simp] theorem State.setClock_focus (s : State) (c x : Nat) : (s.setClock c x).focus = s.focus := by simp [State.setClock]
@[simp] theorem State.setClock_freeCtr (s : State) (c x : Nat) : (s.setClock c x).freeCtr = s.freeCtr := by simp [State.setClock]
@[simp] theorem State.setClock_reply (s : State) (c x : Nat) : (s.setClock c x).reply = s.reply := by simp [State.setClock]
@[simp] theorem State.setClock_clusters (s : State) (c x : Nat) : (s.setClock c x).clusters =
    (s.setCluster c { s.cluster c with c0 := (s.cluster c).c0 + (s.ts - (s.cluster c).t0) * (s.cluster c).mhz / 1000, t0 := s.ts, mhz := x }).clusters := by
  simp [State.setClock]

/-! ## State.writeBytes -/

@[simp] theorem State.writeBytes_ts (s : State) (a : Nat) (l : List Byte) : (s.writeBytes a l).ts = s.ts := by
  induction l generalizing s a with
  | nil => rfl
  | cons b r ih => exact (ih _ _)
@[simp] theorem State.writeBytes_sheets (s : State) (a : Nat) (l : List Byte) : (s.writeBytes a l).sheets = s.sheets := by
  induction l generalizing s a with
  | nil => rfl
  | cons b r ih => exact (ih _ _)
@[simp] theorem State.writeBytes_wgs (s : State) (a : Nat) (l : List Byte) : (s.writeBytes a l).wgs = s.wgs := by
  induction l generalizing s a with
  | nil => rfl
  | cons b r ih => exact (ih _ _)
@[simp] theorem State.writeBytes_nextWg (s : State) (a : Nat) (l : List Byte) : (s.writeBytes a l).nextWg = s.nextWg := by
  induction l generalizing s a with
  | nil => rfl
  | cons b r ih => exact (ih _ _)
@[simp] theorem State.writeBytes_cores (s : State) (a : Nat) (l : List Byte) : (s.writeBytes a l).cores = s.cores := by
  induction l generalizing s a with
  | nil => rfl
  | cons b r ih => exact (ih _ _)
@[simp] theorem State.writeBytes_clusters (s : State) (a : Nat) (l : List Byte) : (s.writeBytes a l).clusters = s.clusters := by
  induction l generalizing s a with
  | nil => rfl
  | cons b r ih => exact (ih _ _)
@[simp] theorem State.writeBytes_dies (s : State) (a : Nat) (l : List Byte) : (s.writeBytes a l).dies = s.dies := by
  induction l generalizing s a with
  | nil => rfl
  | cons b r ih => exact (ih _ _)
@[simp] theorem State.writeBytes_rails (s : State) (a : Nat) (l : List Byte) : (s.writeBytes a l).rails = s.rails := by
  induction l generalizing s a with
  | nil => rfl
  | cons b r ih => exact (ih _ _)
@[simp] theorem State.writeBytes_parts (s : State) (a : Nat) (l : List Byte) : (s.writeBytes a l).parts = s.parts := by
  induction l generalizing s a with
  | nil => rfl
  | cons b r ih => exact (ih _ _)
@[simp] theorem State.writeBytes_vfs (s : State) (a : Nat) (l : List Byte) : (s.writeBytes a l).vfs = s.vfs := by
  induction l generalizing s a with
  | nil => rfl
  | cons b r ih => exact (ih _ _)
@[simp] theorem State.writeBytes_grids (s : State) (a : Nat) (l : List Byte) : (s.writeBytes a l).grids = s.grids := by
  induction l generalizing s a with
  | nil => rfl
  | cons b r ih => exact (ih _ _)
@[simp] theorem State.writeBytes_nextGrid (s : State) (a : Nat) (l : List Byte) : (s.writeBytes a l).nextGrid = s.nextGrid := by
  induction l generalizing s a with
  | nil => rfl
  | cons b r ih => exact (ih _ _)
@[simp] theorem State.writeBytes_lqueue (s : State) (a : Nat) (l : List Byte) : (s.writeBytes a l).lqueue = s.lqueue := by
  induction l generalizing s a with
  | nil => rfl
  | cons b r ih => exact (ih _ _)
@[simp] theorem State.writeBytes_turn (s : State) (a : Nat) (l : List Byte) : (s.writeBytes a l).turn = s.turn := by
  induction l generalizing s a with
  | nil => rfl
  | cons b r ih => exact (ih _ _)
@[simp] theorem State.writeBytes_reg (s : State) (a : Nat) (l : List Byte) : (s.writeBytes a l).reg = s.reg := by
  induction l generalizing s a with
  | nil => rfl
  | cons b r ih => exact (ih _ _)
@[simp] theorem State.writeBytes_homeq (s : State) (a : Nat) (l : List Byte) : (s.writeBytes a l).homeq = s.homeq := by
  induction l generalizing s a with
  | nil => rfl
  | cons b r ih => exact (ih _ _)
@[simp] theorem State.writeBytes_l2 (s : State) (a : Nat) (l : List Byte) : (s.writeBytes a l).l2 = s.l2 := by
  induction l generalizing s a with
  | nil => rfl
  | cons b r ih => exact (ih _ _)
@[simp] theorem State.writeBytes_pinned (s : State) (a : Nat) (l : List Byte) : (s.writeBytes a l).pinned = s.pinned := by
  induction l generalizing s a with
  | nil => rfl
  | cons b r ih => exact (ih _ _)
@[simp] theorem State.writeBytes_poisoned (s : State) (a : Nat) (l : List Byte) : (s.writeBytes a l).poisoned = s.poisoned := by
  induction l generalizing s a with
  | nil => rfl
  | cons b r ih => exact (ih _ _)
@[simp] theorem State.writeBytes_launches (s : State) (a : Nat) (l : List Byte) : (s.writeBytes a l).launches = s.launches := by
  induction l generalizing s a with
  | nil => rfl
  | cons b r ih => exact (ih _ _)
@[simp] theorem State.writeBytes_batches (s : State) (a : Nat) (l : List Byte) : (s.writeBytes a l).batches = s.batches := by
  induction l generalizing s a with
  | nil => rfl
  | cons b r ih => exact (ih _ _)
@[simp] theorem State.writeBytes_refusedPages (s : State) (a : Nat) (l : List Byte) : (s.writeBytes a l).refusedPages = s.refusedPages := by
  induction l generalizing s a with
  | nil => rfl
  | cons b r ih => exact (ih _ _)
@[simp] theorem State.writeBytes_spawns (s : State) (a : Nat) (l : List Byte) : (s.writeBytes a l).spawns = s.spawns := by
  induction l generalizing s a with
  | nil => rfl
  | cons b r ih => exact (ih _ _)
@[simp] theorem State.writeBytes_arrivals (s : State) (a : Nat) (l : List Byte) : (s.writeBytes a l).arrivals = s.arrivals := by
  induction l generalizing s a with
  | nil => rfl
  | cons b r ih => exact (ih _ _)
@[simp] theorem State.writeBytes_peerReqs (s : State) (a : Nat) (l : List Byte) : (s.writeBytes a l).peerReqs = s.peerReqs := by
  induction l generalizing s a with
  | nil => rfl
  | cons b r ih => exact (ih _ _)
@[simp] theorem State.writeBytes_rounds (s : State) (a : Nat) (l : List Byte) : (s.writeBytes a l).rounds = s.rounds := by
  induction l generalizing s a with
  | nil => rfl
  | cons b r ih => exact (ih _ _)
@[simp] theorem State.writeBytes_roundArrivals (s : State) (a : Nat) (l : List Byte) : (s.writeBytes a l).roundArrivals = s.roundArrivals := by
  induction l generalizing s a with
  | nil => rfl
  | cons b r ih => exact (ih _ _)
@[simp] theorem State.writeBytes_policies (s : State) (a : Nat) (l : List Byte) : (s.writeBytes a l).policies = s.policies := by
  induction l generalizing s a with
  | nil => rfl
  | cons b r ih => exact (ih _ _)
@[simp] theorem State.writeBytes_nextPolicy (s : State) (a : Nat) (l : List Byte) : (s.writeBytes a l).nextPolicy = s.nextPolicy := by
  induction l generalizing s a with
  | nil => rfl
  | cons b r ih => exact (ih _ _)
@[simp] theorem State.writeBytes_channels (s : State) (a : Nat) (l : List Byte) : (s.writeBytes a l).channels = s.channels := by
  induction l generalizing s a with
  | nil => rfl
  | cons b r ih => exact (ih _ _)
@[simp] theorem State.writeBytes_enga (s : State) (a : Nat) (l : List Byte) : (s.writeBytes a l).enga = s.enga := by
  induction l generalizing s a with
  | nil => rfl
  | cons b r ih => exact (ih _ _)
@[simp] theorem State.writeBytes_budgetNext (s : State) (a : Nat) (l : List Byte) : (s.writeBytes a l).budgetNext = s.budgetNext := by
  induction l generalizing s a with
  | nil => rfl
  | cons b r ih => exact (ih _ _)
@[simp] theorem State.writeBytes_sems (s : State) (a : Nat) (l : List Byte) : (s.writeBytes a l).sems = s.sems := by
  induction l generalizing s a with
  | nil => rfl
  | cons b r ih => exact (ih _ _)
@[simp] theorem State.writeBytes_tieLoser (s : State) (a : Nat) (l : List Byte) : (s.writeBytes a l).tieLoser = s.tieLoser := by
  induction l generalizing s a with
  | nil => rfl
  | cons b r ih => exact (ih _ _)
@[simp] theorem State.writeBytes_hpcap (s : State) (a : Nat) (l : List Byte) : (s.writeBytes a l).hpcap = s.hpcap := by
  induction l generalizing s a with
  | nil => rfl
  | cons b r ih => exact (ih _ _)
@[simp] theorem State.writeBytes_deviceNo (s : State) (a : Nat) (l : List Byte) : (s.writeBytes a l).deviceNo = s.deviceNo := by
  induction l generalizing s a with
  | nil => rfl
  | cons b r ih => exact (ih _ _)
@[simp] theorem State.writeBytes_routes (s : State) (a : Nat) (l : List Byte) : (s.writeBytes a l).routes = s.routes := by
  induction l generalizing s a with
  | nil => rfl
  | cons b r ih => exact (ih _ _)
@[simp] theorem State.writeBytes_linksDown (s : State) (a : Nat) (l : List Byte) : (s.writeBytes a l).linksDown = s.linksDown := by
  induction l generalizing s a with
  | nil => rfl
  | cons b r ih => exact (ih _ _)
@[simp] theorem State.writeBytes_agenda (s : State) (a : Nat) (l : List Byte) : (s.writeBytes a l).agenda = s.agenda := by
  induction l generalizing s a with
  | nil => rfl
  | cons b r ih => exact (ih _ _)
@[simp] theorem State.writeBytes_focus (s : State) (a : Nat) (l : List Byte) : (s.writeBytes a l).focus = s.focus := by
  induction l generalizing s a with
  | nil => rfl
  | cons b r ih => exact (ih _ _)
@[simp] theorem State.writeBytes_freeCtr (s : State) (a : Nat) (l : List Byte) : (s.writeBytes a l).freeCtr = s.freeCtr := by
  induction l generalizing s a with
  | nil => rfl
  | cons b r ih => exact (ih _ _)
@[simp] theorem State.writeBytes_reply (s : State) (a : Nat) (l : List Byte) : (s.writeBytes a l).reply = s.reply := by
  induction l generalizing s a with
  | nil => rfl
  | cons b r ih => exact (ih _ _)

/-! ## What an update leaves at its place, and at another -/

@[simp] theorem State.sheet?_setSheet (s : State) (k : Nat) (x : Sheet) : (s.setSheet k x).sheet? k = some x :=
  lookup_put_self ..
theorem State.sheet?_setSheet_ne (s : State) (k j : Nat) (x : Sheet) (h : j ≠ k) : (s.setSheet k x).sheet? j = s.sheet? j :=
  lookup_put_ne _ _ _ _ h
@[simp] theorem State.wg?_setWg (s : State) (k : Nat) (x : Workgroup) : (s.setWg k x).wg? k = some x := lookup_put_self ..
theorem State.wg?_setWg_ne (s : State) (k j : Nat) (x : Workgroup) (h : j ≠ k) : (s.setWg k x).wg? j = s.wg? j :=
  lookup_put_ne _ _ _ _ h
@[simp] theorem State.grid?_setGrid (s : State) (k : Nat) (x : Grid) : (s.setGrid k x).grid? k = some x := lookup_put_self ..
theorem State.grid?_setGrid_ne (s : State) (k j : Nat) (x : Grid) (h : j ≠ k) : (s.setGrid k x).grid? j = s.grid? j :=
  lookup_put_ne _ _ _ _ h
@[simp] theorem State.core_setCore (s : State) (k : Nat) (x : Core) : (s.setCore k x).core k = x := getD_setD_self ..
theorem State.core_setCore_ne (s : State) (k j : Nat) (x : Core) (h : j ≠ k) : (s.setCore k x).core j = s.core j :=
  getD_setD_ne _ _ _ _ _ h
@[simp] theorem State.core_mapCore (s : State) (k : Nat) (f : Core → Core) : (s.mapCore k f).core k = f (s.core k) :=
  getD_setD_self ..
theorem State.core_mapCore_ne (s : State) (k j : Nat) (f : Core → Core) (h : j ≠ k) : (s.mapCore k f).core j = s.core j :=
  getD_setD_ne _ _ _ _ _ h
@[simp] theorem State.part_setPart (s : State) (k : Nat) (x : Part) : (s.setPart k x).part k = x := getD_setD_self ..
theorem State.part_setPart_ne (s : State) (k j : Nat) (x : Part) (h : j ≠ k) : (s.setPart k x).part j = s.part j :=
  getD_setD_ne _ _ _ _ _ h
@[simp] theorem State.part_mapPart (s : State) (k : Nat) (f : Part → Part) : (s.mapPart k f).part k = f (s.part k) :=
  getD_setD_self ..
theorem State.part_mapPart_ne (s : State) (k j : Nat) (f : Part → Part) (h : j ≠ k) : (s.mapPart k f).part j = s.part j :=
  getD_setD_ne _ _ _ _ _ h
@[simp] theorem State.vf_setVf (s : State) (k : Nat) (x : Vf) : (s.setVf k x).vf k = x := getD_setD_self ..
theorem State.vf_setVf_ne (s : State) (k j : Nat) (x : Vf) (h : j ≠ k) : (s.setVf k x).vf j = s.vf j :=
  getD_setD_ne _ _ _ _ _ h
@[simp] theorem State.rail_setRail (s : State) (k : Nat) (x : Rail) : (s.setRail k x).rail k = x := getD_setD_self ..
theorem State.rail_setRail_ne (s : State) (k j : Nat) (x : Rail) (h : j ≠ k) : (s.setRail k x).rail j = s.rail j :=
  getD_setD_ne _ _ _ _ _ h
@[simp] theorem State.die_setDie (s : State) (k : Nat) (x : Die) : (s.setDie k x).die k = x := getD_setD_self ..
theorem State.die_setDie_ne (s : State) (k j : Nat) (x : Die) (h : j ≠ k) : (s.setDie k x).die j = s.die j :=
  getD_setD_ne _ _ _ _ _ h
@[simp] theorem State.cluster_setCluster (s : State) (k : Nat) (x : Cluster) : (s.setCluster k x).cluster k = x :=
  getD_setD_self ..
theorem State.cluster_setCluster_ne (s : State) (k j : Nat) (x : Cluster) (h : j ≠ k) :
    (s.setCluster k x).cluster j = s.cluster j := getD_setD_ne _ _ _ _ _ h
@[simp] theorem State.channel_setChannel (s : State) (k : Nat) (x : Channel) : (s.setChannel k x).channel k = x :=
  getD_setD_self ..
theorem State.channel_setChannel_ne (s : State) (k j : Nat) (x : Channel) (h : j ≠ k) :
    (s.setChannel k x).channel j = s.channel j := getD_setD_ne _ _ _ _ _ h

theorem State.sheet?_mapSheet (s : State) (k : Nat) (f : Sheet → Sheet) : (s.mapSheet k f).sheet? k = (s.sheet? k).map f := by
  unfold State.mapSheet
  cases h : s.sheet? k with
  | none => simpa using h
  | some sh => simp
theorem State.sheet?_mapSheet_ne (s : State) (k j : Nat) (f : Sheet → Sheet) (h : j ≠ k) :
    (s.mapSheet k f).sheet? j = s.sheet? j := by
  unfold State.mapSheet
  split
  · exact State.sheet?_setSheet_ne _ _ _ _ h
  · rfl
theorem State.wg?_mapWg (s : State) (k : Nat) (f : Workgroup → Workgroup) : (s.mapWg k f).wg? k = (s.wg? k).map f := by
  unfold State.mapWg
  cases h : s.wg? k with
  | none => simpa using h
  | some sh => simp
theorem State.grid?_mapGrid (s : State) (k : Nat) (f : Grid → Grid) : (s.mapGrid k f).grid? k = (s.grid? k).map f := by
  unfold State.mapGrid
  cases h : s.grid? k with
  | none => simpa using h
  | some sh => simp

/-! ## Memory -/

/-- A byte of memory after a write of one. -/
theorem State.readByte_writeByte (s : State) (a b : Nat) (x : Byte) :
    (s.writeByte a x).readByte b = if b = a then x else s.readByte b := getD_setD ..

theorem State.readByte_writeBytes_out (s : State) (a b : Nat) (l : List Byte) (h : b < a ∨ a + l.length ≤ b) :
    (s.writeBytes a l).readByte b = s.readByte b := by
  induction l generalizing s a with
  | nil => rfl
  | cons x r ih =>
    simp only [List.length_cons] at h
    rw [State.writeBytes, ih _ _ (by omega), State.readByte_writeByte, if_neg (by omega)]

/-- A byte of memory after a write of several: each at its place, the others as they were. -/
theorem State.readByte_writeBytes (s : State) (a b : Nat) (l : List Byte) :
    (s.writeBytes a l).readByte b = if a ≤ b ∧ b < a + l.length then l.getD (b - a) 0 else s.readByte b := by
  induction l generalizing s a with
  | nil => simp [State.writeBytes]
  | cons x r ih =>
    rw [State.writeBytes, ih, State.readByte_writeByte]
    by_cases h1 : b = a
    · subst h1; simp
    · by_cases h2 : a ≤ b ∧ b < a + (x :: r).length
      · have h3 : a + 1 ≤ b ∧ b < a + 1 + r.length := by simp only [List.length_cons] at h2; omega
        rw [if_pos h3, if_pos h2]
        obtain ⟨k, hk⟩ : ∃ k, b - a = k + 1 := ⟨b - a - 1, by omega⟩
        rw [hk, show b - (a + 1) = k by omega]; rfl
      · have h3 : ¬ (a + 1 ≤ b ∧ b < a + 1 + r.length) := by simp only [List.length_cons] at h2; omega
        rw [if_neg h3, if_neg h2, if_neg h1]

/-- A write of a byte keeps the canonical form of memory. -/
theorem State.writeByte_wf (s : State) (a : Nat) (x : Byte) (h : Memory.wf s.mem) : Memory.wf (s.writeByte a x).mem :=
  canonical_setD _ _ _ _ h
/-- A write of bytes keeps the canonical form of memory. -/
theorem State.writeBytes_wf (s : State) (a : Nat) (l : List Byte) (h : Memory.wf s.mem) : Memory.wf (s.writeBytes a l).mem := by
  induction l generalizing s a with
  | nil => exact h
  | cons x r ih => exact ih _ _ (State.writeByte_wf _ _ _ h)
/-- Memory has its canonical form at reset. -/
theorem State.reset_wf : Memory.wf State.reset.mem := by decide

/-! ## Sheet.setV -/

@[simp] theorem Sheet.setV_wg (sh : Sheet) (r t : Nat) (x : W64) : (sh.setV r t x).wg = sh.wg := rfl
@[simp] theorem Sheet.setV_num (sh : Sheet) (r t : Nat) (x : W64) : (sh.setV r t x).num = sh.num := rfl
@[simp] theorem Sheet.setV_width (sh : Sheet) (r t : Nat) (x : W64) : (sh.setV r t x).width = sh.width := rfl
@[simp] theorem Sheet.setV_pc (sh : Sheet) (r t : Nat) (x : W64) : (sh.setV r t x).pc = sh.pc := rfl
@[simp] theorem Sheet.setV_mask (sh : Sheet) (r t : Nat) (x : W64) : (sh.setV r t x).mask = sh.mask := rfl
@[simp] theorem Sheet.setV_rcv (sh : Sheet) (r t : Nat) (x : W64) : (sh.setV r t x).rcv = sh.rcv := rfl
@[simp] theorem Sheet.setV_stack (sh : Sheet) (r t : Nat) (x : W64) : (sh.setV r t x).stack = sh.stack := rfl
@[simp] theorem Sheet.setV_gone (sh : Sheet) (r t : Nat) (x : W64) : (sh.setV r t x).gone = sh.gone := rfl
@[simp] theorem Sheet.setV_s (sh : Sheet) (r t : Nat) (x : W64) : (sh.setV r t x).s = sh.s := rfl
@[simp] theorem Sheet.setV_p (sh : Sheet) (r t : Nat) (x : W64) : (sh.setV r t x).p = sh.p := rfl
@[simp] theorem Sheet.setV_ent (sh : Sheet) (r t : Nat) (x : W64) : (sh.setV r t x).ent = sh.ent := rfl
@[simp] theorem Sheet.setV_lat (sh : Sheet) (r t : Nat) (x : W64) : (sh.setV r t x).lat = sh.lat := rfl
@[simp] theorem Sheet.setV_flights (sh : Sheet) (r t : Nat) (x : W64) : (sh.setV r t x).flights = sh.flights := rfl
@[simp] theorem Sheet.setV_limm (sh : Sheet) (r t : Nat) (x : W64) : (sh.setV r t x).limm = sh.limm := rfl
@[simp] theorem Sheet.setV_nest (sh : Sheet) (r t : Nat) (x : W64) : (sh.setV r t x).nest = sh.nest := rfl
@[simp] theorem Sheet.setV_skip (sh : Sheet) (r t : Nat) (x : W64) : (sh.setV r t x).skip = sh.skip := rfl
@[simp] theorem Sheet.setV_fpsr (sh : Sheet) (r t : Nat) (x : W64) : (sh.setV r t x).fpsr = sh.fpsr := rfl
@[simp] theorem Sheet.setV_fpcr (sh : Sheet) (r t : Nat) (x : W64) : (sh.setV r t x).fpcr = sh.fpcr := rfl
@[simp] theorem Sheet.setV_cfeGdx (sh : Sheet) (r t : Nat) (x : W64) : (sh.setV r t x).cfeGdx = sh.cfeGdx := rfl
@[simp] theorem Sheet.setV_cfeSoft (sh : Sheet) (r t : Nat) (x : W64) : (sh.setV r t x).cfeSoft = sh.cfeSoft := rfl
@[simp] theorem Sheet.setV_xpAoff (sh : Sheet) (r t : Nat) (x : W64) : (sh.setV r t x).xpAoff = sh.xpAoff := rfl
@[simp] theorem Sheet.setV_xpPat (sh : Sheet) (r t : Nat) (x : W64) : (sh.setV r t x).xpPat = sh.xpPat := rfl
@[simp] theorem Sheet.setV_xp (sh : Sheet) (r t : Nat) (x : W64) : (sh.setV r t x).xp = sh.xp := rfl
@[simp] theorem Sheet.setV_skipst (sh : Sheet) (r t : Nat) (x : W64) : (sh.setV r t x).skipst = sh.skipst := rfl
@[simp] theorem Sheet.setV_cycAcc (sh : Sheet) (r t : Nat) (x : W64) : (sh.setV r t x).cycAcc = sh.cycAcc := rfl
@[simp] theorem Sheet.setV_cycFrom (sh : Sheet) (r t : Nat) (x : W64) : (sh.setV r t x).cycFrom = sh.cycFrom := rfl
@[simp] theorem Sheet.setV_issued (sh : Sheet) (r t : Nat) (x : W64) : (sh.setV r t x).issued = sh.issued := rfl
@[simp] theorem Sheet.setV_droop (sh : Sheet) (r t : Nat) (x : W64) : (sh.setV r t x).droop = sh.droop := rfl
@[simp] theorem Sheet.setV_drift (sh : Sheet) (r t : Nat) (x : W64) : (sh.setV r t x).drift = sh.drift := rfl
@[simp] theorem Sheet.setV_markArm (sh : Sheet) (r t : Nat) (x : W64) : (sh.setV r t x).markArm = sh.markArm := rfl
@[simp] theorem Sheet.setV_markLog (sh : Sheet) (r t : Nat) (x : W64) : (sh.setV r t x).markLog = sh.markLog := rfl
@[simp] theorem Sheet.setV_armed (sh : Sheet) (r t : Nat) (x : W64) : (sh.setV r t x).armed = sh.armed := rfl
@[simp] theorem Sheet.setV_shActive (sh : Sheet) (r t : Nat) (x : W64) : (sh.setV r t x).shActive = sh.shActive := rfl
@[simp] theorem Sheet.setV_shShadow (sh : Sheet) (r t : Nat) (x : W64) : (sh.setV r t x).shShadow = sh.shShadow := rfl
@[simp] theorem Sheet.setV_tileMap (sh : Sheet) (r t : Nat) (x : W64) : (sh.setV r t x).tileMap = sh.tileMap := rfl
@[simp] theorem Sheet.setV_queue (sh : Sheet) (r t : Nat) (x : W64) : (sh.setV r t x).queue = sh.queue := rfl
@[simp] theorem Sheet.setV_flow (sh : Sheet) (r t : Nat) (x : W64) : (sh.setV r t x).flow = sh.flow := rfl
@[simp] theorem Sheet.setV_fetch (sh : Sheet) (r t : Nat) (x : W64) : (sh.setV r t x).fetch = sh.fetch := rfl
@[simp] theorem Sheet.setV_held (sh : Sheet) (r t : Nat) (x : W64) : (sh.setV r t x).held = sh.held := rfl
@[simp] theorem Sheet.setV_issuing (sh : Sheet) (r t : Nat) (x : W64) : (sh.setV r t x).issuing = sh.issuing := rfl
@[simp] theorem Sheet.setV_wait (sh : Sheet) (r t : Nat) (x : W64) : (sh.setV r t x).wait = sh.wait := rfl
@[simp] theorem Sheet.setV_sys (sh : Sheet) (r t : Nat) (x : W64) : (sh.setV r t x).sys = sh.sys := rfl
@[simp] theorem Sheet.setV_arrivals (sh : Sheet) (r t : Nat) (x : W64) : (sh.setV r t x).arrivals = sh.arrivals := rfl
@[simp] theorem Sheet.setV_readySince (sh : Sheet) (r t : Nat) (x : W64) : (sh.setV r t x).readySince = sh.readySince := rfl
@[simp] theorem Sheet.setV_nextIssue (sh : Sheet) (r t : Nat) (x : W64) : (sh.setV r t x).nextIssue = sh.nextIssue := rfl
@[simp] theorem Sheet.setV_waitAt (sh : Sheet) (r t : Nat) (x : W64) : (sh.setV r t x).waitAt = sh.waitAt := rfl
@[simp] theorem Sheet.setV_watch (sh : Sheet) (r t : Nat) (x : W64) : (sh.setV r t x).watch = sh.watch := rfl
@[simp] theorem Sheet.setV_lastPc (sh : Sheet) (r t : Nat) (x : W64) : (sh.setV r t x).lastPc = sh.lastPc := rfl
@[simp] theorem Sheet.setV_trap (sh : Sheet) (r t : Nat) (x : W64) : (sh.setV r t x).trap = sh.trap := rfl
@[simp] theorem Sheet.setV_park (sh : Sheet) (r t : Nat) (x : W64) : (sh.setV r t x).park = sh.park := rfl
@[simp] theorem Sheet.setV_stopNext (sh : Sheet) (r t : Nat) (x : W64) : (sh.setV r t x).stopNext = sh.stopNext := rfl
@[simp] theorem Sheet.setV_lates (sh : Sheet) (r t : Nat) (x : W64) : (sh.setV r t x).lates = sh.lates := rfl
@[simp] theorem Sheet.setV_corrupt (sh : Sheet) (r t : Nat) (x : W64) : (sh.setV r t x).corrupt = sh.corrupt := rfl
@[simp] theorem Sheet.setV_nextId (sh : Sheet) (r t : Nat) (x : W64) : (sh.setV r t x).nextId = sh.nextId := rfl

/-! ## Sheet.setS -/

@[simp] theorem Sheet.setS_wg (sh : Sheet) (r : Nat) (x : W64) : (sh.setS r x).wg = sh.wg := rfl
@[simp] theorem Sheet.setS_num (sh : Sheet) (r : Nat) (x : W64) : (sh.setS r x).num = sh.num := rfl
@[simp] theorem Sheet.setS_width (sh : Sheet) (r : Nat) (x : W64) : (sh.setS r x).width = sh.width := rfl
@[simp] theorem Sheet.setS_pc (sh : Sheet) (r : Nat) (x : W64) : (sh.setS r x).pc = sh.pc := rfl
@[simp] theorem Sheet.setS_mask (sh : Sheet) (r : Nat) (x : W64) : (sh.setS r x).mask = sh.mask := rfl
@[simp] theorem Sheet.setS_rcv (sh : Sheet) (r : Nat) (x : W64) : (sh.setS r x).rcv = sh.rcv := rfl
@[simp] theorem Sheet.setS_stack (sh : Sheet) (r : Nat) (x : W64) : (sh.setS r x).stack = sh.stack := rfl
@[simp] theorem Sheet.setS_gone (sh : Sheet) (r : Nat) (x : W64) : (sh.setS r x).gone = sh.gone := rfl
@[simp] theorem Sheet.setS_v (sh : Sheet) (r : Nat) (x : W64) : (sh.setS r x).v = sh.v := rfl
@[simp] theorem Sheet.setS_p (sh : Sheet) (r : Nat) (x : W64) : (sh.setS r x).p = sh.p := rfl
@[simp] theorem Sheet.setS_ent (sh : Sheet) (r : Nat) (x : W64) : (sh.setS r x).ent = sh.ent := rfl
@[simp] theorem Sheet.setS_lat (sh : Sheet) (r : Nat) (x : W64) : (sh.setS r x).lat = sh.lat := rfl
@[simp] theorem Sheet.setS_flights (sh : Sheet) (r : Nat) (x : W64) : (sh.setS r x).flights = sh.flights := rfl
@[simp] theorem Sheet.setS_limm (sh : Sheet) (r : Nat) (x : W64) : (sh.setS r x).limm = sh.limm := rfl
@[simp] theorem Sheet.setS_nest (sh : Sheet) (r : Nat) (x : W64) : (sh.setS r x).nest = sh.nest := rfl
@[simp] theorem Sheet.setS_skip (sh : Sheet) (r : Nat) (x : W64) : (sh.setS r x).skip = sh.skip := rfl
@[simp] theorem Sheet.setS_fpsr (sh : Sheet) (r : Nat) (x : W64) : (sh.setS r x).fpsr = sh.fpsr := rfl
@[simp] theorem Sheet.setS_fpcr (sh : Sheet) (r : Nat) (x : W64) : (sh.setS r x).fpcr = sh.fpcr := rfl
@[simp] theorem Sheet.setS_cfeGdx (sh : Sheet) (r : Nat) (x : W64) : (sh.setS r x).cfeGdx = sh.cfeGdx := rfl
@[simp] theorem Sheet.setS_cfeSoft (sh : Sheet) (r : Nat) (x : W64) : (sh.setS r x).cfeSoft = sh.cfeSoft := rfl
@[simp] theorem Sheet.setS_xpAoff (sh : Sheet) (r : Nat) (x : W64) : (sh.setS r x).xpAoff = sh.xpAoff := rfl
@[simp] theorem Sheet.setS_xpPat (sh : Sheet) (r : Nat) (x : W64) : (sh.setS r x).xpPat = sh.xpPat := rfl
@[simp] theorem Sheet.setS_xp (sh : Sheet) (r : Nat) (x : W64) : (sh.setS r x).xp = sh.xp := rfl
@[simp] theorem Sheet.setS_skipst (sh : Sheet) (r : Nat) (x : W64) : (sh.setS r x).skipst = sh.skipst := rfl
@[simp] theorem Sheet.setS_cycAcc (sh : Sheet) (r : Nat) (x : W64) : (sh.setS r x).cycAcc = sh.cycAcc := rfl
@[simp] theorem Sheet.setS_cycFrom (sh : Sheet) (r : Nat) (x : W64) : (sh.setS r x).cycFrom = sh.cycFrom := rfl
@[simp] theorem Sheet.setS_issued (sh : Sheet) (r : Nat) (x : W64) : (sh.setS r x).issued = sh.issued := rfl
@[simp] theorem Sheet.setS_droop (sh : Sheet) (r : Nat) (x : W64) : (sh.setS r x).droop = sh.droop := rfl
@[simp] theorem Sheet.setS_drift (sh : Sheet) (r : Nat) (x : W64) : (sh.setS r x).drift = sh.drift := rfl
@[simp] theorem Sheet.setS_markArm (sh : Sheet) (r : Nat) (x : W64) : (sh.setS r x).markArm = sh.markArm := rfl
@[simp] theorem Sheet.setS_markLog (sh : Sheet) (r : Nat) (x : W64) : (sh.setS r x).markLog = sh.markLog := rfl
@[simp] theorem Sheet.setS_armed (sh : Sheet) (r : Nat) (x : W64) : (sh.setS r x).armed = sh.armed := rfl
@[simp] theorem Sheet.setS_shActive (sh : Sheet) (r : Nat) (x : W64) : (sh.setS r x).shActive = sh.shActive := rfl
@[simp] theorem Sheet.setS_shShadow (sh : Sheet) (r : Nat) (x : W64) : (sh.setS r x).shShadow = sh.shShadow := rfl
@[simp] theorem Sheet.setS_tileMap (sh : Sheet) (r : Nat) (x : W64) : (sh.setS r x).tileMap = sh.tileMap := rfl
@[simp] theorem Sheet.setS_queue (sh : Sheet) (r : Nat) (x : W64) : (sh.setS r x).queue = sh.queue := rfl
@[simp] theorem Sheet.setS_flow (sh : Sheet) (r : Nat) (x : W64) : (sh.setS r x).flow = sh.flow := rfl
@[simp] theorem Sheet.setS_fetch (sh : Sheet) (r : Nat) (x : W64) : (sh.setS r x).fetch = sh.fetch := rfl
@[simp] theorem Sheet.setS_held (sh : Sheet) (r : Nat) (x : W64) : (sh.setS r x).held = sh.held := rfl
@[simp] theorem Sheet.setS_issuing (sh : Sheet) (r : Nat) (x : W64) : (sh.setS r x).issuing = sh.issuing := rfl
@[simp] theorem Sheet.setS_wait (sh : Sheet) (r : Nat) (x : W64) : (sh.setS r x).wait = sh.wait := rfl
@[simp] theorem Sheet.setS_sys (sh : Sheet) (r : Nat) (x : W64) : (sh.setS r x).sys = sh.sys := rfl
@[simp] theorem Sheet.setS_arrivals (sh : Sheet) (r : Nat) (x : W64) : (sh.setS r x).arrivals = sh.arrivals := rfl
@[simp] theorem Sheet.setS_readySince (sh : Sheet) (r : Nat) (x : W64) : (sh.setS r x).readySince = sh.readySince := rfl
@[simp] theorem Sheet.setS_nextIssue (sh : Sheet) (r : Nat) (x : W64) : (sh.setS r x).nextIssue = sh.nextIssue := rfl
@[simp] theorem Sheet.setS_waitAt (sh : Sheet) (r : Nat) (x : W64) : (sh.setS r x).waitAt = sh.waitAt := rfl
@[simp] theorem Sheet.setS_watch (sh : Sheet) (r : Nat) (x : W64) : (sh.setS r x).watch = sh.watch := rfl
@[simp] theorem Sheet.setS_lastPc (sh : Sheet) (r : Nat) (x : W64) : (sh.setS r x).lastPc = sh.lastPc := rfl
@[simp] theorem Sheet.setS_trap (sh : Sheet) (r : Nat) (x : W64) : (sh.setS r x).trap = sh.trap := rfl
@[simp] theorem Sheet.setS_park (sh : Sheet) (r : Nat) (x : W64) : (sh.setS r x).park = sh.park := rfl
@[simp] theorem Sheet.setS_stopNext (sh : Sheet) (r : Nat) (x : W64) : (sh.setS r x).stopNext = sh.stopNext := rfl
@[simp] theorem Sheet.setS_lates (sh : Sheet) (r : Nat) (x : W64) : (sh.setS r x).lates = sh.lates := rfl
@[simp] theorem Sheet.setS_corrupt (sh : Sheet) (r : Nat) (x : W64) : (sh.setS r x).corrupt = sh.corrupt := rfl
@[simp] theorem Sheet.setS_nextId (sh : Sheet) (r : Nat) (x : W64) : (sh.setS r x).nextId = sh.nextId := rfl

/-! ## Sheet.setP -/

@[simp] theorem Sheet.setP_wg (sh : Sheet) (r t : Nat) (x : BitVec 2) : (sh.setP r t x).wg = sh.wg := rfl
@[simp] theorem Sheet.setP_num (sh : Sheet) (r t : Nat) (x : BitVec 2) : (sh.setP r t x).num = sh.num := rfl
@[simp] theorem Sheet.setP_width (sh : Sheet) (r t : Nat) (x : BitVec 2) : (sh.setP r t x).width = sh.width := rfl
@[simp] theorem Sheet.setP_pc (sh : Sheet) (r t : Nat) (x : BitVec 2) : (sh.setP r t x).pc = sh.pc := rfl
@[simp] theorem Sheet.setP_mask (sh : Sheet) (r t : Nat) (x : BitVec 2) : (sh.setP r t x).mask = sh.mask := rfl
@[simp] theorem Sheet.setP_rcv (sh : Sheet) (r t : Nat) (x : BitVec 2) : (sh.setP r t x).rcv = sh.rcv := rfl
@[simp] theorem Sheet.setP_stack (sh : Sheet) (r t : Nat) (x : BitVec 2) : (sh.setP r t x).stack = sh.stack := rfl
@[simp] theorem Sheet.setP_gone (sh : Sheet) (r t : Nat) (x : BitVec 2) : (sh.setP r t x).gone = sh.gone := rfl
@[simp] theorem Sheet.setP_v (sh : Sheet) (r t : Nat) (x : BitVec 2) : (sh.setP r t x).v = sh.v := rfl
@[simp] theorem Sheet.setP_s (sh : Sheet) (r t : Nat) (x : BitVec 2) : (sh.setP r t x).s = sh.s := rfl
@[simp] theorem Sheet.setP_ent (sh : Sheet) (r t : Nat) (x : BitVec 2) : (sh.setP r t x).ent = sh.ent := rfl
@[simp] theorem Sheet.setP_lat (sh : Sheet) (r t : Nat) (x : BitVec 2) : (sh.setP r t x).lat = sh.lat := rfl
@[simp] theorem Sheet.setP_flights (sh : Sheet) (r t : Nat) (x : BitVec 2) : (sh.setP r t x).flights = sh.flights := rfl
@[simp] theorem Sheet.setP_limm (sh : Sheet) (r t : Nat) (x : BitVec 2) : (sh.setP r t x).limm = sh.limm := rfl
@[simp] theorem Sheet.setP_nest (sh : Sheet) (r t : Nat) (x : BitVec 2) : (sh.setP r t x).nest = sh.nest := rfl
@[simp] theorem Sheet.setP_skip (sh : Sheet) (r t : Nat) (x : BitVec 2) : (sh.setP r t x).skip = sh.skip := rfl
@[simp] theorem Sheet.setP_fpsr (sh : Sheet) (r t : Nat) (x : BitVec 2) : (sh.setP r t x).fpsr = sh.fpsr := rfl
@[simp] theorem Sheet.setP_fpcr (sh : Sheet) (r t : Nat) (x : BitVec 2) : (sh.setP r t x).fpcr = sh.fpcr := rfl
@[simp] theorem Sheet.setP_cfeGdx (sh : Sheet) (r t : Nat) (x : BitVec 2) : (sh.setP r t x).cfeGdx = sh.cfeGdx := rfl
@[simp] theorem Sheet.setP_cfeSoft (sh : Sheet) (r t : Nat) (x : BitVec 2) : (sh.setP r t x).cfeSoft = sh.cfeSoft := rfl
@[simp] theorem Sheet.setP_xpAoff (sh : Sheet) (r t : Nat) (x : BitVec 2) : (sh.setP r t x).xpAoff = sh.xpAoff := rfl
@[simp] theorem Sheet.setP_xpPat (sh : Sheet) (r t : Nat) (x : BitVec 2) : (sh.setP r t x).xpPat = sh.xpPat := rfl
@[simp] theorem Sheet.setP_xp (sh : Sheet) (r t : Nat) (x : BitVec 2) : (sh.setP r t x).xp = sh.xp := rfl
@[simp] theorem Sheet.setP_skipst (sh : Sheet) (r t : Nat) (x : BitVec 2) : (sh.setP r t x).skipst = sh.skipst := rfl
@[simp] theorem Sheet.setP_cycAcc (sh : Sheet) (r t : Nat) (x : BitVec 2) : (sh.setP r t x).cycAcc = sh.cycAcc := rfl
@[simp] theorem Sheet.setP_cycFrom (sh : Sheet) (r t : Nat) (x : BitVec 2) : (sh.setP r t x).cycFrom = sh.cycFrom := rfl
@[simp] theorem Sheet.setP_issued (sh : Sheet) (r t : Nat) (x : BitVec 2) : (sh.setP r t x).issued = sh.issued := rfl
@[simp] theorem Sheet.setP_droop (sh : Sheet) (r t : Nat) (x : BitVec 2) : (sh.setP r t x).droop = sh.droop := rfl
@[simp] theorem Sheet.setP_drift (sh : Sheet) (r t : Nat) (x : BitVec 2) : (sh.setP r t x).drift = sh.drift := rfl
@[simp] theorem Sheet.setP_markArm (sh : Sheet) (r t : Nat) (x : BitVec 2) : (sh.setP r t x).markArm = sh.markArm := rfl
@[simp] theorem Sheet.setP_markLog (sh : Sheet) (r t : Nat) (x : BitVec 2) : (sh.setP r t x).markLog = sh.markLog := rfl
@[simp] theorem Sheet.setP_armed (sh : Sheet) (r t : Nat) (x : BitVec 2) : (sh.setP r t x).armed = sh.armed := rfl
@[simp] theorem Sheet.setP_shActive (sh : Sheet) (r t : Nat) (x : BitVec 2) : (sh.setP r t x).shActive = sh.shActive := rfl
@[simp] theorem Sheet.setP_shShadow (sh : Sheet) (r t : Nat) (x : BitVec 2) : (sh.setP r t x).shShadow = sh.shShadow := rfl
@[simp] theorem Sheet.setP_tileMap (sh : Sheet) (r t : Nat) (x : BitVec 2) : (sh.setP r t x).tileMap = sh.tileMap := rfl
@[simp] theorem Sheet.setP_queue (sh : Sheet) (r t : Nat) (x : BitVec 2) : (sh.setP r t x).queue = sh.queue := rfl
@[simp] theorem Sheet.setP_flow (sh : Sheet) (r t : Nat) (x : BitVec 2) : (sh.setP r t x).flow = sh.flow := rfl
@[simp] theorem Sheet.setP_fetch (sh : Sheet) (r t : Nat) (x : BitVec 2) : (sh.setP r t x).fetch = sh.fetch := rfl
@[simp] theorem Sheet.setP_held (sh : Sheet) (r t : Nat) (x : BitVec 2) : (sh.setP r t x).held = sh.held := rfl
@[simp] theorem Sheet.setP_issuing (sh : Sheet) (r t : Nat) (x : BitVec 2) : (sh.setP r t x).issuing = sh.issuing := rfl
@[simp] theorem Sheet.setP_wait (sh : Sheet) (r t : Nat) (x : BitVec 2) : (sh.setP r t x).wait = sh.wait := rfl
@[simp] theorem Sheet.setP_sys (sh : Sheet) (r t : Nat) (x : BitVec 2) : (sh.setP r t x).sys = sh.sys := rfl
@[simp] theorem Sheet.setP_arrivals (sh : Sheet) (r t : Nat) (x : BitVec 2) : (sh.setP r t x).arrivals = sh.arrivals := rfl
@[simp] theorem Sheet.setP_readySince (sh : Sheet) (r t : Nat) (x : BitVec 2) : (sh.setP r t x).readySince = sh.readySince := rfl
@[simp] theorem Sheet.setP_nextIssue (sh : Sheet) (r t : Nat) (x : BitVec 2) : (sh.setP r t x).nextIssue = sh.nextIssue := rfl
@[simp] theorem Sheet.setP_waitAt (sh : Sheet) (r t : Nat) (x : BitVec 2) : (sh.setP r t x).waitAt = sh.waitAt := rfl
@[simp] theorem Sheet.setP_watch (sh : Sheet) (r t : Nat) (x : BitVec 2) : (sh.setP r t x).watch = sh.watch := rfl
@[simp] theorem Sheet.setP_lastPc (sh : Sheet) (r t : Nat) (x : BitVec 2) : (sh.setP r t x).lastPc = sh.lastPc := rfl
@[simp] theorem Sheet.setP_trap (sh : Sheet) (r t : Nat) (x : BitVec 2) : (sh.setP r t x).trap = sh.trap := rfl
@[simp] theorem Sheet.setP_park (sh : Sheet) (r t : Nat) (x : BitVec 2) : (sh.setP r t x).park = sh.park := rfl
@[simp] theorem Sheet.setP_stopNext (sh : Sheet) (r t : Nat) (x : BitVec 2) : (sh.setP r t x).stopNext = sh.stopNext := rfl
@[simp] theorem Sheet.setP_lates (sh : Sheet) (r t : Nat) (x : BitVec 2) : (sh.setP r t x).lates = sh.lates := rfl
@[simp] theorem Sheet.setP_corrupt (sh : Sheet) (r t : Nat) (x : BitVec 2) : (sh.setP r t x).corrupt = sh.corrupt := rfl
@[simp] theorem Sheet.setP_nextId (sh : Sheet) (r t : Nat) (x : BitVec 2) : (sh.setP r t x).nextId = sh.nextId := rfl

/-! ## Sheet.setX -/

@[simp] theorem Sheet.setX_wg (sh : Sheet) (u : FUnit) (k t : Nat) (x : W64) : (sh.setX u k t x).wg = sh.wg := rfl
@[simp] theorem Sheet.setX_num (sh : Sheet) (u : FUnit) (k t : Nat) (x : W64) : (sh.setX u k t x).num = sh.num := rfl
@[simp] theorem Sheet.setX_width (sh : Sheet) (u : FUnit) (k t : Nat) (x : W64) : (sh.setX u k t x).width = sh.width := rfl
@[simp] theorem Sheet.setX_pc (sh : Sheet) (u : FUnit) (k t : Nat) (x : W64) : (sh.setX u k t x).pc = sh.pc := rfl
@[simp] theorem Sheet.setX_mask (sh : Sheet) (u : FUnit) (k t : Nat) (x : W64) : (sh.setX u k t x).mask = sh.mask := rfl
@[simp] theorem Sheet.setX_rcv (sh : Sheet) (u : FUnit) (k t : Nat) (x : W64) : (sh.setX u k t x).rcv = sh.rcv := rfl
@[simp] theorem Sheet.setX_stack (sh : Sheet) (u : FUnit) (k t : Nat) (x : W64) : (sh.setX u k t x).stack = sh.stack := rfl
@[simp] theorem Sheet.setX_gone (sh : Sheet) (u : FUnit) (k t : Nat) (x : W64) : (sh.setX u k t x).gone = sh.gone := rfl
@[simp] theorem Sheet.setX_v (sh : Sheet) (u : FUnit) (k t : Nat) (x : W64) : (sh.setX u k t x).v = sh.v := rfl
@[simp] theorem Sheet.setX_s (sh : Sheet) (u : FUnit) (k t : Nat) (x : W64) : (sh.setX u k t x).s = sh.s := rfl
@[simp] theorem Sheet.setX_p (sh : Sheet) (u : FUnit) (k t : Nat) (x : W64) : (sh.setX u k t x).p = sh.p := rfl
@[simp] theorem Sheet.setX_lat (sh : Sheet) (u : FUnit) (k t : Nat) (x : W64) : (sh.setX u k t x).lat = sh.lat := rfl
@[simp] theorem Sheet.setX_flights (sh : Sheet) (u : FUnit) (k t : Nat) (x : W64) : (sh.setX u k t x).flights = sh.flights := rfl
@[simp] theorem Sheet.setX_limm (sh : Sheet) (u : FUnit) (k t : Nat) (x : W64) : (sh.setX u k t x).limm = sh.limm := rfl
@[simp] theorem Sheet.setX_nest (sh : Sheet) (u : FUnit) (k t : Nat) (x : W64) : (sh.setX u k t x).nest = sh.nest := rfl
@[simp] theorem Sheet.setX_skip (sh : Sheet) (u : FUnit) (k t : Nat) (x : W64) : (sh.setX u k t x).skip = sh.skip := rfl
@[simp] theorem Sheet.setX_fpsr (sh : Sheet) (u : FUnit) (k t : Nat) (x : W64) : (sh.setX u k t x).fpsr = sh.fpsr := rfl
@[simp] theorem Sheet.setX_fpcr (sh : Sheet) (u : FUnit) (k t : Nat) (x : W64) : (sh.setX u k t x).fpcr = sh.fpcr := rfl
@[simp] theorem Sheet.setX_cfeGdx (sh : Sheet) (u : FUnit) (k t : Nat) (x : W64) : (sh.setX u k t x).cfeGdx = sh.cfeGdx := rfl
@[simp] theorem Sheet.setX_cfeSoft (sh : Sheet) (u : FUnit) (k t : Nat) (x : W64) : (sh.setX u k t x).cfeSoft = sh.cfeSoft := rfl
@[simp] theorem Sheet.setX_xpAoff (sh : Sheet) (u : FUnit) (k t : Nat) (x : W64) : (sh.setX u k t x).xpAoff = sh.xpAoff := rfl
@[simp] theorem Sheet.setX_xpPat (sh : Sheet) (u : FUnit) (k t : Nat) (x : W64) : (sh.setX u k t x).xpPat = sh.xpPat := rfl
@[simp] theorem Sheet.setX_xp (sh : Sheet) (u : FUnit) (k t : Nat) (x : W64) : (sh.setX u k t x).xp = sh.xp := rfl
@[simp] theorem Sheet.setX_skipst (sh : Sheet) (u : FUnit) (k t : Nat) (x : W64) : (sh.setX u k t x).skipst = sh.skipst := rfl
@[simp] theorem Sheet.setX_cycAcc (sh : Sheet) (u : FUnit) (k t : Nat) (x : W64) : (sh.setX u k t x).cycAcc = sh.cycAcc := rfl
@[simp] theorem Sheet.setX_cycFrom (sh : Sheet) (u : FUnit) (k t : Nat) (x : W64) : (sh.setX u k t x).cycFrom = sh.cycFrom := rfl
@[simp] theorem Sheet.setX_issued (sh : Sheet) (u : FUnit) (k t : Nat) (x : W64) : (sh.setX u k t x).issued = sh.issued := rfl
@[simp] theorem Sheet.setX_droop (sh : Sheet) (u : FUnit) (k t : Nat) (x : W64) : (sh.setX u k t x).droop = sh.droop := rfl
@[simp] theorem Sheet.setX_drift (sh : Sheet) (u : FUnit) (k t : Nat) (x : W64) : (sh.setX u k t x).drift = sh.drift := rfl
@[simp] theorem Sheet.setX_markArm (sh : Sheet) (u : FUnit) (k t : Nat) (x : W64) : (sh.setX u k t x).markArm = sh.markArm := rfl
@[simp] theorem Sheet.setX_markLog (sh : Sheet) (u : FUnit) (k t : Nat) (x : W64) : (sh.setX u k t x).markLog = sh.markLog := rfl
@[simp] theorem Sheet.setX_armed (sh : Sheet) (u : FUnit) (k t : Nat) (x : W64) : (sh.setX u k t x).armed = sh.armed := rfl
@[simp] theorem Sheet.setX_shActive (sh : Sheet) (u : FUnit) (k t : Nat) (x : W64) : (sh.setX u k t x).shActive = sh.shActive := rfl
@[simp] theorem Sheet.setX_shShadow (sh : Sheet) (u : FUnit) (k t : Nat) (x : W64) : (sh.setX u k t x).shShadow = sh.shShadow := rfl
@[simp] theorem Sheet.setX_tileMap (sh : Sheet) (u : FUnit) (k t : Nat) (x : W64) : (sh.setX u k t x).tileMap = sh.tileMap := rfl
@[simp] theorem Sheet.setX_queue (sh : Sheet) (u : FUnit) (k t : Nat) (x : W64) : (sh.setX u k t x).queue = sh.queue := rfl
@[simp] theorem Sheet.setX_flow (sh : Sheet) (u : FUnit) (k t : Nat) (x : W64) : (sh.setX u k t x).flow = sh.flow := rfl
@[simp] theorem Sheet.setX_fetch (sh : Sheet) (u : FUnit) (k t : Nat) (x : W64) : (sh.setX u k t x).fetch = sh.fetch := rfl
@[simp] theorem Sheet.setX_held (sh : Sheet) (u : FUnit) (k t : Nat) (x : W64) : (sh.setX u k t x).held = sh.held := rfl
@[simp] theorem Sheet.setX_issuing (sh : Sheet) (u : FUnit) (k t : Nat) (x : W64) : (sh.setX u k t x).issuing = sh.issuing := rfl
@[simp] theorem Sheet.setX_wait (sh : Sheet) (u : FUnit) (k t : Nat) (x : W64) : (sh.setX u k t x).wait = sh.wait := rfl
@[simp] theorem Sheet.setX_sys (sh : Sheet) (u : FUnit) (k t : Nat) (x : W64) : (sh.setX u k t x).sys = sh.sys := rfl
@[simp] theorem Sheet.setX_arrivals (sh : Sheet) (u : FUnit) (k t : Nat) (x : W64) : (sh.setX u k t x).arrivals = sh.arrivals := rfl
@[simp] theorem Sheet.setX_readySince (sh : Sheet) (u : FUnit) (k t : Nat) (x : W64) : (sh.setX u k t x).readySince = sh.readySince := rfl
@[simp] theorem Sheet.setX_nextIssue (sh : Sheet) (u : FUnit) (k t : Nat) (x : W64) : (sh.setX u k t x).nextIssue = sh.nextIssue := rfl
@[simp] theorem Sheet.setX_waitAt (sh : Sheet) (u : FUnit) (k t : Nat) (x : W64) : (sh.setX u k t x).waitAt = sh.waitAt := rfl
@[simp] theorem Sheet.setX_watch (sh : Sheet) (u : FUnit) (k t : Nat) (x : W64) : (sh.setX u k t x).watch = sh.watch := rfl
@[simp] theorem Sheet.setX_lastPc (sh : Sheet) (u : FUnit) (k t : Nat) (x : W64) : (sh.setX u k t x).lastPc = sh.lastPc := rfl
@[simp] theorem Sheet.setX_trap (sh : Sheet) (u : FUnit) (k t : Nat) (x : W64) : (sh.setX u k t x).trap = sh.trap := rfl
@[simp] theorem Sheet.setX_park (sh : Sheet) (u : FUnit) (k t : Nat) (x : W64) : (sh.setX u k t x).park = sh.park := rfl
@[simp] theorem Sheet.setX_stopNext (sh : Sheet) (u : FUnit) (k t : Nat) (x : W64) : (sh.setX u k t x).stopNext = sh.stopNext := rfl
@[simp] theorem Sheet.setX_lates (sh : Sheet) (u : FUnit) (k t : Nat) (x : W64) : (sh.setX u k t x).lates = sh.lates := rfl
@[simp] theorem Sheet.setX_corrupt (sh : Sheet) (u : FUnit) (k t : Nat) (x : W64) : (sh.setX u k t x).corrupt = sh.corrupt := rfl
@[simp] theorem Sheet.setX_nextId (sh : Sheet) (u : FUnit) (k t : Nat) (x : W64) : (sh.setX u k t x).nextId = sh.nextId := rfl

/-! ## Sheet.setQ -/

@[simp] theorem Sheet.setQ_wg (sh : Sheet) (u : FUnit) (k t : Nat) (x : W64) : (sh.setQ u k t x).wg = sh.wg := rfl
@[simp] theorem Sheet.setQ_num (sh : Sheet) (u : FUnit) (k t : Nat) (x : W64) : (sh.setQ u k t x).num = sh.num := rfl
@[simp] theorem Sheet.setQ_width (sh : Sheet) (u : FUnit) (k t : Nat) (x : W64) : (sh.setQ u k t x).width = sh.width := rfl
@[simp] theorem Sheet.setQ_pc (sh : Sheet) (u : FUnit) (k t : Nat) (x : W64) : (sh.setQ u k t x).pc = sh.pc := rfl
@[simp] theorem Sheet.setQ_mask (sh : Sheet) (u : FUnit) (k t : Nat) (x : W64) : (sh.setQ u k t x).mask = sh.mask := rfl
@[simp] theorem Sheet.setQ_rcv (sh : Sheet) (u : FUnit) (k t : Nat) (x : W64) : (sh.setQ u k t x).rcv = sh.rcv := rfl
@[simp] theorem Sheet.setQ_stack (sh : Sheet) (u : FUnit) (k t : Nat) (x : W64) : (sh.setQ u k t x).stack = sh.stack := rfl
@[simp] theorem Sheet.setQ_gone (sh : Sheet) (u : FUnit) (k t : Nat) (x : W64) : (sh.setQ u k t x).gone = sh.gone := rfl
@[simp] theorem Sheet.setQ_v (sh : Sheet) (u : FUnit) (k t : Nat) (x : W64) : (sh.setQ u k t x).v = sh.v := rfl
@[simp] theorem Sheet.setQ_s (sh : Sheet) (u : FUnit) (k t : Nat) (x : W64) : (sh.setQ u k t x).s = sh.s := rfl
@[simp] theorem Sheet.setQ_p (sh : Sheet) (u : FUnit) (k t : Nat) (x : W64) : (sh.setQ u k t x).p = sh.p := rfl
@[simp] theorem Sheet.setQ_ent (sh : Sheet) (u : FUnit) (k t : Nat) (x : W64) : (sh.setQ u k t x).ent = sh.ent := rfl
@[simp] theorem Sheet.setQ_flights (sh : Sheet) (u : FUnit) (k t : Nat) (x : W64) : (sh.setQ u k t x).flights = sh.flights := rfl
@[simp] theorem Sheet.setQ_limm (sh : Sheet) (u : FUnit) (k t : Nat) (x : W64) : (sh.setQ u k t x).limm = sh.limm := rfl
@[simp] theorem Sheet.setQ_nest (sh : Sheet) (u : FUnit) (k t : Nat) (x : W64) : (sh.setQ u k t x).nest = sh.nest := rfl
@[simp] theorem Sheet.setQ_skip (sh : Sheet) (u : FUnit) (k t : Nat) (x : W64) : (sh.setQ u k t x).skip = sh.skip := rfl
@[simp] theorem Sheet.setQ_fpsr (sh : Sheet) (u : FUnit) (k t : Nat) (x : W64) : (sh.setQ u k t x).fpsr = sh.fpsr := rfl
@[simp] theorem Sheet.setQ_fpcr (sh : Sheet) (u : FUnit) (k t : Nat) (x : W64) : (sh.setQ u k t x).fpcr = sh.fpcr := rfl
@[simp] theorem Sheet.setQ_cfeGdx (sh : Sheet) (u : FUnit) (k t : Nat) (x : W64) : (sh.setQ u k t x).cfeGdx = sh.cfeGdx := rfl
@[simp] theorem Sheet.setQ_cfeSoft (sh : Sheet) (u : FUnit) (k t : Nat) (x : W64) : (sh.setQ u k t x).cfeSoft = sh.cfeSoft := rfl
@[simp] theorem Sheet.setQ_xpAoff (sh : Sheet) (u : FUnit) (k t : Nat) (x : W64) : (sh.setQ u k t x).xpAoff = sh.xpAoff := rfl
@[simp] theorem Sheet.setQ_xpPat (sh : Sheet) (u : FUnit) (k t : Nat) (x : W64) : (sh.setQ u k t x).xpPat = sh.xpPat := rfl
@[simp] theorem Sheet.setQ_xp (sh : Sheet) (u : FUnit) (k t : Nat) (x : W64) : (sh.setQ u k t x).xp = sh.xp := rfl
@[simp] theorem Sheet.setQ_skipst (sh : Sheet) (u : FUnit) (k t : Nat) (x : W64) : (sh.setQ u k t x).skipst = sh.skipst := rfl
@[simp] theorem Sheet.setQ_cycAcc (sh : Sheet) (u : FUnit) (k t : Nat) (x : W64) : (sh.setQ u k t x).cycAcc = sh.cycAcc := rfl
@[simp] theorem Sheet.setQ_cycFrom (sh : Sheet) (u : FUnit) (k t : Nat) (x : W64) : (sh.setQ u k t x).cycFrom = sh.cycFrom := rfl
@[simp] theorem Sheet.setQ_issued (sh : Sheet) (u : FUnit) (k t : Nat) (x : W64) : (sh.setQ u k t x).issued = sh.issued := rfl
@[simp] theorem Sheet.setQ_droop (sh : Sheet) (u : FUnit) (k t : Nat) (x : W64) : (sh.setQ u k t x).droop = sh.droop := rfl
@[simp] theorem Sheet.setQ_drift (sh : Sheet) (u : FUnit) (k t : Nat) (x : W64) : (sh.setQ u k t x).drift = sh.drift := rfl
@[simp] theorem Sheet.setQ_markArm (sh : Sheet) (u : FUnit) (k t : Nat) (x : W64) : (sh.setQ u k t x).markArm = sh.markArm := rfl
@[simp] theorem Sheet.setQ_markLog (sh : Sheet) (u : FUnit) (k t : Nat) (x : W64) : (sh.setQ u k t x).markLog = sh.markLog := rfl
@[simp] theorem Sheet.setQ_armed (sh : Sheet) (u : FUnit) (k t : Nat) (x : W64) : (sh.setQ u k t x).armed = sh.armed := rfl
@[simp] theorem Sheet.setQ_shActive (sh : Sheet) (u : FUnit) (k t : Nat) (x : W64) : (sh.setQ u k t x).shActive = sh.shActive := rfl
@[simp] theorem Sheet.setQ_shShadow (sh : Sheet) (u : FUnit) (k t : Nat) (x : W64) : (sh.setQ u k t x).shShadow = sh.shShadow := rfl
@[simp] theorem Sheet.setQ_tileMap (sh : Sheet) (u : FUnit) (k t : Nat) (x : W64) : (sh.setQ u k t x).tileMap = sh.tileMap := rfl
@[simp] theorem Sheet.setQ_queue (sh : Sheet) (u : FUnit) (k t : Nat) (x : W64) : (sh.setQ u k t x).queue = sh.queue := rfl
@[simp] theorem Sheet.setQ_flow (sh : Sheet) (u : FUnit) (k t : Nat) (x : W64) : (sh.setQ u k t x).flow = sh.flow := rfl
@[simp] theorem Sheet.setQ_fetch (sh : Sheet) (u : FUnit) (k t : Nat) (x : W64) : (sh.setQ u k t x).fetch = sh.fetch := rfl
@[simp] theorem Sheet.setQ_held (sh : Sheet) (u : FUnit) (k t : Nat) (x : W64) : (sh.setQ u k t x).held = sh.held := rfl
@[simp] theorem Sheet.setQ_issuing (sh : Sheet) (u : FUnit) (k t : Nat) (x : W64) : (sh.setQ u k t x).issuing = sh.issuing := rfl
@[simp] theorem Sheet.setQ_wait (sh : Sheet) (u : FUnit) (k t : Nat) (x : W64) : (sh.setQ u k t x).wait = sh.wait := rfl
@[simp] theorem Sheet.setQ_sys (sh : Sheet) (u : FUnit) (k t : Nat) (x : W64) : (sh.setQ u k t x).sys = sh.sys := rfl
@[simp] theorem Sheet.setQ_arrivals (sh : Sheet) (u : FUnit) (k t : Nat) (x : W64) : (sh.setQ u k t x).arrivals = sh.arrivals := rfl
@[simp] theorem Sheet.setQ_readySince (sh : Sheet) (u : FUnit) (k t : Nat) (x : W64) : (sh.setQ u k t x).readySince = sh.readySince := rfl
@[simp] theorem Sheet.setQ_nextIssue (sh : Sheet) (u : FUnit) (k t : Nat) (x : W64) : (sh.setQ u k t x).nextIssue = sh.nextIssue := rfl
@[simp] theorem Sheet.setQ_waitAt (sh : Sheet) (u : FUnit) (k t : Nat) (x : W64) : (sh.setQ u k t x).waitAt = sh.waitAt := rfl
@[simp] theorem Sheet.setQ_watch (sh : Sheet) (u : FUnit) (k t : Nat) (x : W64) : (sh.setQ u k t x).watch = sh.watch := rfl
@[simp] theorem Sheet.setQ_lastPc (sh : Sheet) (u : FUnit) (k t : Nat) (x : W64) : (sh.setQ u k t x).lastPc = sh.lastPc := rfl
@[simp] theorem Sheet.setQ_trap (sh : Sheet) (u : FUnit) (k t : Nat) (x : W64) : (sh.setQ u k t x).trap = sh.trap := rfl
@[simp] theorem Sheet.setQ_park (sh : Sheet) (u : FUnit) (k t : Nat) (x : W64) : (sh.setQ u k t x).park = sh.park := rfl
@[simp] theorem Sheet.setQ_stopNext (sh : Sheet) (u : FUnit) (k t : Nat) (x : W64) : (sh.setQ u k t x).stopNext = sh.stopNext := rfl
@[simp] theorem Sheet.setQ_lates (sh : Sheet) (u : FUnit) (k t : Nat) (x : W64) : (sh.setQ u k t x).lates = sh.lates := rfl
@[simp] theorem Sheet.setQ_corrupt (sh : Sheet) (u : FUnit) (k t : Nat) (x : W64) : (sh.setQ u k t x).corrupt = sh.corrupt := rfl
@[simp] theorem Sheet.setQ_nextId (sh : Sheet) (u : FUnit) (k t : Nat) (x : W64) : (sh.setQ u k t x).nextId = sh.nextId := rfl

/-! ## Events (R328) -/

@[simp] theorem State.event_ts (s : State) (a b c d e k : Nat) : (s.event a b c d e k).ts = s.ts := by
  unfold State.event; dsimp only; split <;> rfl
@[simp] theorem State.sheetEvent_ts (s : State) (a : Nat) (sh : Sheet) (d e k : Nat) : (s.sheetEvent a sh d e k).ts = s.ts :=
  State.event_ts ..
@[simp] theorem State.event_sheets (s : State) (a b c d e k : Nat) : (s.event a b c d e k).sheets = s.sheets := by
  unfold State.event; dsimp only; split <;> rfl
@[simp] theorem State.sheetEvent_sheets (s : State) (a : Nat) (sh : Sheet) (d e k : Nat) : (s.sheetEvent a sh d e k).sheets = s.sheets :=
  State.event_sheets ..
@[simp] theorem State.event_wgs (s : State) (a b c d e k : Nat) : (s.event a b c d e k).wgs = s.wgs := by
  unfold State.event; dsimp only; split <;> rfl
@[simp] theorem State.sheetEvent_wgs (s : State) (a : Nat) (sh : Sheet) (d e k : Nat) : (s.sheetEvent a sh d e k).wgs = s.wgs :=
  State.event_wgs ..
@[simp] theorem State.event_nextWg (s : State) (a b c d e k : Nat) : (s.event a b c d e k).nextWg = s.nextWg := by
  unfold State.event; dsimp only; split <;> rfl
@[simp] theorem State.sheetEvent_nextWg (s : State) (a : Nat) (sh : Sheet) (d e k : Nat) : (s.sheetEvent a sh d e k).nextWg = s.nextWg :=
  State.event_nextWg ..
@[simp] theorem State.event_cores (s : State) (a b c d e k : Nat) : (s.event a b c d e k).cores = s.cores := by
  unfold State.event; dsimp only; split <;> rfl
@[simp] theorem State.sheetEvent_cores (s : State) (a : Nat) (sh : Sheet) (d e k : Nat) : (s.sheetEvent a sh d e k).cores = s.cores :=
  State.event_cores ..
@[simp] theorem State.event_clusters (s : State) (a b c d e k : Nat) : (s.event a b c d e k).clusters = s.clusters := by
  unfold State.event; dsimp only; split <;> rfl
@[simp] theorem State.sheetEvent_clusters (s : State) (a : Nat) (sh : Sheet) (d e k : Nat) : (s.sheetEvent a sh d e k).clusters = s.clusters :=
  State.event_clusters ..
@[simp] theorem State.event_dies (s : State) (a b c d e k : Nat) : (s.event a b c d e k).dies = s.dies := by
  unfold State.event; dsimp only; split <;> rfl
@[simp] theorem State.sheetEvent_dies (s : State) (a : Nat) (sh : Sheet) (d e k : Nat) : (s.sheetEvent a sh d e k).dies = s.dies :=
  State.event_dies ..
@[simp] theorem State.event_rails (s : State) (a b c d e k : Nat) : (s.event a b c d e k).rails = s.rails := by
  unfold State.event; dsimp only; split <;> rfl
@[simp] theorem State.sheetEvent_rails (s : State) (a : Nat) (sh : Sheet) (d e k : Nat) : (s.sheetEvent a sh d e k).rails = s.rails :=
  State.event_rails ..
@[simp] theorem State.event_vfs (s : State) (a b c d e k : Nat) : (s.event a b c d e k).vfs = s.vfs := by
  unfold State.event; dsimp only; split <;> rfl
@[simp] theorem State.sheetEvent_vfs (s : State) (a : Nat) (sh : Sheet) (d e k : Nat) : (s.sheetEvent a sh d e k).vfs = s.vfs :=
  State.event_vfs ..
@[simp] theorem State.event_grids (s : State) (a b c d e k : Nat) : (s.event a b c d e k).grids = s.grids := by
  unfold State.event; dsimp only; split <;> rfl
@[simp] theorem State.sheetEvent_grids (s : State) (a : Nat) (sh : Sheet) (d e k : Nat) : (s.sheetEvent a sh d e k).grids = s.grids :=
  State.event_grids ..
@[simp] theorem State.event_nextGrid (s : State) (a b c d e k : Nat) : (s.event a b c d e k).nextGrid = s.nextGrid := by
  unfold State.event; dsimp only; split <;> rfl
@[simp] theorem State.sheetEvent_nextGrid (s : State) (a : Nat) (sh : Sheet) (d e k : Nat) : (s.sheetEvent a sh d e k).nextGrid = s.nextGrid :=
  State.event_nextGrid ..
@[simp] theorem State.event_lqueue (s : State) (a b c d e k : Nat) : (s.event a b c d e k).lqueue = s.lqueue := by
  unfold State.event; dsimp only; split <;> rfl
@[simp] theorem State.sheetEvent_lqueue (s : State) (a : Nat) (sh : Sheet) (d e k : Nat) : (s.sheetEvent a sh d e k).lqueue = s.lqueue :=
  State.event_lqueue ..
@[simp] theorem State.event_turn (s : State) (a b c d e k : Nat) : (s.event a b c d e k).turn = s.turn := by
  unfold State.event; dsimp only; split <;> rfl
@[simp] theorem State.sheetEvent_turn (s : State) (a : Nat) (sh : Sheet) (d e k : Nat) : (s.sheetEvent a sh d e k).turn = s.turn :=
  State.event_turn ..
@[simp] theorem State.event_mem (s : State) (a b c d e k : Nat) : (s.event a b c d e k).mem = s.mem := by
  unfold State.event; dsimp only; split <;> rfl
@[simp] theorem State.sheetEvent_mem (s : State) (a : Nat) (sh : Sheet) (d e k : Nat) : (s.sheetEvent a sh d e k).mem = s.mem :=
  State.event_mem ..
@[simp] theorem State.event_reg (s : State) (a b c d e k : Nat) : (s.event a b c d e k).reg = s.reg := by
  unfold State.event; dsimp only; split <;> rfl
@[simp] theorem State.sheetEvent_reg (s : State) (a : Nat) (sh : Sheet) (d e k : Nat) : (s.sheetEvent a sh d e k).reg = s.reg :=
  State.event_reg ..
@[simp] theorem State.event_homeq (s : State) (a b c d e k : Nat) : (s.event a b c d e k).homeq = s.homeq := by
  unfold State.event; dsimp only; split <;> rfl
@[simp] theorem State.sheetEvent_homeq (s : State) (a : Nat) (sh : Sheet) (d e k : Nat) : (s.sheetEvent a sh d e k).homeq = s.homeq :=
  State.event_homeq ..
@[simp] theorem State.event_l2 (s : State) (a b c d e k : Nat) : (s.event a b c d e k).l2 = s.l2 := by
  unfold State.event; dsimp only; split <;> rfl
@[simp] theorem State.sheetEvent_l2 (s : State) (a : Nat) (sh : Sheet) (d e k : Nat) : (s.sheetEvent a sh d e k).l2 = s.l2 :=
  State.event_l2 ..
@[simp] theorem State.event_pinned (s : State) (a b c d e k : Nat) : (s.event a b c d e k).pinned = s.pinned := by
  unfold State.event; dsimp only; split <;> rfl
@[simp] theorem State.sheetEvent_pinned (s : State) (a : Nat) (sh : Sheet) (d e k : Nat) : (s.sheetEvent a sh d e k).pinned = s.pinned :=
  State.event_pinned ..
@[simp] theorem State.event_poisoned (s : State) (a b c d e k : Nat) : (s.event a b c d e k).poisoned = s.poisoned := by
  unfold State.event; dsimp only; split <;> rfl
@[simp] theorem State.sheetEvent_poisoned (s : State) (a : Nat) (sh : Sheet) (d e k : Nat) : (s.sheetEvent a sh d e k).poisoned = s.poisoned :=
  State.event_poisoned ..
@[simp] theorem State.event_launches (s : State) (a b c d e k : Nat) : (s.event a b c d e k).launches = s.launches := by
  unfold State.event; dsimp only; split <;> rfl
@[simp] theorem State.sheetEvent_launches (s : State) (a : Nat) (sh : Sheet) (d e k : Nat) : (s.sheetEvent a sh d e k).launches = s.launches :=
  State.event_launches ..
@[simp] theorem State.event_batches (s : State) (a b c d e k : Nat) : (s.event a b c d e k).batches = s.batches := by
  unfold State.event; dsimp only; split <;> rfl
@[simp] theorem State.sheetEvent_batches (s : State) (a : Nat) (sh : Sheet) (d e k : Nat) : (s.sheetEvent a sh d e k).batches = s.batches :=
  State.event_batches ..
@[simp] theorem State.event_refusedPages (s : State) (a b c d e k : Nat) : (s.event a b c d e k).refusedPages = s.refusedPages := by
  unfold State.event; dsimp only; split <;> rfl
@[simp] theorem State.sheetEvent_refusedPages (s : State) (a : Nat) (sh : Sheet) (d e k : Nat) : (s.sheetEvent a sh d e k).refusedPages = s.refusedPages :=
  State.event_refusedPages ..
@[simp] theorem State.event_spawns (s : State) (a b c d e k : Nat) : (s.event a b c d e k).spawns = s.spawns := by
  unfold State.event; dsimp only; split <;> rfl
@[simp] theorem State.sheetEvent_spawns (s : State) (a : Nat) (sh : Sheet) (d e k : Nat) : (s.sheetEvent a sh d e k).spawns = s.spawns :=
  State.event_spawns ..
@[simp] theorem State.event_arrivals (s : State) (a b c d e k : Nat) : (s.event a b c d e k).arrivals = s.arrivals := by
  unfold State.event; dsimp only; split <;> rfl
@[simp] theorem State.sheetEvent_arrivals (s : State) (a : Nat) (sh : Sheet) (d e k : Nat) : (s.sheetEvent a sh d e k).arrivals = s.arrivals :=
  State.event_arrivals ..
@[simp] theorem State.event_peerReqs (s : State) (a b c d e k : Nat) : (s.event a b c d e k).peerReqs = s.peerReqs := by
  unfold State.event; dsimp only; split <;> rfl
@[simp] theorem State.sheetEvent_peerReqs (s : State) (a : Nat) (sh : Sheet) (d e k : Nat) : (s.sheetEvent a sh d e k).peerReqs = s.peerReqs :=
  State.event_peerReqs ..
@[simp] theorem State.event_rounds (s : State) (a b c d e k : Nat) : (s.event a b c d e k).rounds = s.rounds := by
  unfold State.event; dsimp only; split <;> rfl
@[simp] theorem State.sheetEvent_rounds (s : State) (a : Nat) (sh : Sheet) (d e k : Nat) : (s.sheetEvent a sh d e k).rounds = s.rounds :=
  State.event_rounds ..
@[simp] theorem State.event_roundArrivals (s : State) (a b c d e k : Nat) : (s.event a b c d e k).roundArrivals = s.roundArrivals := by
  unfold State.event; dsimp only; split <;> rfl
@[simp] theorem State.sheetEvent_roundArrivals (s : State) (a : Nat) (sh : Sheet) (d e k : Nat) : (s.sheetEvent a sh d e k).roundArrivals = s.roundArrivals :=
  State.event_roundArrivals ..
@[simp] theorem State.event_policies (s : State) (a b c d e k : Nat) : (s.event a b c d e k).policies = s.policies := by
  unfold State.event; dsimp only; split <;> rfl
@[simp] theorem State.sheetEvent_policies (s : State) (a : Nat) (sh : Sheet) (d e k : Nat) : (s.sheetEvent a sh d e k).policies = s.policies :=
  State.event_policies ..
@[simp] theorem State.event_nextPolicy (s : State) (a b c d e k : Nat) : (s.event a b c d e k).nextPolicy = s.nextPolicy := by
  unfold State.event; dsimp only; split <;> rfl
@[simp] theorem State.sheetEvent_nextPolicy (s : State) (a : Nat) (sh : Sheet) (d e k : Nat) : (s.sheetEvent a sh d e k).nextPolicy = s.nextPolicy :=
  State.event_nextPolicy ..
@[simp] theorem State.event_channels (s : State) (a b c d e k : Nat) : (s.event a b c d e k).channels = s.channels := by
  unfold State.event; dsimp only; split <;> rfl
@[simp] theorem State.sheetEvent_channels (s : State) (a : Nat) (sh : Sheet) (d e k : Nat) : (s.sheetEvent a sh d e k).channels = s.channels :=
  State.event_channels ..
@[simp] theorem State.event_enga (s : State) (a b c d e k : Nat) : (s.event a b c d e k).enga = s.enga := by
  unfold State.event; dsimp only; split <;> rfl
@[simp] theorem State.sheetEvent_enga (s : State) (a : Nat) (sh : Sheet) (d e k : Nat) : (s.sheetEvent a sh d e k).enga = s.enga :=
  State.event_enga ..
@[simp] theorem State.event_budgetNext (s : State) (a b c d e k : Nat) : (s.event a b c d e k).budgetNext = s.budgetNext := by
  unfold State.event; dsimp only; split <;> rfl
@[simp] theorem State.sheetEvent_budgetNext (s : State) (a : Nat) (sh : Sheet) (d e k : Nat) : (s.sheetEvent a sh d e k).budgetNext = s.budgetNext :=
  State.event_budgetNext ..
@[simp] theorem State.event_sems (s : State) (a b c d e k : Nat) : (s.event a b c d e k).sems = s.sems := by
  unfold State.event; dsimp only; split <;> rfl
@[simp] theorem State.sheetEvent_sems (s : State) (a : Nat) (sh : Sheet) (d e k : Nat) : (s.sheetEvent a sh d e k).sems = s.sems :=
  State.event_sems ..
@[simp] theorem State.event_tieLoser (s : State) (a b c d e k : Nat) : (s.event a b c d e k).tieLoser = s.tieLoser := by
  unfold State.event; dsimp only; split <;> rfl
@[simp] theorem State.sheetEvent_tieLoser (s : State) (a : Nat) (sh : Sheet) (d e k : Nat) : (s.sheetEvent a sh d e k).tieLoser = s.tieLoser :=
  State.event_tieLoser ..
@[simp] theorem State.event_hpcap (s : State) (a b c d e k : Nat) : (s.event a b c d e k).hpcap = s.hpcap := by
  unfold State.event; dsimp only; split <;> rfl
@[simp] theorem State.sheetEvent_hpcap (s : State) (a : Nat) (sh : Sheet) (d e k : Nat) : (s.sheetEvent a sh d e k).hpcap = s.hpcap :=
  State.event_hpcap ..
@[simp] theorem State.event_deviceNo (s : State) (a b c d e k : Nat) : (s.event a b c d e k).deviceNo = s.deviceNo := by
  unfold State.event; dsimp only; split <;> rfl
@[simp] theorem State.sheetEvent_deviceNo (s : State) (a : Nat) (sh : Sheet) (d e k : Nat) : (s.sheetEvent a sh d e k).deviceNo = s.deviceNo :=
  State.event_deviceNo ..
@[simp] theorem State.event_routes (s : State) (a b c d e k : Nat) : (s.event a b c d e k).routes = s.routes := by
  unfold State.event; dsimp only; split <;> rfl
@[simp] theorem State.sheetEvent_routes (s : State) (a : Nat) (sh : Sheet) (d e k : Nat) : (s.sheetEvent a sh d e k).routes = s.routes :=
  State.event_routes ..
@[simp] theorem State.event_linksDown (s : State) (a b c d e k : Nat) : (s.event a b c d e k).linksDown = s.linksDown := by
  unfold State.event; dsimp only; split <;> rfl
@[simp] theorem State.sheetEvent_linksDown (s : State) (a : Nat) (sh : Sheet) (d e k : Nat) : (s.sheetEvent a sh d e k).linksDown = s.linksDown :=
  State.event_linksDown ..
@[simp] theorem State.event_focus (s : State) (a b c d e k : Nat) : (s.event a b c d e k).focus = s.focus := by
  unfold State.event; dsimp only; split <;> rfl
@[simp] theorem State.sheetEvent_focus (s : State) (a : Nat) (sh : Sheet) (d e k : Nat) : (s.sheetEvent a sh d e k).focus = s.focus :=
  State.event_focus ..
@[simp] theorem State.event_freeCtr (s : State) (a b c d e k : Nat) : (s.event a b c d e k).freeCtr = s.freeCtr := by
  unfold State.event; dsimp only; split <;> rfl
@[simp] theorem State.sheetEvent_freeCtr (s : State) (a : Nat) (sh : Sheet) (d e k : Nat) : (s.sheetEvent a sh d e k).freeCtr = s.freeCtr :=
  State.event_freeCtr ..
@[simp] theorem State.event_reply (s : State) (a b c d e k : Nat) : (s.event a b c d e k).reply = s.reply := by
  unfold State.event; dsimp only; split <;> rfl
@[simp] theorem State.sheetEvent_reply (s : State) (a : Nat) (sh : Sheet) (d e k : Nat) : (s.sheetEvent a sh d e k).reply = s.reply :=
  State.event_reply ..

end Sys2Proof.Machine
end

