-- ==== Sys2Proof/Laws/Issue.lean ====
section
/-! SUPPORT. An operation alone: what its issue does, in terms of its effect (R64), and what it leaves of the state. -/

namespace Sys2Proof.Machine

theorem landGo_frame (p : Flight → Bool) : ∀ (l : List Flight) (b : List (FUnit × Nat)) (sh : Sheet) (k : List Flight),
    ∃ f lat, landGo p l b sh k = { sh with flights := f, lat := lat } := by
  intro l
  induction l with
  | nil => intro b sh k; exact ⟨_, _, rfl⟩
  | cons a r ih =>
    intro b sh k
    unfold landGo
    split
    · obtain ⟨f, lat, h⟩ := ih b (sh.deliver a.unit a.thread a.q a.w) k
      refine ⟨f, lat, ?_⟩
      rw [h]
      unfold Sheet.deliver
      cases a.q <;> cases a.w <;> rfl
    · exact ih _ _ _

theorem landWhere_frame (sh : Sheet) (p : Flight → Bool) : ∃ f lat, sh.landWhere p = { sh with flights := f, lat := lat } :=
  landGo_frame _ _ _ _ _

/-- What the landing before an issue leaves of a sheet. -/
theorem atIssue_frame (sh : Sheet) (c : Nat → Nat) : ∃ f lat, sh.atIssue c = { sh with flights := f, lat := lat, wait := .none, sys := .none } := by
  unfold Sheet.atIssue
  obtain ⟨f, lat, h⟩ := landWhere_frame sh (fun f => f.stalling || decide (f.due ≤ c (f.thread / 32)))
  rw [h]
  unfold Sheet.endWait
  split
  · next id hw =>
    unfold Sheet.fill Sheet.landStalling
    obtain ⟨f', lat', h'⟩ := landWhere_frame { { sh with flights := f, lat := lat } with flights := f.map (fun (f : Flight) => if f.id = id then { f with q := some 0, w := none, ready := true } else f) } (fun f => f.stalling)
    exact ⟨f', lat', by simp only at h' ⊢; rw [h']⟩
  · exact ⟨_, _, rfl⟩

theorem lookup_map_val {α β : Type} (m : SMap α) (f : Nat × α → Nat × β) (g : α → β) (h : ∀ e ∈ m, f e = (e.1, g e.2)) (k : Nat) :
    lookup (m.map f) k = (lookup m k).map g := by
  induction m with
  | nil => rfl
  | cons e r ih =>
    obtain ⟨a, v⟩ := e
    have h0 := h (a, v) (by simp)
    simp only [List.map_cons, h0, lookup]
    split
    · rfl
    · exact ih (fun e he => h e (List.mem_cons_of_mem _ he))

/-- The sheets when a bundle of a workgroup issues: CYCLE may have begun to count. -/
theorem startCycles_sheet? (s : State) (wg c k : Nat) : (startCycles s wg c).sheet? k =
    (s.sheet? k).map (fun sh => if sh.wg = wg ∧ sh.cycFrom = none then { sh with cycFrom := some c } else sh) := by
  unfold startCycles State.sheet?
  apply lookup_map_val
  rintro ⟨a, v⟩ -
  dsimp only
  split <;> rfl

/-- The sheet in focus as it begins to issue. -/
theorem opBegun_sheet? (s : State) (sh : Sheet) (m : Move) : (opBegun s sh m).sheet? s.focus = some (opSheet s sh m) := by
  unfold opSheet begunSheet opBegun beginIssue
  rw [startCycles_sheet?]
  simp

/-- What the beginning of an issue leaves of the sheet. -/
theorem opSheet_frame (s : State) (sh : Sheet) (m : Move) : ∃ f lat cf,
    opSheet s sh m = { sh with flights := f, lat := lat, wait := .none, sys := .none, cycFrom := cf } := by
  unfold opSheet begunSheet beginIssue beginSheet
  rw [startCycles_sheet?]
  obtain ⟨f, lat, h⟩ := atIssue_frame sh (opCycle s sh m)
  rw [h]
  simp only [State.sheet?_setSheet, Option.map_some, Option.getD_some]
  split
  · exact ⟨f, lat, _, rfl⟩
  · exact ⟨f, lat, _, rfl⟩

/-! ## The bundle of one move -/

theorem liveSlots_one (m : Move) (h : m.dst ≠ 0x3FF#10) : liveSlots (oneMove m) = [(0, m)] := by
  unfold liveSlots oneMove
  simp [List.zipIdx, h, Move.empty]

theorem opMove_move (s : State) (sh : Sheet) (m : Move) : (opMove s sh m).move = m := by
  unfold opMove evalMove
  dsimp only
  split <;> [split <;> rfl; rfl]

theorem opMove_slot (s : State) (sh : Sheet) (m : Move) : (opMove s sh m).slot = 0 := by
  unfold opMove evalMove
  dsimp only
  split <;> [split <;> rfl; rfl]

theorem opBegun_rest (s : State) (sh : Sheet) (m : Move) : ∃ l, opBegun s sh m = { s with sheets := l } := by
  unfold opBegun beginIssue startCycles State.setSheet
  exact ⟨_, rfl⟩

theorem opSheet_fields (s : State) (sh : Sheet) (m : Move) : (opSheet s sh m).wg = sh.wg ∧ (opSheet s sh m).num = sh.num ∧
    (opSheet s sh m).width = sh.width ∧ (opSheet s sh m).pc = sh.pc ∧ (opSheet s sh m).mask = sh.mask ∧ (opSheet s sh m).gone = sh.gone ∧
    (opSheet s sh m).v = sh.v ∧ (opSheet s sh m).s = sh.s ∧ (opSheet s sh m).p = sh.p ∧ (opSheet s sh m).ent = sh.ent ∧
    (opSheet s sh m).nest = sh.nest ∧ (opSheet s sh m).skip = sh.skip ∧ (opSheet s sh m).corrupt = sh.corrupt ∧
    (opSheet s sh m).queue = sh.queue ∧ (opSheet s sh m).fpsr = sh.fpsr ∧ (opSheet s sh m).fpcr = sh.fpcr ∧
    (opSheet s sh m).nextId = sh.nextId ∧ (opSheet s sh m).armed = sh.armed ∧ (opSheet s sh m).stack = sh.stack ∧
    (opSheet s sh m).rcv = sh.rcv := by
  obtain ⟨f, lat, cf, h⟩ := opSheet_frame s sh m
  rw [h]
  simp only [and_self]

/-- The grid, the kernel and the partition of the sheet are those of before. -/
theorem opBegun_kernelOf (s : State) (sh : Sheet) (m : Move) : (opBegun s sh m).kernelOf (opSheet s sh m) = s.kernelOf sh := by
  obtain ⟨l, h⟩ := opBegun_rest s sh m
  unfold State.kernelOf State.gridOf State.wg?
  rw [(opSheet_fields s sh m).1, h]
  rfl

theorem opBegun_core (s : State) (sh : Sheet) (m : Move) (c : Nat) : (opBegun s sh m).core c = s.core c := by
  obtain ⟨l, h⟩ := opBegun_rest s sh m
  rw [h]; rfl

theorem CanIssue.dst {s : State} {sh : Sheet} {m : Move} {u : FUnit} (h : CanIssue s sh m u) :
    (opMove s sh m).dst = some (.t u) := by
  unfold SavedMove.dst; rw [opMove_move, h.unit]

theorem CanIssue.trig {s : State} {sh : Sheet} {m : Move} {u : FUnit} (h : CanIssue s sh m u) :
    (opMove s sh m).trig = some u := by
  unfold SavedMove.trig; rw [h.dst]

theorem CanIssue.dst_ne {s : State} {sh : Sheet} {m : Move} {u : FUnit} (h : CanIssue s sh m u) :
    m.dst ≠ 0x3FF#10 := by
  intro hd
  have := h.unit
  rw [hd] at this
  simp [Dst.ofCode] at this

theorem CanIssue.legal' {s : State} {sh : Sheet} {m : Move} {u : FUnit} (h : CanIssue s sh m u) :
    moveOk m ((opBegun s sh m).kernelOf (opSheet s sh m)).regs ((opBegun s sh m).core (coreOf s.focus)).split = true := by
  rw [opBegun_kernelOf, opBegun_core]; exact h.legal

/-- The cycles of the passes of an operation alone, and the cycle after the last. -/
def opTimes (s : State) (sh : Sheet) (m : Move) : List Nat × Nat := issueTimes s s.focus sh (oneMove m)
/-- The bundle as its triggers find it. -/
def opInfo' (s : State) (sh : Sheet) (m : Move) : BInfo :=
  { opBundle s sh m with engines := engineMoves [opMove s sh m], droop0 := passLen (dcap s s.focus) [opMove s sh m] 0 - 1 }

theorem CanIssue.mayIssue {s : State} {sh : Sheet} {m : Move} {u : FUnit} (h : CanIssue s sh m u) :
    sh.mayIssue (s.cycle (coreOf s.focus)) = true := by
  have := h.opens
  unfold stageOpen at this
  simp only [Bool.and_eq_true] at this
  exact this.1.1

/-- The issue of an operation alone is the commit of its one move. -/
theorem CanIssue.issue {s : State} {sh : Sheet} {m : Move} {u : FUnit} (h : CanIssue s sh m u) (mean : Meanings) :
    issueBundle s s.focus (oneMove m) (.bundleIssue (oneMove m)) mean =
      commitBundle (opBegun s sh m) s.focus (opSheet s sh m) (opBundle s sh m) (.bundleIssue (oneMove m)) [opMove s sh m]
        [opMove s sh m] [] [] [] mean (opTimes s sh m) := by
  have hnone : sh.issued? = [] := by unfold Sheet.issued?; rw [h.whole]; rfl
  have hpass : (opSheet s sh m).passes = sh.passes := by unfold Sheet.passes; rw [(opSheet_fields s sh m).2.2.1]
  have hread : readMoves (opBegun s sh m) s.focus (opSheet s sh m) (oneMove m) (opCycle s sh m 0) = [opMove s sh m] := by
    unfold readMoves
    rw [liveSlots_one m h.dst_ne]
    rfl
  have hfree := h.free
  rw [← hpass] at hfree
  unfold opBegun opSheet opCycle at hread hfree
  unfold issueBundle
  simp only [h.here, h.opens, h.slot, h.form, h.whole, hnone, Bool.not_true, Bool.false_eq_true, if_false, Bool.and_false,
    show (oneMove m).format = Format.narrow from rfl, hread, Option.map_none, Option.getD_none, mergeMoves, List.find?_nil,
    List.map_cons, List.map_nil, List.length_nil, Nat.sub_zero, hfree]
  rfl

theorem skipWhole_nil (legal : Move → Bool) (mean : Meanings) (m : SavedMove) : skipWhole [] legal mean m = m := by
  simp [skipWhole]

theorem skipZeros_nil (sid : Nat) (mean : Meanings) (m : SavedMove) (s : State) : skipZeros sid [] mean m s = s := by
  unfold skipZeros
  simp

/-- What the triggers of an operation alone do: its effect in each pass, and what it does after them. -/
def opEffect (s : State) (sh : Sheet) (m : Move) (u : FUnit) (o : OpMeaning) : State :=
  let e := ((opTimes s sh m).1.zipIdx).foldl (fun e (c, p) =>
    if (opMove s sh m).exec = 0 ∨ o.control then e else o.effect (opCtx s sh m u) p c e) (opBegun s sh m).drew
  if (opMove s sh m).exec = 0 then e else o.finish (opCtx s sh m u) e

/-- What follows: its cost and counts, the next bundle, a transfer of control. -/
def opTail (s : State) (sh : Sheet) (m : Move) (u : FUnit) (o : OpMeaning) (e : State) : State :=
  let mv := opMove s sh m
  let e := settleIssue (opBegun s sh m) s.focus (opSheet s sh m) (opInfo' s sh m) [mv] [mv] (opTimes s sh m).1 (opTimes s sh m).2 [0] e
  let e := e.mapSheet s.focus (fun y => y.returnFrom.advance (.bundleIssue (oneMove m)) (opSheet s sh m).pc 16)
  let e := if mv.exec ≠ 0 ∧ o.control then o.effect (opCtx s sh m u) 0 ((opTimes s sh m).1.getD 0 0) e else e
  arriveAfter (e.mapSheet s.focus (loopSkip mv)) s.focus

/-- The one move of an operation that raises nothing commits. -/
theorem commits_one {mean : Meanings} {mv : SavedMove} (hs : mv.slot = 0) : commits mean [mv] [(0, [])] = [0] := by
  have h0 : commitRound mean [mv] [0] = [0] := by unfold commitRound; simp [hs]
  have h1 : ([mv].filter (fun m => !([(0, [])] : List (Nat × List (Nat × Flt))).any (fun e => e.1 == m.slot && !e.2.isEmpty))).map
      (·.slot) = [0] := by simp [hs]
  unfold commits
  simp only [h1, h0]

/-- An operation alone whose sheet can issue it, whose commit waits for no step and which reads no vector register at its
trigger: it issues, with its effect and what follows (R64). -/
theorem runOp_ok {s : State} {sh : Sheet} {i : Instr} {m : Move} {u : FUnit} {o : OpMeaning} (hi : i.move = some m)
    (h : CanIssue s sh m u) (hst : o.steps = false) (hvr : ∀ x, o.vregs x = []) (hr : opRuns s sh m → o.ready (opCtx s sh m u) = true)
    (hc : opRuns s sh m → o.check (opCtx s sh m u) = [] ∧ o.check { opCtx s sh m u with engines := 0, droop0 := 0 } = []) :
    runOp i o s = .next (opTail s sh m u o (opEffect s sh m u o)) := by
  have htrig := h.trig
  have hdst := h.dst
  have hmove := opMove_move s sh m
  have hslot := opMove_slot s sh m
  have hleg := h.legal'
  unfold runOp
  rw [hi]
  dsimp only
  congr 1
  unfold issueOrWait
  suffices hs : issueBundle s s.focus (oneMove m) (.bundleIssue (oneMove m)) (fun _ => .ok o) =
      some (opTail s sh m u o (opEffect s sh m u o)) by rw [hs]; rfl
  rw [h.issue]
  have hw : ∀ x c, writeMove x s.focus c (opMove s sh m) = x := by
    intro x c; unfold writeMove; rw [hdst]; simp
  have hclean : (opSheet s sh m).corrupt = none := by
    rw [(opSheet_fields s sh m).2.2.2.2.2.2.2.2.2.2.2.2.1]; exact h.clean
  have hfl : moveFaults (opBegun s sh m) s.focus (opSheet s sh m) (opBundle s sh m) [] []
      (fun _ => .ok o) (opMove s sh m) = [] := by
    unfold moveFaults
    rw [hmove, hleg, htrig, hclean, opBegun_sheet?]
    by_cases he : (opMove s sh m).exec = 0
    · simp [he]
    · simp only [he, if_false, Bool.not_true, Option.getD_some]
      have hs := (hc he).2
      have e0 : ({ opCtx s sh m u with engines := 0, droop0 := 0 } : TrigCtx) =
        trigCtx (opBegun s sh m) s.focus (opSheet s sh m) (opBundle s sh m) [] [] (opMove s sh m) u := rfl
      rw [e0] at hs
      simp [hs]
  have hwait : waitsStep (fun _ => .ok o) (opMove s sh m) = false := by
    unfold waitsStep; rw [htrig]; simp [hst]
  unfold commitBundle
  have hlaw : moveOk (opMove s sh m).move ((opBegun s sh m).kernelOf (opSheet s sh m)).regs
      ((opBegun s sh m).core (coreOf s.focus)).split = true := by rw [hmove]; exact hleg
  simp only [List.map_cons, List.map_nil, skipWhole_nil, List.filter_cons, List.filter_nil, hlaw, if_true,
    List.foldl_cons, List.foldl_nil, hw, hslot, hfl, commits_one hslot, List.contains_cons, beq_self_eq_true, Bool.true_or, List.any_cons,
    List.any_nil, htrig, opBegun_sheet?, Option.getD_some, List.all_cons, List.all_nil, Bool.and_self, Bool.or_false, hwait,
    Bool.false_eq_true, if_false, hvr]
  have hready : ((opMove s sh m).exec != 0 && !o.ready (trigCtx (opBegun s sh m) s.focus (opSheet s sh m)
      (opInfo' s sh m) [] [] (opMove s sh m) u)) = false := by
    by_cases he : (opMove s sh m).exec = 0
    · simp [he]
    · have := hr he
      unfold opCtx at this
      unfold opInfo'
      simp [this]
  rw [if_neg (by
    show ¬ (((opMove s sh m).exec != 0 && !o.ready (trigCtx (opBegun s sh m) s.focus (opSheet s sh m)
      (opInfo' s sh m) [] [] (opMove s sh m) u)) = true)
    rw [hready]; decide)]
  rw [if_pos (show ([] : List Nat).isEmpty = true from rfl)]
  congr 1
  have htrigs : runTriggers s.focus (opInfo' s sh m) [] [] (fun _ => .ok o) (opTimes s sh m).1 (opBegun s sh m)
      [opMove s sh m] [opMove s sh m] [0] = opEffect s sh m u o := by
    unfold runTriggers opEffect
    simp only [runPass, runFinish, htrig, opBegun_sheet?, Option.getD_some, List.filter_cons, List.filter_nil, hslot,
      List.contains_cons, beq_self_eq_true, Bool.true_or, if_true, List.foldl_cons, List.foldl_nil, skipZeros_nil]
    rfl
  show goOn s.focus (opInfo' s sh m) (.bundleIssue (oneMove m)) [] [] (fun _ => .ok o) ((opTimes s sh m).1.getD 0 0) (opBegun s sh m)
    [opMove s sh m] [opMove s sh m] (settleIssue (opBegun s sh m) s.focus (opSheet s sh m) (opInfo' s sh m) [opMove s sh m]
      [opMove s sh m] (opTimes s sh m).1 (opTimes s sh m).2 [0] (runTriggers s.focus (opInfo' s sh m) [] [] (fun _ => .ok o)
        (opTimes s sh m).1 (opBegun s sh m) [opMove s sh m] [opMove s sh m] [0])) = _
  rw [htrigs]
  unfold goOn opTail
  simp only [runControl, htrig, opBegun_sheet?, Option.getD_some, List.foldl_cons, List.foldl_nil]
  rfl

/-! ## What follows an operation -/

theorem arriveGo_frame : ∀ (n : Nat) (sh : Sheet), ∃ pc k r st, arriveGo n sh = { sh with pc := pc, mask := k, rcv := r, stack := st } := by
  intro n
  induction n with
  | zero => intro sh; exact ⟨_, _, _, _, rfl⟩
  | succ n ih =>
    intro sh
    unfold arriveGo
    split
    · split
      · exact ⟨_, _, _, _, rfl⟩
      · split <;> exact ih _
    · exact ⟨_, _, _, _, rfl⟩

/-- A path's arrival changes only where the path stands (R79). -/
theorem arrive_frame (sh : Sheet) : ∃ pc k r st, sh.arrive = { sh with pc := pc, mask := k, rcv := r, stack := st } :=
  arriveGo_frame 64 sh

theorem skipBody_zero (n : Nat) (s : State) (sid : Nat) (sh : Sheet) (h : s.sheet? sid = some sh) (hs : sh.skip = 0) :
    skipBody n s sid = s := by
  cases n with
  | zero => rfl
  | succ n => unfold skipBody; rw [h]; simp [hs]

theorem mapSheet_of {s : State} {sid : Nat} {sh : Sheet} (h : s.sheet? sid = some sh) (f : Sheet → Sheet) :
    s.mapSheet sid f = s.setSheet sid (f sh) := by
  unfold State.mapSheet; rw [h]

/-- A sheet with threads left, past its bundle with no body to skip, arrives and that is all. -/
theorem arriveAfter_plain {s : State} {sid : Nat} {sh : Sheet} (h : s.sheet? sid = some sh) (hs : sh.skip = 0)
    (hl : sh.left = false) : arriveAfter s sid = s.setSheet sid sh.arrive := by
  unfold arriveAfter
  rw [skipBody_zero 16 s sid sh h hs, mapSheet_of h]
  unfold leaveBarriers
  have : sh.arrive.left = false := by
    obtain ⟨pc, k, r, st, ha⟩ := arrive_frame sh
    rw [ha]; exact hl
  simp [this]

/-- An event of a counter changes the partitions and the agenda alone (R328). -/
theorem event_frame (s : State) (part core sid slot ev k : Nat) :
    ∃ p a, s.event part core sid slot ev k = { s with parts := p, agenda := a } := by
  unfold State.event
  dsimp only
  split
  · exact ⟨_, _, rfl⟩
  · exact ⟨_, _, rfl⟩

/-- The state once a sheet has issued: its sheet, its core, the counters and what they put on the agenda. -/
def State.issued (s : State) (sid : Nat) (sh : Sheet) (c : SMap Core) (p : SMap Part) (a : List Instr) : State :=
  { s.setSheet sid sh with cores := c, parts := p, agenda := a }

/-- States that differ in counters and in what these put on the agenda alone. -/
def State.Counted (s t : State) : Prop := ∃ p a, t = { s with parts := p, agenda := a }

theorem State.Counted.refl (s : State) : s.Counted s := ⟨_, _, rfl⟩

theorem State.Counted.event {s t : State} (h : s.Counted t) (part core sid slot ev k : Nat) :
    s.Counted (t.event part core sid slot ev k) := by
  obtain ⟨p, a, h⟩ := h
  obtain ⟨q, b, e⟩ := event_frame t part core sid slot ev k
  exact ⟨q, b, by rw [e, h]⟩

theorem State.Counted.sheetEvent {s t : State} (h : s.Counted t) (sid : Nat) (sh : Sheet) (slot ev k : Nat) :
    s.Counted (t.sheetEvent sid sh slot ev k) := h.event _ _ _ _ _ _

theorem State.Counted.sheetEvents {s : State} (sid : Nat) (sh : Sheet) (ev k : Nat) : ∀ (l : List Nat) {t : State}, s.Counted t →
    s.Counted (l.foldl (fun s n => s.sheetEvent sid sh n ev k) t)
  | [], _, h => h
  | n :: l, _, h => State.Counted.sheetEvents sid sh ev k l (h.sheetEvent sid sh n ev k)

/-- What an issue costs and counts (R91, R275, R328), where no interlock record is armed. -/
theorem account_frame {s : State} {sid : Nat} {sh : Sheet} (h : s.sheet? sid = some sh) (hq : sh.armed = false) (pc : W64)
    (endc stall droop : Nat) (moves tg : List Nat) : ∃ b l p a, account s sid pc endc stall droop moves tg =
      s.issued sid { sh with issued := (sh.issued + 1) % 2 ^ 64, droop := (sh.droop + droop) % 2 ^ 64,
                             nextIssue := endc + stall, readySince := endc + stall, waitAt := none, watch := 0, lastPc := pc }
        (setD s.cores Core.reset (coreOf sid) { s.core (coreOf sid) with busy := b, lastTarget := l }) p a := by
  unfold account
  dsimp only
  have h1 : ∀ f, (s.mapCore (coreOf sid) f).sheet? sid = some sh := fun f => h
  rw [h1]
  dsimp only
  generalize hb : (s.mapCore (coreOf sid) _).setSheet sid _ = base
  have hn : ¬ (sh.armed = true) := by simp [hq]
  simp only [if_neg hn]
  have hc : base.Counted (moves.foldl (fun s k => s.sheetEvent sid sh k 3 1) (base.sheetEvent sid sh 7 2 1)) :=
    State.Counted.sheetEvents sid sh 3 1 moves ((State.Counted.refl base).sheetEvent sid sh 7 2 1)
  have hd : ∀ x, base.Counted x → ∃ b l p a, x = s.issued sid { sh with
      issued := (sh.issued + 1) % 2 ^ 64, droop := (sh.droop + droop) % 2 ^ 64,
      nextIssue := endc + stall, readySince := endc + stall, waitAt := none, watch := 0, lastPc := pc }
        (setD s.cores Core.reset (coreOf sid) { s.core (coreOf sid) with busy := b, lastTarget := l }) p a := by
    rintro x ⟨p, a, rfl⟩
    rw [← hb]
    exact ⟨_, _, p, a, rfl⟩
  split
  · exact hd _ hc
  · exact hd _ (hc.sheetEvent _ _ _ _ _)

@[simp] theorem issued_sheet?_same (s : State) (sid : Nat) (sh : Sheet) (c : SMap Core) (p : SMap Part) (a : List Instr) :
    (s.issued sid sh c p a).sheet? sid = some sh := by
  show (s.setSheet sid sh).sheet? sid = some sh
  simp

theorem issued_setSheet (s : State) (sid : Nat) (sh sh' : Sheet) (c : SMap Core) (p : SMap Part) (a : List Instr) :
    (s.issued sid sh c p a).setSheet sid sh' = s.issued sid sh' c p a := by
  unfold State.issued State.setSheet
  simp only [put_put]

/-- The sheet as an issue has counted it. -/
def Sheet.counted (sh : Sheet) (i d n : Nat) (pc : W64) : Sheet :=
  { sh with issued := i, droop := d, nextIssue := n, readySince := n, waitAt := none, watch := 0, lastPc := pc,
            corrupt := none, issuing := none }

/-- What an issued bundle leaves where no interlock record is armed. -/
theorem settleIssue_frame {s0 s : State} {sid : Nat} {sh0 sh : Sheet} (h : s.sheet? sid = some sh) (hq : sh.armed = false)
    (hq0 : sh0.armed = false) (b : BInfo) (rd go : List SavedMove) (starts : List Nat) (endc : Nat) (moves : List Nat) :
    ∃ i d n x l p a, settleIssue s0 sid sh0 b rd go starts endc moves s = s.issued sid (sh.counted i d n b.pc)
        (setD s.cores Core.reset (coreOf sid) { s.core (coreOf sid) with busy := x, lastTarget := l }) p a := by
  unfold settleIssue
  dsimp only
  have hi : ∀ pc ms c0, interlockTrace s0 sid sh0 pc ms c0 s = s := by
    intro pc ms c0; unfold interlockTrace; simp [hq0]
  rw [hi]
  obtain ⟨x, l, p, a, e⟩ := account_frame h hq b.pc endc b.stall.toNat (droopAdded (dcap s0 sid) rd sh0.passes) moves
    (targets go)
  rw [e, mapSheet_of (issued_sheet?_same _ _ _ _ _ _), issued_setSheet]
  exact ⟨(sh.issued + 1) % 2 ^ 64, (sh.droop + droopAdded (dcap s0 sid) rd sh0.passes) % 2 ^ 64, endc + b.stall.toNat, x, l, p, a, rfl⟩

/-- The sheet past its bundle, before a transfer of control. -/
def Sheet.past (sh : Sheet) (m : Move) (pc : W64) : Sheet := sh.returnFrom.advance (.bundleIssue (oneMove m)) pc 16

theorem loopSkip_other {m : SavedMove} (h : m.trig ≠ some .bru) (sh : Sheet) : loopSkip m sh = sh := by
  unfold loopSkip; simp [h]

theorem loopSkip_runs {m : SavedMove} (h : m.exec ≠ 0) (sh : Sheet) : loopSkip m sh = sh := by
  unfold loopSkip; rw [if_neg (fun hh => h hh.2.2.2)]

/-- What moving past a bundle leaves of a sheet. -/
theorem past_frame (sh : Sheet) (m : Move) (pc : W64) : ∃ p n, sh.past m pc =
    { sh with trap := none, park := .running, pc := p, nest := n } := by
  unfold Sheet.past Sheet.advance Sheet.returnFrom
  dsimp only
  split
  · rename_i h; exact ⟨_, _, by simp only [h]; rfl⟩
  · split
    · exact ⟨_, _, rfl⟩
    · split <;> exact ⟨_, _, rfl⟩

/-- What follows an operation that transfers no control: the sheet in focus is counted, moved past the bundle, and its
path may have arrived. -/
theorem opTail_plain {s : State} {sh : Sheet} {m : Move} {u : FUnit} {o : OpMeaning} (h : CanIssue s sh m u)
    (hc : o.control = false) (hu : u ≠ .bru ∨ opRuns s sh m) {e : State} {y : Sheet} (he : e.sheet? s.focus = some y)
    (hy : y.armed = false ∧ y.skip = 0 ∧ y.left = false) :
    ∃ i d n x l p a, opTail s sh m u o e =
      e.issued s.focus ((y.counted i d n sh.pc).past m sh.pc).arrive
        (setD e.cores Core.reset (coreOf s.focus) { e.core (coreOf s.focus) with busy := x, lastTarget := l }) p a := by
  have hpc : (opSheet s sh m).pc = sh.pc := (opSheet_fields s sh m).2.2.2.1
  have hq0 : (opSheet s sh m).armed = false := by
    have := (opSheet_fields s sh m).2.2.2.2.2.2.2.2.2.2.2.2.2.2.2.2.2.1
    rw [this]; exact h.quiet
  have hl : loopSkip (opMove s sh m) = id := by
    funext z
    rcases hu with hu | hu
    · exact loopSkip_other (by rw [h.trig]; simpa using hu) z
    · exact loopSkip_runs hu z
  unfold opTail
  dsimp only
  obtain ⟨i, d, n, x, l, p, a, e1⟩ := settleIssue_frame (s0 := opBegun s sh m) he hy.1 hq0 (opInfo' s sh m) [opMove s sh m]
    [opMove s sh m] (opTimes s sh m).1 (opTimes s sh m).2 [0]
  rw [e1, mapSheet_of (issued_sheet?_same _ _ _ _ _ _), issued_setSheet]
  simp only [hc, Bool.false_eq_true, and_false, if_false, hl]
  rw [mapSheet_of (issued_sheet?_same _ _ _ _ _ _), issued_setSheet]
  have hb : (opInfo' s sh m).pc = sh.pc := hpc
  refine ⟨i, d, n, x, l, p, a, ?_⟩
  simp only [hpc]
  have hp : (y.counted i d n (opInfo' s sh m).pc).returnFrom.advance (Instr.bundleIssue (oneMove m)) sh.pc 16 =
      (y.counted i d n sh.pc).past m sh.pc := by rw [hb]; rfl
  obtain ⟨pc', n', hf⟩ := past_frame (y.counted i d n sh.pc) m sh.pc
  simp only [id, hp]
  rw [arriveAfter_plain (issued_sheet?_same _ _ _ _ _ _) (by rw [hf]; exact hy.2.1) (by rw [hf]; exact hy.2.2), issued_setSheet]

/-- A sheet that differs from another only in what an issue counts and in where its path stands. -/
def Sheet.Issued (y z : Sheet) : Prop := ∃ i d n lp pc nest k r st, z = { y with
  issued := i, droop := d, nextIssue := n, readySince := n, waitAt := none, watch := 0, lastPc := lp, corrupt := none,
  issuing := none, trap := none, park := .running, pc := pc, nest := nest, mask := k, rcv := r, stack := st }

theorem issued_arrive (y : Sheet) (i d n : Nat) (lp pc : W64) (m : Move) :
    y.Issued ((y.counted i d n lp).past m pc).arrive := by
  obtain ⟨p, nest, h1⟩ := past_frame (y.counted i d n lp) m pc
  obtain ⟨p', k, r, st, h2⟩ := arrive_frame ((y.counted i d n lp).past m pc)
  rw [h2, h1]
  exact ⟨i, d, n, lp, p', nest, k, r, st, rfl⟩

/-- A state after an operation's effect, and the state once its bundle is done: the sheet `y` has become `z`, and the issue
stage, the counters and what these put on the agenda may differ. -/
structure Settled (s e t : State) (y z : Sheet) : Prop where
  sheet : t.sheet? s.focus = some z
  like : y.Issued z
  others : ∀ k, k ≠ s.focus → t.sheet? k = e.sheet? k
  cmds : ∀ c, (t.core c).cmds = (e.core c).cmds
  rest : ∃ l c p a, t = { e with sheets := l, cores := c, parts := p, agenda := a }

/-- An operation that transfers no control, whose commit waits for no step and which reads no vector register at its trigger
runs, where its sheet can issue it and it raises nothing and waits for nothing: its effect, then what follows it. -/
theorem runOp_plain {s : State} {sh : Sheet} {i : Instr} {m : Move} {u : FUnit} {o : OpMeaning} (hi : i.move = some m)
    (h : CanIssue s sh m u) (hst : o.steps = false) (hvr : ∀ x, o.vregs x = []) (hr : opRuns s sh m → o.ready (opCtx s sh m u) = true)
    (hc : opRuns s sh m → o.check (opCtx s sh m u) = [] ∧ o.check { opCtx s sh m u with engines := 0, droop0 := 0 } = [])
    (hctl : o.control = false) (hu : u ≠ .bru ∨ opRuns s sh m)
    {y : Sheet} (he : (opEffect s sh m u o).sheet? s.focus = some y)
    (hy : y.armed = false ∧ y.skip = 0 ∧ y.left = false) :
    ∃ t z, runOp i o s = .next t ∧ Settled s (opEffect s sh m u o) t y z := by
  obtain ⟨a, d, n, x, l, p, g, ht⟩ := opTail_plain h hctl hu he hy
  refine ⟨_, ((y.counted a d n sh.pc).past m sh.pc).arrive, runOp_ok hi h hst hvr hr hc, ?_⟩
  rw [ht]
  exact {
    sheet := issued_sheet?_same _ _ _ _ _ _
    like := issued_arrive _ _ _ _ _ _ _
    others := fun k hk => by
      show ((opEffect s sh m u o).setSheet s.focus _).sheet? k = _
      exact State.sheet?_setSheet_ne _ _ _ _ hk
    cmds := fun c => by
      show (getD (setD _ Core.reset (coreOf s.focus) _) Core.reset c).cmds = _
      rw [getD_setD]
      split
      · rename_i hcc; rw [hcc]
      · rfl
    rest := ⟨_, _, _, _, rfl⟩ }

end Sys2Proof.Machine
end

