-- ==== Sys2Proof/Laws/Lane.lean ====
section
/-! SUPPORT. The per-thread operations: what their triggers put on its way (R63, R70). -/

namespace Sys2Proof.Machine

/-- States that differ in one sheet alone. -/
def SheetOnly (sid : Nat) (s t : State) : Prop := ∃ l, t = { s with sheets := l } ∧ ∀ k, k ≠ sid → t.sheet? k = s.sheet? k

theorem SheetOnly.refl (sid : Nat) (s : State) : SheetOnly sid s s := ⟨_, rfl, fun _ _ => rfl⟩

theorem SheetOnly.trans {sid : Nat} {s t r : State} (h : SheetOnly sid s t) (h' : SheetOnly sid t r) : SheetOnly sid s r := by
  obtain ⟨l, e, h1⟩ := h
  obtain ⟨l', e', h2⟩ := h'
  exact ⟨l', by rw [e', e], fun k hk => by rw [h2 k hk, h1 k hk]⟩

theorem sheetOnly_setSheet (s : State) (sid : Nat) (x : Sheet) : SheetOnly sid s (s.setSheet sid x) :=
  ⟨_, rfl, fun _ hk => State.sheet?_setSheet_ne _ _ _ _ hk⟩

theorem sheetOnly_mapSheet (s : State) (sid : Nat) (f : Sheet → Sheet) : SheetOnly sid s (s.mapSheet sid f) := by
  unfold State.mapSheet
  split
  · exact sheetOnly_setSheet _ _ _
  · exact SheetOnly.refl _ _

/-- A fold of one relation over a list, from a state in which `P []` holds. -/
theorem foldl_grow {α β : Type} (step : β → α → β) (P : β → List α → Prop) :
    ∀ (l : List α) (b : β) (done : List α), P b done → (∀ b d a, a ∈ l → P b d → P (step b a) (d ++ [a])) →
      P (l.foldl step b) (done ++ l) := by
  intro l
  induction l with
  | nil => intro b done h _; simpa using h
  | cons a r ih =>
    intro b done h hs
    have := ih (step b a) (done ++ [a]) (hs b done a (by simp) h) (fun b d x hx => hs b d x (by simp [hx]))
    simpa using this

/-- What has been put on its way after the triggers `done`, as thread and cycle, of a per-thread operation. -/
structure LaneDone (cls : LaneIn → Nat) (f : LaneIn → LaneOut) (x : TrigCtx) (y0 y : Sheet) (done : List (Nat × Nat)) : Prop where
  frame : ∃ new nid fp, y = { y0 with flights := y0.flights ++ new, nextId := nid, fpsr := fp } ∧ y0.nextId ≤ nid ∧
    (∀ r ∈ new, y0.nextId ≤ r.id)
  each : ∀ e ∈ done, ∃ r ∈ y.flights, r.unit = x.unit ∧ r.thread = e.1 ∧ y0.nextId ≤ r.id ∧ r.q = (f (x.laneIn e.1)).q ∧
    r.w = (f (x.laneIn e.1)).w ∧ r.ready = true ∧ r.stalling = false ∧ r.due = e.2 + native (cls (x.laneIn e.1))
  flags : ∀ b, y.fpsr.getLsbD b = (y0.fpsr.getLsbD b || done.any (fun e => (f (x.laneIn e.1)).flags.getLsbD b))

theorem LaneDone.nil (cls : LaneIn → Nat) (f : LaneIn → LaneOut) (x : TrigCtx) (y : Sheet) : LaneDone cls f x y y [] where
  frame := ⟨[], y.nextId, y.fpsr, by simp, le_refl _, by simp⟩
  each := by simp
  flags := by simp

theorem LaneDone.step {cls : LaneIn → Nat} {f : LaneIn → LaneOut} {x : TrigCtx} {y0 y : Sheet} {done : List (Nat × Nat)}
    (h : LaneDone cls f x y0 y done) (k : Kernel) (e : Nat × Nat) :
    LaneDone cls f x y0 { y.expose k (cls (x.laneIn e.1)) x.unit e.1 e.2 (f (x.laneIn e.1)).q (f (x.laneIn e.1)).w with
      fpsr := y.fpsr ||| (f (x.laneIn e.1)).flags } (done ++ [e]) := by
  obtain ⟨⟨new, nid, fp, hy, hn, hi⟩, each, flags⟩ := h
  have hid : y.nextId = nid := by rw [hy]
  have hfl : y.flights = y0.flights ++ new := by rw [hy]
  refine ⟨⟨new ++ [⟨x.unit, e.1, nid, (f (x.laneIn e.1)).q, (f (x.laneIn e.1)).w, true, false,
    latchInterlocked k x.unit, e.2 + native (cls (x.laneIn e.1))⟩], nid + 1, fp ||| (f (x.laneIn e.1)).flags, ?_, by omega, ?_⟩, ?_, ?_⟩
  · rw [hy]; unfold Sheet.expose Sheet.addFlight; simp only [List.append_assoc]
  · intro r hr
    rcases List.mem_append.mp hr with hr | hr
    · exact hi r hr
    · simp only [List.mem_singleton] at hr; rw [hr]; exact hn
  · intro a ha
    rcases List.mem_append.mp ha with ha | ha
    · obtain ⟨r, hr, rest⟩ := each a ha
      exact ⟨r, by unfold Sheet.expose Sheet.addFlight; exact List.mem_append_left _ hr, rest⟩
    · simp only [List.mem_singleton] at ha
      subst ha
      refine ⟨⟨x.unit, a.1, nid, (f (x.laneIn a.1)).q, (f (x.laneIn a.1)).w, true, false,
        latchInterlocked k x.unit, a.2 + native (cls (x.laneIn a.1))⟩, ?_, rfl, rfl, hn, rfl, rfl, rfl, rfl, rfl⟩
      unfold Sheet.expose Sheet.addFlight
      rw [hid]
      exact List.mem_append_right _ (by simp)
  · intro b
    show (y.fpsr ||| (f (x.laneIn e.1)).flags).getLsbD b = _
    rw [BitVec.getLsbD_or, flags b]
    simp [Bool.or_assoc]

/-- The state after the triggers `done` of a per-thread operation. -/
def LaneState (cls : LaneIn → Nat) (f : LaneIn → LaneOut) (x : TrigCtx) (y0 : Sheet) (s0 s : State) (done : List (Nat × Nat)) : Prop :=
  SheetOnly x.sid s0 s ∧ ∃ y, s.sheet? x.sid = some y ∧ LaneDone cls f x y0 y done

/-- One pass of a per-thread operation. -/
theorem laneOp_pass {cls : LaneIn → Nat} {f : LaneIn → LaneOut} {x : TrigCtx} {y0 : Sheet} {s0 s : State}
    {done : List (Nat × Nat)} (h : LaneState cls f x y0 s0 s done) (d p c : Nat) :
    LaneState cls f x y0 s0 ((laneOp cls f d).effect x p c s) (done ++ (x.inPass p).map (fun t => (t, c))) := by
  show LaneState cls f x y0 s0 ((x.inPass p).foldl _ s) _
  generalize s.kernelOf x.sh = k
  have := foldl_grow (fun s t => s.mapSheet x.sid (fun sh =>
      { sh.expose k (cls (x.laneIn t)) x.unit t c (f (x.laneIn t)).q (f (x.laneIn t)).w with
        fpsr := (sh.expose k (cls (x.laneIn t)) x.unit t c (f (x.laneIn t)).q (f (x.laneIn t)).w).fpsr ||| (f (x.laneIn t)).flags }))
    (fun s d => LaneState cls f x y0 s0 s (done ++ d.map (fun t => (t, c)))) (x.inPass p) s [] (by simpa using h)
    (by
      rintro b d t - ⟨ho, y, hy, hd⟩
      refine ⟨ho.trans (sheetOnly_mapSheet _ _ _), _, by rw [mapSheet_of hy]; exact State.sheet?_setSheet _ _ _, ?_⟩
      rw [List.map_append, List.map_singleton, ← List.append_assoc]
      exact hd.step k (t, c))
  exact this

/-- The passes of a per-thread operation. -/
theorem laneOp_passes {cls : LaneIn → Nat} {f : LaneIn → LaneOut} {x : TrigCtx} {y0 : Sheet} {s0 s : State}
    {done : List (Nat × Nat)} (h : LaneState cls f x y0 s0 s done) (d : Nat) (l : List (Nat × Nat)) :
    LaneState cls f x y0 s0 (l.foldl (fun e (c, p) => (laneOp cls f d).effect x p c e) s)
      (done ++ l.flatMap (fun (c, p) => (x.inPass p).map (fun t => (t, c)))) := by
  induction l generalizing s done with
  | nil => rw [List.flatMap_nil, List.append_nil]; exact h
  | cons a r ih =>
    rw [List.flatMap_cons, ← List.append_assoc]
    exact ih (laneOp_pass h d a.2 a.1)

theorem passStarts_length (cap from_ col : Nat) (slot : Nat → Bool) (ms : List SavedMove) :
    ∀ n p c, (passStarts cap from_ col slot ms n p c).1.length = n := by
  intro n
  induction n with
  | zero => intro p c; rfl
  | succ n ih => intro p c; unfold passStarts; simp [ih]

theorem opTimes_length {s : State} {sh : Sheet} {m : Move} (hw : sh.issuing = none) : (opTimes s sh m).1.length = sh.passes := by
  have hn : sh.issued? = [] := by unfold Sheet.issued?; rw [hw]; rfl
  unfold opTimes issueTimes
  simp only [hn, List.nil_append, List.length_nil]
  exact passStarts_length _ _ _ _ _ _ _ _

theorem opCtx_threads (s : State) (sh : Sheet) (m : Move) (u : FUnit) : (opCtx s sh m u).threads = opThreads s sh m u := by
  show (trigMask (opSheet s sh m) (opMove s sh m) u &&& ~~~(0#128) : Mask).threads = _
  rw [BitVec.not_zero, BitVec.and_allOnes]
  rfl

/-- A trigger starts its operation in each of its threads in one pass (R30, R67). -/
theorem opCtx_inPass (s : State) (sh : Sheet) (m : Move) (u : FUnit) (p th : Nat) :
    th ∈ (opCtx s sh m u).inPass p ↔ th ∈ opThreads s sh m u ∧ opPass m th = p := by
  have hu : (opCtx s sh m u).uniform = Move.uniform m := by
    show Move.uniform (opMove s sh m).move = Move.uniform m
    rw [opMove_move]
  unfold TrigCtx.inPass opPass passThreads
  rw [hu, opCtx_threads]
  split
  · split
    · rename_i h0
      simp [h0]
    · rename_i h0
      simp [Ne.symm h0]
  · simp

theorem threads_of_idle {s : State} {sh : Sheet} {m : Move} {u : FUnit} (h : ¬ opRuns s sh m) : opThreads s sh m u = [] := by
  have h : (opMove s sh m).exec = 0 := by unfold opRuns at h; simpa using h
  unfold opThreads trigMask
  rw [if_pos h]
  decide

/-- The effect of a per-thread operation alone. -/
theorem laneOp_effect (s : State) (sh : Sheet) (m : Move) (u : FUnit) (hw : sh.issuing = none) (cls : LaneIn → Nat)
    (f : LaneIn → LaneOut) (d : Nat) : ∃ done, LaneState cls f (opCtx s sh m u) (opSheet s sh m) (opBegun s sh m).drew
      (opEffect s sh m u (laneOp cls f d)) done ∧
      ∀ th c, (th, c) ∈ done ↔ th ∈ opThreads s sh m u ∧ opPass m th < sh.passes ∧ c = opCycle s sh m (opPass m th) := by
  have hb : LaneState cls f (opCtx s sh m u) (opSheet s sh m) (opBegun s sh m).drew (opBegun s sh m).drew [] :=
    ⟨SheetOnly.refl _ _, opSheet s sh m, opBegun_sheet? s sh m, LaneDone.nil _ _ _ _⟩
  have hp : (opSheet s sh m).passes = sh.passes := by unfold Sheet.passes; rw [(opSheet_fields s sh m).2.2.1]
  by_cases hr : opRuns s sh m
  · refine ⟨[] ++ (opTimes s sh m).1.zipIdx.flatMap
      (fun (c, p) => ((opCtx s sh m u).inPass p).map (fun t => (t, c))), ?_, ?_⟩
    · have := laneOp_passes hb d ((opTimes s sh m).1.zipIdx)
      unfold opEffect
      have hn : ¬ ((opMove s sh m).exec = 0) := hr
      simp only [hn, false_or, if_false, show (laneOp cls f d).control = false from rfl, Bool.false_eq_true]
      exact this
    · intro th c
      simp only [List.nil_append, List.mem_flatMap, List.mem_map, Prod.exists]
      constructor
      · rintro ⟨a, p, hz, t, ht, he⟩
        simp only [Prod.mk.injEq] at he
        obtain ⟨rfl, rfl⟩ := he
        obtain ⟨hm, rfl⟩ := (opCtx_inPass s sh m u p t).mp ht
        rw [List.mem_zipIdx_iff_getElem?] at hz
        have hlt : opPass m t < (opTimes s sh m).1.length := by
          rw [List.getElem?_eq_some_iff] at hz; exact hz.1
        rw [opTimes_length hw] at hlt
        exact ⟨hm, hlt, by
          have hz' : (issueTimes s s.focus sh (oneMove m)).1[opPass m t]? = some a := hz
          unfold opCycle readCycle; rw [List.getD_eq_getElem?_getD, hz']; rfl⟩
      · rintro ⟨ht, hlt, rfl⟩
        refine ⟨opCycle s sh m (opPass m th), opPass m th, ?_, th, (opCtx_inPass s sh m u _ th).mpr ⟨ht, rfl⟩, rfl⟩
        rw [List.mem_zipIdx_iff_getElem?]
        have hl : opPass m th < (opTimes s sh m).1.length := by rw [opTimes_length hw]; exact hlt
        show (opTimes s sh m).1[opPass m th]? = some ((opTimes s sh m).1.getD (opPass m th) (s.cycle (coreOf s.focus)))
        rw [List.getD_eq_getElem?_getD, List.getElem?_eq_getElem hl]
        rfl
  · refine ⟨[], ?_, ?_⟩
    · unfold opEffect
      have hn : (opMove s sh m).exec = 0 := by unfold opRuns at hr; simpa using hr
      simp only [hn, true_or, if_true]
      generalize (opTimes _ _ _).1.zipIdx = l
      have : ∀ (l : List (Nat × Nat)) (b : State), l.foldl (fun e _ => e) b = b := by
        intro l; induction l with
        | nil => intro b; rfl
        | cons a r ih => intro b; exact ih b
      rw [this]
      exact hb
    · intro th c
      simp [threads_of_idle hr]

/-- A per-thread operation raises nothing where no thread's flags trap (R153). -/
theorem laneOp_check {s : State} {sh : Sheet} {m : Move} {u : FUnit} {cls : LaneIn → Nat} {f : LaneIn → LaneOut} {d : Nat}
    (h : ∀ th ∈ opThreads s sh m u, Flags.traps sh.fpcr (f (opIn s sh m u th)).flags = false) :
    (laneOp cls f d).check (opCtx s sh m u) = [] := by
  show fpFaults (opCtx s sh m u) ((opCtx s sh m u).threads.map _) = []
  have ht : (opCtx s sh m u).threads = opThreads s sh m u := opCtx_threads s sh m u
  have hp : (opCtx s sh m u).sh.fpcr = sh.fpcr := by
    show (opSheet s sh m).fpcr = _
    have := (opSheet_fields s sh m).2.2.2.2.2.2.2.2.2.2.2.2.2.2.2.1
    exact this
  unfold fpFaults
  have hw : (opCtx s sh m u).waive = false := rfl
  rw [hw]
  simp only [Bool.false_eq_true, if_false]
  rw [ht, hp]
  have : ((opThreads s sh m u).map (fun t => (t, (f ((opCtx s sh m u).laneIn t)).flags))).filter
      (fun e => Flags.traps sh.fpcr e.2) = [] := by
    rw [List.filter_eq_nil_iff]
    intro e he
    simp only [List.mem_map] at he
    obtain ⟨th, hth, rfl⟩ := he
    have := h th hth
    show ¬ (Flags.traps sh.fpcr (f (opIn s sh m u th)).flags = true)
    simp [this]
  rw [this]; rfl

theorem left_of_fields {y sh : Sheet} (hw : y.width = sh.width) (hg : y.gone = sh.gone) : y.left = sh.left := by
  unfold Sheet.left; rw [hw, hg]

/-- A per-thread operation alone delivers what its function gives. -/
theorem runOp_lane {s : State} {sh : Sheet} {i : Instr} {m : Move} {u : FUnit} {cls : LaneIn → Nat} {f : LaneIn → LaneOut}
    (k : Nat) (hi : i.move = some m) (h : CanIssue s sh m u) (hu : u ≠ .bru)
    (hf : ∀ th ∈ opThreads s sh m u, Flags.traps sh.fpcr (f (opIn s sh m u th)).flags = false) :
    ∃ t, runOp i (laneOp cls f k) s = .next t ∧ Delivers s t sh m u cls f := by
  obtain ⟨done, ⟨-, y, hy, hd⟩, hm⟩ := laneOp_effect s sh m u h.whole cls f k
  have hsid : (opCtx s sh m u).sid = s.focus := rfl
  rw [hsid] at hy
  obtain ⟨new, nid, fp, hyf, -, -⟩ := hd.frame
  have ho := opSheet_fields s sh m
  obtain ⟨hwg, hnum, hwidth, hpc, hmask, hgone, hv, hs, hp, hent, hnest, hskip, hcor, hqueue, hfpsr, hfpcr, hid, harm, hst, hrcv⟩ := ho
  have hmay := h.mayIssue
  have hsk : sh.skip = 0 := by
    unfold Sheet.mayIssue at hmay
    simp only [Bool.and_eq_true, beq_iff_eq] at hmay
    exact hmay.1.1.1.2
  obtain ⟨t, z, ht, hset⟩ := runOp_plain hi h rfl (fun _ => rfl) (fun _ => rfl) (fun _ => ⟨laneOp_check (cls := cls) (d := k) hf, laneOp_check (cls := cls) (d := k) hf⟩) rfl (.inl hu) hy
    ⟨by rw [hyf]; exact harm.trans h.quiet, by rw [hyf]; exact hskip.trans hsk, by
      rw [← h.left]; exact left_of_fields (by rw [hyf]; exact hwidth) (by rw [hyf]; exact hgone)⟩
  refine ⟨t, ht, z, hset.sheet, ?_, ?_⟩
  · intro th hth hlt
    obtain ⟨r, hr, h1, h2, h3, h4, h5, h6, h7, h8⟩ := hd.each (th, opCycle s sh m (opPass m th)) ((hm _ _).mpr ⟨hth, hlt, rfl⟩)
    obtain ⟨i', d, n, lp, pc, nest, k, rc, st, hz⟩ := hset.like
    exact ⟨r, by rw [hz]; exact hr, h1, h2, by rw [← hid]; exact h3, h4, h5, h6, h7, h8⟩
  · intro b
    obtain ⟨i', d, n, lp, pc, nest, k, rc, st, hz⟩ := hset.like
    have : z.fpsr = y.fpsr := by rw [hz]
    rw [this, hd.flags b, hfpsr]
    congr 1
    rw [Bool.eq_iff_iff]
    simp only [List.any_eq_true, Bool.and_eq_true, decide_eq_true_eq]
    constructor
    · rintro ⟨⟨th, c⟩, he, hb⟩
      obtain ⟨h1, h2, -⟩ := (hm th c).mp he
      exact ⟨th, h1, h2, hb⟩
    · rintro ⟨th, h1, h2, hb⟩
      exact ⟨(th, opCycle s sh m (opPass m th)), (hm _ _).mpr ⟨h1, h2, rfl⟩, hb⟩

end Sys2Proof.Machine
end

