-- ==== Sys2Proof/Tests/Slice0.lean ====
section
/-! SUPPORT. Tests and witnesses. -/

open Sys2Proof Sys2Proof.Machine

namespace Sys2Proof.Tests

set_option maxRecDepth 20000
set_option Elab.async false
set_option exponentiation.threshold 2000

/-! ## States to test on -/

/-- A move whose source is `limm`. -/
def hd : Head := ⟨.always, 0x0FE, false⟩
/-- The runner's sheet with thread 0 alone, changed. -/
def one (f : Sheet → Sheet) : State :=
  (State.reset.placeRunner []).mapSheet 0 (fun sh => f { sh with mask := 1, gone := ~~~1 })
/-- Entries and trigger value of a unit in thread 0. -/
def entries (u : FUnit) (x0 x1 t : W64) (sh : Sheet) : Sheet := { (sh.setX u 0 0 x0).setX u 1 0 x1 with limm := t }
/-- The next state. -/
def next (o : Host.Outcome State Fault Refusal) : State := match o with
  | .next t => t
  | _ => State.reset
/-- Sheet 0 of a state. -/
def sheet0 (s : State) : Sheet := (s.sheet? 0).getD runnerSheet
/-- What a lane operation has on its way to its latches in thread 0, and FPSR after it. -/
def lane (i : Instr) (u : FUnit) (x0 x1 t : W64) : Option W64 × Option W64 × BitVec 6 :=
  let y := sheet0 (next (exec i (one (entries u x0 x1 t))))
  match y.flights with
  | [f] => (f.q, f.w, y.fpsr)
  | _ => (none, none, y.fpsr)

/-- The ALU opcodes in order (R119, R120), on ALA, ALB and SAL. -/
theorem test_decode_alu :
  decodeMove (Move.ofWord 0b00_0000_0100001111_0000000011_0000001_11000 false) = .ok (.add .ala ⟨.always, 3, false⟩ ⟨true, true⟩) ∧
  decodeMove (Move.ofWord 0b00_0000_0100011111_0000000011_0000010_11000 false) = .ok (.sub .alb ⟨.always, 3, false⟩ ⟨true, true⟩) ∧
  decodeMove (Move.ofWord 0b00_0000_0110001111_0000000011_0000011_11000 false) = .ok (.rsub .sal ⟨.always, 3, false⟩ ⟨true, true⟩) ∧
  decodeMove (Move.ofWord 0b00_0000_0100001111_0000000011_0000100_10000 false) = .ok (.and .ala ⟨.always, 3, false⟩ ⟨true, false⟩) ∧
  decodeMove (Move.ofWord 0b00_0000_0100011111_0000000011_0000101_10000 false) = .ok (.or .alb ⟨.always, 3, false⟩ ⟨true, false⟩) ∧
  decodeMove (Move.ofWord 0b00_0000_0110001111_0000000011_0000110_10000 false) = .ok (.xor .sal ⟨.always, 3, false⟩ ⟨true, false⟩) ∧
  decodeMove (Move.ofWord 0b00_0000_0100001111_0000000011_0000111_01000 false) = .ok (.andn .ala ⟨.always, 3, false⟩ ⟨false, true⟩) ∧
  decodeMove (Move.ofWord 0b00_0000_0100011111_0000000011_0001000_01000 false) = .ok (.shl .alb ⟨.always, 3, false⟩ ⟨false, true⟩) ∧
  decodeMove (Move.ofWord 0b00_0000_0110001111_0000000011_0001001_01000 false) = .ok (.shr .sal ⟨.always, 3, false⟩ ⟨false, true⟩) ∧
  decodeMove (Move.ofWord 0b00_0000_0100001111_0000000011_0001010_11000 false) = .ok (.sar .ala ⟨.always, 3, false⟩ ⟨true, true⟩) ∧
  decodeMove (Move.ofWord 0b00_0000_0100011111_0000000011_0001011_11000 false) = .ok (.rol .alb ⟨.always, 3, false⟩ ⟨true, true⟩) ∧
  decodeMove (Move.ofWord 0b00_0000_0110001111_0000000011_0001100_11000 false) = .ok (.min .sal ⟨.always, 3, false⟩ ⟨true, true⟩) ∧
  decodeMove (Move.ofWord 0b00_0000_0100001111_0000000011_0001101_10000 false) = .ok (.max .ala ⟨.always, 3, false⟩ ⟨true, false⟩) ∧
  decodeMove (Move.ofWord 0b00_0000_0100011111_0000000011_0001110_10000 false) = .ok (.minu .alb ⟨.always, 3, false⟩ ⟨true, false⟩) ∧
  decodeMove (Move.ofWord 0b00_0000_0110001111_0000000011_0001111_10000 false) = .ok (.maxu .sal ⟨.always, 3, false⟩ ⟨true, false⟩) ∧
  decodeMove (Move.ofWord 0b00_0000_0100001111_0000000011_0010000_01000 false) = .ok (.abs .ala ⟨.always, 3, false⟩ true) ∧
  decodeMove (Move.ofWord 0b00_0000_0100011111_0000000011_0010001_01000 false) = .ok (.sel .alb ⟨.always, 3, false⟩ ⟨false, true⟩) ∧
  decodeMove (Move.ofWord 0b00_0000_0110001111_0000000011_0010010_01000 false) = .ok (.ceq .sal ⟨.always, 3, false⟩ ⟨false, true⟩) ∧
  decodeMove (Move.ofWord 0b00_0000_0100001111_0000000011_0010011_11000 false) = .ok (.cne .ala ⟨.always, 3, false⟩ ⟨true, true⟩) ∧
  decodeMove (Move.ofWord 0b00_0000_0100011111_0000000011_0010100_11000 false) = .ok (.clt .alb ⟨.always, 3, false⟩ ⟨true, true⟩) ∧
  decodeMove (Move.ofWord 0b00_0000_0110001111_0000000011_0010101_11000 false) = .ok (.cle .sal ⟨.always, 3, false⟩ ⟨true, true⟩) ∧
  decodeMove (Move.ofWord 0b00_0000_0100001111_0000000011_0010110_10000 false) = .ok (.cltu .ala ⟨.always, 3, false⟩ ⟨true, false⟩) ∧
  decodeMove (Move.ofWord 0b00_0000_0100011111_0000000011_0010111_10000 false) = .ok (.cleu .alb ⟨.always, 3, false⟩ ⟨true, false⟩) ∧
  decodeMove (Move.ofWord 0b00_0000_0110001111_0000000011_0011000_01000 false) = .ok (.popc .sal ⟨.always, 3, false⟩ true) ∧
  decodeMove (Move.ofWord 0b00_0000_0100001111_0000000011_0011001_01000 false) = .ok (.clz .ala ⟨.always, 3, false⟩ true) ∧
  decodeMove (Move.ofWord 0b00_0000_0100011111_0000000011_0011010_01000 false) = .ok (.ctz .alb ⟨.always, 3, false⟩ true) ∧
  decodeMove (Move.ofWord 0b00_0000_0110001111_0000000011_0011011_01000 false) = .ok (.brev .sal ⟨.always, 3, false⟩ true) ∧
  decodeMove (Move.ofWord 0b00_0000_0100001111_0000000011_0011100_10001 false) = .ok (.bfx .ala ⟨.always, 3, false⟩ ⟨true, false, true⟩) ∧
  decodeMove (Move.ofWord 0b00_0000_0100011111_0000000011_0011101_11000 false) = .ok (.bfi .alb ⟨.always, 3, false⟩ ⟨true, true⟩) ∧
  decodeMove (Move.ofWord 0b00_0000_0110001111_0000000011_0011110_10000 false) = .ok (.perm .sal ⟨.always, 3, false⟩ true) ∧
  decodeMove (Move.ofWord 0b00_0000_0100001111_0000000011_0011111_01010 false) = .ok (.lea .ala ⟨.always, 3, false⟩ ⟨false, true, 2⟩) ∧
  decodeMove (Move.ofWord 0b00_0000_0100011111_0000000011_0100000_00001 false) = .ok (.sext .alb ⟨.always, 3, false⟩ .b16) ∧
  decodeMove (Move.ofWord 0b00_0000_0110001111_0000000011_0100001_00010 false) = .ok (.zext .sal ⟨.always, 3, false⟩ .b32) ∧
  decodeMove (Move.ofWord 0b00_0000_0100001111_0000000011_0100010_10000 false) = .ok (.pand .ala ⟨.always, 3, false⟩ true) ∧
  decodeMove (Move.ofWord 0b00_0000_0100011111_0000000011_0100011_10000 false) = .ok (.por .alb ⟨.always, 3, false⟩ true) ∧
  decodeMove (Move.ofWord 0b00_0000_0110001111_0000000011_0100100_00000 false) = .ok (.pnot .sal ⟨.always, 3, false⟩) ∧
  decodeMove (Move.ofWord 0b00_0000_0100001111_0000000011_0100101_00000 false) = .ok (.psure .ala ⟨.always, 3, false⟩) ∧
  decodeMove (Move.ofWord 0b00_0000_0100011111_0000000011_0100110_00000 false) = .ok (.poss .alb ⟨.always, 3, false⟩) ∧
  decodeMove (Move.ofWord 0b00_0000_0110001111_0000000011_0100111_00000 false) = .ok (.pass .sal ⟨.always, 3, false⟩) := by
  and_intros <;> rfl

/-- The IMU opcodes in order (R121). -/
theorem test_decode_imu :
  decodeMove (Move.ofWord 0b00_0000_0100101111_0000000011_0000001_10000 false) = .ok (.mul ⟨.always, 3, false⟩ ⟨true, false⟩) ∧
  decodeMove (Move.ofWord 0b00_0000_0100101111_0000000011_0000010_01000 false) = .ok (.mulh ⟨.always, 3, false⟩ ⟨false, true⟩) ∧
  decodeMove (Move.ofWord 0b00_0000_0100101111_0000000011_0000011_11000 false) = .ok (.mulhu ⟨.always, 3, false⟩ ⟨true, true⟩) ∧
  decodeMove (Move.ofWord 0b00_0000_0100101111_0000000011_0000100_01000 false) = .ok (.mad ⟨.always, 3, false⟩ true) ∧
  decodeMove (Move.ofWord 0b00_0000_0100101111_0000000011_0000101_01000 false) = .ok (.mulw ⟨.always, 3, false⟩ ⟨false, true⟩) ∧
  decodeMove (Move.ofWord 0b00_0000_0100101111_0000000011_0000110_11000 false) = .ok (.mulwu ⟨.always, 3, false⟩ ⟨true, true⟩) ∧
  decodeMove (Move.ofWord 0b00_0000_0100101111_0000000011_0000111_10000 false) = .ok (.div ⟨.always, 3, false⟩ ⟨true, false⟩) ∧
  decodeMove (Move.ofWord 0b00_0000_0100101111_0000000011_0001000_01000 false) = .ok (.divu ⟨.always, 3, false⟩ ⟨false, true⟩) ∧
  decodeMove (Move.ofWord 0b00_0000_0100101111_0000000011_0001001_11000 false) = .ok (.rem ⟨.always, 3, false⟩ ⟨true, true⟩) ∧
  decodeMove (Move.ofWord 0b00_0000_0100101111_0000000011_0001010_10000 false) = .ok (.remu ⟨.always, 3, false⟩ ⟨true, false⟩) := by
  and_intros <;> rfl

/-- The FPU opcodes in order (R122, R123). -/
theorem test_decode_fpu :
  decodeMove (Move.ofWord 0b00_0000_0100111111_0000000011_0000001_00001 false) = .ok (.fadd .fpa ⟨.always, 3, false⟩ ⟨.f32, .rtz⟩) ∧
  decodeMove (Move.ofWord 0b00_0000_0101001111_0000000011_0000010_00110 false) = .ok (.fsub .fpb ⟨.always, 3, false⟩ ⟨.f64, .rup⟩) ∧
  decodeMove (Move.ofWord 0b00_0000_0100111111_0000000011_0000011_01011 false) = .ok (.fmul .fpa ⟨.always, 3, false⟩ ⟨.f16, .rdn⟩) ∧
  decodeMove (Move.ofWord 0b00_0000_0101001111_0000000011_0000100_01100 false) = .ok (.ffma .fpb ⟨.always, 3, false⟩ ⟨.bf16, .rne⟩) ∧
  decodeMove (Move.ofWord 0b00_0000_0100111111_0000000011_0000101_00000 false) = .ok (.fmin .fpa ⟨.always, 3, false⟩ .f32) ∧
  decodeMove (Move.ofWord 0b00_0000_0101001111_0000000011_0000110_00100 false) = .ok (.fmax .fpb ⟨.always, 3, false⟩ .f64) ∧
  decodeMove (Move.ofWord 0b00_0000_0100111111_0000000011_0000111_01011 false) = .ok (.fcmp .fpa ⟨.always, 3, false⟩ ⟨.f16, .ne⟩) ∧
  decodeMove (Move.ofWord 0b00_0000_0101001111_0000000011_0001000_01100 false) = .ok (.fclass .fpb ⟨.always, 3, false⟩ .bf16) ∧
  decodeMove (Move.ofWord 0b00_0000_0100111111_0000000011_0001001_00001 false) = .ok (.fcvt .fpa ⟨.always, 3, false⟩ ⟨.f32, .rtz⟩) ∧
  decodeMove (Move.ofWord 0b00_0000_0101001111_0000000011_0001010_10110 false) = .ok (.fcvti .fpb ⟨.always, 3, false⟩ ⟨true, .f64, .rup⟩) ∧
  decodeMove (Move.ofWord 0b00_0000_0100111111_0000000011_0001011_11011 false) = .ok (.icvtf .fpa ⟨.always, 3, false⟩ ⟨true, .f16, .rdn⟩) ∧
  decodeMove (Move.ofWord 0b00_0000_0101001111_0000000011_0001100_01100 false) = .ok (.frnd .fpb ⟨.always, 3, false⟩ ⟨.bf16, .rne⟩) ∧
  decodeMove (Move.ofWord 0b00_0000_0100111111_0000000011_0001101_00001 false) = .ok (.fsgn .fpa ⟨.always, 3, false⟩ ⟨.f32, .ns⟩) ∧
  decodeMove (Move.ofWord 0b00_0000_0100111111_0000000011_0010000_00000 false) = .ok (.ivadd .fpa ⟨.always, 3, false⟩) ∧
  decodeMove (Move.ofWord 0b00_0000_0101001111_0000000011_0010001_00000 false) = .ok (.ivsub .fpb ⟨.always, 3, false⟩) ∧
  decodeMove (Move.ofWord 0b00_0000_0100111111_0000000011_0010010_00000 false) = .ok (.ivmul .fpa ⟨.always, 3, false⟩) ∧
  decodeMove (Move.ofWord 0b00_0000_0101001111_0000000011_0010011_00000 false) = .ok (.ivfma .fpb ⟨.always, 3, false⟩) ∧
  decodeMove (Move.ofWord 0b00_0000_0100111111_0000000011_0010100_00000 false) = .ok (.ivsqr .fpa ⟨.always, 3, false⟩) ∧
  decodeMove (Move.ofWord 0b00_0000_0101001111_0000000011_0010101_00000 false) = .ok (.ivhull .fpb ⟨.always, 3, false⟩) ∧
  decodeMove (Move.ofWord 0b00_0000_0100111111_0000000011_0010110_00000 false) = .ok (.ivmeet .fpa ⟨.always, 3, false⟩) ∧
  decodeMove (Move.ofWord 0b00_0000_0101001111_0000000011_0010111_00000 false) = .ok (.ivmid .fpb ⟨.always, 3, false⟩) ∧
  decodeMove (Move.ofWord 0b00_0000_0100111111_0000000011_0011000_00000 false) = .ok (.ivwid .fpa ⟨.always, 3, false⟩) ∧
  decodeMove (Move.ofWord 0b00_0000_0101001111_0000000011_0011001_00010 false) = .ok (.ivcmp .fpb ⟨.always, 3, false⟩ .le) ∧
  decodeMove (Move.ofWord 0b00_0000_0100111111_0000000011_0011010_00000 false) = .ok (.ivmake .fpa ⟨.always, 3, false⟩) ∧
  decodeMove (Move.ofWord 0b00_0000_0101001111_0000000011_0011011_00000 false) = .ok (.ivlo .fpb ⟨.always, 3, false⟩) ∧
  decodeMove (Move.ofWord 0b00_0000_0100111111_0000000011_0011100_00000 false) = .ok (.ivhi .fpa ⟨.always, 3, false⟩) ∧
  decodeMove (Move.ofWord 0b00_0000_0101001111_0000000011_0011101_00000 false) = .ok (.ivbis .fpb ⟨.always, 3, false⟩) ∧
  decodeMove (Move.ofWord 0b00_0000_0100111111_0000000011_0011110_00000 false) = .ok (.ivabs .fpa ⟨.always, 3, false⟩) ∧
  decodeMove (Move.ofWord 0b00_0000_0101001111_0000000011_0011111_00000 false) = .ok (.ivin .fpb ⟨.always, 3, false⟩) := by
  and_intros <;> rfl

/-- The XFU opcodes in order (R124, R125). -/
theorem test_decode_xfu :
  decodeMove (Move.ofWord 0b00_0000_0101011111_0000000011_0000001_00000 false) = .ok (.rcp ⟨.always, 3, false⟩ .f32) ∧
  decodeMove (Move.ofWord 0b00_0000_0101011111_0000000011_0000010_01000 false) = .ok (.rsq ⟨.always, 3, false⟩ .f16) ∧
  decodeMove (Move.ofWord 0b00_0000_0101011111_0000000011_0000011_01100 false) = .ok (.sqrt ⟨.always, 3, false⟩ .bf16) ∧
  decodeMove (Move.ofWord 0b00_0000_0101011111_0000000011_0000100_00000 false) = .ok (.exp2 ⟨.always, 3, false⟩ .f32) ∧
  decodeMove (Move.ofWord 0b00_0000_0101011111_0000000011_0000101_01000 false) = .ok (.log2 ⟨.always, 3, false⟩ .f16) ∧
  decodeMove (Move.ofWord 0b00_0000_0101011111_0000000011_0000110_01100 false) = .ok (.sin ⟨.always, 3, false⟩ .bf16) ∧
  decodeMove (Move.ofWord 0b00_0000_0101011111_0000000011_0000111_00000 false) = .ok (.cos ⟨.always, 3, false⟩ .f32) ∧
  decodeMove (Move.ofWord 0b00_0000_0101011111_0000000011_0001000_01000 false) = .ok (.tanh ⟨.always, 3, false⟩ .f16) ∧
  decodeMove (Move.ofWord 0b00_0000_0101011111_0000000011_0001001_00000 false) = .ok (.ivrcp ⟨.always, 3, false⟩) ∧
  decodeMove (Move.ofWord 0b00_0000_0101011111_0000000011_0001010_00000 false) = .ok (.ivsqrt ⟨.always, 3, false⟩) ∧
  decodeMove (Move.ofWord 0b00_0000_0101011111_0000000011_0001011_00000 false) = .ok (.ivexp2 ⟨.always, 3, false⟩) ∧
  decodeMove (Move.ofWord 0b00_0000_0101011111_0000000011_0001100_00000 false) = .ok (.ivlog2 ⟨.always, 3, false⟩) ∧
  decodeMove (Move.ofWord 0b00_0000_0101011111_0000000011_0001101_01000 false) = .ok (.cvtn ⟨.always, 3, false⟩ ⟨.e4m3, true⟩) ∧
  decodeMove (Move.ofWord 0b00_0000_0101011111_0000000011_0001110_00110 false) = .ok (.cvtw ⟨.always, 3, false⟩ .int2) ∧
  decodeMove (Move.ofWord 0b00_0000_0101011111_0000000011_0001111_00000 false) = .ok (.shfi ⟨.always, 3, false⟩) ∧
  decodeMove (Move.ofWord 0b00_0000_0101011111_0000000011_0010000_00001 false) = .ok (.shup ⟨.always, 3, false⟩ true) ∧
  decodeMove (Move.ofWord 0b00_0000_0101011111_0000000011_0010001_00001 false) = .ok (.shdn ⟨.always, 3, false⟩ true) ∧
  decodeMove (Move.ofWord 0b00_0000_0101011111_0000000011_0010010_00000 false) = .ok (.shxr ⟨.always, 3, false⟩) ∧
  decodeMove (Move.ofWord 0b00_0000_0101011111_0000000011_0010011_00010 false) = .ok (.vote ⟨.always, 3, false⟩ .uni) ∧
  decodeMove (Move.ofWord 0b00_0000_0101011111_0000000011_0010100_00000 false) = .ok (.ballot ⟨.always, 3, false⟩) ∧
  decodeMove (Move.ofWord 0b00_0000_0101011111_0000000011_0010101_01000 false) = .ok (.rdsum ⟨.always, 3, false⟩ true) ∧
  decodeMove (Move.ofWord 0b00_0000_0101011111_0000000011_0010110_01100 false) = .ok (.rdmax ⟨.always, 3, false⟩ ⟨true, true⟩) ∧
  decodeMove (Move.ofWord 0b00_0000_0101011111_0000000011_0010111_00111 false) = .ok (.rdfsum ⟨.always, 3, false⟩ ⟨true, .rdn⟩) := by
  and_intros <;> rfl

/-- The LSU opcodes in order (R126, R127). -/
theorem test_decode_lsu :
  decodeMove (Move.ofWord 0b00_0000_0101101111_0000000011_0000001_11001 false) = .ok (.ld .lsa ⟨.always, 3, false⟩ ⟨true, .s, .a⟩) ∧
  decodeMove (Move.ofWord 0b00_0000_0101111111_0000000011_0000010_11110 false) = .ok (.lds .lsb ⟨.always, 3, false⟩ ⟨true, .d, .w⟩) ∧
  decodeMove (Move.ofWord 0b00_0000_0101101111_0000000011_0000011_01111 false) = .ok (.ldp .lsa ⟨.always, 3, false⟩ ⟨false, .pa⟩) ∧
  decodeMove (Move.ofWord 0b00_0000_0101111111_0000000011_0000100_10100 false) = .ok (.st .lsb ⟨.always, 3, false⟩ ⟨true, .h, .g⟩) ∧
  decodeMove (Move.ofWord 0b00_0000_0101101111_0000000011_0000101_01101 false) = .ok (.stp .lsa ⟨.always, 3, false⟩ ⟨false, .a⟩) ∧
  decodeMove (Move.ofWord 0b00_0000_0101111111_0000000011_0000110_11110 false) = .ok (.ldx .lsb ⟨.always, 3, false⟩ ⟨true, 3, .w⟩) ∧
  decodeMove (Move.ofWord 0b00_0000_0101101111_0000000011_0000111_00111 false) = .ok (.lda .lsa ⟨.always, 3, false⟩ ⟨.wg, true, .pa⟩) ∧
  decodeMove (Move.ofWord 0b00_0000_0101111111_0000000011_0001000_01100 false) = .ok (.stl .lsb ⟨.always, 3, false⟩ ⟨.cl, true, .g⟩) ∧
  decodeMove (Move.ofWord 0b00_0000_0101101111_0000000011_0001001_01101 false) = .ok (.ldiv .lsa ⟨.always, 3, false⟩ ⟨false, .a⟩) ∧
  decodeMove (Move.ofWord 0b00_0000_0101111111_0000000011_0001010_01110 false) = .ok (.stiv .lsb ⟨.always, 3, false⟩ ⟨false, .w⟩) ∧
  decodeMove (Move.ofWord 0b00_0000_0101101111_0000000011_0001011_10000 false) = .ok (.aadd .lsa ⟨.always, 3, false⟩ ⟨.dev, false, .g⟩) ∧
  decodeMove (Move.ofWord 0b00_0000_0101111111_0000000011_0001100_11100 false) = .ok (.amin .lsb ⟨.always, 3, false⟩ ⟨.sys, true, .g⟩) ∧
  decodeMove (Move.ofWord 0b00_0000_0101101111_0000000011_0001101_00001 false) = .ok (.amax .lsa ⟨.always, 3, false⟩ ⟨.wg, false, .a⟩) ∧
  decodeMove (Move.ofWord 0b00_0000_0101111111_0000000011_0001110_10101 false) = .ok (.aminu .lsb ⟨.always, 3, false⟩ ⟨.dev, true, .a⟩) ∧
  decodeMove (Move.ofWord 0b00_0000_0101101111_0000000011_0001111_11001 false) = .ok (.amaxu .lsa ⟨.always, 3, false⟩ ⟨.sys, false, .a⟩) ∧
  decodeMove (Move.ofWord 0b00_0000_0101111111_0000000011_0010000_00111 false) = .ok (.aand .lsb ⟨.always, 3, false⟩ ⟨.wg, true, .pa⟩) ∧
  decodeMove (Move.ofWord 0b00_0000_0101101111_0000000011_0010001_10011 false) = .ok (.aor .lsa ⟨.always, 3, false⟩ ⟨.dev, false, .pa⟩) ∧
  decodeMove (Move.ofWord 0b00_0000_0101111111_0000000011_0010010_11111 false) = .ok (.axor .lsb ⟨.always, 3, false⟩ ⟨.sys, true, .pa⟩) ∧
  decodeMove (Move.ofWord 0b00_0000_0101101111_0000000011_0010011_00000 false) = .ok (.axchg .lsa ⟨.always, 3, false⟩ ⟨.wg, false, .g⟩) ∧
  decodeMove (Move.ofWord 0b00_0000_0101111111_0000000011_0010100_10100 false) = .ok (.acas .lsb ⟨.always, 3, false⟩ ⟨.dev, true, .g⟩) ∧
  decodeMove (Move.ofWord 0b00_0000_0101101111_0000000011_0010101_11100 false) = .ok (.acas2 .lsa ⟨.always, 3, false⟩ ⟨.sys, .g⟩) ∧
  decodeMove (Move.ofWord 0b00_0000_0101111111_0000000011_0010110_00101 false) = .ok (.afadd .lsb ⟨.always, 3, false⟩ ⟨.wg, true, .a⟩) ∧
  decodeMove (Move.ofWord 0b00_0000_0101101111_0000000011_0010111_00000 false) = .ok (.qsync .lsa ⟨.always, 3, false⟩) ∧
  decodeMove (Move.ofWord 0b00_0000_0101111111_0000000011_0011000_10000 false) = .ok (.pref .lsb ⟨.always, 3, false⟩ true) := by
  and_intros <;> rfl

/-- The BRU opcodes in order (R128). -/
theorem test_decode_bru :
  decodeMove (Move.ofWord 0b00_0000_0110011111_0000000011_0000001_00000 false) = .ok (.br ⟨.always, 3, false⟩) ∧
  decodeMove (Move.ofWord 0b00_0000_0110011111_0000000011_0000010_00000 false) = .ok (.bri ⟨.always, 3, false⟩) ∧
  decodeMove (Move.ofWord 0b00_0000_0110011111_0000000011_0000011_00000 false) = .ok (.call ⟨.always, 3, false⟩) ∧
  decodeMove (Move.ofWord 0b00_0000_0110011111_0000000011_0000100_00000 false) = .ok (.ret ⟨.always, 3, false⟩) ∧
  decodeMove (Move.ofWord 0b00_0000_0110011111_0000000011_0000101_00010 false) = .ok (.brp ⟨.always, 3, false⟩ .ux) ∧
  decodeMove (Move.ofWord 0b00_0000_0110011111_0000000011_0000110_00000 false) = .ok (.brp3 ⟨.always, 3, false⟩) ∧
  decodeMove (Move.ofWord 0b00_0000_0110011111_0000000011_0000111_00001 false) = .ok (.brany ⟨.always, 3, false⟩ .ut) ∧
  decodeMove (Move.ofWord 0b00_0000_0110011111_0000000011_0001000_00000 false) = .ok (.brall ⟨.always, 3, false⟩ .uf) ∧
  decodeMove (Move.ofWord 0b00_0000_0110011111_0000000011_0001001_00000 false) = .ok (.loop ⟨.always, 3, false⟩) ∧
  decodeMove (Move.ofWord 0b00_0000_0110011111_0000000011_0001010_00000 false) = .ok (.lbrk ⟨.always, 3, false⟩) ∧
  decodeMove (Move.ofWord 0b00_0000_0110011111_0000000011_0001011_00000 false) = .ok (.exit ⟨.always, 3, false⟩) ∧
  decodeMove (Move.ofWord 0b00_0000_0110011111_0000000011_0001100_00000 false) = .ok (.yield ⟨.always, 3, false⟩) := by
  and_intros <;> rfl

/-- The MXE opcodes in order (R129). -/
theorem test_decode_mxe :
  decodeMove (Move.ofWord 0b00_0000_0110101111_0000000011_0000001_01011 false) = .ok (.mma ⟨.always, 3, false⟩ ⟨3, true, false⟩) ∧
  decodeMove (Move.ofWord 0b00_0000_0110101111_0000000011_0000010_11100 false) = .ok (.mmab ⟨.always, 3, false⟩ ⟨4, true, true⟩) ∧
  decodeMove (Move.ofWord 0b00_0000_0110101111_0000000011_0000011_01101 false) = .ok (.mmai ⟨.always, 3, false⟩ ⟨5, true, false⟩) ∧
  decodeMove (Move.ofWord 0b00_0000_0110101111_0000000011_0000100_01110 false) = .ok (.mxzero ⟨.always, 3, false⟩ ⟨6, true⟩) ∧
  decodeMove (Move.ofWord 0b00_0000_0110101111_0000000011_0000101_00111 false) = .ok (.mxdrain ⟨.always, 3, false⟩ 7) ∧
  decodeMove (Move.ofWord 0b00_0000_0110101111_0000000011_0000110_00000 false) = .ok (.mxred ⟨.always, 3, false⟩ 0) ∧
  decodeMove (Move.ofWord 0b00_0000_0110101111_0000000011_0000111_01001 false) = .ok (.mxld ⟨.always, 3, false⟩ ⟨1, true⟩) ∧
  decodeMove (Move.ofWord 0b00_0000_0110101111_0000000011_0001000_00010 false) = .ok (.mxst ⟨.always, 3, false⟩ 2) ∧
  decodeMove (Move.ofWord 0b00_0000_0110101111_0000000011_0001001_00011 false) = .ok (.mxrel ⟨.always, 3, false⟩ 3) := by
  and_intros <;> rfl

/-- The CFE opcodes in order (R130). -/
theorem test_decode_cfe :
  decodeMove (Move.ofWord 0b00_0000_0110111111_0000000011_0000001_01111 false) = .ok (.cpack ⟨.always, 3, false⟩ 15) ∧
  decodeMove (Move.ofWord 0b00_0000_0110111111_0000000011_0000010_01110 false) = .ok (.cpackv ⟨.always, 3, false⟩ 14) ∧
  decodeMove (Move.ofWord 0b00_0000_0110111111_0000000011_0000011_01101 false) = .ok (.cmul ⟨.always, 3, false⟩ 13) ∧
  decodeMove (Move.ofWord 0b00_0000_0110111111_0000000011_0000100_01100 false) = .ok (.cmac ⟨.always, 3, false⟩ 12) ∧
  decodeMove (Move.ofWord 0b00_0000_0110111111_0000000011_0000101_01011 false) = .ok (.csqr ⟨.always, 3, false⟩ 11) ∧
  decodeMove (Move.ofWord 0b00_0000_0110111111_0000000011_0000110_01010 false) = .ok (.cadd ⟨.always, 3, false⟩ 10) ∧
  decodeMove (Move.ofWord 0b00_0000_0110111111_0000000011_0000111_01001 false) = .ok (.csub ⟨.always, 3, false⟩ 9) ∧
  decodeMove (Move.ofWord 0b00_0000_0110111111_0000000011_0001000_01000 false) = .ok (.cshl ⟨.always, 3, false⟩ 8) ∧
  decodeMove (Move.ofWord 0b00_0000_0110111111_0000000011_0001001_00000 false) = .ok (.cext ⟨.always, 3, false⟩) ∧
  decodeMove (Move.ofWord 0b00_0000_0110111111_0000000011_0001010_00000 false) = .ok (.cextv ⟨.always, 3, false⟩) ∧
  decodeMove (Move.ofWord 0b00_0000_0110111111_0000000011_0001011_00000 false) = .ok (.cgw ⟨.always, 3, false⟩) ∧
  decodeMove (Move.ofWord 0b00_0000_0110111111_0000000011_0001100_00100 false) = .ok (.cclr ⟨.always, 3, false⟩ 4) ∧
  decodeMove (Move.ofWord 0b00_0000_0110111111_0000000011_0001101_00011 false) = .ok (.cbig ⟨.always, 3, false⟩ 3) := by
  and_intros <;> rfl

/-- The CPY opcodes in order (R131). -/
theorem test_decode_cpy :
  decodeMove (Move.ofWord 0b00_0000_0111001111_0000000011_0000001_00000 false) = .ok (.dcopy ⟨.always, 3, false⟩ ⟨.wg, false⟩) ∧
  decodeMove (Move.ofWord 0b00_0000_0111001111_0000000011_0000010_00101 false) = .ok (.dfill ⟨.always, 3, false⟩ ⟨.cl, true⟩) ∧
  decodeMove (Move.ofWord 0b00_0000_0111001111_0000000011_0000011_00010 false) = .ok (.dgath ⟨.always, 3, false⟩ ⟨.dev, false⟩) ∧
  decodeMove (Move.ofWord 0b00_0000_0111001111_0000000011_0000100_00111 false) = .ok (.dscat ⟨.always, 3, false⟩ ⟨.sys, true⟩) ∧
  decodeMove (Move.ofWord 0b00_0000_0111001111_0000000011_0000101_00100 false) = .ok (.dstat ⟨.always, 3, false⟩ true) := by
  and_intros <;> rfl

/-- The SYN opcodes in order (R134). -/
theorem test_decode_syn :
  decodeMove (Move.ofWord 0b00_0000_0111011111_0000000011_0000001_00001 false) = .ok (.bar ⟨.always, 3, false⟩ .cl) ∧
  decodeMove (Move.ofWord 0b00_0000_0111011111_0000000011_0000010_00010 false) = .ok (.bara ⟨.always, 3, false⟩ .grid) ∧
  decodeMove (Move.ofWord 0b00_0000_0111011111_0000000011_0000011_00011 false) = .ok (.barw ⟨.always, 3, false⟩ .sh) ∧
  decodeMove (Move.ofWord 0b00_0000_0111011111_0000000011_0000100_00000 false) = .ok (.boinit ⟨.always, 3, false⟩) ∧
  decodeMove (Move.ofWord 0b00_0000_0111011111_0000000011_0000101_00001 false) = .ok (.boarr ⟨.always, 3, false⟩ true) ∧
  decodeMove (Move.ofWord 0b00_0000_0111011111_0000000011_0000110_00000 false) = .ok (.boexp ⟨.always, 3, false⟩) ∧
  decodeMove (Move.ofWord 0b00_0000_0111011111_0000000011_0000111_00000 false) = .ok (.bowait ⟨.always, 3, false⟩) ∧
  decodeMove (Move.ofWord 0b00_0000_0111011111_0000000011_0001000_00001 false) = .ok (.botest ⟨.always, 3, false⟩ true) ∧
  decodeMove (Move.ofWord 0b00_0000_0111011111_0000000011_0001001_00000 false) = .ok (.boinv ⟨.always, 3, false⟩) := by
  and_intros <;> rfl

/-- The SYS opcodes in order (R135). -/
theorem test_decode_sys :
  decodeMove (Move.ofWord 0b00_0000_0111101111_0000000011_0000001_10010 false) = .ok (.fence ⟨.always, 3, false⟩ ⟨.dev, .rel⟩) ∧
  decodeMove (Move.ofWord 0b00_0000_0111101111_0000000011_0000010_11000 false) = .ok (.acq ⟨.always, 3, false⟩ .sys) ∧
  decodeMove (Move.ofWord 0b00_0000_0111101111_0000000011_0000011_01000 false) = .ok (.rel ⟨.always, 3, false⟩ .cl) ∧
  decodeMove (Move.ofWord 0b00_0000_0111101111_0000000011_0000100_00000 false) = .ok (.trap ⟨.always, 3, false⟩) ∧
  decodeMove (Move.ofWord 0b00_0000_0111101111_0000000011_0000101_00000 false) = .ok (.brk ⟨.always, 3, false⟩) ∧
  decodeMove (Move.ofWord 0b00_0000_0111101111_0000000011_0000110_00000 false) = .ok (.csrrd ⟨.always, 3, false⟩) ∧
  decodeMove (Move.ofWord 0b00_0000_0111101111_0000000011_0000111_00000 false) = .ok (.csrwr ⟨.always, 3, false⟩) ∧
  decodeMove (Move.ofWord 0b00_0000_0111101111_0000000011_0001000_00000 false) = .ok (.launch ⟨.always, 3, false⟩) ∧
  decodeMove (Move.ofWord 0b00_0000_0111101111_0000000011_0001001_00000 false) = .ok (.lwait ⟨.always, 3, false⟩) ∧
  decodeMove (Move.ofWord 0b00_0000_0111101111_0000000011_0001010_00000 false) = .ok (.ivspawn ⟨.always, 3, false⟩) ∧
  decodeMove (Move.ofWord 0b00_0000_0111101111_0000000011_0001011_00000 false) = .ok (.svc ⟨.always, 3, false⟩) ∧
  decodeMove (Move.ofWord 0b00_0000_0111101111_0000000011_0001100_00000 false) = .ok (.tstamp ⟨.always, 3, false⟩) ∧
  decodeMove (Move.ofWord 0b00_0000_0111101111_0000000011_0001101_00000 false) = .ok (.yields ⟨.always, 3, false⟩) := by
  and_intros <;> rfl

/-! ## What is not well formed -/

/-- One term for each check that refuses an instruction. -/
theorem test_ill_formed_operations : ∀ i ∈ [Instr.cvtn hd ⟨.e3m2, true⟩, .bundleIssue ⟨.narrow, 0, false, false, []⟩, .bundleIssue ⟨.wide, 0, false, false, [Move.empty]⟩,
    .bundleIssue ⟨.wideLimm 0 0, 0, false, false, []⟩], i.wf = false := by decide +kernel
theorem test_ill_formed_sheets : ∀ i ∈ [Instr.resultLanding 24576 .ala 0, .loadPerformed 24576 0, .divideComplete 24576 0, .storePerformedAtL1 24576 0, .xpcfgWrite 24576,
    .bankFormatWrite 24576, .statusLanding 24576 .mxe, .bowaitTimeout 24576, .lateCauseStop 24576, .faultHandling 24576, .emulation 24576, .resumedBundle 24576,
    .debuggerResume 24576, .debuggerSkip 24576, .debuggerTerminate 24576, .watchdog 24576, .uncorrectable (.move 24576 0), .sampleRecord 0 16 24592 0, .sampleRecord 40 16 0 0, .svcAnswer 24576 0,
    .sheetExit 24576, .drainPointStop 24576, .pageRequestEnqueue (.sheet 24576)], i.wf = false := by decide +kernel
theorem test_ill_formed_cores : ∀ i ∈ [Instr.homeInvalidation 1536 0, .commandIssue 1536 0, .commandIssue 0 32, .operandsConsumed 0 32, .commandCompletion 1536 0, .commandCancel 0 32,
    .commandResume 1536 0, .uncorrectable (.command 0 32), .scrubStart 1536 0, .scrubStart 0 2, .scrubComplete 0 2, .pageWalk 1536 0 0, .pageWalk 0 1024 0,
    .pageRequestEnqueue (.command 0 32), .coreAssignmentWrite 0 1536 0, .coreAssignmentEffect 1536, .networkSectorGrant 1536, .refillPeriodEnd 1536, .clockStepConfirm 1536,
    .reservationGrant 192, .pairBalance 96 0 0, .railFall 24, .railSettled 24, .voltageVote 24 0 650, .voltageVote 0 40 650, .memoryRequestArrival 128 0 1 0, .memoryRequestServe 128],
    i.wf = false := by decide +kernel
theorem test_ill_formed_partitions : ∀ i ∈ [Instr.roundClose 40 0 0, .roundClose 0 64 0, .roundFailure 0 64 0, .softErrorCorrected ⟨40, 0⟩, .softErrorCorrected ⟨0, 1536⟩, .dispatchBatch 40,
    .classGRequest 40, .graphBoundaryStop 40, .classGEscalation 40, .classDRequest 40, .forcedStopDeadline 40, .contextSave 40 false, .contextRestore 40, .contextKill 40,
    .partitionTableWrite 0 40 0, .partitionTableWrite 2 0 0, .reductionGroupWrite 0 40 0 0, .reductionGroupWrite 0 0 64 0, .reductionGroupWrite 2 0 0 0, .pinRelease 40,
    .managementRegisterWrite 0 (.fdisp 40) 0, .managementRegisterWrite 0 (.wdlim 40) 0, .managementRegisterWrite 0 (.dirty 40) 0, .boostLeaseRequest 0 40 0 0,
    .boostLeaseRequest 2 0 0 0, .leaseExpiry 40, .leaseRetry 40, .counterRead .operator 40 0, .counterRead .operator 0 64, .counterLowRead .operator 0 64,
    .counterHighRead .operator 0 64, .counterWindowEnd 0 64, .pcselWrite 0 15 0, .pcselWrite 0 64 0, .pcselWrite 40 16 0, .ringDescriptorWrite 0 40 ⟨true, true⟩ ⟨0, 16, true, 0, 0⟩,
    .ringDescriptorWrite 2 0 ⟨true, true⟩ ⟨0, 16, true, 0, 0⟩, .ringReadAdvance 40 ⟨true, true⟩ 0, .precopyRound 40, .precopyFinal 40, .pageMessageReceive 40 ⟨0, [], 0⟩,
    .imageMessageReceive 40 ⟨0, [], 0⟩], i.wf = false := by decide +kernel
theorem test_ill_formed_functions_and_ports : ∀ i ∈ [Instr.launchSubmission 1024 8 0, .functionLevelReset 1024, .vfAssignmentWrite 0 1024 0, .vfAssignmentWrite 0 0 64,
    .vfAssignmentWrite 2 0 0, .managementRegisterWrite 0 (.troot 1024) 0, .managementRegisterWrite 2 .enga 0, .managementRegisterWrite 2 .firmware 0, .managementRegisterWrite 0 (.reserved 10) 0, .managementRegisterWrite 0 (.route 4096) 0, .lerrRead 1024, .irqstWrite 1024 0,
    .pageRequestMapped 2 0 0, .pageRequestMapped 0 4 0, .pageRequestRefused 0 4 0, .translationInvalidation 2 .all, .policySubmit 2 [], .semaphoreRead 2 0 false,
    .semaphoreRead 0 16 false, .semaphoreRelease 0 16, .portLinkDown 2, .linkTraining 2 0, .hostPostedWrite 2 0 [], .hostRead 2 (.memory 0) 1, .hostRead 0 (.register (.fdisp 40)) 8, .linkFailure 12 none, .linkFailure 0 (some 24), .precopyGo 2 0,
    .hostStoreToCoherentMapping 2 0 []], i.wf = false := by decide +kernel
/-- An event that names no unit of the device stops; a well-formed one does not. -/
theorem test_no_such_unit : exec (.lerrRead 1024) State.reset = .fault .noSuchUnit ∧ (Instr.lerrRead 1023).wf = true ∧ exec (.lerrRead 1023) State.reset ≠ .fault .noSuchUnit := by
  refine ⟨rfl, by decide +kernel, ?_⟩
  intro h
  have h2 : (match exec (.lerrRead 1023) State.reset with | .next _ => true | _ => false) = true := by decide +kernel
  rw [h] at h2
  cases h2

/-! ## Bundles and markers written out (R92 to R103) -/

theorem test_decode_bundle : decode (leBytes 16 (3 + 2 ^ 2 + 2 ^ 6 + 2 ^ 7 * 5 + 2 ^ 36 * 0x3FF + 2 ^ 74 * 0x3FF + 2 ^ 112 * 0x3FF)) =
    .ok (.bundleIssue ⟨.narrow, 5, true, true, [Move.empty, Move.empty, Move.empty]⟩) ∧
    decode (leBytes 16 (1 + 2 ^ 10 * 2 + 2 ^ 24 * 1000 + 2 ^ 64 * 7 + 2 ^ 80 * 9)) = .ok (.markerBundle ⟨9, 7, 1000, 2, false, false⟩) := by
  and_intros <;> rfl

/-! ## Operations on the examples of their rules -/

theorem test_add : lane (.add .ala hd ⟨false, true⟩) .ala 0x7FFFFFFF 0 1 = (some 0xFFFFFFFF80000000, none, 0) ∧
    lane (.add .ala hd ⟨false, false⟩) .ala 0x7FFFFFFF 0 1 = (some 0x80000000, none, 0) := by decide +kernel
theorem test_andn : lane (.andn .alb hd ⟨false, false⟩) .alb 0xFF 0 0x0F = (some 0xF0, none, 0) := by decide +kernel
theorem test_and_or_xor : lane (.and .ala hd ⟨true, false⟩) .ala 0 0xC 0xA = (some 8, none, 0) ∧
    lane (.or .ala hd ⟨false, false⟩) .ala 0xC 0 0xA = (some 0xE, none, 0) ∧
    lane (.xor .ala hd ⟨false, false⟩) .ala 0xC 0 0xA = (some 6, none, 0) := by decide +kernel
theorem test_sub_rsub : lane (.rsub .ala hd ⟨false, false⟩) .ala 3 0 10 = (some 7, none, 0) ∧
    lane (.sub .ala hd ⟨false, false⟩) .ala 3 0 10 = (some 0xFFFFFFFFFFFFFFF9, none, 0) := by decide +kernel
theorem test_lea : lane (.lea .ala hd ⟨false, false, 3⟩) .ala 0x1000 0 3 = (some 0x1018, none, 0) := by decide +kernel
theorem test_abs : lane (.abs .ala hd true) .ala 0 0 0x80000000 = (some 0xFFFFFFFF80000000, none, 0) ∧
    lane (.abs .ala hd false) .ala 0 0 (-7) = (some 7, none, 0) := by decide +kernel
theorem test_brev : lane (.brev .ala hd true) .ala 0 0 1 = (some 0xFFFFFFFF80000000, none, 0) := by decide +kernel
theorem test_clz_ctz : lane (.clz .ala hd false) .ala 0 0 0x100000000 = (some 31, none, 0) ∧
    lane (.clz .ala hd true) .ala 0 0 0x100000000 = (some 32, none, 0) ∧
    lane (.ctz .ala hd false) .ala 0 0 0x100000000 = (some 32, none, 0) := by decide +kernel
theorem test_popc : lane (.popc .ala hd false) .ala 0 0 0xFFFFFFFF00000001 = (some 33, none, 0) ∧
    lane (.popc .ala hd true) .ala 0 0 0xFFFFFFFF00000001 = (some 1, none, 0) := by decide +kernel
theorem test_min_max : lane (.maxu .ala hd ⟨false, true⟩) .ala 0xFFFFFFFF 0 1 = (some 0xFFFFFFFFFFFFFFFF, none, 0) ∧
    lane (.max .ala hd ⟨false, true⟩) .ala 0xFFFFFFFF 0 1 = (some 1, none, 0) ∧
    lane (.min .ala hd ⟨false, true⟩) .ala 0xFFFFFFFF 0 1 = (some 0xFFFFFFFFFFFFFFFF, none, 0) ∧
    lane (.minu .ala hd ⟨false, true⟩) .ala 0xFFFFFFFF 0 1 = (some 1, none, 0) := by decide +kernel
theorem test_shifts : lane (.sar .ala hd ⟨false, true⟩) .ala 0x80000010 0 4 = (some 0xFFFFFFFFF8000001, none, 0) ∧
    lane (.shr .ala hd ⟨false, true⟩) .ala 0x80000010 0 4 = (some 0x08000001, none, 0) ∧
    lane (.shl .ala hd ⟨false, false⟩) .ala 1 0 65 = (some 2, none, 0) ∧
    lane (.rol .ala hd ⟨false, true⟩) .ala 0x80000001 0 1 = (some 3, none, 0) := by decide +kernel
theorem test_compares : lane (.clt .ala hd ⟨false, false⟩) .ala 0xFFFFFFFFFFFFFFFF 0 1 = (some 1, none, 0) ∧
    lane (.cltu .ala hd ⟨false, false⟩) .ala 0xFFFFFFFFFFFFFFFF 0 1 = (some 0, none, 0) ∧
    lane (.ceq .ala hd ⟨false, false⟩) .ala 0x100000005 0 5 = (some 0, none, 0) ∧
    lane (.ceq .ala hd ⟨false, true⟩) .ala 0x100000005 0 5 = (some 1, none, 0) ∧
    lane (.cne .ala hd ⟨false, true⟩) .ala 0x100000005 0 5 = (some 0, none, 0) ∧
    lane (.cle .ala hd ⟨false, false⟩) .ala 5 0 5 = (some 1, none, 0) ∧
    lane (.cleu .ala hd ⟨false, false⟩) .ala 6 0 5 = (some 0, none, 0) := by decide +kernel
theorem test_sel : lane (.sel .ala hd ⟨false, false⟩) .ala 7 1 9 = (some 7, none, 0) ∧
    lane (.sel .ala hd ⟨false, false⟩) .ala 7 2 9 = (some 9, none, 0) ∧
    lane (.sel .ala hd ⟨true, false⟩) .ala 1 8 9 = (some 8, none, 0) := by decide +kernel
theorem test_bfx : lane (.bfx .ala hd ⟨false, false, false⟩) .ala 0x00ABCD00 0 0x0C08 = (some 0xBCD, none, 0) ∧
    lane (.bfx .ala hd ⟨false, false, true⟩) .ala 0x00ABCD00 0 0x0C08 = (some 0xFFFFFFFFFFFFFBCD, none, 0) := by decide +kernel
theorem test_bfi : lane (.bfi .ala hd ⟨false, false⟩) .ala 0xFFFF0000 0xABC 0x0C04 = (some 0xFFFFABC0, none, 0) := by decide +kernel
theorem test_perm : lane (.perm .ala hd false) .ala 0x0706050403020100 0x0F0E0D0C0B0A0908 0xFEDCBA98 = (some 0x0F0E0D0C0B0A0908, none, 0) ∧
    lane (.perm .ala hd false) .ala 0x0706050403020100 0x0F0E0D0C0B0A0908 0x01234567 = (some 0x0001020304050607, none, 0) := by decide +kernel
theorem test_extensions : lane (.sext .ala hd .b16) .ala 0 0 0x12348001 = (some 0xFFFFFFFFFFFF8001, none, 0) ∧
    lane (.zext .ala hd .b8) .ala 0 0 0x12348001 = (some 1, none, 0) ∧ lane (.pass .ala hd) .ala 0 0 5 = (some 5, none, 0) := by decide +kernel
theorem test_three_valued : lane (.por .ala hd false) .ala 2 0 1 = (some 1, none, 0) ∧ lane (.pand .ala hd false) .ala 2 0 1 = (some 2, none, 0) ∧
    lane (.psure .ala hd) .ala 0 0 3 = (some 0, none, 0) ∧ lane (.poss .ala hd) .ala 0 0 3 = (some 1, none, 0) ∧
    lane (.pnot .ala hd) .ala 0 0 0 = (some 1, none, 0) := by decide +kernel
theorem test_mulw : lane (.mulw hd ⟨false, false⟩) .imu 0xFFFFFFFFFFFFFFFD 0 0x4000000000000000 = (some 0x4000000000000000, some 0xFFFFFFFFFFFFFFFF, 0) ∧
    lane (.mulwu hd ⟨false, false⟩) .imu 0xFFFFFFFFFFFFFFFD 0 0x4000000000000000 = (some 0x4000000000000000, some 0x3FFFFFFFFFFFFFFF, 0) := by
  decide
theorem test_products : lane (.mul hd ⟨false, false⟩) .imu 0xFFFFFFFFFFFFFFFD 0 0x4000000000000000 = (some 0x4000000000000000, none, 0) ∧
    lane (.mulh hd ⟨false, false⟩) .imu (-1) 0 2 = (some (-1), none, 0) ∧ lane (.mulhu hd ⟨false, false⟩) .imu (-1) 0 2 = (some 1, none, 0) ∧
    lane (.mad hd true) .imu 3 5 7 = (some 22, none, 0) := by decide +kernel
theorem test_divides : lane (.div hd ⟨false, false⟩) .imu (-7) 0 2 = (some (-3), some (-1), 0) ∧
    lane (.divu hd ⟨false, true⟩) .imu 0xFFFFFFF9 0 2 = (some 0x7FFFFFFC, some 1, 0) ∧
    lane (.rem hd ⟨false, false⟩) .imu (-7) 0 2 = (some (-1), some (-3), 0) ∧
    lane (.remu hd ⟨false, true⟩) .imu 0xFFFFFFF9 0 2 = (some 1, some 0x7FFFFFFC, 0) := by decide +kernel
theorem test_fadd : lane (.fadd .fpa hd ⟨.f32, .rne⟩) .fpa 0x3F800000 0 0x33800000 = (some 0x3F800000, none, 16) ∧
    lane (.fadd .fpa hd ⟨.f32, .rup⟩) .fpa 0x3F800000 0 0x33800000 = (some 0x3F800001, none, 16) := by decide +kernel
theorem test_fsub_zero : lane (.fsub .fpa hd ⟨.f32, .rdn⟩) .fpa 0x3F800000 0 0x3F800000 = (some 0x80000000, none, 0) := by decide +kernel
theorem test_fmul_ffma : lane (.fmul .fpa hd ⟨.f64, .rne⟩) .fpa 0x4008000000000000 0 0x4000000000000000 = (some 0x4018000000000000, none, 0) ∧
    lane (.ffma .fpa hd ⟨.f32, .rne⟩) .fpa 0x40400000 0x40000000 0x3F800000 = (some 0x40E00000, none, 0) := by decide +kernel
theorem test_fmin_fmax : lane (.fmin .fpa hd .f32) .fpa 0 0 0x80000000 = (some 0x80000000, none, 0) ∧
    lane (.fmax .fpa hd .f32) .fpa 0x7FC00000 0 0x3F800000 = (some 0x3F800000, none, 0) := by decide +kernel
theorem test_fcmp_fclass : lane (.fcmp .fpa hd ⟨.f32, .lt⟩) .fpa 0x3F800000 0 0x40000000 = (some 1, none, 0) ∧
    lane (.fcmp .fpa hd ⟨.f32, .eq⟩) .fpa 0x7FC00000 0 0x40000000 = (some 2, none, 0) ∧
    lane (.fclass .fpa hd .f32) .fpa 0 0 0x80000000 = (some 8, none, 0) := by decide +kernel
theorem test_fcvti : lane (.fcvti .fpa hd ⟨false, .f32, .rne⟩) .fpa 0 0 0x40200000 = (some 2, none, 16) ∧
    lane (.fcvti .fpa hd ⟨false, .f32, .rup⟩) .fpa 0 0 0x40200000 = (some 3, none, 16) ∧
    lane (.fcvti .fpa hd ⟨true, .f32, .rne⟩) .fpa 0 0 0x4F32D05E = (some 0x7FFFFFFF, none, 1) := by decide +kernel
theorem test_icvtf_fcvt : lane (.icvtf .fpa hd ⟨false, .f32, .rne⟩) .fpa 0 0 0x1000001 = (some 0x4B800000, none, 16) ∧
    lane (.fcvt .fpa hd ⟨.f64, .rne⟩) .fpa 0 0 0x3F800000 = (some 0x3FF0000000000000, none, 0) := by decide +kernel
theorem test_frnd_fsgn : lane (.frnd .fpa hd ⟨.f32, .rne⟩) .fpa 0 0 0xBE99999A = (some 0x80000000, none, 16) ∧
    lane (.fsgn .fpa hd ⟨.f32, .ns⟩) .fpa 0 0 0x3F800000 = (some 0xBF800000, none, 0) := by decide +kernel
theorem test_ivsqr_ivmul : lane (.ivsqr .fpa hd) .fpa 0 0 0x3F800000C0000000 = (some 0x4080000000000000, none, 0) ∧
    lane (.ivmul .fpa hd) .fpa 0x3F800000C0000000 0 0x3F800000C0000000 = (some 0x40800000C0000000, none, 0) := by decide +kernel
theorem test_iv_sums : lane (.ivadd .fpa hd) .fpa 0x400000003F800000 0 0x400000003F800000 = (some 0x4080000040000000, none, 0) ∧
    lane (.ivsub .fpa hd) .fpa 0x400000003F800000 0 0x400000003F800000 = (some 0x3F800000BF800000, none, 0) ∧
    lane (.ivfma .fpa hd) .fpa 0x400000003F800000 0x400000003F800000 0x400000003F800000 = (some 0x40C0000040000000, none, 0) := by decide +kernel
theorem test_iv_sets : lane (.ivhull .fpa hd) .fpa 0x3F8000003F800000 0 0x4080000040000000 = (some 0x408000003F800000, none, 0) ∧
    (lane (.ivmeet .fpa hd) .fpa 0x3F8000003F800000 0 0x4080000040000000).2.2 = 32 ∧
    lane (.ivin .fpa hd) .fpa 0x400000003F800000 0 0x408000003F800000 = (some 1, none, 0) ∧
    lane (.ivcmp .fpa hd .lt) .fpa 0x400000003F800000 0 0x4080000040400000 = (some 1, none, 0) := by decide +kernel
theorem test_iv_scalars : lane (.ivlo .fpa hd) .fpa 0 0 0x400000003F800000 = (some 0x3F800000, none, 0) ∧
    lane (.ivhi .fpa hd) .fpa 0 0 0x400000003F800000 = (some 0x40000000, none, 0) ∧
    lane (.ivmid .fpa hd) .fpa 0 0 0x400000003F800000 = (some 0x3FC00000, none, 0) ∧
    lane (.ivwid .fpa hd) .fpa 0 0 0x400000003F800000 = (some 0x3F800000, none, 0) := by decide +kernel
theorem test_ivmake_ivbis : lane (.ivmake .fpa hd) .fpa 0x80000000 0 0x3F800000 = (some 0x3F80000000000000, none, 0) ∧
    (lane (.ivmake .fpa hd) .fpa 0x40000000 0 0x3F800000).2.2 = 1 ∧
    lane (.ivbis .fpa hd) .fpa 0 0 0x400000003F800000 = (some 0x3FC000003F800000, some 0x400000003FC00000, 0) ∧
    lane (.ivabs .fpa hd) .fpa 0 0 0x3F800000C0000000 = (some 0x4000000000000000, none, 0) := by decide +kernel

theorem test_roots : lane (.rsq hd .f32) .xfu 0 0 0x40800000 = (some 0x3F000000, none, 0) ∧
    lane (.sqrt hd .f32) .xfu 0 0 0x40000000 = (some 0x3FB504F3, none, 16) ∧ lane (.rcp hd .f32) .xfu 0 0 0 = (some 0x7F800000, none, 2) := by decide +kernel
theorem test_exponentials : lane (.exp2 hd .f32) .xfu 0 0 0xC0400000 = (some 0x3E000000, none, 0) ∧
    lane (.log2 hd .f16) .xfu 0 0 0 = (some 0xFC00, none, 2) := by decide +kernel
theorem test_circular : lane (.cos hd .f32) .xfu 0 0 0x3E800000 = (some 0, none, 0) ∧ lane (.cos hd .f32) .xfu 0 0 0x4B800001 = (some 0x3F800000, none, 0) ∧
    lane (.sin hd .f32) .xfu 0 0 0x3F400000 = (some 0xBF800000, none, 0) ∧ lane (.sin hd .f32) .xfu 0 0 0xC0200000 = (some 0, none, 0) ∧
    lane (.tanh hd .f32) .xfu 0 0 0x41100000 = (some 0x3F800000, none, 16) := by decide +kernel
theorem test_ivrcp : lane (.ivrcp hd) .xfu 0 0 0x4080000000000000 = (some 0x7F8000003E800000, none, 0) := by decide +kernel
theorem test_iv_functions : lane (.ivsqrt hd) .xfu 0 0 0x4180000040800000 = (some 0x4080000040000000, none, 0) ∧
    (lane (.ivlog2 hd) .xfu 0 0 0xBF800000C0000000).2.2 = 32 := by decide +kernel
theorem test_cvtn : lane (.cvtn hd ⟨.e2m1, false⟩) .xfu 0 0 0x40533333 = (some 5, none, 16) ∧ lane (.cvtn hd ⟨.e2m1, false⟩) .xfu 0 0 0x40A00000 = (some 6, none, 16) ∧
    lane (.cvtn hd ⟨.e2m1, false⟩) .xfu 0 0 0x40E00000 = (some 7, none, 20) := by decide +kernel
theorem test_cvtw : lane (.cvtw hd .e2m1) .xfu 0 0 0xB = (some 0xBFC00000, none, 0) ∧
    lane (.cvtw hd .int4) .xfu 0 0 9 = (some 0xFFFFFFFFFFFFFFF9, none, 0) := by decide +kernel

/-! ## Witnesses: the hypotheses of the statements can be met -/

/-- The conditions of `CanIssue` as a check. -/
def canIssueB (s : State) (sh : Sheet) (m : Move) (u : FUnit) : Bool :=
  s.sheet? s.focus == some sh && stageOpen s s.focus sh && sh.issuing == none && !slotWaits s s.focus sh (oneMove m) &&
  bundleOk sh (s.core (coreOf s.focus)).split (oneMove m) && !sh.left && sh.corrupt == none && !sh.armed &&
  Dst.ofCode m.dst.toNat == some (.t u) && moveOk m (s.kernelOf sh).regs (s.core (coreOf s.focus)).split &&
  (waitingPass (opBegun s sh m) s.focus (opSheet s sh m) (opCycle s sh m) [opMove s sh m] sh.passes 0).isNone

theorem canIssue_of {s : State} {sh : Sheet} {m : Move} {u : FUnit} (h : canIssueB s sh m u = true) : CanIssue s sh m u := by
  simp only [canIssueB, Bool.and_eq_true, beq_iff_eq, Bool.not_eq_true', Option.isNone_iff_eq_none] at h
  obtain ⟨⟨⟨⟨⟨⟨⟨⟨⟨⟨a, b⟩, c⟩, d⟩, e⟩, f⟩, g⟩, k⟩, l⟩, n⟩, w⟩ := h
  exact ⟨a, b, c, d, e, f, g, k, l, n, w⟩

/-- The sheet in focus of a state can issue an operation whose other hypotheses hold. -/
def Meets (i : Instr) (u : FUnit) (s : State) (p : State → Sheet → Move → Prop) : Prop :=
  ∃ sh m, i.move = some m ∧ CanIssue s sh m u ∧ 0 < sh.passes ∧ opRuns s sh m ∧ p s sh m

/-- The same as a check, for the sheet 0 of the state. -/
def meetsB (i : Instr) (u : FUnit) (s : State) : Bool :=
  match i.move with
  | some m => canIssueB s (sheet0 s) m u && decide (0 < (sheet0 s).passes) && (opMove s (sheet0 s) m).exec != 0
  | none => false
theorem meets_of {i : Instr} {u : FUnit} {s : State} {p : State → Sheet → Move → Prop} (h : meetsB i u s = true)
    (hp : p s (sheet0 s) (i.move.getD Move.empty)) : Meets i u s p := by
  unfold meetsB at h
  cases hm : i.move with
  | none => simp [hm] at h
  | some m =>
    simp only [hm, Bool.and_eq_true, decide_eq_true_eq, bne_iff_ne] at h
    refine ⟨sheet0 s, m, hm, canIssue_of h.1.1, h.1.2, h.2, ?_⟩
    simpa [hm] using hp

/-- No flag that a lane operation raises is enabled. -/
def NoTrap (u : FUnit) (f : LaneIn → LaneOut) (s : State) (sh : Sheet) (m : Move) : Prop :=
  ∀ th ∈ opThreads s sh m u, Flags.traps sh.fpcr (f (opIn s sh m u th)).flags = false

/-- The lane statements: AluArithmetic, AluLogicAndShift, AluComparesAndLogic, AluBitsAndFields, ImuArithmetic, FpuNumbers,
FpuIntervals, XfuFunctions. -/
theorem test_witness_lanes :
    Meets (.add .ala hd ⟨false, false⟩) .ala (one (entries .ala 3 0 4))
      (NoTrap .ala (fun i => qOnly (atWidth false (fun a b => a + b) (i.first false) i.t))) ∧
    Meets (.mul hd ⟨false, false⟩) .imu (one (entries .imu 3 0 4)) (NoTrap .imu (fun i => qOnly (i.x0 * i.t))) ∧
    Meets (.div hd ⟨false, true⟩) .imu (one (entries .imu 3 0 4)) (fun s sh m => ∀ th ∈ opThreads s sh m .imu, ¬ ZeroDivisor s sh m ⟨false, true⟩ th) ∧
    Meets (.fadd .fpa hd ⟨.f32, .rne⟩) .fpa (one (entries .fpa 0x3F800000 0 0x33800000)) (NoTrap .fpa (fun i =>
      qFlags (fpAdd .f32 .rne false (fpRead .f32 i.ftz i.x0) (fpRead .f32 i.ftz i.t)))) ∧
    Meets (.ivmeet .fpb hd) .fpb (one (entries .fpb 0x3F8000003F800000 0 0x4080000040000000)) (NoTrap .fpb (fun i =>
      ivOut (Ival.meet i.x0.toNat i.t.toNat))) ∧
    Meets (.rsq hd .f32) .xfu (one (entries .xfu 0 0 0x40800000)) (NoTrap .xfu (xfuOut .f32 fpRsq)) ∧
    Meets (.shfi hd) .xfu (one (entries .xfu 0 0 5)) (fun s sh m => opThreads s sh m .xfu ≠ [] → Flags.traps sh.fpcr 0 = false) := by
  and_intros <;> refine meets_of (by decide +kernel) ?_ <;> (try unfold NoTrap) <;> (try unfold ZeroDivisor) <;> decide +kernel

/-- Where an access of the sheet in thread 0 goes. -/
def spot (i : Instr) (u : FUnit) (s : State) (space : Space) (acc : AccKindT) (span : LaneIn → Nat × Nat) : Reach :=
  let m := i.move.getD Move.empty
  let p := span (opIn s (sheet0 s) m u 0)
  match reach (opBegun s (sheet0 s) m) s.focus (opSheet s (sheet0 s) m) space acc p.1 p.2 with
  | .ok r => r
  | .error _ => ⟨[], 0, 0, 0⟩
/-- The hypotheses of `Accesses`. -/
def Reached (i : Instr) (u : FUnit) (space : Space) (acc : AccKindT) (align : Nat) (span : LaneIn → Nat × Nat) (lacks : State → Reach → Bool)
    (s : State) : Prop :=
  Meets i u s (fun s sh m => ∀ th ∈ opThreads s sh m u, Reaches s sh m space acc align (span (opIn s sh m u th)) (spot i u s space acc span) ∧
    lacks s (spot i u s space acc span) = false)

theorem test_witness_accesses :
    Reached (.ld .lsa hd ⟨false, .s, .g⟩) .lsa .g .load 4 (fun a => (addrIn false a, 4)) (fun _ _ => false) (one (entries .lsa 0x2000 0 4)) ∧
    Reached (.ldp .lsa hd ⟨true, .a⟩) .lsa .a .load 16 (fun a => (addrIn true a, 16)) (fun _ _ => false) (one (entries .lsa 0x2000 0 4080)) ∧
    Reached (.st .lsb hd ⟨true, .d, .w⟩) .lsb .w .store 8 (fun a => (addrIn true a, 8)) (fun _ _ => false) (one (entries .lsb 0 0 16376)) ∧
    Reached (.stl .lsb hd ⟨.dev, false, .g⟩) .lsb .g .store 4 (fun a => (addrIn false a, 4)) (fun _ _ => false) (one (entries .lsb 0x2FFC 0 0)) ∧
    Reached (.aadd .lsa hd ⟨.sys, true, .g⟩) .lsa .g .atomic 8 (fun a => ((a.x0 + a.t).toNat, 8)) (lacksOp .g .sys (some 1)) (one (entries .lsa 0x2000 5 0)) ∧
    Reached (.acas2 .lsa hd ⟨.dev, .a⟩) .lsa .a .atomic 16 (fun a => (a.x0.toNat, 16)) (lacksOp .a .dev (some 2)) (one (entries .lsa 0x20 5 0)) ∧
    Meets (.qsync .lsa hd) .lsa (one id) (fun s sh m => ∃ th, (opThreads s sh m .lsa).head? = some th ∧ th / 32 < sh.passes) ∧
    Meets (.pref .lsb hd true) .lsb (one (entries .lsb 0x2000 0 0)) (fun s sh m => true = true → (opThreads s sh m .lsb).length ≤ 1) := by
  and_intros <;> refine meets_of (by decide +kernel) ?_ <;> (try unfold Reaches) <;> decide +kernel

/-- A sheet of 32 threads whose predicate p1 holds codes 0, 1 and 2 in threads 0, 1 and 2, with `limm` and BRU's X0 and X1. -/
def three (t x0 x1 : W64) : State :=
  (State.reset.placeRunner []).mapSheet 0 (fun sh => { ((sh.setX .bru 0 0 x0).setX .bru 1 0 x1) with
    limm := t, mask := 7, gone := ~~~7, p := [(257, 1), (513, 2)] })
/-- Two bundles: a PASS alone and an empty bundle. -/
def twoBundles : List (W64 × Instr) := [(0x1000, .pass .ala hd), (0x1010, .bundleIssue ⟨.narrow, 0, true, false, []⟩)]
/-- A sheet in a loop nest of two bundles, at a position, with the bundles fetched. -/
def inNest (pos : Nat) : State :=
  one (fun sh => { sh with nest := some ⟨twoBundles, 2, [1, 1, 1, 1, 1, 1], [0, 0, 0, 0, 0, 0], pos⟩ })
/-- A state whose sheet starts a nest of six counts. -/
def nestStart (t : W64) (l : SMap W64) : State := one (fun sh => { sh with limm := t, s := l })

/-- The conditions of `BranchOk` as a check. -/
def branchB (s : State) (sh : Sheet) (offs : List W64) (ux : Bool) (paths : List (W64 × Mask)) : Bool :=
  decide ((sh.getX .bru 0 0).toNat < 16) && offs.all (fun o => decide (o.toNat < 2 ^ 32) && decide (o.toNat % 16 = 0) && decide (256 ≤ o.toNat) &&
    decide (o.toNat + 16 ≤ 256 + (s.kernelOf sh).codesz)) && (!ux || sh.active.threads.all (fun th => branchCode sh th != 2)) &&
    decide (sh.stack.length < 16) && paths.length ≤ 3
theorem branchOk_of {s : State} {sh : Sheet} {offs : List W64} {ux : Bool} {paths : List (W64 × Mask)} (h : branchB s sh offs ux paths = true) :
    BranchOk s sh offs ux paths := by
  simp only [branchB, Bool.and_eq_true, decide_eq_true_eq, List.all_eq_true, Bool.or_eq_true, Bool.not_eq_true', bne_iff_ne] at h
  obtain ⟨⟨⟨⟨a, b⟩, c⟩, d⟩, -⟩ := h
  exact ⟨a, fun o ho => let ⟨⟨⟨p, q⟩, r⟩, t⟩ := b o ho; ⟨p, q, r, t⟩,
    fun hu th ht => (c.resolve_left (by simp [hu])) th ht, fun _ => d⟩

theorem test_witness_jumps :
    Meets (.br hd) .bru (one (entries .bru 0 0 256)) (fun s sh m => OffsetOk s sh (opT s sh m)) ∧
    Meets (.call hd) .bru (one (entries .bru 0 0 4336)) (fun s sh m => OffsetOk s sh (opT s sh m)) ∧
    Meets (.ret hd) .bru (one (entries .bru 0 0 0x2000)) (fun s sh m => (opT s sh m).toNat % 16 = 0) := by
  and_intros <;> refine meets_of (by decide +kernel) ?_ <;> (try unfold OffsetOk) <;> decide +kernel
theorem test_witness_brp :
    Meets (.brp hd .ut) .bru (three 512 1 0) (fun s sh m => BranchOk s sh [opT s sh m] false
      [(0, codeThreads sh (otherCodes .ut)), (0, codeThreads sh (takenCodes .ut))]) :=
  meets_of (by decide +kernel) (branchOk_of (by decide +kernel))
theorem test_witness_brp_ux :
    Meets (.brp hd .ux) .bru (one (entries .bru 1 0 512)) (fun s sh m => BranchOk s sh [opT s sh m] true
      [(0, codeThreads sh (otherCodes .ux)), (0, codeThreads sh (takenCodes .ux))]) :=
  meets_of (by decide +kernel) (branchOk_of (by decide +kernel))
theorem test_witness_brp3 :
    Meets (.brp3 hd) .bru (three 512 1 1024) (fun s sh m => BranchOk s sh [opT s sh m, sh.getX .bru 1 0] false
      [(0, codeThreads sh [0]), (0, codeThreads sh [1]), (0, codeThreads sh [2])]) :=
  meets_of (by decide +kernel) (branchOk_of (by decide +kernel))
theorem test_witness_brall :
    Meets (.brall hd .uf) .bru (three 512 15 0) (fun s sh m => BranchOk s sh [opT s sh m] false []) :=
  meets_of (by decide +kernel) (branchOk_of (by decide +kernel))
theorem test_witness_loop :
    Meets (.loop hd) .bru (nestStart 0x114 [(20, 3), (21, 2), (22, 1), (23, 1), (24, 1), (25, 1)])
      (fun s sh m => sh.nest = none ∧ (opT s sh m).toNat % 64 ≤ 58 ∧ (opT s sh m).toNat / 64 % 4 = 0 ∧ (opT s sh m).toNat / 2 ^ 12 = 0 ∧
        ∀ k < 6, (sh.getS ((opT s sh m).toNat % 64 + k)).setWidth 32 ≠ 0#32) :=
  meets_of (by decide +kernel) (by decide +kernel)
theorem test_witness_loop_skipped :
    Meets (.loop hd) .bru (nestStart 58 [(58, 3)]) (fun s sh m => sh.nest = none ∧
      (opT s sh m).toNat % 64 ≤ 58 ∧ ∃ k < 6, (sh.getS ((opT s sh m).toNat % 64 + k)).setWidth 32 = 0#32) :=
  meets_of (by decide +kernel) (by decide +kernel)
theorem test_witness_lbrk :
    Meets (.lbrk hd) .bru (inNest 1) (fun _ sh _ => sh.nest.any (fun n => n.pos + 1 == n.len) = true) ∧
    Meets (.lbrk hd) .bru (inNest 0)
      (fun _ sh _ => sh.nest.any (fun n => decide (n.pos + 1 < n.len) && n.buf.length == n.len) = true) := by
  and_intros <;> exact meets_of (by decide +kernel) (by decide +kernel)
theorem test_witness_exit_yield : Meets (.exit hd) .bru (one id) (fun _ _ _ => True) ∧
    Meets (.yield hd) .bru (one (fun sh => { sh with limm := 255 })) (fun _ _ _ => True) := by
  and_intros <;> exact meets_of (by decide +kernel) trivial

/-- A trigger of an engine in thread 0 with fields of its shape registers, and the workgroup changed. -/
def shaped (eng : Nat) (l : List (Nat × BitVec 32)) (t : W64) (f : Workgroup → Workgroup) (g : Sheet → Sheet) : State :=
  (one (fun sh => g { sh with limm := t, shActive := l.map (fun e => (eng * 64 + e.1, e.2)) })).mapWg 0 f
/-- The same fields in the shadow copies. -/
def shadowed (sh : Sheet) : Sheet := { sh with shShadow := sh.shActive, shActive := [] }
/-- A trigger that its engine's table has room for. -/
def EntersAt (i : Instr) (u : FUnit) (s : State) (ok : State → TrigCtx → Prop) : Prop :=
  Meets i u s (fun s sh m => ok s (opCtx s sh m u) ∧ (freeEntries s s.focus).head? = some 0)
/-- A sheet with tile name c1 mapped to its workgroup's tile 0. -/
def mapped (sh : Sheet) : Sheet := { sh with tileMap := [(1, 0)] }
/-- A workgroup that has made a tile. -/
def made (int : Bool) (w : Workgroup) : Workgroup := { w with nextTile := 1, tileInt := [(0, int)], tileBind := [(0, 0)] }
/-- A workgroup with two W banks of a format. -/
def banked (f : W64) (w : Workgroup) : Workgroup := { w with wSize := 32768, banks := [(16, ⟨f, 0, 0, 0, []⟩), (17, ⟨f, 0, 0, 0, []⟩)] }
/-- A reduction group 3 of one row of one INT32 member, core 0. -/
def groupOne : Group :=
  ⟨BitVec.ofNat 512 (2 ^ 240 + 2 ^ 241 + 2 ^ 244 + 2 ^ 256), [0]⟩
def withGroup (s : State) : State := s.mapPart 0 (fun p => { p with groups := [(3, groupOne)] })

theorem test_witness_products :
    EntersAt (.mma hd ⟨1, true, false⟩) .mxe (shaped 0 [(1, 120), (2, 2)] 0 (banked 1) id) (fun _ x => mmaCheck mmaKind ⟨1, true, false⟩ x = [] ∧ x.wgp.isSome) ∧
    EntersAt (.mma hd ⟨1, false, true⟩) .mxe (shaped 0 [(1, 8), (2, 1), (3, 1)] 0 (made false ∘ banked 3) mapped)
      (fun _ x => mmaCheck mmaKind ⟨1, false, true⟩ x = [] ∧ x.wgp.isSome) ∧
    EntersAt (.mmab hd ⟨0, true, false⟩) .mxe (shaped 0 [(0, 112), (2, 1)] 4 (banked 8) shadowed) (fun _ x => mmaCheck mmabKind ⟨0, true, false⟩ x = [] ∧ x.wgp.isSome) ∧
    EntersAt (.mmai hd ⟨0, true, true⟩) .mxe (shaped 0 [(0, 120), (2, 1), (3, 1)] 0 (banked 6) id)
      (fun _ x => mmaCheck mmaiKind ⟨0, true, true⟩ x = [] ∧ x.wgp.isSome) := by
  and_intros <;> exact meets_of (by decide +kernel) (by decide +kernel)
theorem test_witness_tiles :
    EntersAt (.mxzero hd ⟨1, true⟩) .mxe (shaped 0 [(5, 5)] 0 id id)
      (fun _ x => MxeNames x 1 ∧ (x.mf 5 = 0 ∨ x.mf 5 = 5) ∧ TileMay x 1 true (x.mf 5 == 5)) ∧
    EntersAt (.mxzero hd ⟨1, false⟩) .mxe (shaped 0 [] 0 (made false) mapped)
      (fun _ x => MxeNames x 1 ∧ (x.mf 5 = 0 ∨ x.mf 5 = 5) ∧ TileMay x 1 false (x.mf 5 == 5)) ∧
    EntersAt (.mxdrain hd 1) .mxe (shaped 0 [(4, 8192), (5, 5), (9, 16)] 0 (made true) mapped) (fun _ x => MxeNames x 1 ∧ x.mf 5 ≤ 5 ∧
      RowsFit x (dfmtBytes (x.mf 5)) ∧ (lookup x.sh.tileMap 1).isSome ∧ (if x.tileIsInt 1 then x.mf 5 ∈ [0, 4, 5] else x.mf 5 ∈ [0, 1, 2, 3])) ∧
    EntersAt (.mxst hd 1) .mxe (shaped 0 [(4, 16 * 992), (9, 1)] 0 (made true) mapped) (fun _ x => MxeNames x 1 ∧ RowsFit x 4 ∧ (lookup x.sh.tileMap 1).isSome) ∧
    EntersAt (.mxld hd ⟨0, true⟩) .mxe (shaped 0 [(4, 0), (5, 5), (9, 16)] 0 id id)
      (fun _ x => MxeNames x 0 ∧ RowsFit x 4 ∧ (x.mf 5 = 0 ∨ x.mf 5 = 5) ∧ TileMay x 0 true (x.mf 5 == 5)) ∧
    EntersAt (.mxrel hd 1) .mxe (shaped 0 [] 0 (made true) mapped) (fun _ x => MxeNames x 1 ∧ (lookup x.sh.tileMap 1).isSome) := by
  and_intros <;> exact meets_of (by decide +kernel) (by unfold MxeNames; (try unfold TileMay); (try unfold RowsFit); decide +kernel)
theorem test_witness_mxred :
    EntersAt (.mxred hd 1) .mxe (withGroup (shaped 0 [(7, 3), (8, 65535)] 0 (made true) mapped)) (fun s x => MxeNames x 1 ∧ x.mf 7 < 64 ∧ x.mf 8 < 65536 ∧
      (lookup x.sh.tileMap 1).isSome ∧ ∃ g, s.group (s.partOf x.sh) (x.mf 7) = some g ∧ Group.valid g = true ∧
        (Group.index g s.deviceNo (coreOf s.focus) (s.colOf s.focus)).isSome ∧ x.tileIsInt 1 = Group.int g ∧ x.mf 8 + Group.rows g ≤ 65536) :=
  meets_of (by decide +kernel) ⟨⟨by unfold MxeNames; decide +kernel, by decide +kernel, by decide +kernel, by decide +kernel, groupOne, by decide +kernel⟩, by decide +kernel⟩

/-- Tags of k1 (unsigned, stride 32, 8 elements of at most 255) and k2 (signed), with k3 an accumulator. -/
def tagged (w : Workgroup) : Workgroup := { w with tags := [(1, ⟨false, 32, 8, 255, false⟩), (2, ⟨true, 32, 8, 128, false⟩), (3, ⟨true, 32, 15, 7, false⟩)] }
/-- A CFE trigger of A = k1 and B = k2. -/
def limbs12 : State := shaped 1 [] 0x21 tagged id

theorem test_witness_cmul : EntersAt (.cmul hd 4) .cfe limbs12 (fun _ x => CfeNames x (some 4) true true ∧ Factors x (cfeA x.tv) (cfeB x.tv) ∧
    TagFits (mulTagOf x (x.tagOr (cfeB x.tv)))) :=
  meets_of (by decide +kernel) (by unfold CfeNames Factors TagFits; exact ⟨⟨⟨by decide +kernel, by decide +kernel, by decide +kernel,
    fun k hk => by cases hk; decide +kernel⟩, by decide +kernel⟩, by decide +kernel⟩)
theorem test_witness_cmac : EntersAt (.cmac hd 3) .cfe limbs12 (fun _ x => CfeNames x (some 3) true true ∧ Factors x (cfeA x.tv) (cfeB x.tv) ∧
    (x.tag 3).isSome ∧ (x.tagOr 3).s = (x.tagOr (cfeA x.tv)).s ∧ TagFits (macTagOf x 3)) :=
  meets_of (by decide +kernel) (by unfold CfeNames Factors TagFits; exact ⟨⟨⟨by decide +kernel, by decide +kernel, by decide +kernel,
    fun k hk => by cases hk; decide +kernel⟩, by decide +kernel⟩, by decide +kernel⟩)
theorem test_witness_csqr : EntersAt (.csqr hd 4) .cfe (shaped 1 [] 2 tagged id) (fun _ x => CfeNames x (some 4) true false ∧
    Factors x (cfeA x.tv) (cfeA x.tv) ∧ TagFits (mulTagOf x (x.tagOr (cfeA x.tv)))) :=
  meets_of (by decide +kernel) (by unfold CfeNames Factors TagFits; exact ⟨⟨⟨by decide +kernel, by decide +kernel, by decide +kernel,
    fun k hk => by cases hk; decide +kernel⟩, by decide +kernel⟩, by decide +kernel⟩)
theorem test_witness_csub : EntersAt (.csub hd 4) .cfe limbs12 (fun _ x => CfeNames x (some 4) true true ∧ SumOk x true) :=
  meets_of (by decide +kernel) (by unfold CfeNames SumOk TagFits; exact ⟨⟨⟨by decide +kernel, by decide +kernel, by decide +kernel,
    fun k hk => by cases hk; decide +kernel⟩, Or.inr (by decide +kernel)⟩, by decide +kernel⟩)
theorem test_witness_cadd_untagged : EntersAt (.cadd hd 15) .cfe (shaped 1 [] 0x76 tagged id) (fun _ x => CfeNames x (some 15) true true ∧ SumOk x false) :=
  meets_of (by decide +kernel) (by unfold CfeNames SumOk TagFits; exact ⟨⟨⟨by decide +kernel, by decide +kernel, by decide +kernel,
    fun k hk => by cases hk; decide +kernel⟩, Or.inl (by decide +kernel)⟩, by decide +kernel⟩)
theorem test_witness_cshl : EntersAt (.cshl hd 4) .cfe (shaped 1 [] 1 tagged (fun sh => sh.setX .cfe 0 0 24)) (fun _ x => CfeNames x (some 4) true false ∧
    (x.x 0 0).toNat < 512 ∧ (x.tag (cfeA x.tv)).isSome ∧ TagFits (shiftTagOf x)) :=
  meets_of (by decide +kernel) (by unfold CfeNames TagFits; exact ⟨⟨⟨by decide +kernel, by decide +kernel, by decide +kernel,
    fun k hk => by cases hk; decide +kernel⟩, by decide +kernel⟩, by decide +kernel⟩)
theorem test_witness_cclr_cbig :
    EntersAt (.cclr hd 4) .cfe (shaped 1 [(3, 64)] 0 id id) (fun _ x => CfeNames x (some 4) false false ∧ 2 ≤ x.cf 3 ∧ x.cf 3 ≤ 64) ∧
    EntersAt (.cbig hd 1) .cfe limbs12 (fun _ x => CfeNames x (some 1) true true ∧ True) :=
  ⟨meets_of (by decide +kernel) (by unfold CfeNames; exact ⟨⟨⟨by decide +kernel, by decide +kernel, by decide +kernel,
    fun k hk => by cases hk; decide +kernel⟩, by decide +kernel⟩, by decide +kernel⟩),
   meets_of (by decide +kernel) (by unfold CfeNames; exact ⟨⟨⟨by decide +kernel, by decide +kernel, by decide +kernel,
    fun k hk => by cases hk; decide +kernel⟩, trivial⟩, by decide +kernel⟩)⟩
theorem test_witness_packing :
    EntersAt (.cpack hd 4) .cfe (shaped 1 [(0, 64), (1, 24), (2, 16), (3, 32), (4, 8)] 0 id id) (fun _ x => packCheck 4 false x = []) ∧
    EntersAt (.cpackv hd 4) .cfe (shaped 1 [(0, 127), (1, 8), (2, 16), (3, 32), (4, 8)] 0 id id) (fun _ x => packCheck 4 true x = []) ∧
    EntersAt (.cext hd) .cfe (shaped 1 [(0, 64), (7, 2), (8, 4), (10, 8)] 1 tagged id) (fun _ x => extCheck false x = []) ∧
    EntersAt (.cextv hd) .cfe (shaped 1 [(0, 127), (7, 3), (8, 8), (9, 0), (10, 32)] 2 tagged id) (fun _ x => extCheck true x = []) ∧
    EntersAt (.cgw hd) .cfe (shaped 1 [(1, 24), (2, 64)] 0 id id) (fun _ x => CfeNames x none false false ∧ x.cf 1 < 32 ∧ 1 ≤ ewWidth (x.cf 1) ∧
      ewWidth (x.cf 1) ≤ 8 ∧ 1 ≤ x.cf 2 ∧ x.cf 2 ≤ 64) := by
  and_intros
  · exact meets_of (by decide +kernel) (by decide +kernel)
  · exact meets_of (by decide +kernel) (by decide +kernel)
  · exact meets_of (by decide +kernel) (by decide +kernel)
  · exact meets_of (by decide +kernel) (by decide +kernel)
  · exact meets_of (by decide +kernel) (by unfold CfeNames; exact ⟨⟨⟨by decide +kernel, by decide +kernel, by decide +kernel, fun k hk => nomatch hk⟩,
      by decide +kernel⟩, by decide +kernel⟩)

/-- A sheet that reads `limm` t, with entries of its unit. -/
def given (u : FUnit) (x0 x1 t : W64) : State := one (entries u x0 x1 t)
/-- A pattern of one signed field of 3 bits at bit 2 of each 5 (R185). -/
def image5 : BitVec 512 := BitVec.ofNat 512 (2 + 2 ^ 7 * 2 + 2 ^ 11 + 2 ^ 384 + 2 ^ 392 * 5)
theorem test_witness_ldx : Meets (.ldx .lsa hd ⟨false, 3, .a⟩) .lsa ((given .lsa 64 0 7).mapSheet 0 (fun sh => { sh with xp := [(3, image5)] }))
    (fun s sh m => lookup sh.xp 3 = some image5 ∧ xpNf image5 = 1 ∧ ∀ th ∈ opThreads s sh m .lsa, Reaches s sh m .a .load 1
      (elementSpan (elementBits false image5 (opIn s sh m .lsa th))) ⟨(spot (.ldx .lsa hd ⟨false, 3, .a⟩) .lsa s .a .load
        (fun i => elementSpan (elementBits false image5 i))).pieces, 0, 0, 0⟩) := by
  refine meets_of (by decide +kernel) ?_
  unfold Reaches; decide +kernel

theorem test_witness_copies :
    EntersAt (.dcopy hd ⟨.wg, false⟩) .cpy (shaped 2 [(0, 0x2000), (2, 64), (4, 4), (5, 2), (6, 4), (7, 1), (8, 1), (9, 1), (10, 1), (11, 1), (12, 1), (18, 1)] 0 id id)
      (fun s x => copyCheck .copy ⟨.wg, false⟩ x = [] ∧ x.wgp.isSome ∧ x.sh.queue = [] ∧ s.homeq.all (fun h => h.core != coreOf s.focus)) ∧
    EntersAt (.dfill hd ⟨.sys, true⟩) .cpy (shaped 2 [(2, 0x3000), (5, 4), (6, 1), (7, 1), (8, 1), (9, 1), (10, 1), (11, 1)] 2 id shadowed)
      (fun s x => copyCheck .fill ⟨.sys, true⟩ x = [] ∧ x.wgp.isSome ∧ x.sh.queue = [] ∧ s.homeq.all (fun h => h.core != coreOf s.focus)) ∧
    EntersAt (.dgath hd ⟨.dev, false⟩) .cpy (shaped 2 [(4, 9), (6, 2), (7, 1), (8, 1), (9, 1), (10, 1), (11, 1), (27, 0x2000)] 0 id id)
      (fun s x => copyCheck .gath ⟨.dev, false⟩ x = [] ∧ x.wgp.isSome ∧ x.sh.queue = [] ∧ s.homeq.all (fun h => h.core != coreOf s.focus)) ∧
    EntersAt (.dscat hd ⟨.cl, false⟩) .cpy (shaped 2 [(4, 2), (6, 0), (27, 0x2000), (29, 1)] 0 id id)
      (fun s x => copyCheck .scat ⟨.cl, false⟩ x = [] ∧ x.wgp.isSome ∧ x.sh.queue = [] ∧ s.homeq.all (fun h => h.core != coreOf s.focus)) ∧
    EntersAt (.dstat hd true) .cpy (one (fun sh => { sh with limm := 3 }))
      (fun s x => x.tv.toNat < 4 ∧ (true = true → (s.core (coreOf s.focus)).split = false)) := by
  and_intros <;> exact meets_of (by decide +kernel) (by decide +kernel)

/-- A second sheet of the workgroup. -/
def beside (s : State) : State := { s with sheets := s.sheets ++ [(1, { runnerSheet with num := 1 })] }
/-- The sheet's latest arrival at a barrier of a level. -/
def arrived (l : BarLevel) (n p : Nat) (s : State) : State := s.mapSheet 0 (fun sh => { sh with arrivals := [(levelNum l * 16 + n, p)] })
/-- What the barrier statements ask, with the runner's workgroup and grid for theirs. -/
def BarAt (i : Instr) (l : BarLevel) (s : State) (p : State → Sheet → TrigCtx → Prop) : Prop :=
  Meets i .syn s (fun s sh m => BarMay s sh (opCtx s sh m .syn) l ∧ Drained s sh ∧ p s sh (opCtx s sh m .syn))
theorem barAt_of {i : Instr} {l : BarLevel} {s : State} {p : State → Sheet → TrigCtx → Prop} (w : Workgroup) (g : Grid) (h : meetsB i .syn s = true)
    (hu : s.sheets.all (fun e => e.1 != s.focus || e.2 == sheet0 s) = true)
    (ht : (opCtx s (sheet0 s) (i.move.getD Move.empty) .syn).tv.toNat < levelCount l) (hw : s.wg? (sheet0 s).wg = some w) (hg : s.grid? w.grid = some g)
    (hc : (l != .cl || g.lrec.clw != 0) = true) (hk : (l != .grid || g.lrec.coop) = true) (hq : ((sheet0 s).queue.isEmpty && s.homeq.isEmpty) = true)
    (hp : p s (sheet0 s) (opCtx s (sheet0 s) (i.move.getD Move.empty) .syn)) : BarAt i l s p := by
  simp only [Bool.and_eq_true, List.isEmpty_iff, Bool.or_eq_true, bne_iff_ne, List.all_eq_true, beq_iff_eq] at hq hc hk hu
  exact meets_of h ⟨⟨ht, fun e he hf => (hu e he).resolve_left (fun n => n hf), w, g, hw, hg, fun e => (hc.resolve_left (by simp [e])), fun e => (hk.resolve_left (by simp [e]))⟩,
    ⟨hq.1, by simp [hq.2]⟩, hp⟩
theorem test_witness_barrier_last : BarAt (.bara hd .wg) .wg (given .syn 0 0 15) (fun s sh x => arrivalOf sh .wg x.tv.toNat ≠ (getBar s sh.wg .wg x.tv.toNat).phase + 1) ∧
    LastToArrive (given .syn 0 0 15) (sheet0 (given .syn 0 0 15)) .wg 15 := by
  refine ⟨barAt_of runnerWg runnerGrid (by decide +kernel) (by decide +kernel) (by decide +kernel) (by decide +kernel) (by decide +kernel) (by decide) (by decide) (by decide +kernel) (by decide +kernel), ?_⟩
  unfold LastToArrive; decide +kernel
theorem test_witness_barrier_waits : BarAt (.bar hd .cl) .cl (beside (given .syn 0 0 7)) (fun s sh x => arrivalOf sh .cl x.tv.toNat ≠ (getBar s sh.wg .cl x.tv.toNat).phase + 1) ∧
    ¬ LastToArrive (beside (given .syn 0 0 7)) (sheet0 (beside (given .syn 0 0 7))) .cl 7 := by
  refine ⟨barAt_of runnerWg runnerGrid (by decide +kernel) (by decide +kernel) (by decide +kernel) (by decide +kernel) (by decide +kernel) (by decide +kernel) (by decide) (by decide +kernel) (by decide +kernel), ?_⟩
  unfold LastToArrive; decide +kernel
theorem test_witness_barrier_again : BarAt (.bar hd .wg) .wg (arrived .wg 3 1 (beside (given .syn 0 0 3)))
      (fun s sh x => arrivalOf sh .wg x.tv.toNat = (getBar s sh.wg .wg x.tv.toNat).phase + 1) ∧
    BarAt (.barw hd .wg) .wg (arrived .wg 3 1 (beside (given .syn 0 0 3))) (fun _ sh _ => sh.queue = []) := by
  constructor <;> exact barAt_of runnerWg runnerGrid (by decide +kernel) (by decide +kernel) (by decide +kernel) (by decide +kernel) (by decide +kernel) (by decide) (by decide) (by decide +kernel) (by decide +kernel)
/-- A state whose grid is cooperative. -/
def coopState (s : State) : State := s.mapGrid 0 (fun g => { g with lrec := { g.lrec with coop := true } })
theorem test_witness_barrier_grid : BarAt (.bara hd .grid) .grid (arrived .grid 3 1 (coopState (beside (given .syn 0 0 3))))
      (fun s sh x => arrivalOf sh .grid x.tv.toNat = (getBar s sh.wg .grid x.tv.toNat).phase + 1) :=
  barAt_of runnerWg { runnerGrid with lrec := { runnerGrid.lrec with coop := true } } (by decide +kernel) (by decide +kernel) (by decide +kernel) (by decide +kernel)
    (by decide +kernel) (by decide) (by decide +kernel) (by decide +kernel) (by decide +kernel)
theorem test_witness_barrier_sheet : Meets (.bar hd .sh) .syn (one id) (fun s sh m => (opCtx s sh m .syn).tv = 0) ∧
    Meets (.barw hd .sh) .syn (one id) (fun s sh m => (opCtx s sh m .syn).tv = 0) ∧ Meets (.bara hd .sh) .syn (one id) (fun s sh m => (opCtx s sh m .syn).tv = 0) := by
  and_intros <;> exact meets_of (by decide +kernel) (by decide +kernel)

/-- The state with an object at an offset of workgroup 0's A buffer. -/
def withObject (off o : Nat) (s : State) : State := writeObj s 0 off o
/-- What the object statements ask of a state whose sheet is in workgroup 0. -/
def objectB (s : State) (sh : Sheet) (x : TrigCtx) (peer : Bool) (wg : Nat) : Bool :=
  sh.queue.isEmpty && s.homeq.isEmpty && decide (x.tv.toNat < 2 ^ 17) && x.tv.toNat % 16 == 0 &&
  (s.wg? sh.wg).any (fun w => decide (x.tv.toNat + 16 ≤ w.aSize)) && objectFree s wg x.tv.toNat &&
  stepTurn s wg x.tv.toNat (synRank s s.focus sh peer) && !lowerStep s s.focus wg x.tv.toNat (synRank s s.focus sh peer)
theorem objectMay_of {s : State} {sh : Sheet} {x : TrigCtx} {peer : Bool} {wg : Nat} (h : objectB s sh x peer wg = true) : ObjectMay s sh x peer wg := by
  simp only [objectB, Bool.and_eq_true, List.isEmpty_iff, decide_eq_true_eq, beq_iff_eq, Option.any_eq_true, Bool.not_eq_true'] at h
  obtain ⟨⟨⟨⟨⟨⟨⟨a, b⟩, c⟩, d⟩, ⟨w, e, f⟩⟩, g⟩, k⟩, l⟩ := h
  exact ⟨⟨a, by simp [b]⟩, c, d, ⟨w, e, f⟩, g, k, l⟩
/-- An object statement's hypotheses on the runner's own workgroup. -/
def ObjectAt (i : Instr) (s : State) (p : State → Sheet → TrigCtx → Prop) : Prop :=
  Meets i .syn s (fun s sh m => ObjectMay s sh (opCtx s sh m .syn) false sh.wg ∧ p s sh (opCtx s sh m .syn))
theorem test_witness_objects :
    ObjectAt (.boinit hd) (given .syn 1048575 0 16368) (fun s sh x => 1 ≤ (x.x 0 0).toNat ∧ (x.x 0 0).toNat < 2 ^ 20 ∧ objValid (objOf s sh.wg x) = false) ∧
    ObjectAt (.boarr hd false) (withObject 64 (objInit 3) (given .syn 3 0 64)) (fun s sh x => 1 ≤ (x.x 0 0).toNat ∧ (x.x 0 0).toNat < 2 ^ 20 ∧
      objValid (objOf s sh.wg x) = true ∧ (x.x 0 0).toNat ≤ objPend (objOf s sh.wg x)) ∧
    ObjectAt (.botest hd false) (withObject 64 (objInit 3) (given .syn 0 0 64)) (fun _ _ _ => True) ∧
    ObjectAt (.boexp hd) (withObject 64 (objInit 3) (given .syn 0xFFFFFFFFFFFF 0 64)) (fun s sh x => objValid (objOf s sh.wg x) = true ∧
      objBytes (objOf s sh.wg x) + (x.x 0 0).toNat < 2 ^ 48) ∧
    ObjectAt (.bowait hd) (withObject 64 (objInit 3) (given .syn 0 0xFFFFFFFF 64)) (fun _ _ x => (x.x 0 0).toNat < 16 ∧ (x.x 1 0).toNat < 2 ^ 32) ∧
    ObjectAt (.boinv hd) (withObject 64 (objInit 3) (given .syn 0 0 64)) (fun _ _ _ => True) := by
  and_intros <;> exact meets_of (by decide +kernel) ⟨objectMay_of (by decide +kernel), by decide +kernel⟩
/-- The grid in cluster groups of two, of which the peer of rank 1 is away. -/
def paired (s : State) : State := s.mapGrid 0 (fun g => { g with lrec := { g.lrec with clw := 2 } })
theorem test_witness_peer_objects :
    Meets (.boarr hd true) .syn (paired (given .syn 5 1 64)) (fun s sh m => PeerTarget s sh (opCtx s sh m .syn) (peerOf s runnerWg 2 1) ∧
      ObjectMay s sh (opCtx s sh m .syn) true (peerOf s runnerWg 2 1) ∧ (s.wg? (peerOf s runnerWg 2 1)).isSome = false) ∧
    Meets (.botest hd true) .syn (paired (given .syn 0 0 64)) (fun s sh m => PeerTarget s sh (opCtx s sh m .syn) 0 ∧
      ObjectMay s sh (opCtx s sh m .syn) true 0 ∧ (s.wg? 0).isSome = true) := by
  constructor <;> exact meets_of (by decide +kernel) ⟨⟨runnerWg, { runnerGrid with lrec := { runnerGrid.lrec with clw := 2 } }, by decide +kernel, by decide +kernel, by decide +kernel, by decide +kernel⟩,
    objectMay_of (by decide +kernel), by decide +kernel⟩

/-- A plain load in a queue. -/
def oldLoad : Access :=
  { id := 0, kind := .load, space := .g, mt := 0, mt1 := 0, sys := false, pieces := [(0x2000, 4)], peer := 0, data := [], cmp := [], unit := .lsa, thread := 0,
    flight := 0, form := .zext, acq := none, rel := none, blockLoads := false, blockStores := false, drain := false, act := .nothing, slot := 0, paid := 4, away := false,
    seen := [], va := 0x2000 }
/-- The result of the load, pending. -/
def oldFlight : Flight := ⟨.lsa, 0, 0, some 0, none, false, true, false, 0⟩
/-- The runner with a load that has not been performed. -/
def loading (s : State) : State := s.mapSheet 0 (fun sh => { sh with queue := [oldLoad], flights := [oldFlight], nextId := 1 })
/-- A uniform operation of SYS with its hypotheses. -/
def SysAt (i : Instr) (s : State) (p : State → Sheet → TrigCtx → Prop) : Prop := Meets i .sys s (fun s sh m => p s sh (opCtx s sh m .sys))
theorem test_witness_ordering :
    SysAt (.fence hd ⟨.sys, .ar⟩) (one id) (fun s sh _ => sh.queue = [] → sh.queue = [] ∧ ∀ h ∈ s.homeq, h.sid ≠ s.focus) ∧
    SysAt (.fence hd ⟨.dev, .rel⟩) (loading (one id)) (fun _ sh _ => sh.queue ≠ [] ∧ ∀ a ∈ sh.queue, a.kind ≠ .order) ∧
    SysAt (.rel hd .cl) (loading (one id)) (fun _ sh _ => sh.queue ≠ [] ∧ ∀ a ∈ sh.queue, a.kind ≠ .order) ∧
    SysAt (.acq hd .dev) (loading (one id)) (fun _ sh _ => (∀ a ∈ sh.queue, a.kind ≠ .order) ∧ sh.queue.any Access.isLoad = true) ∧
    SysAt (.acq hd .wg) (one id) (fun _ sh _ => (∀ a ∈ sh.queue, a.kind ≠ .order) ∧ sh.queue.any Access.isLoad = false) := by
  and_intros <;> exact meets_of (by decide +kernel) (by decide +kernel)
/-- A class D request for partition 0. -/
def pressed (d : Bool) (s : State) : State := s.mapPart 0 (fun p => { p with preempt := some ⟨d, 0⟩ })
theorem test_witness_services :
    SysAt (.svc hd) (given .sys 7 0 0xFFFF) (fun _ _ x => x.tv.toNat < 2 ^ 16) ∧ SysAt (.tstamp hd) (one id) (fun _ _ _ => True) ∧
    SysAt (.yields hd) (pressed true (one id)) (fun s sh _ => ((s.part (s.partOf sh)).preempt.map (·.classD)) = some true) ∧
    SysAt (.yields hd) (one id) (fun s sh _ => ((s.part (s.partOf sh)).preempt.map (·.classD)) ≠ some true) := by
  and_intros <;> exact meets_of (by decide +kernel) (by decide +kernel)
theorem test_witness_reads :
    (∀ n ∈ [0x001, 0x002, 0x003, 0x004, 0x011, 0x012, 0x020, 0x021, 0x030, 0x100, 0x107, 0x110, 0x11F, 0x120],
      SysAt (.csrrd hd) (given .sys 0 0 (BitVec.ofNat 64 n)) (fun s sh x => x.tv = BitVec.ofNat 64 n ∧ (s.wg? sh.wg).isSome)) ∧
    SysAt (.csrrd hd) ((given .sys 0 0 0x010).mapSheet 0 (fun sh => { sh with cycFrom := some 0 })) (fun _ sh x => x.tv = 0x010 ∧ sh.cycFrom.isSome) := by
  constructor
  · intro n hn
    fin_cases hn <;> exact meets_of (by decide +kernel) (by decide +kernel)
  · exact meets_of (by decide +kernel) (by decide +kernel)
theorem test_witness_writes :
    (∀ n ∈ [0x001, 0x002, 0x003, 0x010, 0x011, 0x012, 0x020, 0x021, 0x030, 0x120],
      SysAt (.csrwr hd) (given .sys 0xFFFFFFFFFFFFFFFF 0 (BitVec.ofNat 64 n)) (fun _ _ x => x.tv = BitVec.ofNat 64 n)) := by
  intro n hn
  fin_cases hn <;> exact meets_of (by decide +kernel) (by decide +kernel)
/-- A workgroup whose A buffer holds the pattern at offset 64. -/
def withImage (s : State) : State := s.mapWg 0 (fun w => w.writeBuf true 64 (leBytes 64 image5.toNat))
/-- The runner's workgroup with the pattern. -/
def imageWg : Workgroup := runnerWg.writeBuf true 64 (leBytes 64 image5.toNat)
theorem test_witness_writes_held :
    SysAt (.csrwr hd) (withImage (given .sys 65 0 4)) (fun s sh x => x.tv = 4 ∧ ∃ w, s.wg? sh.wg = some w ∧ xpOffset (x.x 0 0) + 64 ≤ w.aSize ∧
      xpValid (xpImage w (x.x 0 0)) = true ∧ (∀ r ∈ blocksOf true sh.wg (xpOffset (x.x 0 0)) 64, engineOwned s r = false) ∧
        ∀ a ∈ sh.queue, a.space = .a → a.isStore = true → ∀ p ∈ a.pieces, runsMeet p.1 p.2 (xpOffset (x.x 0 0)) 64 = false) ∧
    SysAt (.csrwr hd) (given .sys 10 0 0x110) (fun s sh x => x.tv = 0x110 ∧ ∃ w, s.wg? sh.wg = some w ∧ (bankExists w false 0 = true → (x.x 0 0).toNat % 16 < 11)) ∧
    SysAt (.csrwr hd) (given .sys 10 0 0x100) (fun s sh x => x.tv = 0x100 ∧ ∃ w, s.wg? sh.wg = some w ∧ (bankExists w true 0 = true → (x.x 0 0).toNat % 16 < 11)) :=
  ⟨meets_of (by decide +kernel) ⟨by decide +kernel, imageWg, by decide +kernel⟩, meets_of (by decide +kernel) ⟨by decide +kernel, runnerWg, by decide +kernel⟩,
   meets_of (by decide +kernel) ⟨by decide +kernel, runnerWg, by decide +kernel⟩⟩

/-- Where the sheet's record at virtual address 0x2000 stands. -/
def recordPlace (s : State) (acc : AccKindT) : PAddr :=
  (translate s (coreOf s.focus) (s.vfOf (sheet0 s)) 0x2000 acc).toOption.getD ⟨0, 0⟩
theorem ok_of_toOption {ε α : Type} {e : Except ε α} {a : α} (h : e.toOption = some a) : e = .ok a := by
  cases e with
  | error _ => cases h
  | ok b => cases h; rfl
/-- A state that holds a spawn queue of four entries at 0x2000, its array at 0x3000, with a TAIL of 5 and a HEAD of 2. -/
def queueState (s : State) : State :=
  s.writeBytes 0x2000 (leBytes 64 (2 ^ 64 * 0x3000 + 2 ^ 128 * 4 + 2 ^ 160 * 4 + 2 ^ 192 * 5 + 2 ^ 224 * 2 + 2 ^ 256 * 2))
/-- A sheet whose predicate p2 is undecided in thread 0, with IVSPAWN's operands: IREG 6, TREG 9, PRED 2. -/
def spawner : State := ((queueState (given .sys (6 + 2 ^ 8 * 9 + 2 ^ 16 * 2) 0 0x2000)).mapSheet 0 (fun sh => { sh with p := [(2, 2)] })).mapCore 0
  (fun k => { k with tlb := [(2, ⟨2, 0x87, 0x2000⟩), (3, ⟨2, 0x87, 0x3000⟩)] })
/-- A translation that its core has cached, and those of a run, do not hang on free values. -/
theorem translate_cached {s : State} {k core vf : Nat} {va : W64} {acc : AccKindT} {l : Leaf}
    (h : lookup (s.core core).tlb (tlbKey vf va.toNat) = some l) : Sys2Proof.Machine.translate { s with freeCtr := k } core vf va acc = Sys2Proof.Machine.translate s core vf va acc := by
  have h' : lookup (State.core { s with freeCtr := k } core).tlb (tlbKey vf va.toNat) = some l := h
  simp only [Sys2Proof.Machine.translate, findLeaf, h, h']; rfl
theorem run_cached {s : State} {k core vf : Nat} {acc : AccKindT} : ∀ {l : List (Nat × Nat)},
    (∀ c ∈ l, (lookup (s.core core).tlb (tlbKey vf (w64 c.1).toNat)).isSome) →
    translateRun { s with freeCtr := k } core vf acc l = translateRun s core vf acc l
  | [], _ => rfl
  | c :: r, h => by
    obtain ⟨x, hx⟩ := Option.isSome_iff_exists.1 (h c (List.mem_cons_self ..))
    simp only [translateRun, translate_cached hx, run_cached (fun e he => h e (List.mem_cons_of_mem _ he))]
theorem places_cached {s : State} {core vf pa : Nat} {r} (hc : ∀ c ∈ pageCuts 2 ((qBase s pa + 16 * ((qTail s pa + 0) % max (qCap s pa) 1)) % 2 ^ 64) 16,
      (lookup (s.core core).tlb (tlbKey vf (w64 c.1).toNat)).isSome) (hr : spawnPlaces s core vf pa 1 = r) :
    Steady (fun z => spawnPlaces z core vf pa 1) s r := fun k => by
  subst hr
  show spawnPlaces { s with freeCtr := k } core vf pa 1 = _
  unfold spawnPlaces
  have h := run_cached (k := k) (acc := .store) hc
  simp only [List.range_one, List.mapM_cons, List.mapM_nil]
  exact congrArg (fun x => (do
    let y ← (match x with
      | .error f => .error f
      | .ok (ps, _) => .ok ps : Except Flt (List (Nat × Nat)))
    let ys ← pure []
    pure (y :: ys))) h
theorem test_witness_launch : SysAt (.launch hd) (given .sys 0 0 0x2000) (fun s sh x => Drained s sh ∧ depthOf s sh < 9 ∧
      RecordAt s sh x .atomic 0 64 (recordPlace (given .sys 0 0 0x2000) .atomic)) ∧
    SysAt (.lwait hd) (given .sys 0 0 0x2000) (fun s sh x => sh.queue = [] ∧ RecordAt s sh x .load 48 4 (recordPlace (given .sys 0 0 0x2000) .load)) :=
  ⟨meets_of (by decide +kernel) ⟨by unfold Drained; decide +kernel, by decide +kernel, by decide +kernel, fun _ => by cbv, by decide +kernel⟩,
   meets_of (by decide +kernel) ⟨by decide +kernel, by decide +kernel, fun _ => by cbv, by decide +kernel⟩⟩
theorem test_witness_ivspawn :
    SysAt (.ivspawn hd) (given .sys 6 0 0x2000) (fun s sh x => spawnLayoutBad x = false ∧ depthOf s sh < 9 ∧ x.tv.toNat % 64 = 0 ∧ spawnThreads x = [] ∧
      Drained s sh) ∧
    SysAt (.ivspawn hd) spawner (fun s sh x => (spawnLayoutBad x = false ∧ depthOf s sh < 9 ∧ spawnThreads x = [0] ∧ Drained s sh ∧
        vregBusy s s.focus (spawnIreg x) = false ∧ vregBusy s s.focus (spawnTreg x) = false) ∧
      RecordAt s sh x .atomic 0 64 (recordPlace spawner .atomic) ∧
      (let p := (recordPlace spawner .atomic).pa
       powTwo24 (qCap s p) = true ∧ 1 ≤ qThresh s p ∧ qThresh s p ≤ qCap s p ∧ ixSub (qTail s p) (qHead s p) + (spawnThreads x).length ≤ qCap s p) ∧
      Steady (fun z => spawnPlaces z (coreOf s.focus) (s.vfOf sh) (recordPlace spawner .atomic).pa 1) s (.ok [[(0x3010, 16)]]) ∧ Untracked s) :=
  ⟨meets_of (by decide +kernel) (by unfold Drained; decide +kernel), meets_of (by decide +kernel) ⟨by unfold Drained; decide +kernel,
    ⟨by decide +kernel, fun _ => (translate_cached (l := ⟨2, 0x87, 0x2000⟩) (by decide +kernel)).trans (ok_of_toOption (by decide +kernel)), by decide +kernel⟩,
    by decide +kernel, places_cached (by decide +kernel) (ok_of_toOption (by decide +kernel)), by unfold Untracked; decide +kernel⟩⟩

theorem test_witness_causes :
    Meets (.rem hd ⟨false, true⟩) .imu (one (entries .imu 3 0 0x100000000)) (fun s sh m => ∃ th ∈ opThreads s sh m .imu, ZeroDivisor s sh m ⟨false, true⟩ th) ∧
    SysAt (.trap hd) (one id) (fun _ _ _ => True) ∧ SysAt (.brk hd) (one id) (fun _ _ _ => True) := by
  refine ⟨meets_of (by decide +kernel) ⟨0, by unfold ZeroDivisor; decide +kernel⟩, ?_, ?_⟩ <;> exact meets_of (by decide +kernel) trivial

/-- A bundle of three moves: `v3` from `limm` if p2, `s5` from `v4`, `p6` from `v2`. -/
def threeMoves : Bundle := ⟨.narrow, 0, false, false, [Move.ofWord 0b01_0010_0000000011_0011111110_0000000_00000 false,
  Move.ofWord 0b00_0000_0010000101_0000000100_0000000_00000 false, Move.ofWord 0b00_0000_0011000110_0000000010_0000000_00000 false]⟩
/-- The conditions of `CanIssueMoves` as a check. -/
def canMoveB (s : State) (sh : Sheet) (b : Bundle) : Bool :=
  s.sheet? s.focus == some sh && stageOpen s s.focus sh && sh.issuing == none && !slotWaits s s.focus sh b &&
  bundleOk sh (s.core (coreOf s.focus)).split b && !sh.left && sh.corrupt == none && !sh.armed &&
  (liveSlots b).all (fun e => moveOk e.2 (s.kernelOf sh).regs (s.core (coreOf s.focus)).split && (match Dst.ofCode e.2.dst.toNat with
    | some (.t _) => false
    | _ => true)) &&
  (liveSlots b).all (fun e => (liveSlots b).all (fun e' => e.1 == e'.1 || e.2.dst != e'.2.dst)) &&
  waitingPass (bundleBegun s sh b) s.focus (bundleSheet s sh b) (bundleCycle s sh b) (bundleMoves s sh b) sh.passes 0 == none
theorem test_witness_moves : ∃ sh, CanIssueMoves (one id) sh threeMoves := by
  have h : canMoveB (one id) (sheet0 (one id)) threeMoves = true := by decide +kernel
  simp only [canMoveB, Bool.and_eq_true, beq_iff_eq, Bool.not_eq_true', List.all_eq_true, Bool.or_eq_true, bne_iff_ne] at h
  obtain ⟨⟨⟨⟨⟨⟨⟨⟨⟨⟨a, b⟩, c⟩, o⟩, d⟩, e⟩, f⟩, g⟩, k⟩, l⟩, n⟩ := h
  refine ⟨_, a, b, c, o, d, e, f, g, fun x hx => ⟨(k x hx).1, fun u hu => ?_⟩, fun x hx y hy hne => (l x hx y hy).resolve_left hne, n⟩
  have := (k x hx).2
  simp [hu] at this
theorem test_witness_marker : let s := one (fun sh => { sh with cycFrom := some 0, markArm := true })
    let sh := sheet0 s
    s.sheet? s.focus = some sh ∧ stageOpen s s.focus sh = true ∧ sh.nest = none ∧
      sh.left = false ∧ sh.armed = false ∧ sh.cycFrom = some 0 ∧ sh.rcv ≠ some (sh.pc + 16) := by decide +kernel

/-- A pending result of a stalling port. -/
def pendingIn (u : FUnit) : Flight := ⟨u, 0, 0, some 7, none, false, true, false, 0⟩
/-- The runner's sheet with a list of results on their way. -/
def flying (l : List Flight) : State := one (fun sh => { sh with flights := l, nextId := 1 })
/-- The runner's sheet with a CSRWR that waits. -/
def holding (w : CsrWrite) : State := one (fun sh => { sh with flights := [pendingIn .sys], nextId := 1, sys := .csr w })
theorem test_witness_result_lands :
    oldestFlight (sheet0 (flying [⟨.fpa, 0, 0, some 7, none, true, false, false, 9⟩])) .fpa 0 = some ⟨.fpa, 0, 0, some 7, none, true, false, false, 9⟩ ∧
    OnlyFlight (sheet0 (flying [pendingIn .imu])) (pendingIn .imu) := by
  unfold OnlyFlight; decide +kernel
theorem test_result_lands : (sheet0 (next (exec (.resultLanding 0 .fpa 0) (flying [⟨.fpa, 0, 0, some 7, none, true, false, false, 9⟩])))).getQ .fpa 0 0 = 7 ∧
    (sheet0 (next (exec (.divideComplete 0 0) (flying [pendingIn .imu])))).getQ .imu 0 0 = 7 := by decide +kernel
theorem test_xpcfg_write : let w : CsrWrite := ⟨4, 66, image5, 0⟩
    (sheet0 (holding w)).sys = .csr w ∧ OnlyFlight (sheet0 (holding w)) (pendingIn .sys) ∧
      (sheet0 (next (exec (.xpcfgWrite 0) (holding w)))).xp = [(2, image5)] := by
  unfold OnlyFlight; decide +kernel
theorem test_bank_format_write : let w : CsrWrite := ⟨0x110, 0x700000001, 0, 0⟩
    (sheet0 (holding w)).sys = .csr w ∧ csrBank w.num = some (false, 0) ∧ bankExists runnerWg false 0 = true ∧ bankHeld (holding w) 0 runnerWg false 0 = false ∧
      (((next (exec (.bankFormatWrite 0) (holding w))).wg? 0).map (fun g => bankRead g false 0)) = some 0x700000001 := by decide +kernel

/-- The runner with one access in its queue. -/
def queued (a : Access) : State := one (fun sh => { sh with queue := [a], flights := [pendingIn .lsa], nextId := 1 })
/-- A store of two words to 0x2000. -/
def wordStore : Access := { oldLoad with kind := .store, unit := .lsb, pieces := [(0x2000, 8)], data := leBytes 8 0x1122334455667788 }
/-- A compare and exchange of 16 bytes at 0x2000, whose comparison holds. -/
def pairSwap : Access := { oldLoad with kind := .cas2, pieces := [(0x2000, 16)], data := leBytes 16 5, cmp := leBytes 16 0 }
/-- A store to a non-coherent host mapping. -/
def hostStore : Access := { wordStore with mt := 2, pieces := [(2 ^ 48, 8)] }
theorem test_witness_performs : ∀ a ∈ [oldLoad, wordStore, pairSwap, { oldLoad with kind := .atomic .add false, pieces := [(0x2000, 4)], data := leBytes 4 3 },
    { wordStore with space := .w, pieces := [(0, 8)] }, hostStore], MayPerform (queued a) 0 0 (sheet0 (queued a)) a ∧
      OnlyFlight (sheet0 (queued a)) (pendingIn .lsa) ∧ (queued a).homeq = [] := by
  unfold OnlyFlight MayPerform; decide +kernel
theorem test_witness_finds : Finds (queued oldLoad) 0 [] oldLoad [0, 0, 0, 0] := by
  unfold Finds; exact ⟨by decide +kernel, by decide +kernel⟩
theorem test_store_at_l1 : (next (exec (.storePerformedAtL1 0 0) (queued wordStore))).homeq = [⟨0, 0, 0x2000, leBytes 8 0x1122334455667788, 0, 0, false, 0⟩] ∧
    lookup ((next (exec (.storePerformedAtL1 0 0) (queued wordStore))).core 0).l1 0x800 = some ⟨true, 0x55667788⟩ ∧
    (next (exec (.storePerformedAtL1 0 0) (queued hostStore))).homeq = [⟨0, 0, 2 ^ 48, leBytes 8 0x1122334455667788, 0, 0, true, 0⟩] ∧
    (next (exec (.storePerformedAtL1 0 0) (queued hostStore))).readNat (2 ^ 48) 8 = 0x1122334455667788 := by decide +kernel
theorem test_pair_swap : ((next (exec (.loadPerformed 0 0) (queued pairSwap))).readNat 0x2000 16) = 5 := by decide +kernel
/-- A store on its way to its home from core 0, to words that core 7's L1 owns. -/
def homeState : State :=
  { (one id).mapCore 7 (fun c => { c with l1 := [(0x800, ⟨true, 9⟩)] }) with
    homeq := [⟨0, 0, 0x2000, leBytes 4 5, 0, 0, false, 7⟩], reg := [(0x800, 8)] }
theorem test_witness_home : homeState.homeq[0]? = some ⟨0, 0, 0x2000, leBytes 4 5, 0, 0, false, 7⟩ ∧ getD homeState.reg 0 0x800 = 7 + 1 ∧
    homeBehind (homeState.homeq.take 0) ⟨0, 0, 0x2000, leBytes 4 5, 0, 0, false, 7⟩ = false ∧ (∀ a ∈ (sheet0 homeState).queue, a.kind ≠ .order) ∧
    (lookup { homeState with pinned := [(0x40, 0)] }.pinned 0x40).isSome ∧ lookup homeState.pinned 0x40 = none := by decide +kernel
theorem test_home : getD (next (exec (.storePerformedAtHome 0) homeState)).reg 0 0x800 = 1 ∧
    lookup ((next (exec (.storePerformedAtHome 0) homeState)).core 7).l1 0x800 = none ∧
    getD (next (exec (.homeInvalidation 7 0x800) homeState)).reg 0 0x800 = 0 ∧ getD (next (exec (.l2LineEviction 0x40) homeState)).reg 0 0x800 = 0 := by decide +kernel

/-- A younger store from one core waits for the older one of its core to the same home; one that a host port has taken is flushed. -/
theorem test_home_order : let s := { homeState with homeq := [⟨0, 0, 0x2000, leBytes 4 5, 0, 0, false, 7⟩, ⟨0, 0, 0x2004, leBytes 4 6, 0, 0, false, 7⟩] }
    (next (exec (.storePerformedAtHome 1) s)).homeq.length = 2 ∧ (next (exec (.storePerformedAtHome 0) s)).homeq.length = 1 ∧
    (next (exec (.storePerformedAtHome 0) { homeState with homeq := [⟨0, 0, 0x2000, leBytes 4 5, 0, 0, true, 7⟩] })).homeq = [] := by decide +kernel

/-- A sheet that waits in BOWAIT at an object of one pending arrival, until cycle 0. -/
def waiter : State := (withObject 64 (objMake 0 1 2 4 false true 32 1) (one (fun sh => { sh with
  wait := .object 64 0 0, flights := [pendingIn .syn], nextId := 1, queue := [orderEntry 5 (some .dev) none true true false (.held 0)] })))
theorem test_witness_arrivals : let s : State := { waiter with arrivals := [⟨some 32, none, 0, 64, 0, 0, 0⟩, ⟨some 8, none, 9, 64, 0, 0, 0⟩], roundArrivals := [⟨none, none, 0, 64, 0, 0, 2⟩] }
    s.arrivals[0]? = some ⟨some 32, none, 0, 64, 0, 0, 0⟩ ∧ s.arrivals[1]? = some ⟨some 8, none, 9, 64, 0, 0, 0⟩ ∧ s.roundArrivals[0]? = some ⟨none, none, 0, 64, 0, 0, 2⟩ ∧
      objectFree s 0 64 = true ∧ stepTurn s 0 64 0 = true ∧ stepTurn { s with arrivals := [] } 0 64 2 = true ∧ s.wg? 9 = none ∧
      objBytes (readObj (next (exec (.byteArrival 0) s)) 0 64) = 0 ∧ objPend (readObj (next (exec (.groupArrival 0) { s with arrivals := [] })) 0 64) = 0 ∧
      (next (exec (.groupArrival 0) s)).roundArrivals.length = 1 ∧
      (next (exec (.byteArrival 1) s)).peerReqs.length = 1 := by decide +kernel
theorem test_witness_bowait_timeout : (sheet0 waiter).wait = .object 64 0 0 ∧ (sheet0 waiter).park = .running ∧ (waiter.wg? 0).isSome ∧
    bitAt (objWaiters (readObj waiter 0 64)) (sheet0 waiter).num = true ∧ OnlyFlight (sheet0 waiter) (pendingIn .syn) ∧
    objHeld waiter 0 64 = false ∧ (sheet0 waiter).queue = [orderEntry 5 (some .dev) none true true false (.held 0)] ∧
    (sheet0 (next (exec (.bowaitTimeout 0) waiter))).queue = [] ∧ objWaiters (readObj (next (exec (.bowaitTimeout 0) waiter)) 0 64) = 0 := by
  unfold OnlyFlight; decide +kernel
/-- A request to workgroup `wg`, with what redirects it. -/
def requested (wg : Nat) (op : PeerOp) (l : List Redirect) : State :=
  { (queued { oldLoad with space := .pa, peer := wg }).setDie 0 { Die.reset with redirects := l } with peerReqs := [⟨0, 0, wg, 32, op, 0, 0⟩] }
theorem test_witness_requests :
    redirectOf (requested 5 (.write [1, 2]) [⟨0, 0, 0, 5, 5, 0, true⟩]) 5 = some ⟨0, 0, 0, 5, 5, 0, true⟩ ∧
    (next (exec (.redirectedRequest 0) (requested 5 (.write [1, 2]) [⟨0, 0, 0, 5, 5, 0, true⟩]))).peerReqs.length = 1 ∧
    redirectOf (requested 0 (.write [1, 2]) []) 0 = none ∧ scrubHolds (requested 0 (.write [1, 2]) []) 0 = false ∧ ((requested 0 (.write [1, 2]) []).wg? 0).isSome ∧
    redirectOf (requested 5 (.access 0 { oldLoad with space := .pa, peer := 5 }) []) 5 = none ∧
    ((requested 5 (.access 0 { oldLoad with space := .pa, peer := 5 }) []).wg? 5) = none := by decide +kernel
theorem test_requests :
    ((((next (exec (.redirectedRequest 0) (requested 0 (.write [1, 2]) []))).wg? 0).map (fun w => w.readBuf true 32 2)) = some [1, 2]) ∧
    (next (exec (.discardedRequest 0) (requested 5 (.access 0 { oldLoad with space := .pa, peer := 5 }) []))).peerReqs = [] ∧
    (let t := next (exec (.loadPerformed 0 0) (queued { oldLoad with space := .pa, peer := 5 }))
     (sheet0 t).queue.map (·.away) = [true] ∧ t.peerReqs.length = 1 ∧ (sheet0 (next (exec (.loadPerformed 0 0) t))).queue.length = 1 ∧
       (sheet0 (next (exec (.discardedRequest 0) t))).queue = []) ∧
    getD ((next (exec (.discardedRequest 0) (requested 5 (.write [1]) []))).part 0).counters 0 10 = 1 := by decide +kernel
/-- A request to a saved workgroup. -/
def savedRequest : State := (requested 5 (.write [1, 2]) [⟨0, 0, 0, 5, 5, 0, false⟩]).mapPart 0 (fun p => { p with image := [.workgroup 5 runnerWg, .abuf 5 [], .end_] })
theorem test_saved_request : ImageRec.workgroup 5 runnerWg ∈ (savedRequest.part 0).image ∧ ImageRec.abuf 5 [] ∈ (savedRequest.part 0).image ∧
    ImageRec.abuf 5 [(32, 1), (33, 2)] ∈ ((next (exec (.redirectedRequest 0) savedRequest)).part 0).image := by decide +kernel

/-- A command in entry 0 of core 0. -/
def cmdOf (op : Instr) (u : FUnit) (ph : CmdPhase) (trig : W64) (shape : List (BitVec 32)) (reads writes : List Res) : Cmd :=
  { num := 0, sid := 0, wg := 0, unit := u, op := op, flight := 0, trig := trig, x0 := 0, x1 := 0, shape := shape, regs := [], fmts := [], tile := 0,
    reads := reads, writes := writes, phase := ph, start := 0, outs := [], value := 0, cause := .none, info := 0, canc := false, at_ := 0,
    baddr := 0x1000, slot := 0, ovf := false, used := false, paid := 0, wrote := 0, ended := 0 }
/-- The runner's sheet with a command, its value pending, at a time stamp. -/
def commanded (ts : Nat) (c : Cmd) : State :=
  { (one (fun sh => { sh with flights := [pendingIn c.unit], nextId := 1 })).setCmd 0 0 c with ts := ts }
def cclrQueued : Cmd := cmdOf (.cclr hd 4) .cfe .queued 0 [] [] [.limb 0 4]
def cmulQueued : Cmd := cmdOf (.cmul hd 4) .cfe .queued 0x21 [] [.limb 0 1, .limb 0 2] [.limb 0 4]
theorem test_witness_command_issue : canIssue (commanded 0 cclrQueued) 0 0 = true ∧ cclrQueued.units = 0 ∧ canIssue (commanded 0 cmulQueued) 0 0 = true ∧
    cmulQueued.units ≠ 0 := by decide +kernel
/-- The worked example of R89: a column A MMA issued at k = 200 starts at 256, and its second K block runs from 512 to 640. -/
def mmaSplit : Cmd := cmdOf (.mma hd ⟨0, true, false⟩) .mxe .queued 0 [0, 0, 2] [] []
theorem test_split_windows : let s := (commanded 200 mmaSplit).mapCore 0 (fun k => { k with split := true, splitFrom := 0 })
    engineStart s 0 mmaSplit = 256 ∧ (mmaSplit.cycles s).1 = 640 - 256 := by decide +kernel
/-- A command that has asked its cluster for units. -/
def asked : State := (commanded 10 { cmulQueued with phase := .requested }).setCluster 0 { Cluster.reset with resv := [⟨0, 0, 6, 0, false⟩] }
theorem test_witness_grant : (asked.cluster 0).resv = [⟨0, 0, 6, 0, false⟩] ∧ (asked.cluster 0).defer = false ∧ heldUnits asked 0 + 6 ≤ (asked.cluster 0).budget ∧
    ((next (exec (.reservationGrant 0) asked)).cmd? 0 0).map (·.phase) = some .started := by decide +kernel
/-- A consumed command with a limb to write. -/
def consumed : Cmd := { cclrQueued with phase := .consumed, outs := [.limb 0 4 77] }
theorem test_witness_completion : consumed.start + (consumed.cycles (commanded 1000 consumed)).2 ≤ (commanded 1000 consumed).cycle 0 ∧ writeSectors (commanded 1000 consumed) 0 consumed ≤ consumed.paid ∧
    consumed.outs.any (outHeld (commanded 1000 consumed)) = false ∧
    (((next (exec (.commandCompletion 0 0) (commanded 1000 consumed))).wg? 0).map (fun w => getD w.limbs 0 4)) = some 77 := by decide +kernel
/-- A completed command. -/
def completed : Cmd := { cclrQueued with phase := .completed, value := 0x1234 }
theorem test_witness_status_landing : oldestOf (commanded 100 completed) 0 .cfe = some (0, completed) ∧ completed.ended < (commanded 100 completed).cycle 0 ∧
    arrivalUnderWay (commanded 100 completed) 0 completed.num = false ∧ OnlyFlight (sheet0 (commanded 100 completed)) (pendingIn .cfe) ∧
    (sheet0 (next (exec (.statusLanding 0 .cfe) (commanded 100 completed)))).getQ .cfe 0 0 = 0x1234 ∧
    (next (exec (.statusLanding 0 .cfe) (commanded 100 completed))).cmd? 0 0 = none := by unfold OnlyFlight; decide +kernel
/-- A trap record of a cause, found at the sheet's bundle. -/
def trapOf (c : Cause) (late : Bool) : Trap :=
  { cause := c, late := late, whole := false, rslot := 0, done := [], sfault := [0], ent := 0, fmask := 1, ts := 0, info := 0, baddr := 0x1000, faddr := 0, causes := [(0, c)],
    blocks := [⟨0, (Instr.pass .ala hd).move.getD Move.empty, 1, [5]⟩], waive := [], skips := [], format := .narrow, stall := 0, le := false, dp := false,
    preds := [], inst := none, until_ := 0 }
/-- The record of a bundle under way. -/
def heldOne : Held := ⟨trapOf .none false, [], [], [], []⟩
/-- BOTEST and BOARR of a workgroup that is gone. -/
def testing : State := (requested 5 (.botest 0 0) []).mapSheet 0 (fun sh => { sh with queue := [orderEntry 5 (some .dev) none true true false (.held 0)], flights := [pendingIn .syn] })
def heldArrival : State := (requested 5 (.boarr 1 0 2) []).mapSheet 0 (fun sh => { sh with queue := [], flights := [], held := some { heldOne with todo := [2, 1] } })
theorem test_witness_discarded_answers : OnlyFlight (sheet0 testing) (pendingIn .syn) ∧ redirectOf testing 5 = none ∧ testing.wg? 5 = none ∧
    (sheet0 (next (exec (.discardedRequest 0) testing))).queue = [] ∧ (sheet0 (next (exec (.discardedRequest 0) testing))).getQ .syn 0 0 = 0 ∧
    (sheet0 heldArrival).held = some { heldOne with todo := [2, 1] } ∧
    ((sheet0 (next (exec (.discardedRequest 0) heldArrival))).held.map (·.todo)) = some [1] := by
  unfold OnlyFlight; decide +kernel
/-- A command stopped after commit. -/
def stopped (c : Cause) : Cmd := { cmdOf (.cext hd) .cfe .stopped 1 [] [.limb 0 1] [] with cause := c }
theorem test_witness_late_cause : let s := one (fun sh => { sh with lates := [trapOf .guardData true] })
    (sheet0 s).lates = trapOf .guardData true :: [] ∧ (sheet0 s).park = .running ∧ (sheet0 (next (exec (.lateCauseStop 0) s))).park = .raised := by decide +kernel
theorem test_witness_cancel : (commanded 0 (stopped .engineError)).cmd? 0 0 = some (stopped .engineError) ∧
    ((next (exec (.commandCancel 0 0) (commanded 0 (stopped .engineError)))).cmd? 0 0).map (fun c => (c.canc, c.value.toNat % 256)) = some (true, Cause.engineError.code) := by
  decide +kernel
/-- A sheet parked for the service of GUARD_DATA. -/
def guarded : State := (commanded 0 (stopped .guardData)).mapSheet 0 (fun sh => { sh with park := .service, trap := some (trapOf .guardData true) })
theorem test_witness_resume : guarded.cmd? 0 0 = some (stopped .guardData) ∧ (guarded.wg? 0).isSome ∧ (sheet0 guarded).park = .service ∧
    (sheet0 (next (exec (.commandResume 0 0) guarded))).park = .resume := by decide +kernel
/-- The runner's workgroup with limbs k1 and k2, and k3. -/
def limbState (s : State) : State := s.mapWg 0 (fun w => { w with limbs := [(1, 6), (2, 7), (3, 100)] })
/-- A command whose operands are due. -/
def due (op : Instr) (u : FUnit) (trig : W64) (shape : List (BitVec 32)) : State :=
  limbState (commanded 100000 (cmdOf op u .started trig shape [] []))
theorem test_witness_due : ((cmdOf (.cmul hd 4) .cfe .started 0x21 [] [] []).start + ((cmdOf (.cmul hd 4) .cfe .started 0x21 [] [] []).cycles (due (.cmul hd 4) .cfe 0x21 [])).1) ≤
      (due (.cmul hd 4) .cfe 0x21 []).cycle 0 ∧ ((due (.cmul hd 4) .cfe 0x21 []).wg? 0).isSome := by decide +kernel
/-- What a command computed when its operands were consumed. -/
def outsOf (s : State) : List CmdWrite := (((next (exec (.operandsConsumed 0 0) s)).cmd? 0 0).map (·.outs)).getD []
theorem test_limb_results : outsOf (due (.cmul hd 4) .cfe 0x21 []) = [.limb 0 4 42] ∧ outsOf (due (.cmac hd 3) .cfe 0x21 []) = [.limb 0 3 142] ∧
    outsOf (due (.csqr hd 4) .cfe 2 []) = [.limb 0 4 49] ∧ outsOf (due (.cadd hd 4) .cfe 0x21 []) = [.limb 0 4 13] ∧
    outsOf (due (.csub hd 4) .cfe 0x21 []) = [.limb 0 4 (BitVec.ofInt 1024 (-1))] ∧ outsOf (due (.cclr hd 4) .cfe 0 []) = [.limb 0 4 0] ∧
    outsOf (due (.cbig hd 4) .cfe 0x21 []) = [.limb 0 4 42] := by decide +kernel
theorem test_tile_results : (outsOf (due (.mxzero hd ⟨1, true⟩) .mxe 0 []))[15]? = some (.tile 0 0 15 (List.replicate 128 0)) ∧
    (outsOf (due (.mxst hd 1) .mxe 0 [0, 0, 0, 0, 64, 0, 0, 0, 0, 1])) = [.abuf 0 64 (List.replicate 512 0)] ∧
    (outsOf (due (.mxld hd ⟨1, true⟩) .mxe 0 [0, 0, 0, 0, 64, 0, 0, 0, 0, 1]))[0]? = some (.tile 0 0 0 (List.replicate 128 0)) := by decide +kernel
/-- A full round of one row in group 3, to a page of memory, by core 0. -/
def groupFull : Group :=
  ⟨BitVec.ofNat 512 (2 ^ 240 + 2 ^ 241 + 2 ^ 244 + 2 ^ 256 + 2 ^ 303 * 64 + 2 ^ 352 * 512 + 2 ^ 384 * 0x3000), [0]⟩
def roundOne : Round := ⟨0, 3, 0, [⟨0, 0, 0, 0, 0, List.replicate 128 5⟩], 0⟩
def rounded (w : BitVec 512) (r : Round) : State :=
  { (one id).mapPart 0 (fun p => { p with groups := [(3, { groupFull with word := groupFull.word ||| w })] }) with rounds := [r] }
theorem test_witness_round : (rounded 0 roundOne).group 0 3 = some groupFull ∧ getRound (rounded 0 roundOne) 0 3 0 = some roundOne ∧
    roundFull groupFull roundOne = true ∧ roundOne.rows + 1 = Group.rows groupFull ∧ gWorkgroup groupFull roundOne 336 = some 0 := by decide +kernel
theorem test_round : rowPlace (rounded 0 roundOne) groupFull roundOne 0 = .ok (.glob [(0x3000, 512)]) ∧
    ((fun t : State => t.readNat 0x3000 8 == 0x500000005 && t.roundArrivals == [⟨none, none, 0, 64, 0, 0, 2⟩]) (next (exec (.roundClose 0 3 0) (rounded 0 roundOne)))) = true := by
  and_intros
  · rfl
  all_goals decide +kernel
/-- The same round in the A buffer of workgroup 0. -/
def toBuffer : BitVec 512 := BitVec.ofNat 512 (2 ^ 242)
theorem test_round_buffer : let g : Group := { groupFull with word := groupFull.word ||| toBuffer }
    (rounded toBuffer roundOne).group 0 3 = some g ∧ gField g 242 2 = 1 ∧ gWorkgroup g roundOne 320 = some 0 ∧ gWorkgroup g roundOne 336 = some 0 ∧
      gField g 272 16 = (rounded toBuffer roundOne).deviceNo ∧ lookup ((rounded toBuffer roundOne).core 0).scrub 0 = none ∧
      (∀ k < Group.rows g, gField g 384 17 + (0 + k) * gField g 352 32 + 512 ≤ 16384) := by decide +kernel
/-- A destination beyond the A buffer. -/
def beyond : BitVec 512 := BitVec.ofNat 512 (2 ^ 242 + 2 ^ 384 * 0x8000)
/-- The command of its contribution, its operands consumed. -/
def contributing : Cmd := cmdOf (.mxred hd 1) .mxe .consumed 0 [0, 0, 0, 0, 0, 0, 0, 3, 0] [] []
theorem test_round_failure : let g : Group := { groupFull with word := groupFull.word ||| beyond }
    (match rowPlace (rounded beyond roundOne) g roundOne 0 with
      | .error f => !openMiss (rounded beyond roundOne) (.round 0 3 0) 0 f
      | .ok _ => false) = true ∧ ((rounded beyond roundOne).cmd? 0 0) = none ∧
    (next (exec (.roundFailure 0 3 0) (rounded beyond roundOne))).rounds = [] ∧
    ((sheet0 (next (exec (.roundFailure 0 3 0) (rounded beyond roundOne)))).lates.map (·.cause)) = [.engineError] ∧
    ((next (exec (.roundFailure 0 3 0) ((rounded beyond roundOne).setCmd 0 0 contributing))).cmd? 0 0).map (fun k => (k.phase, k.cause, k.canc)) =
      some (.completed, .engineError, true) := by decide +kernel

/-- A destination that is not mapped, one of three rows, one in another device's A buffer, one in a workgroup that is away. -/
theorem test_round_rows : let un : BitVec 512 := BitVec.ofNat 512 (2 ^ 414)
    let far : BitVec 512 := BitVec.ofNat 512 (2 ^ 242 + 2 ^ 272)
    (next (exec (.roundClose 0 3 0) (rounded un roundOne))).rounds = [roundOne] ∧
    ((next (exec (.roundClose 0 3 0) (rounded un roundOne))).die 0).prq.map (·.page) = [0x40003] ∧
    (next (exec (.roundClose 0 3 0) (rounded (BitVec.ofNat 512 (2 ^ 257)) roundOne))).rounds = [] ∧
    (next (exec (.roundClose 0 3 0) (rounded far roundOne))).rounds = [] ∧
    ((next (exec (.roundClose 0 3 0) { rounded toBuffer roundOne with wgs := [] })).peerReqs.map (fun q => (q.wg, q.off))) = [(0, 0x3000)] := by decide +kernel

/-- The runner's sheet parked with a trap record of a cause. -/
def parked (c : Cause) (p : Park) (f : Trap → Trap) : State := one (fun sh => { sh with park := p, trap := some (f (trapOf c false)) })
/-- Disposition R of a cause in FDISP (R280). -/
def dispOne (c : Cause) : W64 := BitVec.ofNat 64 (2 ^ (2 * c.code))
/-- FDISP of partition 0. -/
def disposing (v : W64) (s : State) : State := s.mapPart 0 (fun p => { p with fdisp := v })
/-- The park state of sheet 0 after an event. -/
def parkAfter (i : Instr) (s : State) : Option Park := ((next (exec i s)).sheet? 0).map (·.park)
theorem test_witness_dispositions :
    (∀ c ∈ [Cause.opRetired, .opAbsent, .intervalEmpty, .fpEnabled, .intDivide, .barrierOverrun, .spawnOverflow, .translation], disposition (dispOne c) c = 1 ∧
      (sheet0 (parked c .raised id)).park = .raised ∧ (sheet0 (parked c .raised id)).trap.isSome ∧ ((parked c .raised id).wg? 0).isSome) ∧
    disposition Part.reset.fdisp .breakpoint = 2 ∧ Part.reset.debugger = false ∧ disposition (3 * dispOne .softwareTrap) .softwareTrap = 3 := by
  decide +kernel
theorem test_dispositions :
    parkAfter (.faultHandling 0) (disposing (dispOne .intDivide) (parked .intDivide .raised id)) = some .resume ∧
    parkAfter (.faultHandling 0) (disposing (dispOne .opAbsent) (parked .opAbsent .raised id)) = some .service ∧
    parkAfter (.faultHandling 0) (disposing (dispOne .translation) (parked .translation .raised (fun r => { r with info := 0x0B, faddr := 0x5000 }))) = some .service ∧
    parkAfter (.faultHandling 0) (disposing (3 * dispOne .softwareTrap) (parked .softwareTrap .raised id)) = some .resume ∧
    (sheet0 (next (exec (.faultHandling 0) (disposing (3 * dispOne .softwareTrap) (parked .softwareTrap .raised id))))).skipst.toNat = Cause.softwareTrap.code ∧
    parkAfter (.faultHandling 0) ((parked .breakpoint .raised id).mapPart 0 (fun p => { p with debugger := true })) = some .debug ∧
    parkAfter (.faultHandling 0) (parked .moveIllegal .raised id) = none ∧ parkAfter (.debuggerResume 0) (parked .breakpoint .debug id) = some .resume ∧
    parkAfter (.debuggerSkip 0) (parked .breakpoint .debug id) = some .resume ∧ parkAfter (.debuggerTerminate 0) (parked .breakpoint .debug id) = none := by decide +kernel
/-- A sheet parked for GUARD_DATA of its command. -/
def lateParked (p : Park) : State :=
  (commanded 0 (stopped .guardData)).mapSheet 0 (fun sh => { sh with park := p, trap := some (trapOf .guardData true) })
theorem test_witness_late_handling : (sheet0 (lateParked .raised)).park = .raised ∧ (lateParked .debug).cmd? 0 0 = some (stopped .guardData) ∧
    (next (exec (.faultHandling 0) (disposing (dispOne .guardData) (lateParked .raised)))).agenda = [.commandResume 0 0] ∧
    ((next (exec (.debuggerSkip 0) (lateParked .debug))).cmd? 0 0).map (·.canc) = some true := by decide +kernel
/-- A move that the library emulates: ADD in thread 0. -/
def savedAdd : SavedMove := ⟨0, (Instr.add .ala hd ⟨false, false⟩).move.getD Move.empty, 1, [5]⟩
def emulated : State := parked .opAbsent .service (fun r => { r with blocks := [savedAdd] })
theorem test_witness_emulation : (sheet0 emulated).park = .service ∧ savedAdd.trig = some .ala ∧ (sheet0 emulated).trap.bind Trap.reported = some savedAdd ∧
    (emuOuts (sheet0 emulated) savedAdd .ala = none ∨ ∃ l, emuOuts (sheet0 emulated) savedAdd .ala = some l ∧ emuTraps (sheet0 emulated) l = []) := by
  refine ⟨by decide +kernel, by decide +kernel, by decide +kernel, ?_⟩
  cases h : emuOuts (sheet0 emulated) savedAdd .ala with
  | none => exact Or.inl rfl
  | some l =>
    refine Or.inr ⟨l, rfl, ?_⟩
    have hc : (sheet0 emulated).fpcr = 0 := by decide +kernel
    have ht : ∀ f : Flags, Flags.traps 0 f = false := by decide
    simp only [emuTraps, hc, ht, Bool.false_eq_true, List.filter_eq_nil_iff, not_false_eq_true, implies_true]
/-- A stop of the whole bundle that may be tried again. -/
def retried (w : Bool) : State := parked .watchdog .resume (fun r => { r with blocks := [], whole := w })
theorem test_witness_resumed : ∀ w, (sheet0 (retried w)).park = .resume ∧ getD ((retried w).core 0).busy 0 ((retried w).colOf 0) ≤ (retried w).cycle 0 ∧
    (sheet0 (retried w)).nextIssue ≤ (retried w).cycle 0 ∧
    ((sheet0 (retried w)).trap.map (fun r => (r.blocks, r.done, r.late, r.whole))) = some ([], [], false, w) ∧ (sheet0 (retried w)).rcv = none ∧
    parkAfter (.resumedBundle 0) (retried w) = some .running ∧
    (sheet0 (next (exec (.resumedBundle 0) (retried w)))).pc = (if w then 0x1000 else 0x1010) := by decide +kernel
/-- A sheet that waits for SVC's answer. -/
def served (k : Nat) : State := one (fun sh => { sh with sys := .svc k 5 0, flights := [pendingIn .sys], nextId := 1 })
theorem test_witness_svc : ∀ k ∈ [0, 3, 4, 0x7FFF, 0x8000, 0xFFFF], (sheet0 (served k)).sys = .svc k 5 0 ∧ (sheet0 (served k)).park = .running ∧
    OnlyFlight (sheet0 (served k)) (pendingIn .sys) := by unfold OnlyFlight; decide +kernel
theorem test_svc_answers : (sheet0 (next (exec (.svcAnswer 0 9) (served 0x8000)))).getQ .sys 0 0 = 9 ∧
    (sheet0 (next (exec (.svcAnswer 0 9) (served 0x7FFF)))).getQ .sys 0 0 = BitVec.allOnes 64 ∧
    (sheet0 (next (exec (.svcAnswer 0 9) (served 1)))).getQ .sys 0 0 = 0 := by decide +kernel
/-- A sheet that has waited at one bundle for a number of cycles, in a partition with a limit. -/
def waited (n lim : Nat) : State := (one (fun sh => { sh with waitAt := some (0, 2, 0), watch := n })).mapPart 0 (fun p => { p with wdlim := lim })
theorem test_witness_watchdog : (sheet0 (waited 940 940)).park = .running ∧ 940 ≤ (sheet0 (waited 940 940)).watch ∧ parkAfter (.watchdog 0) (waited 940 940) = some .raised ∧
    parkAfter (.watchdog 0) (waited 939 940) = some .running := by decide +kernel

theorem test_soft_errors : contextResident (one id) 0 = true ∧ getD ((next (exec (.softErrorCorrected ⟨0, 1535⟩) (one id))).part 0).counters 0 15 = 1 ∧
    ((next (exec (.softErrorCorrected ⟨39, 1535⟩) (one id))).part 39).counters = [] ∧
    (sheet0 (next (exec (.uncorrectable (.move 0 2)) (one id)))).corrupt = some 2 ∧
    (next (exec (.uncorrectable (.sector 0x2010)) (one id))).poisoned = [0x100] ∧
    ((next (exec (.uncorrectable (.command 0 0)) (commanded 0 { cclrQueued with phase := .started }))).cmd? 0 0).map (·.cause) = some .uncorrectable := by decide +kernel
/-- A trace ring of 16 records at 0x40000 and a sampling counter 16. -/
def sampling : State := (one id).mapPart 0 (fun p => { p with
  pcsel := [(16, BitVec.ofNat 64 (2 + 2 ^ 10 * 3 + 2 ^ 31))], rings := [(2, ⟨⟨0x40000, 16, true, 3, 3⟩, false⟩)] })
theorem test_witness_sample : bitAt (getD (sampling.part 0).pcsel 0 16).toNat 31 = true ∧ bits (getD (sampling.part 0).pcsel 0 16).toNat 10 5 ≠ 0 ∧
    (getD (sampling.part 0).rings Ring.reset 2).desc.en = true ∧
    ((getD (sampling.part 0).rings Ring.reset 2).desc.wr - (getD (sampling.part 0).rings Ring.reset 2).desc.rd).toNat < (getD (sampling.part 0).rings Ring.reset 2).desc.cap ∧
    (getD (sampling.part 0).rings Ring.reset 3).desc.en = false ∧
    (next (exec (.sampleRecord 0 16 0 1) sampling)).readNat (0x40000 + 3 * 32) 12 = 2 + 2 ^ 9 := by decide +kernel

/-- The runner's state with core 0 owned by partition 0. -/
def owned (s : State) : State := s.mapCore 0 (fun k => { k with ownA := 0 })
/-- A native object of one bundle (R109), and a launch record of one workgroup of 32 threads that names it (R38). -/
def objectHeader : Nat := 0x584C4F4B + 2 ^ 40 + 2 ^ 64 * 256 + 2 ^ 96 * 16 + 2 ^ 136 * 8 + 2 ^ 144 * 512 + 2 ^ 320
def goodRecord : Nat := 0x4000 + 2 ^ 128 + 2 ^ 160 + 2 ^ 176 + 2 ^ 192 * 32 + 2 ^ 208 + 2 ^ 224
/-- A record at 0x2000, with the object at 0x4000, and a launch that waits. -/
def launching (rec : Nat) (q : LaunchReq) : State :=
  { ((owned (one (fun sh => { sh with flights := [pendingIn .sys], nextId := 1 }))).writeBytes 0x2000 (leBytes 64 rec)).writeBytes 0x4000 (leBytes 64 objectHeader) with
    launches := [q] }
/-- `Judged` as a check. -/
def judgedB (s : State) (who : Misser) (vf part raw : Nat) (r : LRec) (v : Nat) : Bool :=
  if recBad raw r then v == 0x10
  else match loadKernel s who vf part r.kaddr.toNat r.threads with
    | .error (.refuse c) => v == c
    | .error (.miss _) => false
    | .ok (k, s') =>
      if fitsEmpty s' part (needOf k r) r.clw then
        !r.coop && v == (if 4096 ≤ (s'.grids.filter (fun e => e.2.part == part)).length then 0x14 else 0)
      else v == 0x12
theorem judged_of {s : State} {who : Misser} {vf part raw : Nat} {r : LRec} {v : Nat} (h : judgedB s who vf part raw r v = true) : Judged s who vf part raw r v := by
  unfold judgedB at h
  unfold Judged
  by_cases hb : recBad raw r = true
  · simpa [hb] using h
  · simp only [hb, Bool.false_eq_true, if_false] at h ⊢
    generalize loadKernel s who vf part (BitVec.toNat r.kaddr) r.threads = x at h ⊢
    match x, h with
    | .error (.refuse c), h => simpa using h
    | .error (.miss _), h => simp at h
    | .ok (k, s'), h =>
      by_cases h2 : fitsEmpty s' part (needOf k r) r.clw = true <;> simpa [h2] using h
/-- A record's place and STATUS, and the verdict. -/
def decidedB (s : State) (k : Nat) (q : LaunchReq) (va : W64) (code : Nat) : Bool :=
  s.launches[k]? == some q && !behindLaunch s k q && !(s.vf 0).resetting && (s.vf 0).part == some 0 && (recordAt s 0 va).toOption == some 0x2000 &&
  recStatus s 0x2000 != 1 && judgedB { s with launches := s.launches.eraseIdx k } (.launch q) 0 0 (s.readNat 0x2000 64) (parseRec (s.readNat 0x2000 64)) code
theorem test_witness_launch_decided :
    decidedB (launching goodRecord (.host 0 0x2000)) 0 (.host 0 0x2000) 0x2000 0 = true ∧
    decidedB (launching 0 (.host 0 0x2000)) 0 (.host 0 0x2000) 0x2000 0x10 = true ∧
    decidedB (launching (goodRecord + 0x100) (.host 0 0x2000)) 0 (.host 0 0x2000) 0x2000 0x11 = true ∧
    decidedB (launching (goodRecord + 2 ^ 256 * 128) (.move 0 0 0 0 0x2000)) 0 (.move 0 0 0 0 0x2000) 0x2000 0 = true := by decide +kernel
/-- A cooperative grid is placed whole; one of more workgroups than contexts is not; an object on no page waits (R55, R479). -/
theorem test_launch_cooperative : let at_ (rec : Nat) := launching rec (.host 0 0x2000)
    let t := next (exec (.launchAcceptance 0) (at_ (goodRecord + 2 ^ 243)))
    recStatus t 0x2000 = 1 ∧ t.lqueue = [] ∧ (t.grid? 1).map (·.nextG) = some 1 ∧
    recStatus (next (exec (.launchAcceptance 0) (at_ (goodRecord + 2 ^ 243 + 2 ^ 128 * 30000)))) 0x2000 = 0x12 ∧
    (next (exec (.launchAcceptance 0) (at_ (goodRecord + 0x40000000)))).launches = [.host 0 0x2000] ∧
    ((next (exec (.launchAcceptance 0) (at_ (goodRecord + 0x40000000)))).die 0).prq.map (·.page) = [0x40004] := by decide +kernel
theorem test_launch_accepted : ((next (exec (.launchAcceptance 0) (launching goodRecord (.host 0 0x2000)))).lqueue) = [1] ∧
    recStatus (next (exec (.launchAcceptance 0) (launching goodRecord (.host 0 0x2000)))) 0x2000 = 1 ∧
    recStatus (next (exec (.launchAcceptance 0) (launching 0 (.host 0 0x2000)))) 0x2000 = 0x10 ∧
    (sheet0 (next (exec (.launchAcceptance 0) (launching (goodRecord + 0x100) (.move 0 0 0 0 0x2000))))).getQ .sys 0 0 = 0x11 := by decide +kernel
theorem test_launch_active : let s := launching (goodRecord + 2 ^ 384) (.host 0 0x2000)
    recStatus s 0x2000 = 1 ∧ ((next (exec (.launchAcceptance 0) s)).vf 0).lerrCode = 6 := by decide +kernel
/-- A portable object of one bundle at 0x4000, whose second operation has its reserved bit 0 set. -/
def portable : State := (launching goodRecord (.host 0 0x2000)).writeBytes 0x4000 (leBytes 264 (objectHeader + 2 ^ 48 + 2 ^ 96 * 16) ++ [1])
theorem test_witness_portable : ((loadAt portable (.launch (.host 0 0x2000)) 0 0x4000 256).toOption.map (fun b => hField (leNat b) 48 2)) = some 1 ∧ (portable.part 0).xlen = false ∧
    ((loadAt portable (.launch (.host 0 0x2000)) 0 0x4000 (objectSize (objectHeader + 2 ^ 48 + 2 ^ 96 * 16))).toOption.map (fun b => (b.length, kpfCode ((b.drop 256).take 32)))) = some (288, false) := by
  decide +kernel
/-- The operation of R348's example, LIMM and DRAIN pass; a store that names a destination, a DIV whose `w` has no register, a
port as an operand and an unknown pseudo-operation do not (R105 to R108). -/
theorem test_portable_operations : ([0x3080000900C04014, 0xF0400003FFFFFFFF, 0xF080000000000000].map kpfOp) = [true, true, true] ∧
    ([6 * 2 ^ 60 + 4 * 2 ^ 53 + 9 * 2 ^ 32, 2 * 2 ^ 60 + 7 * 2 ^ 53 + 0x7F * 2 ^ 32, 0xE0 * 2 ^ 22, 15 * 2 ^ 60 + 5 * 2 ^ 53].map kpfOp) =
      [false, false, false, false] := by decide +kernel
/-- Virtual functions that can and cannot launch. -/
theorem test_submissions : ∀ p ∈ [(false, 8, (0x2001 : W64), 1), (false, 8, 0xFFFFFFFFFFFFFFC0, 2), (false, 4, 0x2000, 4), (true, 8, 0x2000, 5)],
    let s := (one id).setVf 0 { (one id).vf 0 with resetting := p.1 }
    ((next (exec (.launchSubmission 0 p.2.1 p.2.2.1) s)).vf 0).lerrCode = p.2.2.2 := by decide +kernel
theorem test_submission_accepted : (next (exec (.launchSubmission 0 8 0x2000) (one id))).launches = [.host 0 0x2000] ∧
    ((next (exec (.launchSubmission 7 8 0x2000) (one id))).vf 7).lerrCode = 3 := by decide +kernel
/-- A spawned launch of the queue at 0x2000, whose template record is at 0x5000. -/
def spawned (rec : Nat) (e : Bool) : State :=
  { ((queueState (launching 0 (.host 0 0x2000))).writeBytes 0x2000 (leBytes 8 0x5000)).writeBytes 0x5000 (leBytes 64 rec) with spawns := [⟨0x2000, 0, e⟩] }
theorem test_spawned : let s := spawned goodRecord true
    (recordAt s 0 0x2000).toOption = some 0x2000 ∧ Untracked s ∧ (parseRec goodRecord).wy = 1 ∧ (parseRec goodRecord).wz = 1 ∧ (parseRec goodRecord).clw = 0 ∧
      (parseRec goodRecord).coop = false ∧ SpawnDue s ⟨0x2000, 0, true⟩ 0x2000 ∧ judgedB { s with spawns := [] } (.spawn ⟨0x2000, 0, true⟩) 0 0 goodRecord { parseRec goodRecord with gx := 1, gy := 1, gz := 1 } 0 = true ∧
      qLnch (next (exec (.spawnedLaunch 0) s)) 0x2000 = 5 ∧ ¬ SpawnDue s ⟨0x2000, 0, false⟩ 0x2000 ∧
      qLnch (next (exec (.spawnedLaunch 0) (spawned goodRecord false))) 0x2000 = 2 := by
  unfold Untracked SpawnDue; decide +kernel

/-- A grid that waits in the launch queue of partition 0, beside the runner's. -/
def queuedGrid : State := { (owned (one id)).setGrid 1 { runnerGrid with record := 0x2000, nextG := 0, kernel := { runnerKernel with limbs := 0, regs := 8 } } with nextGrid := 2, lqueue := [1] }
theorem test_witness_dispatch : (batchOf queuedGrid 0).isSome ∧ (∀ p < 40, (p + 40 - queuedGrid.turn % 40) % 40 < (0 + 40 - queuedGrid.turn % 40) % 40 → batchOf queuedGrid p = none) ∧
    (next (exec (.dispatchBatch 0) queuedGrid)).turn = 1 ∧ (next (exec (.dispatchBatch 0) queuedGrid)).nextWg = 2 ∧ servedGrid queuedGrid 0 = some 1 ∧
    freeSlots queuedGrid 1 (bestDie queuedGrid 1) ≠ 0 := by
  refine ⟨by decide +kernel, fun p _ h => absurd h (by have : queuedGrid.turn = 0 := by decide +kernel
                                                       simp [this]), by decide +kernel⟩
/-- A workgroup that has been placed in context 3 of core 0. -/
def placed : State := (one id).setWg 1 { runnerWg with ctxs := [3], started := false }
theorem test_witness_start : placed.wg? 1 = some { runnerWg with ctxs := [3], started := false } ∧ placed.grid? 0 = some runnerGrid ∧ servable placed 0 = true ∧
    scrubbing placed 0 0 = false ∧ scrubDue placed 0 0 0 = false ∧ [3].Nodup ∧
    ((next (exec (.workgroupStart 1) placed)).sheet? 3).map (fun y => (y.wg, y.pc)) = some (1, 0x1000) := by decide +kernel
/-- A sheet without threads. -/
def leftState : State := one (fun sh => { sh with gone := ~~~0 })
theorem test_witness_exit : (sheet0 leftState).left = true ∧ (sheet0 leftState).park = .running ∧ (sheet0 leftState).queue = [] ∧ (sheet0 leftState).lates = [] ∧
    leftState.homeq = [] ∧ (leftState.core 0).cmds = [] ∧ ((next (exec (.sheetExit 0) leftState)).sheet? 0) = none ∧
    ((next (exec (.sheetExit 0) leftState)).grid? 0).map (·.done) = some 1 := by decide +kernel
/-- A grid with its record at 0x2000, some of its workgroups exited, with an end. -/
def ending (done : Nat) (e : Option (Cause × Nat)) : State :=
  { (one id).setGrid 0 { runnerGrid with record := 0x2000, done := done, ending := e } with sheets := [], wgs := [] }
theorem test_witness_grid_end : (∀ e ∈ [none, some (Cause.none, 0), some (.intDivide, 5)], childOf (ending 1 e) 0 = false ∧
      ((ending 1 e).grid? 0).map (fun g => (g.batch, g.ending, g.done)) = some (none, e, runnerGrid.lrec.total) ∧
      (recordAt (ending 1 e) 0 0x2000).toOption = some 0x2000 ∧ (ending 1 e).batches = [] ∧ launchPending (ending 1 e) 0 = false) ∧
    recStatus (next (exec (.gridRetire 0) (ending 1 none))) 0x2000 = 2 ∧ recStatus (next (exec (.gridTermination 0) (ending 0 (some (.none, 0))))) 0x2000 = 4 ∧
    recStatus (next (exec (.gridTermination 0) (ending 0 (some (.intDivide, 5))))) 0x2000 = 3 := by decide +kernel
theorem test_witness_function_reset : ((one id).grid? 0).map (fun g => (g.host, g.vf)) = some (true, 0) ∧
    ((next (exec (.functionLevelReset 0) (one id))).vf 0).resetting = true ∧ (next (exec (.functionLevelReset 0) (one id))).wgs = [] := by decide +kernel
/-- A workgroup that waits for a scrub of core 0, whose last context was partition 4's. -/
def dirtyCore : State := (({ one id with sheets := [], wgs := [] } : State).setWg 1 { runnerWg with started := false }).mapCore 0 (fun k => { k with served := [(0, 5)] })
theorem test_witness_scrub : dirtyCore.wg? 1 = some { runnerWg with started := false } ∧ dirtyCore.grid? 0 = some runnerGrid ∧ scrubDue dirtyCore 0 0 0 = true ∧
    (∀ e ∈ dirtyCore.wgs, e.2.core = 0 → e.2.col = 0 → e.2.started = false) ∧ scrubbing dirtyCore 0 0 = false ∧ (dirtyCore.core 0).cmds = [] ∧ dirtyCore.peerReqs = [] ∧
    lookup ((next (exec (.scrubStart 0 0) dirtyCore)).core 0).scrub 0 = some 2048 := by decide +kernel
theorem test_witness_scrubbed : let s := (one id).mapCore 0 (fun k => { k with scrub := [(0, 0)], served := [(0, 5)], l1 := [(9, ⟨true, 1⟩)], icache := [⟨3, 0, []⟩] })
    lookup (s.core 0).scrub 0 = some 0 ∧ 0 ≤ s.cycle 0 ∧ ((next (exec (.scrubComplete 0 0) s)).core 0).l1 = [] ∧ ((next (exec (.scrubComplete 0 0) s)).core 0).icache = [] := by decide +kernel

theorem test_witness_requests_of_class : ((one id).part 0).preempt = none ∧ ((one id).part 0).image = [] ∧
    ((next (exec (.classGRequest 0) (one id))).part 0).preempt = some ⟨false, 0⟩ ∧ ((next (exec (.classDRequest 0) (pressed false (one id)))).part 0).preempt = some ⟨true, 0⟩ := by
  decide +kernel
/-- A class G request that is old. -/
def oldRequest (ts : Nat) : State := { pressed false (one id) with ts := ts }
theorem test_witness_escalation : 0 + 1000 * maxList 0 ((ownGrids (oldRequest 300000) 0).map (fun e => e.2.kernel.bound)) + 50000 ≤ (oldRequest 300000).ts ∧
    (oldRequest 299999).ts < 0 + 1000 * maxList 0 ((ownGrids (oldRequest 299999) 0).map (fun e => e.2.kernel.bound)) + 50000 ∧
    ((next (exec (.classGEscalation 0) (oldRequest 300000))).part 0).preempt = some ⟨true, 300000⟩ := by decide +kernel
/-- A sheet at a graph boundary under a class G request. -/
def atBoundary : State := (pressed false (one id)).mapSheet 0 (fun sh => { sh with park := .boundary })
theorem test_witness_boundary : (atBoundary.part 0).preempt = some ⟨false, 0⟩ ∧ atBoundary.grids = [(0, runnerGrid)] ∧ atBoundary.sheets = [(0, sheet0 atBoundary)] ∧
    atBoundary.wgs = [(0, runnerWg)] ∧ (sheet0 atBoundary).park = .boundary ∧ quiet atBoundary 0 = true ∧ atBoundary.homeq = [] ∧
    (next (exec (.graphBoundaryStop 0) atBoundary)).wgs = [] ∧ ((next (exec (.graphBoundaryStop 0) atBoundary)).part 0).image.length = 5 := by decide +kernel
/-- An empty bundle with or without DP at the sheet's pc, under a class D request. -/
def atDrain (dp : Bool) : State :=
  (pressed true ((one id).mapCore 0 (fun k => { k with icache := [] }))).writeBytes 0x1000
    (leBytes 16 (Bundle.word ⟨.narrow, 0, false, dp, [Move.empty, Move.empty, Move.empty]⟩))
theorem test_witness_drain : classDPending (atDrain true) (sheet0 (atDrain true)) = true ∧ (sheet0 (atDrain true)).park = .running ∧
    Sheet.waitsHere (sheet0 (atDrain true)) 0 = false ∧ Sheet.betweenBundles (sheet0 (atDrain true)) = true ∧
    (nextInstr (atDrain true) 0 (sheet0 (atDrain true))).toOption.map Instr.dp = some true ∧
    (nextInstr (atDrain false) 0 (sheet0 (atDrain false))).toOption.map Instr.dp = some false ∧ parkAfter (.drainPointStop 0) (atDrain true) = some .stopped ∧
    parkAfter (.drainPointStop 0) (atDrain false) = some .running := by decide +kernel
theorem test_witness_waits_here : let s := (pressed true (one (fun sh => { sh with wait := .object 64 1000 0 })))
    classDPending s (sheet0 s) = true ∧ Sheet.waitsHere (sheet0 s) 0 = true ∧ parkAfter (.drainPointStop 0) s = some .stopped := by decide +kernel
theorem test_witness_forced : let s : State := { pressed true (one id) with ts := 100000 }
    (s.part 0).preempt = some ⟨true, 0⟩ ∧ 0 + 100000 ≤ s.ts ∧ s.partOf (sheet0 s) = 0 ∧ Sheet.parked (sheet0 s) = false ∧ (sheet0 s).skip = 0 ∧ (s.core 0).cmds = [] ∧
    parkAfter (.forcedStopDeadline 0) s = some .stopped := by decide +kernel

/-- A stopped context. -/
def stoppedContext : State := (pressed true (one id)).mapSheet 0 (fun sh => { sh with park := .stopped })
/-- A context that has stopped without sheets left. -/
def emptyContext : State := { stoppedContext with sheets := [] }
theorem test_witness_save : (∀ e ∈ ownSheets stoppedContext 0, e.2.park = .stopped ∧ quiet stoppedContext e.1 = true) ∧ emptyContext.sheets = [] ∧
    (∀ d < 4, ((ownWgs emptyContext 0).filter (fun e => dieOf e.2.core == d)).length ≤ 512 - (emptyContext.die d).redirects.length) ∧
    ((next (exec (.contextSave 0 false) stoppedContext)).part 0).image.getLast? = some .end_ ∧ (next (exec (.contextSave 0 false) stoppedContext)).sheets = [] ∧
    (next (exec (.contextSave 0 true) emptyContext)).wgs = [] ∧ ((next (exec (.contextSave 0 true) emptyContext)).die 0).redirects.length = 1 := by decide +kernel
/-- A context whose image names another key. -/
def foreign : State := (one id).mapPart 3 (fun p => { p with image := [.image 0 0 2 3 true 7 [], .end_] })
theorem test_witness_not_loadable : (foreign.part 3).image ≠ [] ∧ loadable foreign 3 (foreign.part 3).image = false ∧
    ((next (exec (.contextRestore 3) foreign)).part 3).driverReports = [0x100] := by decide +kernel
/-- A saved context of partition 0. -/
def savedContext : State := owned (next (exec (.contextSave 0 true) stoppedContext))
theorem test_witness_restore : (savedContext.part 0).image ≠ [] ∧ loadable savedContext 0 (savedContext.part 0).image = true ∧
    (restoreAll 0 (savedContext.part 0).image savedContext).isSome ∧ ((next (exec (.contextRestore 0) savedContext)).part 0).image = [] ∧
    parkAfter (.contextRestore 0) savedContext = some .running := by decide +kernel
/-- A saved context whose workgroup has stayed on its core. -/
def savedInPlace : State := next (exec (.contextSave 0 false) stoppedContext)
theorem test_restore_in_place : (savedInPlace.part 0).image ≠ [] ∧ loadable savedInPlace 0 (savedInPlace.part 0).image = true ∧
    ((savedInPlace.part 0).image.all (fun r => match r with
      | .workgroup _ _ => false
      | .graphPos _ _ _ _ _ _ _ _ => false
      | _ => true)) = true ∧
    parkAfter (.contextRestore 0) savedInPlace = some .running := by decide +kernel
theorem test_witness_kill : ((one id).grid? 0).map (fun g => (g.part, g.parent)) = some (0, none) ∧ (next (exec (.contextKill 0) (one id))).wgs = [] := by decide +kernel

/-- A table at level 3 and a leaf of a 4 KiB page for address 2^30 + 0x5000 in function 0's tables. -/
def tabled : State :=
  (((one id).writeBytes 0x11008 (leBytes 8 0x12001)).writeBytes 0x12000 (leBytes 8 0x13001)).writeBytes 0x13028 (leBytes 8 (0x77000 + 7))
theorem test_witness_walk : (∀ p ∈ [(0x10000, 1), (0x11000, 2), (0x12000, 3)], p.1 < 2 ^ 39 ∧ (tableEntry tabled p.1 (2 ^ 30 + 0x5000) p.2).getLsbD 0 = true ∧
      (tableEntry tabled p.1 (2 ^ 30 + 0x5000) p.2).getLsbD 7 = false ∧ entryResOk (tableEntry tabled p.1 (2 ^ 30 + 0x5000) p.2) p.2 false = true) ∧
    leafAddr (tableEntry tabled 0x12000 (2 ^ 30 + 0x5000) 3) = 0x13000 ∧ tableEntry tabled 0x13000 (2 ^ 30 + 0x5000) 4 = 0x77007 ∧ leafOk 0x77007 4 = true ∧
    (walk tabled 0 (2 ^ 30 + 0x5000)).toOption = some ⟨4, 0x77007, 0x77000⟩ := by decide +kernel
theorem test_witness_page_walk : lookup (tabled.core 9).tlb (tlbKey 0 0x5000) = none ∧ lookup (tabled.cluster 1).tlb (tlbKey 0 0x5000) = none ∧
    lookup (tabled.die 0).tlb (tlbKey 0 0x5000) = none ∧ (walk tabled 0 0x5000).toOption.isSome ∧
    (lookup ((next (exec (.pageWalk 9 0 5) tabled)).die 0).tlb (tlbKey 0 0x5000)).isSome ∧
    (let s := tabled.setCluster 1 { Cluster.reset with tlb := [(5, ⟨4, 7, 0x99000⟩)] }
     lookup (s.core 9).tlb (tlbKey 0 0x5000) = none ∧ lookup (s.cluster 1).tlb (tlbKey 0 0x5000) = some ⟨4, 7, 0x99000⟩ ∧
       lookup ((next (exec (.pageWalk 9 0 5) s)).core 9).tlb 5 = some ⟨4, 7, 0x99000⟩) := by decide +kernel
/-- A sheet parked for a page. -/
def missing : State := parked .translation .service (fun r => { r with info := 0x0B, faddr := 0x40005000 })
theorem test_witness_page_request : (sheet0 missing).park = .service ∧ (sheet0 missing).trap.map Trap.miss = some true ∧ Sys2Proof.Machine.requested missing (.sheet 0) = false ∧
    prqCount (missing.die 0).prq 0 false < 4 ∧ ((next (exec (.pageRequestEnqueue (.sheet 0)) missing)).die 0).prq.map (·.page) = [0x40005] := by decide +kernel
/-- A copy that misses: one element of four bytes from 0x40000000, which is not mapped. -/
def missingCopy : Cmd :=
  cmdOf (.dcopy hd ⟨.wg, false⟩) .cpy .started 0 [0x40000000, 0, 64, 0, 4, 2, 1, 1, 1, 1, 1, 1] [] []
theorem test_witness_copy_miss : Sys2Proof.Machine.requested (commanded 0 missingCopy) (.command 0 0) = false ∧ ((copyMiss (commanded 0 missingCopy) 0 0).map (·.1)) = some missingCopy ∧
    disposition (((disposing 0 (commanded 0 missingCopy))).part 0).fdisp .translation ≠ 1 ∧
    ((next (exec (.pageRequestEnqueue (.command 0 0)) (disposing 0 (commanded 0 missingCopy)))).cmd? 0 0).map (·.phase) = some .stopped := by decide +kernel
/-- A request queue with one entry, and group 9's semaphore held by port 0. -/
def asking (who : List Misser) (s : State) : State :=
  { s.setDie 0 { Die.reset with prq := [⟨0, 0, 0x40005, 1, who, false⟩] } with sems := [(9, 1)] }
theorem test_witness_answers : (∀ who ∈ [[], [Misser.user (.sheet 0)]], answered (asking who missing) 0 0 = some ⟨0, 0, 0x40005, 1, who, false⟩ ∧ getD (asking who missing).sems 0 9 = 0 + 1) ∧
    getD missing.sems 0 9 ≠ 0 + 1 ∧ parkAfter (.pageRequestMapped 0 0 0) (asking [.user (.sheet 0)] missing) = some .resume ∧
    parkAfter (.pageRequestRefused 0 0 0) (asking [.user (.sheet 0)] missing) = none ∧
    (next (exec (.pageRequestRefused 0 0 0) (asking [.launch (.host 0 0x2000)] missing))).refusedPages = [(.launch (.host 0 0x2000), 0, 0x40005)] ∧
    ((next (exec (.pageRequestRefused 0 0 0) (asking [.user (.command 0 0)] (commanded 0 missingCopy)))).cmd? 0 0).map (·.cause) = some .translation := by decide +kernel
theorem test_witness_invalidation : let s := asking [] (tabled.mapCore 5 (fun k => { k with tlb := [(5, ⟨4, 7, 0x99000⟩), (2 ^ 36 + 5, ⟨4, 7, 0x99000⟩)] }))
    (∀ e ∈ s.sheets, vfNamed (.ident 0) (s.vfOf e.2) = true → usesOld s e.1 e.2 = false) ∧
      ((next (exec (.translationInvalidation 0 (.ident 0)) s)).core 5).tlb = [(2 ^ 36 + 5, ⟨4, 7, 0x99000⟩)] := by decide +kernel

/-- Every semaphore held by port 1. -/
def holds (s : State) : State := { s with sems := (List.range 16).map (fun g => (g, 2)) }
/-- A partition's entry: valid, MEMW 2, RATE 4096, TIER 1, FLOOR 0, PRQCAP 64. -/
def entryWord : BitVec 256 := BitVec.ofNat 256 (1 + 2 ^ 8 * 2 + 2 ^ 16 * 4096 + 2 ^ 32 + 2 ^ 40 * 64)
theorem test_witness_partition : let s := holds State.reset
    getD s.sems 0 0 = 1 + 1 ∧ getD State.reset.sems 0 0 ≠ 1 + 1 ∧
    rateShared (s.setPart 39 (partSettled s (s.part 39) (partWritten (s.part 39) entryWord.toNat))) = false ∧
    floorSum (s.setPart 39 (partSettled s (s.part 39) (partWritten (s.part 39) entryWord.toNat))) ≤ s.enga ∧
    polRefused s (s.part 39) (partWritten (s.part 39) entryWord.toNat) = false ∧ ((next (exec (.partitionTableWrite 1 39 entryWord) s)).part 39).rate = 4096 ∧
    (next (exec (.partitionTableWrite 1 39 (entryWord + 2 ^ 16)) s)).reply = 1 ∧ (next (exec (.partitionTableWrite 1 39 (entryWord + 2 ^ 40)) s)).reply = 1 := by decide +kernel
theorem test_witness_core_assignment : mixedUnits (holds State.reset) 1535 0xFC7 = false ∧ mixedUnits (holds State.reset) 1535 0x8A07 = false ∧
    ((next (exec (.coreAssignmentWrite 1 1535 0xFC7) (holds State.reset))).core 1535).change = some 0xFC7 ∧
    (next (exec (.coreAssignmentWrite 1 1535 0xFE8) (holds State.reset))).reply = 1 ∧ (next (exec (.coreAssignmentWrite 1 1535 0x007) (holds State.reset))).reply = 1 ∧
    (let s := State.reset.mapCore 1535 (fun k => { k with change := some 0xFC7 })
     (∀ e ∈ s.wgs, e.2.core ≠ 1535) ∧ (s.core 1535).cmds = [] ∧ ((next (exec (.coreAssignmentEffect 1535) s)).core 1535).ownA = 7) := by decide +kernel
theorem test_witness_function_assignment : (∃ e ∈ (holds (one id)).grids, e.2.vf = 0) ∧ (∀ e ∈ (holds (one id)).grids, e.2.vf ≠ 1023) ∧
    (next (exec (.vfAssignmentWrite 1 0 3) (holds (one id)))).reply = 1 ∧ ((next (exec (.vfAssignmentWrite 1 1023 39) (holds (one id)))).vf 1023).part = some 39 ∧
    ((next (exec (.vfAssignmentWrite 1 1023 63) (holds (one id)))).vf 1023).part = none := by decide +kernel
/-- A group entry of one member at core 0, whose list at 0x3000 is a word of zeros. -/
def groupEntry : BitVec 512 := BitVec.ofNat 512 (2 ^ 240 + 2 ^ 242 + 2 ^ 244 + 2 ^ 256 + 2 ^ 448 * 0x3000)
theorem test_witness_group : ((holds (one id)).vf (bits groupEntry.toNat 288 10)).part = some 0 ∧
    (readVirtual (holds (one id)) (bits groupEntry.toNat 288 10) (bits groupEntry.toNat 448 64) (8 * bits groupEntry.toNat 244 12)).toOption = some (List.replicate 8 0) ∧
    groupBad (holds (one id)) ⟨groupEntry, [0]⟩ = false ∧ (next (exec (.reductionGroupWrite 1 0 63 groupEntry) (holds (one id)))).group 0 63 = some ⟨groupEntry, [0]⟩ ∧
    (next (exec (.reductionGroupWrite 1 5 63 groupEntry) (holds (one id)))).reply = 1 ∧ (next (exec (.reductionGroupWrite 1 0 63 0) (holds (one id)))).reply = 1 := by decide +kernel
theorem test_management_registers : ((next (exec (.managementRegisterWrite 1 (.fdisp 39) 0xFFFFFFFFFFFFFFFF) (holds State.reset))).part 39).fdisp = 0xFFFFFFFFFFFFC ∧
    ((next (exec (.managementRegisterWrite 1 (.troot 1023) (BitVec.allOnes 128)) (holds State.reset))).vf 1023).troot = 2 ^ 40 - 1 ∧
    (next (exec (.managementRegisterWrite 1 .enga 43008) (holds State.reset))).enga = 43008 ∧ (next (exec (.managementRegisterWrite 1 .enga 43009) (holds State.reset))).reply = 1 ∧
    (next (exec (.managementRegisterWrite 1 .enga 43008) State.reset)).reply = 1 := by decide +kernel

theorem test_memory_requests : let t := next (exec (.memoryRequestArrival 127 3 2 64) State.reset)
    (t.channel 127).waiting = [⟨3, 2, 64, 0, false, 1536⟩] ∧ getD (t.channel 127).finish 0 3 = 512 ∧ (t.channel 127).waiting ≠ [] ∧
      ((next (exec (.memoryRequestServe 127) t)).channel 127).waiting = [] := by decide +kernel
/-- A port of core 0 at which partition 5 waits for sectors, with three tokens. -/
def porting (n : Nat) (w : NetWho) (s : State) : State := s.mapCore 0 (fun k => { k with netQueue := [⟨5, n, w⟩], buckets := [(5, 3)] })
theorem test_network_grant : let s := porting 9 (.fetch 7) State.reset
    (s.core 0).netAt ≠ s.cycle 0 + 1 ∧ ((next (exec (.networkSectorGrant 0) s)).core 0).netQueue = [⟨5, 6, .fetch 7⟩] ∧
    getD ((next (exec (.networkSectorGrant 0) s)).core 0).buckets 0 5 = 0 ∧
    next (exec (.networkSectorGrant 0) (next (exec (.networkSectorGrant 0) s))) = next (exec (.networkSectorGrant 0) s) ∧
    ((sheet0 (next (exec (.networkSectorGrant 0) (porting 2 (.access 0 0) (queued { oldLoad with paid := 0 }))))).queue.map (·.paid)) = [2] ∧
    ((next (exec (.networkSectorGrant 0) (porting 1 (.command 0 0) (commanded 0 consumed)))).cmd? 0 0).map (·.paid) = some 1 ∧
    (let u := State.reset.mapCore 0 (fun k => { k with netQueue := [⟨5, 4, .fetch 7⟩, ⟨6, 4, .fetch 9⟩], buckets := [(5, 3), (6, 9)] })
     ((next (exec (.networkSectorGrant 0) u)).core 0).netQueue = [⟨5, 2, .fetch 7⟩, ⟨6, 2, .fetch 9⟩] ∧
       ((next (exec (.networkSectorGrant 0) u)).core 0).buckets = [(5, 1), (6, 7)]) ∧
    (let u := (porting 3 (.fetch 0) (one (fun sh => { sh with fetch := some (0x40, 4) })))
     (sheet0 (next (exec (.networkSectorGrant 0) u))).fetch = some (0x40, 1)) := by decide +kernel
theorem test_refill : let s := { (State.reset.mapCore 0 (fun k => { k with ownA := 5, netQueue := [⟨5, 9, .fetch 7⟩], buckets := [(5, 3)], pool := 10, refillAt := 0 })).mapPart 5 (fun p => { p with rate := 100 }) with ts := 0 }
    (s.core 0).refillAt ≤ s.cycle 0 ∧ getD ((next (exec (.refillPeriodEnd 0) s)).core 0).buckets 0 5 = 113 := by decide +kernel
theorem test_witness_power_limit : let s := (State.reset.mapCore 0 (fun k => { k with ownA := 5 }))
    firstToAct s (fun cl => (clusterOwners s cl).any (fun p => (activeLease s p).isSome)) = [] ∧ firstToAct s (fun cl => decide (4 < (s.cluster cl).droopCap)) = [0] ∧
    ((next (exec (.powerLimitMeasures true) s)).cluster 0).droopCap = 7 ∧
    (let u := s.setCluster 0 { s.cluster 0 with droopCap := 4 }
     firstToAct u (fun cl => decide (4 < (u.cluster cl).droopCap)) = [] ∧ ((next (exec (.powerLimitMeasures true) u)).cluster 0).target = (s.cluster 0).target - 20) ∧
    (let l := s.mapPart 5 (fun p => { p with lease := some ⟨960, 1000, false⟩ })
     firstToAct l (fun cl => (clusterOwners l cl).any (fun p => (activeLease l p).isSome)) = [0] ∧ ((next (exec (.powerLimitMeasures true) l)).part 5).lease = some ⟨960, 1000, true⟩) := by decide +kernel
theorem test_witness_budget : ({ State.reset with ts := 1000000 } : State).budgetNext ≤ 1000000 ∧ State.reset.ts < State.reset.budgetNext := by decide +kernel
theorem test_pair_balance : ((next (exec (.pairBalance 95 91 100) State.reset)).cluster 191).defer = true ∧ ((next (exec (.pairBalance 95 91 100) State.reset)).cluster 190).ballast = true ∧
    (let s := next (exec (.pairBalance 95 91 100) State.reset)
     ((next (exec (.pairBalance 95 95 100) s)).cluster 191).defer = false ∧ ((next (exec (.pairBalance 95 94 100) s)).cluster 191).defer = true) := by decide +kernel

theorem test_leases : (next (exec (.boostLeaseRequest 1 5 950 1000) (holds State.reset))).reply = 1 ∧ (next (exec (.boostLeaseRequest 1 5 960 999) (holds State.reset))).reply = 1 ∧
    getD (holds State.reset).sems 0 6 = 1 + 1 ∧
    (let s := State.reset.mapPart 39 (fun p => { p with lease := some ⟨1120, 0, false⟩ })
     (s.part 39).lease = some ⟨1120, 0, false⟩ ∧ ((next (exec (.leaseExpiry 39) s)).part 39).lease = none) ∧
    (let s := State.reset.mapPart 39 (fun p => { p with lease := some ⟨1120, 5, true⟩ })
     (s.part 39).lease = some ⟨1120, 5, true⟩ ∧ (s.part 39).image = []) := by decide +kernel
/-- Core 1535 owned by partition 39, with a rail. -/
def railed (r : Rail) : State := (State.reset.mapCore 1535 (fun k => { k with ownA := 39 })).setRail 23 r
/-- The same where partition 39 holds a lease. -/
def leased (mhz : Nat) : State := (railed Rail.reset).mapPart 39 (fun p => { p with lease := some ⟨mhz, 1000, false⟩ })
/-- A fall from 720 mV under way, core 1535 not confirmed, its cluster at a clock. -/
def falling (mhz : Nat) : State :=
  ((railed { Rail.reset with mv := 720, fallTo := some 650 }).mapCore 1535 (fun k => { k with confirmed := false })).setCluster 191 { Cluster.reset with mhz := mhz, target := mhz }
theorem test_rails : 39 ∈ railOwners (railed Rail.reset) 23 ∧ 39 ∉ railOwners State.reset 23 ∧
    ((next (exec (.voltageVote 23 39 720) (leased 1040))).rail 23).rising = some 720 ∧
    ((next (exec (.voltageVote 23 39 680) (leased 1020))).rail 23).rising = some 680 ∧ next (exec (.voltageVote 23 39 680) (leased 1040)) = leased 1040 ∧ next (exec (.voltageVote 23 39 720) State.reset) = State.reset ∧
    next (exec (.voltageVote 23 39 680) (railed Rail.reset)) = railed Rail.reset ∧
    ((next (exec (.railFall 23) (railed { Rail.reset with mv := 720, fallTo := some 650, fallAt := some 0 }))).rail 23).mv = 650 ∧
    ((next (exec (.railSettled 23) (railed { Rail.reset with rising := some 680 }))).rail 23).mv = 680 := by decide +kernel
theorem test_clock_steps : fallTarget (falling 980) 191 650 = 940 ∧ ((next (exec (.clockStepConfirm 1535) (falling 980))).cluster 191).mhz = 960 ∧
    ((next (exec (.clockStepConfirm 1535) (falling 980))).cluster 191).stepAt = 250 ∧
    next (exec (.clockStepConfirm 1535) (next (exec (.clockStepConfirm 1535) (falling 980)))) = next (exec (.clockStepConfirm 1535) (falling 980)) ∧
    ((next (exec (.clockStepConfirm 1535) (falling 940))).core 1535).confirmed = true ∧
    ((next (exec (.clockStepConfirm 1535) (falling 940))).rail 23).fallAt = some 50000 ∧
    exec (.clockStepConfirm 1534) (falling 940) = .next (falling 940) := by
  refine ⟨by decide +kernel, by decide +kernel, by decide +kernel, by decide +kernel, by decide +kernel, by decide +kernel, rfl⟩

/-- Counters of partition 0 with a value. -/
def counted (n v : Nat) (s : State) : State := s.mapPart 0 (fun p => { p with counters := [(n, v)] })
theorem test_witness_counter_tenant : ReadsCounter (counted 63 (2 ^ 40 + 5) (one id)) (.tenant 0) 0 63 (2 ^ 40 + 5) ∧
    (next (exec (.counterRead (.tenant 0) 0 63) (counted 63 (2 ^ 40 + 5) (one id)))).reply = 2 ^ 40 + 5 ∧
    (next (exec (.counterLowRead (.tenant 0) 0 63) (counted 63 (2 ^ 40 + 5) (one id)))).reply = 5 := by
  unfold ReadsCounter; decide +kernel
theorem test_witness_counter_operator : ReadsCounter (counted 63 77 (one id)) .operator 0 63 77 :=
  ⟨0, 0, by decide, by unfold OperatorReads; decide +kernel⟩
/-- A policy whose counter 0 is disclosed by windows of 3 ms. -/
def windowed : State :=
  { (counted 0 77 (one id)).mapPart 0 (fun p => { p with polid := 7 }) with
    policies := [(7, { Policy.openPolicy with counters := [2 * 2 ^ 14 + 3] })], ts := 3000000 }
theorem test_witness_window : ((policyOf windowed 0).counters.getD 0 0) = 2 * 2 ^ 14 + 3 ∧ windowed.ts % 1000000 = 0 ∧
    counterAt ((next (exec (.counterWindowEnd 0 0) windowed)).part 0) 3 0 = 77 := by decide +kernel
theorem test_pcsel : (∃ u ∈ Sys2Proof.Machine.unitsOf (owned (one id)) 0, pcselCovers 0xFFFFFFFF80000001 u.core = true) ∧
    getD ((next (exec (.pcselWrite 0 16 0x8C000001) (owned (one id)))).part 0).pcsel 0 16 = 0x8C000001 ∧
    getD ((next (exec (.pcselWrite 0 16 0x8C008001) (owned (one id)))).part 0).pcsel 0 16 = 0x0C008001 ∧
    getD ((next (exec (.pcselWrite 0 63 0x8000001D) (owned (one id)))).part 0).pcsel 0 63 = 0x0000001D := by decide +kernel
theorem test_rings : (getD ((next (exec (.ringDescriptorWrite 1 39 ⟨true, false⟩ ⟨0x40000, 16, true, 0, 0⟩) (holds State.reset))).part 39).rings Ring.reset (ringKey ⟨true, false⟩)) =
      ⟨⟨0x40000, 16, true, 0, 0⟩, false⟩ ∧ (0x40000 % recSize ⟨true, false⟩ = 0) ∧
    (next (exec (.ringDescriptorWrite 1 39 ⟨false, true⟩ ⟨2 ^ 39 - 32, 16, true, 0, 0⟩) (holds State.reset))).reply = 1 ∧
    (getD ((next (exec (.ringReadAdvance 0 ⟨true, false⟩ 0) sampling)).part 0).rings Ring.reset (ringKey ⟨true, false⟩)).desc.rd = 3 := by decide +kernel
/-- A policy of the right size and layout; whether its signature verifies is not the model's to say. -/
def policyBytes : List Byte := leBytes 8 (0x5044 + 2 ^ 16) ++ (List.replicate 160 0) ++ (List.replicate 332 0) ++ (List.replicate 268 0)
theorem test_policies : policyOk [] = false ∧ getD (holds State.reset).sems 0 5 = 1 + 1 ∧ (next (exec (.policySubmit 1 []) (holds State.reset))).reply = 1 ∧
    policyBytes.length = 768 := by
  refine ⟨?_, by decide +kernel, ?_, by decide +kernel⟩
  · simp [policyOk]
  · simp only [exec, execPolicySubmit]; rfl
theorem test_launch_errors : let s := (one id).setVf 1023 { Vf.reset with lerrCount := 3, lerrCode := 2, irqst := 3 }
    (next (exec (.lerrRead 1023) s)).reply = 3 * 2 ^ 32 + 2 ∧ ((next (exec (.lerrRead 1023) s)).vf 1023).lerrCount = 0 ∧
    ((next (exec (.irqstWrite 1023 0xFFFFFFFFFFFFFFFE) s)).vf 1023).irqst = 1 := by decide +kernel

theorem test_semaphores : getD (next (exec (.semaphoreRead 1 15 false) State.reset)).sems 0 15 = 2 ∧ (next (exec (.semaphoreRead 1 15 true) State.reset)).reply = 1 ∧
    getD (holds State.reset).sems 0 15 = 1 + 1 ∧ getD (next (exec (.semaphoreRelease 1 15) (holds State.reset))).sems 0 15 = 0 ∧
    next (exec (.semaphoreRelease 0 15) (holds State.reset)) = holds State.reset ∧ getD (next (exec (.portLinkDown 1) (holds State.reset))).sems 0 3 = 0 ∧
    getD (next (exec (.linkTraining 1 0x7F) State.reset)).hpcap 0 1 = 0x7F := by decide +kernel
theorem test_host_accesses : (next (exec (.hostPostedWrite 0 (2 ^ 39 - 2) [1, 2]) homeState)).readNat (2 ^ 39 - 2) 2 = 0x201 ∧
    lookup ((next (exec (.hostPostedWrite 0 0x2000 [1, 2]) homeState)).core 7).l1 0x800 = none ∧
    (next (exec (.hostRead 1 (.memory 0x11000) 1) (one id))).reply = 0x87 ∧
    (next (exec (.hostRead 1 (.register (.wdlim 39)) 8) State.reset)).reply = 2 ^ 32 ∧ (next (exec (.hostRead 0 (.core 1535) 2) State.reset)).reply = 0xFFF ∧
    (next (exec (.peerDeviceRequest (.acas2 0x11000 5 0x87)) (one id))).readNat 0x11000 16 = 5 ∧
    (next (exec (.peerDeviceRequest (.atomic .add false 0x11000 5 0)) (one id))).readNat 0x11000 1 = 0x8C ∧
    (next (exec (.hostStoreToCoherentMapping 1 (2 ^ 49) [7]) State.reset)).readNat (2 ^ 49) 1 = 7 := by decide +kernel
/-- A sheet with an access to device 3's memory, which link 11 reaches. -/
def withRoutes (s : State) : State := { s with routes := [(3, 11), (4, 10)] }
def peerAccess : State := withRoutes (queued { oldLoad with pieces := [(2 ^ 50 + 3 * 2 ^ 39 + 64, 4)], mt := 2 })
/-- A DCOPY whose bytes are on their way to device 3. -/
def peerWrite : Cmd := { cmdOf (.dcopy hd ⟨.sys, false⟩) .cpy .consumed 0 [] [] [] with outs := [.glob (2 ^ 50 + 3 * 2 ^ 39) [1]] }
theorem test_link_failure : lookup peerAccess.routes ((2 ^ 50 + 3 * 2 ^ 39 + 64 - 2 ^ 50) / 2 ^ 39) = some 11 ∧ (keys peerAccess.routes).Nodup ∧
    (peerAccess.wg? 0).isSome ∧ peerAccess.sheets = [(0, sheet0 peerAccess)] ∧ (∀ e ∈ peerAccess.cores, e.2.cmds = []) ∧
    (next (exec (.linkFailure 11 (some 9)) peerAccess)).linksDown = [11] ∧ (next (exec (.linkFailure 11 (some 9)) peerAccess)).routes = [(3, 9), (4, 10)] ∧
    ((next (exec (.linkFailure 11 (some 9)) peerAccess)).sheet? 0).isSome = true ∧
    ((next (exec (.linkFailure 11 none) peerAccess)).sheet? 0) = none ∧ (next (exec (.linkFailure 11 none) peerAccess)).routes = [(4, 10)] ∧
    (cutOff (rerouted (withRoutes (commanded 0 peerWrite)) 11 none) 0 peerWrite).map (·.cause) = some .engineError ∧
    (withRoutes (commanded 0 peerWrite)).cores.map (fun e => (e.1, e.2.cmds)) = [(0, [(0, peerWrite)])] := by
  decide +kernel
theorem test_contribution : let s := { rounded 0 roundOne with rounds := [] }
    s.group 0 3 = some groupFull ∧ Group.valid groupFull = true ∧ 0 < Group.nmem groupFull ∧ getRound s 0 3 9 = none ∧
      (next (exec (.peerDeviceRequest (.contribution 0 3 9 0 (List.replicate 512 1))) s)).rounds.length = 1 := by decide +kernel

/-- A pre-copy descriptor: GO, partition 39, MAXR 2, THRESH 0, PORTS 1, SID 7. -/
def goWord : BitVec 256 := BitVec.ofNat 256 (1 + 2 ^ 96 * 39 + 2 ^ 120 * 2 + 2 ^ 152 + 2 ^ 160 * 7)
/-- Partition 39 tracks two pages from page 0x50 on, in a bitmap at 0x60000 whose bit 1 is set. -/
def tracking (st rnd : Nat) : State :=
  ((holds State.reset).mapPart 39 (fun p => { p with dirty := BitVec.ofNat 128 (1 + 2 ^ 12 * 0x60 + 2 ^ 52 * 0x50 + 2 ^ 96 * 2),
                                                     precopy := { Precopy.reset with word := goWord, state := st, round := rnd } })).writeBytes 0x60000 [2]
theorem test_precopy_go : bits goWord.toNat 96 6 = 39 ∧ goWord.getLsbD 0 = true ∧ bits goWord.toNat 160 32 ≠ 0 ∧ bits goWord.toNat 152 4 ≠ 0 ∧ bits goWord.toNat 120 8 ≠ 0 ∧
    ((tracking 0 0).part 39).dirty.getLsbD 0 = true ∧ ((next (exec (.precopyGo 1 goWord) (tracking 0 0))).part 39).precopy.state = 1 ∧
    (next (exec (.precopyGo 1 (goWord - 2 ^ 152)) (tracking 0 0))).reply = 1 ∧
    ((next (exec (.precopyGo 1 (goWord + 2 ^ 128)) (tracking 2 0))).part 39).precopy.state = 2 ∧
    ((next (exec (.precopyGo 1 (goWord + 2 ^ 128)) (tracking 2 0))).part 39).precopy.word = goWord - 1 + 2 ^ 128 := by decide +kernel
/-- A sealed message names its page and sequence number. -/
theorem sealed_fields (k : BitVec 256) (sid page seq : Nat) (d : List Byte) (h0 : sid < 2 ^ 32) (h1 : page < 2 ^ 64) (h2 : seq < 2 ^ 64) :
    msgSid (sealMsg k sid page seq d) = sid ∧ msgPage (sealMsg k sid page seq d) = page ∧ msgSeq (sealMsg k sid page seq d) = seq := by
  simp only [msgSid, msgPage, msgSeq, sealMsg, bits, BitVec.toNat_ofNat]
  omega
theorem test_precopy_rounds : ((tracking 1 0).part 39).precopy.state = 1 ∧ (tracked ((tracking 1 0).part 39)) = [0, 1] ∧
    dirtyPages (tracking 1 1) ((tracking 1 1).part 39) = [1] ∧
    (clearBitmap (tracking 1 1) ((tracking 1 1).part 39)).readNat 0x60000 1 = 0 := by decide +kernel
/-- A message of the session 7 whose tag verifies or does not. -/
def message (seq page : Nat) (bs : List Byte) (k : BitVec 128) : PageMsg :=
  let h : BitVec 192 := BitVec.ofNat 192 (7 + page * 2 ^ 64 + seq * 2 ^ 128)
  ⟨h, bs, Crypto.gcmTag 0 (nonceOf 7 seq) (leBytes 24 h.toNat) bs + k⟩
theorem message_nonce (seq page : Nat) (bs : List Byte) (k : BitVec 128) (hs : seq < 2 ^ 64) (hp : page < 2 ^ 64) :
    msgSid (message seq page bs k) = 7 ∧ msgPage (message seq page bs k) = page ∧ msgSeq (message seq page bs k) = seq := by
  simp only [msgSid, msgPage, msgSeq, message, bits, BitVec.toNat_ofNat]
  omega
theorem message_opens (seq page : Nat) (bs : List Byte) (hs : seq < 2 ^ 64) (hp : page < 2 ^ 64) :
    openMsg 0 (message seq page bs 0) = some (Crypto.gcmCrypt 0 (nonceOf 7 seq) bs) := by
  obtain ⟨h1, -, h3⟩ := message_nonce seq page bs 0 hs hp
  unfold openMsg
  rw [h1, h3]
  exact if_pos (BitVec.add_zero _).symm
theorem message_fails (seq page : Nat) (bs : List Byte) (hs : seq < 2 ^ 64) (hp : page < 2 ^ 64) : openMsg 0 (message seq page bs 1) = none := by
  obtain ⟨h1, -, h3⟩ := message_nonce seq page bs 1 hs hp
  unfold openMsg
  rw [h1, h3]
  refine if_neg (fun h => ?_)
  have := congrArg (· - Crypto.gcmTag 0 (nonceOf 7 seq) (leBytes 24 (message seq page bs 1).header.toNat) bs) h
  simp [message] at this
theorem test_witness_final : let s := (tracking 2 0).mapPart 39 (fun p => { p with image := [.image 0 0 2 39 true 0 [], .end_] })
    (s.part 39).precopy.state = 2 ∧ (s.part 39).image ≠ [] ∧ Untracked { s with parts := [] } := by unfold Untracked; decide +kernel

/-- The runner before any other thing can happen, an ADD alone at its pc. -/
def fetching : State := State.reset.withFetchWord 39 ((Instr.add .ala hd ⟨false, false⟩).move.getD Move.empty).word
/-- Its bundle. -/
def fetchedAdd : Instr := .bundleIssue (oneMove ((Instr.add .ala hd ⟨false, false⟩).move.getD Move.empty))
/-- The instruction that a step would issue. -/
def issued? : Next → Option Instr
  | .issue i => some i
  | _ => none
theorem issue_of {n : Next} {i : Instr} (h : issued? n = some i) : n = .issue i := by
  cases n <;> cases h; rfl
theorem fetching_ready : readyBundle fetching (0, runnerSheet) = some (.issue fetchedAdd) := by
  have h : (readyBundle fetching (0, runnerSheet)).map issued? = some (some fetchedAdd) := by decide +kernel
  cases hr : readyBundle fetching (0, runnerSheet) with
  | none => simp [hr] at h
  | some e => rw [hr] at h; exact congrArg some (issue_of (Option.some.inj h))
theorem fetching_picks : picks fetching = [(0, .issue fetchedAdd)] := by
  have h : (picks fetching).map (fun e => (e.1, issued? e.2)) = [(0, some fetchedAdd)] := by decide +kernel
  cases hp : picks fetching with
  | nil => rw [hp] at h; cases h
  | cons e r =>
    rw [hp] at h
    simp only [List.map_cons, List.cons.injEq, Prod.mk.injEq, List.map_eq_nil_iff] at h
    rw [h.2]
    exact congrArg (· :: []) (Prod.ext h.1.1 (issue_of h.1.2))
theorem test_witness_fetch : ∃ sh i, fetching.sheet? 0 = some sh ∧ fetching.sheets = [(0, sh)] ∧ Fetches fetching 0 sh i ∧ fetching.agenda = [] ∧ (0, .issue i) ∈ picks fetching := by
  refine ⟨runnerSheet, fetchedAdd, by decide +kernel, by decide +kernel, ⟨by decide +kernel, ?_⟩, by decide +kernel, by simp [fetching_picks]⟩
  exact ⟨_, ok_of_toOption (a := leBytes 16 (Bundle.word (oneMove ((Instr.add .ala hd ⟨false, false⟩).move.getD Move.empty)))) (by decide +kernel), by decide +kernel,
    Or.inl ⟨by decide +kernel, ok_of_toOption (by decide +kernel)⟩⟩
theorem test_witness_ready : getD (fetching.core (coreOf 0)).busy 0 (fetching.colOf 0) ≤ fetching.cycle (coreOf 0) ∧ readyBundle fetching (0, runnerSheet) = some (.issue fetchedAdd) ∧
    picks fetching = [(0, .issue fetchedAdd)] ∧ (dueSteps fetching).length = 0 ∧ (openSteps fetching).length = 0 :=
  ⟨by decide +kernel, fetching_ready, fetching_picks, by decide +kernel, by decide +kernel⟩

/-! ## Whole-machine statements -/

theorem test_witness_keeps : (Instr.add .ala hd ⟨false, false⟩).move.isSome ∧ (sheet0 (one id)).armed = false ∧ exec (.add .ala hd ⟨false, false⟩) (one id) = .next (next (exec (.add .ala hd ⟨false, false⟩) (one id))) ∧
    Triggers (.add .ala hd ⟨false, false⟩) .ala := by
  refine ⟨by decide, by decide +kernel, ?_, ⟨_, rfl, by decide +kernel⟩⟩
  have h : (match exec (.add .ala hd ⟨false, false⟩) (one id) with | .next _ => true | _ => false) = true := by decide +kernel
  cases hx : exec (.add .ala hd ⟨false, false⟩) (one id) with
  | next t => rfl
  | fault f => rw [hx] at h; cases h
  | refused r => rw [hx] at h; cases h
theorem test_witness_one_operation : ∃ m, (Instr.fadd .fpb hd ⟨.f64, .rup⟩).move = some m ∧ decodeMove m = .ok (.fadd .fpb hd ⟨.f64, .rup⟩) := ⟨_, rfl, rfl⟩
theorem test_witness_memory_form : Sys2Proof.Machine.Memory.wf fetching.mem ∧ (match step fetching with | .next t => t.ts != 0 || t.sheets != [] | _ => false) = true := by
  constructor <;> decide +kernel
theorem test_witness_round_trip : (Instr.cvtn hd ⟨.e4m3, true⟩).wf = true ∧ (Instr.cvtn hd ⟨.e4m3, true⟩).move.isSome ∧
    (Instr.bundleIssue ⟨.wideLimm 5 7, 15, true, false, List.replicate 5 Move.empty⟩).wf = true := by decide +kernel
/-- The runner with an empty instruction cache. -/
def cold : State := fetching.mapCore 0 (fun k => { k with icache := [] })
/-- A fetch asks for two sectors of its line and then puts it in the instruction cache of its core (R19, R275); one whose bytes memory
still holds is found, and its half's scrub drops it (R196). -/
theorem test_fetch_fills : missingLines cold 0 runnerSheet = [0x40] ∧ (sheet0 (fetchAsk cold 0 runnerSheet)).fetch = some (0x1000, 2) ∧
    ((fetchDone cold 0 runnerSheet).core 0).icache.map (fun x => (x.line, x.half, x.bytes)) = [(0x40, 0, cold.readBytes 0x1000 64)] ∧
    (icFind (fetchDone cold 0 runnerSheet) 0 0 0x40).isSome = true ∧ (icFind (fetchDone cold 0 runnerSheet) 0 1 0x40).isNone = true ∧
    ((scrubbed (fetchDone cold 0 runnerSheet) 0 0).core 0).icache = [] := by
  decide +kernel
/-- A set holds 4 lines: a fifth replaces one. -/
theorem test_cache_set : (((List.range 5).foldl (fun s k => icFill 1 s 0 0 (128 * k)) State.reset).core 0).icache.map (·.line) = [512, 384, 128, 0] := by
  decide +kernel
/-- An instruction runs as the first step after reset. -/
theorem test_first_step : (match step fetching with | .next t => (sheet0 t).pc == 0x1010 | _ => false) = true := by decide +kernel

/-! ## Translations of portable objects (R105 to R111, R346 to R350) -/

/-- An operation of a portable bundle (R105): unit, OPC, destination, OPA to OPC operands, UNI; without a guard. -/
def kop (u opc dst a b c uni : Nat) : Nat :=
  u * 2 ^ 60 + opc * 2 ^ 53 + dst * 2 ^ 32 + a * 2 ^ 22 + b * 2 ^ 12 + c * 2 ^ 2 + uni * 2
/-- The operand code of the constant 0, the empty operation, and EXIT. -/
def zc : Nat := 0xF9
def nopOp : Nat := 0xF020000000000000
def exitOp : Nat := kop 9 0x0B 0x3FF zc zc zc 1
/-- A header (R109): FORM, CODESZ, REGS, latencies; width 32, the entry, the table and the patterns at 256. -/
def headerOf (form codesz regs lat : Nat) : List Byte :=
  leBytes 256 (0x584C4F4B + 0x100 * 2 ^ 32 + form * 2 ^ 48 + 256 * 2 ^ 64 + codesz * 2 ^ 96 + regs * 2 ^ 136 + 32 * 2 ^ 144 + lat * 2 ^ 208 +
    250 * 2 ^ 320 + 256 * 2 ^ 256)
def portableOf (ops : List Nat) : List Byte := headerOf 1 (8 * ops.length) 16 0 ++ ops.flatMap (leBytes 8)
def nativeOf (code : List Byte) : List Byte := headerOf 0 code.length 16 0x4C8C6311 ++ code
/-- A native move without a guard, and bundles of them. -/
def mv (dst src opc mod : Nat) (uni : Bool) : Move := ⟨0, 0, BitVec.ofNat 10 dst, BitVec.ofNat 10 src, BitVec.ofNat 7 opc, BitVec.ofNat 5 mod, uni⟩
def wideOf (stall : Nat) (l : List Move) : List Byte :=
  leBytes 32 (Bundle.word ⟨.wide, BitVec.ofNat 4 stall, false, false, l ++ List.replicate (6 - l.length) Move.empty⟩)
def narrowOf (stall : Nat) (l : List Move) : List Byte :=
  leBytes 16 (Bundle.word ⟨.narrow, BitVec.ofNat 4 stall, false, false, l ++ List.replicate (3 - l.length) Move.empty⟩)
/-- The operand moves and the trigger of FPA (column 3) and of BRU (column 9); EXIT, and FPA's result to v9. -/
def exitMoves : List Move := [mv 0x190 zc 0 0 true, mv 0x191 zc 0 0 true, mv 0x19F zc 0x0B 0 true]
def ffmaMoves : List Move := [mv 0x130 3 0 0 false, mv 0x131 4 0 0 false, mv 0x13F 5 4 0 false]
/-- The example of R348, v9 = v3 × v4 + v5, then EXIT; and a translation whose result move comes after `stall` cycles. -/
def portableFfma : List Byte := portableOf [0x3080000900C04014, nopOp, nopOp, nopOp, exitOp, nopOp, nopOp, nopOp]
def nativeFfma (stall : Nat) : Translation :=
  ⟨nativeOf (wideOf stall ffmaMoves ++ wideOf 0 [mv 9 0xE4 0 0 false] ++ wideOf 0 exitMoves), [256, 320, 352], 0⟩
/-- The same in narrow bundles, with the added register's room (R350). -/
def narrowFfma : Translation :=
  ⟨nativeOf (narrowOf 5 ffmaMoves ++ narrowOf 0 [mv 9 0xE4 0 0 false] ++ narrowOf 0 exitMoves), [256, 288, 304], 16⟩
theorem test_translations : translates false portableFfma (nativeFfma 5) = true ∧ translates false portableFfma (nativeFfma 4) = false ∧
    translates true portableFfma (nativeFfma 5) = false ∧ translates true portableFfma narrowFfma = true := by decide +kernel
/-- LIMM 288 and a branch to it: the constant is the target's place in the native code (R349). -/
def portableBranch : List Byte := portableOf [0xF * 2 ^ 60 + 2 * 2 ^ 53 + 288, kop 9 1 0x3FF zc zc 0xFE 1, nopOp, nopOp, exitOp, nopOp, nopOp, nopOp]
def nativeBranch (target : Nat) : Translation :=
  ⟨nativeOf (leBytes 32 (Bundle.word ⟨.wideLimm 0 (BitVec.ofNat 32 target), 0, false, false,
    [mv 0x190 zc 0 0 true, mv 0x191 zc 0 0 true, mv 0x19F 0xFE 1 0 true, Move.empty, Move.empty]⟩) ++ wideOf 0 exitMoves), [256, 288, 320], 0⟩
theorem test_translated_branch : translates false portableBranch (nativeBranch 288) = true ∧ translates false portableBranch (nativeBranch 256) = false := by
  decide +kernel

/-! ## Further witnesses -/

/-- A die whose queue has no entry left for partition 0. -/
def crowded (cap : Nat) : State := (missing.setDie 0 { Die.reset with prq := (List.range 4).map (fun k => ⟨0, 0, k, 1, [], false⟩) }).mapPart 0 (fun p => { p with prqcap := cap })
theorem test_witness_no_room : ¬ HasRoom (crowded 0) 0 0 0 0x40005 (.user (.sheet 0)) ∧ HasRoom (crowded 1) 0 0 0 0x40005 (.user (.sheet 0)) ∧
    ((next (exec (.pageRequestEnqueue (.sheet 0)) (crowded 0))).die 0).waiting = [(0, .user (.sheet 0))] ∧
    ((next (exec (.pageRequestEnqueue (.sheet 0)) (crowded 1))).die 0).prq.length = 5 := by
  unfold HasRoom; decide +kernel
theorem test_descriptor_fields : ((next (exec (.precopyGo 1 (goWord - 1 + 2 ^ 50)) (tracking 0 0))).part 39).precopy.state = 0 ∧
    ((next (exec (.precopyGo 1 (goWord + 2 ^ 50)) (tracking 0 0))).part 39).precopy.word = goWord - 1 ∧
    next (exec (.managementRegisterWrite 1 .firmware 5) (holds State.reset)) = { holds State.reset with reply := 0 } ∧
    groupWritten (groupEntry ||| 5) = groupEntry := by decide +kernel
/-- A second write of the descriptor keeps its session where it names the same SID, and only there (R362). -/
theorem test_descriptor_session : let s := (tracking 0 0).mapPart 39 (fun p => { p with precopy := { p.precopy with word := goWord - 1, seq := 7 } })
    ((next (exec (.precopyGo 1 (goWord - 1)) s)).part 39).precopy.seq = 7 ∧
    ((next (exec (.precopyGo 1 (goWord - 1 + 2 ^ 160)) s)).part 39).precopy.seq = 0 := by decide +kernel
/-- A stop as the policy 5 reports it (R344): FADDR and the time stamp cut, no slot blocks. -/
def detailed (fdet : Nat) : State := { (parked .softwareTrap .raised (fun r => { r with ts := 0x107, faddr := 0x5678 })).mapPart 0 (fun p => { p with polid := 5 }) with
  policies := [(5, { Policy.openPolicy with fdet := fdet, tsres := 4 })] }
theorem test_operator_record : let f := fun n => (next (exec (.faultHandling 0) (detailed n))).reply
    (List.range 3).map (fun n => (bits (f n) 448 64, bits (f n) 256 64, decide (2 ^ 512 ≤ f n))) =
      [(0, 0x100, false), (0x5000, 0x100, false), (0x5678, 0x100, true)] := by decide +kernel

/-- The runner with CSRRD of MARKCFG to issue, the interlock trace armed (R337). -/
def armedSheet : State := one (fun sh => { sh with limm := 0x021, armed := true, markLog := true })
theorem test_witness_armed : ∃ m, (Instr.csrrd hd).move = some m ∧ CanIssueArmed armedSheet (sheet0 armedSheet) m .sys ∧ armedSheet.homeq = [] ∧
    0 < (sheet0 armedSheet).passes ∧ opRuns armedSheet (sheet0 armedSheet) m ∧ (opCtx armedSheet (sheet0 armedSheet) m .sys).tv = 0x021 :=
  ⟨_, rfl, ⟨by decide +kernel, by decide +kernel, canIssue_of (by decide +kernel)⟩, by decide +kernel, by decide +kernel, by unfold opRuns; decide +kernel, by decide +kernel⟩
theorem test_csrrd_armed : (sheet0 (next (exec (.csrrd hd) armedSheet))).getQ .sys 0 0 = 7 := by decide +kernel

/-- Cause, INFO, FADDR and FMASK of the stop that an operation makes. -/
def stopOf (i : Instr) (s : State) : Option (Cause × Nat × W64 × Nat) :=
  (sheet0 (next (exec i s))).trap.map (fun r => (r.cause, r.info, r.faddr, r.fmask.toNat))
/-- An operation that can issue and whose lowest thread, 0, is to stop. -/
def StopsFirst (i : Instr) (u : FUnit) (s : State) (p : LaneIn → Bool) : Prop :=
  Meets i u s (fun s sh m => 0 ∈ opThreads s sh m u ∧ p (opIn s sh m u 0) = true)
/-- A load of 4 bytes that is not aligned, above 2^48, in a page that is not mapped, and beyond A and W; a peer's rank that there is none of. -/
theorem test_witness_access_stops :
    StopsFirst (.ld .lsa hd ⟨false, .s, .g⟩) .lsa (given .lsa 0x2000 0 2) (fun a => addrIn false a % 4 != 0) ∧
    StopsFirst (.ld .lsa hd ⟨true, .s, .g⟩) .lsa (given .lsa 0 0 (2 ^ 48)) (fun a => addrIn true a % 4 == 0 && decide (2 ^ 48 ≤ addrIn true a)) ∧
    StopsFirst (.st .lsb hd ⟨true, .s, .g⟩) .lsb (given .lsb 0 0 0x40005FFC) (fun a => addrIn true a % 4 == 0 && decide (addrIn true a % 4096 + 4 ≤ 4096)) ∧
    StopsFirst (.lds .lsa hd ⟨true, .s, .a⟩) .lsa (given .lsa 0 0 16384) (fun a => decide (16384 < addrIn true a + 4)) ∧
    StopsFirst (.aadd .lsb hd ⟨.dev, false, .a⟩) .lsb (given .lsb 16384 0 0) (fun a => decide (16384 < (a.x0 + a.t).toNat + 4)) ∧
    StopsFirst (.ld .lsa hd ⟨true, .s, .pa⟩) .lsa (given .lsa 0 0 (2 ^ 17)) (fun a => addrIn true a % 4 == 0) := by
  and_intros <;> exact meets_of (by decide +kernel) (by decide +kernel)
theorem test_access_stops :
    stopOf (.ld .lsa hd ⟨false, .s, .g⟩) (given .lsa 0x2000 0 2) = some (.alignment, 0, 0x2002, 1) ∧
    stopOf (.ld .lsa hd ⟨true, .s, .g⟩) (given .lsa 0 0 (2 ^ 48)) = some (.translation, trInfo .load 5 1, 2 ^ 48, 1) ∧
    (stopOf (.st .lsb hd ⟨true, .s, .g⟩) (given .lsb 0 0 0x40005FFC)).map (fun r => (r.1, r.2.2)) = some (.translation, 0x40005FFC, 1) ∧
    stopOf (.lds .lsa hd ⟨true, .s, .a⟩) (given .lsa 0 0 16384) = some (.spaceBounds, 0, 16384, 1) ∧
    stopOf (.aadd .lsb hd ⟨.dev, false, .a⟩) (given .lsb 16384 0 0) = some (.spaceBounds, 0, 16384, 1) ∧
    stopOf (.ld .lsa hd ⟨true, .s, .pa⟩) (given .lsa 0 0 (2 ^ 17)) = some (.spaceBounds, 0, 2 ^ 17, 1) := by
  and_intros <;> decide +kernel

/-- The sheet with flags enabled in FPCR. -/
def enabled (e : BitVec 9) (s : State) : State := s.mapSheet 0 (fun sh => { sh with fpcr := e })
/-- 1 / 0 with DZ enabled, an infinity less an infinity with NV, and the intersection of [1, 1] with [2, 4] with EI (R150, R153). -/
theorem test_fp_stops : (stopOf (.rcp hd .f32) (enabled 2 (given .xfu 0 0 0))).map (fun r => (r.1, r.2.1)) = some (.fpEnabled, 2) ∧
    (stopOf (.fsub .fpa hd ⟨.f32, .rne⟩) (enabled 1 (given .fpa 0x7F800000 0 0x7F800000))).map (fun r => (r.1, r.2.1)) = some (.fpEnabled, 1) ∧
    (stopOf (.ivmeet .fpb hd) (enabled 32 (given .fpb 0x3F8000003F800000 0 0x4080000040000000))).map (fun r => (r.1, r.2.1)) = some (.intervalEmpty, 32) ∧
    (stopOf (.rcp hd .f32) (enabled 1 (given .xfu 0 0 0))) = none := by
  and_intros <;> decide +kernel
theorem test_witness_fp_stops :
    Meets (.rcp hd .f32) .xfu (enabled 2 (given .xfu 0 0 0)) (fun s sh m => 0 ∈ opThreads s sh m .xfu ∧
      Flags.traps sh.fpcr (xfuOut .f32 fpRcp (opIn s sh m .xfu 0)).flags = true) :=
  meets_of (by decide +kernel) (by decide +kernel)

/-- The runner's kernel with 16 registers. -/
def fewRegs (s : State) : State := s.mapGrid 0 (fun g => { g with kernel := { g.kernel with regs := 16 } })
/-- A move of v16, which such a kernel has not, and a bundle with two moves to v3 (R104). -/
def badMove : Instr := .add .ala ⟨.always, 16, false⟩ ⟨false, false⟩
def badBundle : Bundle := ⟨.narrow, 0, true, false, [mv 3 0xFE 0 0 false, mv 3 0xFE 0 0 false, Move.empty]⟩
theorem test_witness_illegal : let s := fewRegs (one id)
    let m := badMove.move.getD Move.empty
    s.sheet? s.focus = some (sheet0 s) ∧ stageOpen s s.focus (sheet0 s) = true ∧ (sheet0 s).issuing = none ∧ (sheet0 s).corrupt = none ∧ (sheet0 s).armed = false ∧
    badMove.move.isSome = true ∧ slotWaits s s.focus (sheet0 s) (oneMove m) = false ∧ bundleOk (sheet0 s) (s.core (coreOf s.focus)).split (oneMove m) = true ∧
    (waitingPass (opBegun s (sheet0 s) m) s.focus (opSheet s (sheet0 s) m) (opCycle s (sheet0 s) m) [opMove s (sheet0 s) m] (sheet0 s).passes 0).isNone = true ∧
    moveOk m (s.kernelOf (sheet0 s)).regs (s.core (coreOf s.focus)).split = false ∧ (opMove s (sheet0 s) m).exec ≠ 0 ∧
    bundleOk (sheet0 s) (s.core (coreOf s.focus)).split badBundle = false := by decide +kernel
theorem test_illegal : stopOf badMove (fewRegs (one id)) = some (.moveIllegal, 0, 0, 1) ∧
    (stopOf (.bundleIssue badBundle) (one id)).map (·.1) = some .bundleIllegal ∧
    (sheet0 (next (exec (.bundleIssue badBundle) (one id)))).trap.map (·.done) = some [] := by decide +kernel

/-- A product of limbs of different strides, and one whose bound does not fit (R243). -/
def strides (w : Workgroup) : Workgroup := { w with tags := [(1, ⟨false, 32, 8, 255, false⟩), (2, ⟨true, 16, 8, 128, false⟩), (3, ⟨false, 32, 8, 2 ^ 31, false⟩)] }
theorem test_witness_guard : Meets (.cmul hd 4) .cfe (shaped 1 [] 0x21 strides id) (fun s sh m => CfeNames (opCtx s sh m .cfe) (some 4) true true ∧
    ¬ Factors (opCtx s sh m .cfe) (cfeA (opCtx s sh m .cfe).tv) (cfeB (opCtx s sh m .cfe).tv)) ∧
    stopOf (.cmul hd 4) (shaped 1 [] 0x21 strides id) = some (.guardStatic, 0, 0, 1) ∧
    stopOf (.csqr hd 4) (shaped 1 [] 3 strides id) = some (.guardStatic, 0, 0, 1) ∧
    stopOf (.cadd hd 4) (shaped 1 [] 0x21 strides id) = some (.guardStatic, 0, 0, 1) :=
  ⟨meets_of (by decide +kernel) ⟨⟨by decide +kernel, by decide +kernel, by decide +kernel, fun k hk => by cases hk; decide +kernel⟩,
    by unfold Factors; decide +kernel⟩, by decide +kernel, by decide +kernel, by decide +kernel⟩

/-- The walk of an address below 1 GiB in the runner's address space. -/
theorem walk_low {s : State} {va : Nat} (h : va < 2 ^ 30) (hr : (s.vf 0).troot = 0x10) (hp : s.poisoned = [])
    (h1 : s.readNat 0x10000 8 = 0x11001) (h2 : s.readNat 0x11000 8 = 0x87) : Sys2Proof.Machine.walk s 0 va = .ok ⟨2, 0x87, va / 4096 * 4096⟩ := by
  have i1 : va / 2 ^ levelShift 1 % 512 = 0 := by simp only [levelShift]; omega
  have i2 : va / 2 ^ levelShift 2 % 512 = 0 := by simp only [levelShift]; omega
  have e1 : (bitAt (w64 0x11001).toNat 0, bitAt (w64 0x11001).toNat 7, bitAt (w64 0x11001).toNat 2, entryResOk (w64 0x11001) 1 false, leafAddr (w64 0x11001)) =
    (true, false, false, true, 0x11000) := by decide
  have e2 : (bitAt (w64 0x87).toNat 0, bitAt (w64 0x87).toNat 7, leafOk (w64 0x87) 2, leafAddr (w64 0x87)) = (true, true, true, 0) := by decide
  simp only [Prod.mk.injEq] at e1 e2
  simp [Sys2Proof.Machine.walk, walkFrom, Config.devMemTop, hr, i1, i2, poisonedAt, hp, h1, h2, e1, e2, leafSize]
  exact ⟨rfl, by omega⟩
theorem walk_low_steady {s : State} {va : Nat} (h : va < 2 ^ 30) (hr : (s.vf 0).troot = 0x10) (hp : s.poisoned = [])
    (h1 : s.readNat 0x10000 8 = 0x11001) (h2 : s.readNat 0x11000 8 = 0x87) :
    Steady (fun z => Sys2Proof.Machine.walk z 0 va) s (.ok ⟨2, 0x87, va / 4096 * 4096⟩) :=
  fun k => walk_low (s := { s with freeCtr := k }) h hr hp h1 h2
theorem test_witness_caches : CachesAgree spawner 0 0 ∧ spawner.homeq = [] := by
  refine ⟨fun va l hva h => ?_, by decide +kernel⟩
  have hc : (spawner.cluster (clusterOf 0)).tlb = [] ∧ (spawner.die (dieOf 0)).tlb = [] ∧
    (spawner.core 0).tlb = [(2, ⟨2, 0x87, 0x2000⟩), (3, ⟨2, 0x87, 0x3000⟩)] := by decide +kernel
  rw [hc.1, hc.2.1, hc.2.2] at h
  have hw (hv : va < 2 ^ 30) := walk_low_steady (s := spawner) hv (by decide +kernel) (by decide +kernel) (by decide +kernel) (by decide +kernel)
  simp only [lookup, tlbKey, Nat.zero_mul, Nat.zero_add, or_false, reduceCtorEq] at h
  split at h
  · rw [← Option.some.inj h, show 0x2000 = va / 4096 * 4096 by omega]; exact hw (by omega)
  · split at h
    · rw [← Option.some.inj h, show 0x3000 = va / 4096 * 4096 by omega]; exact hw (by omega)
    · cases h

/-- A PREF.pin of a line that is mapped; its caches hold nothing. -/
theorem test_witness_pref : let s := one (entries .lsb 0x2000 0 0)
    s.homeq = [] ∧ CachesAgree s (coreOf s.focus) (s.vfOf (sheet0 s)) ∧
    Steady (fun x => translate x (coreOf s.focus) (s.vfOf (sheet0 s)) 0x2000 .load) s (.ok ⟨0x2000, 0⟩) := by
  refine ⟨by decide +kernel, fun va l _ h => ?_, fun _ => by cbv⟩
  have hc : ((one (entries .lsb 0x2000 0 0)).cluster (clusterOf (coreOf (one (entries .lsb 0x2000 0 0)).focus))).tlb = [] ∧
    ((one (entries .lsb 0x2000 0 0)).die (dieOf (coreOf (one (entries .lsb 0x2000 0 0)).focus))).tlb = [] ∧
    ((one (entries .lsb 0x2000 0 0)).core (coreOf (one (entries .lsb 0x2000 0 0)).focus)).tlb = [] := by decide +kernel
  rw [hc.1, hc.2.1, hc.2.2] at h
  simp [lookup] at h

/-- Register moves to every kind of destination (R99): a guarded lane move to an entry of ALA; uniform moves to `v5`, `p7`, an entry
of FPA, an entry of SYS, a shape shadow of CPY and `w3`. -/
def laneMoves : Bundle := ⟨.narrow, 0, true, false, [⟨1, 2, 0x100, 0xFE, 0, 0, false⟩, mv 5 0xFE 0 0 true, mv 0xD7 0x85 0 0 true]⟩
def unitMoves : Bundle := ⟨.narrow, 0, true, false, [mv 0x130 0xFE 0 0 true, mv 0x1E0 0xFE 0 0 true, mv 0x2B0 0xFE 0 0 true]⟩
def wgMove : Bundle := ⟨.narrow, 0, true, false, [mv 0xC3 0xFE 0 0 true, Move.empty, Move.empty]⟩
/-- A sheet with two threads of which the second is active, `limm` 9, s5 1, p2 true in thread 1. -/
def second : State := one (fun sh => { sh with mask := 2, gone := ~~~3, limm := 9, s := [(5, 1)], p := [(258, 1)] })
theorem test_witness_all_moves : canMoveB second (sheet0 second) laneMoves = true ∧ canMoveB second (sheet0 second) unitMoves = true ∧
    canMoveB second (sheet0 second) wgMove = true ∧ (sheet0 second).active.lowest = some 1 := by decide +kernel
theorem test_all_moves : let f (b : Bundle) : Sheet := sheet0 (next (exec (.bundleIssue b) second))
    ((f laneMoves).getX .ala 0 0, (f laneMoves).getX .ala 0 1, (f laneMoves).getV 5 0, (f laneMoves).getV 5 31, (f laneMoves).getP 7 0, (f laneMoves).getP 7 31) =
      (0, 9, 9, 9, 1, 1) ∧
    ((f unitMoves).getX .fpa 0 0, (f unitMoves).getX .fpa 0 31, (f unitMoves).getX .sys 0 0, getD (f unitMoves).shShadow 0 (shapeKey 2 3 0)) = (9, 9, 9, 9) ∧
    ((next (exec (.bundleIssue wgMove) second)).wg? 0).map (fun w => (lookup w.w 3).map (·.val)) = some (some 9) := by decide +kernel

/-- The operations of an engine, of an LSU and of an FPU run, with nothing armed and no step in a queue. -/
theorem test_witness_storage : ∀ x ∈ [(Instr.mxzero hd ⟨1, true⟩, FUnit.mxe, shaped 0 [(5, 5)] 0 id id), (.cmul hd 4, .cfe, limbs12), (.dstat hd true, .cpy, one id),
      (.ld .lsa hd ⟨false, .s, .g⟩, .lsa, given .lsa 0x2000 0 4), (.rcp hd .f32, .xfu, given .xfu 0 0 0)],
    (x.1.move.map (fun m => Dst.ofCode m.dst.toNat)) = some (some (.t x.2.1)) ∧ (match exec x.1 x.2.2 with | .next _ => true | _ => false) = true ∧
    (sheet0 x.2.2).armed = false ∧ (sheet0 x.2.2).queue = [] := by decide +kernel

/-- A load and a store of two doublewords at a non-coherent mapping of the host, and the load with its upper half done (R202). -/
def hostPair : Access := { oldLoad with form := .pair, mt := 2, pieces := [(2 ^ 48, 16)] }
def hostHalf : Access := { hostPair with seen := (List.range 8).map (fun k => (2 ^ 48 + 8 + k, 7)) }
def hostPairStore : Access := { hostStore with pieces := [(2 ^ 48, 16)], data := leBytes 16 (2 ^ 64 * 5 + 6) }
theorem test_witness_split : ∀ a ∈ [hostPair, hostHalf, hostPairStore], a.splits = true ∧ MayPerform (queued a) 0 0 (sheet0 (queued a)) a := by
  unfold MayPerform; decide +kernel
theorem test_witness_half : (∀ p ∈ hostHalf.places, ((lookup hostHalf.seen p).isNone = true ↔ p / 8 = 2 ^ 45)) ∧ (∃ p ∈ hostHalf.places, p / 8 = 2 ^ 45) ∧
    Finds (queued hostHalf) 0 [] hostHalf (List.replicate 16 0) := by
  refine ⟨by decide +kernel, ⟨2 ^ 48, by decide +kernel, by decide⟩, ?_⟩
  unfold Finds; exact ⟨by decide +kernel, by decide +kernel⟩
theorem test_half_done : let t := sheet0 (next (exec (.loadPerformed 0 0) (queued hostHalf)))
    t.queue = [] ∧ t.getQ .lsa 0 0 = 0 := by decide +kernel
theorem test_witness_request_free : requestHeld (Tests.requested 0 (.write [1, 2]) []) ⟨0, 0, 0, 32, .write [1, 2], 0, 0⟩ = false := by decide +kernel

/-- Partition 0's context saved, with one sheet and its trap record. -/
def savedOne (sh : Sheet) : State :=
  ({ one id with sheets := [] } : State).mapPart 0 (fun p => { p with image :=
    [.image 0 0 4 0 true 0 [], .sheet 0 { sh with trap := none }] ++ (match sh.trap with | some r => [.trap 0 r] | none => []) ++ [.end_] })
theorem test_witness_saved : ∀ x ∈ [emulated, served 0x8000],
    (savedOne (sheet0 x)).sheet? 0 = none ∧ savedSheet ((savedOne (sheet0 x)).part 0).image 0 = some (sheet0 x) ∧
    (∀ e ∈ (savedOne (sheet0 x)).parts, (savedSheet e.2.image 0).isSome → e.1 = 0) := by decide +kernel
theorem test_saved_answer : ((savedSheet ((next (exec (.svcAnswer 0 9) (savedOne (sheet0 (served 0x8000))))).part 0).image 0).map (fun y => (y.getQ .sys 0 0, y.sys))) =
    some (9, .land 0) := by decide +kernel
/-- A sheet that waits to issue its resumed bundle. -/
def resumedWait (n : Nat) : State := ((parked .intDivide .resume id).mapSheet 0 (fun sh => { sh with watch := n })).mapPart 0 (fun p => { p with wdlim := 940 })
theorem test_witness_resumed_watch : (sheet0 (resumedWait 940)).park = .resume ∧ ((resumedWait 940).part 0).wdlim ≤ (sheet0 (resumedWait 940)).watch ∧
    ((sheet0 (next (exec (.watchdog 0) (resumedWait 940)))).trap.map (fun r => (r.cause, r.baddr))) = some (.watchdog, 0x1000) ∧
    parkAfter (.watchdog 0) (resumedWait 939) = some .resume := by decide +kernel

/-- A failed submission behind an older launch of its function, and in its turn (R351). -/
theorem test_failed_submission : let s : State := { one id with launches := [.host 0 0x2000] }
    s.launches.any (LaunchReq.through 0) = true ∧ (next (exec (.launchSubmission 0 4 0x40) s)).launches = [.host 0 0x2000, .failed 0 0x40 4] ∧
    (let u : State := { one id with launches := [.failed 0 0x40 4] }
     behindLaunch u 0 (.failed 0 0x40 4) = false ∧ u.refusedPages = [] ∧ ((next (exec (.launchAcceptance 0) u)).vf 0).lerrCode = 4 ∧
       ((next (exec (.launchAcceptance 0) u)).vf 0).msix = 1 ∧ (next (exec (.launchAcceptance 0) u)).launches = []) := by decide +kernel
theorem test_witness_unit_quiet : unitQuiet dirtyCore 0 0 = true ∧ scrubbing dirtyCore 0 0 = false := by decide +kernel
/-- A sheet whose threads have all exited does not stop (R289). -/
theorem test_witness_left_drain : let s := pressed true leftState
    (sheet0 s).left = true ∧ classDPending s (sheet0 s) = true ∧ (sheet0 s).park = .running ∧ next (exec (.drainPointStop 0) s) = s := by decide +kernel
/-- An image that has come for another region is refused; one of this one's is taken (R363). -/
def migratedTo (f : Bool) : State := savedInPlace.mapPart 0 (fun p => { p with precopy := { p.precopy with image := [(0, [])], foreign := f, table := 0x70000 } })
theorem test_witness_migrated : ((migratedTo true).part 0).precopy.image ≠ [] ∧ rebased (migratedTo true) 0 ((migratedTo true).part 0).image ≠ [] ∧
    loadable (migratedTo true) 0 (rebased (migratedTo true) 0 ((migratedTo true).part 0).image) = false ∧
    loadable (migratedTo false) 0 (rebased (migratedTo false) 0 ((migratedTo false).part 0).image) = true ∧
    ((next (exec (.contextRestore 0) (migratedTo true))).part 0).driverReports = [0x100] ∧
    parkAfter (.contextRestore 0) (migratedTo false) = some .running := by decide +kernel

/-- The registers of group 10, the groups that do not exist, and the table of sequence numbers (R354, R359, R362). -/
theorem test_group_ten : (∀ g < 16, 11 ≤ g → (next (exec (.managementRegisterWrite 1 (.reserved g) 5) (holds State.reset))).reply = 1) ∧
    (next (exec (.managementRegisterWrite 1 .deviceNo 4097) (holds State.reset))).deviceNo = 1 ∧
    (next (exec (.managementRegisterWrite 1 (.route 7) 11) (holds State.reset))).routes = [(7, 11)] ∧
    (next (exec (.managementRegisterWrite 1 (.route 7) 12) { holds State.reset with routes := [(7, 3)] })).routes = [] := by decide +kernel
theorem test_sequence_table : let t := next (exec (.managementRegisterWrite 1 (.seqTable 39) 0x70000) (tracking 0 0))
    (t.part 39).precopy.table = 0x70000 ∧ t.readNat 0x70000 16 = 2 ^ 128 - 1 ∧ t.readNat 0x70010 1 = 0 ∧
    (next (exec (.managementRegisterWrite 1 (.seqTable 39) 0x70004) (tracking 0 0))).reply = 1 := by decide +kernel

/-- A receiving session of partition 39: SID 7, a table at 0x70000; its key is 0, as that of the messages of these tests. -/
def receiving : State := (tracking 0 0).mapPart 39 (fun p => { p with precopy := { Precopy.reset with word := goWord - 1, table := 0x70000 } })
theorem test_witness_receive : ((receiving).part 39).precopy.key = 0 ∧ ((receiving).part 39).precopy.state = 0 ∧ bmFirst (receiving.part 39) = 0x50 ∧
    bmCount (receiving.part 39) = 2 ∧ preField (receiving.part 39).precopy.word 160 32 = 7 ∧ receiving.readNat 0x70000 8 = 0 := by decide +kernel
theorem test_witness_messages (seq page : Nat) (bs : List Byte) (k : BitVec 128) (hs : seq < 2 ^ 64) (hp : page < 2 ^ 64) : OfSession receiving 39 (message seq page bs k) := by
  have h : preField (receiving.part 39).precopy.word 160 32 = 7 ∧ (receiving.part 39).precopy.state ≠ 4 := by decide +kernel
  rw [OfSession, h.1, (message_nonce seq page bs k hs hp).1]
  exact ⟨by decide, rfl, h.2⟩
/-- A page message and an image message that open, the page's newer than the last applied, and one whose tag fails. -/
def pageOfZeros (page : Nat) : PageMsg := message 1 page (List.replicate 4096 0) 0
theorem test_witness_opened (page : Nat) (hp : page < 2 ^ 64) : OfSession receiving 39 (pageOfZeros page) ∧ msgPage (pageOfZeros page) = page ∧
    ∃ bs, openMsg (receiving.part 39).precopy.key (pageOfZeros page) = some bs ∧ bs.length = 4096 := by
  refine ⟨test_witness_messages 1 page _ 0 (by decide) hp, (message_nonce 1 page _ 0 (by decide) hp).2.1, ?_⟩
  rw [test_witness_receive.1]
  exact ⟨_, message_opens 1 page _ (by decide) hp, by rw [Sys2Proof.Laws.gcmCrypt_length, List.length_replicate]⟩
theorem test_witness_page : let m := pageOfZeros 0x50
    bmFirst (receiving.part 39) ≤ msgPage m ∧ msgPage m < bmFirst (receiving.part 39) + bmCount (receiving.part 39) ∧ (receiving.part 39).precopy.table ≠ 0 ∧
    receiving.readNat ((receiving.part 39).precopy.table + 8 * (msgPage m - bmFirst (receiving.part 39))) 8 < msgSeq m := by
  obtain ⟨-, -, hf, hc, -, hr⟩ := test_witness_receive
  obtain ⟨-, h2, h3⟩ := message_nonce 1 0x50 (List.replicate 4096 0) 0 (by decide) (by decide)
  have ht : (receiving.part 39).precopy.table = 0x70000 := by decide +kernel
  simp only [pageOfZeros, h2, h3, hf, hc, ht, Nat.sub_self, Nat.mul_zero, Nat.add_zero, hr]
  decide
theorem test_witness_failed : ∃ m, OfSession receiving 39 m ∧ openMsg (receiving.part 39).precopy.key m = none :=
  ⟨message 1 0x50 [] 1, test_witness_messages 1 0x50 [] 1 (by decide) (by decide), by
    rw [test_witness_receive.1]; exact message_fails 1 0x50 [] (by decide) (by decide)⟩

/-- An extraction of two elements from k1, unsigned of stride 32 and bound 255, into A from 64 on, 8 bytes apart; BOUND as given. -/
def extracting (bound : BitVec 32) : Cmd :=
  { cmdOf (.cext hd) .cfe .started 1 [64, 0, 0, 0, 0, 0, bound, 3, 8, 0, 2] [.limb 0 1] [] with regs := [32, 0, 0, 255] }
def dueOf (c : Cmd) : State := limbState (commanded 100000 c)
theorem test_witness_due_more : ∀ c ∈ [extracting 0, extracting 5, cmdOf (.mxdrain hd 1) .mxe .started 0 [0, 0, 0, 0, 64, 0, 0x3F800000, 0, 0, 1] [] [],
      { cmdOf (.mma hd ⟨1, true, false⟩) .mxe .started 0 [0, 8, 1] [] [] with fmts := [1] }, { contributing with phase := .started },
      cmdOf (.dcopy hd ⟨.wg, false⟩) .cpy .started 0 [64, 0, 256, 0, 5, 2, 1, 1, 1, 1, 1, 1] [] []],
    (dueOf c).cmd? 0 0 = some c ∧ c.phase = .started ∧ c.start + (c.cycles (dueOf c)).1 ≤ (dueOf c).cycle 0 ∧ c.at_ = 0 ∧ scrubHolds (dueOf c) c.wg = false ∧
      readSectors (dueOf c) 0 c ≤ c.paid := by decide +kernel
/-- The coefficients as FP32: 6.0 and 0. -/
theorem test_extraction : outsOf (dueOf (extracting 0)) = [.abuf 0 64 (leBytes 4 0x40C00000), .abuf 0 72 (leBytes 4 0)] ∧
    guardFails (extracting 5) (((dueOf (extracting 5)).wg? 0).getD runnerWg) 0 ∧
    ((next (exec (.operandsConsumed 0 0) (dueOf (extracting 5)))).cmd? 0 0).map (fun c => (c.phase, c.cause, c.info)) = some (.stopped, .guardData, 0) := by
  unfold guardFails; decide +kernel

/-- A tile whose element 0 of row 0 is given. -/
def tiled (int : Bool) (v : BitVec 32) (c : Cmd) : State :=
  (dueOf c).mapWg 0 (fun w => { w with nextTile := 1, tileInt := [(0, int)], tileBind := [(0, 0)], tiles := [(tileKey 0 0 0, v)] })
/-- 3.0 times a DSCALE of 2.0 as BF16, and −7 times 0.5 as INT8, ties to even (R234). -/
theorem test_drained : let first (s : State) : Option (List Byte) := (outsOf s).head?.bind (fun o => match o with
      | .abuf _ _ bs => some (bs.take 2)
      | _ => none)
    first (tiled false 0x40400000 (cmdOf (.mxdrain hd 1) .mxe .started 0 [0, 0, 0, 0, 64, 1, 0x40000000, 0, 0, 1] [] [])) = some [0xC0, 0x40] ∧
    first (tiled true (-7) (cmdOf (.mxdrain hd 1) .mxe .started 0 [0, 0, 0, 0, 64, 4, 0x3F000000, 0, 0, 1] [] [])) = some [0xFC, 0] := by decide +kernel
/-- A contribution opens its round (R237). -/
theorem test_contributes : let c : Cmd := { contributing with phase := .started, paid := 16 }
    let s := withGroup (tiled true 9 c)
    readSectors s 0 c = 16 ∧ s.group (s.partOf (sheet0 s)) 3 = some groupOne ∧ Group.index groupOne s.deviceNo 0 (s.colOf 0) = some 0 ∧
    (next (exec (.operandsConsumed 0 0) s)).rounds.map (fun r => (r.group, r.roff, r.contribs.map (fun c => (c.m, c.rows.length, c.rows.getD 0 0)))) =
      [(3, 0, [(0, 128, 9)])] := by decide +kernel
/-- A copy of one word from 64 to 256 of A. -/
def copying : Cmd := cmdOf (.dcopy hd ⟨.wg, false⟩) .cpy .started 0 [64, 0, 256, 0, 5, 2, 1, 1, 1, 1, 1, 1] [] []
theorem test_copied : let s := (dueOf { copying with op := .dcopy hd ⟨.dev, false⟩ }).mapWg 0 (fun w => w.writeBuf true 64 [1, 2, 3, 4])
    (outByte (outsOf s) .a 0 256, outByte (outsOf s) .a 0 259) = (some 1, some 4) := by decide +kernel
theorem test_witness_moves_of : let s := dueOf { copying with op := .dcopy hd ⟨.dev, false⟩ }
    ∃ k w, Cmd.copy? { copying with op := .dcopy hd ⟨.dev, false⟩ } = some k ∧ k.conv = none ∧ k.w 5 ≤ 4 ∧ k.scope ≠ .wg ∧ k.dstSpace = .a ∧ k.srcSpace = .a ∧
      s.homeq = [] ∧ s.wg? 0 = some w ∧ k.indexed = false ∧ k.total = 1 ∧ ∀ n < 1,
        PlaceAt s 0 0 .a (spaceSize w k.srcSpace) .engine (k.src + srcElem k n 0 * 4) 4 64 ∧
        PlaceAt s 0 0 .a (spaceSize w k.dstSpace) .engineStore (k.dst + dstElem k n 0 * 4) 4 256 := by
  refine ⟨copyFrom .copy .dev copying.shape [], ((dueOf { copying with op := .dcopy hd ⟨.dev, false⟩ }).wg? 0).getD runnerWg, by decide +kernel, by decide +kernel,
    by decide +kernel, by decide +kernel, by decide +kernel, by decide +kernel, by decide +kernel, by decide +kernel, by decide +kernel, by decide +kernel, fun n hn => ?_⟩
  obtain rfl : n = 0 := by omega
  unfold PlaceAt
  refine ⟨⟨by decide +kernel, ?_⟩, by decide +kernel, ?_⟩ <;> rw [if_neg (by decide)] <;> decide +kernel

end Sys2Proof.Tests
end

section

namespace Sys2Proof.Machine

/-! ## Bit fields of registers as written (R7, R8) -/

theorem testBit_bits (x lo n i : Nat) : (bits x lo n).testBit i = (decide (i < n) && x.testBit (lo + i)) := by
  rw [bits, Nat.testBit_mod_two_pow, Nat.testBit_div_two_pow, Nat.add_comm]

theorem bits_lt (x lo n : Nat) : bits x lo n < 2 ^ n := Nat.mod_lt _ (Nat.two_pow_pos n)

theorem bitAt_toNat {n : Nat} (v : BitVec n) (k : Nat) : bitAt v.toNat k = v.getLsbD k := by
  rw [BitVec.getLsbD, Nat.testBit_eq_decide_div_mod_eq, bitAt, beq_eq_decide]

theorem bits_zero_one {n : Nat} {v : BitVec n} : bits v.toNat 0 1 = 0 ↔ v.getLsbD 0 = false := by
  rw [← bitAt_toNat]
  simp [bits, bitAt]

/-- A field in its place. -/
theorem testBit_field (x lo n i : Nat) :
    (bits x lo n * 2 ^ lo).testBit i = (x.testBit i && decide (lo ≤ i ∧ i < lo + n)) := by
  rw [Nat.testBit_mul_two_pow, testBit_bits]
  by_cases h : lo ≤ i
  · rw [Nat.add_sub_cancel' h]
    by_cases h' : i < lo + n
    · simp [h, h', show i - lo < n by omega]
    · simp [h, h', show ¬ i - lo < n by omega]
  · simp [h]

/-- A field above the bits that stand already keeps the number short. -/
theorem add_field_lt {a lo k : Nat} (ha : a < 2 ^ lo) (x : Nat) {n : Nat} (h : lo + n ≤ k) : a + bits x lo n * 2 ^ lo < 2 ^ k :=
  calc a + bits x lo n * 2 ^ lo < 2 ^ lo + bits x lo n * 2 ^ lo := Nat.add_lt_add_right ha _
    _ = (bits x lo n + 1) * 2 ^ lo := by rw [Nat.add_mul, Nat.one_mul, Nat.add_comm]
    _ ≤ 2 ^ n * 2 ^ lo := Nat.mul_le_mul_right _ (bits_lt ..)
    _ = 2 ^ (lo + n) := by rw [← Nat.pow_add, Nat.add_comm]
    _ ≤ 2 ^ k := Nat.pow_le_pow_right (by decide) h
theorem field_lt (x lo n : Nat) {k : Nat} (h : lo + n ≤ k) : bits x lo n * 2 ^ lo < 2 ^ k := by
  simpa using add_field_lt (Nat.two_pow_pos lo) x h

/-- A field above the bits that stand already. -/
theorem testBit_add_field {a lo : Nat} (ha : a < 2 ^ lo) (x n i : Nat) :
    (a + bits x lo n * 2 ^ lo).testBit i = (a.testBit i || (x.testBit i && decide (lo ≤ i ∧ i < lo + n))) := by
  rw [← testBit_field, Nat.add_comm, Nat.mul_comm, Nat.testBit_two_pow_mul_add _ ha, Nat.mul_comm, Nat.testBit_mul_two_pow]
  by_cases h : i < lo
  · simp [h, show ¬ lo ≤ i by omega]
  · rw [Nat.testBit_lt_two_pow (lt_of_lt_of_le ha (Nat.pow_le_pow_right (by decide) (by omega)))]
    simp [h, show lo ≤ i by omega]

/-- Two numbers with the same bits in a field have the same field. -/
theorem bits_congr {x y lo n : Nat} (h : ∀ i < n, x.testBit (lo + i) = y.testBit (lo + i)) : bits x lo n = bits y lo n := by
  refine Nat.eq_of_testBit_eq fun i => ?_
  rw [testBit_bits, testBit_bits]
  by_cases hi : i < n
  · rw [h i hi]
  · simp [hi]

/-- The writable fields of a pre-copy descriptor (R360). -/
theorem preWritten_getLsbD (v : BitVec 256) (b : Nat) :
    (preWritten v).getLsbD b = (v.getLsbD b && decide ((96 ≤ b ∧ b < 102) ∨ (120 ≤ b ∧ b < 156) ∨ 160 ≤ b)) := by
  have h1 : bits v.toNat 96 6 * 2 ^ 96 < 2 ^ 120 := field_lt _ _ _ (by decide)
  have h2 := add_field_lt (k := 160) h1 v.toNat (n := 36) (by decide)
  unfold preWritten
  rw [BitVec.getLsbD_ofNat, testBit_add_field h2, testBit_add_field h1, testBit_field, ← BitVec.getLsbD]
  by_cases hb : b < 256
  · cases v.getLsbD b <;> simp [hb, Bool.or_assoc]
  · simp [BitVec.getLsbD_of_ge v b (by omega)]

/-! ## Management requests (R354) and events -/

theorem guarded_without {port g : Nat} {s : State} (h : getD s.sems 0 g ≠ port + 1) (f : State → Option State) :
    guarded port g s f = refuse s := by
  simp [guarded, holds, h]
theorem guarded_some {port g : Nat} {s t : State} (h : getD s.sems 0 g = port + 1) {f : State → Option State} (hf : f s = some t) :
    guarded port g s f = carried t := by
  simp [guarded, holds, h, hf]
theorem guarded_none {port g : Nat} {s : State} (h : getD s.sems 0 g = port + 1) {f : State → Option State} (hf : f s = none) :
    guarded port g s f = refuse s := by
  simp [guarded, holds, h, hf]

@[simp] theorem carried_reply (s : State) : (carried s).reply = 0 := rfl
@[simp] theorem carried_part (s : State) (k : Nat) : (carried s).part k = s.part k := rfl
@[simp] theorem carried_readByte (s : State) (a : Nat) : (carried s).readByte a = s.readByte a := rfl
theorem carried_mapPart (s : State) (p : Nat) (f : Part → Part) : (carried (s.mapPart p f)).part p = f (s.part p) :=
  State.part_mapPart ..
theorem carried_mapPart_ne (s : State) (p : Nat) (f : Part → Part) {k : Nat} (hk : k ≠ p) :
    (carried (s.mapPart p f)).part k = s.part k := State.part_mapPart_ne _ _ _ _ hk

theorem runAt_ok {ok : Bool} (h : ok = true) (f : State → State) (s : State) : runAt ok f s = .next (f s) := by
  simp [runAt, h]

/-- A step that is taken, and what holds at its end. -/
theorem does_next {i : Instr} {s t : State} {Q : State → Prop} (h : exec i s = .next t) (hQ : Q t) : Does i s Q := ⟨t, h, hQ⟩

/-- A partition written, and nothing else. -/
theorem onlyPart_mapPart (s : State) (p : Nat) (f : Part → Part) : OnlyPart s (s.mapPart p f) p :=
  ⟨rfl, fun _ hk => State.part_mapPart_ne _ _ _ _ hk⟩

/-! ## Writes at a home on no partition's behalf (R192, R309, R310) -/

/-- Nothing but memory differs. -/
def MemOnly (s t : State) : Prop := t = { s with mem := t.mem }

theorem MemOnly.refl (s : State) : MemOnly s s := rfl
theorem MemOnly.foldl {α : Type} {f : State → α → State} (h : ∀ s a, MemOnly s (f s a)) :
    ∀ (l : List α) (s : State), MemOnly s (l.foldl f s)
  | [], s => .refl s
  | a :: l, s => by
    have h1 := h s a
    have h2 := MemOnly.foldl h l (f s a)
    unfold MemOnly at *
    rw [List.foldl_cons, h2, h1]

theorem markDirty_only (s : State) (pa n : Nat) : MemOnly s (markDirty s pa n) := by
  refine MemOnly.foldl (fun s e => ?_) s.parts s
  dsimp only
  split
  · refine MemOnly.foldl (fun s page => ?_) _ s
    split
    · rfl
    · exact .refl s
  · exact .refl s

theorem markDirty_untracked {s : State} (h : Untracked s) (pa n : Nat) : markDirty s pa n = s := by
  refine (List.foldl_ext _ (fun z _ => z) s fun z e he => ?_).trans (List.foldl_fixed s.parts)
  have hd : bitAt e.2.dirty.toNat 0 = false := (bitAt_toNat ..).trans (h e he)
  simp [hd]

@[simp] theorem homeWrite_parts (s : State) (pa : Nat) (bs : List Byte) : (homeWrite s pa bs).parts = s.parts := by
  change ((markDirty s pa bs.length).writeBytes pa bs).parts = s.parts
  rw [State.writeBytes_parts, markDirty_only s pa bs.length]
theorem homeWrite_readByte (s : State) (pa : Nat) (bs : List Byte) (a : Nat) : (homeWrite s pa bs).readByte a =
    ((markDirty s pa bs.length).writeBytes pa bs).readByte a := rfl
theorem wroteRun_homeWrite (s : State) (pa : Nat) (bs : List Byte) : WroteRun s (homeWrite s pa bs) pa bs := by
  constructor
  · intro k hk
    rw [homeWrite_readByte, State.readByte_writeBytes, if_pos ⟨by omega, by omega⟩, Nat.add_sub_cancel_left]
  · intro hu a ha
    rw [homeWrite_readByte, State.readByte_writeBytes, if_neg ha, markDirty_untracked hu]

/-- What is outside the device counts nothing (R328). -/
theorem outside_event (s : State) (ev n : Nat) : Asker.outside.event s ev n = s := by
  simp [Asker.event, Asker.outside, Asker.device, noPart]

/-- A write from outside: what the use of an L2 changes, then the write itself. -/
theorem engineWrite_outside (s : State) (pa : Nat) (bs : List Byte) :
    ∃ t, L2Only s t ∧ engineWrite s Asker.outside pa bs = homeWrite t pa bs := by
  refine ⟨recallWords (l2Touch s Asker.outside true pa bs.length) 0 (wordsOf pa bs.length),
    (l2Touch_only s _ _ _ _).trans (recallWords_only _ _ _), ?_⟩
  rw [engineWrite, outside_event, engineStore, reachHome, if_neg (by decide)]

@[simp] theorem engineWrite_outside_parts (s : State) (pa : Nat) (bs : List Byte) :
    (engineWrite s Asker.outside pa bs).parts = s.parts := by
  obtain ⟨t, ht, h⟩ := engineWrite_outside s pa bs
  rw [h, homeWrite_parts, ht]
theorem wroteRun_engineWrite (s : State) (pa : Nat) (bs : List Byte) : WroteRun s (engineWrite s Asker.outside pa bs) pa bs := by
  obtain ⟨t, ht, h⟩ := engineWrite_outside s pa bs
  obtain ⟨h1, h2⟩ := wroteRun_homeWrite t pa bs
  rw [h]
  unfold L2Only at ht
  refine ⟨h1, fun hu a ha => (h2 ?_ a ha).trans ?_⟩
  · unfold Untracked; rw [ht]; exact hu
  · rw [ht]; rfl

/-- A page read from outside is used at its home's L2, and nothing that a partition or memory holds changes. -/
theorem l2Use_outside_parts (s : State) (w : Bool) (pa n : Nat) : (l2Use s Asker.outside w pa n).parts = s.parts := by
  rw [l2Use, outside_event, l2Touch_parts]

theorem foldl_keeps {α β : Type} {f : State → α → State} {g : State → β} (h : ∀ s a, g (f s a) = g s) (l : List α) (s : State) :
    g (l.foldl f s) = g s :=
  (List.foldl_hom g (fun x y => (h x y).symm)).symm.trans (List.foldl_fixed l)

/-! ## The table of sequence numbers (R362) -/

theorem mem_of_lookup {α : Type} {m : SMap α} {k : Nat} {v : α} (h : lookup m k = some v) : (k, v) ∈ m := by
  induction m with
  | nil => simp at h
  | cons e r ih =>
    obtain ⟨a, w⟩ := e
    by_cases ha : a = k
    · simp_all [lookup]
    · simp only [lookup, ha, if_false] at h
      exact List.mem_cons_of_mem _ (ih h)

theorem mem_of_mem_setD {α : Type} [DecidableEq α] {m : SMap α} {d v : α} {k : Nat} {e : Nat × α} (h : e ∈ setD m d k v) :
    e = (k, v) ∨ e ∈ m := by
  unfold setD at h
  split at h
  · exact .inr (List.mem_filter.mp h).1
  · exact (mem_insertAt h).imp_right fun he => (List.mem_filter.mp he).1

theorem untracked_part {s : State} (h : Untracked s) (p : Nat) : (s.part p).dirty.getLsbD 0 = false := by
  unfold State.part getD
  cases hl : lookup s.parts p with
  | none => rfl
  | some q => exact h _ (mem_of_lookup hl)

/-- A write of a partition that leaves its descriptor of dirty tracking tracks nothing new. -/
theorem untracked_mapPart {s : State} (h : Untracked s) {p : Nat} {f : Part → Part} (hf : (f (s.part p)).dirty = (s.part p).dirty) :
    Untracked (s.mapPart p f) := by
  intro e he
  rcases mem_of_mem_setD he with rfl | he
  · exact hf ▸ untracked_part h p
  · exact h e he

@[simp] theorem startTable_parts (s : State) (part : Nat) : (startTable s part).parts = s.parts := by
  unfold startTable
  split
  · rfl
  · exact engineWrite_outside_parts ..

/-- A request writes a partition, its descriptor of dirty tracking as before, and then its table of sequence numbers starts. -/
theorem carried_startTable {s t : State} {part : Nat} {f : Part → Part} (hf : (f (s.part part)).dirty = (s.part part).dirty)
    (ht : t = carried (startTable (s.mapPart part f) part)) :
    t.reply = 0 ∧ (∀ k, k ≠ part → t.part k = s.part k) ∧ t.part part = f (s.part part) ∧
    if (f (s.part part)).precopy.table = 0 then SameMemory s t
    else WroteRun s t (f (s.part part)).precopy.table (List.replicate (8 * bmCount (s.part part)) 0xFF) := by
  have hpart : ∀ k, t.part k = (s.mapPart part f).part k := fun k => by
    rw [ht, carried_part, State.part, startTable_parts, State.part]
  refine ⟨by rw [ht, carried_reply], fun k hk => (hpart k).trans (State.part_mapPart_ne _ _ _ _ hk), (hpart part).trans (State.part_mapPart ..), ?_⟩
  have hmem : ∀ a, t.readByte a = (startTable (s.mapPart part f) part).readByte a := fun a => by rw [ht, carried_readByte]
  unfold startTable at hmem
  rw [State.part_mapPart] at hmem
  split
  · next h0 =>
    rw [if_pos h0] at hmem
    exact hmem
  · next h0 =>
    rw [if_neg h0, show bmCount (f (s.part part)) = bmCount (s.part part) by simp only [bmCount, hf]] at hmem
    obtain ⟨h1, h2⟩ := wroteRun_engineWrite (s.mapPart part f) (f (s.part part)).precopy.table
      (List.replicate (8 * bmCount (s.part part)) 0xFF)
    exact ⟨fun k hk => (hmem _).trans (h1 k hk), fun hu a ha => (hmem a).trans (h2 (untracked_mapPart hu hf) a ha)⟩

/-! ## Class G requests (R291) -/

/-- The request of class G that a partition has after it is asked for one. -/
def askedG (s : State) (part : Nat) : Option Preempt :=
  if (s.part part).preempt = none ∧ (s.part part).image = [] then some ⟨false, s.ts⟩ else (s.part part).preempt

theorem classGRequest_only (part : Nat) (s : State) : classGRequest part s = { s with parts := (classGRequest part s).parts } := by
  unfold classGRequest
  split
  · split <;> rfl
  · rfl
theorem classGRequest_part (part : Nat) (s : State) : (classGRequest part s).part part = { s.part part with preempt := askedG s part } := by
  unfold classGRequest askedG
  cases h : (s.part part).preempt with
  | none =>
    by_cases hi : (s.part part).image = []
    · simp [hi, setPreempt]
    · simp [hi, ← h]
  | some x =>
    dsimp only
    rw [if_neg (by simp), ← h]
theorem classGRequest_part_ne (part : Nat) (s : State) {k : Nat} (hk : k ≠ part) : (classGRequest part s).part k = s.part k := by
  unfold classGRequest
  split
  · split
    · exact State.part_mapPart_ne _ _ _ _ hk
    · rfl
  · rfl

/-! ## Messages of a session (R360 to R362) -/

/-- The port that a message takes in its turn is one of PORTS. -/
theorem bitAt_turnPort {x : Nat} (hx : x < 16) (h0 : x ≠ 0) (i : Nat) :
    bitAt x (((List.range 4).filter (fun k => bitAt x k)).getD (i % max ((List.range 4).filter (fun k => bitAt x k)).length 1) 0) = true := by
  have some_port : ∀ y : Fin 16, y.val ≠ 0 → 0 < ((List.range 4).filter (fun k => bitAt y.val k)).length := by decide
  have hlen := some_port ⟨x, hx⟩ h0
  have hi := Nat.mod_lt i (lt_of_lt_of_le hlen (Nat.le_max_left _ 1))
  rw [Nat.max_eq_left hlen] at hi ⊢
  rw [List.getD_eq_getElem _ _ hi]
  exact (List.mem_filter.mp (List.getElem_mem hi)).2

/-- What a session sends: the messages in order, numbered on, each sealed and for a port of PORTS. -/
theorem send_spec (c : Precopy) (ms : List (Nat × List Byte)) : ∃ l,
    c.send ms = { c with seq := c.seq + ms.length, outbox := c.outbox ++ l } ∧ l.length = ms.length ∧
    ∀ (k : Nat) o m, l[k]? = some o → ms[k]? = some m → Carries c o m.1 (c.seq + k) m.2 := by
  refine ⟨_, rfl, by simp, fun k o m ho hm => ?_⟩
  simp only [List.getElem?_map, List.getElem?_zipIdx, hm, Option.map_some, Option.some.injEq, Nat.zero_add] at ho
  subst ho
  exact ⟨rfl, rfl, rfl, rfl, fun hports => bitAt_turnPort (bits_lt ..) hports _⟩

/-- The bitmap is clear. -/
theorem clearBitmap_clear (s : State) (p : Part) {n : Nat} (h : n < bmCount p) :
    bitAt ((clearBitmap s p).readByte (bmBase p + n / 8)).toNat (n % 8) = false := by
  have hk : n / 8 < ceilDiv (bmCount p) 64 * 8 := by unfold ceilDiv; omega
  rw [bitAt_toNat, clearBitmap, State.readByte_writeBytes, if_pos (by simpa using hk)]
  simp [hk]

/-- The pages of a round (R361). -/
def roundPages (s : State) (p : Part) (all : Bool) : List Nat := if all then tracked p else dirtyPages s p

/-- The bitmap is cleared and the pages are read at their homes. -/
def pagesUsed (s : State) (p : Part) (ns : List Nat) : State :=
  ns.foldl (fun s n => l2Use s Asker.outside false ((bmFirst p + n) * 4096) 4096) (clearBitmap s p)

theorem pagesUsed_mem (s : State) (p : Part) (ns : List Nat) : (pagesUsed s p ns).mem = (clearBitmap s p).mem :=
  foldl_keeps (fun _ _ => l2Use_mem ..) ns _
theorem pagesUsed_part (s : State) (p : Part) (ns : List Nat) (k : Nat) : (pagesUsed s p ns).part k = s.part k := by
  have h : (pagesUsed s p ns).parts = (clearBitmap s p).parts := foldl_keeps (fun _ _ => l2Use_outside_parts ..) ns _
  rw [clearBitmap, State.writeBytes_parts] at h
  simp only [State.part, h]
theorem pagesUsed_readBytes (s : State) (p : Part) (ns : List Nat) (a n : Nat) :
    (pagesUsed s p ns).readBytes a n = (clearBitmap s p).readBytes a n := by
  simp only [State.readBytes, State.readByte, pagesUsed_mem]

theorem sendRound_readByte (s : State) (part : Nat) (all : Bool) (a : Nat) :
    (sendRound s part all).readByte a = (clearBitmap s (s.part part)).readByte a := by
  change (pagesUsed s (s.part part) (roundPages s (s.part part) all)).readByte a = _
  simp only [State.readByte, pagesUsed_mem]

/-- The messages of a round, with the bytes that memory holds after it. -/
def roundMessages (s : State) (part : Nat) (all : Bool) : List (Nat × List Byte) :=
  (roundPages s (s.part part) all).map (fun n =>
    (bmFirst (s.part part) + n, (sendRound s part all).readBytes ((bmFirst (s.part part) + n) * 4096) 4096))

theorem sendRound_part (s : State) (part : Nat) (all : Bool) :
    (sendRound s part all).part part = { s.part part with precopy :=
      { (s.part part).precopy.send (roundMessages s part all) with
        sent := (roundPages s (s.part part) all).length, last := (roundPages s (s.part part) all).length
        round := (s.part part).precopy.round + 1 } } := by
  refine (State.part_mapPart (pagesUsed s (s.part part) (roundPages s (s.part part) all)) part _).trans ?_
  rw [pagesUsed_part]
  rfl

/-- A round sends the pages it names, cleared in the bitmap (R361). -/
theorem sendRound_spec (s : State) (part : Nat) (all : Bool) : ∃ l,
    (sendRound s part all).part part = { s.part part with precopy := { (s.part part).precopy with
      seq := (s.part part).precopy.seq + l.length, outbox := (s.part part).precopy.outbox ++ l
      sent := l.length, last := l.length, round := (s.part part).precopy.round + 1 } } ∧
    l.length = (roundPages s (s.part part) all).length ∧
    RoundSent s (sendRound s part all) part (roundPages s (s.part part) all) ((sendRound s part all).part part).precopy l := by
  obtain ⟨l, hsend, hlen, hl⟩ := send_spec (s.part part).precopy (roundMessages s part all)
  have hlen' : l.length = (roundPages s (s.part part) all).length := by rw [hlen, roundMessages, List.length_map]
  have hpart := sendRound_part s part all
  rw [hsend, ← hlen, ← hlen'] at hpart
  refine ⟨l, hpart, hlen', ?_⟩
  rw [hpart]
  refine ⟨hlen', by rw [hlen'], hlen', fun k o n ho hn => ?_⟩
  have hm : (roundMessages s part all)[k]? =
      some (bmFirst (s.part part) + n, (sendRound s part all).readBytes ((bmFirst (s.part part) + n) * 4096) 4096) := by
    rw [roundMessages, List.getElem?_map, hn]
    rfl
  simpa only using hl k o _ ho hm

theorem roundSent_congr {s t u : State} {part : Nat} {ns : List Nat} {p q : Precopy} {l : List Outgoing}
    (h : RoundSent s t part ns p l) (hmem : u.mem = t.mem) (hsent : q.sent = p.sent) (hseq : q.seq = p.seq) :
    RoundSent s u part ns q l := by
  obtain ⟨h1, h2, h3, h4⟩ := h
  refine ⟨hsent.trans h1, hseq.trans h2, h3, fun k o n ho hn => ?_⟩
  simpa only [State.readBytes, State.readByte, hmem] using h4 k o n ho hn

theorem sendRound_clear (s : State) (part : Nat) (all : Bool) {n : Nat} (h : n < bmCount (s.part part)) :
    bitAt ((sendRound s part all).readByte (bmBase (s.part part) + n / 8)).toNat (n % 8) = false := by
  rw [sendRound_readByte]
  exact clearBitmap_clear s _ h

/-! ### The image in messages -/

theorem pieces4k_length (bs : List Byte) {d : List Byte} (h : d ∈ pieces4k bs) : d.length = 4096 := by
  obtain ⟨k, -, rfl⟩ := List.mem_map.mp h
  simp

/-- A piece of bytes as a run of the bytes with zeros behind them. -/
theorem piece_eq (bs : List Byte) {k : Nat} (hk : 4096 * k ≤ bs.length) :
    (bs.drop (4096 * k)).take 4096 ++ (List.range (4096 - ((bs.drop (4096 * k)).take 4096).length)).map (fun _ => (0 : Byte)) =
      ((bs ++ List.replicate 4096 0).drop (4096 * k)).take 4096 := by
  rw [List.drop_append_of_le_length hk, List.take_append, List.take_replicate, List.map_const', List.length_range, List.length_take]
  congr 2
  omega

theorem flatten_runs (l : List Byte) (n k : Nat) :
    ((List.range k).map (fun j => (l.drop (n * j)).take n)).flatten = l.take (n * k) := by
  induction k with
  | zero => simp
  | succ k ih => rw [List.range_succ, List.map_append, List.flatten_append, ih, Nat.mul_succ, List.take_add]; simp

/-- The pieces hold the bytes in order, and zeros behind the last. -/
theorem pieces4k_flatten (bs : List Byte) : (pieces4k bs).flatten.take bs.length = bs := by
  have hruns : pieces4k bs =
      (List.range (ceilDiv bs.length 4096)).map (fun j => ((bs ++ List.replicate 4096 0).drop (4096 * j)).take 4096) :=
    List.map_congr_left fun k hk => piece_eq bs (by have := List.mem_range.mp hk; unfold ceilDiv at this; omega)
  have hlen : bs.length ≤ 4096 * ceilDiv bs.length 4096 := by unfold ceilDiv; omega
  rw [hruns, flatten_runs, List.take_take, Nat.min_eq_left hlen, List.take_left]

/-! ## Pre-copy sessions -/

section
variable {port part : Nat}

theorem exec_precopyGo (hp : port < 2) (v : BitVec 256) (s : State) : exec (.precopyGo port v) s = .next (precopyGo port v s) :=
  runAt_ok (decide_eq_true hp) (precopyGo port v) s
theorem exec_precopyRound (hp : part < 40) (s : State) : exec (.precopyRound part) s = .next (precopyRound part s) :=
  runAt_ok (decide_eq_true hp) (precopyRound part) s
theorem exec_precopyFinal (hp : part < 40) (s : State) : exec (.precopyFinal part) s = .next (precopyFinal part s) :=
  runAt_ok (decide_eq_true hp) (precopyFinal part) s
theorem exec_pageMessageReceive (hp : part < 40) (m : PageMsg) (s : State) :
    exec (.pageMessageReceive part m) s = .next (pageMessageReceive part m s) :=
  runAt_ok (decide_eq_true hp) (pageMessageReceive part m) s
theorem exec_imageMessageReceive (hp : part < 40) (m : PageMsg) (s : State) :
    exec (.imageMessageReceive part m) s = .next (imageMessageReceive part m s) :=
  runAt_ok (decide_eq_true hp) (imageMessageReceive part m) s

/-- The session of a partition is written, and of the partitions nothing else. -/
def SetsPrecopy (s t : State) (part : Nat) (d : Precopy) : Prop :=
  (∀ k, k ≠ part → t.part k = s.part k) ∧ t.part part = { s.part part with precopy := d }

theorem setsPrecopy_mapPart (s : State) (part : Nat) (f : Precopy → Precopy) :
    SetsPrecopy s (s.mapPart part (fun q => { q with precopy := f q.precopy })) part (f (s.part part).precopy) :=
  ⟨fun _ hk => State.part_mapPart_ne _ _ _ _ hk, State.part_mapPart ..⟩

theorem rewritten_same {c : Precopy} {v : BitVec 256} (h : bits c.word.toNat 160 32 = bits v.toNat 160 32) :
    rewritten c v = { c with word := preWritten v } := if_pos h
theorem rewritten_other {c : Precopy} {v : BitVec 256} (h : bits c.word.toNat 160 32 ≠ bits v.toNat 160 32) :
    rewritten c v = newSession c v := if_neg h

theorem Precopy.runs_iff (c : Precopy) : c.runs = true ↔ c.state = 1 ∨ c.state = 2 := by
  simp [Precopy.runs]

/-! ### PRECOPY_GO -/

variable {s : State} {v : BitVec 256} (hsem : getD s.sems 0 7 = port + 1) (hv : bits v.toNat 96 6 = part) (hp : part < 40)
include hsem hv hp

theorem precopyGo_running (hr : (s.part part).precopy.runs = true) : precopyGo port v s =
    carried (s.mapPart part (fun q => { q with precopy := { q.precopy with word := preWritten v } })) := by
  refine guarded_some hsem ?_
  simp only [preField, hv, if_neg (Nat.not_le.mpr hp), hr, if_true]

theorem precopyGo_fields (hr : (s.part part).precopy.runs = false) (hgo : v.getLsbD 0 = false)
    (hsid : bits (s.part part).precopy.word.toNat 160 32 = bits v.toNat 160 32) : precopyGo port v s =
    carried (s.mapPart part (fun q => { q with precopy := rewritten q.precopy v })) := by
  refine guarded_some hsem ?_
  have h0 : bits v.toNat 0 1 = 0 := bits_zero_one.mpr hgo
  simp [preField, hv, Nat.not_le.mpr hp, hr, h0, hsid]

theorem precopyGo_receiver (hr : (s.part part).precopy.runs = false) (hgo : v.getLsbD 0 = false)
    (hsid : bits (s.part part).precopy.word.toNat 160 32 ≠ bits v.toNat 160 32) : precopyGo port v s =
    carried (startTable (s.mapPart part (fun q => { q with precopy := rewritten q.precopy v })) part) := by
  refine guarded_some hsem ?_
  have h0 : bits v.toNat 0 1 = 0 := bits_zero_one.mpr hgo
  simp [preField, hv, Nat.not_le.mpr hp, hr, h0, hsid]

theorem precopyGo_refused (hr : (s.part part).precopy.runs = false) (hgo : v.getLsbD 0 = true)
    (hbad : bits v.toNat 160 32 = 0 ∨ bits v.toNat 152 4 = 0 ∨ bits v.toNat 120 8 = 0 ∨ (s.part part).dirty.getLsbD 0 = false) :
    precopyGo port v s = refuse s := by
  refine guarded_none hsem ?_
  have h0 : ¬ bits v.toNat 0 1 = 0 := fun h => absurd (bits_zero_one.mp h) (by rw [hgo]; decide)
  simp only [preField, hv, if_neg (Nat.not_le.mpr hp), hr, Bool.false_eq_true, if_false, if_neg h0, if_pos hbad]

theorem precopyGo_starts (hr : (s.part part).precopy.runs = false) (hgo : v.getLsbD 0 = true)
    (hok : ¬ (bits v.toNat 160 32 = 0 ∨ bits v.toNat 152 4 = 0 ∨ bits v.toNat 120 8 = 0 ∨ (s.part part).dirty.getLsbD 0 = false)) :
    precopyGo port v s = carried (s.mapPart part (fun q => { q with precopy := { newSession q.precopy v with state := 1 } })) := by
  refine guarded_some hsem ?_
  have h0 : ¬ bits v.toNat 0 1 = 0 := fun h => absurd (bits_zero_one.mp h) (by rw [hgo]; decide)
  simp only [preField, hv, if_neg (Nat.not_le.mpr hp), hr, Bool.false_eq_true, if_false, if_neg h0, if_neg hok]

end

/-! ### Rounds -/

section
variable {s : State} {part : Nat}

theorem precopyRound_eq (h1 : (s.part part).precopy.state = 1) : precopyRound part s =
    let t := sendRound s part ((s.part part).precopy.round == 0)
    if (t.part part).precopy.last ≤ preField (s.part part).precopy.word 128 24 ∨
        preField (s.part part).precopy.word 120 8 ≤ (s.part part).precopy.round then
      classGRequest part (t.mapPart part (fun p => { p with precopy := { p.precopy with state := 2 } }))
    else t := by
  rw [precopyRound, if_neg (not_not.mpr h1)]

/-- After a round, what it has sent stands; the session is in its final part where few pages were sent or MAXR is reached (R361). -/
theorem precopyRound_spec (h1 : (s.part part).precopy.state = 1) :
    let p := s.part part
    let c := p.precopy
    let t := precopyRound part s
    ∃ l, (t.part part).precopy.outbox = c.outbox ++ l ∧ (t.part part).precopy.round = c.round + 1 ∧
      (t.part part).precopy.last = l.length ∧
      RoundSent s t part (if c.round = 0 then tracked p else dirtyPages s p) (t.part part).precopy l ∧
      (∀ n < bmCount p, bitAt (t.readByte (bmBase p + n / 8)).toNat (n % 8) = false) ∧
      ((t.part part).precopy.state = 2 ↔ l.length ≤ bits c.word.toNat 128 24 ∨ bits c.word.toNat 120 8 ≤ c.round) := by
  intro p c t
  obtain ⟨l, hpart, hlen, hsent⟩ := sendRound_spec s part (c.round == 0)
  have hclear := fun n (hn : n < bmCount p) => sendRound_clear s part (c.round == 0) hn
  have hpages : roundPages s p (c.round == 0) = if c.round = 0 then tracked p else dirtyPages s p := by
    simp [roundPages]
  rw [hpages] at hsent hlen
  have ht : t = _ := precopyRound_eq h1
  refine ⟨l, ?_⟩
  by_cases hfew : l.length ≤ bits c.word.toNat 128 24 ∨ bits c.word.toNat 120 8 ≤ c.round
  · have htt : t = classGRequest part ((sendRound s part (c.round == 0)).mapPart part
        (fun p => { p with precopy := { p.precopy with state := 2 } })) := by
      rw [ht]; dsimp only; rw [hpart]; exact if_pos hfew
    have hc : (t.part part).precopy = { ((sendRound s part (c.round == 0)).part part).precopy with state := 2 } := by
      rw [htt, classGRequest_part, State.part_mapPart]
    have hm : t.mem = (sendRound s part (c.round == 0)).mem := by rw [htt, classGRequest_only]; rfl
    rw [hc]
    refine ⟨by rw [hpart], by rw [hpart], by rw [hpart], roundSent_congr hsent hm rfl rfl, fun n hn => ?_, iff_of_true rfl hfew⟩
    rw [State.readByte, hm]
    exact hclear n hn
  · rw [show t = sendRound s part (c.round == 0) by rw [ht]; dsimp only; rw [hpart]; exact if_neg hfew]
    rw [hpart] at hsent ⊢
    exact ⟨rfl, rfl, rfl, hsent, hclear, iff_of_false (by simp [h1]) hfew⟩

/-- In the final part a round goes on until one sends no page, and then the image goes (R361). -/
theorem precopyFinal_eq (h2 : (s.part part).precopy.state = 2) (himg : (s.part part).image ≠ []) : precopyFinal part s =
    if ((sendRound s part false).part part).precopy.sent = 0 then
      (sendRound s part false).mapPart part (fun p => { p with precopy := sendImage p })
    else sendRound s part false := by
  rw [precopyFinal, if_neg (by simp [h2, himg])]

theorem sendImage_spec (p : Part) : ∃ l, sendImage p = { p.precopy with
      seq := p.precopy.seq + l.length, outbox := p.precopy.outbox ++ l, state := 3 } ∧
    ∃ ds : List (List Byte), l.length = ds.length ∧
      ds.flatten.take (imageLayout (migrated p.image)).length = imageLayout (migrated p.image) ∧
      ∀ (k : Nat) o d, l[k]? = some o → ds[k]? = some d → d.length = 4096 ∧ Carries p.precopy o (2 ^ 64 - 1) (p.precopy.seq + k) d := by
  obtain ⟨l, hsend, hlen, hl⟩ := send_spec p.precopy
    ((pieces4k (imageLayout (migrated p.image))).map (fun b => (imagePage, b)))
  refine ⟨l, by rw [sendImage, hsend, ← hlen], pieces4k (imageLayout (migrated p.image)), by rw [hlen, List.length_map],
    pieces4k_flatten _, fun k o d ho hd => ⟨pieces4k_length _ (List.mem_of_getElem? hd), ?_⟩⟩
  have hm : ((pieces4k (imageLayout (migrated p.image))).map (fun b => (imagePage, b)))[k]? = some (imagePage, d) := by
    rw [List.getElem?_map, hd]
    rfl
  simpa only [imagePage] using hl k o _ ho hm

theorem precopyFinal_spec (h2 : (s.part part).precopy.state = 2) (himg : (s.part part).image ≠ []) :
    let p := s.part part
    let c := p.precopy
    let t := precopyFinal part s
    (t.part part).image = p.image ∧ (∀ n < bmCount p, bitAt (t.readByte (bmBase p + n / 8)).toNat (n % 8) = false) ∧
    ∃ l, (t.part part).precopy.outbox = c.outbox ++ l ∧
      if dirtyPages s p = [] then (t.part part).precopy.state = 3 ∧ ∃ ds : List (List Byte), l.length = ds.length ∧
        ds.flatten.take (imageLayout (migrated p.image)).length = imageLayout (migrated p.image) ∧
        ∀ (k : Nat) o d, l[k]? = some o → ds[k]? = some d → d.length = 4096 ∧ Carries c o (2 ^ 64 - 1) (c.seq + k) d
      else (t.part part).precopy.state = 2 ∧ RoundSent s t part (dirtyPages s p) (t.part part).precopy l := by
  intro p c t
  obtain ⟨l, hpart, hlen, hsent⟩ := sendRound_spec s part false
  have hclear := fun n (hn : n < bmCount p) => sendRound_clear s part false hn
  have hpages : roundPages s p false = dirtyPages s p := rfl
  rw [hpages] at hsent hlen
  have ht : t = _ := precopyFinal_eq h2 himg
  rw [hpart] at ht
  by_cases hnone : dirtyPages s p = []
  · obtain rfl : l = [] := List.length_eq_zero_iff.mp (by rw [hlen, hnone]; rfl)
    rw [if_pos (by rfl)] at ht
    have htp : t.part part = { (sendRound s part false).part part with precopy := sendImage ((sendRound s part false).part part) } := by
      rw [ht, State.part_mapPart]
    have hmem : t.mem = (sendRound s part false).mem := by rw [ht]; rfl
    obtain ⟨l, himage, ds, hds, hflat, hsends⟩ := sendImage_spec ((sendRound s part false).part part)
    rw [himage] at htp
    rw [hpart] at htp hflat hsends
    refine ⟨by rw [htp], fun n hn => ?_, l, by rw [htp]; exact congrArg (· ++ l) (List.append_nil c.outbox), ?_⟩
    · rw [State.readByte, hmem]
      exact hclear n hn
    · rw [if_pos hnone]
      exact ⟨by rw [htp], ds, hds, hflat, hsends⟩
  · have hl : l.length ≠ 0 := by rw [hlen]; exact fun h => hnone (List.length_eq_zero_iff.mp h)
    rw [if_neg hl] at ht
    simp only [ht, if_neg hnone]
    rw [hpart] at hsent ⊢
    exact ⟨rfl, hclear, l, rfl, h2, hsent⟩

end

/-! ### The receiver (R362) -/

section
variable {s : State} {part : Nat} {m : PageMsg}

theorem ofSession_of (h : OfSession s part m) : ofSession (s.part part) m = true := by
  obtain ⟨hsid, hword, hstate⟩ := h
  simp [ofSession, hsid, hstate, ← hword]

theorem receive_abort (hm : OfSession s part m) (ho : openMsg (s.part part).precopy.key m = none) (f : List Byte → State) :
    receive part m s f = abortSession s part m := by
  simp [receive, ofSession_of hm, ho]

theorem receive_open {bs : List Byte} (hm : OfSession s part m) (ho : openMsg (s.part part).precopy.key m = some bs)
    (hlen : bs.length = 4096) (f : List Byte → State) :
    receive part m s f = if (s.part part).precopy.state = 0 then f bs else s := by
  simp [receive, ofSession_of hm, ho, hlen]

theorem openMsg_eq_none (key : BitVec 256) (m : PageMsg) : openMsg key m = none ↔
    Crypto.gcmTag key (BitVec.ofNat 96 (msgSid m * 2 ^ 64 + msgSeq m)) (leBytes 24 m.header.toNat) m.cipher ≠ m.tag := by
  have hseq : msgSeq m % 2 ^ 64 = msgSeq m := Nat.mod_eq_of_lt (bits_lt ..)
  simp only [openMsg, nonceOf, hseq]
  split
  · next h => exact iff_of_false (by simp) (not_not.mpr h)
  · next h => exact iff_of_true rfl h

/-- A page that the partition does not take for its own, or for which there is no table, is only noted (R363). -/
theorem pageMessage_foreign {bs : List Byte} (hm : OfSession s part m) (ho : openMsg (s.part part).precopy.key m = some bs)
    (hlen : bs.length = 4096) (h0 : (s.part part).precopy.state = 0) (hpage : msgPage m ≠ imagePage)
    (hforeign : ¬ (bmFirst (s.part part) ≤ msgPage m ∧ msgPage m < bmFirst (s.part part) + bmCount (s.part part)) ∨
      (s.part part).precopy.table = 0) :
    pageMessageReceive part m s = s.mapPart part (fun p => { p with precopy := { p.precopy with foreign := true } }) := by
  rw [pageMessageReceive, receive_open hm ho hlen, if_pos h0]
  dsimp only
  rw [if_neg hpage, if_pos (by simpa only [ownPage, Bool.not_eq_true', decide_eq_false_iff_not] using hforeign)]

/-- A page of the region is written by a message newer than the last applied to it, and by no other (R362). -/
theorem pageMessage_own {bs : List Byte} (hm : OfSession s part m) (ho : openMsg (s.part part).precopy.key m = some bs)
    (hlen : bs.length = 4096) (h0 : (s.part part).precopy.state = 0) (hpage : msgPage m ≠ imagePage)
    (hfirst : bmFirst (s.part part) ≤ msgPage m) (hlast : msgPage m < bmFirst (s.part part) + bmCount (s.part part))
    (htable : (s.part part).precopy.table ≠ 0) : pageMessageReceive part m s =
      if s.readNat (seqAt (s.part part) (msgPage m)) 8 = seqNone ∨ s.readNat (seqAt (s.part part) (msgPage m)) 8 < msgSeq m then
        engineWrite (engineWrite s Asker.outside (msgPage m * 4096) bs) Asker.outside (seqAt (s.part part) (msgPage m))
          (leBytes 8 (msgSeq m))
      else s := by
  rw [pageMessageReceive, receive_open hm ho hlen, if_pos h0]
  dsimp only
  rw [if_neg hpage, if_neg (by simp [ownPage, hfirst, hlast, htable])]

theorem wroteRun_readBytes {t : State} {pa : Nat} {bs : List Byte} (h : WroteRun s t pa bs) : t.readBytes pa bs.length = bs := by
  refine List.ext_getElem (by simp [State.readBytes]) fun k hk _ => ?_
  have hk' : k < bs.length := by simpa [State.readBytes] using hk
  simp [State.readBytes, h.1 k hk', hk']

/-- Two runs written one behind the other, which do not meet. -/
theorem wroteRun_two {t : State} {a b : Nat} {xs ys : List Byte} (hu : Untracked s) (hmeet : runsMeet a xs.length b ys.length = false)
    (ht : t = engineWrite (engineWrite s Asker.outside a xs) Asker.outside b ys) :
    t.readBytes a xs.length = xs ∧ t.readBytes b ys.length = ys ∧
      ∀ c, ¬ (a ≤ c ∧ c < a + xs.length) → ¬ (b ≤ c ∧ c < b + ys.length) → t.readByte c = s.readByte c := by
  subst ht
  have h1 := wroteRun_engineWrite s a xs
  have h2 := wroteRun_engineWrite (engineWrite s Asker.outside a xs) b ys
  have hu' : Untracked (engineWrite s Asker.outside a xs) := by
    unfold Untracked
    rw [engineWrite_outside_parts]
    exact hu
  have hapart : ∀ c, a ≤ c → c < a + xs.length → ¬ (b ≤ c ∧ c < b + ys.length) := by
    intro c hc hc' hb
    simp only [runsMeet, Bool.and_eq_false_iff, decide_eq_false_iff_not] at hmeet
    omega
  refine ⟨?_, wroteRun_readBytes h2, fun c hc hc' => (h2.2 hu' c hc').trans (h1.2 hu c hc)⟩
  refine (List.map_congr_left fun k hk => ?_).trans (wroteRun_readBytes h1)
  have hk' := List.mem_range.mp hk
  exact h2.2 hu' _ (hapart _ (by omega) (by omega))

theorem imageMessage_taken {bs : List Byte} (hm : OfSession s part m) (ho : openMsg (s.part part).precopy.key m = some bs)
    (hlen : bs.length = 4096) (h0 : (s.part part).precopy.state = 0) (hpage : msgPage m = imagePage) :
    OnlyPart s (imageMessageReceive part m s) part ∧
      lookup ((imageMessageReceive part m s).part part).precopy.image (msgSeq m) = some bs ∧
      ((imageMessageReceive part m s).part part).precopy.state = 0 := by
  rw [imageMessageReceive, receive_open hm ho hlen, if_pos h0]
  dsimp only
  rw [if_neg (not_not.mpr hpage)]
  refine ⟨onlyPart_mapPart .., ?_, ?_⟩
  · rw [State.part_mapPart]
    exact lookup_put_self ..
  · rw [State.part_mapPart]
    exact h0

end

/-- Settles O60: GO, a round, the final part, the receiver and the reset each by the lemma about it. -/
theorem migrationAndReset : Obligations.MigrationAndReset := by
  intro s port part hport hp p c sets
  refine ⟨fun v => ?_, fun h1 => ?_, fun h2 himg => ?_, fun m hm ho => ?_, fun m => openMsg_eq_none c.key m,
    fun m bs hm ho hlen => ⟨fun h0 => ?_, fun h0 hpage => ⟨fun hforeign => ?_, fun hfirst hlast htable => ⟨?_, ?_⟩⟩, fun h0 hpage => ?_⟩, ?_⟩
  · intro fresh
    have hgo := exec_precopyGo hport v s
    refine ⟨fun hsem => hgo.trans (by rw [precopyGo, guarded_without hsem]; rfl), preWritten_getLsbD v, fun hsem hv => ⟨fun hrun => ?_,
      fun hr1 hr2 hgo0 => ?_, fun hr1 hr2 hgo1 => ?_⟩⟩
    · rw [← Precopy.runs_iff] at hrun
      exact does_next hgo (by
        rw [precopyGo_running hsem hv hp hrun]
        exact ⟨rfl, setsPrecopy_mapPart s part (fun q => { q with word := preWritten v })⟩)
    · have hrun : c.runs = false := by simp [Precopy.runs, hr1, hr2]
      refine ⟨fun hsid => does_next hgo ?_, fun hsid => does_next hgo ?_⟩
      · rw [precopyGo_fields hsem hv hp hrun hgo0 hsid]
        exact ⟨rfl, rewritten_same hsid ▸ setsPrecopy_mapPart s part (rewritten · v)⟩
      · rw [precopyGo_receiver hsem hv hp hrun hgo0 hsid]
        obtain ⟨hreply, hothers, hpart, hmem⟩ := carried_startTable (s := s) (part := part)
          (f := fun q => { q with precopy := rewritten q.precopy v }) rfl rfl
        have hnew : rewritten (s.part part).precopy v = fresh := rewritten_other hsid
        simp only [hnew] at hpart hmem
        exact ⟨hreply, ⟨hothers, hpart⟩, hmem⟩
    · have hrun : c.runs = false := by simp [Precopy.runs, hr1, hr2]
      refine ⟨fun hbad => hgo.trans (by rw [precopyGo_refused hsem hv hp hrun hgo1 hbad]; rfl), fun hsid hports hmax hen => does_next hgo ?_⟩
      rw [precopyGo_starts hsem hv hp hrun hgo1 (by simp [hsid, hports, hmax, hen, p])]
      exact ⟨rfl, setsPrecopy_mapPart s part (fun q => { newSession q v with state := 1 })⟩
  · exact does_next (exec_precopyRound hp s) (precopyRound_spec h1)
  · exact does_next (exec_precopyFinal hp s) (precopyFinal_spec h2 himg)
  · have haborts : OnlyPart s (abortSession s part m) part ∧ sets (abortSession s part m) _ :=
      ⟨onlyPart_mapPart .., setsPrecopy_mapPart s part (fun q => { q with
        state := 4, outbox := q.outbox ++ [⟨0, BitVec.ofNat 64 (preField q.word 192 64), m⟩] })⟩
    exact ⟨does_next (exec_pageMessageReceive hp m s) (by rw [pageMessageReceive, receive_abort hm ho]; exact haborts),
      does_next (exec_imageMessageReceive hp m s) (by rw [imageMessageReceive, receive_abort hm ho]; exact haborts)⟩
  · exact ⟨(exec_pageMessageReceive hp m s).trans (by rw [pageMessageReceive, receive_open hm ho hlen, if_neg h0]),
      (exec_imageMessageReceive hp m s).trans (by rw [imageMessageReceive, receive_open hm ho hlen, if_neg h0])⟩
  · refine does_next (exec_pageMessageReceive hp m s) ?_
    rw [pageMessage_foreign hm ho hlen h0 hpage hforeign]
    exact ⟨onlyPart_mapPart .., setsPrecopy_mapPart s part (fun q => { q with foreign := true })⟩
  · intro hnew hu hmeet
    refine does_next (exec_pageMessageReceive hp m s) ?_
    have hmeet' : runsMeet (msgPage m * 4096) bs.length (seqAt p (msgPage m)) (leBytes 8 (msgSeq m)).length = false := by
      rw [hlen, leBytes_length]
      exact hmeet
    obtain ⟨hpage', hseq, hrest⟩ := wroteRun_two hu hmeet'
      ((pageMessage_own hm ho hlen h0 hpage hfirst hlast htable).trans (if_pos hnew))
    rw [hlen] at hpage' hrest
    rw [leBytes_length] at hseq hrest
    refine ⟨hpage', ?_, hrest⟩
    have hlt : msgSeq m < 256 ^ 8 := bits_lt ..
    exact (congrArg leNat hseq).trans ((leNat_leBytes 8 _).trans (Nat.mod_eq_of_lt hlt))
  · intro hold hle
    refine (exec_pageMessageReceive hp m s).trans ?_
    rw [pageMessage_own hm ho hlen h0 hpage hfirst hlast htable, if_neg]
    exact fun h => h.elim hold (Nat.not_lt.mpr hle)
  · exact does_next (exec_imageMessageReceive hp m s) (imageMessage_taken hm ho hlen h0 hpage)
  · exact ⟨_, rfl, fun _ => rfl, rfl⟩
end Sys2Proof.Machine
end

section

namespace Sys2Proof.Machine

/-! ## The partition table (R311, R312, R340) -/

/-- What follows a write that is taken leaves the fields written as they are. -/
theorem partSettled_fields (s : State) (p q : Part) : ∃ seqs serial key counters history, partSettled s p q =
    { q with seqs := seqs, serial := serial, boundKey := key, counters := counters, history := history } := by
  have hseqs : ∃ seqs serial, (if q.polid = p.polid then q else
      { q with seqs := [], serial := (getD s.policies Policy.openPolicy q.polid).serial }) = { q with seqs := seqs, serial := serial } := by
    split
    · exact ⟨_, _, rfl⟩
    · exact ⟨_, _, rfl⟩
  unfold partSettled
  obtain ⟨seqs, serial, h⟩ := hseqs
  dsimp only
  rw [h]
  split <;> split <;> split <;> exact ⟨_, _, _, _, _, rfl⟩

section
variable {port part : Nat} {s : State}

theorem exec_partitionTableWrite (hport : port < 2) (hpart : part < 40) (v : BitVec 256) (s : State) :
    exec (.partitionTableWrite port part v) s = .next (partitionTableWrite port part v s) :=
  runAt_ok (by simp [portOk, partOk, hport, hpart]) (partitionTableWrite port part v) s

/-- A state whose entry of a partition is as a write that is taken leaves it. -/
def partTaken (s : State) (part n : Nat) : State :=
  s.setPart part (partSettled s (s.part part) (partWritten (s.part part) n))

/-- Whether a write of a partition's entry has a field out of range (R311). -/
def partOutOfRange (n : Nat) : Prop :=
  bits n 8 8 = 0 ∨ 4096 < bits n 16 13 ∨ 14 < bits n 36 4 ∨ bits n 40 7 = 0 ∨ 64 < bits n 40 7

theorem partitionTableWrite_refused {v : BitVec 256} (hsem : getD s.sems 0 0 = port + 1) (hbad : partOutOfRange v.toNat) :
    partitionTableWrite port part v s = refuse s := by
  refine guarded_none hsem (if_pos ?_)
  rcases hbad with h | h | h | h | h
  · exact .inl h
  · exact .inr (.inl h)
  · exact .inr (.inr (.inl h))
  · exact .inr (.inr (.inr (.inl h)))
  · exact .inr (.inr (.inr (.inr (.inl h))))

theorem partitionTableWrite_taken {v : BitVec 256} (hsem : getD s.sems 0 0 = port + 1) (hok : ¬ partOutOfRange v.toNat)
    (hrate : rateShared (partTaken s part v.toNat) = false) (hfloor : floorSum (partTaken s part v.toNat) ≤ s.enga)
    (hpol : polRefused s (s.part part) (partWritten (s.part part) v.toNat) = false) :
    partitionTableWrite port part v s = carried (if (!bitAt v.toNat 0 && (s.part part).valid) = true
      then releasePins (partTaken s part v.toNat) part else partTaken s part v.toNat) := by
  refine guarded_some hsem ((if_neg ?_).trans ?_)
  · rintro (h | h | h | h | h | h | h | h)
    · exact hok (.inl h)
    · exact hok (.inr (.inl h))
    · exact hok (.inr (.inr (.inl h)))
    · exact hok (.inr (.inr (.inr (.inl h))))
    · exact hok (.inr (.inr (.inr (.inr h))))
    · exact Bool.false_ne_true (hrate.symm.trans h)
    · exact Nat.not_lt.mpr hfloor h
    · exact Bool.false_ne_true (hpol.symm.trans h)
  · exact (apply_ite some _ _ _).symm

/-- What a write of a partition's entry leaves, whether or not its pins are released (R194, R311). -/
theorem partTaken_spec (s : State) (part : Nat) (v : BitVec 256) : (partTaken s part v.toNat).mem = s.mem ∧
    (partTaken s part v.toNat).sheets = s.sheets ∧ (∀ k, k ≠ part → (partTaken s part v.toNat).part k = s.part k) ∧
    (let n := v.toNat
      let q := (partTaken s part v.toNat).part part
      q.valid = v.getLsbD 0 ∧ q.memw = bits n 8 8 ∧ q.rate = bits n 16 13 ∧ q.tier = bits n 32 2 ∧ q.floor = bits n 36 4 ∧
      q.prqcap = bits n 40 7 ∧ q.polid = bits n 48 16 ∧ q.pinq = bits n 64 32 ∧ q.xlen = v.getLsbD 96) := by
  refine ⟨rfl, rfl, fun k hk => State.part_setPart_ne _ _ _ _ hk, ?_⟩
  obtain ⟨seqs, serial, key, counters, history, h⟩ := partSettled_fields s (s.part part) (partWritten (s.part part) v.toNat)
  simp only [partTaken, State.part_setPart, h]
  exact ⟨bitAt_toNat v 0, rfl, rfl, rfl, rfl, rfl, rfl, rfl, bitAt_toNat v 96⟩

end

/-! ## Core assignment (R313, R314) -/

theorem entryA_eq (v : BitVec 16) : entryA v = (v.setWidth 6).toNat := by
  simp [entryA, bits]
theorem entryB_eq (v : BitVec 16) : entryB v = ((v >>> 6).setWidth 6).toNat := by
  simp [entryB, bits, Nat.shiftRight_eq_div_pow]

section
variable {port core : Nat} {s : State}

/-- Contexts asked one after another for a stop of class G. -/
def askAll (parts : List Nat) (s : State) : State := parts.foldl (fun s p => classGRequest p s) s

theorem askAll_only (parts : List Nat) (s : State) : askAll parts s = { s with parts := (askAll parts s).parts } := by
  unfold askAll
  induction parts generalizing s with
  | nil => rfl
  | cons p r ih =>
    rw [List.foldl_cons, ih, classGRequest_only]

theorem askedG_classGRequest (p k : Nat) (s : State) : askedG (classGRequest p s) k = askedG s k := by
  unfold askedG
  rw [show (classGRequest p s).ts = s.ts by rw [classGRequest_only]]
  by_cases hk : k = p
  · subst hk
    rw [classGRequest_part]
    unfold askedG
    by_cases h : (s.part k).preempt = none ∧ (s.part k).image = [] <;> simp [h]
  · rw [classGRequest_part_ne p s hk]

/-- Each context named has its request, the others are as before. -/
theorem askAll_part (parts : List Nat) (s : State) (k : Nat) : (askAll parts s).part k =
    { s.part k with preempt := if k ∈ parts then askedG s k else (s.part k).preempt } := by
  unfold askAll
  induction parts generalizing s with
  | nil => rfl
  | cons p r ih =>
    rw [List.foldl_cons, ih, askedG_classGRequest]
    by_cases hk : k = p
    · subst hk
      rw [classGRequest_part]
      simp
    · rw [classGRequest_part_ne p s hk]
      simp [hk]


theorem exec_coreAssignmentWrite (hport : port < 2) (hcore : core < 1536) (v : BitVec 16) (s : State) :
    exec (.coreAssignmentWrite port core v) s = .next (coreAssignmentWrite port core v s) :=
  runAt_ok (by simp [portOk, coreOk, hport, hcore]) (coreAssignmentWrite port core v) s
theorem exec_coreAssignmentEffect (hcore : core < 1536) (s : State) :
    exec (.coreAssignmentEffect core) s = .next (coreAssignmentEffect core s) :=
  runAt_ok (decide_eq_true hcore) (coreAssignmentEffect core) s

/-- Whether a core's entry is refused for itself: an owner that is none, or a half B of a whole core (R313). -/
def entryBad (v : BitVec 16) : Prop :=
  (40 ≤ entryA v ∧ entryA v ≤ 62) ∨ (40 ≤ entryB v ∧ entryB v ≤ 62) ∨ (v.getLsbD 15 = false ∧ entryB v ≠ 63)

/-- The partitions whose workgroups are on the columns that an entry changes. -/
def changedParts (s : State) (core : Nat) (v : BitVec 16) : List Nat :=
  ((onChanged s core v).filterMap (fun w => (s.grid? w.grid).map (fun g => g.part))).dedup

theorem coreAssignmentWrite_refused {v : BitVec 16} (hsem : getD s.sems 0 1 = port + 1) (hbad : entryBad v) :
    coreAssignmentWrite port core v s = refuse s := by
  refine guarded_none hsem (if_pos ?_)
  simp only [Bool.or_eq_true, decide_eq_true_eq, Bool.and_eq_true, entrySplit, Bool.not_eq_true', bne_iff_ne]
  rcases hbad with h | h | h
  · exact .inl (.inl (.inl h))
  · exact .inl (.inl (.inr h))
  · exact .inl (.inr h)

theorem coreAssignmentWrite_taken {v : BitVec 16} (hsem : getD s.sems 0 1 = port + 1) (hok : ¬ entryBad v)
    (hmixed : mixedUnits s core v = false) : coreAssignmentWrite port core v s =
      carried (askAll (changedParts s core v) (s.mapCore core (fun k => { k with change := some v }))) := by
  refine guarded_some hsem (if_neg ?_)
  simp only [Bool.or_eq_true, decide_eq_true_eq, Bool.and_eq_true, entrySplit, Bool.not_eq_true', bne_iff_ne, hmixed]
  rintro (((h | h) | h) | h)
  · exact hok (.inl h)
  · exact hok (.inr (.inl h))
  · exact hok (.inr (.inr h))
  · exact Bool.false_ne_true h

theorem mem_changedParts {v : BitVec 16} {w : Workgroup} {g : Grid} (hw : w ∈ onChanged s core v) (hg : s.grid? w.grid = some g) :
    g.part ∈ changedParts s core v :=
  List.mem_dedup.mpr (List.mem_filterMap.mpr ⟨w, hw, by rw [hg]; rfl⟩)

/-- What a new entry asked for leaves: the change noted at its core, and requests of class G (R314; log 77). -/
theorem askAll_changed (s : State) (core : Nat) (v : BitVec 16) :
    let t := carried (askAll (changedParts s core v) (s.mapCore core (fun k => { k with change := some v })))
    t = { s with cores := t.cores, parts := t.parts, reply := 0 } ∧ (∀ k, k ≠ core → t.core k = s.core k) ∧
      t.core core = { s.core core with change := some v } ∧ (∀ p, t.part p = { s.part p with preempt := (t.part p).preempt }) ∧
      ∀ w ∈ onChanged s core v, ∀ g, s.grid? w.grid = some g → (s.part g.part).preempt = none → (s.part g.part).image = [] →
        (t.part g.part).preempt = some ⟨false, s.ts⟩ := by
  intro t
  have ht : t = { s.mapCore core (fun k => { k with change := some v }) with parts := t.parts, reply := 0 } :=
    congrArg carried (askAll_only ..)
  have hcs : t.cores = (s.mapCore core (fun k => { k with change := some v })).cores := by
    have h := congrArg State.cores ht
    exact h
  have hcores : ∀ k, t.core k = (s.mapCore core (fun k => { k with change := some v })).core k := fun k => by
    simp only [State.core, hcs]
  have hparts : ∀ p, t.part p = { s.part p with preempt := if p ∈ changedParts s core v then askedG s p else (s.part p).preempt } :=
    fun p => askAll_part _ _ p
  refine ⟨?_, fun k hk => (hcores k).trans (State.core_mapCore_ne _ _ _ _ hk), (hcores core).trans (State.core_mapCore ..),
    fun p => by rw [hparts p], fun w hw g hg hnone himg => ?_⟩
  · rw [hcs]
    exact ht
  · rw [hparts, if_pos (mem_changedParts hw hg), askedG, if_pos ⟨hnone, himg⟩]

end

/-! ### The change takes effect -/

/-- Nothing differs of memory, sheets, workgroups and partitions, and of the cores only which of a rail's have confirmed (R325). -/
def RailOnly (r : Nat) (s t : State) : Prop :=
  t.mem = s.mem ∧ t.sheets = s.sheets ∧ t.wgs = s.wgs ∧ (∀ k, k ∉ railCores r → t.core k = s.core k) ∧
    ∀ k, t.core k = { s.core k with confirmed := (t.core k).confirmed }

theorem RailOnly.refl (r : Nat) (s : State) : RailOnly r s s := ⟨rfl, rfl, rfl, fun _ _ => rfl, fun _ => rfl⟩
theorem RailOnly.trans {r : Nat} {s t u : State} (h : RailOnly r s t) (k : RailOnly r t u) : RailOnly r s u := by
  obtain ⟨hm, hs, hw, ho, hc⟩ := h
  obtain ⟨km, ks, kw, ko, kc⟩ := k
  exact ⟨km.trans hm, ks.trans hs, kw.trans hw, fun c hn => (ko c hn).trans (ho c hn), fun c => by rw [kc c, hc c]⟩
theorem RailOnly.foldl {α : Type} {r : Nat} {f : State → α → State} :
    ∀ (l : List α) (s : State), (∀ s, ∀ a ∈ l, RailOnly r s (f s a)) → RailOnly r s (l.foldl f s)
  | [], s, _ => .refl r s
  | a :: l, s, h => (h s a List.mem_cons_self).trans (RailOnly.foldl l _ fun s b hb => h s b (List.mem_cons_of_mem _ hb))

theorem railOnly_setRail (r k : Nat) (s : State) (x : Rail) : RailOnly r s (s.setRail k x) := RailOnly.refl r s
theorem railOnly_setCluster (r k : Nat) (s : State) (x : Cluster) : RailOnly r s (s.setCluster k x) := RailOnly.refl r s
theorem railOnly_setClock (r c mhz : Nat) (s : State) : RailOnly r s (s.setClock c mhz) := by
  refine ⟨?_, ?_, ?_, fun k _ => ?_, fun k => ?_⟩ <;> simp [State.setClock, State.core]

theorem startSteps_only (s : State) (r : Nat) (cls : List Nat) : RailOnly r s (startSteps s r cls) := by
  unfold startSteps
  refine (RailOnly.foldl (railCores r) s fun s c hc => ?_).trans (RailOnly.foldl cls _ fun s cl _ => railOnly_setCluster ..)
  refine ⟨rfl, rfl, rfl, fun k hk => State.core_mapCore_ne _ _ _ _ (fun h => hk (h ▸ hc)), fun k => ?_⟩
  by_cases hk : k = c
  · subst hk; rw [State.core_mapCore]
  · rw [State.core_mapCore_ne _ _ _ _ hk]

theorem raiseClocks_only (s : State) (r : Nat) : RailOnly r s (raiseClocks s r) := by
  refine RailOnly.foldl _ s fun s cl _ => ?_
  split
  · exact railOnly_setClock ..
  · exact .refl r s
theorem lowerClocks_only (s : State) (r : Nat) : RailOnly r s (lowerClocks s r) := by
  refine RailOnly.foldl _ s fun s cl _ => ?_
  split
  · exact railOnly_setClock ..
  · exact .refl r s

theorem followVotes_only (s : State) (r : Nat) : RailOnly r s (followVotes s r) := by
  unfold followVotes
  dsimp only
  split
  · exact (railOnly_setRail r r s _).trans ((startSteps_only _ r []).trans (raiseClocks_only _ r))
  · split
    · exact .refl r s
    · exact (railOnly_setRail r r s _).trans (startSteps_only _ r _)

/-- All that new owners of a rail's units change (R324, R325). -/
theorem revoteRail_only (s : State) (r : Nat) : RailOnly r s (revoteRail s r) :=
  (railOnly_setRail r r s _).trans ((followVotes_only _ r).trans (lowerClocks_only _ r))

theorem railOf_of_mem_railCores {k r : Nat} (h : k ∈ railCores r) : railOf (clusterOf k) = r := by
  obtain ⟨cl, hcl, hk⟩ := List.mem_flatMap.mp h
  obtain ⟨i, hi, rfl⟩ := List.mem_map.mp hcl
  obtain ⟨j, hj, rfl⟩ := List.mem_map.mp hk
  rw [List.mem_range] at hi hj
  unfold railOf clusterOf
  omega

/-- A core as its new entry takes effect: scrubs under way, and the buckets of its port full (R196, R314; log 30). -/
def assignedCore (s : State) (core : Nat) (v : BitVec 16) : Core :=
  let c := s.cycle core
  let k := { (s.core core).withEntry v with
    change := none
    splitFrom := if (s.core core).split = entrySplit v then (s.core core).splitFrom else c
    refillAt := c + 1024, pool := 0, netTurn := 0
    scrub := (scrubCols (s.core core) v).foldl (fun m x => put m x (c + 2048)) (s.core core).scrub }
  { k with buckets := (portParts k).foldl (fun m p => setD m 0 p (s.part p).rate) [] }

theorem lookup_foldl_put {α : Type} (l : List Nat) (v : α) (m : SMap α) {k : Nat} (h : k ∈ l ∨ lookup m k = some v) :
    lookup (l.foldl (fun m x => put m x v) m) k = some v := by
  induction l generalizing m with
  | nil => simpa using h
  | cons a l ih =>
    refine ih _ ?_
    by_cases ha : k = a
    · subst ha; exact .inr (lookup_put_self ..)
    · rw [lookup_put_ne _ _ _ _ ha]
      simpa [ha] using h

theorem getD_foldl_setD (f : Nat → Nat) (l : List Nat) (m : SMap Nat) {k : Nat} (h : k ∈ l ∨ getD m 0 k = f k) :
    getD (l.foldl (fun m p => setD m 0 p (f p)) m) 0 k = f k := by
  induction l generalizing m with
  | nil => simpa using h
  | cons a l ih =>
    refine ih _ ?_
    by_cases ha : k = a
    · subst ha; exact .inr (getD_setD_self ..)
    · rw [getD_setD_ne _ _ _ _ _ ha]
      simpa [ha] using h

section
variable {s : State} {core : Nat} {v : BitVec 16} (hchange : (s.core core).change = some v)
  (hgone : ∀ e ∈ s.wgs, e.2.core = core → e.2.col ∉ changedCols (s.core core) v)
  (hquiet : ∀ x ∈ changedCols (s.core core) v, unitQuiet s core x = true)
include hchange hgone hquiet

theorem coreAssignmentEffect_eq : coreAssignmentEffect core s =
    revoteRail (s.setCore core (assignedCore s core v)) (railOf (clusterOf core)) := by
  have hnone : onChanged s core v = [] := List.filter_eq_nil_iff.mpr fun w hw => by
    obtain ⟨e, he, rfl⟩ := List.mem_map.mp hw
    simpa using hgone e he
  have hall : (changedCols (s.core core) v).all (unitQuiet s core) = true := List.all_eq_true.mpr hquiet
  unfold coreAssignmentEffect
  simp only [hchange, hnone, hall]
  rfl

/-- What the effect of a new entry leaves (R196, R313, R314). -/
theorem coreAssignmentEffect_spec :
    let t := coreAssignmentEffect core s
    SameMemory s t ∧ t.sheets = s.sheets ∧ t.wgs = s.wgs ∧
      (∀ k, railOf (clusterOf k) ≠ railOf (clusterOf core) → t.core k = s.core k) ∧ (t.core core).split = v.getLsbD 15 ∧
      (t.core core).ownA = (v.setWidth 6).toNat ∧ (t.core core).ownB = ((v >>> 6).setWidth 6).toNat ∧
      (t.core core).change = none ∧ (t.core core).refillAt = s.cycle core + 1024 ∧
      (∀ c ∈ scrubCols (s.core core) v, lookup (t.core core).scrub c = some (s.cycle core + 2048)) ∧
      ∀ p ∈ portParts (t.core core), getD (t.core core).buckets 0 p = (s.part p).rate := by
  intro t
  have hrail : RailOnly (railOf (clusterOf core)) (s.setCore core (assignedCore s core v)) t := by
    have h := revoteRail_only (s.setCore core (assignedCore s core v)) (railOf (clusterOf core))
    rwa [← coreAssignmentEffect_eq hchange hgone hquiet] at h
  obtain ⟨hmem, hsheets, hwgs, hothers, hcores⟩ := hrail
  have hcore := hcores core
  rw [State.core_setCore] at hcore
  refine ⟨fun a => by rw [State.readByte, hmem]; rfl, hsheets, hwgs, fun k hk => ?_, by rw [hcore]; rfl,
    by rw [hcore]; exact entryA_eq v, by rw [hcore]; exact entryB_eq v, by rw [hcore]; rfl, by rw [hcore]; rfl,
    fun c hc => ?_, fun p hp => ?_⟩
  · rw [hothers k (fun h => hk (railOf_of_mem_railCores h)), State.core_setCore_ne]
    rintro rfl
    exact hk rfl
  · rw [hcore]
    exact lookup_foldl_put _ _ _ (.inl hc)
  · rw [hcore] at hp ⊢
    exact getD_foldl_setD (fun p => (s.part p).rate) _ _ (.inl hp)

end

/-! ## Virtual functions (R315) -/

theorem exec_vfAssignmentWrite {port vf p : Nat} (hport : port < 2) (hvf : vf < 1024) (hp : p < 64) (s : State) :
    exec (.vfAssignmentWrite port vf p) s = .next (vfAssignmentWrite port vf p s) :=
  runAt_ok (by simp [portOk, vfOk, hport, hvf, hp]) (vfAssignmentWrite port vf p) s

theorem vfAssignmentWrite_refused {port vf p : Nat} {s : State} (hsem : getD s.sems 0 2 = port + 1) (h : ∃ e ∈ s.grids, e.2.vf = vf) :
    vfAssignmentWrite port vf p s = refuse s :=
  guarded_none hsem (if_pos (by simpa using h))
theorem vfAssignmentWrite_taken {port vf p : Nat} {s : State} (hsem : getD s.sems 0 2 = port + 1) (h : ∀ e ∈ s.grids, e.2.vf ≠ vf) :
    vfAssignmentWrite port vf p s = carried (s.setVf vf { s.vf vf with part := if p < 40 then some p else none }) :=
  guarded_some hsem (if_neg (by simpa using h))

/-! ## Reduction groups (R236) -/

/-- The fields of a group's entry that are not RES0. -/
theorem groupWritten_getLsbD (v : BitVec 512) (b : Nat) : (groupWritten v).getLsbD b = (v.getLsbD b &&
    decide ((240 ≤ b ∧ b < 298) ∨ (303 ≤ b ∧ b < 332) ∨ (336 ≤ b ∧ b < 348) ∨ (352 ≤ b ∧ b < 512))) := by
  have h1 : bits v.toNat 240 58 * 2 ^ 240 < 2 ^ 303 := field_lt _ _ _ (by decide)
  have h2 := add_field_lt (k := 336) h1 v.toNat (n := 29) (by decide)
  have h3 := add_field_lt (k := 352) h2 v.toNat (n := 12) (by decide)
  unfold groupWritten
  rw [BitVec.getLsbD_ofNat, testBit_add_field h3, testBit_add_field h2, testBit_add_field h1, testBit_field, ← BitVec.getLsbD]
  by_cases hb : b < 512
  · cases v.getLsbD b <;> simp [hb, Bool.or_assoc]
  · simp [BitVec.getLsbD_of_ge v b (by omega)]

/-- A field of an entry that is not RES0 is as written. -/
theorem gField_groupWritten (v : BitVec 512) (l : List W64) {lo n : Nat}
    (h : 240 ≤ lo ∧ lo + n ≤ 298 ∨ 303 ≤ lo ∧ lo + n ≤ 332 ∨ 336 ≤ lo ∧ lo + n ≤ 348 ∨ 352 ≤ lo ∧ lo + n ≤ 512) :
    gField ⟨groupWritten v, l⟩ lo n = bits v.toNat lo n := by
  refine bits_congr fun i hi => ?_
  rw [← BitVec.getLsbD, groupWritten_getLsbD, decide_eq_true (by omega), Bool.and_true, BitVec.getLsbD]

section
variable {port part g : Nat} {s : State} {v : BitVec 512}

theorem exec_reductionGroupWrite (hport : port < 2) (hpart : part < 40) (hg : g < 64) (v : BitVec 512) (s : State) :
    exec (.reductionGroupWrite port part g v) s = .next (reductionGroupWrite port part g v s) :=
  runAt_ok (by simp [portOk, partOk, groupOk, hport, hpart, hg]) (reductionGroupWrite port part g v) s

/-- The member list of an entry, as its bytes give it. -/
def memberList (v : BitVec 512) (bs : List Byte) : List W64 :=
  (List.range (bits v.toNat 244 12)).map (fun k => BitVec.ofNat 64 (leNat ((bs.drop (8 * k)).take 8)))

/-- A group's entry and member list written. -/
def putGroup (s : State) (part g : Nat) (v : BitVec 512) (bs : List Byte) : State :=
  s.mapPart part (fun p => { p with groups := put p.groups g ⟨groupWritten v, memberList v bs⟩ })

/-- What a write of an entry makes of the state, by the fields of the bits written; nothing where it is refused (R236). -/
def groupTaken (s : State) (part g : Nat) (v : BitVec 512) : Option State :=
  if (s.vf (bits v.toNat 288 10)).part ≠ some part then none
  else
    match readVirtual s (bits v.toNat 288 10) (bits v.toNat 448 64) (8 * bits v.toNat 244 12) with
    | .error _ => none
    | .ok bs => if groupBad s ⟨groupWritten v, memberList v bs⟩ then none else some (putGroup s part g v bs)

theorem reductionGroupWrite_eq (port part g : Nat) (v : BitVec 512) (s : State) :
    reductionGroupWrite port part g v s = guarded port 3 s (fun s => groupTaken s part g v) := by
  have h288 := gField_groupWritten v [] (lo := 288) (n := 10) (by omega)
  have h448 := gField_groupWritten v [] (lo := 448) (n := 64) (by omega)
  have h244 : Group.nmem ⟨groupWritten v, []⟩ = bits v.toNat 244 12 := gField_groupWritten v [] (by omega)
  unfold reductionGroupWrite
  simp only [h288, h448, h244]
  rfl

theorem putGroup_spec (s : State) (part g : Nat) (v : BitVec 512) (bs : List Byte) :
    let t := carried (putGroup s part g v bs)
    t = { s with parts := t.parts, reply := 0 } ∧ (∀ k, k ≠ part → t.part k = s.part k) ∧
      t.group part g = some ⟨groupWritten v, memberList v bs⟩ ∧ ∀ k, k ≠ g → t.group part k = s.group part k := by
  have hpart : (putGroup s part g v bs).part part = { s.part part with
      groups := put (s.part part).groups g ⟨groupWritten v, memberList v bs⟩ } := State.part_mapPart ..
  refine ⟨rfl, fun k hk => (carried_part ..).trans (State.part_mapPart_ne _ _ _ _ hk), ?_, fun k hk => ?_⟩
  · rw [State.group, carried_part, hpart]
    exact lookup_put_self ..
  · rw [State.group, carried_part, hpart]
    exact lookup_put_ne _ _ _ _ hk

end

/-! ## Registers (R354) -/

section
variable {port : Nat} {s : State} {v : BitVec 128}

theorem exec_managementRegisterWrite (hport : port < 2) {r : MgmtReg} (hr : mgmtOk r = true) (v : BitVec 128) (s : State) :
    exec (.managementRegisterWrite port r v) s = .next (managementRegisterWrite port r v s) :=
  runAt_ok (by simp [portOk, hport, hr]) (managementRegisterWrite port r v) s

theorem managementRegister_needs (hport : port < 2) {r : MgmtReg} (hr : mgmtOk r = true) (v : BitVec 128) (s : State) :
    NeedsSemaphore (.managementRegisterWrite port r v) s port (MgmtReg.group r) := fun h =>
  (exec_managementRegisterWrite hport hr v s).trans (by rw [managementRegisterWrite, guarded_without h]; rfl)

/-- A reserved group is refused, whoever holds its semaphore. -/
theorem reservedRegister_refused (hport : port < 2) {g : Nat} (hg : 11 ≤ g) (hg' : g < 16) (v : BitVec 128) (s : State) :
    Refused (.managementRegisterWrite port (.reserved g) v) s := by
  refine (exec_managementRegisterWrite hport (by simp [mgmtOk, hg, hg']) v s).trans (congrArg _ ?_)
  by_cases h : getD s.sems 0 g = port + 1
  · exact guarded_none h rfl
  · exact guarded_without h _

/-- The bits of FDISP that are not RES0 (R280). -/
theorem fdisp_written (v : BitVec 128) : w64 (bits v.toNat 2 50 * 4) = v.setWidth 64 &&& 0xFFFFFFFFFFFFC := by
  have mask : ∀ i : Fin 64, (0xFFFFFFFFFFFFC : BitVec 64).getLsbD i = decide (2 ≤ i.val ∧ i.val < 52) := by decide
  refine BitVec.eq_of_getLsbD_eq fun i hi => ?_
  rw [w64, BitVec.getLsbD_ofNat, show bits v.toNat 2 50 * 4 = bits v.toNat 2 50 * 2 ^ 2 from rfl, testBit_field,
    BitVec.getLsbD_and, BitVec.getLsbD_setWidth, mask ⟨i, hi⟩, ← BitVec.getLsbD]
  simp [hi]

/-- A route written: links 0 to 11 and the Ethernet ports, and no other number, are routes (log 95). -/
theorem lookup_route (routes : SMap Nat) (dev n k : Nat) :
    lookup (if n < 12 ∨ (16 ≤ n ∧ n < 20) then put routes dev n else drop routes dev) k =
      if k = dev then (if n < 12 ∨ (16 ≤ n ∧ n < 20) then some n else none) else lookup routes k := by
  by_cases hk : k = dev
  · subst hk
    rw [if_pos rfl]
    split
    · exact lookup_put_self ..
    · exact lookup_drop_self ..
  · rw [if_neg hk]
    split
    · exact lookup_put_ne _ _ _ _ hk
    · exact lookup_drop_ne _ _ _ hk

/-- The dirty-tracking descriptor as written: its RES0 bits are 0 (R309). -/
def dirtyWritten (v : BitVec 128) : BitVec 128 :=
  BitVec.ofNat 128 (v.toNat % 2 + bits v.toNat 12 80 * 2 ^ 12 + bits v.toNat 96 32 * 2 ^ 96)

theorem dirtyWritten_getLsbD (v : BitVec 128) (b : Nat) :
    (dirtyWritten v).getLsbD b = (v.getLsbD b && decide (b < 1 ∨ (12 ≤ b ∧ b < 92) ∨ 96 ≤ b)) := by
  have h1 : v.toNat % 2 < 2 ^ 12 := by omega
  have h2 := add_field_lt (k := 96) h1 v.toNat (n := 80) (by decide)
  unfold dirtyWritten
  rw [BitVec.getLsbD_ofNat, testBit_add_field h2, testBit_add_field h1, ← BitVec.getLsbD,
    show v.toNat % 2 = v.toNat % 2 ^ 1 from rfl, Nat.testBit_mod_two_pow, ← BitVec.getLsbD]
  by_cases hb : b < 128
  · cases v.getLsbD b <;> simp [hb, Bool.or_assoc]
  · simp [BitVec.getLsbD_of_ge v b (by omega)]

theorem bits_dirtyWritten (v : BitVec 128) {lo n : Nat} (h : 12 ≤ lo ∧ lo + n ≤ 92 ∨ 96 ≤ lo) :
    bits (dirtyWritten v).toNat lo n = bits v.toNat lo n := by
  refine bits_congr fun i hi => ?_
  rw [← BitVec.getLsbD, dirtyWritten_getLsbD, decide_eq_true (by omega), Bool.and_true, BitVec.getLsbD]

/-- EN, the bitmap's place and the region of a descriptor as written (R309). -/
theorem dirtyWritten_fields {p : Part} (h : p.dirty = dirtyWritten v) : p.dirty.getLsbD 0 = v.getLsbD 0 ∧
    bmBase p = bits v.toNat 12 40 * 4096 ∧ bmFirst p = bits v.toNat 52 40 ∧ bmCount p = bits v.toNat 96 32 := by
  simp only [bmBase, bmFirst, bmCount, h]
  refine ⟨by rw [dirtyWritten_getLsbD]; simp, ?_, ?_, ?_⟩ <;> rw [bits_dirtyWritten v (by omega)]

end

/-- Settles O54: each table and register by the lemma about its write. -/
theorem managementWrites : Obligations.ManagementWrites := by
  intro s port part hport hpart
  refine ⟨fun v => ?_, fun core v hcore => ?_, fun vf p hvf hp => ?_, fun g v hg => ?_, ?_, fun v vf hvf => ?_⟩
  · have hexec := exec_partitionTableWrite hport hpart v s
    refine ⟨fun h => hexec.trans (congrArg _ (guarded_without h _)), fun hsem hbad =>
      hexec.trans (congrArg _ (partitionTableWrite_refused hsem hbad)),
      fun hsem hmemw hrate hfloor hcap hcap' hshared hsum hpol => does_next hexec ?_⟩
    rw [partitionTableWrite_taken hsem (by unfold partOutOfRange; omega) hshared hsum hpol]
    obtain ⟨hmem, hsheets, hothers, hfields⟩ := partTaken_spec s part v
    generalize partTaken s part v.toNat = x at hmem hsheets hothers hfields ⊢
    have hbytes : ∀ a, x.readByte a = s.readByte a := fun a => by rw [State.readByte, hmem]; rfl
    split
    · refine ⟨hbytes, rfl, hsheets, hothers, hfields, fun _ _ e he => ?_⟩
      simpa using (List.mem_filter.mp he).2
    · next hkeeps =>
      refine ⟨hbytes, rfl, hsheets, hothers, hfields, fun hvalid hclear => absurd ?_ hkeeps⟩
      rw [bitAt_toNat, hclear, hvalid]
      rfl
  · have hexec := exec_coreAssignmentWrite hport hcore v s
    refine ⟨fun h => hexec.trans (congrArg _ (guarded_without h _)), fun hsem hbad =>
      hexec.trans (congrArg _ (coreAssignmentWrite_refused hsem ?_)), fun hsem hA hB hwhole hmixed => does_next hexec ?_,
      fun hchange hgone hquiet => does_next (exec_coreAssignmentEffect hcore s) (coreAssignmentEffect_spec hchange hgone hquiet)⟩
    · unfold entryBad
      rw [entryA_eq, entryB_eq]
      exact hbad.imp_right .inr
    · rw [coreAssignmentWrite_taken hsem ?_ hmixed]
      · exact askAll_changed s core v
      · unfold entryBad
        rw [entryA_eq, entryB_eq]
        rintro (h | h | ⟨h, h'⟩)
        · omega
        · omega
        · exact h' (hwhole h)
  · have hexec := exec_vfAssignmentWrite hport hvf hp s
    refine ⟨fun h => hexec.trans (congrArg _ (guarded_without h _)), fun hsem hused =>
      hexec.trans (congrArg _ (vfAssignmentWrite_refused hsem hused)), fun hsem hfree => does_next hexec ?_⟩
    rw [vfAssignmentWrite_taken hsem hfree]
    exact ⟨rfl, fun k hk => State.vf_setVf_ne _ _ _ _ hk, State.vf_setVf ..⟩
  · have hexec := exec_reductionGroupWrite hport hpart hg v s
    rw [reductionGroupWrite_eq] at hexec
    refine ⟨fun h => hexec.trans (congrArg _ (guarded_without h _)), groupWritten_getLsbD v, fun hsem howner =>
      hexec.trans (congrArg _ (guarded_none hsem (if_pos howner))), fun hsem howner => ⟨fun f hf =>
      hexec.trans (congrArg _ (guarded_none hsem ?_)), fun bs l hbs hl => ?_⟩⟩
    · rw [groupTaken, if_neg (not_not.mpr howner), hf]
    · subst hl
      refine ⟨fun hbad => hexec.trans (congrArg _ (guarded_none hsem ?_)), fun hgood => does_next
        (hexec.trans (congrArg _ (guarded_some hsem ?_))) (putGroup_spec s part g v bs)⟩
      · rw [groupTaken, if_neg (not_not.mpr howner), hbs]
        exact if_pos hbad
      · rw [groupTaken, if_neg (not_not.mpr howner), hbs]
        exact if_neg (by rw [memberList, hgood]; decide)
  · refine does_next (runAt_ok (decide_eq_true hpart) (pinRelease part) s) ⟨rfl, fun e => ?_⟩
    exact List.mem_filter.trans (and_congr_right fun _ => bne_iff_ne)
  · have hfdisp : mgmtOk (.fdisp part) = true := decide_eq_true hpart
    have htroot : mgmtOk (.troot vf) = true := decide_eq_true hvf
    have hdirty : mgmtOk (.dirty part) = true := decide_eq_true hpart
    have htable : mgmtOk (.seqTable part) = true := decide_eq_true hpart
    have htakes : ∀ (r : MgmtReg), mgmtOk r = true → ∀ {t : State}, managementRegisterWrite port r v s = t →
        exec (.managementRegisterWrite port r v) s = .next t :=
      fun r hr t ht => (exec_managementRegisterWrite hport hr v s).trans (congrArg _ ht)
    refine ⟨managementRegister_needs hport hfdisp v s, managementRegister_needs hport htroot v s,
      managementRegister_needs hport rfl v s, managementRegister_needs hport hdirty v s,
      managementRegister_needs hport rfl v s, fun g hg hg' => reservedRegister_refused hport hg hg' v s,
      fun hsem => ⟨htakes _ rfl (guarded_some hsem rfl),
        htakes _ rfl (guarded_some (t := { s with deviceNo := v.toNat % 4096 }) hsem rfl), fun dev hdev => ?_⟩,
      managementRegister_needs hport htable v s, fun hsem => ?_, fun hsem => ⟨?_, ?_⟩, fun hsem => ?_, fun hsem => ?_, fun hsem => ?_⟩
    · refine does_next (htakes (.route dev) (decide_eq_true hdev) (guarded_some hsem rfl)) ⟨rfl, ?_, fun k hk => ?_⟩
      · exact (lookup_route ..).trans (if_pos rfl)
      · exact (lookup_route ..).trans (if_neg hk)
    · split
      · next hplace =>
        obtain ⟨hreply, hothers, hself, hmem⟩ := carried_startTable (s := s) (part := part)
          (f := fun q => { q with precopy := { q.precopy with table := v.toNat } }) rfl rfl
        exact does_next (htakes _ htable (guarded_some hsem (if_pos hplace))) ⟨hreply, hothers, hself, hmem⟩
      · next hplace => exact htakes _ htable (guarded_none hsem (if_neg hplace))
    · refine does_next (htakes _ hfdisp (guarded_some hsem rfl)) ⟨rfl, fun k hk => carried_mapPart_ne _ _ _ hk, ?_⟩
      rw [carried_mapPart, fdisp_written]
    · exact does_next (htakes (.wdlim part) hfdisp (guarded_some hsem rfl)) ⟨rfl, carried_mapPart ..⟩
    · exact does_next (htakes _ htroot (guarded_some hsem rfl)) ⟨rfl, State.vf_setVf ..⟩
    · split
      · next hle => exact htakes _ rfl (guarded_some (t := { s with enga := v.toNat % 2 ^ 64 }) hsem (if_pos hle))
      · next hle => exact htakes _ rfl (guarded_none hsem (if_neg hle))
    · refine does_next (htakes _ hdirty (guarded_some (t := s.mapPart part (fun q => { q with dirty := dirtyWritten v })) hsem rfl))
        ⟨rfl, ?_⟩
      rw [carried_mapPart]
      exact dirtyWritten_fields rfl

end Sys2Proof.Machine
end

section

namespace Sys2Proof.Machine

/-! ## Results that land (R70, R71) -/

/-- What has not landed was on its way before. -/
theorem mem_landGo_flights {p : Flight → Bool} {g : Flight} : ∀ (l : List Flight) (b : List (FUnit × Nat)) (sh : Sheet) (k : List Flight),
    g ∈ (landGo p l b sh k).flights → g ∈ l ∨ g ∈ k
  | [], _, _, k, h => .inr (List.mem_reverse.mp h)
  | f :: r, b, sh, k, h => by
    unfold landGo at h
    split at h
    · exact (mem_landGo_flights r b _ k h).imp_left (List.mem_cons_of_mem _)
    · rcases mem_landGo_flights r _ sh (f :: k) h with h | h
      · exact .inl (List.mem_cons_of_mem _ h)
      · rcases List.mem_cons.mp h with rfl | h
        · exact .inl List.mem_cons_self
        · exact .inr h

/-- A latch all of whose results have a value and land has none on its way. -/
theorem landGo_clears {p : Flight → Bool} {u : FUnit} {t : Nat} : ∀ (l : List Flight) (b : List (FUnit × Nat)) (sh : Sheet) (k : List Flight),
    (∀ g ∈ l, g.unit = u → g.thread = t → g.ready = true ∧ p g = true) → (u, t) ∉ b → (∀ g ∈ k, ¬ (g.unit = u ∧ g.thread = t)) →
      ∀ g ∈ (landGo p l b sh k).flights, ¬ (g.unit = u ∧ g.thread = t)
  | [], _, _, k, _, _, hk, g, hg => hk g (List.mem_reverse.mp hg)
  | f :: r, b, sh, k, hl, hb, hk, g, hg => by
    have hr := fun g (hg : g ∈ r) => hl g (List.mem_cons_of_mem _ hg)
    unfold landGo at hg
    split at hg
    · exact landGo_clears r b _ k hr hb hk g hg
    · next hstays =>
      have hf : ¬ (f.unit = u ∧ f.thread = t) := by
        rintro ⟨rfl, rfl⟩
        obtain ⟨hready, hp⟩ := hl f List.mem_cons_self rfl rfl
        exact hstays (by simp [hready, hp, hb])
      refine landGo_clears r _ sh (f :: k) hr ?_ ?_ g hg
      · rw [List.mem_cons, not_or]
        exact ⟨fun h => hf ⟨(congrArg Prod.fst h).symm, (congrArg Prod.snd h).symm⟩, hb⟩
      · intro g hg
        rcases List.mem_cons.mp hg with rfl | hg
        · exact hf
        · exact hk g hg

/-- The last result on its way to a latch, alone there and landing, is what the latch holds. -/
theorem landGo_last {p : Flight → Bool} {f : Flight} {v : W64} (hp : p f = true) (hready : f.ready = true) (hq : f.q = some v) (hw : f.w = none) :
    ∀ (l : List Flight) (b : List (FUnit × Nat)) (sh : Sheet) (k : List Flight),
      (∀ g ∈ l, ¬ (g.unit = f.unit ∧ g.thread = f.thread)) → (f.unit, f.thread) ∉ b →
        (landGo p (l ++ [f]) b sh k).getQ f.unit 0 f.thread = v
  | [], b, sh, k, _, hb => by
    rw [List.nil_append]
    unfold landGo
    rw [if_pos (by simp [hp, hready, hb])]
    unfold landGo Sheet.deliver
    rw [hq, hw]
    exact getD_setD_self ..
  | g :: r, b, sh, k, hl, hb => by
    have hr := fun g (hg : g ∈ r) => hl g (List.mem_cons_of_mem _ hg)
    rw [List.cons_append]
    unfold landGo
    split
    · exact landGo_last hp hready hq hw r b _ k hr hb
    · refine landGo_last hp hready hq hw r _ sh _ hr ?_
      rw [List.mem_cons, not_or]
      exact ⟨fun h => hl g List.mem_cons_self ⟨(congrArg Prod.fst h).symm, (congrArg Prod.snd h).symm⟩, hb⟩

/-- A value delivered to a latch that nothing else is on its way to lands at once. -/
theorem getQ_deliverStalling {y : Sheet} {u : FUnit} {t : Nat} (v : W64) (h : ∀ g ∈ y.flights, ¬ (g.unit = u ∧ g.thread = t)) :
    (y.deliverStalling u t (some v) none).getQ u 0 t = v :=
  landGo_last (f := ⟨u, t, y.nextId, some v, none, true, true, false, 0⟩) rfl rfl rfl rfl y.flights [] _ [] h (by simp)

theorem deliverStalling_frame (y : Sheet) (u : FUnit) (t : Nat) (q w : Option W64) : ∃ f lat,
    y.deliverStalling u t q w = { y with flights := f, lat := lat, nextId := y.nextId + 1 } := by
  obtain ⟨f, lat, h⟩ := landWhere_frame (y.addFlight u t q w true true false 0) (fun f => f.stalling)
  exact ⟨f, lat, h⟩

/-! ### As an operation alone begins to issue -/

theorem le_passStarts_head (cap from_ col : Nat) (slot : Nat → Bool) (ms : List SavedMove) (n p c d : Nat) (hd : c ≤ d) :
    c ≤ (passStarts cap from_ col slot ms n p c).1.getD 0 d := by
  cases n with
  | zero => exact hd
  | succ n =>
    unfold passStarts
    dsimp only
    rw [List.getD_cons_zero]
    have : c ≤ if slot p then ownedCycle from_ col c else c := by
      unfold ownedCycle
      split
      · split <;> omega
      · exact le_rfl
    omega

/-- The first pass reads no earlier than now. -/
theorem now_le_opCycle {s : State} {sh : Sheet} {m : Move} (hw : sh.issuing = none) : s.now ≤ opCycle s sh m 0 := by
  have hn : sh.issued? = [] := by unfold Sheet.issued?; rw [hw]; rfl
  unfold opCycle readCycle issueTimes
  simp only [hn, List.nil_append, List.length_nil]
  exact le_passStarts_head _ _ _ _ _ _ _ _ _ le_rfl

theorem opSheet_flights (s : State) (sh : Sheet) (m : Move) : (opSheet s sh m).flights = (sh.atIssue (opCycle s sh m)).flights := by
  unfold opSheet begunSheet beginIssue beginSheet
  rw [startCycles_sheet?]
  simp only [State.sheet?_setSheet, Option.map_some, Option.getD_some]
  split <;> rfl

/-- A uniform port whose results are there by now has none on its way when the sheet issues. -/
theorem opSheet_portFree {s : State} {sh : Sheet} {m : Move} {u : FUnit} (hw : sh.issuing = none)
    (h : ∀ f ∈ sh.flights, f.unit = u → f.thread = 0 → f.ready = true ∧ f.stalling = false ∧ f.due ≤ s.now) :
    ∀ g ∈ (opSheet s sh m).flights, ¬ (g.unit = u ∧ g.thread = 0) := by
  have hland : ∀ g ∈ (sh.landWhere (fun f => f.stalling || decide (f.due ≤ opCycle s sh m (f.thread / 32)))).flights,
      ¬ (g.unit = u ∧ g.thread = 0) := by
    refine landGo_clears sh.flights [] sh [] (fun g hg hu ht => ?_) (by simp) (by simp)
    obtain ⟨hready, -, hdue⟩ := h g hg hu ht
    refine ⟨hready, ?_⟩
    rw [ht, Nat.zero_div, decide_eq_true (hdue.trans (now_le_opCycle hw)), Bool.or_true]
  rw [opSheet_flights]
  unfold Sheet.atIssue Sheet.endWait
  intro g hg
  dsimp only at hg
  split at hg
  · rcases mem_landGo_flights _ _ _ _ hg with hg | hg
    · obtain ⟨f, hf, rfl⟩ := List.mem_map.mp hg
      have := hland f hf
      split <;> exact this
    · cases hg
  · exact hland g hg

/-- A value that an operation alone delivers to its uniform port lands (R71). -/
theorem lands_deliver {s : State} {sh y : Sheet} {m : Move} {u : FUnit} (hw : sh.issuing = none)
    (hy : y.flights = (opSheet s sh m).flights) (v : W64) : Lands s sh (y.deliverStalling u 0 (some v) none) u 0 v := fun h =>
  getQ_deliverStalling v (hy ▸ opSheet_portFree hw h)

/-- The effect of an operation alone that acts once, in pass 0. -/
theorem opEffect_once {s : State} {sh : Sheet} {m : Move} {u : FUnit} {o : OpMeaning} {f : TrigCtx → Nat → State → State}
    (hw : sh.issuing = none) (hp : 0 < sh.passes) (hr : opRuns s sh m) (hctl : o.control = false)
    (hf : ∀ x p c e, o.effect x p c e = if p = 0 then f x c e else e) :
    opEffect s sh m u o = o.finish (opCtx s sh m u) (f (opCtx s sh m u) (opCycle s sh m 0) (opBegun s sh m).drew) := by
  have hexec : ¬ (opMove s sh m).exec = 0 := hr
  have hlen := opTimes_length (s := s) (m := m) hw
  have hhead : opCycle s sh m 0 = (opTimes s sh m).1.getD 0 (s.cycle (coreOf s.focus)) := rfl
  unfold opEffect
  simp only [hexec, hctl, Bool.false_eq_true, or_self, if_false, hf]
  rw [hhead]
  cases hl : (opTimes s sh m).1 with
  | nil => rw [hl] at hlen; simp at hlen; omega
  | cons c r =>
    have hrest : ∀ (l : List Nat) (n : Nat) (e : State), (l.zipIdx (n + 1)).foldl (fun e (cp : Nat × Nat) =>
        if cp.2 = 0 then f (opCtx s sh m u) cp.1 e else e) e = e := by
      intro l
      induction l with
      | nil => exact fun _ _ => rfl
      | cons a l ih => exact fun n e => ih (n + 1) e
    rw [List.zipIdx_cons, List.foldl_cons, List.getD_cons_zero, if_pos rfl]
    exact congrArg _ (hrest r 0 _)

/-! ## CSRWR (R392) -/

theorem TrigCtx.csr_of_tv {x : TrigCtx} {n : Nat} (hx : x.tv = BitVec.ofNat 64 n) (hn : n < 2 ^ 12) : x.csr = n := by
  unfold TrigCtx.csr
  rw [hx, BitVec.toNat_ofNat]
  omega

/-- A number of R391 is no illegal one. -/
theorem csrBad_of_known {x : TrigCtx} {n : Nat} (hx : x.tv = BitVec.ofNat 64 n) (hn : n < 2 ^ 12) (hk : csrKnown n = true) :
    csrBad x = false := by
  unfold csrBad
  rw [TrigCtx.csr_of_tv hx hn, hk, hx, BitVec.toNat_ofNat, Nat.mod_eq_of_lt (by omega)]
  simpa using hn

theorem firstFault_nil {x : TrigCtx} {l : List (Bool × Flt)} (h : ∀ p ∈ l, p.1 = false) : firstFault x l = [] := by
  unfold firstFault
  rw [List.find?_eq_none.mpr (fun p hp => by simp [h p hp])]

/-- The registers that have rules of their own for a write, beside the bank formats. -/
def csrSpecial (n : Nat) : Bool := n = 0x001 || n = 0x004 || n = 0x120

theorem csrSpecial_false {n : Nat} (h : csrSpecial n = false) : n ≠ 0x001 ∧ n ≠ 0x004 := by
  unfold csrSpecial at h
  simp only [Bool.or_eq_false_iff, decide_eq_false_iff_not] at h
  exact h.1

theorem csrBank_ordinary {n : Nat} {k : Bool × Nat} (h : csrBank n = some k) : csrSpecial n = false := by
  unfold csrSpecial
  by_contra hs
  simp only [Bool.not_eq_false, Bool.or_eq_true, decide_eq_true_eq, or_assoc] at hs
  rcases hs with rfl | rfl | rfl <;> cases h

/-- A register outside XPCFG and the bank formats has no rule of its own that refuses. -/
theorem csrwrCheck_plain {x : TrigCtx} (hbad : csrBad x = false) (hb : csrBank x.csr = none) (h4 : x.csr ≠ 0x004) : csrwrCheck x = [] := by
  refine firstFault_nil (fun p hp => ?_)
  rw [hb] at hp
  have : p = (csrBad x, Cause.moveIllegal.flt) := by
    rcases hw : x.wgp with _ | w <;> simpa [hw, h4] using hp
  rw [this, hbad]

theorem csrwrCheck_bank {x : TrigCtx} {w : Workgroup} {isA : Bool} {b : Nat} (hbad : csrBad x = false) (hb : csrBank x.csr = some (isA, b))
    (hw : x.wgp = some w) (hv : bankExists w isA b = true → (x.x 0 0).toNat % 16 < 11) : csrwrCheck x = [] := by
  have h4 : x.csr ≠ 0x004 := fun h => by rw [h] at hb; cases hb
  refine firstFault_nil (fun p hp => ?_)
  rw [hb, hw] at hp
  have : p = (csrBad x, Cause.moveIllegal.flt) ∨
      p = (bankExists w isA b && decide (11 ≤ (x.x 0 0).toNat % 16), Cause.moveIllegal.flt) := by simpa [h4] using hp
  rcases this with rfl | rfl
  · exact hbad
  · cases he : bankExists w isA b
    · rfl
    · simpa using hv he

theorem csrwrCheck_xpcfg {x : TrigCtx} {w : Workgroup} (hbad : csrBad x = false) (h4 : x.csr = 0x004) (hw : x.wgp = some w)
    (hsize : xpOffset (x.x 0 0) + 64 ≤ w.aSize) (hvalid : xpValid (xpImage w (x.x 0 0)) = true) : csrwrCheck x = [] := by
  refine firstFault_nil (fun p hp => ?_)
  rw [h4, hw] at hp
  have : p = (csrBad x, Cause.moveIllegal.flt) ∨ p = (decide (w.aSize < xpOffset (x.x 0 0) + 64), ⟨.spaceBounds, 0, w64 (xpOffset (x.x 0 0))⟩) ∨
      p = (!xpHeld x && !xpStored x && !xpValid (xpImage w (x.x 0 0)), Cause.moveIllegal.flt) := by
    simpa [show csrBank 0x004 = none from rfl] using hp
  rcases this with rfl | rfl | rfl
  · exact hbad
  · simpa using hsize
  · simp [hvalid]

/-! ### Its effect, register by register -/

/-- The sheet held by a write of a register, with the result pending. -/
def csrHeld (x : TrigCtx) (image : BitVec 512) (e : State) : State :=
  setSys (openSys e x.sid).1 x.sid (.csr ⟨x.csr, x.x 0 0, image, (openSys e x.sid).2⟩)

theorem csrwrEffect_xpcfg {x : TrigCtx} {c : Nat} {e : State} {w : Workgroup} (h : x.csr = 0x004) (hw : x.wgp = some w) :
    csrwrEffect x c e = csrHeld x (xpImage w (x.x 0 0)) e := by
  unfold csrwrEffect csrHeld
  rw [h, hw]
  rfl

theorem csrwrEffect_overflow {x : TrigCtx} {c : Nat} {e : State} (h : x.csr = 0x120) :
    csrwrEffect x c e = x.deliver 0 (e.mapWg x.sh.wg (fun w => { w with iovf := w.iovf && !(x.x 0 0).getLsbD 0 })) := by
  unfold csrwrEffect
  rw [h]
  rfl

theorem csrwrEffect_bank {x : TrigCtx} {c : Nat} {e : State} {w : Workgroup} {isA : Bool} {b : Nat} (h : csrBank x.csr = some (isA, b))
    (hw : x.wgp = some w) : csrwrEffect x c e =
      if bankExists w isA b = false then x.deliver 0 e else if bankHeld e x.sh.wg w isA b then csrHeld x 0 e
      else x.deliver 0 (writeBank e x.sid x.sh.wg isA b c (x.x 0 0)) := by
  unfold csrwrEffect csrHeld
  rw [hw]
  obtain ⟨e', id⟩ := openSys e x.sid
  generalize x.csr = n at *
  dsimp only
  split
  · cases h
  · cases h
  · cases h
  · cases h.symm.trans ‹csrBank _ = some _›
    cases ‹some w = some _›
    rfl
  · next hno => exact absurd rfl (hno isA b w h)

theorem csrwrEffect_plain {x : TrigCtx} {c : Nat} {e : State} (h : csrBank x.csr = none) (hs : csrSpecial x.csr = false) :
    csrwrEffect x c e = x.deliver 0 (e.mapSheet x.sid (csrwrNow x.csr (x.x 0 0))) := by
  unfold csrwrEffect
  obtain ⟨e', id⟩ := openSys e x.sid
  generalize x.csr = n at *
  dsimp only
  split
  · cases hs
  · cases hs
  · cases hs
  · cases h.symm.trans ‹csrBank _ = some _›
  · rfl

/-! ### An operation alone -/

/-- What an operation must leave of the sheet for its bundle to end in the plain way. -/
def Sheet.KeptBy (sh y : Sheet) : Prop := y.armed = sh.armed ∧ y.skip = sh.skip ∧ y.width = sh.width ∧ y.gone = sh.gone

/-- A write that its register's rules allow runs: its effect, and what follows it. -/
theorem csrwr_runs {h : Head} {s : State} {sh y : Sheet} {m : Move} (hi : (Instr.csrwr h).move = some m) (hc : CanIssue s sh m .sys)
    (hready : csrwrMeaning.ready (opCtx s sh m .sys) = true)
    (hcheck : csrwrCheck (opCtx s sh m .sys) = [])
    (he : (opEffect s sh m .sys csrwrMeaning).sheet? s.focus = some y) (hmem : (opEffect s sh m .sys csrwrMeaning).mem = s.mem)
    (hy : sh.KeptBy y) : ∃ t z, exec (.csrwr h) s = .next t ∧ t.sheet? s.focus = some z ∧ SameMemory s t ∧
      t.wgs = (opEffect s sh m .sys csrwrMeaning).wgs ∧ y.Issued z := by
  obtain ⟨harmed, hskip, hwidth, hgone⟩ := hy
  have hmay := hc.mayIssue
  unfold Sheet.mayIssue at hmay
  simp only [Bool.and_eq_true, beq_iff_eq] at hmay
  obtain ⟨⟨⟨⟨-, hnoskip⟩, -⟩, -⟩, -⟩ := hmay
  obtain ⟨t, z, ht, hset⟩ := runOp_plain (o := csrwrMeaning) hi hc rfl (fun _ => rfl) (fun _ => hready) (fun _ => ⟨hcheck, hcheck⟩) rfl
    (.inl (by decide)) he ⟨harmed.trans hc.quiet, hskip.trans hnoskip, (left_of_fields hwidth hgone).trans hc.left⟩
  obtain ⟨l, cs, ps, ag, hrest⟩ := hset.rest
  refine ⟨t, z, ht, hset.sheet, fun a => ?_, by rw [hrest], hset.like⟩
  unfold State.readByte
  rw [hrest]
  exact congrArg (getD · memDefault a) hmem

section
variable {h : Head} {s : State} {sh : Sheet} {m : Move}

theorem opCtx_here {u : FUnit} : (opBegun s sh m).drew.sheet? (opCtx s sh m u).sid = some (opSheet s sh m) := opBegun_sheet? s sh m

theorem opBegun_mem (s : State) (sh : Sheet) (m : Move) : (opBegun s sh m).mem = s.mem := by
  obtain ⟨l, hl⟩ := opBegun_rest s sh m
  rw [hl]

theorem opBegun_wgs (s : State) (sh : Sheet) (m : Move) : (opBegun s sh m).wgs = s.wgs := by
  obtain ⟨l, hl⟩ := opBegun_rest s sh m
  rw [hl]

theorem opSheet_kept (s : State) (sh : Sheet) (m : Move) : sh.KeptBy (opSheet s sh m) := by
  obtain ⟨f, lat, cf, ho⟩ := opSheet_frame s sh m
  rw [ho]
  exact ⟨rfl, rfl, rfl, rfl⟩

/-- The registers written at once, and nothing else of the sheet. -/
theorem csrwrNow_frame (k : Nat) (v : W64) (y : Sheet) : ∃ p a b c d,
    csrwrNow k v y = { y with fpcr := p, cfeSoft := a, cfeGdx := b, markArm := c, markLog := d } := by
  unfold csrwrNow
  split <;> exact ⟨_, _, _, _, _, rfl⟩

theorem csrwrNow_sysWord {y z : Sheet} (hyz : sysWord y = sysWord z) (k : Nat) (v : W64) :
    sysWord (csrwrNow k v y) = sysWord (csrwrNow k v z) := by
  unfold sysWord at hyz
  simp only [Prod.mk.injEq] at hyz
  obtain ⟨h1, h2, h3, h4, h5, h6⟩ := hyz
  unfold csrwrNow sysWord
  split <;> simp [h1, h2, h3, h4, h5, h6]

theorem csrwr_effect_eq (hc : CanIssue s sh m .sys) (hp : 0 < sh.passes) (hr : opRuns s sh m) (hn : (opCtx s sh m .sys).csr ≠ 0x001) :
    opEffect s sh m .sys csrwrMeaning = csrwrEffect (opCtx s sh m .sys) (opCycle s sh m 0) (opBegun s sh m).drew := by
  rw [opEffect_once (f := csrwrEffect) hc.whole hp hr rfl (fun _ _ _ _ => rfl)]
  exact if_neg hn

/-- A write that delivers 0 once it is made: what the sheet's registers then are. -/
theorem csrwr_delivers {k : Nat} {v : W64} {e : State} (hi : (Instr.csrwr h).move = some m) (hc : CanIssue s sh m .sys)
    (hp : 0 < sh.passes) (hr : opRuns s sh m) (hready : csrwrMeaning.ready (opCtx s sh m .sys) = true)
    (hcheck : csrwrCheck (opCtx s sh m .sys) = []) (hn : (opCtx s sh m .sys).csr ≠ 0x001)
    (heff : csrwrEffect (opCtx s sh m .sys) (opCycle s sh m 0) (opBegun s sh m).drew = (opCtx s sh m .sys).deliver 0 e)
    (he : e.sheet? s.focus = some (csrwrNow k v (opSheet s sh m))) (hmem : e.mem = s.mem) :
    ∃ t z, exec (.csrwr h) s = .next t ∧ t.sheet? s.focus = some z ∧ SameMemory s t ∧ t.wgs = e.wgs ∧
      Lands s sh z .sys 0 0 ∧ z.fpsr = sh.fpsr ∧ sysWord z = sysWord (csrwrNow k v sh) ∧ z.drift = sh.drift := by
  obtain ⟨p, a, b, c, d, hnow⟩ := csrwrNow_frame k v (opSheet s sh m)
  obtain ⟨f, lat, cf, ho⟩ := opSheet_frame s sh m
  obtain ⟨f', lat', hd⟩ := deliverStalling_frame (csrwrNow k v (opSheet s sh m)) .sys 0 (some 0) none
  have heq := csrwr_effect_eq hc hp hr hn
  rw [heff] at heq
  have hlands := lands_deliver (s := s) (sh := sh) (m := m) (u := .sys) (y := csrwrNow k v (opSheet s sh m)) hc.whole (by rw [hnow]) 0
  have hword : sysWord (csrwrNow k v (opSheet s sh m)) = sysWord (csrwrNow k v sh) := csrwrNow_sysWord (by rw [ho]; rfl) k v
  obtain ⟨t, z, ht, hz, hsame, hwgs, i, dr, nx, lp, pc, nest, mk, rc, st, hlike⟩ := csrwr_runs hi hc hready hcheck
    (y := (csrwrNow k v (opSheet s sh m)).deliverStalling .sys 0 (some 0) none)
    (by rw [heq]; unfold TrigCtx.deliver; exact (State.sheet?_mapSheet ..).trans (by rw [show (opCtx s sh m .sys).sid = s.focus from rfl, he]; rfl))
    (by rw [heq]; exact (State.mapSheet_mem ..).trans hmem)
    (by rw [hd, hnow]; exact opSheet_kept s sh m)
  refine ⟨t, z, ht, hz, hsame, ?_, fun hl => ?_, ?_, ?_, ?_⟩
  · rw [hwgs, heq]; exact State.mapSheet_wgs ..
  · rw [hlike]; exact hlands hl
  · rw [hlike, hd, hnow, ho]
  · rw [← hword, hlike, hd]; rfl
  · rw [hlike, hd, hnow, ho]

/-- A write that holds the sheet, with its result pending. -/
theorem csrwr_holds {image : BitVec 512} (hi : (Instr.csrwr h).move = some m) (hc : CanIssue s sh m .sys)
    (hp : 0 < sh.passes) (hr : opRuns s sh m) (hready : csrwrMeaning.ready (opCtx s sh m .sys) = true)
    (hcheck : csrwrCheck (opCtx s sh m .sys) = []) (hn : (opCtx s sh m .sys).csr ≠ 0x001)
    (heff : csrwrEffect (opCtx s sh m .sys) (opCycle s sh m 0) (opBegun s sh m).drew =
      csrHeld (opCtx s sh m .sys) image (opBegun s sh m).drew) :
    ∃ t z k, exec (.csrwr h) s = .next t ∧ t.sheet? s.focus = some z ∧ SameMemory s t ∧ z.sys = .csr k ∧
      k = ⟨(opCtx s sh m .sys).csr, (opCtx s sh m .sys).x 0 0, image, sh.nextId⟩ ∧ Pending sh z .sys k.id := by
  obtain ⟨f, lat, cf, ho⟩ := opSheet_frame s sh m
  have hsid : (opCtx s sh m .sys).sid = s.focus := rfl
  have hhere : (opBegun s sh m).drew.sheet? s.focus = some (opSheet s sh m) := opBegun_sheet? s sh m
  have hid : (opSheet s sh m).nextId = sh.nextId := by rw [ho]
  have hopen : openSys (opBegun s sh m).drew s.focus =
      ((opBegun s sh m).drew.setSheet s.focus ((opSheet s sh m).addFlight .sys 0 none none false true false 0), sh.nextId) := by
    unfold openSys
    rw [hhere, ← hid]
  have heq := csrwr_effect_eq hc hp hr hn
  rw [heff] at heq
  unfold csrHeld setSys at heq
  rw [hsid, hopen] at heq
  obtain ⟨t, z, ht, hz, hsame, -, i, dr, nx, lp, pc, nest, mk, rc, st, hlike⟩ := csrwr_runs hi hc hready hcheck
    (y := { (opSheet s sh m).addFlight .sys 0 none none false true false 0 with
      sys := .csr ⟨(opCtx s sh m .sys).csr, (opCtx s sh m .sys).x 0 0, image, sh.nextId⟩ })
    (by rw [heq, State.sheet?_mapSheet, State.sheet?_setSheet]; rfl)
    (by rw [heq, State.mapSheet_mem]; exact opBegun_mem s sh m)
    (opSheet_kept s sh m)
  refine ⟨t, z, _, ht, hz, hsame, by rw [hlike], rfl, ⟨.sys, 0, sh.nextId, none, none, false, true, false, 0⟩, ?_, rfl, le_rfl, rfl, rfl, rfl, rfl⟩
  rw [hlike]
  show _ ∈ (opSheet s sh m).flights ++ [_]
  rw [hid]
  exact List.mem_append_right _ List.mem_cons_self

/-! ### Registers without a rule of their own -/

theorem csrwrMeaning_ready {x : TrigCtx} (h : x.csr ≠ 0x004) : csrwrMeaning.ready x = true := by
  show (x.csr != 0x004 || _) = true
  rw [bne_iff_ne.mpr h, Bool.true_or]

/-- FPCR, CFECFG, MARKCFG and the registers that only read: the write takes what their access codes let it (R7, R8). -/
theorem writes_plain (h : Head) {n : Nat} (hn : n < 2 ^ 12) (hk : csrKnown n = true) (hb : csrBank n = none) (hs : csrSpecial n = false) :
    Writes h n (fun _ _ _ => True) (fun s sh v _ y => Lands s sh y .sys 0 0 ∧ y.fpsr = sh.fpsr ∧ sysWord y = sysWord (csrwrNow n v sh) ∧
      y.drift = sh.drift) := by
  rintro s sh m hi hc hp hr ⟨htv, -⟩
  have hcsr := TrigCtx.csr_of_tv htv hn
  obtain ⟨h1, h4⟩ := csrSpecial_false hs
  obtain ⟨t, z, ht, hz, hsame, -, hlands, hfpsr, hword, hdrift⟩ := csrwr_delivers (k := n) hi hc hp hr (csrwrMeaning_ready (hcsr ▸ h4))
    (csrwrCheck_plain (csrBad_of_known htv hn hk) (hcsr ▸ hb) (hcsr ▸ h4)) (hcsr ▸ h1) (csrwrEffect_plain (hcsr ▸ hb) (hcsr ▸ hs))
    ((State.sheet?_mapSheet ..).trans (by
      rw [opCtx_here, hcsr]; rfl)) ((State.mapSheet_mem ..).trans (opBegun_mem s sh m))
  exact ⟨t, z, ht, hz, hsame, hlands, hfpsr, hword, hdrift⟩

end

/-! ### FPSR and the overflow bit -/

theorem wg?_of_wgs {s t : State} (h : t.wgs = s.wgs) (k : Nat) : t.wg? k = s.wg? k := congrArg (lookup · k) h

theorem opBegun_wg? (s : State) (sh : Sheet) (m : Move) (k : Nat) : (opBegun s sh m).drew.wg? k = s.wg? k :=
  wg?_of_wgs (opBegun_wgs s sh m) k

theorem opCtx_wg (s : State) (sh : Sheet) (m : Move) (u : FUnit) : (opCtx s sh m u).sh.wg = sh.wg := (opSheet_fields s sh m).1

/-- FPSR takes the value written, and nothing of the other registers (R7). -/
theorem writes_fpsr (h : Head) :
    Writes h 0x001 (fun _ _ _ => True) (fun _ sh v _ y => y.fpsr = v.setWidth 6 ∧ sysWord y = sysWord sh) := by
  rintro s sh m hi hc hp hr ⟨htv, -⟩
  have hcsr : (opCtx s sh m .sys).csr = 0x001 := TrigCtx.csr_of_tv htv (by decide)
  have hnot4 : (opCtx s sh m .sys).csr ≠ 0x004 := by rw [hcsr]; decide
  obtain ⟨f, lat, cf, ho⟩ := opSheet_frame s sh m
  have heq : opEffect s sh m .sys csrwrMeaning = (opBegun s sh m).drew.mapSheet s.focus
      (fun y => { y.afterFp 0 with fpsr := ((opCtx s sh m .sys).x 0 0).setWidth 6 }) := by
    rw [opEffect_once (f := csrwrEffect) hc.whole hp hr rfl (fun _ _ _ _ => rfl)]
    unfold csrwrEffect
    rw [hcsr]
    exact if_pos hcsr
  obtain ⟨t, z, ht, hz, hsame, -, i, dr, nx, lp, pc, nest, mk, rc, st, hlike⟩ := csrwr_runs hi hc (csrwrMeaning_ready hnot4)
    (csrwrCheck_plain (csrBad_of_known htv (by decide) (by decide)) (by rw [hcsr]; rfl) hnot4)
    (y := { (opSheet s sh m).afterFp 0 with fpsr := ((opCtx s sh m .sys).x 0 0).setWidth 6 })
    (by rw [heq, State.sheet?_mapSheet]; exact congrArg (Option.map _) (opBegun_sheet? s sh m))
    (by rw [heq, State.mapSheet_mem]; exact opBegun_mem s sh m)
    (opSheet_kept s sh m)
  refine ⟨t, z, ht, hz, hsame, by rw [hlike], ?_⟩
  rw [hlike, ho]
  rfl

/-- The overflow bit is cleared where 1 is written (R8). -/
theorem writes_overflow (h : Head) : Writes h 0x120 (fun _ _ _ => True) (fun s sh v t y => Lands s sh y .sys 0 0 ∧ sysWord y = sysWord sh ∧
    ∀ w, s.wg? sh.wg = some w → ∃ w', t.wg? sh.wg = some w' ∧ w'.iovf = (w.iovf && !v.getLsbD 0)) := by
  rintro s sh m hi hc hp hr ⟨htv, -⟩
  have hcsr : (opCtx s sh m .sys).csr = 0x120 := TrigCtx.csr_of_tv htv (by decide)
  have hnot4 : (opCtx s sh m .sys).csr ≠ 0x004 := by rw [hcsr]; decide
  obtain ⟨t, z, ht, hz, hsame, hwgs, hlands, -, hword, -⟩ := csrwr_delivers (k := 0) (v := 0) hi hc hp hr (csrwrMeaning_ready hnot4)
    (csrwrCheck_plain (csrBad_of_known htv (by decide) (by decide)) (by rw [hcsr]; rfl) hnot4) (by rw [hcsr]; decide)
    (csrwrEffect_overflow hcsr) (by unfold State.sheet?; rw [State.mapWg_sheets]; exact opBegun_sheet? s sh m)
    ((State.mapWg_mem ..).trans (opBegun_mem s sh m))
  refine ⟨t, z, ht, hz, hsame, hlands, hword, fun w hw => ⟨{ w with iovf := w.iovf && !((opCtx s sh m .sys).x 0 0).getLsbD 0 }, ?_, rfl⟩⟩
  rw [wg?_of_wgs hwgs, opCtx_wg, State.wg?_mapWg, opBegun_wg?, hw]
  rfl

/-! ### XPCFG and the bank formats -/

theorem engineOwned_congr {s t : State} (h : t.cores = s.cores) (r : Res) : engineOwned t r = engineOwned s r := by
  unfold engineOwned State.allCmds
  rw [h]

theorem opBegun_cores (s : State) (sh : Sheet) (m : Move) : (opBegun s sh m).cores = s.cores := by
  obtain ⟨l, hl⟩ := opBegun_rest s sh m
  rw [hl]

/-- The workgroup that the operation sees, its bank formats as the context sees them. -/
theorem opCtx_wgp {s : State} {sh : Sheet} {m : Move} {u : FUnit} {w : Workgroup} (hw : s.wg? sh.wg = some w) :
    ∃ l, (opCtx s sh m u).wgp = some { w with banks := l } := by
  have hbegun : (opBegun s sh m).wg? (opSheet s sh m).wg = some w := by
    rw [(opSheet_fields s sh m).1]
    exact (opBegun_wg? s sh m _).trans hw
  exact ⟨_, congrArg (Option.map _) hbegun⟩

/-- A write of XPCFG holds the sheet, with the image that stands at the trigger (R188; log 38). -/
theorem writes_xpcfg (h : Head) : Writes h 0x004
    (fun s sh v => ∃ w, s.wg? sh.wg = some w ∧ xpOffset v + 64 ≤ w.aSize ∧ xpValid (xpImage w v) = true ∧
      (∀ r ∈ blocksOf true sh.wg (xpOffset v) 64, engineOwned s r = false) ∧
      ∀ a ∈ sh.queue, a.space = .a → a.isStore = true → ∀ p ∈ a.pieces, runsMeet p.1 p.2 (xpOffset v) 64 = false)
    (fun s sh v _ y => ∃ w k, s.wg? sh.wg = some w ∧ y.sys = .csr k ∧ k.num = 4 ∧ k.val = v ∧ k.image = xpImage w v ∧
      Pending sh y .sys k.id) := by
  rintro s sh m hi hc hp hr ⟨htv, w, hw, hsize, hvalid, hfree, hstores⟩
  have hcsr : (opCtx s sh m .sys).csr = 0x004 := TrigCtx.csr_of_tv htv (by decide)
  obtain ⟨l, hwgp⟩ := opCtx_wgp (m := m) (u := .sys) hw
  have hheld : xpHeld (opCtx s sh m .sys) = false := by
    unfold xpHeld
    rw [opCtx_wg, List.any_eq_false]
    exact fun r hr howned => Bool.false_ne_true ((hfree r hr).symm.trans ((engineOwned_congr (opBegun_cores s sh m) r).symm.trans howned))
  have hstored : xpStored (opCtx s sh m .sys) = false := by
    obtain ⟨f, lat, cf, ho⟩ := opSheet_frame s sh m
    unfold xpStored
    rw [show (opCtx s sh m .sys).sh.queue = sh.queue from (congrArg Sheet.queue ho :), List.any_eq_false]
    intro a ha hmeets
    simp only [Bool.and_eq_true, beq_iff_eq, List.any_eq_true] at hmeets
    obtain ⟨⟨hspace, hstore⟩, p, hp, hmeet⟩ := hmeets
    exact Bool.false_ne_true ((hstores a ha hspace hstore p hp).symm.trans hmeet)
  obtain ⟨t, z, k, ht, hz, hsame, hsys, hk, hpending⟩ := csrwr_holds hi hc hp hr
    (by show (_ || (!xpHeld _ && !xpStored _)) = true; rw [hheld, hstored]; exact Bool.or_true _)
    (csrwrCheck_xpcfg (csrBad_of_known htv (by decide) (by decide)) hcsr hwgp hsize hvalid) (by rw [hcsr]; decide)
    (csrwrEffect_xpcfg hcsr hwgp)
  exact ⟨t, z, ht, hz, hsame, w, k, hw, hsys, hk ▸ hcsr, hk ▸ rfl, hk ▸ rfl, hpending⟩

/-- A register written in no cycle from this one on takes the value written (R86). -/
theorem lookup_regWrite {l : SMap WReg} {r c : Nat} (h : ∀ y, lookup l r = some y → y.cycle < c) (z : W64) (ctx : Nat) (v : W64) :
    (lookup (regWrite l z r ctx c v) r).map (·.val) = some v := by
  unfold regWrite
  split
  · rw [lookup_put_self]; rfl
  · next y hy =>
    have hne : ¬ y.cycle = c := (h y hy).ne
    rw [if_neg (fun hc => hne hc.1), if_neg (fun hc => hne hc.1), lookup_put_self]
    rfl

/-- A bank format register that is there reads as written. -/
theorem bankRead_written {w : Workgroup} {isA : Bool} {b c : Nat} (hex : bankExists w isA b = true)
    (h : ∀ y, lookup w.banks (bankKey isA b) = some y → y.cycle < c) (z : W64) (ctx : Nat) (v : W64) :
    bankRead { w with banks := regWrite w.banks z (bankKey isA b) ctx c v } isA b = v :=
  (if_pos hex).trans (by rw [lookup_regWrite h, Option.getD_some])

/-- A bank format register is written, held, or not there (R180). -/
theorem writes_bank (h : Head) {n b : Nat} {isA : Bool} (hn : n < 2 ^ 12) (hb : csrBank n = some (isA, b)) :
    Writes h n (fun s sh v => ∃ w, s.wg? sh.wg = some w ∧ (bankExists w isA b = true → v.toNat % 16 < 11)) (BankWritten isA b) := by
  rintro s sh m hi hc hp hr ⟨htv, w, hw, hfmt⟩
  have hcsr := TrigCtx.csr_of_tv htv hn
  have hbank : csrBank (opCtx s sh m .sys).csr = some (isA, b) := hcsr ▸ hb
  obtain ⟨hnot1, hnot4⟩ := csrSpecial_false (csrBank_ordinary hbank)
  obtain ⟨l, hwgp⟩ := opCtx_wgp (m := m) (u := .sys) hw
  have hknown : csrKnown n = true := by
    unfold csrKnown
    rw [hb]
    exact Bool.or_true _
  have hready := csrwrMeaning_ready hnot4
  have hcheck := csrwrCheck_bank (csrBad_of_known htv hn hknown) hbank hwgp hfmt
  have hheldEq : bankHeld (opBegun s sh m).drew (opCtx s sh m .sys).sh.wg { w with banks := l } isA b = bankHeld s sh.wg w isA b := by
    rw [opCtx_wg]
    exact congrArg (List.any _) (funext (engineOwned_congr (opBegun_cores s sh m)))
  have heff := csrwrEffect_bank (c := opCycle s sh m 0) (e := (opBegun s sh m).drew) hbank hwgp
  rw [hheldEq, show bankExists { w with banks := l } isA b = bankExists w isA b from rfl] at heff
  have hbegun : (opBegun s sh m).drew.wg? sh.wg = some w := (opBegun_wg? s sh m _).trans hw
  cases hex : bankExists w isA b
  case false =>
    rw [if_pos hex] at heff
    obtain ⟨t, z, ht, hz, hsame, hwgs, hlands, -⟩ := csrwr_delivers (k := 0) (v := 0) hi hc hp hr hready hcheck hnot1 heff
      (opBegun_sheet? s sh m) (opBegun_mem s sh m)
    refine ⟨t, z, ht, hz, hsame, fun w' hw' => ?_⟩
    cases hw.symm.trans hw'
    rw [if_neg (fun hheld => Bool.false_ne_true (hex.symm.trans hheld.1))]
    exact ⟨hlands, w, (wg?_of_wgs hwgs _).trans hbegun, fun _ => rfl,
      fun hthere => absurd (hex.symm.trans hthere) Bool.false_ne_true⟩
  case true =>
    rw [if_neg (fun hno => Bool.false_ne_true (hno.symm.trans hex))] at heff
    cases hheld : bankHeld s sh.wg w isA b
    case true =>
      rw [if_pos hheld] at heff
      obtain ⟨t, z, k, ht, hz, hsame, hsys, hk, hpending⟩ := csrwr_holds hi hc hp hr hready hcheck hnot1 heff
      refine ⟨t, z, ht, hz, hsame, fun w' hw' => ?_⟩
      cases hw.symm.trans hw'
      rw [if_pos ⟨hex, hheld⟩]
      exact ⟨k, hsys, hk ▸ hbank, hk ▸ rfl, hpending⟩
    case false =>
      rw [if_neg (fun hyes => Bool.false_ne_true (hheld.symm.trans hyes))] at heff
      obtain ⟨t, z, ht, hz, hsame, hwgs, hlands, -⟩ := csrwr_delivers (k := 0) (v := 0) hi hc hp hr hready hcheck hnot1 heff
        (by unfold writeBank State.sheet?; rw [State.mapWg_sheets]; exact opBegun_sheet? s sh m)
        ((State.mapWg_mem ..).trans (opBegun_mem s sh m))
      refine ⟨t, z, ht, hz, hsame, fun w' hw' => ?_⟩
      cases hw.symm.trans hw'
      rw [if_neg (fun hyes => Bool.false_ne_true (hheld.symm.trans hyes.2))]
      unfold writeBank at hwgs
      have hwritten := wg?_of_wgs hwgs sh.wg
      rw [opCtx_wg, State.wg?_mapWg, hbegun, Option.map_some] at hwritten
      exact ⟨hlands, _, hwritten, fun hno => absurd (hno.symm.trans hex) Bool.false_ne_true,
        fun _ hold => bankRead_written hex (fun r hr => (hold r hr).trans_le (now_le_opCycle hc.whole)) _ _ _⟩

theorem csrBank_w {b : Nat} (h : b < 16) : csrBank (0x110 + b) = some (false, b) := by
  unfold csrBank
  rw [if_neg (by omega), if_pos (by omega), Nat.add_sub_cancel_left]

theorem csrBank_a {b : Nat} (h : b < 8) : csrBank (0x100 + b) = some (true, b) := by
  unfold csrBank
  rw [if_pos (by omega), Nat.add_sub_cancel_left]

/-- A weaker account of what a write leaves. -/
theorem Writes.mono {h : Head} {n : Nat} {ok : State → Sheet → W64 → Prop} {p q : State → Sheet → W64 → State → Sheet → Prop}
    (hw : Writes h n ok p) (hpq : ∀ s sh v t y, p s sh v t y → q s sh v t y) : Writes h n ok q := by
  intro s sh m hi hc hp hr hok
  obtain ⟨t, y, ht, hy, hsame, hafter⟩ := hw s sh m hi hc hp hr hok
  exact ⟨t, y, ht, hy, hsame, hpq s sh _ t y hafter⟩

/-- Settles O30: each register by the branch of CSRWR's effect that its number takes. -/
theorem registerWrites : Obligations.RegisterWrites := by
  intro h b
  refine ⟨writes_fpsr h, ?_, ?_, ?_, fun hb => ?_, writes_overflow h, writes_xpcfg h, fun hb => ?_, fun hb => ?_⟩
  case refine_1 | refine_2 | refine_3 =>
    exact (writes_plain h (by decide) (by decide) rfl rfl).mono
      (fun _ _ _ _ _ ⟨hlands, hfpsr, hword, _⟩ => ⟨hlands, hfpsr, hword⟩)
  case refine_4 =>
    have hreads : b < 2 ^ 12 ∧ csrKnown b = true ∧ csrBank b = none ∧ csrSpecial b = false ∧ ∀ v y, csrwrNow b v y = y := by
      simp only [List.mem_cons, List.not_mem_nil, or_false] at hb
      rcases hb with rfl | rfl | rfl | rfl | rfl <;> exact ⟨by decide, by decide, rfl, rfl, fun _ _ => rfl⟩
    obtain ⟨hn, hk, hbank, hs, hnow⟩ := hreads
    exact (writes_plain h hn hk hbank hs).mono
      (fun _ _ _ _ _ ⟨hlands, hfpsr, hword, hdrift⟩ => ⟨hlands, hfpsr, hword.trans (congrArg sysWord (hnow _ _)), hdrift⟩)
  case refine_5 => exact writes_bank h (by omega) (csrBank_w hb)
  case refine_6 => exact writes_bank h (by omega) (csrBank_a hb)

end Sys2Proof.Machine
end

section
/-! O1: which instruction a step runs. What an issue stage takes is a ready sheet, and what a ready sheet issues is the bundle that
`nextInstr` finds; where nothing else may happen it is the only action. -/

namespace Sys2Proof.Machine

/-! ## The choice among actions -/

theorem actions_ne_nil (s : State) : actions s ≠ [] := by
  unfold actions
  cases dueSteps s ++ (picks s).map issuePick <;> simp

theorem mem_actions_of_pick {s : State} {p : Nat × Next} (h : p ∈ picks s) : issuePick p ∈ actions s := by
  unfold actions
  exact List.mem_append_left _ (List.mem_append_left _ (List.mem_append_right _ (List.mem_map_of_mem h)))

/-- The free choice among several actions names one of them. -/
theorem chooseAction_mem (s : State) : ∃ a ∈ actions s, chooseAction s = a s ∨ chooseAction s = a s.drew := by
  unfold chooseAction
  split
  case h_1 h => exact absurd h (actions_ne_nil s)
  case h_2 a h => exact ⟨a, by simp [h], .inl rfl⟩
  case h_3 a b r h =>
    have hlt : s.free 3000 % (r.length + 2) < (a :: b :: r).length := Nat.mod_lt _ (by omega)
    refine ⟨(a :: b :: r)[s.free 3000 % (r.length + 2)], by rw [h]; exact List.getElem_mem hlt, .inr ?_⟩
    rw [List.getD_eq_getElem _ _ hlt]

theorem step_of_agenda {s : State} {i : Instr} {r : List Instr} (h : s.agenda = i :: r) :
    step s = exec i { s with agenda := r } := by
  unfold step
  rw [h]

theorem step_of_idle {s : State} (h : s.agenda = []) : step s = chooseAction s := by
  unfold step
  rw [h]

theorem chooseAction_of_pick {s : State} {p : Nat × Next} (hdue : dueSteps s = []) (hopen : openSteps s = [])
    (hp : picks s = [p]) : chooseAction s = issuePick p s := by
  have h : actions s = [issuePick p] := by simp [actions, hdue, hopen, hp]
  unfold chooseAction
  rw [h]

/-! ## What a stage takes -/

theorem foldl_choice_mem {α : Type} {f : Option α → α → Option α} (hf : ∀ b x y, f b x = some y → y = x ∨ b = some y)
    {l : List α} : ∀ {b : Option α} {y : α}, l.foldl f b = some y → y ∈ l ∨ b = some y := by
  induction l with
  | nil => exact fun h => .inr h
  | cons x l ih =>
    intro b y h
    rcases ih h with hy | hy
    · exact .inl (List.mem_cons_of_mem _ hy)
    · exact (hf b x y hy).imp (fun (e : y = x) => e ▸ List.mem_cons_self) id

/-- A stage takes one of the ready sheets. -/
theorem chooseReady_mem {c : Nat} {l : List Ready} {r : Ready} (h : chooseReady c l = some r) : r ∈ l := by
  unfold chooseReady at h
  extract_lets old pick at h
  have hpick : ∀ (starving : Bool) (l : List Ready), pick starving l = some r → r ∈ l := by
    intro starving l hl
    refine (foldl_choice_mem ?_ hl).resolve_right (by simp)
    intro b x y hy
    cases b with
    | none => exact .inl (Option.some.inj hy).symm
    | some z =>
      rcases ite_eq_or_eq (Ready.before starving x z = true) (some x) (some z) with e | e
      · exact .inl (Option.some.inj (e.symm.trans hy)).symm
      · exact .inr (e.symm.trans hy)
  split at h
  · exact hpick _ _ h
  · exact List.mem_of_mem_filter (hpick _ _ h)

theorem chooseReady_singleton (c : Nat) (r : Ready) : chooseReady c [r] = some r := by
  by_cases h : r.since + 32 ≤ c <;> simp [chooseReady, h]

/-- What a stage takes is ready. -/
theorem mem_picks {s : State} {p : Nat × Next} (h : p ∈ picks s) : ∃ e ∈ s.sheets, e.1 = p.1 ∧ readyBundle s e = some p.2 := by
  obtain ⟨st, -, hst⟩ := List.mem_filterMap.mp h
  unfold stagePick at hst
  split at hst
  · cases hst
  · obtain ⟨r, hr, rfl⟩ := Option.map_eq_some_iff.mp hst
    obtain ⟨e, he, hready⟩ := List.mem_filterMap.mp (chooseReady_mem hr)
    obtain ⟨n, hn, rfl⟩ := Option.map_eq_some_iff.mp hready
    exact ⟨e, List.mem_of_mem_filter he, rfl, hn⟩

/-- What a ready sheet issues is its next bundle. -/
theorem nextInstr_of_ready {s : State} {e : Nat × Sheet} {i : Instr} (h : readyBundle s e = some (.issue i)) :
    nextInstr s e.1 e.2 = .ok i := by
  unfold readyBundle at h
  split at h
  · split at h
    · cases h
    · split at h
      · cases h
      next hi =>
        split at h
        · cases h
        · cases h; exact hi
  · split at h
    · split at h <;> cases h
    · cases h

/-- The only sheet of a device is what its stage takes. -/
theorem picks_of_only {s : State} {sid : Nat} {sh : Sheet} {n : Next} (h : s.sheets = [(sid, sh)])
    (hfree : getD (s.core (coreOf sid)).busy 0 (s.colOf sid) ≤ s.cycle (coreOf sid)) (hr : readyBundle s (sid, sh) = some n) :
    picks s = [(sid, n)] := by
  have hstages : stages s = [(coreOf sid, s.colOf sid)] := by simp [stages, h]
  have htake : stagePick s (coreOf sid, s.colOf sid) = some (sid, n) := by
    simp [stagePick, h, hr, chooseReady_singleton, Nat.not_lt.mpr hfree]
  simp [picks, hstages, htake]

/-! ## The bundle at the pc -/

theorem decodeBytes_of_decode {bs : List Byte} {i : Instr} (h : decode bs = .ok i) : decodeBytes bs = .ok i := by
  unfold decodeBytes
  rw [h]

/-- Outside a loop buffer the next bundle of a sheet with none under way is the one that the bytes at its pc hold. -/
theorem nextInstr_of_fetches {s : State} {sid : Nat} {sh : Sheet} {i : Instr} (hissue : sh.issuing = none)
    (h : Fetches s sid sh i) : nextInstr s sid sh = .ok i := by
  obtain ⟨hnest, bs, hbs, -, hform⟩ := h
  have hnext : nextInstr s sid sh = fetchInstr s sid sh := by simp [nextInstr, hissue, hnest]
  rw [hnext]
  have hwhole : ∃ bs', fetchWhole s sid sh = .ok bs' ∧ decode bs' = .ok i := by
    unfold fetchWhole
    rw [hbs]
    rcases hform with ⟨hsize, hi⟩ | ⟨r, hsize, hr, hi⟩
    · exact ⟨bs, if_pos hsize, hi⟩
    · exact ⟨bs ++ r, by simp only [hsize]; rw [hr]; rfl, hi⟩
  obtain ⟨bs', hbs', hi⟩ := hwhole
  unfold fetchInstr
  rw [hbs']
  exact decodeBytes_of_decode hi

/-- Settles O1: what the agenda, the choice among actions, and the stage of a ready sheet make a step run. -/
theorem stepRunsDecodedBundle : Obligations.StepRunsDecodedBundle := by
  intro s
  refine ⟨fun i r h => step_of_agenda h, fun h => step_of_idle h ▸ chooseAction_mem s,
    fun sid sh n h hfree hr => picks_of_only h hfree hr, ?_⟩
  intro sid sh i j hsheet honly hissue hfetch hpick
  obtain ⟨e, he, hsid, hready⟩ := mem_picks hpick
  have hj : nextInstr s sid sh = .ok j := by
    have h := nextInstr_of_ready hready
    rwa [honly e he hsid, hsid] at h
  obtain rfl : i = j := Except.ok.inj ((nextInstr_of_fetches hissue hfetch).symm.trans hj)
  exact ⟨⟨_, mem_actions_of_pick hpick, fun x => rfl⟩, fun hagenda hdue hopen hp =>
    (step_of_idle hagenda).trans (chooseAction_of_pick hdue hopen hp)⟩

end Sys2Proof.Machine
end

section
/-! O37: what an operation keeps when it issues. The statement asks nothing of a bundle of the sheet that is under way. -/

namespace Sys2Proof.Machine

/-- A uniform move of the bundle under way, read in its first pass: it writes 5 to the shape register of field 0 of MXE (R71). -/
def shapeMoveUnderWay : SavedMove := ⟨0, ⟨0, 0, 0x200, 0x0FE, 0, 0, true⟩, 1, [5]⟩
/-- A uniform operation on SAL. -/
def uniformAdd : Instr := .add .sal ⟨.always, 0x0FE, false⟩ ⟨false, false⟩
/-- The runner's sheet whose bundle under way has read a uniform move. -/
def shapeUnderWay : State :=
  (State.reset.placeRunner []).mapSheet 0 (fun sh => { sh with issuing := some ⟨uniformAdd, [], [shapeMoveUnderWay]⟩ })

theorem uniformAdd_triggers : Triggers uniformAdd .sal := ⟨_, rfl, by decide +kernel⟩

theorem shapeUnderWay_queue : ∀ sh, shapeUnderWay.sheet? shapeUnderWay.focus = some sh → sh.armed = false ∧ Stepless sh := by
  intro sh h
  have hq : (shapeUnderWay.sheet? shapeUnderWay.focus).all (fun sh => sh.armed == false && sh.queue.isEmpty) = true := by
    decide +kernel
  rw [h] at hq
  simp only [Option.all_some, Bool.and_eq_true, beq_iff_eq, List.isEmpty_iff] at hq
  obtain ⟨harmed, hqueue⟩ := hq
  exact ⟨harmed, by simp [Stepless, hqueue]⟩

/-- The saved move stands in for the operation in its slot, and its write is performed. -/
theorem exec_uniformAdd_writes_shape : ∃ t, exec uniformAdd shapeUnderWay = .next t ∧
    (t.sheet? 0).map (·.shShadow) = some [(0, 5)] :=
  ⟨_, rfl, by decide +kernel⟩

/-- Refutes O37: a sheet whose bundle under way has read a uniform move of slot 0 writes that move's shape register when an operation
of a lane unit issues in the slot, for the statement does not ask that no bundle of the sheet is under way. -/
theorem not_operationsKeepStorage : ¬ Obligations.OperationsKeepStorage := by
  unfold Obligations.OperationsKeepStorage
  intro h
  obtain ⟨t, ht, hwrote⟩ := exec_uniformAdd_writes_shape
  obtain ⟨hlane, -⟩ := h uniformAdd .sal shapeUnderWay t uniformAdd_triggers ht shapeUnderWay_queue
  obtain ⟨-, -, hstatus⟩ := hlane (by decide)
  have hbefore : (shapeUnderWay.sheet? 0).map (·.shShadow) = some [] := by decide +kernel
  obtain ⟨x, hx, hx0⟩ := Option.map_eq_some_iff.mp hbefore
  obtain ⟨y, hy, -, -, -, -, hshadow, -⟩ := hstatus 0 x hx
  rw [hy, Option.map_some, hshadow, hx0] at hwrote
  exact absurd (Option.some.inj hwrote) (by decide)

end Sys2Proof.Machine
end

section
/-! O40: what the homes do to the L1s. `Recalled` says once what taking words back can do; the use of an L2, an eviction and a
recall are instances. -/

namespace Sys2Proof.Machine

/-! ## A word is taken back (R193) -/

/-- No half of a core's L1 holds a word. -/
def NotInL1 (s : State) (core word : Nat) : Prop := l1Find s core 0 word = none ∧ l1Find s core 1 word = none

theorem getD_drop_self (m : SMap Nat) (k : Nat) : getD (drop m k) 0 k = 0 := by simp [getD]
theorem getD_drop_ne (m : SMap Nat) {k j : Nat} (h : j ≠ k) : getD (drop m k) 0 j = getD m 0 j := by
  unfold getD
  rw [lookup_drop_ne _ _ _ h]

theorem l1Key_zero_ne_one (word : Nat) : l1Key 0 word ≠ l1Key 1 word := by simp [l1Key]
/-- Words of the device's address space have places of their own in each half. -/
theorem l1Key_ne {a b v w : Nat} (hv : v < 2 ^ 50) (hw : w < 2 ^ 50) (hne : v ≠ w) : l1Key a v ≠ l1Key b w := by
  unfold l1Key; omega

theorem invalidateWord_cores (s : State) (core word : Nat) : (invalidateWord s core word).cores =
    (s.mapCore core (fun c => { c with l1 := drop (drop c.l1 (l1Key 0 word)) (l1Key 1 word) })).cores := by
  unfold invalidateWord
  extract_lets s1
  split <;> rfl
theorem invalidateWord_l1 (s : State) (core word : Nat) :
    ((invalidateWord s core word).core core).l1 = drop (drop (s.core core).l1 (l1Key 0 word)) (l1Key 1 word) := by
  rw [State.core, invalidateWord_cores, ← State.core, State.core_mapCore]
theorem invalidateWord_core_ne (s : State) {core c : Nat} (word : Nat) (h : c ≠ core) :
    (invalidateWord s core word).core c = s.core c := by
  rw [State.core, invalidateWord_cores, ← State.core, State.core_mapCore_ne _ _ _ _ h]

theorem invalidateWord_reg (s : State) (core word : Nat) :
    (invalidateWord s core word).reg = if getD s.reg 0 word = core + 1 then drop s.reg word else s.reg := by
  unfold invalidateWord
  extract_lets s1
  exact apply_ite State.reg ..
theorem invalidateWord_reg_self {s : State} {core word : Nat} (h : getD s.reg 0 word = core + 1) :
    getD (invalidateWord s core word).reg 0 word = 0 := by
  rw [invalidateWord_reg, if_pos h, getD_drop_self]
theorem invalidateWord_reg_ne (s : State) (core : Nat) {word w : Nat} (h : w ≠ word) :
    getD (invalidateWord s core word).reg 0 w = getD s.reg 0 w := by
  rw [invalidateWord_reg]
  split
  · exact getD_drop_ne _ h
  · rfl

theorem invalidateWord_lookup_ne (s : State) (core word : Nat) {k : Nat} (h0 : k ≠ l1Key 0 word) (h1 : k ≠ l1Key 1 word)
    (c : Nat) : lookup ((invalidateWord s core word).core c).l1 k = lookup (s.core c).l1 k := by
  by_cases hc : c = core
  · subst hc
    rw [invalidateWord_l1, lookup_drop_ne _ _ _ h1, lookup_drop_ne _ _ _ h0]
  · rw [invalidateWord_core_ne _ _ hc]
theorem invalidateWord_notInL1 (s : State) (core word : Nat) : NotInL1 (invalidateWord s core word) core word := by
  unfold NotInL1 l1Find
  rw [invalidateWord_l1, lookup_drop_ne _ _ _ (l1Key_zero_ne_one word)]
  exact ⟨lookup_drop_self .., lookup_drop_self ..⟩

/-! ## Words are taken back -/

/-- Words may have left L1s; one whose registration is gone has left the L1 that held it, and none is registered anew. -/
structure Recalled (s t : State) : Prop where
  l1 : ∀ c k, lookup (t.core c).l1 k = none ∨ lookup (t.core c).l1 k = lookup (s.core c).l1 k
  kept : ∀ w c, getD s.reg 0 w = c + 1 → getD t.reg 0 w = c + 1 ∨ NotInL1 t c w
  unregistered : ∀ w, getD s.reg 0 w = 0 → getD t.reg 0 w = 0

theorem Recalled.of_eq {s t : State} (hc : t.cores = s.cores) (hr : t.reg = s.reg) : Recalled s t where
  l1 c k := .inr (by rw [State.core, hc, ← State.core])
  kept w c h := .inl (hr ▸ h)
  unregistered w h := hr ▸ h
theorem Recalled.refl (s : State) : Recalled s s := .of_eq rfl rfl
theorem Recalled.notInL1 {s t : State} (h : Recalled s t) {c w : Nat} (hs : NotInL1 s c w) : NotInL1 t c w := by
  obtain ⟨h0, h1⟩ := hs
  exact ⟨(h.l1 c _).elim id (·.trans h0), (h.l1 c _).elim id (·.trans h1)⟩
theorem Recalled.trans {s t u : State} (h : Recalled s t) (k : Recalled t u) : Recalled s u where
  l1 c j := (k.l1 c j).elim .inl (fun e => (h.l1 c j).imp (e.trans ·) (e.trans ·))
  kept w c hw := (h.kept w c hw).elim (k.kept w c) (fun hn => .inr (k.notInL1 hn))
  unregistered w hw := k.unregistered w (h.unregistered w hw)
theorem Recalled.foldl {α : Type} {f : State → α → State} (h : ∀ s a, Recalled s (f s a)) :
    ∀ (l : List α) (s : State), Recalled s (l.foldl f s)
  | [], s => .refl s
  | a :: l, s => (h s a).trans (Recalled.foldl h l (f s a))

theorem invalidateWord_recalled (s : State) (core word : Nat) : Recalled s (invalidateWord s core word) where
  l1 c k := by
    by_cases h0 : k = l1Key 0 word
    · by_cases hc : c = core
      · subst hc h0; exact .inl (invalidateWord_notInL1 s c word).1
      · exact .inr (by rw [invalidateWord_core_ne _ _ hc])
    · by_cases h1 : k = l1Key 1 word
      · by_cases hc : c = core
        · subst hc h1; exact .inl (invalidateWord_notInL1 s c word).2
        · exact .inr (by rw [invalidateWord_core_ne _ _ hc])
      · exact .inr (invalidateWord_lookup_ne s core word h0 h1 c)
  kept w c h := by
    by_cases hw : w = word
    · subst hw
      by_cases hc : c = core
      · subst hc; exact .inr (invalidateWord_notInL1 s c w)
      · rw [invalidateWord_reg, if_neg (by omega)]; exact .inl h
    · exact .inl ((invalidateWord_reg_ne s core hw).trans h)
  unregistered w h := by
    by_cases hw : w = word
    · subst hw
      rw [invalidateWord_reg, if_neg (by omega)]; exact h
    · exact (invalidateWord_reg_ne s core hw).trans h

theorem Recalled.withL2 {s t : State} (h : Recalled s t) (l : SMap L2Line) : Recalled s { t with l2 := l } :=
  h.trans (.of_eq rfl rfl)
theorem Recalled.withChannels {s t : State} (h : Recalled s t) (c : SMap Channel) : Recalled s { t with channels := c } :=
  h.trans (.of_eq rfl rfl)
theorem Recalled.drew {s t : State} (h : Recalled s t) : Recalled s t.drew := h.trans (.of_eq rfl rfl)
theorem Recalled.counted {s t : State} (h : Recalled s t) (p : SMap Part) (a : List Instr) :
    Recalled s { t with parts := p, agenda := a } := h.trans (.of_eq rfl rfl)

/-- One word of a recall. -/
def recallWord (keep : Nat) (s : State) (w : Nat) : State :=
  if getD s.reg 0 w ≠ 0 ∧ getD s.reg 0 w ≠ keep then invalidateWord s (getD s.reg 0 w - 1) w else s
theorem recallWords_eq (s : State) (keep : Nat) (ws : List Nat) : recallWords s keep ws = ws.foldl (recallWord keep) s := rfl

theorem recallWord_recalled (keep : Nat) (s : State) (w : Nat) : Recalled s (recallWord keep s w) := by
  unfold recallWord
  split
  · exact invalidateWord_recalled ..
  · exact .refl s
theorem recallWord_notInL1 {keep : Nat} {s : State} {w c : Nat} (h : getD s.reg 0 w = c + 1) (hk : c + 1 ≠ keep) :
    NotInL1 (recallWord keep s w) c w := by
  unfold recallWord
  rw [h, if_pos ⟨by omega, hk⟩, Nat.add_sub_cancel]
  exact invalidateWord_notInL1 ..
theorem recallWord_reg_zero (s : State) (w : Nat) : getD (recallWord 0 s w).reg 0 w = 0 := by
  unfold recallWord
  split
  · next h => exact invalidateWord_reg_self (by omega)
  · next h => omega
theorem recallWord_reg_ne (keep : Nat) (s : State) {w v : Nat} (h : v ≠ w) :
    getD (recallWord keep s w).reg 0 v = getD s.reg 0 v := by
  unfold recallWord
  split
  · exact invalidateWord_reg_ne _ _ h
  · rfl
theorem recallWord_l1Find_ne (keep : Nat) (s : State) {w v : Nat} (hv : v < 2 ^ 50) (hw : w < 2 ^ 50) (hne : v ≠ w) (c half : Nat) :
    l1Find (recallWord keep s w) c half v = l1Find s c half v := by
  unfold recallWord
  split
  · exact invalidateWord_lookup_ne _ _ _ (l1Key_ne hv hw hne) (l1Key_ne hv hw hne) c
  · rfl

theorem recallWords_recalled (s : State) (keep : Nat) (ws : List Nat) : Recalled s (recallWords s keep ws) :=
  Recalled.foldl (recallWord_recalled keep) ws s
/-- A recall takes each of its words from the L1 registered for it. -/
theorem recallWords_notInL1 {keep w c : Nat} (hk : c + 1 ≠ keep) {ws : List Nat} :
    ∀ {s : State}, w ∈ ws → getD s.reg 0 w = c + 1 → NotInL1 (recallWords s keep ws) c w := by
  induction ws with
  | nil => exact fun h => absurd h (List.not_mem_nil)
  | cons x ws ih =>
    intro s hw hreg
    have hrest := recallWords_recalled (recallWord keep s x) keep ws
    by_cases hx : w = x
    · subst hx
      exact hrest.notInL1 (recallWord_notInL1 hreg hk)
    · exact ((recallWord_recalled keep s x).kept w c hreg).elim (ih ((List.mem_cons.mp hw).resolve_left hx)) hrest.notInL1
theorem recallWords_reg_zero {w : Nat} {ws : List Nat} : ∀ {s : State}, w ∈ ws → getD (recallWords s 0 ws).reg 0 w = 0 := by
  induction ws with
  | nil => exact fun h => absurd h (List.not_mem_nil)
  | cons x ws ih =>
    intro s hw
    by_cases hx : w = x
    · subst hx
      exact (recallWords_recalled _ 0 ws).unregistered w (recallWord_reg_zero s w)
    · exact ih ((List.mem_cons.mp hw).resolve_left hx)
/-- A recall leaves the other words and their registrations. -/
theorem recallWords_other {keep v : Nat} (hv : v < 2 ^ 50) {ws : List Nat} (hws : ∀ w ∈ ws, w < 2 ^ 50) (hne : v ∉ ws) :
    ∀ {s : State}, getD (recallWords s keep ws).reg 0 v = getD s.reg 0 v ∧
      ∀ c half, l1Find (recallWords s keep ws) c half v = l1Find s c half v := by
  induction ws with
  | nil => exact fun {s} => ⟨rfl, fun _ _ => rfl⟩
  | cons x ws ih =>
    intro s
    obtain ⟨hx, hr⟩ := List.ne_and_not_mem_of_not_mem_cons hne
    obtain ⟨hreg, hl1⟩ := ih (fun w hw => hws w (List.mem_cons_of_mem _ hw)) hr (s := recallWord keep s x)
    exact ⟨hreg.trans (recallWord_reg_ne keep s hx),
      fun c half => (hl1 c half).trans (recallWord_l1Find_ne keep s hv (hws x List.mem_cons_self) hx c half)⟩

/-- A recall changes L1s and registrations. -/
theorem recallWords_frame (s : State) (keep : Nat) (ws : List Nat) :
    ∃ c r, recallWords s keep ws = { s with cores := c, reg := r } := by
  have hword : ∀ (s : State) w, ∃ c r, recallWord keep s w = { s with cores := c, reg := r } := by
    intro s w
    unfold recallWord invalidateWord
    extract_lets s1
    split
    · split <;> exact ⟨_, _, rfl⟩
    · exact ⟨_, _, rfl⟩
  rw [recallWords_eq]
  induction ws generalizing s with
  | nil => exact ⟨_, _, rfl⟩
  | cons x ws ih =>
    obtain ⟨c, r, hx⟩ := hword s x
    obtain ⟨c', r', h⟩ := ih (recallWord keep s x)
    exact ⟨c', r', by rw [List.foldl_cons, h, hx]⟩

/-! ## Lines of an L2 (R22, R193) -/

theorem memRequest_channels (s : State) (x : Asker) (pa : Nat) (write : Bool) :
    ∃ c, memRequest s x pa write = { s with channels := c } := by
  unfold memRequest
  split
  · exact ⟨_, rfl⟩
  · exact ⟨_, rfl⟩

theorem foldl_channels {α : Type} {f : State → α → State} (h : ∀ z a, ∃ c, f z a = { z with channels := c }) :
    ∀ (l : List α) (z : State), ∃ c, l.foldl f z = { z with channels := c }
  | [], _ => ⟨_, rfl⟩
  | a :: l, z => by
    obtain ⟨c, hc⟩ := h z a
    obtain ⟨c', hc'⟩ := foldl_channels h l { z with channels := c }
    exact ⟨c', by rw [List.foldl_cons, hc, hc']⟩

/-- The words of a line. -/
def lineWords (line : Nat) : List Nat := (List.range 32).map (line * 32 + ·)
theorem mem_lineWords {w line : Nat} : w ∈ lineWords line ↔ w / 32 = line := by
  rw [lineWords, List.mem_map]
  constructor
  · rintro ⟨k, hk, rfl⟩
    have := List.mem_range.mp hk
    omega
  · exact fun h => ⟨w % 32, List.mem_range.mpr (by omega), by omega⟩

/-- An eviction of a line recalls its words and takes the line alone from its L2. -/
theorem evictLine_frame (s : State) (line : Nat) : (evictLine s line).cores = (recallWords s 0 (lineWords line)).cores ∧
    (evictLine s line).reg = (recallWords s 0 (lineWords line)).reg ∧ lookup (evictLine s line).l2 line = none ∧
    ∀ k, k ≠ line → lookup (evictLine s line).l2 k = lookup s.l2 k := by
  have hl2 : (recallWords s 0 (lineWords line)).l2 = s.l2 := by
    obtain ⟨c, r, h⟩ := recallWords_frame s 0 (lineWords line)
    rw [h]
  unfold evictLine
  dsimp only
  rw [show (List.range 32).map (line * 32 + ·) = lineWords line from rfl]
  generalize recallWords s 0 (lineWords line) = t at hl2 ⊢
  split
  · next h => exact ⟨rfl, rfl, h, fun k _ => by rw [hl2]⟩
  · next l h =>
    obtain ⟨c, hc⟩ := foldl_channels (f := fun s k => if l.dirty.getLsbD k then
        memRequest s { Asker.device l.cls with core := l.core } (line * 128 + 32 * k) true else s)
      (fun z k => by
        dsimp only
        split
        · exact memRequest_channels ..
        · exact ⟨_, rfl⟩) (List.range 4) { t with l2 := drop t.l2 line }
    rw [hc]
    exact ⟨rfl, rfl, lookup_drop_self .., fun k hk => (lookup_drop_ne _ _ _ hk).trans (by rw [hl2])⟩

theorem evictLine_recalled (s : State) (line : Nat) : Recalled s (evictLine s line) := by
  obtain ⟨hc, hr, -, -⟩ := evictLine_frame s line
  exact (recallWords_recalled s 0 (lineWords line)).trans (.of_eq hc hr)
theorem l2Allocate_recalled (s : State) (x : Asker) (line : Nat) : Recalled s (l2Allocate s x line) := by
  unfold l2Allocate
  split
  · exact .refl s
  · extract_lets full vs s1
    have hs1 : Recalled s s1 := by
      simp only [s1]
      split
      · exact (evictLine_recalled s _).drew
      · exact .refl s
    exact hs1.withL2 _
theorem l2Sector_recalled (x : Asker) (write : Bool) (pa n : Nat) (s : State) (sector : Nat) :
    Recalled s (l2Sector x write pa n s sector) := by
  unfold l2Sector
  extract_lets line s1
  refine (l2Allocate_recalled s x line).trans ?_
  change Recalled s1 _
  split
  · exact .refl s1
  · refine Recalled.withL2 ?_ _
    split
    · exact .refl s1
    · obtain ⟨c, hc⟩ := memRequest_channels s1 x (32 * sector) false
      rw [hc]
      exact (Recalled.refl s1).withChannels c
/-- The use of an L2 may take words back. -/
theorem l2Use_recalled (s : State) (x : Asker) (write : Bool) (pa n : Nat) : Recalled s (l2Use s x write pa n) := by
  obtain ⟨p, a, h⟩ := asker_event_only x (l2Touch s x write pa n) 7 (sectorsOf pa n).length
  unfold l2Use
  rw [h]
  exact (Recalled.foldl (l2Sector_recalled x write pa n) _ s).counted p a

/-! ## A store at its home (R205) -/

theorem registerWords_reg (s : State) (core : Nat) {ws : List Nat} {w : Nat} (hw : w ∈ ws) :
    getD (registerWords s core ws).reg 0 w = core + 1 :=
  getD_foldl_setD (fun _ => core + 1) ws s.reg (.inl hw)

/-- What a request counts leaves the descriptors of dirty tracking. -/
theorem untracked_event {s : State} (h : Untracked s) (x : Asker) (ev n : Nat) : Untracked (x.event s ev n) := by
  unfold Asker.event
  split
  · unfold State.event
    extract_lets p
    split
    · exact h
    · exact untracked_mapPart (p := x.cls) (f := fun p => { p with counters := _ }) h rfl
  · exact h
theorem untracked_l2Use {s : State} (h : Untracked s) (x : Asker) (write : Bool) (pa n : Nat) :
    Untracked (l2Use s x write pa n) :=
  untracked_event (s := l2Touch s x write pa n) (by unfold Untracked; rw [l2Touch_parts]; exact h) x 7 _

/-- The state in which the bytes of a store are written at its home. -/
def storeRegistered (s : State) (h : HomeStore) : State :=
  registerWords (recallWords (l2Use s ⟨h.part, h.core, h.sid, h.slot⟩ true h.pa h.bytes.length) (h.core + 1)
    (wordsOf h.pa h.bytes.length)) h.core (wordsOf h.pa h.bytes.length)
theorem homePerform_flush {s : State} {h : HomeStore} (hf : h.flush = true) : homePerform s h = s := if_pos hf
theorem homePerform_store {s : State} {h : HomeStore} (hf : h.flush = false) :
    homePerform s h = homeWrite (storeRegistered s h) h.pa h.bytes := by
  unfold homePerform
  rw [hf]
  rfl

theorem storeRegistered_frame (s : State) (h : HomeStore) :
    (storeRegistered s h).mem = s.mem ∧ (storeRegistered s h).sheets = s.sheets ∧ (storeRegistered s h).homeq = s.homeq ∧
      (Untracked s → Untracked (storeRegistered s h)) := by
  obtain ⟨c, r, hr⟩ := recallWords_frame (l2Use s ⟨h.part, h.core, h.sid, h.slot⟩ true h.pa h.bytes.length) (h.core + 1)
    (wordsOf h.pa h.bytes.length)
  unfold storeRegistered
  rw [hr]
  exact ⟨l2Use_mem .., l2Use_sheets .., l2Use_homeq .., fun hu => untracked_l2Use hu _ true h.pa h.bytes.length⟩
theorem storeRegistered_reg (s : State) (h : HomeStore) {w : Nat} (hw : w ∈ wordsOf h.pa h.bytes.length) :
    getD (storeRegistered s h).reg 0 w = h.core + 1 := registerWords_reg _ _ hw
theorem storeRegistered_notInL1 {s : State} {h : HomeStore} {w c : Nat} (hw : w ∈ wordsOf h.pa h.bytes.length) (hc : c ≠ h.core)
    (hreg : getD s.reg 0 w = c + 1) : NotInL1 (storeRegistered s h) c w :=
  ((l2Use_recalled s ⟨h.part, h.core, h.sid, h.slot⟩ true h.pa h.bytes.length).kept w c hreg).elim
    (recallWords_notInL1 (by omega) hw) (recallWords_recalled ..).notInL1

theorem homeWrite_frame (s : State) (pa : Nat) (bs : List Byte) : (homeWrite s pa bs).homeq = s.homeq ∧
    (homeWrite s pa bs).reg = s.reg ∧ (homeWrite s pa bs).cores = s.cores := by
  have hq : (homeWrite s pa bs).homeq = ((markDirty s pa bs.length).writeBytes pa bs).homeq := rfl
  have hr : (homeWrite s pa bs).reg = ((markDirty s pa bs.length).writeBytes pa bs).reg := rfl
  have hc : (homeWrite s pa bs).cores = ((markDirty s pa bs.length).writeBytes pa bs).cores := rfl
  rw [hq, hr, hc, State.writeBytes_homeq, State.writeBytes_reg, State.writeBytes_cores, markDirty_only s pa bs.length]
  exact ⟨rfl, rfl, rfl⟩

/-- A sheet in LWAIT as a write of `n` bytes at `pa` leaves it (R433). -/
def Sheet.woken (s : State) (pa n : Nat) (sh : Sheet) : Sheet :=
  match sh.sys with
  | .lwait _ q id =>
    if runsMeet pa n (q / 128 * 128) 128 ∧ 2 ≤ recStatus s q then { sh with sys := .found (recStatus s q) id } else sh
  | _ => sh
theorem Sheet.woken_queue (s : State) (pa n : Nat) (sh : Sheet) : (sh.woken s pa n).queue = sh.queue := by
  unfold Sheet.woken
  split
  · split <;> rfl
  · rfl
theorem wakeLwait_sheet? (s : State) (pa n sid : Nat) : (wakeLwait s pa n).sheet? sid = (s.sheet? sid).map (Sheet.woken s pa n) := by
  refine lookup_map_val _ _ _ ?_ sid
  rintro ⟨a, sh⟩ -
  unfold Sheet.woken
  dsimp only
  cases sh.sys with
  | lwait _ q id => exact (apply_ite (Prod.mk a) ..).symm
  | _ => rfl
/-- A write at a home may wake sheets, and leaves their queues. -/
theorem homeWrite_queue {s : State} {pa sid : Nat} {bs : List Byte} {y : Sheet} (h : (homeWrite s pa bs).sheet? sid = some y) :
    ∃ sh, s.sheet? sid = some sh ∧ y.queue = sh.queue := by
  unfold homeWrite at h
  rw [wakeLwait_sheet?] at h
  obtain ⟨sh, hsh, rfl⟩ := Option.map_eq_some_iff.mp h
  refine ⟨sh, ?_, Sheet.woken_queue ..⟩
  rwa [State.sheet?, State.writeBytes_sheets, markDirty_only s pa bs.length] at hsh

/-! ## The events -/

/-- Where no ordering operation waits, none completes. -/
theorem settle_of_no_order {s : State} {sid : Nat} (h : ∀ sh, s.sheet? sid = some sh → ∀ a ∈ sh.queue, a.kind ≠ .order) (n : Nat) :
    settle n s sid = s := by
  have hnone : nextOrder s sid = none := by
    unfold nextOrder
    split
    · rfl
    · next sh hsh =>
      rw [Option.map_eq_none_iff, List.find?_eq_none]
      rintro ⟨a, k⟩ ha
      have hkind := h sh hsh a (List.fst_mem_of_mem_zipIdx ha)
      simp [completes, mayComplete, Access.isOrder, hkind]
  cases n with
  | zero => rfl
  | succ n => unfold settle; rw [hnone]

/-- A store in its turn is performed, and no ordering operation of its sheet waits for it. -/
theorem storePerformedAtHome_eq {s : State} {k : Nat} {h : HomeStore} (hk : s.homeq[k]? = some h)
    (hturn : homeBehind (s.homeq.take k) h = false)
    (hord : ∀ sh, s.sheet? h.sid = some sh → ∀ a ∈ sh.queue, a.kind ≠ .order) :
    exec (.storePerformedAtHome k) s = .next (homePerform { s with homeq := s.homeq.eraseIdx k } h) := by
  have hstep : storePerformedAtHome k s = homePerform { s with homeq := s.homeq.eraseIdx k } h := by
    unfold storePerformedAtHome
    rw [hk]
    simp only [hturn, Bool.false_eq_true, if_false, ← List.eraseIdx_eq_take_drop_succ]
    refine settle_of_no_order (fun y hy => ?_) 64
    cases hf : h.flush with
    | true =>
      rw [homePerform_flush hf] at hy
      exact hord y hy
    | false =>
      rw [homePerform_store hf] at hy
      obtain ⟨sh, hsh, hq⟩ := homeWrite_queue hy
      obtain ⟨-, hsheets, -, -⟩ := storeRegistered_frame { s with homeq := s.homeq.eraseIdx k } h
      rw [State.sheet?, hsheets] at hsh
      rw [hq]
      exact hord sh hsh
  exact congrArg Host.Outcome.next hstep

/-- A store that is no flush stands in memory once it is performed, and its words are registered to its core alone. -/
theorem homePerform_writes (s : State) {h : HomeStore} (hf : h.flush = false) : WroteRun s (homePerform s h) h.pa h.bytes ∧
    (homePerform s h).homeq = s.homeq ∧ ∀ w ∈ wordsOf h.pa h.bytes.length, getD (homePerform s h).reg 0 w = h.core + 1 ∧
      ∀ c, c ≠ h.core → getD s.reg 0 w = c + 1 → NotInL1 (homePerform s h) c w := by
  obtain ⟨hmem, -, hq, hun⟩ := storeRegistered_frame s h
  obtain ⟨hwq, hwr, hwc⟩ := homeWrite_frame (storeRegistered s h) h.pa h.bytes
  obtain ⟨hbytes, hother⟩ := wroteRun_homeWrite (storeRegistered s h) h.pa h.bytes
  rw [homePerform_store hf]
  refine ⟨⟨hbytes, fun hu a ha => (hother (hun hu) a ha).trans ?_⟩, hwq.trans hq, fun w hw => ⟨?_, fun c hc hreg => ?_⟩⟩
  · rw [State.readByte, hmem, State.readByte]
  · rw [hwr]; exact storeRegistered_reg s h hw
  · have hn := storeRegistered_notInL1 hw hc hreg
    exact (Recalled.of_eq hwc hwr).notInL1 hn

theorem homeInvalidation_eq {s : State} {core word : Nat} (hcore : core < 1536) (hreg : getD s.reg 0 word = core + 1) :
    exec (.homeInvalidation core word) s = .next (invalidateWord s core word) :=
  (runAt_ok (ok := Instr.wf (.homeInvalidation core word)) (decide_eq_true hcore) _ s).trans (by rw [homeInvalidation, if_pos hreg])

/-- A line has left its L2, and its words the L1s that they were registered to. -/
theorem evictLine_leaves (s : State) {line : Nat} (hline : line < 2 ^ 45) :
    SameMemory s (evictLine s line) ∧ (evictLine s line).homeq = s.homeq ∧ lookup (evictLine s line).l2 line = none ∧
    (∀ l, l ≠ line → lookup (evictLine s line).l2 l = lookup s.l2 l) ∧
    (∀ w, w / 32 = line → getD (evictLine s line).reg 0 w = 0 ∧ ∀ c, getD s.reg 0 w = c + 1 → NotInL1 (evictLine s line) c w) ∧
    ∀ w, w < 2 ^ 50 → w / 32 ≠ line → getD (evictLine s line).reg 0 w = getD s.reg 0 w ∧
      ∀ c, l1Find (evictLine s line) c 0 w = l1Find s c 0 w ∧ l1Find (evictLine s line) c 1 w = l1Find s c 1 w := by
  obtain ⟨hcores, hreg, hgone, hother⟩ := evictLine_frame s line
  have hl1 : ∀ c half w, l1Find (evictLine s line) c half w = l1Find (recallWords s 0 (lineWords line)) c half w := fun c half w => by
    rw [l1Find, State.core, hcores, l1Find, State.core]
  have hsame := evictLine_only s line
  have hmem : (evictLine s line).mem = s.mem := by rw [hsame]
  refine ⟨fun a => by rw [State.readByte, hmem, State.readByte], by rw [hsame], hgone, hother, fun w hw => ?_, fun w hw hne => ?_⟩
  · have hmem := mem_lineWords.mpr hw
    unfold NotInL1
    simp only [hreg, hl1]
    exact ⟨recallWords_reg_zero hmem, fun c hc => recallWords_notInL1 (Nat.succ_ne_zero c) hmem hc⟩
  · obtain ⟨hreg', hl1'⟩ := recallWords_other (keep := 0) (s := s) hw
      (fun x hx => by have := mem_lineWords.mp hx; omega) (fun h => hne (mem_lineWords.mp h))
    simp only [hreg, hl1]
    exact ⟨hreg', fun c => ⟨hl1' c 0, hl1' c 1⟩⟩

/-- Settles O40: what a store does at its home, and what a recall takes from the L1s. -/
theorem homesAndRegistrations : Obligations.HomesAndRegistrations := by
  intro s
  refine ⟨fun k h hk hturn hord => ⟨fun hf => ?_, fun hf => ?_⟩, fun core word hcore hreg => ?_, fun line hpin => ?_,
    fun line hline hpin => ?_⟩
  · refine does_next (storePerformedAtHome_eq hk hturn hord) ?_
    rw [homePerform_flush hf]
    exact ⟨fun _ => rfl, rfl⟩
  · exact does_next (storePerformedAtHome_eq hk hturn hord) (homePerform_writes { s with homeq := s.homeq.eraseIdx k } hf)
  · obtain ⟨h0, h1⟩ := invalidateWord_notInL1 s core word
    have hsame := invalidateWord_only s core word
    exact does_next (homeInvalidation_eq hcore hreg) ⟨fun a => by rw [hsame]; rfl, by rw [hsame], h0, h1,
      invalidateWord_reg_self hreg, fun k hk0 hk1 => invalidateWord_lookup_ne s core word hk0 hk1 core,
      fun w hw => invalidateWord_reg_ne s core hw, fun c hc => invalidateWord_core_ne s word hc⟩
  · exact congrArg Host.Outcome.next (if_pos hpin)
  · have hstep : exec (.l2LineEviction line) s = .next (evictLine s line) :=
      congrArg Host.Outcome.next (if_neg (by simp [hpin]))
    exact does_next hstep (evictLine_leaves s hline)

end Sys2Proof.Machine
end

section
/-! What an instruction's step is: an operation's runs the bundle of its trigger move with the meaning that the bundle's table gives
it, an event's is taken where its units are the device's (R11, R17; log 7). -/

namespace Sys2Proof.Machine

/-- An operation's own row and the bundle's table give it one meaning. -/
theorem exec_of_meaningOf {i : Instr} {o : OpMeaning} (h : meaningOf i = some o) : exec i = runOp i o := by
  cases i <;> cases h <;> rfl

theorem runOp_next (i : Instr) (o : OpMeaning) (s : State) : ∃ t, runOp i o s = .next t := by
  unfold runOp
  split <;> exact ⟨_, rfl⟩

/-- A step that is no operation's is taken under a condition that every well-formed instruction meets. -/
theorem exec_of_event {i : Instr} (h : meaningOf i = none) :
    ∃ ok f, (∀ s, exec i s = runAt ok f s) ∧ (i.wf = true → ok = true) := by
  cases i with
  | resultLanding | loadPerformed | divideComplete | storePerformedAtL1 | storePerformedAtHome | homeInvalidation | l2LineEviction
  | xpcfgWrite | bankFormatWrite | commandIssue | reservationGrant | operandsConsumed | commandCompletion | statusLanding | byteArrival
  | bowaitTimeout | roundClose | groupArrival | roundFailure | lateCauseStop | commandCancel | commandResume | faultHandling | emulation
  | resumedBundle | debuggerResume | debuggerSkip | debuggerTerminate | watchdog | softErrorCorrected | uncorrectable | sampleRecord
  | svcAnswer | launchSubmission | launchAcceptance | spawnedLaunch | dispatchBatch | workgroupStart | sheetExit | gridRetire
  | gridTermination | functionLevelReset | scrubStart | scrubComplete | classGRequest | graphBoundaryStop | classGEscalation
  | classDRequest | drainPointStop | forcedStopDeadline | contextSave | contextRestore | redirectedRequest | discardedRequest
  | contextKill | pageWalk
  | pageRequestMapped | pageRequestRefused | translationInvalidation | partitionTableWrite | coreAssignmentWrite | coreAssignmentEffect
  | vfAssignmentWrite | reductionGroupWrite | pinRelease | managementRegisterWrite | memoryRequestServe | networkSectorGrant
  | refillPeriodEnd | pairBalance | boostLeaseRequest | leaseExpiry | leaseRetry | voltageVote | clockStepConfirm | railFall
  | counterRead | counterLowRead | counterHighRead | pcselWrite | ringDescriptorWrite | ringReadAdvance | policySubmit | lerrRead
  | irqstWrite | semaphoreRead | semaphoreRelease | portLinkDown | linkTraining | hostPostedWrite | hostRead | linkFailure | precopyGo
  | precopyRound | precopyFinal | pageMessageReceive | imageMessageReceive | hostStoreToCoherentMapping | railSettled | counterWindowEnd =>
    exact ⟨_, _, fun _ => rfl, id⟩
  | bundleIssue | markerBundle | budgetPeriod | powerLimitMeasures | deviceReset | peerDeviceRequest =>
    exact ⟨true, _, fun _ => rfl, fun _ => rfl⟩
  | memoryRequestArrival ch cls n sector =>
    refine ⟨channelOk ch, _, fun _ => rfl, fun hwf => ?_⟩
    simp only [Instr.wf, Bool.and_eq_true] at hwf
    exact hwf.1.1
  | pageRequestEnqueue x =>
    exact ⟨requesterOk x, _, fun _ => rfl, by cases x <;> exact id⟩
  | _ => cases h

end Sys2Proof.Machine
end

section
/-! What may happen in a state (log 3): an event, what an issue stage takes, a step of a sheet that happens as soon as it can, or the
passing of a nanosecond. -/

namespace Sys2Proof.Machine

/-- What an action is. -/
inductive Planned : Action → Prop
  | event (i : Instr) : Planned (exec i)
  | pick (p : Nat × Next) : Planned (issuePick p)
  | settles (sid : Nat) : Planned (fun s => .next (settle 64 s sid))
  | finishes (sid : Nat) : Planned (fun s => .next (finishHeld sid (sheetMeanings s sid) s))
  | asks (sid : Nat) (sh : Sheet) : Planned (fun s => .next (askSheet s sid sh))
  | fetches (sid : Nat) (sh : Sheet) : Planned (fun s => .next (fetchAsk s sid sh))
  | fetched (sid : Nat) (sh : Sheet) : Planned (fun s => .next (fetchDone s sid sh))
  | skips (sid : Nat) : Planned (fun s => .next (skipBody 16 s sid))
  | holds (sid : Nat) : Planned (fun s => .next (s.mapSheet sid (fun sh => { sh with park := .boundary })))
  | found (sid v id : Nat) : Planned (fun s => .next (lwaitFound s sid v id))
  | ticks : Planned (fun s => .next (tick s))

theorem Planned.of_exec {a : Action} (i : Instr) (h : exec i = a := by rfl) : Planned a := h ▸ .event i

/-- Every action of a list is one of these. -/
structure AllPlanned (l : List Action) : Prop where
  of_mem : ∀ a ∈ l, Planned a

namespace AllPlanned

theorem nil : AllPlanned [] := ⟨fun _ h => absurd h List.not_mem_nil⟩
theorem singleton {a : Action} (h : Planned a) : AllPlanned [a] := ⟨fun _ hb => List.mem_singleton.mp hb ▸ h⟩
theorem append {l m : List Action} (hl : AllPlanned l) (hm : AllPlanned m) : AllPlanned (l ++ m) :=
  ⟨fun a h => (List.mem_append.mp h).elim (hl.of_mem a) (hm.of_mem a)⟩
theorem map {α : Type} {f : α → Action} {l : List α} (h : ∀ x, Planned (f x)) : AllPlanned (l.map f) :=
  ⟨fun _ ha => by obtain ⟨x, -, rfl⟩ := List.mem_map.mp ha; exact h x⟩
theorem flatMap {α : Type} {f : α → List Action} {l : List α} (h : ∀ x, AllPlanned (f x)) : AllPlanned (l.flatMap f) :=
  ⟨fun a ha => by obtain ⟨x, -, hx⟩ := List.mem_flatMap.mp ha; exact (h x).of_mem a hx⟩
theorem ofIte {c : Prop} [Decidable c] {l m : List Action} (hl : AllPlanned l) (hm : AllPlanned m) :
    AllPlanned (if c then l else m) := by
  split
  · exact hl
  · exact hm
theorem when {b : Bool} {a : Action} (h : Planned a) : AllPlanned (when_ b a) := ofIte (singleton h) nil
/-- An event that happens under a condition. -/
theorem event {b : Bool} {a : Action} (i : Instr) (h : exec i = a := by rfl) : AllPlanned (when_ b a) := when (.of_exec i h)
/-- A load or an atomic is performed, or a store leaves the L1. -/
theorem performs {α : Type} (b : α → Bool) (sid : Nat) (k : α → Nat) (l : List α) :
    AllPlanned (l.map (fun x => if b x then execLoadPerformed sid (k x) else execStorePerformedAtL1 sid (k x))) :=
  map (fun x => by split; exacts [.of_exec (.loadPerformed ..), .of_exec (.storePerformedAtL1 ..)])

end AllPlanned

open AllPlanned

/-! ## What is due -/

theorem flowDue_planned (s : State) (e : Nat × Sheet) : AllPlanned (flowDue s e) := by
  unfold flowDue
  split
  · exact ofIte (performs ..) nil
  · exact nil
theorem sheetDue_planned (s : State) (e : Nat × Sheet) : AllPlanned (sheetDue s e) := by
  unfold sheetDue
  extract_lets c lim
  repeat' refine append ?_ ?_
  · exact when (.settles _)
  · exact when (.finishes _)
  · exact when (.asks ..)
  · exact when (.fetches ..)
  · exact when (.fetched ..)
  · exact flowDue_planned s e
  · exact event (.drainPointStop _)
  · exact when (.skips _)
  · exact when (.holds _)
  · split
    · exact singleton (.found ..)
    · exact nil
  · exact event (.bowaitTimeout _)
  · exact event (.watchdog _)
theorem coreDue_planned (s : State) (e : Nat × Core) : AllPlanned (coreDue s e) := by
  unfold coreDue
  exact ((flatMap fun x => event (.scrubComplete e.1 x.1)).append (event (.refillPeriodEnd _))).append (event (.networkSectorGrant _))
theorem partDue_planned (s : State) (e : Nat × Part) : AllPlanned (partDue s e) := by
  unfold partDue
  exact ((event (.classGEscalation _)).append (event (.forcedStopDeadline _))).append (event (.leaseExpiry _))
theorem stepsDue_planned (s : State) (e : Nat × Rail) : AllPlanned (stepsDue s e) := by
  unfold stepsDue
  split
  · exact nil
  · exact flatMap fun cl => event (.clockStepConfirm _)
theorem arrivalSteps_planned (s : State) : AllPlanned (arrivalSteps s) :=
  (flatMap fun k => event (.byteArrival k)).append (flatMap fun k => event (.groupArrival k))
theorem dueSteps_planned (s : State) : AllPlanned (dueSteps s) := by
  unfold dueSteps
  exact (((((((flatMap (sheetDue_planned s)).append (flatMap (coreDue_planned s))).append (flatMap (partDue_planned s))).append
    (flatMap fun e => (event (.railFall e.1)).append (stepsDue_planned s e))).append (event (.storePerformedAtHome 0))).append
    (arrivalSteps_planned s)).append (flatMap fun e => event (.reservationGrant e.1))).append (event .budgetPeriod)

/-! ## What may happen now or later -/

theorem flowSteps_planned (s : State) (e : Nat × Sheet) : AllPlanned (flowSteps s e) := by
  unfold flowSteps
  extract_lets sid sh
  repeat' refine append ?_ ?_
  · exact map fun f => .of_exec (.resultLanding sid f.unit f.thread)
  · exact map fun t => .of_exec (.divideComplete sid t)
  · exact performs ..
  · split
    · refine ofIte (singleton (.of_exec (.xpcfgWrite sid))) ?_
      split
      · exact event (.bankFormatWrite sid)
      · exact nil
    · exact event (.svcAnswer sid 0)
    · exact nil
theorem stopSteps_planned (s : State) (e : Nat × Sheet) : AllPlanned (stopSteps s e) := by
  unfold stopSteps
  extract_lets sid sh
  repeat' refine append ?_ ?_
  · exact event (.lateCauseStop sid)
  · exact event (.faultHandling sid)
  · split
    · exact (event (.emulation sid)).append (event (.pageRequestEnqueue (.sheet sid)))
    · exact nil
  · exact event (.resumedBundle sid)
  · exact event (.sheetExit sid)
theorem cmdSteps_planned (s : State) (core : Nat) (e : Nat × Cmd) : AllPlanned (cmdSteps s core e) := by
  unfold cmdSteps
  extract_lets c miss
  exact ((((event (.commandIssue core e.1)).append (event (.operandsConsumed core e.1))).append
    (event (.pageRequestEnqueue (.command core e.1)))).append (event (.commandCompletion core e.1))).append
    (event (.statusLanding c.sid c.unit))
theorem coreSteps_planned (s : State) (e : Nat × Core) : AllPlanned (coreSteps s e) := by
  unfold coreSteps
  extract_lets core k
  exact (((flatMap (cmdSteps_planned s core)).append (event (.coreAssignmentEffect core))).append (event (.clockStepConfirm core))).append
    (ofIte (flatMap fun col => event (.scrubStart core col)) nil)
theorem gridSteps_planned (s : State) : AllPlanned (gridSteps s) := by
  unfold gridSteps
  exact ((((flatMap fun k => event (.launchAcceptance k)).append (flatMap fun k => event (.spawnedLaunch k))).append
    (flatMap fun p => event (.dispatchBatch p))).append (flatMap fun e => event (.workgroupStart e.1))).append
    (flatMap fun e => (event (.gridRetire e.1)).append (event (.gridTermination e.1)))
theorem roundSteps_planned (s : State) : AllPlanned (roundSteps s) := by
  unfold roundSteps
  exact (flatMap fun r => (event (.roundClose r.part r.group r.roff)).append (event (.roundFailure r.part r.group r.roff))).append
    (flatMap fun k => (event (.redirectedRequest k)).append (event (.discardedRequest k)))
theorem memorySteps_planned (s : State) : AllPlanned (memorySteps s) := by
  unfold memorySteps
  exact ((flatMap fun k => event (.storePerformedAtHome k)).append (map fun l => .of_exec (.l2LineEviction l))).append
    (flatMap fun e => event (.memoryRequestServe e.1))
theorem savedSteps_planned (s : State) (e : Nat × Part) : AllPlanned (savedSteps s e) := by
  refine flatMap fun x => (event (.emulation x.1)).append ?_
  split
  · exact event (.svcAnswer x.1 0)
  · exact nil
theorem partSteps_planned (s : State) (e : Nat × Part) : AllPlanned (partSteps s e) := by
  unfold partSteps
  exact (((savedSteps_planned s e).append (event (.graphBoundaryStop e.1))).append (event (.precopyRound e.1))).append
    (event (.precopyFinal e.1))
theorem openSteps_planned (s : State) : AllPlanned (openSteps s) := by
  unfold openSteps
  exact ((((((flatMap fun e => (flowSteps_planned s e).append (stopSteps_planned s e)).append (flatMap (coreSteps_planned s))).append
    (gridSteps_planned s)).append (roundSteps_planned s)).append (memorySteps_planned s)).append (flatMap (partSteps_planned s))).append
    (flatMap fun e => event (.railSettled e.1))

/-- Every action of a state. -/
theorem actions_planned (s : State) : AllPlanned (actions s) := by
  unfold actions
  extract_lets now
  exact (((dueSteps_planned s).append (map .pick)).append (openSteps_planned s)).append (ofIte (singleton .ticks) nil)

end Sys2Proof.Machine
end

section
/-! O2: what ends a step. An action of a state is an event, a bundle that a stage takes, or a step that always has a next state. -/

namespace Sys2Proof.Machine

/-- An outcome is a next state, or the fault of an event that names a unit the device does not have. -/
def Ends (o : Host.Outcome State Fault Refusal) : Prop := (∃ t, o = .next t) ∨ o = .fault .noSuchUnit

theorem Ends.next (t : State) : Ends (.next t) := .inl ⟨t, rfl⟩
theorem Ends.ne_refused {o : Host.Outcome State Fault Refusal} (h : Ends o) (r : Refusal) : o ≠ .refused r := by
  rintro rfl
  obtain ⟨t, ht⟩ | h := h
  · cases ht
  · cases h

theorem runAt_ends (ok : Bool) (f : State → State) (s : State) : Ends (runAt ok f s) := by
  unfold runAt
  split
  · exact .next _
  · exact .inr rfl

theorem exec_ends (i : Instr) (s : State) : Ends (exec i s) := by
  cases h : meaningOf i with
  | some o =>
    rw [exec_of_meaningOf h]
    exact .inl (runOp_next i o s)
  | none =>
    obtain ⟨ok, f, hf, -⟩ := exec_of_event h
    rw [hf]
    exact runAt_ends ok f s

/-- A well-formed instruction names only what the device has. -/
theorem exec_next {i : Instr} (hwf : i.wf = true) (s : State) : ∃ t, exec i s = .next t := by
  cases h : meaningOf i with
  | some o =>
    rw [exec_of_meaningOf h]
    exact runOp_next i o s
  | none =>
    obtain ⟨ok, f, hf, hok⟩ := exec_of_event h
    exact ⟨f s, (hf s).trans (runAt_ok (hok hwf) f s)⟩

theorem issuePick_ends (p : Nat × Next) (s : State) : Ends (issuePick p s) := by
  unfold issuePick
  split
  · exact exec_ends ..
  · exact exec_ends (.resumedBundle p.1) s
  · split <;> exact .next _

theorem Planned.ends {a : Action} (h : Planned a) (s : State) : Ends (a s) := by
  cases h with
  | event i => exact exec_ends i s
  | pick p => exact issuePick_ends p s
  | settles | finishes | asks | fetches | fetched | skips | holds | found | ticks => exact .next _

theorem step_ends (s : State) : Ends (step s) := by
  unfold step
  split
  · exact exec_ends ..
  · obtain ⟨a, ha, h⟩ := chooseAction_mem s
    have hplan := (actions_planned s).of_mem a ha
    rcases h with h | h <;> rw [h] <;> exact hplan.ends _

/-- Settles O2: a well-formed instruction names only units that the device has, and every action of a step ends. -/
theorem everyInstructionEnds : Obligations.EveryInstructionEnds :=
  fun s => ⟨fun _ hwf => exec_next hwf s, fun i r => (exec_ends i s).ne_refused r, step_ends s⟩

end Sys2Proof.Machine
end


section

namespace Sys2Proof.Machine

/-! ## The canonical form of memory (R15, R192; log 5)

Memory changes by writes of bytes alone; a write of a byte keeps the form, and so does every function that answers a state. -/

/-- Memory is in its canonical form. -/
def State.Formed (s : State) : Prop := Memory.wf s.mem

theorem State.Formed.of_mem {s t : State} (h : s.Formed) (e : t.mem = s.mem) : t.Formed := by
  unfold State.Formed
  rwa [e]

/-- Either branch of a choice. -/
theorem formed_ite {c : Prop} [Decidable c] {a b : State} (ha : a.Formed) (hb : b.Formed) : (if c then a else b).Formed := by
  split
  · exact ha
  · exact hb

theorem foldl_formed {α : Type} {f : State → α → State} (hf : ∀ s a, s.Formed → (f s a).Formed) :
    ∀ (l : List α) {s : State}, s.Formed → (l.foldl f s).Formed
  | [], _, h => h
  | a :: l, s, h => foldl_formed hf l (hf s a h)

section
variable {s : State}

/-! ### Updates of the state -/

theorem event_formed {part core sid slot ev k : Nat} (h : s.Formed) : (s.event part core sid slot ev k).Formed :=
  h.of_mem (State.event_mem ..)
theorem sheetEvent_formed {sid : Nat} {sh : Sheet} {slot ev k : Nat} (h : s.Formed) : (s.sheetEvent sid sh slot ev k).Formed :=
  event_formed h
theorem askerEvent_formed {x : Asker} {ev n : Nat} (h : s.Formed) : (x.event s ev n).Formed := by
  obtain ⟨p, a, e⟩ := asker_event_only x s ev n
  exact h.of_mem (by rw [e])
theorem setSheet_formed {sid : Nat} {sh : Sheet} (h : s.Formed) : (s.setSheet sid sh).Formed := h
theorem mapSheet_formed {sid : Nat} {f : Sheet → Sheet} (h : s.Formed) : (s.mapSheet sid f).Formed := h.of_mem (State.mapSheet_mem ..)
theorem mapWg_formed {w : Nat} {f : Workgroup → Workgroup} (h : s.Formed) : (s.mapWg w f).Formed := h.of_mem (State.mapWg_mem ..)
theorem mapGrid_formed {g : Nat} {f : Grid → Grid} (h : s.Formed) : (s.mapGrid g f).Formed := h.of_mem (State.mapGrid_mem ..)
theorem mapCore_formed {c : Nat} {f : Core → Core} (h : s.Formed) : (s.mapCore c f).Formed := h
theorem mapPart_formed {p : Nat} {f : Part → Part} (h : s.Formed) : (s.mapPart p f).Formed := h
theorem drew_formed (h : s.Formed) : s.drew.Formed := h
theorem setClock_formed {c x : Nat} (h : s.Formed) : (s.setClock c x).Formed := h.of_mem (State.setClock_mem ..)
theorem writeByte_formed {a : Nat} {x : Byte} (h : s.Formed) : (s.writeByte a x).Formed := State.writeByte_wf _ _ _ h
theorem writeBytes_formed {a : Nat} {l : List Byte} (h : s.Formed) : (s.writeBytes a l).Formed := State.writeBytes_wf _ _ _ h
theorem takeCause_formed {sid : Nat} {t : Trap} (h : s.Formed) : (s.takeCause sid t).Formed := by
  unfold State.takeCause
  split
  · exact h
  · exact sheetEvent_formed (setSheet_formed h)

/-! ### Homes (R22, R192, R193, R205) -/

theorem l2Touch_formed {x : Asker} {w : Bool} {pa n : Nat} (h : s.Formed) : (l2Touch s x w pa n).Formed :=
  h.of_mem (by rw [l2Touch_only s x w pa n])
theorem l2Use_formed {x : Asker} {w : Bool} {pa n : Nat} (h : s.Formed) : (l2Use s x w pa n).Formed := h.of_mem (l2Use_mem ..)
theorem recallWords_formed {keep : Nat} {ws : List Nat} (h : s.Formed) : (recallWords s keep ws).Formed :=
  h.of_mem (by rw [recallWords_only s keep ws])
theorem invalidateWord_formed {core word : Nat} (h : s.Formed) : (invalidateWord s core word).Formed :=
  h.of_mem (by rw [invalidateWord_only s core word])
theorem evictLine_formed {line : Nat} (h : s.Formed) : (evictLine s line).Formed := h.of_mem (by rw [evictLine_only s line])
theorem registerWords_formed {core : Nat} {ws : List Nat} (h : s.Formed) : (registerWords s core ws).Formed := h
theorem memArrive_formed {ch : Nat} {x : Asker} {n sector : Nat} {w : Bool} (h : s.Formed) : (memArrive s ch x n sector w).Formed := h
theorem l2Fill_formed {x : Asker} {line : Nat} (h : s.Formed) : (l2Fill s x line).Formed :=
  foldl_formed (fun _ _ h => formed_ite h (l2Use_formed h)) _ h
theorem l2Owe_formed {pa : Nat} (h : s.Formed) : (l2Owe s pa).Formed := by
  unfold l2Owe
  split <;> exact h

theorem markDirty_formed {pa n : Nat} (h : s.Formed) : (markDirty s pa n).Formed := by
  unfold markDirty
  refine foldl_formed (fun s e h => ?_) _ h
  exact formed_ite (foldl_formed (fun s page h => formed_ite (writeByte_formed h) h) _ h) h
theorem homeWrite_formed {pa : Nat} {bs : List Byte} (h : s.Formed) : (homeWrite s pa bs).Formed :=
  writeBytes_formed (markDirty_formed h)
theorem homePerform_formed {x : HomeStore} (h : s.Formed) : (homePerform s x).Formed := by
  unfold homePerform
  exact formed_ite h (homeWrite_formed (registerWords_formed (recallWords_formed (l2Use_formed h))))
theorem drainHomes_formed {p : HomeStore → Bool} (h : s.Formed) : (drainHomes s p).Formed := by
  unfold drainHomes
  exact foldl_formed (fun _ _ => homePerform_formed) _ h
theorem reachHome_formed {core pa : Nat} (h : s.Formed) : (reachHome s core pa).Formed := by
  unfold reachHome
  exact formed_ite (drainHomes_formed h) h
theorem engineStore_formed {x : Asker} {pa : Nat} {bs : List Byte} (h : s.Formed) : (engineStore s x pa bs).Formed :=
  homeWrite_formed (recallWords_formed (l2Touch_formed (reachHome_formed h)))
theorem engineWrite_formed {x : Asker} {pa : Nat} {bs : List Byte} (h : s.Formed) : (engineWrite s x pa bs).Formed :=
  askerEvent_formed (engineStore_formed h)
theorem storePieces_formed {x : Asker} : ∀ {l : List (Nat × Nat)} {bs : List Byte} {s : State}, s.Formed → (storePieces s x l bs).Formed
  | [], _, _, h => h
  | _ :: l, _, _, h => storePieces_formed (l := l) (engineWrite_formed h)
theorem engineRead_formed {x : Asker} {pa n : Nat} (h : s.Formed) : (engineRead s x pa n).Formed :=
  l2Use_formed (reachHome_formed h)

/-! ### Lookups (R305) -/

theorem cacheCore_formed {core key : Nat} {l : Leaf} (h : s.Formed) : (cacheCore s core key l).Formed := h
theorem cacheCluster_formed {core key : Nat} {l : Leaf} (h : s.Formed) : (cacheCluster s core key l).Formed := h
theorem cacheDie_formed {core key : Nat} {l : Leaf} (h : s.Formed) : (cacheDie s core key l).Formed := h
theorem lookPage_formed {vf core sid slot va : Nat} (h : s.Formed) : (lookPage s vf core sid slot va).Formed := by
  unfold lookPage
  extract_lets key x t r u
  refine formed_ite h ?_
  have ht : t.Formed := askerEvent_formed h
  have hu : u.Formed := foldl_formed (fun _ _ => engineRead_formed) _ (askerEvent_formed ht)
  split
  · exact drew_formed (cacheCore_formed ht)
  · split
    · exact drew_formed (cacheCore_formed (cacheCluster_formed ht))
    · clear_value r
      cases r with
      | ok l => exact drew_formed (cacheCore_formed (cacheCluster_formed (cacheDie_formed hu)))
      | error e => exact hu
theorem lookRun_formed {vf core sid slot va n : Nat} (h : s.Formed) : (lookRun s vf core sid slot va n).Formed :=
  foldl_formed (fun _ _ => lookPage_formed) _ h
theorem clearPoison_formed {core vf : Nat} {va : W64} (h : s.Formed) : (clearPoison s core vf va).Formed := by
  unfold clearPoison
  extract_lets l t
  split <;> exact h
theorem joinRequest_formed {die part vf page acc : Nat} {who : Misser} (h : s.Formed) :
    (joinRequest s die part vf page acc who).Formed := by
  unfold joinRequest
  extract_lets
  exact formed_ite h (formed_ite h (formed_ite h (formed_ite h h)))

/-! ### The L1 and the queues (R190, R191, R198 to R212) -/

theorem l1Put_formed {core half word : Nat} {x : L1Word} (h : s.Formed) : (l1Put s core half word x).Formed := h
theorem makeRoom_formed {core half line : Nat} (h : s.Formed) : (makeRoom s core half line).Formed := by
  unfold makeRoom
  extract_lets lines inSet victim
  exact formed_ite h (drew_formed (mapCore_formed h))
theorem fillSector_formed {half : Nat} {x : Asker} {sector : Nat} (h : s.Formed) : (fillSector half x s sector).Formed := by
  unfold fillSector
  exact foldl_formed (fun _ _ h => formed_ite h (l1Put_formed h)) _ (makeRoom_formed (askerEvent_formed (engineRead_formed h)))
theorem fillWords_formed {half : Nat} {x : Asker} {ws : List Nat} (h : s.Formed) : (fillWords s half x ws).Formed :=
  foldl_formed (fun _ _ => fillSector_formed) _ h
theorem l1StoreWord_formed {core half word : Nat} {f : BitVec 32 → BitVec 32} {whole : Bool} (h : s.Formed) :
    (l1StoreWord s core half word f whole).Formed := by
  unfold l1StoreWord
  extract_lets t
  have ht : t.Formed := by
    unfold t
    split
    · exact l1Put_formed h
    · exact h
  split
  · exact l1Put_formed ht
  · exact formed_ite (l1Put_formed (makeRoom_formed ht)) ht
theorem globalStore_formed {sid part slot mt pa : Nat} {bs : List Byte} (h : s.Formed) : (globalStore s sid part slot mt pa bs).Formed := by
  unfold globalStore
  exact formed_ite (homeWrite_formed h) (foldl_formed (fun _ _ => l1StoreWord_formed) _ h)
theorem acquire_formed {sid : Nat} {sc : Scope} (h : s.Formed) : (acquire s sid sc).Formed := by
  unfold acquire
  exact formed_ite h (mapCore_formed h)
theorem readAccess_formed {sid part : Nat} {a : Access} (h : s.Formed) : (readAccess s sid part a).2.Formed := by
  unfold readAccess
  split
  · exact fillWords_formed h
  · split <;> exact h
theorem globalStores_formed {sid part slot mt : Nat} (l : List (Nat × Nat)) : ∀ {r : State × List Byte}, r.1.Formed →
    (l.foldl (fun (r : State × List Byte) (p, n) => (globalStore r.1 sid part slot mt p (r.2.take n), r.2.drop n)) r).1.Formed := by
  induction l with
  | nil => exact fun h => h
  | cons a l ih => exact fun h => ih (globalStore_formed h)
theorem writeAccess_formed {sid part : Nat} {a : Access} {bs : List Byte} (h : s.Formed) : (writeAccess s sid part a bs).Formed := by
  unfold writeAccess
  split
  · exact globalStores_formed _ h
  · exact foldl_formed (fun _ ⟨_, _⟩ => mapWg_formed) _ h
theorem globalAtomic_formed {half mt pa z : Nat} {x : Asker} {inL1 : Bool} {f : Nat → Option Nat} (h : s.Formed) :
    (globalAtomic s half mt pa z x inL1 f).2.Formed := by
  unfold globalAtomic
  extract_lets core line write mine d t
  have hw : ∀ {s : State}, s.Formed → (write s).2.Formed := fun {s} h => by
    unfold write
    dsimp only
    split
    · exact homeWrite_formed h
    · exact h
  have hd : d.Formed := drainHomes_formed h
  have hp : (if mt = 2 then d else l2Use d x true pa z).Formed := formed_ite hd (l2Use_formed hd)
  split
  · exact hw (recallWords_formed (mapCore_formed hp))
  · have ht : t.Formed := formed_ite (l2Owe_formed hd) (registerWords_formed (recallWords_formed (l2Use_formed hd)))
    exact foldl_formed (fun s w h => l1Put_formed (formed_ite (l1Put_formed h) h)) _ (makeRoom_formed (hw ht))
theorem atomicAt_formed {sid part : Nat} {a : Access} {f : Nat → Option Nat} {sys : Bool} (h : s.Formed) :
    (atomicAt s sid part a f sys).2.Formed := by
  unfold atomicAt
  extract_lets p z
  split
  · exact globalAtomic_formed h
  · split
    · exact h
    · extract_lets
      split <;> exact h
theorem netAsk_formed {core part n : Nat} {who : NetWho} (h : s.Formed) : (netAsk s core part n who).Formed := by
  unfold netAsk
  exact formed_ite h (mapCore_formed h)
theorem askSheet_formed {sid : Nat} {sh : Sheet} (h : s.Formed) : (askSheet s sid sh).Formed := by
  unfold askSheet
  exact foldl_formed (fun _ ⟨_, _⟩ h => formed_ite (netAsk_formed h) h) _ h
theorem netPay_formed {core : Nat} {who : NetWho} (h : s.Formed) : (netPay s core who).Formed := by
  unfold netPay
  split
  · exact mapSheet_formed h
  · exact h
  · exact mapSheet_formed h
theorem chargeAccess_formed {sid part : Nat} {a : Access} (h : s.Formed) : (chargeAccess s sid part a).Formed := by
  unfold chargeAccess
  exact formed_ite h (formed_ite (askerEvent_formed h) h)
theorem peerRequest_formed {sid part : Nat} {a : Access} (h : s.Formed) : (peerRequest s sid part a).Formed := h
theorem performEntry_formed {sid part : Nat} {pre : List Access} {a : Access} {post : List Access} (h : s.Formed) :
    (performEntry s sid part pre a post).Formed := by
  unfold performEntry
  refine formed_ite (peerRequest_formed (mapSheet_formed h)) ?_
  split
  extract_lets t stay u z
  have hu : u.Formed := chargeAccess_formed (mapSheet_formed (formed_ite h h))
  split
  · dsimp only
    have hr := readAccess_formed (sid := sid) (part := part) (a := ‹Access›) hu
    refine formed_ite ?_ (mapSheet_formed hr)
    split
    · exact acquire_formed (mapSheet_formed hr)
    · exact mapSheet_formed hr
  · exact formed_ite (writeAccess_formed hu) (mapSheet_formed (writeAccess_formed hu))
  · exact mapSheet_formed (atomicAt_formed hu)
  · exact mapSheet_formed (atomicAt_formed hu)
  · exact hu
theorem performAt_formed {sid k : Nat} {t : State} (ht : performAt s sid k = some t) (h : s.Formed) : t.Formed := by
  unfold performAt at ht
  split at ht
  · cases ht
  · split at ht
    · cases ht
    · split at ht <;> cases ht
      exact performEntry_formed h

/-! ### Rings (R331 to R337) -/

theorem putRecord_formed {part core sid : Nat} {r : RingKind} {lostBit body : Nat} (h : s.Formed) :
    (putRecord s part core sid r lostBit body).Formed := by
  unfold putRecord
  extract_lets g set at_
  have hset : ∀ {s : State} (x : Ring), s.Formed → (set s x).Formed := fun _ h => mapPart_formed h
  clear_value set
  split
  · exact h
  · split
    · exact event_formed (hset _ h)
    · exact hset _ (engineWrite_formed h)
theorem putBoth_formed {part core sid cls lostBit : Nat} {trace : Bool} {body : Nat → Nat} (h : s.Formed) :
    (putBoth s part core sid cls lostBit trace body).Formed := by
  unfold putBoth
  extract_lets t pol ts
  have ht : t.Formed := putRecord_formed h
  split
  · exact putRecord_formed ht
  · exact formed_ite (putRecord_formed (mapPart_formed ht)) (mapPart_formed ht)
  · exact ht
theorem traceRecord_formed {part sid cls src : Nat} {baddr : W64} {arg cause slot : Nat} (h : s.Formed) :
    (traceRecord s part sid cls src baddr arg cause slot).Formed := by
  unfold traceRecord
  exact putBoth_formed h
theorem driftRecord_formed {part sid mark : Nat} {drift : BitVec 24} {armed sat : Bool} (h : s.Formed) :
    (driftRecord s part sid mark drift armed sat).Formed := by
  unfold driftRecord
  exact putBoth_formed h

/-! ### Barriers (R251 to R265) -/

theorem setBar_formed {wg : Nat} {lvl : BarLevel} {num : Nat} {b : Bar} (h : s.Formed) : (setBar s wg lvl num b).Formed := by
  unfold setBar
  split
  · exact h
  · split
    · exact mapGrid_formed h
    · exact mapGrid_formed h
    · exact h
theorem arriveAt_formed {sid : Nat} {sh : Sheet} {lvl : BarLevel} {num : Nat} (h : s.Formed) : (arriveAt s sid sh lvl num).Formed :=
  mapSheet_formed (setBar_formed h)
theorem completeBar_formed {wg : Nat} {lvl : BarLevel} {num : Nat} (h : s.Formed) : (completeBar s wg lvl num).Formed := by
  unfold completeBar
  exact formed_ite (setBar_formed h) h
theorem leaveBarriers_formed {sid : Nat} (h : s.Formed) : (leaveBarriers s sid).Formed := by
  unfold leaveBarriers
  split
  · exact h
  · have step : ∀ {s : State} (wg : Nat) (l : BarLevel), s.Formed →
        ((List.range (levelCount l)).foldl (fun s n => completeBar s wg l n) s).Formed :=
      fun _ _ h => foldl_formed (fun _ _ => completeBar_formed) _ h
    exact formed_ite (step _ .grid (step _ .cl (step _ .wg h))) h
theorem writeObj_formed {wg off o : Nat} (h : s.Formed) : (writeObj s wg off o).Formed := mapWg_formed h
theorem wakeWaiters_formed {wg off : Nat} {v : W64} (h : s.Formed) : (wakeWaiters s wg off v).Formed := h
theorem objStep_formed {wg off : Nat} {r : Nat × Bool} (h : s.Formed) : (objStep s wg off r).Formed := by
  unfold objStep
  exact formed_ite (wakeWaiters_formed (writeObj_formed h)) (writeObj_formed h)
theorem noteStep_formed {wg off ord : Nat} (h : s.Formed) : (noteStep s wg off ord).Formed := mapWg_formed h

end
end Sys2Proof.Machine
end


section

namespace Sys2Proof.Machine

/-! ## The issue of a bundle keeps the form of memory -/

section
variable {s : State}

/-! ### Ordering operations and steps at objects (R50, R199, R206, R263) -/

theorem spawnStep_formed {sid : Nat} {sh : Sheet} {header : W64} {entries : List (List Byte)} {grid : Nat} {r : W64 × State}
    (hr : spawnStep s sid sh header entries grid = .ok r) (h : s.Formed) : r.2.Formed := by
  unfold spawnStep at hr
  extract_lets core n part x at hr
  split at hr
  · cases hr
  split at hr
  · cases hr
  split at hr
  · cases hr
  split at hr
  · cases hr
  extract_lets old tail s1 s2 s3 s4 s5 at hr
  cases hr
  have h1 : s1.Formed := foldl_formed (fun _ _ => lookRun_formed) _ h
  have h2 : s2.Formed := foldl_formed (fun _ ⟨_, _⟩ => storePieces_formed) _ h1
  have h4 : s4.Formed := mapGrid_formed (engineWrite_formed h2)
  exact formed_ite h4 h4
theorem objectStep_formed {k : StepKind} {wg off : Nat} (h : s.Formed) : (objectStep s k wg off).2.Formed := by
  unfold objectStep
  extract_lets o bad
  have hw : ∀ {o : Nat}, (writeObj s wg off o).Formed := writeObj_formed h
  cases k with
  | boinit e => dsimp only; split <;> [exact h; exact hw]
  | boarr n => dsimp only; split <;> [exact h; (split <;> [exact hw; exact objStep_formed h])]
  | boexp b => dsimp only; split <;> [exact h; (split <;> exact hw)]
  | boinv => exact wakeWaiters_formed hw
  | spawn a b c => exact h
theorem stepDone_formed {sid slot : Nat} {u : FUnit} {r : Except Flt W64} {mark : Nat} (h : s.Formed) :
    (stepDone s sid slot u r mark).Formed := by
  unfold stepDone
  extract_lets t
  have ht : t.Formed := mapSheet_formed h
  split
  · exact mapSheet_formed ht
  · exact ht
theorem makeStep_formed {sid : Nat} {sh : Sheet} {slot : Nat} {k : StepKind} {wg off : Nat} (h : s.Formed) :
    (makeStep s sid sh slot k wg off).Formed := by
  unfold makeStep
  split
  · split
    · next hr => exact stepDone_formed (spawnStep_formed hr h)
    · exact stepDone_formed h
  · exact stepDone_formed (objectStep_formed h)
theorem arriveBar_formed {sid : Nat} {l : BarLevel} {num id : Nat} {wait : Bool} (h : s.Formed) :
    (arriveBar s sid l num id wait).Formed := by
  unfold arriveBar
  split
  · exact h
  · exact completeBar_formed (formed_ite (arriveAt_formed h) (mapSheet_formed (arriveAt_formed h)))
theorem bowaitStep_formed {sid : Nat} {sh : Sheet} {off ph timeout id : Nat} {wait : OrdAction → State → State}
    (hw : ∀ {a s}, s.Formed → (wait a s).Formed) (h : s.Formed) : (bowaitStep s sid sh off ph timeout id wait).Formed := by
  unfold bowaitStep
  exact formed_ite (hw h) (formed_ite (hw h) (formed_ite (hw h) (mapSheet_formed (hw (writeObj_formed h)))))
theorem synRequest_formed {sid : Nat} {sh : Sheet} {wg off : Nat} {op : PeerOp} (h : s.Formed) :
    (synRequest s sid sh wg off op).Formed := h
theorem completeAt_formed {sid k : Nat} {sh : Sheet} {a : Access} (h : s.Formed) : (completeAt s sid k sh a).Formed := by
  unfold completeAt
  extract_lets gone become acq noted
  have hgone : ∀ {s}, s.Formed → (gone s).Formed := mapSheet_formed
  have hbecome : ∀ {act s}, s.Formed → (become act s).Formed := mapSheet_formed
  have hacq : ∀ {s}, s.Formed → (acq s).Formed := fun h => by
    unfold acq
    split
    · exact acquire_formed h
    · exact h
  have hnoted : ∀ {s}, s.Formed → (noted s).Formed := fun h => by
    unfold noted
    split
    · exact noteStep_formed h
    · exact h
  clear_value gone become acq noted
  split
  · exact hacq (hgone h)
  · exact mapSheet_formed (hacq (hgone h))
  · exact h
  · exact h
  · exact arriveBar_formed (hgone h)
  · exact mapSheet_formed (hacq (hgone h))
  · exact bowaitStep_formed hbecome (hnoted h)
  · exact formed_ite (hbecome (hnoted h)) (hbecome (synRequest_formed h))
  · split
    · exact hbecome (synRequest_formed h)
    · exact makeStep_formed (hnoted (hgone h))
  · exact hgone h
  · exact hgone h
theorem settle_formed : ∀ {n : Nat} {s : State} {sid : Nat}, s.Formed → (settle n s sid).Formed
  | 0, _, _, h => h
  | n + 1, s, sid, h => by
    unfold settle
    split
    · exact h
    · exact settle_formed (completeAt_formed h)
theorem pushOrder_formed {sid : Nat} {acq rel : Option Scope} {loads stores drain : Bool} {act : OrdAction} (h : s.Formed) :
    (pushOrder s sid acq rel loads stores drain act).Formed := settle_formed (mapSheet_formed h)

/-! ### Meanings -/

/-- What an operation does keeps the form of memory. -/
structure OpMeaning.Formed (o : OpMeaning) : Prop where
  effect : ∀ {x p c s}, s.Formed → (o.effect x p c s).Formed
  onFault : ∀ {x l s}, s.Formed → (o.onFault x l s).Formed
  finish : ∀ {x s}, s.Formed → (o.finish x s).Formed

/-- So does every operation that a trigger move may mean. -/
def Meanings.Formed (mean : Meanings) : Prop := ∀ m o, mean m = .ok o → o.Formed

variable {sid : Nat} {b : BInfo} {waive : List Nat} {skips : List (Nat × Mask)} {mean : Meanings}

theorem writeMove_formed {c : Nat} {m : SavedMove} (h : s.Formed) : (writeMove s sid c m).Formed := by
  unfold writeMove
  refine formed_ite h ?_
  split
  · exact h
  · exact h
  · split
    · exact mapWg_formed h
    · exact h
  · exact formed_ite (mapSheet_formed h) (mapSheet_formed h)
theorem writeMoves_formed {c : Nat} {ms : List SavedMove} (h : s.Formed) : (ms.foldl (fun s m => writeMove s sid c m) s).Formed :=
  foldl_formed (fun _ _ => writeMove_formed) _ h
theorem runPass_formed (hm : mean.Formed) {p c : Nat} {sw : State} : ∀ {ms : List SavedMove} {s : State}, s.Formed →
    (runPass sid b waive skips mean p c sw ms s).Formed
  | [], _, h => h
  | m :: r, s, h => by
    unfold runPass
    refine runPass_formed hm ?_
    split
    · next ho => exact formed_ite h ((hm _ _ ho).effect h)
    · exact h
theorem runFinish_formed (hm : mean.Formed) {sw : State} : ∀ {ms : List SavedMove} {s : State}, s.Formed →
    (runFinish sid b waive skips mean sw ms s).Formed
  | [], _, h => h
  | m :: r, s, h => by
    unfold runFinish
    refine runFinish_formed hm ?_
    split
    · next ho => exact formed_ite h ((hm _ _ ho).finish h)
    · exact h
theorem runControl_formed (hm : mean.Formed) {c : Nat} {sw : State} : ∀ {ms : List SavedMove} {s : State}, s.Formed →
    (runControl sid b waive skips mean c sw ms s).Formed
  | [], _, h => h
  | m :: r, s, h => by
    unfold runControl
    refine runControl_formed hm ?_
    split
    · next ho => exact formed_ite ((hm _ _ ho).effect h) h
    · exact h
theorem skipZeros_formed {m : SavedMove} (h : s.Formed) : (skipZeros sid skips mean m s).Formed := by
  unfold skipZeros
  split
  · exact foldl_formed (fun _ _ => mapSheet_formed) _ h
  · exact h
theorem leaveFaults_formed (hm : mean.Formed) {tent : State} {sh : Sheet} {fl : List (Nat × List (Nat × Flt))} {ms : List SavedMove}
    (h : s.Formed) : (leaveFaults sid b waive skips mean tent sh fl ms s).Formed := by
  unfold leaveFaults
  refine foldl_formed (fun s m h => ?_) _ h
  split
  · next ho => exact formed_ite h ((hm _ _ ho).onFault h)
  · exact h

/-! ### Fetch, cost and counts (R83, R91, R275, R328) -/

theorem fetchAsk_formed {sh : Sheet} (h : s.Formed) : (fetchAsk s sid sh).Formed := by
  unfold fetchAsk
  exact netAsk_formed (mapSheet_formed (lookRun_formed h))
theorem icFill_formed {pick core half line : Nat} (h : s.Formed) : (icFill pick s core half line).Formed := mapCore_formed h
theorem fetchDone_formed {sh : Sheet} (h : s.Formed) : (fetchDone s sid sh).Formed := by
  unfold fetchDone
  exact drew_formed (foldl_formed (fun _ _ h => icFill_formed (engineRead_formed h)) _ (mapSheet_formed h))
theorem skipBody_formed : ∀ {n : Nat} {s : State}, s.Formed → (skipBody n s sid).Formed
  | 0, _, h => h
  | n + 1, s, h => by
    unfold skipBody
    split
    · exact h
    · refine formed_ite h ?_
      split
      · exact takeCause_formed (formed_ite (clearPoison_formed h) h)
      · exact skipBody_formed (setSheet_formed h)
theorem account_formed {pc : W64} {endc stall droop : Nat} {moves tg : List Nat} (h : s.Formed) :
    (account s sid pc endc stall droop moves tg).Formed := by
  unfold account
  extract_lets core col t
  have ht : t.Formed := mapCore_formed h
  split
  · exact ht
  · extract_lets t1 t2 t3 t4
    have h2 : t2.Formed := sheetEvent_formed (setSheet_formed ht)
    have h3 : t3.Formed := foldl_formed (fun _ _ => sheetEvent_formed) _ h2
    have h4 : t4.Formed := formed_ite (sheetEvent_formed h3) h3
    exact formed_ite h4 (sheetEvent_formed h4)
theorem interlockTrace_formed {s0 : State} {sh : Sheet} {pc : W64} {ms : List SavedMove} {c0 : Nat} (h : s.Formed) :
    (interlockTrace s0 sid sh pc ms c0 s).Formed := by
  unfold interlockTrace
  refine formed_ite ?_ h
  split
  · exact traceRecord_formed h
  · exact h
theorem settleIssue_formed {s0 : State} {sh : Sheet} {rd go : List SavedMove} {starts : List Nat} {endc : Nat} {moves : List Nat}
    (h : s.Formed) : (settleIssue s0 sid sh b rd go starts endc moves s).Formed := by
  unfold settleIssue
  exact mapSheet_formed (account_formed (interlockTrace_formed h))
theorem arriveAfter_formed (h : s.Formed) : (arriveAfter s sid).Formed := leaveBarriers_formed (mapSheet_formed (skipBody_formed h))

/-! ### The bundle (R64, R287, R334) -/

theorem goOn_formed (hm : mean.Formed) {inst : Instr} {c0 : Nat} {sw : State} {ms0 go : List SavedMove} (h : s.Formed) :
    (goOn sid b inst waive skips mean c0 sw ms0 go s).Formed := by
  unfold goOn
  exact arriveAfter_formed (mapSheet_formed (runControl_formed hm (mapSheet_formed h)))
theorem runTriggers_formed (hm : mean.Formed) {starts : List Nat} {sw : State} {ms0 go : List SavedMove} {done : List Nat}
    (h : sw.Formed) : (runTriggers sid b waive skips mean starts sw ms0 go done).Formed := by
  unfold runTriggers
  exact runFinish_formed hm (foldl_formed (fun _ _ => skipZeros_formed) _
    (foldl_formed (fun _ ⟨_, _⟩ => runPass_formed hm) _ (drew_formed h)))
theorem finishHeld_formed (hm : mean.Formed) (h : s.Formed) : (finishHeld sid mean s).Formed := by
  unfold finishHeld
  split
  · refine formed_ite h ?_
    have ht := fun {l : List SavedMove} {sh : Sheet} {f : Sheet → Sheet} => foldl_formed
      (f := fun s m => s.sheetEvent sid sh m.slot 3 1) (fun _ _ => sheetEvent_formed) l (mapSheet_formed (sid := sid) (f := f) h)
    exact formed_ite (goOn_formed hm ht) (takeCause_formed (leaveFaults_formed hm ht))
  · exact h
theorem commitBundle_formed (hm : mean.Formed) {sh : Sheet} {inst : Instr} {ms rd : List SavedMove} {prior : List Nat}
    {times : List Nat × Nat} {t : State} (ht : commitBundle s sid sh b inst ms rd prior waive skips mean times = some t)
    (h : s.Formed) : t.Formed := by
  obtain ⟨starts, endc⟩ := times
  unfold commitBundle at ht
  dsimp only at ht
  split at ht
  · cases ht
  · split at ht
    · split at ht <;> cases ht
      · exact goOn_formed hm (settleIssue_formed (runTriggers_formed hm (writeMoves_formed h)))
      · exact takeCause_formed (leaveFaults_formed hm (settleIssue_formed (runTriggers_formed hm (writeMoves_formed h))))
    · cases ht
      exact finishHeld_formed hm (settleIssue_formed (runTriggers_formed hm (mapSheet_formed (writeMoves_formed h))))
theorem startCycles_formed {wg c : Nat} (h : s.Formed) : (startCycles s wg c).Formed := h
theorem beginIssue_formed {sh : Sheet} {cyc : Nat → Nat} {f : Format} (h : s.Formed) : (beginIssue s sid sh cyc f).Formed :=
  startCycles_formed (setSheet_formed h)
theorem holdPass_formed {inst : Instr} {starts : List Nat} {ms : List SavedMove} (h : s.Formed) :
    (holdPass s sid inst starts ms).Formed := mapCore_formed (mapSheet_formed h)
theorem issueBundle_formed (hm : mean.Formed) {bd : Bundle} {inst : Instr} {t : State}
    (ht : issueBundle s sid bd inst mean = some t) (h : s.Formed) : t.Formed := by
  unfold issueBundle at ht
  split at ht
  · cases ht
  split at ht
  · cases ht
  split at ht
  · cases ht
    exact takeCause_formed h
  split at ht
  · cases ht
  dsimp only at ht
  split at ht
  · exact commitBundle_formed hm ht (beginIssue_formed h)
  · split at ht <;> cases ht
    exact holdPass_formed (beginIssue_formed h)
theorem noteWait_formed {bd : Bundle} (h : s.Formed) : (noteWait s sid bd mean).Formed := by
  unfold noteWait
  split
  · exact h
  · refine formed_ite ?_ h
    split
    · exact setSheet_formed h
    · exact h
/-- What happens where something may, and else. -/
theorem getD_formed {o : Option State} (ho : ∀ t, o = some t → t.Formed) (h : s.Formed) : (o.getD s).Formed := by
  cases o with
  | none => exact h
  | some t => exact ho t rfl
theorem issueOrWait_formed (hm : mean.Formed) {bd : Bundle} {inst : Instr} (h : s.Formed) :
    (issueOrWait s sid bd inst mean).Formed :=
  getD_formed (fun _ ht => issueBundle_formed hm ht h) (noteWait_formed h)
theorem markAt_formed {m : Marker} {c : Nat} (h : s.Formed) : (markAt s sid m c).Formed := by
  unfold markAt
  split
  · exact h
  · exact formed_ite (driftRecord_formed (setSheet_formed h)) (setSheet_formed h)
theorem issueMarker_formed {m : Marker} {t : State} (ht : issueMarker s sid m = some t) (h : s.Formed) : t.Formed := by
  unfold issueMarker at ht
  split at ht
  · cases ht
  dsimp only at ht
  split at ht
  · cases ht
  rw [← apply_ite some] at ht
  cases ht
  exact formed_ite (takeCause_formed h) (arriveAfter_formed (mapSheet_formed (markAt_formed (account_formed (interlockTrace_formed
    (startCycles_formed (setSheet_formed h)))))))
theorem issueResumed_formed (hm : (sheetMeanings s sid).Formed) {t : State} (ht : issueResumed s sid = some t) (h : s.Formed) :
    t.Formed := by
  unfold issueResumed at ht
  split at ht
  · cases ht
  split at ht
  · cases ht
  dsimp only at ht
  split at ht
  · cases ht
  split at ht
  · cases ht
    exact setSheet_formed h
  split at ht
  · cases ht
  exact commitBundle_formed hm ht (setSheet_formed h)
theorem resumedBundle_formed (hm : (sheetMeanings s sid).Formed) (h : s.Formed) : (resumedBundle sid s).Formed := by
  unfold resumedBundle
  split
  · exact h
  · next ht => exact mapSheet_formed (issueResumed_formed hm ht h)

end
end Sys2Proof.Machine
end


section

namespace Sys2Proof.Machine

/-! ## Every operation's meaning keeps the form of memory -/

section
variable {s : State} {x : TrigCtx}

/-! ### The helpers of the units -/

theorem deliver_formed {v : W64} (h : s.Formed) : (x.deliver v s).Formed := mapSheet_formed h
theorem lookups_formed {f : MemForm} {ts : List Nat} (h : s.Formed) : (f.lookups x ts s).Formed := by
  unfold MemForm.lookups
  exact formed_ite (foldl_formed (fun _ _ => lookPage_formed) _ h) h
theorem enqueue_formed {f : MemForm} {t : Nat} (h : s.Formed) : (f.enqueue x s t).Formed := by
  unfold MemForm.enqueue
  split
  · exact h
  · exact mapSheet_formed h
theorem pinLine_formed {a : Asker} {line : Nat} (h : s.Formed) : (pinLine s a line).2.Formed := by
  unfold pinLine
  split
  · exact h
  split
  · exact h
  split
  · exact h
  · exact l2Fill_formed h
theorem prefCode_formed {sid slot : Nat} {sh : Sheet} {pin : Bool} {addr : W64} (h : s.Formed) :
    (prefCode s sid slot sh pin addr).2.Formed := by
  unfold prefCode
  extract_lets t a
  have ht : t.Formed := lookPage_formed h
  split
  · exact ht
  split
  · exact formed_ite ht (l2Fill_formed ht)
  split
  · exact ht
  · exact pinLine_formed ht
theorem enterCmd_formed {sid : Nat} {c : Cmd} (h : s.Formed) : (enterCmd s sid c).Formed := by
  unfold enterCmd
  split <;> exact h
theorem bindTiles_formed {wg : Nat} (h : s.Formed) : (bindTiles s wg).Formed := mapWg_formed h
theorem mapTile_formed {sid wg name : Nat} {int : Bool} (h : s.Formed) : (mapTile s sid wg name int).Formed := by
  unfold mapTile
  split
  · exact h
  · exact bindTiles_formed (mapSheet_formed h)
theorem mxeEnter_formed {c : Tile} {fresh int : Bool} {mk : Nat → Cmd} (h : s.Formed) : (mxeEnter x c fresh int mk s).Formed := by
  unfold mxeEnter
  extract_lets t u r
  have ht : t.Formed := formed_ite (mapSheet_formed h) h
  exact enterCmd_formed (formed_ite (mapTile_formed ht) ht)
theorem setReuse_formed {sid : Nat} {r : Option Reuse} (h : s.Formed) : (s.setReuse sid r).Formed := by
  unfold State.setReuse
  exact formed_ite (mapCore_formed h) (mapCore_formed h)
theorem cfeEnter_formed {d : Option Limb} {tag : Option LimbTag} {c : Cmd} (h : s.Formed) : (cfeEnter x d tag c s).Formed := by
  unfold cfeEnter
  extract_lets t u
  have ht : t.Formed := formed_ite (mapSheet_formed h) h
  refine enterCmd_formed ?_
  unfold u
  split
  · exact ht
  · exact mapWg_formed ht
theorem openSyn_formed {sid : Nat} (h : s.Formed) : (openSyn s sid).1.Formed := by
  unfold openSyn
  split <;> exact h
theorem openSys_formed {sid : Nat} (h : s.Formed) : (openSys s sid).1.Formed := by
  unfold openSys
  split <;> exact h
theorem setWait_formed {sid : Nat} {w : Wait} (h : s.Formed) : (setWait s sid w).Formed := mapSheet_formed h
theorem setSys_formed {sid : Nat} {w : SysWait} (h : s.Formed) : (setSys s sid w).Formed := mapSheet_formed h
theorem arriveEffect_formed {l : BarLevel} {id : Nat} {wait : Bool} (h : s.Formed) : (arriveEffect l id wait x s).Formed :=
  pushOrder_formed h
theorem awaitEffect_formed {l : BarLevel} {id : Nat} (h : s.Formed) : (awaitEffect l id x s).Formed :=
  pushOrder_formed (setWait_formed h)
theorem sheetBarrier_formed (h : s.Formed) : (sheetBarrier x s).Formed := setWait_formed (openSyn_formed h)
theorem enterOrder_formed {sid : Nat} {acq rel : Option Scope} {loads stores drain : Bool} {act : OrdAction} (h : s.Formed) :
    (enterOrder s sid acq rel loads stores drain act).Formed := mapSheet_formed h
theorem recordLook_formed (h : s.Formed) : (recordLook x s).Formed := by
  unfold recordLook
  exact formed_ite h (lookPage_formed h)
theorem recordFault_formed {acc : AccKindT} {off n : Nat} {l : List (Nat × Flt)} (h : s.Formed) :
    (recordFault acc off n x l s).Formed := by
  unfold recordFault
  extract_lets t
  have ht : t.Formed := recordLook_formed h
  split
  · exact formed_ite (clearPoison_formed ht) ht
  · exact ht
theorem lwaitFound_formed {sid v id : Nat} (h : s.Formed) : (lwaitFound s sid v id).Formed := settle_formed (mapSheet_formed h)
theorem csrwrEffect_formed {c : Nat} (h : s.Formed) : (csrwrEffect x c s).Formed := by
  unfold csrwrEffect
  extract_lets v hold
  have hhold : ∀ {image}, (hold image).Formed := setSys_formed (openSys_formed h)
  clear_value hold
  split
  · exact h
  · exact hhold
  · exact deliver_formed (mapWg_formed h)
  · exact formed_ite (deliver_formed h) (formed_ite hhold (deliver_formed (mapWg_formed h)))
  · exact deliver_formed (mapSheet_formed h)

end

/-! ### The shapes of operations -/

theorem uniOp_formed {ready : TrigCtx → Bool} {check : TrigCtx → List (Nat × Flt)} {d : Nat} {f : TrigCtx → State → State}
    (hf : ∀ {x s}, s.Formed → (f x s).Formed) : (uniOp ready check d f).Formed where
  effect h := formed_ite (hf h) h
  onFault h := h
  finish h := h
theorem laneOp_formed {cls : LaneIn → Nat} {f : LaneIn → LaneOut} {d : Nat} : (laneOp cls f d).Formed where
  effect h := foldl_formed (fun _ _ => mapSheet_formed) _ h
  onFault h := h
  finish h := h
theorem crossOp_formed {cls : Nat} {f : TrigCtx → Nat → W64} {flags : TrigCtx → Flags} : (crossOp cls f flags).Formed where
  effect h := formed_ite (formed_ite (foldl_formed (fun _ _ => mapSheet_formed) _ h)
    (mapSheet_formed (foldl_formed (fun _ _ => mapSheet_formed) _ h))) h
  onFault h := h
  finish h := h
theorem divideOp_formed {n : Nat} {f : LaneIn → W64 × W64 × Bool} : (divideOp n f).Formed where
  effect h := foldl_formed (fun _ _ => mapSheet_formed) _ h
  onFault h := h
  finish h := h
theorem memOp_formed {f : MemForm} : (memOp f).Formed where
  effect h := foldl_formed (fun _ _ => enqueue_formed) _ (lookups_formed h)
  onFault h := lookups_formed (f := f) h
  finish h := h
theorem qsyncMeaning_formed : qsyncMeaning.Formed where
  effect h := formed_ite (pushOrder_formed h) h
  onFault h := h
  finish h := h
theorem prefMeaning_formed {pin : Bool} : (prefMeaning pin).Formed where
  effect h := foldl_formed (fun _ _ h => mapSheet_formed (formed_ite (sheetEvent_formed (prefCode_formed h)) (prefCode_formed h))) _ h
  onFault h := h
  finish h := h
theorem controlOp_formed {check : TrigCtx → List (Nat × Flt)} {f : TrigCtx → Sheet → Sheet} : (controlOp check f).Formed where
  effect h := mapSheet_formed h
  onFault h := h
  finish h := h
theorem engineOp_formed {ready : TrigCtx → Bool} {check : TrigCtx → List (Nat × Flt)} {f : TrigCtx → State → State}
    (hf : ∀ {x s}, s.Formed → (f x s).Formed) : (engineOp ready check f).Formed := uniOp_formed hf
theorem mmaMeaning'_formed {k : MmaKind} {op : Instr} {m : MmaMod} : (mmaMeaning' k op m).Formed where
  effect h := by
    refine formed_ite ?_ h
    dsimp only
    split
    · exact h
    · exact mxeEnter_formed (setReuse_formed h)
  onFault h := h
  finish h := h
theorem taggedOp_formed {op : Instr} {d : Limb} {a b : Bool} {pre : TrigCtx → List (Bool × Flt)} {reads : TrigCtx → List Nat}
    {tag : TrigCtx → Option (Option LimbTag)} : (taggedOp op d a b pre reads tag).Formed := engineOp_formed cfeEnter_formed
theorem mxrelMeaning_formed {c : Tile} : (mxrelMeaning c).Formed :=
  engineOp_formed fun h => bindTiles_formed (mapSheet_formed (mxeEnter_formed h))
theorem cpackvMeaning_formed {d : Limb} : (cpackvMeaning d).Formed where
  effect h := formed_ite (cfeEnter_formed h) h
  onFault h := h
  finish h := h
theorem copyMeaning_formed {k : CopyKind} {op : Instr} {m : CpyMod} : (copyMeaning k op m).Formed :=
  engineOp_formed fun {x s} h => by
    split
    · exact h
    · exact pushOrder_formed (enterCmd_formed (formed_ite (mapSheet_formed h) h))
theorem dstatMeaning_formed {ch1 : Bool} : (dstatMeaning ch1).Formed :=
  engineOp_formed fun h => enterCmd_formed (formed_ite (mapSheet_formed h) h)

/-! ### SYN and SYS -/

theorem barMeaning_formed {l : BarLevel} : (barMeaning l).Formed :=
  uniOp_formed fun h => formed_ite (sheetBarrier_formed h) (awaitEffect_formed (arriveEffect_formed (openSyn_formed h)))
theorem baraMeaning_formed {l : BarLevel} : (baraMeaning l).Formed :=
  uniOp_formed fun h => formed_ite (deliver_formed h) (arriveEffect_formed (openSyn_formed h))
theorem barwMeaning_formed {l : BarLevel} : (barwMeaning l).Formed :=
  uniOp_formed fun h => formed_ite (sheetBarrier_formed h) (awaitEffect_formed (openSyn_formed h))
theorem stepOp_formed {peer : Bool} {range : TrigCtx → Bool} {rel : Option Scope} {k : TrigCtx → StepKind} :
    (stepOp peer range rel k).Formed where
  effect h := formed_ite (pushOrder_formed h) h
  onFault h := h
  finish h := h
theorem bowaitMeaning_formed : bowaitMeaning.Formed := uniOp_formed fun h => pushOrder_formed (setWait_formed (openSyn_formed h))
theorem botestMeaning_formed {peer : Bool} : (botestMeaning peer).Formed := uniOp_formed fun h => pushOrder_formed (openSyn_formed h)
theorem orderOp_formed {acq rel : Option Scope} {loads stores drain : Bool} : (orderOp acq rel loads stores drain).Formed :=
  uniOp_formed fun h => pushOrder_formed (openSys_formed h)
theorem fenceMeaning_formed {m : FenceMod} : (fenceMeaning m).Formed := by
  unfold fenceMeaning
  split <;> exact orderOp_formed
theorem brkMeaning_formed : brkMeaning.Formed where
  effect h := formed_ite h h
  onFault h := formed_ite (traceRecord_formed h) h
  finish h := h
theorem csrrdMeaning_formed : csrrdMeaning.Formed where
  effect h := formed_ite (formed_ite (mapSheet_formed (deliver_formed h)) (deliver_formed h)) h
  onFault h := h
  finish h := formed_ite (mapSheet_formed h) h
theorem csrwrMeaning_formed : csrwrMeaning.Formed where
  effect h := formed_ite (csrwrEffect_formed h) h
  onFault h := h
  finish h := formed_ite (mapSheet_formed h) h
theorem launchMeaning_formed : launchMeaning.Formed where
  effect h := formed_ite (pushOrder_formed (openSys_formed (recordLook_formed h))) h
  onFault {_ l _} h := recordFault_formed (l := l) h
  finish h := h
theorem lwaitMeaning_formed : lwaitMeaning.Formed where
  effect h := by
    refine formed_ite ?_ h
    dsimp only
    split
    · exact h
    · exact formed_ite (lwaitFound_formed (setSys_formed (enterOrder_formed (openSys_formed (recordLook_formed h)))))
        (setSys_formed (enterOrder_formed (openSys_formed (recordLook_formed h))))
  onFault {_ l _} h := recordFault_formed (l := l) h
  finish h := h
theorem ivspawnMeaning_formed : ivspawnMeaning.Formed where
  effect h := formed_ite (formed_ite (stepDone_formed h) (pushOrder_formed (recordLook_formed h))) h
  onFault {_ l _} h := recordFault_formed (l := l) h
  finish h := h
theorem svcMeaning_formed : svcMeaning.Formed := uniOp_formed fun h => setSys_formed (openSys_formed h)
theorem tstampMeaning_formed : tstampMeaning.Formed where
  effect h := formed_ite (deliver_formed h) h
  onFault h := h
  finish h := h
theorem yieldsMeaning_formed : yieldsMeaning.Formed where
  effect h := formed_ite (formed_ite (mapSheet_formed (deliver_formed h)) (deliver_formed h)) h
  onFault h := h
  finish h := h

end Sys2Proof.Machine
end


section

namespace Sys2Proof.Machine

theorem aluOp_formed {u : AluUnit} {x1 m32 : Bool} {f : Nat → Nat → Nat → Nat} : (aluOp u x1 m32 f).Formed := by
  unfold aluOp
  exact laneOp_formed
theorem aluOp3_formed {u : AluUnit} {x1 m32 : Bool} {f : Nat → Nat → Nat → Nat → Nat} : (aluOp3 u x1 m32 f).Formed := by
  unfold aluOp3
  exact laneOp_formed
theorem imuOp_formed {x1 m32 : Bool} {f : Nat → Nat → Nat → W64 × Option W64} {d : Nat} : (imuOp x1 m32 f d).Formed := by
  unfold imuOp
  exact laneOp_formed
theorem fpOp_formed {m : FpRnd} {f : Fmt → Rnd → Bool → FVal → FVal → Nat × Flags} : (fpOp m f).Formed := by
  unfold fpOp
  exact laneOp_formed
theorem ivOp_formed {f : LaneIn → W64 × Flags} : (ivOp f).Formed := by
  unfold ivOp
  exact laneOp_formed
theorem xfuOp_formed {ty : XType} {f : Fmt → Bool → FVal → Nat → Nat × Flags} : (xfuOp ty f).Formed := by
  unfold xfuOp
  exact laneOp_formed
theorem xivOp_formed {f : Nat → Nat → W64 × Flags} : (xivOp f).Formed := by
  unfold xivOp
  exact laneOp_formed
theorem crossMeaning_formed {f : TrigCtx → Nat → W64} : (crossMeaning f).Formed := by
  unfold crossMeaning
  exact crossOp_formed
theorem shuffle_formed {f : Nat → Nat → Nat → Option Nat} : (shuffle f).Formed := by
  unfold shuffle
  exact crossMeaning_formed
theorem addrJump_formed : addrJump.Formed := by
  unfold addrJump
  exact controlOp_formed

/-- Every operation of the opcode map keeps the form of memory. -/
theorem meaningOf_formed {i : Instr} {o : OpMeaning} (h : meaningOf i = some o) : o.Formed := by
  cases i with
  | add | sub | rsub | and | or | xor | andn | shl | shr | sar | rol | min | max | minu | maxu | abs | ceq | cne | clt | cle | cltu
  | cleu | popc | clz | ctz | brev | bfx | lea | pand | por | pnot | psure | poss => cases h; exact aluOp_formed
  | sel | bfi | perm => cases h; exact aluOp3_formed
  | sext | zext | pass | mad | ffma | fmin | fmax | fcmp | fclass | fcvt | fcvti | icvtf | frnd | fsgn | ivbis | cvtn | cvtw =>
    cases h; exact laneOp_formed
  | mul | mulh | mulhu | mulw | mulwu => cases h; exact imuOp_formed
  | div | divu | rem | remu => cases h; exact divideOp_formed
  | fadd | fsub | fmul => cases h; exact fpOp_formed
  | ivadd | ivsub | ivmul | ivfma | ivsqr | ivhull | ivmeet | ivmid | ivwid | ivcmp | ivmake | ivlo | ivhi | ivabs | ivin =>
    cases h; exact ivOp_formed
  | rcp | rsq | sqrt | exp2 | log2 | sin | cos | tanh => cases h; exact xfuOp_formed
  | ivrcp | ivsqrt | ivexp2 | ivlog2 => cases h; exact xivOp_formed
  | shfi | shup | shdn | shxr => cases h; exact shuffle_formed
  | vote | ballot => cases h; exact crossMeaning_formed
  | rdsum | rdmax | rdfsum => cases h; exact crossOp_formed
  | ld | lds | ldp | st | stp | ldx | lda | stl | ldiv | stiv | aadd | amin | amax | aminu | amaxu | aand | aor | axor | axchg | acas
  | acas2 | afadd => cases h; exact memOp_formed
  | qsync => cases h; exact qsyncMeaning_formed
  | pref => cases h; exact prefMeaning_formed
  | br | call | brp | brp3 | brany | brall | loop | lbrk | exit | yield => cases h; exact controlOp_formed
  | bri | ret => cases h; exact addrJump_formed
  | mma | mmab | mmai => cases h; exact mmaMeaning'_formed
  | mxzero | mxdrain | mxred | mxld | mxst => cases h; exact engineOp_formed mxeEnter_formed
  | mxrel => cases h; exact mxrelMeaning_formed
  | cpack | cext | cextv | cgw => cases h; exact engineOp_formed cfeEnter_formed
  | cpackv => cases h; exact cpackvMeaning_formed
  | cmul | cmac | csqr | cadd | csub | cshl | cclr | cbig => cases h; exact taggedOp_formed
  | dcopy | dfill | dgath | dscat => cases h; exact copyMeaning_formed
  | dstat => cases h; exact dstatMeaning_formed
  | bar => cases h; exact barMeaning_formed
  | bara => cases h; exact baraMeaning_formed
  | barw => cases h; exact barwMeaning_formed
  | boinit | boarr | boexp | boinv => cases h; exact stepOp_formed
  | bowait => cases h; exact bowaitMeaning_formed
  | botest => cases h; exact botestMeaning_formed
  | fence => cases h; exact fenceMeaning_formed
  | acq | rel => cases h; exact orderOp_formed
  | trap => cases h; exact uniOp_formed id
  | brk => cases h; exact brkMeaning_formed
  | csrrd => cases h; exact csrrdMeaning_formed
  | csrwr => cases h; exact csrwrMeaning_formed
  | launch => cases h; exact launchMeaning_formed
  | lwait => cases h; exact lwaitMeaning_formed
  | ivspawn => cases h; exact ivspawnMeaning_formed
  | svc => cases h; exact svcMeaning_formed
  | tstamp => cases h; exact tstampMeaning_formed
  | yields => cases h; exact yieldsMeaning_formed
  | _ => cases h

theorem meanings_formed (minor : Nat) : (meanings minor).Formed := by
  intro m o ho
  unfold meanings at ho
  extract_lets bad at ho
  have hbad : bad ≠ .ok o := nofun
  split at ho
  · split at ho
    · next h => cases ho; exact meaningOf_formed h
    · exact absurd ho hbad
  · exact absurd ho hbad
theorem sheetMeanings_formed (s : State) (sid : Nat) : (sheetMeanings s sid).Formed := meanings_formed _

end Sys2Proof.Machine
end


section

namespace Sys2Proof.Machine

/-! ## Commands keep the form of memory (R217 to R225, R246 to R251) -/

section
variable {s : State}

/-! ### Copies: the state of a run -/

theorem l1Read_formed {half : Nat} {x : Asker} {places : List Nat} (h : s.Formed) : (l1Read s half x places).2.Formed :=
  fillWords_formed h

variable {c : CopyShape} {e : CopyEnv} {r : CopyRun}

theorem copyLook_formed {space : Space} {a : Int} {n : Nat} (h : r.s.Formed) : (copyLook e space a n r).s.Formed := by
  unfold copyLook
  split
  · exact foldl_formed (fun _ _ => lookPage_formed) _ h
  · exact h
theorem copyRead_formed {mt : Nat} {ps : List Nat} (h : r.s.Formed) : (copyRead c e mt r ps).2.s.Formed := by
  unfold copyRead
  split
  · exact l1Read_formed h
  · exact formed_ite h (foldl_formed (fun _ _ => engineRead_formed) _ h)
theorem copyByte_formed {mt p k : Nat} (h : r.s.Formed) : (copyByte c e mt r p k).2.s.Formed := by
  unfold copyByte
  split
  next old r' hr =>
  have hr' : r'.s.Formed := by
    split at hr <;> cases hr
    · exact copyRead_formed h
    · exact h
  split
  · split <;> exact hr'
  · exact hr'
theorem copyBytes_formed {mt : Nat} : ∀ {l : List Nat} {k : Nat} {r : CopyRun}, r.s.Formed → (copyBytes c e mt k l r).2.s.Formed
  | [], _, _, h => h
  | _ :: l, _, _, h => copyBytes_formed (l := l) (copyByte_formed h)
theorem copyIndex_formed {q : Nat} {v : Int × CopyRun} (hv : copyIndex c e q r = .ok v) (h : r.s.Formed) : v.2.s.Formed := by
  unfold copyIndex at hv
  split at hv
  · cases hv; exact h
  extract_lets n off t at hv
  have ht : t.s.Formed := copyLook_formed h
  split at hv
  · cases hv
  · cases hv; exact copyRead_formed ht
theorem copyValue_formed {k : Nat} {sp : Int} {v : Nat × CopyRun} (hv : copyValue c e k sp r = .ok v) (h : r.s.Formed) :
    v.2.s.Formed := by
  unfold copyValue at hv
  extract_lets sb n t at hv
  split at hv
  · cases hv; exact h
  have ht : t.s.Formed := copyLook_formed h
  split at hv
  · cases hv
  · cases hv; exact copyBytes_formed ht
theorem copyElem_formed {k : Nat} {t : CopyRun} (ht : copyElem c e k r = .ok t) (h : r.s.Formed) : t.s.Formed := by
  unfold copyElem at ht
  extract_lets ix i q lin at ht
  split at ht
  · cases ht
  next hx =>
  extract_lets se de db dp dn at ht
  split at ht
  · cases ht
  next hv =>
  extract_lets v u at ht
  have hu : u.s.Formed := copyLook_formed (copyValue_formed hv (copyIndex_formed hx h))
  split at ht
  · cases ht
  · cases ht; exact hu
theorem copyAll_formed {t : CopyRun} : ∀ {ks : List Nat} {r : CopyRun}, copyAll c e ks r = .ok t → r.s.Formed → t.s.Formed
  | [], _, ht, h => by cases ht; exact h
  | k :: ks, r, ht, h => by
    unfold copyAll at ht
    split at ht
    · cases ht
    · next hk => exact copyAll_formed ht (copyElem_formed hk h)
theorem copySome_formed {stop : Nat} : ∀ {ks : List Nat} {r : CopyRun} {n : Nat}, r.s.Formed → (copySome c e stop ks r n).1.s.Formed
  | [], _, _, h => h
  | k :: ks, r, n, h => by
    unfold copySome
    split
    · exact h
    · next hk =>
      split
      · exact copySome_formed (copyElem_formed hk h)
      · exact h
theorem copyOuts_formed {core : Nat} {k : Cmd} {v : List CmdWrite × State × Nat} (hv : copyOuts s core k c = .ok v) (h : s.Formed) :
    v.2.1.Formed := by
  unfold copyOuts at hv
  split at hv
  · extract_lets e at hv
    split at hv
    · cases hv
    · next hr => cases hv; exact copyAll_formed hr h
  · cases hv; exact h
theorem writtenAt_formed {core : Nat} {k : Cmd} (h : s.Formed) : (writtenAt s core k).2.2.Formed := by
  unfold writtenAt
  split
  · split
    · exact drew_formed (copySome_formed h)
    · exact drew_formed h
    · exact h
  · exact h

/-! ### Commands -/

section
variable {core e : Nat} {c : Cmd}

theorem setCmd_formed (h : s.Formed) : (s.setCmd core e c).Formed := mapCore_formed h
theorem tally_formed {part : Nat} (h : s.Formed) : (tally s part).Formed := mapPart_formed h
theorem askCmd_formed {n : Nat} (h : s.Formed) : (askCmd s core e c n).Formed := by
  unfold askCmd
  exact formed_ite h (netAsk_formed h)
theorem startCmd_formed (h : s.Formed) : (startCmd s core e).Formed := by
  unfold startCmd
  split
  · exact h
  · have ht := fun {c : Cmd} {n : Nat} {d : Cmd} {p : Nat} => askCmd_formed (core := core) (e := e) (c := d) (n := n)
      (setCmd_formed (core := core) (e := e) (c := c) (tally_formed (part := p) h))
    exact formed_ite (event_formed ht) ht
theorem setCluster_formed {cl : Nat} {x : Cluster} (h : s.Formed) : (s.setCluster cl x).Formed := h
theorem commandIssue_formed (h : s.Formed) : (commandIssue core e s).Formed := by
  unfold commandIssue
  refine formed_ite h ?_
  split
  · exact h
  · exact formed_ite (startCmd_formed h) (setCluster_formed (setCmd_formed h))
theorem reservationGrant_formed {cl : Nat} (h : s.Formed) : (reservationGrant cl s).Formed := by
  unfold reservationGrant
  extract_lets k
  split
  · exact h
  · exact formed_ite (startCmd_formed (setCluster_formed h)) h
theorem applyWrite_formed {x : Asker} {w : CmdWrite} (h : s.Formed) : (applyWrite x s w).Formed := by
  unfold applyWrite
  split
  · exact formed_ite (mapWg_formed h) h
  · exact mapWg_formed h
  · exact engineStore_formed h
  · exact mapWg_formed h
  · exact mapWg_formed h
  · exact mapSheet_formed h
theorem applyWrites_formed {outs : List CmdWrite} (h : s.Formed) : (applyWrites s core c outs).Formed := by
  unfold applyWrites
  exact askerEvent_formed (foldl_formed (fun _ _ => applyWrite_formed) _ h)
theorem lateCause_formed {f : Flt} (h : s.Formed) : (lateCause s core e c f).Formed := by
  unfold lateCause
  exact mapSheet_formed (setCmd_formed (askerEvent_formed (applyWrites_formed (writtenAt_formed h))))
theorem lateCauseStop_formed {sid : Nat} (h : s.Formed) : (lateCauseStop sid s).Formed := by
  unfold lateCauseStop
  split
  · exact h
  split
  · exact h
  · exact formed_ite (takeCause_formed (mapSheet_formed h)) h
theorem contribute_formed (h : s.Formed) : (contribute s c).Formed := by
  unfold contribute
  split
  · exact formed_ite h h
  · exact h
theorem consumeExt_formed (h : s.Formed) : (consumeCmd.consumeExt s core e c).Formed := by
  unfold consumeCmd.consumeExt
  have ht := fun {b : Bool} {sid : Nat} {f : Sheet → Sheet} => formed_ite (c := b = true) (mapSheet_formed (sid := sid) (f := f) h) h
  dsimp only
  split
  · exact setCmd_formed ht
  · exact lateCause_formed (applyWrites_formed ht)
theorem consumeCmd_formed (h : s.Formed) : (consumeCmd s core e c).Formed := by
  unfold consumeCmd
  split
  · exact setCmd_formed (contribute_formed h)
  · exact setCmd_formed h
  · exact setCmd_formed h
  · split
    · split
      · next hr => exact askCmd_formed (setCmd_formed (drew_formed (copyOuts_formed hr h)))
      · refine formed_ite h ?_
        exact lateCause_formed (formed_ite (clearPoison_formed (lookPage_formed h)) (lookPage_formed h))
    · refine formed_ite (setCmd_formed h) ?_
      split
      · exact consumeExt_formed h
      · exact consumeExt_formed h
      · exact setCmd_formed h
theorem operandsConsumed_formed (h : s.Formed) : (operandsConsumed core e s).Formed := by
  unfold operandsConsumed
  split
  · exact h
  · exact formed_ite (formed_ite (consumeCmd_formed h) (askCmd_formed h)) h
theorem copyArrival_formed {k : CopyShape} (h : s.Formed) : (copyArrival s c k).Formed := by
  unfold copyArrival
  extract_lets b
  refine formed_ite h ?_
  split
  · exact h
  · exact h
theorem commandCompletion_formed (h : s.Formed) : (commandCompletion core e s).Formed := by
  unfold commandCompletion
  split
  · exact h
  next c _ =>
  refine formed_ite ?_ h
  extract_lets part s1 s2 s3 s4 s5
  have h2 : s2.Formed := applyWrites_formed (tally_formed h)
  have h3 : s3.Formed := formed_ite (mapWg_formed h2) h2
  have h4 : s4.Formed := by
    unfold s4
    split
    · exact copyArrival_formed (event_formed (formed_ite (foldl_formed (fun _ _ => invalidateWord_formed) _ h3) h3))
    · exact h3
  have h5 : s5.Formed := by
    unfold s5
    split
    · exact event_formed h4
    · exact event_formed h4
    · exact event_formed h4
    · exact h4
  exact setCmd_formed h5
theorem statusLanding_formed {sid : Nat} {u : FUnit} (h : s.Formed) : (statusLanding sid u s).Formed := by
  unfold statusLanding
  split
  · exact h
  · exact formed_ite (bindTiles_formed (mapSheet_formed (mapCore_formed h))) h
theorem cancelCmd_formed (h : s.Formed) : (cancelCmd core e s).Formed := by
  unfold cancelCmd
  split
  · exact h
  · exact formed_ite (setCmd_formed (tally_formed h)) h
theorem commandResume_formed (h : s.Formed) : (commandResume core e s).Formed := by
  unfold commandResume
  split
  · exact h
  · refine formed_ite ?_ h
    split
    · exact h
    · exact mapSheet_formed (setCmd_formed (applyWrite_formed h))

end
end
end Sys2Proof.Machine
end


section

namespace Sys2Proof.Machine

/-! ## Results, accesses, rounds and requests keep the form of memory (R70, R199, R238, R251, R268) -/

section
variable {s : State} {sid : Nat}

theorem resultLanding_formed {u : FUnit} {t : Nat} (h : s.Formed) : (resultLanding sid u t s).Formed := mapSheet_formed h
theorem divideComplete_formed {t : Nat} (h : s.Formed) : (divideComplete sid t s).Formed := mapSheet_formed h
theorem performed_formed {k : Nat} {kind : Access → Bool} (h : s.Formed) : (performed sid k kind s).Formed := by
  unfold performed
  split
  · refine formed_ite ?_ h
    split
    · next ht => exact settle_formed (drew_formed (performAt_formed ht h))
    · exact h
  · exact h
theorem loadPerformed_formed {k : Nat} (h : s.Formed) : (loadPerformed sid k s).Formed := performed_formed h
theorem storePerformedAtL1_formed {k : Nat} (h : s.Formed) : (storePerformedAtL1 sid k s).Formed := performed_formed h
theorem storePerformedAtHome_formed {k : Nat} (h : s.Formed) : (storePerformedAtHome k s).Formed := by
  unfold storePerformedAtHome
  split
  · exact h
  · exact formed_ite h (settle_formed (homePerform_formed h))
theorem homeInvalidation_formed {core word : Nat} (h : s.Formed) : (homeInvalidation core word s).Formed :=
  formed_ite (invalidateWord_formed h) h
theorem l2LineEviction_formed {line : Nat} (h : s.Formed) : (l2LineEviction line s).Formed := formed_ite h (evictLine_formed h)
theorem endSys_formed {id : Nat} {v : W64} (h : s.Formed) : (endSys s sid id v).Formed := mapSheet_formed h
theorem xpcfgWrite_formed (h : s.Formed) : (xpcfgWrite sid s).Formed := by
  unfold xpcfgWrite
  split
  · exact formed_ite (endSys_formed (mapSheet_formed h)) h
  · exact h
theorem writeBank_formed {wg b c : Nat} {a : Bool} {v : W64} (h : s.Formed) : (writeBank s sid wg a b c v).Formed := mapWg_formed h
theorem bankFormatWrite_formed (h : s.Formed) : (bankFormatWrite sid s).Formed := by
  unfold bankFormatWrite
  split
  · exact h
  · split
    · split
      · exact formed_ite h (endSys_formed (writeBank_formed h))
      · exact h
    · exact h
theorem arriveNow_formed {t : State} {a : Arrival} (h : s.Formed) (ht : t.Formed) : (arriveNow s t a).Formed := by
  unfold arriveNow
  exact formed_ite ht (formed_ite h (objStep_formed (noteStep_formed ht)))
theorem byteArrival_formed {k : Nat} (h : s.Formed) : (byteArrival k s).Formed := by
  unfold byteArrival
  split
  · exact arriveNow_formed h h
  · exact h
theorem groupArrival_formed {k : Nat} (h : s.Formed) : (groupArrival k s).Formed := by
  unfold groupArrival
  split
  · exact arriveNow_formed h h
  · exact h
theorem bowaitTimeout_formed (h : s.Formed) : (bowaitTimeout sid s).Formed := by
  unfold bowaitTimeout
  split
  · exact h
  split
  · exact formed_ite (settle_formed (mapSheet_formed (noteStep_formed (formed_ite (writeObj_formed h) h)))) h
  · exact h

/-! ### Reduction rounds -/

theorem writeRow_formed {part : Nat} {place : RowPlace} {row : List (BitVec 32)} (h : s.Formed) : (writeRow s part place row).Formed := by
  unfold writeRow
  cases place with
  | glob ps => exact storePieces_formed h
  | abuf w off => exact applyWrite_formed h
  | away => exact h
theorem setRound_formed {part g roff : Nat} {f : Round → Round} (h : s.Formed) : (setRound s part g roff f).Formed := h
theorem dropRound_formed {part g roff : Nat} (h : s.Formed) : (dropRound s part g roff).Formed := h
theorem writeRows_formed {part : Nat} {g : Group} : ∀ {n : Nat} {s : State} {r : Round}, s.Formed → (writeRows n s part g r).Formed
  | 0, _, _, h => h
  | n + 1, s, r, h => by
    unfold writeRows
    refine formed_ite ?_ h
    split
    · exact h
    · exact formed_ite h (writeRows_formed (setRound_formed (writeRow_formed h)))
theorem deviceMiss_formed {who : Misser} {part vf : Nat} {f : Flt} (h : s.Formed) : (deviceMiss s who part vf f).Formed :=
  joinRequest_formed h
theorem forgetRefusals_formed {who : Misser} (h : s.Formed) : (forgetRefusals s who).Formed := h
theorem roundClose_formed {part gi roff : Nat} (h : s.Formed) : (roundClose part gi roff s).Formed := by
  unfold roundClose
  split
  · refine formed_ite h ?_
    dsimp only
    have ht := fun {g : Group} {r : Round} => writeRows_formed (n := 16) (part := part) (g := g) (r := r) h
    split
    · exact ht
    · refine formed_ite (formed_ite ht ?_) ?_
      · split
        · exact ht
        · exact ht
      · split
        · exact formed_ite (deviceMiss_formed ht) ht
        · exact ht
  · exact h
theorem lateStop_formed {part info : Nat} {c : Contrib} (h : s.Formed) : (lateStop part info s c).Formed := by
  unfold lateStop lateStop.counted
  exact formed_ite (mapSheet_formed h) (formed_ite (mapPart_formed h) (mapPart_formed (event_formed h)))
theorem failMember_formed {part gi roff : Nat} {c : Contrib} (h : s.Formed) : (failMember part gi roff s c).Formed := by
  unfold failMember
  refine formed_ite h ?_
  split
  · exact cancelCmd_formed (lateCause_formed h)
  · exact lateStop_formed h
theorem failRound_formed {part gi roff : Nat} {r : Round} (h : s.Formed) : (failRound part gi roff r s).Formed :=
  foldl_formed (fun _ _ => failMember_formed) _ (dropRound_formed h)
theorem roundFailure_formed {part gi roff : Nat} (h : s.Formed) : (roundFailure part gi roff s).Formed := by
  unfold roundFailure
  split
  · refine formed_ite h ?_
    split
    · exact h
    · exact formed_ite h (failRound_formed (forgetRefusals_formed h))
  · exact h

/-! ### Requests to saved workgroups -/

theorem onImage_formed {part wg : Nat} {f : State → State} (hf : ∀ {s : State}, s.Formed → (f s).Formed) (h : s.Formed) :
    (onImage s part wg f).Formed := by
  unfold onImage
  extract_lets img w? m?
  clear_value w? m?
  split
  · extract_lets t m'
    have ht : t.Formed := hf h
    exact ht
  · exact h
theorem answerStep_formed {slot : Nat} {r : Except Flt W64} {mark : Nat} (h : s.Formed) : (answerStep s sid slot r mark).Formed :=
  stepDone_formed (mapSheet_formed h)
theorem answerTest_formed {id : Nat} {v : W64} (h : s.Formed) : (answerTest s sid id v).Formed := settle_formed (mapSheet_formed h)
theorem requestAt_formed {q : PeerReq} (h : s.Formed) : (requestAt q s).Formed := by
  unfold requestAt
  split
  · split
    · split
      · exact settle_formed (performEntry_formed h)
      · exact h
    · exact formed_ite (performEntry_formed h) h
  · exact mapWg_formed h
  · exact objStep_formed h
  · next n sid slot _ =>
    have ht := objectStep_formed (k := .boarr n) (wg := q.wg) (off := q.off) h
    generalize objectStep s (.boarr n) q.wg q.off = r at ht ⊢
    exact answerStep_formed ht
  · exact answerTest_formed h
theorem redirectedRequest_formed {k : Nat} (h : s.Formed) : (redirectedRequest k s).Formed := by
  unfold redirectedRequest
  split
  · exact h
  · refine formed_ite h ?_
    dsimp only
    split
    · exact formed_ite h (onImage_formed requestAt_formed h)
    · exact formed_ite (requestAt_formed h) h
theorem discardReply_formed {q : PeerReq} (h : s.Formed) : (discardReply q s).Formed := by
  unfold discardReply
  split
  · exact mapSheet_formed h
  · exact answerStep_formed h
  · exact answerTest_formed h
  · exact h
theorem discardedRequest_formed {k : Nat} (h : s.Formed) : (discardedRequest k s).Formed := by
  unfold discardedRequest
  split
  · exact h
  · exact formed_ite h (event_formed (discardReply_formed h))

/-! ## Launches and grids keep the form of memory (R38 to R53, R105) -/

/-! ### Kernels and places -/

theorem placeTranslation_formed {who : Misser} {part vf digest : Nat} {half : Bool} {nat : List Byte} {r : XEntry × State}
    (hr : placeTranslation s who part vf digest half nat = .ok r) (h : s.Formed) : r.2.Formed := by
  unfold placeTranslation at hr
  extract_lets base cuts at hr
  split at hr
  · cases hr
  split at hr
  · cases hr
  · cases hr
  · cases hr; exact mapPart_formed (storePieces_formed h)
theorem firmwareKernel_formed {who : Misser} {part vf kaddr x threads : Nat} {r : Kernel × State}
    (hr : firmwareKernel s who part vf kaddr x threads = .ok r) (h : s.Formed) : r.2.Formed := by
  unfold firmwareKernel at hr
  split at hr
  · cases hr
  split at hr
  · cases hr
  split at hr
  · cases hr
  extract_lets half digest placed at hr
  have hplaced : ∀ {p}, placed = .ok p → p.2.Formed := fun {p} hp => by
    unfold placed at hp
    split at hp
    · cases hp; exact h
    · cases hp
    · split at hp
      · exact placeTranslation_formed hp h
      · cases hp
  clear_value placed
  split at hr
  · cases hr
  have ht := hplaced rfl
  split at hr
  · cases hr
  split at hr
  · cases hr
  · cases hr; exact ht
theorem loadKernel_formed {who : Misser} {vf part kaddr threads : Nat} {r : Kernel × State}
    (hr : loadKernel s who vf part kaddr threads = .ok r) (h : s.Formed) : r.2.Formed := by
  unfold loadKernel at hr
  split at hr
  · cases hr
  split at hr
  · cases hr
  extract_lets x base at hr
  split at hr
  · cases hr
  split at hr
  · split at hr <;> cases hr
    exact h
  · split at hr
    · exact firmwareKernel_formed hr h
    · cases hr
  · split at hr
    · cases hr
    split at hr
    · cases hr
    split at hr
    · cases hr
    split at hr <;> cases hr
    exact h
theorem clearReuse_formed {core col : Nat} (h : s.Formed) : (clearReuse s core col).Formed := mapCore_formed h
theorem putWorkgroup_formed {gn g : Nat} {p : Place} {n : Need} {x : List Nat × Nat × Nat} (h : s.Formed) :
    (putWorkgroup s gn g p n x).Formed := by
  unfold putWorkgroup
  extract_lets t
  have ht : t.Formed := mapGrid_formed (clearReuse_formed h)
  exact ht
theorem placeOn_formed {gn die : Nat} {t : State} (ht : placeOn s gn die = some t) (h : s.Formed) : t.Formed := by
  unfold placeOn at ht
  split at ht
  · cases ht
  extract_lets n us at ht
  split at ht
  · split at ht <;> cases ht
    exact mapGrid_formed (putWorkgroup_formed h)
  · split at ht <;> cases ht
    exact mapGrid_formed (foldl_formed (fun _ ⟨⟨_, _⟩, _⟩ => putWorkgroup_formed) _ h)
theorem placeMany_formed {gn die : Nat} : ∀ {n : Nat} {s : State}, s.Formed → (placeMany gn die n s).2.Formed
  | 0, _, h => h
  | n + 1, s, h => by
    unfold placeMany
    split
    · next hs => exact placeMany_formed (placeOn_formed hs h)
    · exact h
theorem placeBatch_formed {gn : Nat} {t : State} (ht : placeBatch s gn = some t) (h : s.Formed) : t.Formed := by
  unfold placeBatch at ht
  split at ht
  · cases ht
  dsimp only at ht
  split at ht <;> cases ht
  exact placeMany_formed h
theorem placeAll_formed {gn : Nat} {t : State} : ∀ {n : Nat} {s : State}, placeAll gn n s = some t → s.Formed → t.Formed
  | 0, _, ht, _ => by cases ht
  | n + 1, s, ht, h => by
    unfold placeAll at ht
    split at ht
    · cases ht
    split at ht
    · cases ht; exact h
    · obtain ⟨u, hu, ht⟩ := Option.bind_eq_some_iff.mp ht
      exact placeAll_formed ht (placeBatch_formed hu h)

/-! ### Decisions on launches -/

theorem judge_formed {who : Misser} {vf part : Nat} {parent : Option Nat} {depth : Nat} {record : W64} {host : Bool}
    {batch : Option Batch} {raw : Nat} {r : LRec} {t : State}
    (ht : judge s who vf part parent depth record host batch raw r = .accept t) (h : s.Formed) : t.Formed := by
  unfold judge at ht
  split at ht
  · cases ht
  split at ht
  · cases ht
  · cases ht
  next k u hk =>
  have hu : u.Formed := loadKernel_formed hk h
  extract_lets n gn s1 full at ht
  have h1 : s1.Formed := hu
  split at ht
  · cases ht
  split at ht
  · split at ht
    · cases ht
    split at ht
    · cases ht
    next hp =>
    split at ht <;> cases ht
    exact placeAll_formed hp h1
  · split at ht <;> cases ht
    exact h1
theorem writeFinal_formed {part pa code fdet : Nat} (h : s.Formed) : (writeFinal s part pa code fdet).Formed := engineWrite_formed h
theorem raiseIrq_formed {vf b : Nat} (h : s.Formed) : (raiseIrq s vf b).Formed := h
theorem setVf_formed {vf : Nat} {v : Vf} (h : s.Formed) : (s.setVf vf v).Formed := h
theorem launchError_formed {vf code : Nat} {va : W64} (h : s.Formed) : (launchError s vf code va).Formed :=
  raiseIrq_formed (setVf_formed h)
theorem failSubmission_formed {vf code : Nat} {va : W64} (h : s.Formed) : (failSubmission s vf code va).Formed :=
  formed_ite h (launchError_formed h)
theorem launchSubmission_formed {vf size : Nat} {v : W64} (h : s.Formed) : (launchSubmission vf size v s).Formed := by
  unfold launchSubmission
  have hfail := fun {code : Nat} => failSubmission_formed (vf := vf) (code := code) (va := v) h
  refine formed_ite hfail (formed_ite hfail (formed_ite hfail (formed_ite hfail ?_)))
  split
  · exact hfail
  · exact h
theorem answerLaunch_formed {q : LaunchReq} {code : Nat} (h : s.Formed) : (answerLaunch s q code).Formed := by
  unfold answerLaunch
  split
  · exact formed_ite (launchError_formed h) h
  · exact h
  · exact mapSheet_formed h
theorem acceptRecord_formed {q : LaunchReq} {vf part : Nat} {parent : Option Nat} {depth : Nat} {va : W64} {host : Bool} {pa : Nat}
    {s0 : State} (h : s.Formed) (h0 : s0.Formed) : (acceptRecord s q vf part parent depth va host pa s0).Formed := by
  unfold acceptRecord
  refine formed_ite (answerLaunch_formed (forgetRefusals_formed h)) ?_
  split
  · next ht => exact answerLaunch_formed (engineWrite_formed (forgetRefusals_formed (judge_formed ht h)))
  · have hw := fun {c : Nat} => writeFinal_formed (part := part) (pa := pa) (code := c) (fdet := 0)
      (forgetRefusals_formed (who := .launch q) h)
    exact answerLaunch_formed (formed_ite (raiseIrq_formed hw) hw)
  · exact deviceMiss_formed h0
theorem launchAcceptance_formed {k : Nat} (h : s.Formed) : (launchAcceptance k s).Formed := by
  unfold launchAcceptance
  split
  · exact h
  refine formed_ite h ?_
  extract_lets s' out
  have hs' : s'.Formed := h
  have hout : out.Formed := h
  split
  · refine formed_ite (launchError_formed hout) ?_
    split
    · exact launchError_formed hout
    · exact launchError_formed hout
    · exact acceptRecord_formed hs' h
  · exact launchError_formed hout
  · split
    · exact hout
    · refine formed_ite hout ?_
      split
      · exact answerLaunch_formed hout
      · exact acceptRecord_formed hs' h
theorem spawnRefused_formed {part pa code : Nat} (h : s.Formed) : (spawnRefused s part pa code).Formed := engineWrite_formed h
theorem spawnMade_formed {part pa : Nat} (h : s.Formed) : (spawnMade s part pa).Formed := engineWrite_formed (engineWrite_formed h)
theorem spawnFrom_formed {s0 : State} {q : SpawnReq} {g : Grid} {pa : Nat} (h : s.Formed) (h0 : s0.Formed) :
    (spawnFrom s s0 q g pa).Formed := by
  unfold spawnFrom
  extract_lets gn queue who n lrec t
  have ht : t.Formed := h
  refine formed_ite ht (formed_ite (spawnRefused_formed ht) ?_)
  split
  · exact spawnRefused_formed ht
  · exact deviceMiss_formed h0
  · extract_lets raw r first
    refine formed_ite (spawnRefused_formed ht) ?_
    split
    · exact spawnRefused_formed ht
    · exact deviceMiss_formed h0
    · next hs =>
      have hs' := forgetRefusals_formed (who := who) (judge_formed hs ht)
      exact spawnMade_formed hs'
theorem spawnedLaunch_formed {k : Nat} (h : s.Formed) : (spawnedLaunch k s).Formed := by
  unfold spawnedLaunch
  split
  · exact h
  extract_lets s'
  have hs' : s'.Formed := h
  split
  · exact hs'
  split
  · exact spawnFrom_formed hs' h
  · exact hs'
theorem releaseBatches_formed : ∀ {n : Nat} {s : State}, s.Formed → (releaseBatches n s).Formed
  | 0, _, h => h
  | n + 1, s, h => by
    unfold releaseBatches
    split
    · exact h
    · refine releaseBatches_formed ?_
      split
      · exact engineWrite_formed h
      · exact h
theorem gridFinal_formed {gn : Nat} {g : Grid} {code fdet : Nat} (h : s.Formed) : (gridFinal s gn g code fdet).Formed := by
  unfold gridFinal
  extract_lets s1 s2 s3 s4
  have h1 : s1.Formed := by
    unfold s1
    split
    · exact writeFinal_formed h
    · exact h
  have h2 : s2.Formed := formed_ite (raiseIrq_formed h1) h1
  have h3 : s3.Formed := h2
  have h4 : s4.Formed := releaseBatches_formed h3
  exact formed_ite h4 (setVf_formed h4)
theorem gridRetire_formed {gn : Nat} (h : s.Formed) : (gridRetire gn s).Formed := by
  unfold gridRetire
  split
  · exact h
  · exact formed_ite (gridFinal_formed h) h

/-! ### Sheets and grids end -/

theorem dropSheet_formed (h : s.Formed) : (s.dropSheet sid).Formed := h
theorem sheetExit_formed (h : s.Formed) : (sheetExit sid s).Formed := by
  unfold sheetExit
  split
  · exact h
  refine formed_ite ?_ h
  extract_lets t
  have ht : t.Formed := dropSheet_formed h
  refine formed_ite (bindTiles_formed ht) ?_
  split
  · exact ht
  extract_lets u
  have hu : u.Formed := clearReuse_formed ht
  split
  · exact hu
  · exact formed_ite hu hu
theorem drainStores_formed : ∀ {n : Nat} {s : State}, s.Formed → (drainStores n s sid).Formed
  | 0, _, h => h
  | n + 1, s, h => by
    unfold drainStores
    split
    · exact h
    split
    · exact h
    · exact drainStores_formed (performEntry_formed h)
theorem leavePort_formed (h : s.Formed) : (leavePort s sid).Formed := mapCore_formed h
theorem removeSheet_formed (h : s.Formed) : (removeSheet s sid).Formed := by
  unfold removeSheet
  extract_lets n s1 core s2 s3 gone s4 cl s5 drops s6
  have h2 : s2.Formed := drainHomes_formed (drainStores_formed h)
  have h3 : s3.Formed := by
    unfold s3
    split
    · exact tally_formed h2
    · exact h2
  have h5 : s5.Formed := setCluster_formed (mapCore_formed h3)
  have h6 : s6.Formed := h5
  exact dropSheet_formed (leavePort_formed h6)
theorem stopGrid_formed {gn : Nat} (h : s.Formed) : (stopGrid s gn).Formed := by
  unfold stopGrid
  extract_lets ws t saved gone
  have ht : t.Formed := foldl_formed (fun _ _ => removeSheet_formed) _ h
  exact ht
theorem endGrid_formed {gn : Nat} {why : Cause × Nat} (h : s.Formed) : (endGrid s gn why).Formed := by
  unfold endGrid
  extract_lets desc mark t
  have ht : t.Formed := foldl_formed (fun _ _ => mapGrid_formed) _ (mapGrid_formed h)
  exact foldl_formed (fun _ _ => stopGrid_formed) _ ht
theorem gridTermination_formed {gn : Nat} (h : s.Formed) : (gridTermination gn s).Formed := by
  unfold gridTermination
  split
  · exact h
  split
  · exact h
  · exact formed_ite h (formed_ite (gridFinal_formed h) (gridFinal_formed h))
theorem functionLevelReset_formed {vf : Nat} (h : s.Formed) : (functionLevelReset vf s).Formed := by
  unfold functionLevelReset
  extract_lets roots t
  have ht : t.Formed := foldl_formed (fun _ _ => endGrid_formed) _ h
  exact formed_ite ht (setVf_formed ht)

/-! ### Dispatch, scrubs and starts -/

theorem batchOf_formed {part : Nat} {t : State} (ht : batchOf s part = some t) (h : s.Formed) : t.Formed := by
  unfold batchOf at ht
  split at ht
  · obtain ⟨g, -, hg⟩ := Option.bind_eq_some_iff.mp ht
    exact placeBatch_formed hg h
  · cases ht
theorem dispatchBatch_formed {part : Nat} (h : s.Formed) : (dispatchBatch part s).Formed := by
  unfold dispatchBatch
  refine formed_ite h ?_
  split
  · next hb =>
    have ht := batchOf_formed hb h
    exact ht
  · exact h
theorem scrubStart_formed {core col : Nat} (h : s.Formed) : (scrubStart core col s).Formed := by
  unfold scrubStart
  exact formed_ite (mapCore_formed h) h
theorem scrubbed_formed {core col : Nat} (h : s.Formed) : (scrubbed s core col).Formed := h
theorem scrubComplete_formed {core col : Nat} (h : s.Formed) : (scrubComplete core col s).Formed := by
  unfold scrubComplete
  split
  · exact formed_ite (scrubbed_formed h) h
  · exact h
theorem selfInvalidate_formed {core half : Nat} (h : s.Formed) : (selfInvalidate s core half).Formed := mapCore_formed h
theorem workgroupStart_formed {wg : Nat} (h : s.Formed) : (workgroupStart wg s).Formed := by
  unfold workgroupStart
  split
  · exact h
  split
  · exact h
  · exact formed_ite h (foldl_formed (fun _ ⟨_, _⟩ => setSheet_formed) _ (selfInvalidate_formed (mapCore_formed h)))

end
end Sys2Proof.Machine
end


section

namespace Sys2Proof.Machine

/-! ## Stops, services and power keep the form of memory (R278 to R298, R316 to R326) -/

section
variable {s : State} {sid : Nat} {sh : Sheet} {t : Trap}

theorem withReply_formed {n : Nat} (h : s.Formed) : ({ s with reply := n } : State).Formed := h
theorem reportStop_formed (h : s.Formed) : (reportStop s sh t).Formed := by
  unfold reportStop
  exact withReply_formed h
theorem terminate_formed (h : s.Formed) : (terminate s sid sh t).Formed := by
  unfold terminate
  split
  · exact endGrid_formed h
  · exact h
theorem parkAs_formed {p : Park} (h : s.Formed) : (parkAs s sid sh p t).Formed := setSheet_formed h
theorem skipMove_formed (h : s.Formed) : (skipMove s sid sh t).Formed := setSheet_formed h
theorem serve_formed (h : s.Formed) : (serve s sid sh t).Formed := by
  unfold serve
  extract_lets park
  have hpark : ∀ {p t}, (park p t).Formed := parkAs_formed h
  clear_value park
  split
  · exact hpark
  · exact hpark
  · exact formed_ite hpark (terminate_formed h)
  · exact hpark (p := .service) (t := t)
  · exact hpark
  · exact hpark
  · exact hpark
  · exact hpark
  · exact hpark
  · exact terminate_formed h
theorem faultHandling_formed (h : s.Formed) : (faultHandling sid s).Formed := by
  unfold faultHandling
  split
  · exact h
  split
  · extract_lets p u
    have hu : u.Formed := reportStop_formed h
    split
    · exact serve_formed hu
    · exact formed_ite (parkAs_formed hu) (terminate_formed hu)
    · exact skipMove_formed hu
    · exact terminate_formed hu
  · exact h
theorem serveSheet_formed {part : Nat} {f : Sheet → Option Sheet} (h : s.Formed) : (serveSheet s part sid f).Formed := by
  unfold serveSheet
  split
  · split
    · exact mapPart_formed h
    · exact h
  · split
    · refine formed_ite (getD_formed (fun u hu => ?_) h) h
      obtain ⟨y, -, rfl⟩ := Option.map_eq_some_iff.mp hu
      exact setSheet_formed h
    · exact h
theorem emulation_formed (h : s.Formed) : (emulation sid s).Formed := by
  unfold emulation
  split
  · exact setSheet_formed h
  · exact serveSheet_formed h
  · exact h
theorem endCommand_formed {resume : Bool} (h : s.Formed) : (endCommand s sid t resume).Formed := by
  unfold endCommand
  exact formed_ite (commandResume_formed h) (cancelCmd_formed h)
theorem debugged_formed {f : Sheet → Trap → State} (hf : ∀ {sh t}, (f sh t).Formed) (h : s.Formed) : (debugged sid s f).Formed := by
  unfold debugged
  split
  · exact h
  split
  · exact hf
  · exact h
theorem debuggerResume_formed (h : s.Formed) : (debuggerResume sid s).Formed :=
  debugged_formed (formed_ite (endCommand_formed (parkAs_formed h)) (parkAs_formed h)) h
theorem debuggerSkip_formed (h : s.Formed) : (debuggerSkip sid s).Formed :=
  debugged_formed (formed_ite (endCommand_formed (parkAs_formed h)) (formed_ite (parkAs_formed h) (skipMove_formed h))) h
theorem debuggerTerminate_formed (h : s.Formed) : (debuggerTerminate sid s).Formed := debugged_formed (terminate_formed h) h
theorem watchdog_formed (h : s.Formed) : (watchdog sid s).Formed := by
  unfold watchdog
  split
  · exact h
  extract_lets lim out
  have hout : out.Formed := setSheet_formed h
  refine formed_ite h ?_
  split
  · exact takeCause_formed hout
  · exact takeCause_formed hout
  · exact h
theorem softErrorCorrected_formed {x : EccPlace} (h : s.Formed) : (softErrorCorrected x s).Formed := event_formed h
theorem uncorrectable_formed {x : ErrTarget} (h : s.Formed) : (uncorrectable x s).Formed := by
  unfold uncorrectable
  split
  · exact mapSheet_formed h
  · split
    · exact formed_ite (lateCause_formed h) h
    · exact h
  · exact formed_ite h h
  · split
    · exact formed_ite (failRound_formed h) h
    · exact h
theorem sampleRecord_formed {part n slot : Nat} (h : s.Formed) : (sampleRecord part n sid slot s).Formed := by
  unfold sampleRecord
  exact formed_ite (traceRecord_formed h) h
theorem svcAnswer_formed {v : W64} (h : s.Formed) : (svcAnswer sid v s).Formed := by
  unfold svcAnswer
  split
  · exact formed_ite (setSheet_formed h) h
  · exact serveSheet_formed h
  · exact h

/-! ### Management requests -/

theorem refuse_formed (h : s.Formed) : (refuse s).Formed := h
theorem carried_formed (h : s.Formed) : (carried s).Formed := h
theorem guarded_formed {port g : Nat} {f : State → Option State} (hf : ∀ {t}, f s = some t → t.Formed) (h : s.Formed) :
    (guarded port g s f).Formed := by
  unfold guarded
  split
  · split
    · next hs => exact carried_formed (hf hs)
    · exact refuse_formed h
  · exact refuse_formed h

/-! ### Controllers, ports and power -/

theorem memoryRequestArrival_formed {ch cls n sector : Nat} (h : s.Formed) : (memoryRequestArrival ch cls n sector s).Formed :=
  memArrive_formed h
theorem setChannel_formed {ch : Nat} {c : Channel} (h : s.Formed) : (s.setChannel ch c).Formed := h
theorem memoryRequestServe_formed {ch : Nat} (h : s.Formed) : (memoryRequestServe ch s).Formed := by
  unfold memoryRequestServe
  extract_lets c
  split
  · exact h
  · exact formed_ite (event_formed (setChannel_formed h)) (setChannel_formed h)
theorem setCore_formed {core : Nat} {k : Core} (h : s.Formed) : (s.setCore core k).Formed := h
theorem networkSectorGrant_formed {core : Nat} (h : s.Formed) : (networkSectorGrant core s).Formed := by
  unfold networkSectorGrant
  exact formed_ite (foldl_formed (fun _ _ => netPay_formed) _ (setCore_formed h)) h
theorem refillPeriodEnd_formed {core : Nat} (h : s.Formed) : (refillPeriodEnd core s).Formed := by
  unfold refillPeriodEnd
  exact formed_ite (setCore_formed h) h
theorem budgetPeriod_formed (h : s.Formed) : (budgetPeriod s).Formed := by
  unfold budgetPeriod
  refine formed_ite h ?_
  extract_lets ps floors gs us s1 s2
  have h1 : s1.Formed := foldl_formed (fun _ ⟨_, _⟩ => setCluster_formed) _ h
  have h2 : s2.Formed := foldl_formed (fun _ _ => mapPart_formed) _ h1
  exact h2

variable {r : Nat}

theorem raiseClocks_formed (h : s.Formed) : (raiseClocks s r).Formed :=
  foldl_formed (fun _ _ h => formed_ite (setClock_formed h) h) _ h
theorem lowerClocks_formed (h : s.Formed) : (lowerClocks s r).Formed :=
  foldl_formed (fun _ _ h => formed_ite (setClock_formed h) h) _ h
theorem startSteps_formed {cls : List Nat} (h : s.Formed) : (startSteps s r cls).Formed :=
  foldl_formed (fun _ _ => setCluster_formed) _ (foldl_formed (fun _ _ => mapCore_formed) _ h)
theorem setRail_formed {x : Rail} (h : s.Formed) : (s.setRail r x).Formed := h
theorem followVotes_formed (h : s.Formed) : (followVotes s r).Formed := by
  unfold followVotes
  exact formed_ite (raiseClocks_formed (startSteps_formed (setRail_formed h)))
    (formed_ite h (startSteps_formed (setRail_formed h)))
theorem voteRail_formed {part mv : Nat} (h : s.Formed) : (voteRail s r part mv).Formed := followVotes_formed (setRail_formed h)
theorem revoteRail_formed (h : s.Formed) : (revoteRail s r).Formed := lowerClocks_formed (followVotes_formed (setRail_formed h))
theorem voltageVote_formed {part mv : Nat} (h : s.Formed) : (voltageVote r part mv s).Formed := by
  unfold voltageVote
  exact formed_ite (lowerClocks_formed (voteRail_formed h)) h
theorem clockStepConfirm_formed {core : Nat} (h : s.Formed) : (clockStepConfirm core s).Formed := by
  unfold clockStepConfirm
  extract_lets cl r x
  split
  · exact h
  · exact formed_ite h (formed_ite (setClock_formed (setCluster_formed h)) (formed_ite h
      (formed_ite (setRail_formed (mapCore_formed h)) (mapCore_formed h))))
theorem railFall_formed (h : s.Formed) : (railFall r s).Formed := by
  unfold railFall
  extract_lets x
  split
  · exact formed_ite (raiseClocks_formed (lowerClocks_formed (setRail_formed h))) h
  · exact h
theorem railSettled_formed (h : s.Formed) : (railSettled r s).Formed := by
  unfold railSettled
  extract_lets x
  split
  · exact raiseClocks_formed (setRail_formed h)
  · exact h
theorem voteAll_formed {part mv : Nat} (h : s.Formed) : (voteAll s part mv).Formed :=
  foldl_formed (fun _ _ h => lowerClocks_formed (voteRail_formed h)) _ h
theorem setLease_formed {part : Nat} {l : Option Lease} (h : s.Formed) : (setLease s part l).Formed := voteAll_formed (mapPart_formed h)
theorem boostLeaseRequest_formed {port part mhz dur : Nat} (h : s.Formed) : (boostLeaseRequest port part mhz dur s).Formed := by
  refine guarded_formed (fun ht => ?_) h
  split at ht <;> cases ht
  exact setLease_formed (drew_formed h)
theorem leaseExpiry_formed {part : Nat} (h : s.Formed) : (leaseExpiry part s).Formed := by
  unfold leaseExpiry
  split
  · exact formed_ite (setLease_formed h) h
  · exact h
theorem leaseRetry_formed {part : Nat} (h : s.Formed) : (leaseRetry part s).Formed := by
  unfold leaseRetry
  split
  · exact formed_ite (formed_ite (setLease_formed (drew_formed h)) (drew_formed h)) h
  · exact h
theorem suspendLease_formed {part : Nat} (h : s.Formed) : (suspendLease s part).Formed := by
  unfold suspendLease
  split
  · exact formed_ite h (setLease_formed h)
  · exact h
theorem powerLimitMeasures_formed {exceeded : Bool} (h : s.Formed) : (powerLimitMeasures exceeded s).Formed := by
  unfold powerLimitMeasures
  refine formed_ite h ?_
  split
  · exact foldl_formed (fun _ _ => suspendLease_formed) _ h
  split
  · exact foldl_formed (fun _ _ => setCluster_formed) _ h
  · exact foldl_formed (fun _ _ h => setClock_formed (setCluster_formed h)) _ h
theorem countDeferred_formed {cl : Nat} (h : s.Formed) : (countDeferred s cl).Formed := by
  unfold countDeferred
  split
  · exact formed_ite (event_formed (setCluster_formed h)) h
  · exact h
theorem pairBalance_formed {pair lower upper : Nat} (h : s.Formed) : (pairBalance pair lower upper s).Formed := by
  unfold pairBalance
  extract_lets a b put
  have hput : ∀ {s cl d l}, s.Formed → (put s cl d l).Formed := setCluster_formed
  clear_value put
  exact formed_ite (countDeferred_formed (hput (hput h))) (formed_ite (hput (hput h)) h)

end
end Sys2Proof.Machine
end


section

namespace Sys2Proof.Machine

/-! ## Preemption and page requests keep the form of memory (R289 to R310, R359) -/

section
variable {s : State} {part : Nat}

theorem setPreempt_formed {p : Option Preempt} (h : s.Formed) : (setPreempt s part p).Formed := mapPart_formed h
theorem stopSheet_formed {sid : Nat} {sh : Sheet} (h : s.Formed) : (stopSheet s sid sh).Formed := setSheet_formed h
theorem classGRequest_formed (h : s.Formed) : (classGRequest part s).Formed := by
  unfold classGRequest
  split
  · exact formed_ite (setPreempt_formed h) h
  · exact h
theorem putImage_formed {img : List ImageRec} (h : s.Formed) : (putImage s part img).Formed := mapPart_formed (suspendLease_formed h)
theorem dropWg_formed {w : Nat} (h : s.Formed) : ({ s with wgs := drop s.wgs w } : State).Formed := h
theorem graphBoundaryStop_formed (h : s.Formed) : (graphBoundaryStop part s).Formed := by
  unfold graphBoundaryStop
  split
  · exact h
  extract_lets gs shs img t u
  have ht : t.Formed := foldl_formed (fun _ _ => removeSheet_formed) _ h
  have hu : u.Formed := foldl_formed (fun _ _ h => clearReuse_formed (dropWg_formed h)) _ ht
  exact formed_ite h (putImage_formed hu)
theorem beginClassD_formed (h : s.Formed) : (beginClassD s part).Formed :=
  foldl_formed (fun _ _ => mapSheet_formed) _ (setPreempt_formed h)
theorem classGEscalation_formed (h : s.Formed) : (classGEscalation part s).Formed := by
  unfold classGEscalation
  split
  · exact formed_ite (beginClassD_formed h) h
  · exact h
theorem classDRequest_formed (h : s.Formed) : (classDRequest part s).Formed := by
  unfold classDRequest
  split
  · exact formed_ite h (beginClassD_formed h)
  · exact formed_ite (beginClassD_formed h) h
theorem drainPointStop_formed {sid : Nat} (h : s.Formed) : (drainPointStop sid s).Formed := by
  unfold drainPointStop
  split
  · exact h
  · refine formed_ite h (formed_ite (stopSheet_formed h) (formed_ite (formed_ite (stopSheet_formed h) ?_) h))
    split
    · exact formed_ite (stopSheet_formed h) h
    · exact h
theorem forcedStopDeadline_formed (h : s.Formed) : (forcedStopDeadline part s).Formed := by
  unfold forcedStopDeadline
  refine formed_ite h (foldl_formed (fun s e h => ?_) _ h)
  split
  · exact formed_ite (event_formed (stopSheet_formed h)) h
  · exact h
theorem contextSave_formed {reassign : Bool} (h : s.Formed) : (contextSave part reassign s).Formed := by
  unfold contextSave
  extract_lets shs ws isD stopped room img s1 s2 s3
  have h1 : s1.Formed := foldl_formed (fun _ _ h => dropSheet_formed (leavePort_formed h)) _ h
  have h2 : s2.Formed := foldl_formed (fun _ _ h => clearReuse_formed h) _ h1
  have h3 : s3.Formed := by
    refine formed_ite (foldl_formed (fun _ _ h => ?_) _ h2) h2
    exact h
  exact formed_ite h (putImage_formed h3)

/-! ### Restoring an image -/

theorem putGrids_formed {img : List ImageRec} (h : s.Formed) : (putGrids s img).Formed := by
  unfold putGrids
  refine foldl_formed (fun s r h => ?_) _ h
  split
  · exact formed_ite h h
  · exact h
theorem setWg_formed {w : Nat} {g : Workgroup} (h : s.Formed) : (s.setWg w g).Formed := h
theorem placeImage_formed {all : List (Nat × Workgroup)} {t : State} : ∀ {l : List (Nat × Workgroup)} {s : State},
    placeImage part all l s = some t → s.Formed → t.Formed
  | [], _, ht, h => by cases ht; exact h
  | e :: l, s, ht, h => by
    unfold placeImage at ht
    split at ht
    · cases ht
    extract_lets s1 s2 at ht
    have h1 : s1.Formed := setWg_formed (clearReuse_formed h)
    have h2 : s2.Formed := formed_ite (mapCore_formed h1) h1
    exact placeImage_formed ht h2
theorem restoreSheet_formed {e : Nat × Sheet} (h : s.Formed) : (restoreSheet s e).Formed := acquire_formed (setSheet_formed h)
theorem renameSheets_formed {l : List (Nat × Sheet)} (h : s.Formed) : (renameSheets part l s).Formed := h.of_mem rfl
theorem applyHeld_formed {ws : List Nat} : ∀ {n : Nat} {s : State}, s.Formed → (applyHeld ws n s).Formed
  | 0, _, h => h
  | n + 1, s, h => by
    unfold applyHeld
    split
    · exact h
    split
    · exact h
    · exact applyHeld_formed (requestAt_formed h)
theorem mapRedirects_formed {f : Redirect → Option Redirect} (h : s.Formed) : (mapRedirects s f).Formed := h
theorem restoreTail_formed {img : List ImageRec} (h : s.Formed) : (restoreTail part img s).Formed := by
  unfold restoreTail
  refine leaseRetry_formed (mapPart_formed (foldl_formed (fun s r h => ?_) _ (mapPart_formed h)))
  split
  · exact formed_ite h (mapPart_formed h)
  · exact mapPart_formed h
  · exact foldl_formed (fun _ ⟨_, _⟩ h => formed_ite (setVf_formed h) h) _ h
  · exact h
theorem setGrid_formed {gn : Nat} {g : Grid} (h : s.Formed) : (s.setGrid gn g).Formed := h
theorem restoreGraph_formed {img : List ImageRec} {t : State} (ht : restoreGraph part img s = some t) (h : s.Formed) : t.Formed := by
  unfold restoreGraph at ht
  revert t
  refine List.foldlRecOn img _ (motive := fun o => ∀ {t : State}, o = some t → t.Formed)
    (fun ht => by cases ht; exact h) ?_
  intro o ho r _ t ht
  split at ht
  · split at ht
    · cases ht
    · obtain ⟨die, -, hdie⟩ := List.exists_of_findSome?_eq_some ht
      exact placeOn_formed hdie (setGrid_formed (ho rfl))
  · exact ho ht
theorem prepareRestore_formed {ws : List Nat} (h : s.Formed) : (prepareRestore s part ws).Formed :=
  foldl_formed (fun _ _ h => formed_ite (mapCore_formed h) h) _ (mapRedirects_formed h)
theorem restoreAll_formed {img : List ImageRec} {t : State} (ht : restoreAll part img s = some t) (h : s.Formed) : t.Formed := by
  unfold restoreAll at ht
  extract_lets ws s1 at ht
  have h1 : s1.Formed := putGrids_formed h
  split at ht
  · cases ht
  next hg =>
  split at ht
  · cases ht
  next hp =>
  cases ht
  have h2 := placeImage_formed hp (restoreGraph_formed hg h1)
  exact applyHeld_formed (restoreTail_formed (foldl_formed (fun _ _ => restoreSheet_formed) _ (renameSheets_formed
    (foldl_formed (fun _ _ => clearReuse_formed) _ (mapRedirects_formed h2)))))
theorem contextRestore_formed (h : s.Formed) : (contextRestore part s).Formed := by
  unfold contextRestore
  extract_lets old img
  refine formed_ite h (formed_ite (mapPart_formed h) ?_)
  split
  · next ht => exact restoreAll_formed ht h
  · exact prepareRestore_formed h
theorem contextKill_formed (h : s.Formed) : (contextKill part s).Formed := by
  unfold contextKill
  extract_lets ids s1 s2 s3
  have h1 : s1.Formed := foldl_formed (fun _ _ => endGrid_formed) _ h
  have h3 : s3.Formed := setLease_formed (mapRedirects_formed h1)
  clear_value s3
  exact h3

/-! ### Invalidations and page requests -/

theorem pageWalk_formed {core vf vpage : Nat} (h : s.Formed) : (pageWalk core vf vpage s).Formed := lookPage_formed h
theorem purgeAll_formed {x : TlbSel} (h : s.Formed) : (purgeAll x s).Formed := h
theorem translationInvalidation_formed {port : Nat} {x : TlbSel} (h : s.Formed) : (translationInvalidation port x s).Formed := by
  unfold translationInvalidation
  refine formed_ite (formed_ite h (refuse_formed h)) (guarded_formed (fun ht => ?_) h)
  cases ht
  exact purgeAll_formed h
theorem pageRequestEnqueue_formed {x : Requester} (h : s.Formed) : (pageRequestEnqueue x s).Formed := by
  unfold pageRequestEnqueue
  refine formed_ite h ?_
  split
  · split
    · split
      · exact formed_ite (joinRequest_formed h) h
      · exact h
    · exact h
  · split
    · exact h
    split
    · exact h
    · have ht := fun {b : Bool} {vf core sid slot va : Nat} => formed_ite (c := b = true) h
        (lookPage_formed (vf := vf) (core := core) (sid := sid) (slot := slot) (va := va) h)
      exact formed_ite (joinRequest_formed ht) (lateCause_formed ht)
theorem dropRequest_formed {die k : Nat} (h : s.Formed) : (dropRequest s die k).Formed := h
theorem pageRequestMapped_formed {port die k : Nat} (h : s.Formed) : (pageRequestMapped port die k s).Formed := by
  refine guarded_formed (fun ht => ?_) h
  obtain ⟨r, -, rfl⟩ := Option.map_eq_some_iff.mp ht
  refine foldl_formed (fun s w h => ?_) _ (dropRequest_formed h)
  split
  · exact serveSheet_formed h
  · exact h
theorem refuseSheet_formed {sid : Nat} (h : s.Formed) : (refuseSheet s part sid).Formed := by
  unfold refuseSheet
  split
  · next sh _ =>
    extract_lets t u v
    have hu : u.Formed := serveSheet_formed h
    clear_value t
    have hv : v.Formed := by
      unfold v
      split
      · exact reportStop_formed hu
      · exact hu
    split
    · exact endGrid_formed hv
    · exact hv
  · exact h
theorem refusePage_formed {die k : Nat} {r : PageReq} (h : s.Formed) : (pageRequestRefused.refusePage s die k r).Formed := by
  unfold pageRequestRefused.refusePage
  refine foldl_formed (fun s w h => ?_) _ (dropRequest_formed h)
  split
  · exact refuseSheet_formed h
  · split
    · exact lateCause_formed h
    · exact h
  · exact h
theorem pageRequestRefused_formed {port die k : Nat} (h : s.Formed) : (pageRequestRefused port die k s).Formed := by
  unfold pageRequestRefused
  split
  · exact refusePage_formed (carried_formed h)
  · exact refuse_formed h

end
end Sys2Proof.Machine
end


section

namespace Sys2Proof.Machine

/-! ## Management, observation, host ports and migration keep the form of memory (R306 to R315, R328 to R384) -/

section
variable {s : State} {port part core vf n : Nat}

/-! ### Management -/

theorem setPart_formed {p : Part} (h : s.Formed) : (s.setPart part p).Formed := h
theorem releasePins_formed (h : s.Formed) : (releasePins s part).Formed := h
theorem pinRelease_formed (h : s.Formed) : (pinRelease part s).Formed := releasePins_formed h
theorem partitionTableWrite_formed {v : BitVec 256} (h : s.Formed) : (partitionTableWrite port part v s).Formed := by
  refine guarded_formed (fun ht => ?_) h
  extract_lets p q s' at ht
  have hp : s'.Formed := setPart_formed h
  clear_value s'
  split at ht
  · cases ht
  · split at ht <;> cases ht
    · exact releasePins_formed hp
    · exact hp
theorem coreAssignmentWrite_formed {v : BitVec 16} (h : s.Formed) : (coreAssignmentWrite port core v s).Formed := by
  refine guarded_formed (fun ht => ?_) h
  extract_lets bad parts at ht
  split at ht <;> cases ht
  exact foldl_formed (fun _ _ => classGRequest_formed) _ (mapCore_formed h)
theorem coreAssignmentEffect_formed (h : s.Formed) : (coreAssignmentEffect core s).Formed := by
  unfold coreAssignmentEffect
  extract_lets k
  split
  · exact h
  · exact formed_ite h (revoteRail_formed (setCore_formed h))
theorem vfAssignmentWrite_formed (h : s.Formed) : (vfAssignmentWrite port vf part s).Formed := by
  refine guarded_formed (fun ht => ?_) h
  split at ht <;> cases ht
  exact setVf_formed h
theorem reductionGroupWrite_formed {g : Nat} {v : BitVec 512} (h : s.Formed) : (reductionGroupWrite port part g v s).Formed := by
  refine guarded_formed (fun ht => ?_) h
  extract_lets v put_ e at ht
  split at ht
  · cases ht
  split at ht
  · cases ht
  · extract_lets at ht
    split at ht <;> cases ht
    exact mapPart_formed h
theorem startTable_formed (h : s.Formed) : (startTable s part).Formed := by
  unfold startTable
  exact formed_ite h (engineWrite_formed h)
theorem managementRegisterWrite_formed {r : MgmtReg} {v : BitVec 128} (h : s.Formed) : (managementRegisterWrite port r v s).Formed := by
  refine guarded_formed (fun ht => ?_) h
  cases r with
  | fdisp p => cases ht; exact mapPart_formed h
  | wdlim p => cases ht; exact mapPart_formed h
  | troot f => cases ht; exact setVf_formed h
  | enga => dsimp only at ht; split at ht <;> cases ht; exact h
  | dirty p => cases ht; exact mapPart_formed h
  | seqTable p => dsimp only at ht; split at ht <;> cases ht; exact startTable_formed (mapPart_formed h)
  | firmware => cases ht; exact h
  | deviceNo => cases ht; exact h
  | route d => cases ht; exact h
  | reserved k => cases ht

/-! ### Counters, rings, policies and the registers of a page -/

theorem counterRead_formed {who : Reader} (h : s.Formed) : (counterRead who part n s).Formed := by
  unfold counterRead
  split
  · exact withReply_formed h
  · exact h
theorem counterLowRead_formed {who : Reader} (h : s.Formed) : (counterLowRead who part n s).Formed := by
  unfold counterLowRead
  split
  · exact withReply_formed (mapPart_formed h)
  · exact h
theorem counterHighRead_formed {who : Reader} (h : s.Formed) : (counterHighRead who part n s).Formed := by
  unfold counterHighRead
  split
  · exact withReply_formed h
  · exact h
theorem counterWindowEnd_formed (h : s.Formed) : (counterWindowEnd part n s).Formed := by
  unfold counterWindowEnd
  exact formed_ite (mapPart_formed h) h
theorem pcselWrite_formed {v : W64} (h : s.Formed) : (pcselWrite part n v s).Formed := mapPart_formed h
theorem ringDescriptorWrite_formed {r : RingKind} {d : RingDesc} (h : s.Formed) : (ringDescriptorWrite port part r d s).Formed := by
  refine guarded_formed (fun ht => ?_) h
  split at ht <;> cases ht
  exact mapPart_formed h
theorem ringReadAdvance_formed {r : RingKind} (h : s.Formed) : (ringReadAdvance part r n s).Formed := by
  unfold ringReadAdvance
  exact formed_ite (mapPart_formed h) h
theorem policySubmit_formed {bs : List Byte} (h : s.Formed) : (policySubmit port bs s).Formed := by
  unfold policySubmit
  exact formed_ite h (refuse_formed h)
theorem lerrRead_formed (h : s.Formed) : (lerrRead vf s).Formed := withReply_formed (setVf_formed h)
theorem irqstWrite_formed {v : W64} (h : s.Formed) : (irqstWrite vf v s).Formed := setVf_formed h

/-! ### Host ports -/

theorem semaphoreRead_formed {g : Nat} {tie : Bool} (h : s.Formed) : (semaphoreRead port g tie s).Formed := by
  unfold semaphoreRead
  exact withReply_formed (formed_ite h h)
theorem semaphoreRelease_formed {g : Nat} (h : s.Formed) : (semaphoreRelease port g s).Formed := by
  unfold semaphoreRelease
  exact formed_ite h h
theorem portLinkDown_formed (h : s.Formed) : (portLinkDown port s).Formed := h
theorem linkTraining_formed {v : BitVec 5} (h : s.Formed) : (linkTraining port v s).Formed := h
theorem homeRead_formed {pa : Nat} (h : s.Formed) : (homeRead s pa n).Formed := withReply_formed (l2Use_formed h)
theorem hostPostedWrite_formed {pa : Nat} {bs : List Byte} (h : s.Formed) : (hostPostedWrite port pa bs s).Formed := by
  unfold hostPostedWrite
  exact formed_ite (engineWrite_formed h) h
theorem hostRead_formed {x : HostTarget} (h : s.Formed) : (hostRead port x n s).Formed := by
  unfold hostRead
  split
  · exact formed_ite (homeRead_formed h) h
  · exact withReply_formed (lerrRead_formed h)
  · exact withReply_formed h
theorem hostStoreToCoherentMapping_formed {pa : Nat} {bs : List Byte} (h : s.Formed) :
    (hostStoreToCoherentMapping port pa bs s).Formed := by
  unfold hostStoreToCoherentMapping
  exact formed_ite (homeWrite_formed (foldl_formed (fun _ _ => evictLine_formed) _ h)) h
theorem homeAtomic_formed {z pa : Nat} {f : Nat → Option Nat} (h : s.Formed) : (homeAtomic s z pa f).2.Formed := by
  unfold homeAtomic
  extract_lets old
  split
  · exact engineWrite_formed h
  · exact l2Use_formed h
theorem peerAtomic_formed {z pa : Nat} {f : Nat → Option Nat} (h : s.Formed) : (peerAtomic s z pa f).Formed := by
  unfold peerAtomic
  exact formed_ite (withReply_formed (homeAtomic_formed h)) h
theorem peerContribution_formed {group roff rank : Nat} {bs : List Byte} (h : s.Formed) :
    (peerContribution s part group roff rank bs).Formed := by
  unfold peerContribution
  split
  · exact h
  extract_lets rows c
  refine formed_ite h ?_
  split
  · exact h
  · exact formed_ite h (setRound_formed h)
theorem peerDeviceRequest_formed {r : PeerDevReq} (h : s.Formed) : (peerDeviceRequest r s).Formed := by
  unfold peerDeviceRequest
  split
  case h_1 => exact formed_ite (homeRead_formed h) h
  case h_2 | h_5 => exact formed_ite (engineWrite_formed h) h
  case h_3 | h_4 => exact peerAtomic_formed h
  case h_6 => exact peerContribution_formed h
theorem rerouted_formed {link : Nat} {via : Option Nat} (h : s.Formed) : (rerouted s link via).Formed := h
theorem cutCommand_formed {e : Nat} {c : Cmd} (h : s.Formed) : (match cutOff s core c with
    | some f => lateCause s core e c f
    | none => s).Formed := by
  split
  · exact lateCause_formed h
  · exact h
theorem linkFailure_formed {link : Nat} {via : Option Nat} (h : s.Formed) : (linkFailure link via s).Formed := by
  unfold linkFailure
  extract_lets s1 s2
  have h2 : s2.Formed := foldl_formed (fun _ _ h => foldl_formed (fun _ _ => cutCommand_formed) _ h) _ (rerouted_formed h)
  refine foldl_formed (fun s e h => ?_) _ h2
  split
  · exact terminate_formed (reportStop_formed (sheetEvent_formed h))
  · exact h
theorem deviceReset_formed (h : s.Formed) : (deviceReset s).Formed := h

/-! ### Migration -/

theorem precopyGo_formed {v : BitVec 256} (h : s.Formed) : (precopyGo port v s).Formed := by
  refine guarded_formed (fun ht => ?_) h
  extract_lets part p q at ht
  split at ht
  · cases ht
  split at ht
  · cases ht; exact mapPart_formed h
  split at ht
  · cases ht
    exact formed_ite (mapPart_formed h) (startTable_formed (mapPart_formed h))
  split at ht <;> cases ht
  exact mapPart_formed h
theorem clearBitmap_formed {p : Part} (h : s.Formed) : (clearBitmap s p).Formed := writeBytes_formed h
theorem sendRound_formed {all : Bool} (h : s.Formed) : (sendRound s part all).Formed :=
  mapPart_formed (foldl_formed (fun _ _ => l2Use_formed) _ (clearBitmap_formed h))
theorem precopyRound_formed (h : s.Formed) : (precopyRound part s).Formed := by
  unfold precopyRound
  extract_lets c t
  have ht : t.Formed := sendRound_formed h
  exact formed_ite h (formed_ite (classGRequest_formed (mapPart_formed ht)) ht)
theorem precopyFinal_formed (h : s.Formed) : (precopyFinal part s).Formed := by
  unfold precopyFinal
  extract_lets p t
  have ht : t.Formed := sendRound_formed h
  exact formed_ite h (formed_ite (mapPart_formed ht) ht)
theorem abortSession_formed {m : PageMsg} (h : s.Formed) : (abortSession s part m).Formed := mapPart_formed h
theorem receive_formed {m : PageMsg} {f : List Byte → State} (hf : ∀ bs, (f bs).Formed) (h : s.Formed) :
    (receive part m s f).Formed := by
  unfold receive
  extract_lets p
  refine formed_ite h ?_
  split
  · exact abortSession_formed h
  · exact formed_ite (hf _) h
theorem pageMessageReceive_formed {m : PageMsg} (h : s.Formed) : (pageMessageReceive part m s).Formed :=
  receive_formed (fun _ => formed_ite h (formed_ite (mapPart_formed h)
    (formed_ite (engineWrite_formed (engineWrite_formed h)) h))) h
theorem imageMessageReceive_formed {m : PageMsg} (h : s.Formed) : (imageMessageReceive part m s).Formed :=
  receive_formed (fun _ => formed_ite h (mapPart_formed h)) h

end
end Sys2Proof.Machine
end


section

namespace Sys2Proof.Machine

/-! ## The passing of time keeps the form of memory (R275, R281, R323, R342; log 3) -/

section
variable {s : State} {sid : Nat}

theorem stopFetch_formed {sh : Sheet} {f : Flt} (h : s.Formed) : (stopFetch s sid sh f).Formed := by
  unfold stopFetch
  exact takeCause_formed (formed_ite (clearPoison_formed (lookRun_formed h)) (lookRun_formed h))
theorem waitCycles_formed {d : Nat} {sh : Sheet} : ∀ {w : Option Waiting}, s.Formed → (waitCycles s sid d sh w).Formed
  | none, h => h
  | some w, h => by
    have ht : (if w.cause = 0 ∧ w.limited then s.sheetEvent sid sh 7 0x12 d
        else if w.cause = 1 then s.sheetEvent sid sh 7 0x13 d else s).Formed :=
      formed_ite (sheetEvent_formed h) (formed_ite (sheetEvent_formed h) h)
    exact formed_ite (mapSheet_formed ht) ht
theorem tickSheet_formed {e : Nat × Sheet} (h : s.Formed) : (tickSheet s e).Formed := by
  unfold tickSheet
  extract_lets sid sh c d flow s1 s2
  have h1 : s1.Formed := mapSheet_formed h
  have h2 : s2.Formed := mapSheet_formed h1
  refine formed_ite (sheetEvent_formed h1) ?_
  split
  · exact formed_ite (waitCycles_formed (noteWait_formed h2)) h2
  · split
    · exact formed_ite (mapSheet_formed h2) h2
    · exact h2
  · exact h2
theorem tickCounts_formed (h : s.Formed) : (tickCounts s).Formed := by
  unfold tickCounts
  extract_lets s1 s2
  have h1 : s1.Formed := foldl_formed (fun _ ⟨_, _, _⟩ => event_formed) _ h
  have h2 : s2.Formed := foldl_formed (fun _ _ h => foldl_formed (fun _ _ h => formed_ite (event_formed h) h) _
    (foldl_formed (fun _ _ h => formed_ite (event_formed h) h) _ h)) _ h1
  exact foldl_formed (fun _ _ h => formed_ite (foldl_formed (fun _ _ => event_formed) _ h) h) _ h2
theorem tickLeases_formed (h : s.Formed) : (tickLeases s).Formed :=
  foldl_formed (fun _ _ h => formed_ite (leaseRetry_formed (formed_ite (mapPart_formed h) h)) (formed_ite (mapPart_formed h) h)) _ h
theorem tickWindows_formed (h : s.Formed) : (tickWindows s).Formed := by
  unfold tickWindows
  exact formed_ite (foldl_formed (fun _ _ => counterWindowEnd_formed) _ h) h
theorem tickReefs_formed (h : s.Formed) : (tickReefs s).Formed := foldl_formed (fun _ _ => mapPart_formed) _ h
theorem tickPairs_formed (h : s.Formed) : (tickPairs s).Formed := by
  unfold tickPairs
  extract_lets t
  have ht : t.Formed := foldl_formed (fun _ _ => countDeferred_formed) _ h
  exact formed_ite (foldl_formed (fun _ _ h => drew_formed (pairBalance_formed h)) _ ht) ht
theorem withTs_formed {n : Nat} (h : s.Formed) : ({ s with ts := n } : State).Formed := h
theorem tick_formed (h : s.Formed) : (tick s).Formed := by
  unfold tick
  extract_lets t
  have ht : t.Formed := tickLeases_formed (tickReefs_formed (tickCounts_formed (foldl_formed (fun _ _ => tickSheet_formed) _ h)))
  exact tickPairs_formed (tickWindows_formed (withTs_formed ht))

end
end Sys2Proof.Machine
end


section

namespace Sys2Proof.Machine

/-! O5: a step keeps the form of memory. A step is an event of the agenda or an action; an action is an event, an operation's bundle, a
step of a sheet or the passing of time, and each of these keeps the form. -/

section
variable {s t : State}

/-! ## What an instruction does -/

theorem formed_of_runAt {ok : Bool} {f : State → State} (ht : runAt ok f s = .next t) (h : (f s).Formed) : t.Formed := by
  unfold runAt at ht
  split at ht <;> cases ht
  exact h

theorem runOp_formed {i : Instr} {o : OpMeaning} (ho : o.Formed) (ht : runOp i o s = .next t) (h : s.Formed) : t.Formed := by
  have hm : Meanings.Formed (fun _ => .ok o) := fun _ _ e => by cases e; exact ho
  unfold runOp at ht
  split at ht <;> cases ht
  · exact h
  · exact issueOrWait_formed hm h

/-- A bundle, a marker or an event; an event without a unit to check is taken as it stands. -/
theorem event_exec_formed {i : Instr} (hi : meaningOf i = none) (ht : exec i s = .next t) (h : s.Formed) : t.Formed := by
  cases i with
  | bundleIssue b => cases ht; exact issueOrWait_formed (sheetMeanings_formed s s.focus) h
  | markerBundle m => cases ht; exact getD_formed (fun _ hm => issueMarker_formed hm h) (noteWait_formed h)
  | resumedBundle => exact formed_of_runAt ht (resumedBundle_formed (sheetMeanings_formed _ _) h)
  | resultLanding => exact formed_of_runAt ht (resultLanding_formed h)
  | loadPerformed => exact formed_of_runAt ht (loadPerformed_formed h)
  | divideComplete => exact formed_of_runAt ht (divideComplete_formed h)
  | storePerformedAtL1 => exact formed_of_runAt ht (storePerformedAtL1_formed h)
  | storePerformedAtHome => cases ht; exact storePerformedAtHome_formed h
  | homeInvalidation => exact formed_of_runAt ht (homeInvalidation_formed h)
  | l2LineEviction => cases ht; exact l2LineEviction_formed h
  | xpcfgWrite => exact formed_of_runAt ht (xpcfgWrite_formed h)
  | bankFormatWrite => exact formed_of_runAt ht (bankFormatWrite_formed h)
  | commandIssue => exact formed_of_runAt ht (commandIssue_formed h)
  | reservationGrant => exact formed_of_runAt ht (reservationGrant_formed h)
  | operandsConsumed => exact formed_of_runAt ht (operandsConsumed_formed h)
  | commandCompletion => exact formed_of_runAt ht (commandCompletion_formed h)
  | statusLanding => exact formed_of_runAt ht (statusLanding_formed h)
  | byteArrival => cases ht; exact byteArrival_formed h
  | bowaitTimeout => exact formed_of_runAt ht (bowaitTimeout_formed h)
  | roundClose => exact formed_of_runAt ht (roundClose_formed h)
  | groupArrival => cases ht; exact groupArrival_formed h
  | roundFailure => exact formed_of_runAt ht (roundFailure_formed h)
  | lateCauseStop => exact formed_of_runAt ht (lateCauseStop_formed h)
  | commandCancel => exact formed_of_runAt ht (cancelCmd_formed h)
  | commandResume => exact formed_of_runAt ht (commandResume_formed h)
  | faultHandling => exact formed_of_runAt ht (faultHandling_formed h)
  | emulation => exact formed_of_runAt ht (emulation_formed h)
  | debuggerResume => exact formed_of_runAt ht (debuggerResume_formed h)
  | debuggerSkip => exact formed_of_runAt ht (debuggerSkip_formed h)
  | debuggerTerminate => exact formed_of_runAt ht (debuggerTerminate_formed h)
  | watchdog => exact formed_of_runAt ht (watchdog_formed h)
  | softErrorCorrected => exact formed_of_runAt ht (softErrorCorrected_formed h)
  | uncorrectable => exact formed_of_runAt ht (uncorrectable_formed h)
  | sampleRecord => exact formed_of_runAt ht (sampleRecord_formed h)
  | svcAnswer => exact formed_of_runAt ht (svcAnswer_formed h)
  | launchSubmission => exact formed_of_runAt ht (launchSubmission_formed h)
  | launchAcceptance => cases ht; exact launchAcceptance_formed h
  | spawnedLaunch => cases ht; exact spawnedLaunch_formed h
  | dispatchBatch => exact formed_of_runAt ht (dispatchBatch_formed h)
  | workgroupStart => cases ht; exact workgroupStart_formed h
  | sheetExit => exact formed_of_runAt ht (sheetExit_formed h)
  | gridRetire => cases ht; exact gridRetire_formed h
  | gridTermination => cases ht; exact gridTermination_formed h
  | functionLevelReset => exact formed_of_runAt ht (functionLevelReset_formed h)
  | scrubStart => exact formed_of_runAt ht (scrubStart_formed h)
  | scrubComplete => exact formed_of_runAt ht (scrubComplete_formed h)
  | classGRequest => exact formed_of_runAt ht (classGRequest_formed h)
  | graphBoundaryStop => exact formed_of_runAt ht (graphBoundaryStop_formed h)
  | classGEscalation => exact formed_of_runAt ht (classGEscalation_formed h)
  | classDRequest => exact formed_of_runAt ht (classDRequest_formed h)
  | drainPointStop => exact formed_of_runAt ht (drainPointStop_formed h)
  | forcedStopDeadline => exact formed_of_runAt ht (forcedStopDeadline_formed h)
  | contextSave => exact formed_of_runAt ht (contextSave_formed h)
  | contextRestore => exact formed_of_runAt ht (contextRestore_formed h)
  | redirectedRequest => cases ht; exact redirectedRequest_formed h
  | discardedRequest => cases ht; exact discardedRequest_formed h
  | contextKill => exact formed_of_runAt ht (contextKill_formed h)
  | pageWalk => exact formed_of_runAt ht (pageWalk_formed h)
  | pageRequestEnqueue => exact formed_of_runAt ht (pageRequestEnqueue_formed h)
  | pageRequestMapped => exact formed_of_runAt ht (pageRequestMapped_formed h)
  | pageRequestRefused => exact formed_of_runAt ht (pageRequestRefused_formed h)
  | translationInvalidation => exact formed_of_runAt ht (translationInvalidation_formed h)
  | partitionTableWrite => exact formed_of_runAt ht (partitionTableWrite_formed h)
  | coreAssignmentWrite => exact formed_of_runAt ht (coreAssignmentWrite_formed h)
  | coreAssignmentEffect => exact formed_of_runAt ht (coreAssignmentEffect_formed h)
  | vfAssignmentWrite => exact formed_of_runAt ht (vfAssignmentWrite_formed h)
  | reductionGroupWrite => exact formed_of_runAt ht (reductionGroupWrite_formed h)
  | pinRelease => exact formed_of_runAt ht (pinRelease_formed h)
  | managementRegisterWrite => exact formed_of_runAt ht (managementRegisterWrite_formed h)
  | memoryRequestArrival => exact formed_of_runAt ht (memoryRequestArrival_formed h)
  | memoryRequestServe => exact formed_of_runAt ht (memoryRequestServe_formed h)
  | networkSectorGrant => exact formed_of_runAt ht (networkSectorGrant_formed h)
  | refillPeriodEnd => exact formed_of_runAt ht (refillPeriodEnd_formed h)
  | budgetPeriod => cases ht; exact budgetPeriod_formed h
  | powerLimitMeasures => cases ht; exact powerLimitMeasures_formed h
  | pairBalance => exact formed_of_runAt ht (pairBalance_formed h)
  | boostLeaseRequest => exact formed_of_runAt ht (boostLeaseRequest_formed h)
  | leaseExpiry => exact formed_of_runAt ht (leaseExpiry_formed h)
  | leaseRetry => exact formed_of_runAt ht (leaseRetry_formed h)
  | voltageVote => exact formed_of_runAt ht (voltageVote_formed h)
  | clockStepConfirm => exact formed_of_runAt ht (clockStepConfirm_formed h)
  | railFall => exact formed_of_runAt ht (railFall_formed h)
  | counterRead => exact formed_of_runAt ht (counterRead_formed h)
  | counterLowRead => exact formed_of_runAt ht (counterLowRead_formed h)
  | counterHighRead => exact formed_of_runAt ht (counterHighRead_formed h)
  | pcselWrite => exact formed_of_runAt ht (pcselWrite_formed h)
  | ringDescriptorWrite => exact formed_of_runAt ht (ringDescriptorWrite_formed h)
  | ringReadAdvance => exact formed_of_runAt ht (ringReadAdvance_formed h)
  | policySubmit => exact formed_of_runAt ht (policySubmit_formed h)
  | lerrRead => exact formed_of_runAt ht (lerrRead_formed h)
  | irqstWrite => exact formed_of_runAt ht (irqstWrite_formed h)
  | semaphoreRead => exact formed_of_runAt ht (semaphoreRead_formed h)
  | semaphoreRelease => exact formed_of_runAt ht (semaphoreRelease_formed h)
  | portLinkDown => exact formed_of_runAt ht (portLinkDown_formed h)
  | linkTraining => exact formed_of_runAt ht (linkTraining_formed h)
  | hostPostedWrite => exact formed_of_runAt ht (hostPostedWrite_formed h)
  | hostRead => exact formed_of_runAt ht (hostRead_formed h)
  | linkFailure => exact formed_of_runAt ht (linkFailure_formed h)
  | precopyGo => exact formed_of_runAt ht (precopyGo_formed h)
  | precopyRound => exact formed_of_runAt ht (precopyRound_formed h)
  | precopyFinal => exact formed_of_runAt ht (precopyFinal_formed h)
  | pageMessageReceive => exact formed_of_runAt ht (pageMessageReceive_formed h)
  | imageMessageReceive => exact formed_of_runAt ht (imageMessageReceive_formed h)
  | deviceReset => cases ht; exact deviceReset_formed h
  | peerDeviceRequest => cases ht; exact peerDeviceRequest_formed h
  | hostStoreToCoherentMapping => exact formed_of_runAt ht (hostStoreToCoherentMapping_formed h)
  | railSettled => exact formed_of_runAt ht (railSettled_formed h)
  | counterWindowEnd => exact formed_of_runAt ht (counterWindowEnd_formed h)
  | _ => cases hi

theorem exec_formed {i : Instr} (ht : exec i s = .next t) (h : s.Formed) : t.Formed := by
  cases hi : meaningOf i with
  | none => exact event_exec_formed hi ht h
  | some o => exact runOp_formed (meaningOf_formed hi) (exec_of_meaningOf hi ▸ ht) h

/-! ## What a step does -/

theorem withFocus_formed {n : Nat} (h : s.Formed) : ({ s with focus := n } : State).Formed := h
theorem withAgenda_formed {l : List Instr} (h : s.Formed) : ({ s with agenda := l } : State).Formed := h

theorem issuePick_formed {p : Nat × Next} (ht : issuePick p s = .next t) (h : s.Formed) : t.Formed := by
  unfold issuePick at ht
  split at ht
  · exact exec_formed ht (withFocus_formed h)
  · exact formed_of_runAt ht (resumedBundle_formed (sheetMeanings_formed _ _) h)
  · split at ht <;> cases ht
    · exact stopFetch_formed h
    · exact h

theorem planned_formed {a : Action} (ha : Planned a) (ht : a s = .next t) (h : s.Formed) : t.Formed := by
  cases ha with
  | event i => exact exec_formed ht h
  | pick p => exact issuePick_formed ht h
  | settles sid => cases ht; exact settle_formed h
  | finishes sid => cases ht; exact finishHeld_formed (sheetMeanings_formed s sid) h
  | asks sid sh => cases ht; exact askSheet_formed h
  | fetches sid sh => cases ht; exact fetchAsk_formed h
  | fetched sid sh => cases ht; exact fetchDone_formed h
  | skips sid => cases ht; exact skipBody_formed h
  | holds sid => cases ht; exact mapSheet_formed h
  | found sid v id => cases ht; exact lwaitFound_formed h
  | ticks => cases ht; exact tick_formed h

theorem step_formed (ht : step s = .next t) (h : s.Formed) : t.Formed := by
  cases hs : s.agenda with
  | cons i r =>
    rw [step_of_agenda hs] at ht
    exact exec_formed ht (withAgenda_formed h)
  | nil =>
    rw [step_of_idle hs] at ht
    obtain ⟨a, ha, e | e⟩ := chooseAction_mem s
    · exact planned_formed ((actions_planned s).of_mem a ha) (e ▸ ht) h
    · exact planned_formed ((actions_planned s).of_mem a ha) (e ▸ ht) (drew_formed h)

end

/-- Settles O5: memory changes by writes of bytes, and a write of a byte keeps the form. -/
theorem stepKeepsMemoryForm : Obligations.StepKeepsMemoryForm := by
  unfold Obligations.StepKeepsMemoryForm
  exact fun _ _ h ht => step_formed ht h

end Sys2Proof.Machine
end

section
/-! O49: where a workgroup is placed and how it starts. `PlaceRun` says what a run of placements leaves: the workgroups numbered on, one on
each of its places, with their positions in the grid; a batch is a run on one die (R273, R274). -/

namespace Sys2Proof.Machine

/-! ## Events -/

theorem runEvent_ok {i : Instr} (h : i.wf = true) (f : State → State) (s : State) : runEvent i f s = .next (f s) := if_pos h

/-! ## Workgroups placed (R274) -/

/-- What the placement of workgroups of a grid changes: reuse latches, the grid's own account of it, and the new workgroups. -/
structure Places (gn : Nat) (s t : State) : Prop where
  only : t = { s with cores := t.cores, grids := t.grids, wgs := t.wgs, nextWg := t.nextWg }
  grid : ∀ g, s.grid? gn = some g → ∃ p n, t.grid? gn = some { g with placed := p, nextG := n }
  units : ∀ part, part ≠ 63 → ∀ u ∈ unitsOf t part, u ∈ unitsOf s part

theorem Places.refl (gn : Nat) (s : State) : Places gn s s := ⟨rfl, fun g h => ⟨g.placed, g.nextG, h⟩, fun _ _ _ h => h⟩
theorem Places.trans {gn : Nat} {s t u : State} (h : Places gn s t) (k : Places gn t u) : Places gn s u where
  only := by rw [k.only, h.only]
  grid g hg := by
    obtain ⟨p, n, ht⟩ := h.grid g hg
    obtain ⟨p', n', hu⟩ := k.grid _ ht
    exact ⟨p', n', hu⟩
  units part hp x hx := h.units part hp x (k.units part hp x hx)

theorem unitsOf_congr {s t : State} (h : t.cores = s.cores) (part : Nat) : unitsOf t part = unitsOf s part := by
  unfold unitsOf
  rw [h]

/-- The units of one core of a partition. -/
def coreUnits (part c : Nat) (k : Core) : List Place :=
  if k.split then (if k.ownA = part then [⟨c, 0, true⟩] else []) ++ (if k.ownB = part then [⟨c, 1, true⟩] else [])
  else if k.ownA = part then [⟨c, 0, false⟩] else []
theorem mem_unitsOf {s : State} {part : Nat} {u : Place} : u ∈ unitsOf s part ↔ ∃ e ∈ s.cores, u ∈ coreUnits part e.1 e.2 := List.mem_flatMap

/-- The core that an invalid reuse latch leaves is of the units that it was of. -/
theorem unitsOf_clearReuse (s : State) (core col : Nat) {part : Nat} (hp : part ≠ 63) :
    ∀ u ∈ unitsOf (clearReuse s core col) part, u ∈ unitsOf s part := by
  intro u hu
  obtain ⟨e, he, hue⟩ := mem_unitsOf.mp hu
  refine mem_unitsOf.mpr ?_
  rcases mem_of_mem_setD he with rfl | he
  · have hsame : u ∈ coreUnits part core (s.core core) := by
      unfold coreUnits at hue ⊢
      dsimp only at hue
      split at hue <;> exact hue
    cases hl : lookup s.cores core with
    | none =>
      rw [State.core, getD, hl] at hsame
      exact absurd hsame (by simp [coreUnits, Core.reset, Ne.symm hp])
    | some k =>
      rw [State.core, getD, hl] at hsame
      exact ⟨(core, k), mem_of_lookup hl, hsame⟩
  · exact ⟨e, he, hue⟩

/-- A run of placements of a grid, from its position `g0` on: the workgroups are numbered on, and each has its place. -/
structure PlaceRun (gn g0 : Nat) (ps : List Place) (s t : State) : Prop extends Places gn s t where
  next : t.nextWg = s.nextWg + ps.length
  old : ∀ k < s.nextWg, t.wg? k = s.wg? k
  new : ∀ i p, ps[i]? = some p → ∃ w, t.wg? (s.nextWg + i) = some w ∧ w.grid = gn ∧ w.started = false ∧ w.g = g0 + i ∧
    w.core = p.core ∧ w.col = p.col

theorem PlaceRun.nil (gn g0 : Nat) (s : State) : PlaceRun gn g0 [] s s := ⟨.refl gn s, rfl, fun _ _ => rfl, by simp⟩
theorem PlaceRun.append {gn g0 : Nat} {ps qs : List Place} {s t u : State} (h : PlaceRun gn g0 ps s t)
    (k : PlaceRun gn (g0 + ps.length) qs t u) : PlaceRun gn g0 (ps ++ qs) s u where
  toPlaces := h.toPlaces.trans k.toPlaces
  next := by rw [k.next, h.next, List.length_append]; omega
  old j hj := (k.old j (by rw [h.next]; omega)).trans (h.old j hj)
  new i p hi := by
    by_cases hlt : i < ps.length
    · obtain ⟨w, hw, rest⟩ := h.new i p (by rwa [List.getElem?_append_left hlt] at hi)
      exact ⟨w, (k.old _ (by rw [h.next]; omega)).trans hw, rest⟩
    · obtain ⟨w, hw, hgn, hst, hg, hplace⟩ := k.new (i - ps.length) p (by rwa [List.getElem?_append_right (by omega)] at hi)
      refine ⟨w, ?_, hgn, hst, by omega, hplace⟩
      rwa [h.next, show s.nextWg + ps.length + (i - ps.length) = s.nextWg + i by omega] at hw

/-- The grid's account of a placement. -/
theorem places_mapGrid (gn : Nat) (s : State) {f : Grid → Grid} (hf : ∀ g, ∃ p n, f g = { g with placed := p, nextG := n }) :
    Places gn s (s.mapGrid gn f) where
  only := by unfold State.mapGrid; split <;> rfl
  grid g hg := by
    obtain ⟨p, n, h⟩ := hf g
    exact ⟨p, n, by rw [State.grid?_mapGrid, hg, ← h]; rfl⟩
  units part _ u hu := by rwa [unitsOf_congr (State.mapGrid_cores ..)] at hu

theorem placeRun_mapGrid (gn g0 : Nat) (s : State) {f : Grid → Grid} (hf : ∀ g, ∃ p n, f g = { g with placed := p, nextG := n }) :
    PlaceRun gn g0 [] s (s.mapGrid gn f) :=
  ⟨places_mapGrid gn s hf, State.mapGrid_nextWg .., fun k _ => congrArg (lookup · k) (State.mapGrid_wgs ..), by simp⟩

/-- One workgroup placed. -/
theorem placeRun_putWorkgroup (s : State) (gn g : Nat) (p : Place) (n : Need) (h : List Nat × Nat × Nat) :
    PlaceRun gn g [p] s (putWorkgroup s gn g p n h) := by
  have hclear : Places gn s (clearReuse s p.core p.col) :=
    ⟨rfl, fun g hg => ⟨g.placed, g.nextG, hg⟩, fun part hp => unitsOf_clearReuse s p.core p.col hp⟩
  have hmap := places_mapGrid gn (clearReuse s p.core p.col)
    (f := fun x => { x with placed := put x.placed g s.nextWg }) (fun g => ⟨_, g.nextG, rfl⟩)
  have hwgs := State.mapGrid_wgs (clearReuse s p.core p.col) gn
    (fun x => { x with placed := put x.placed g s.nextWg })
  have hnext := State.mapGrid_nextWg (clearReuse s p.core p.col) gn
    (fun x => { x with placed := put x.placed g s.nextWg })
  have hplaces := hclear.trans hmap
  unfold putWorkgroup
  dsimp only
  generalize (clearReuse s p.core p.col).mapGrid gn
    (fun x => { x with placed := put x.placed g s.nextWg }) = t at *
  refine ⟨hplaces.trans ⟨rfl, fun g hg => ⟨g.placed, g.nextG, hg⟩, fun _ _ _ hu => hu⟩, ?_, fun k hk => ?_, fun i q hi => ?_⟩
  · exact congrArg (· + 1) hnext
  · have hne : k ≠ t.nextWg := by rw [hnext]; exact Nat.ne_of_lt hk
    exact (State.wg?_setWg_ne _ _ _ _ hne).trans (congrArg (lookup · k) hwgs)
  · obtain ⟨rfl, rfl⟩ : i = 0 ∧ p = q := by
      cases i with
      | zero => exact ⟨rfl, Option.some.inj hi⟩
      | succ i => simp at hi
    refine ⟨mkWorkgroup gn g p n h, ?_, rfl, rfl, rfl, rfl, rfl⟩
    rw [show s.nextWg + 0 = t.nextWg from hnext.symm]
    exact State.wg?_setWg ..

/-- The members of a cluster group, in the order of their ranks. -/
theorem placeRun_members (gn g0 : Nat) (n : Need) : ∀ (l : List (Place × (List Nat × Nat × Nat))) (r : Nat) (s : State),
    PlaceRun gn (g0 + r) (l.map (·.1)) s ((l.zipIdx r).foldl (fun s ((p, h), r) => putWorkgroup s gn (g0 + r) p n h) s)
  | [], _, s => .nil gn _ s
  | (p, h) :: l, r, s => (placeRun_putWorkgroup s gn (g0 + r) p n h).append (placeRun_members gn g0 n l (r + 1) _)

/-! ### Where they go -/

theorem bestUnit_mem {s : State} {us : List Place} {n : Need} {p : Place} {h : List Nat × Nat × Nat}
    (hb : bestUnit s us n = some (p, h)) : p ∈ us := by
  unfold bestUnit at hb
  have hmem := foldl_choice_mem (fun b x y hy => by
    split at hy
    · exact .inl (Option.some.inj hy).symm
    · split at hy
      · exact .inl (Option.some.inj hy).symm
      · exact .inr hy) hb
  have hmem := hmem.resolve_right (by simp)
  obtain ⟨q, hq, hqp⟩ := List.mem_filterMap.mp hmem
  obtain ⟨h', -, hpair⟩ := Option.map_eq_some_iff.mp hqp
  exact (Prod.mk.inj hpair).1 ▸ hq

/-- The members of a list that is mapped whole, one by one. -/
theorem mapM_some_getElem? {α β : Type} {f : α → Option β} : ∀ {l : List α} {r : List β}, l.mapM f = some r →
    r.length = l.length ∧ ∀ (i : Nat) (y : β), r[i]? = some y → ∃ x, l[i]? = some x ∧ f x = some y
  | [], r, h => by cases (show [] = r by simpa using h); simp
  | x :: l, r, h => by
    obtain ⟨y, ys, hx, hl, rfl⟩ : ∃ y ys, f x = some y ∧ l.mapM f = some ys ∧ y :: ys = r := by
      simpa [List.mapM_cons, Option.bind_eq_some_iff] using h
    obtain ⟨hlen, hget⟩ := mapM_some_getElem? hl
    refine ⟨congrArg (· + 1) hlen, fun i z hz => ?_⟩
    cases i with
    | zero => exact ⟨x, rfl, hx.trans hz⟩
    | succ i => exact hget i z hz

/-- Places that a die of a partition gives to workgroups or cluster groups of `clw`: its units, in cluster groups a unit of the core
of each rank (R36). -/
structure OnDie (s : State) (part clw die : Nat) (ps : List Place) : Prop where
  units : ∀ p ∈ ps, p ∈ unitsOf s part ∧ dieOf p.core = die
  ranks : clw ≠ 0 → clw ≤ 8 → ∀ i p, ps[i]? = some p → p.core % 8 = i % max clw 1

theorem OnDie.nil (s : State) (part clw die : Nat) : OnDie s part clw die [] := ⟨by simp, by simp⟩
theorem OnDie.append {s t : State} {part clw die : Nat} {ps qs : List Place} (h : OnDie s part clw die ps) (k : OnDie t part clw die qs)
    (hunits : ∀ u ∈ unitsOf t part, u ∈ unitsOf s part) (hlen : max clw 1 ∣ ps.length) : OnDie s part clw die (ps ++ qs) where
  units p hp := (List.mem_append.mp hp).elim (h.units p) (fun hq => (k.units p hq).imp_left (hunits p))
  ranks h0 h8 i p hi := by
    by_cases hlt : i < ps.length
    · exact h.ranks h0 h8 i p (by rwa [List.getElem?_append_left hlt] at hi)
    · obtain ⟨m, hm⟩ := hlen
      rw [k.ranks h0 h8 (i - ps.length) p (by rwa [List.getElem?_append_right (by omega)] at hi)]
      conv_rhs => rw [show i = i - ps.length + max clw 1 * m by omega, Nat.add_mul_mod_self_left]

theorem groupPlaces_onDie {s : State} {part die cl clw : Nat} {n : Need} {l : List (Place × (List Nat × Nat × Nat))}
    (h : groupPlaces s ((unitsOf s part).filter (fun p => dieOf p.core == die)) cl clw n = some l) :
    l.length = clw ∧ OnDie s part clw die (l.map (·.1)) := by
  obtain ⟨hlen, hget⟩ := mapM_some_getElem? h
  have hplace : ∀ i p, (l.map (·.1))[i]? = some p → i < clw ∧ p.core = cl * 8 + i ∧ p ∈ unitsOf s part ∧ dieOf p.core = die := by
    intro i p hi
    rw [List.getElem?_map] at hi
    obtain ⟨⟨q, a⟩, hq, rfl⟩ := Option.map_eq_some_iff.mp hi
    obtain ⟨r, hr, hb⟩ := hget i _ hq
    obtain ⟨hlt, rfl⟩ : i < clw ∧ i = r := by simpa [List.getElem?_eq_some_iff] using hr
    simpa [and_comm, and_assoc, hlt] using bestUnit_mem hb
  refine ⟨by simpa using hlen, fun p hp => ?_, fun _ h8 i p hi => ?_⟩
  · obtain ⟨i, hi⟩ := List.mem_iff_getElem?.mp hp
    exact (hplace i p hi).2.2
  · obtain ⟨hlt, hcore, -⟩ := hplace i p hi
    rw [hcore, Nat.mod_eq_of_lt (show i < max clw 1 by omega)]
    omega

/-- A run of placements of `m` workgroups or cluster groups of a grid on a die, of which the grid's next position takes account. -/
structure Batched (gn : Nat) (g : Grid) (die m : Nat) (s t : State) (ps : List Place) : Prop where
  run : PlaceRun gn g.nextG ps s t
  grid : ∃ pl, t.grid? gn = some { g with placed := pl, nextG := g.nextG + ps.length }
  len : ps.length = max g.lrec.clw 1 * m
  die : OnDie s g.part g.lrec.clw die ps

/-- Workgroups placed, then the grid's next position moved over them. -/
theorem batched_one {gn : Nat} {g : Grid} {die : Nat} {s t : State} {ps : List Place} (hg : s.grid? gn = some g)
    (h : PlaceRun gn g.nextG ps s t) (hlen : ps.length = max g.lrec.clw 1) (hdie : OnDie s g.part g.lrec.clw die ps) :
    Batched gn g die 1 s (t.mapGrid gn (fun x => { x with nextG := g.nextG + ps.length })) ps where
  run := by simpa using h.append (placeRun_mapGrid gn (g.nextG + ps.length) t (fun x => ⟨x.placed, _, rfl⟩))
  grid := by
    obtain ⟨p, n, ht⟩ := h.grid g hg
    exact ⟨p, by rw [State.grid?_mapGrid, ht]; rfl⟩
  len := by omega
  die := hdie

/-- What a die takes next of a grid: one workgroup, or one cluster group (R274). -/
theorem placeOn_batched {s t : State} {gn die : Nat} {g : Grid} (hg : s.grid? gn = some g) (h : placeOn s gn die = some t) :
    ∃ ps, Batched gn g die 1 s t ps := by
  unfold placeOn at h
  rw [hg] at h
  dsimp only at h
  split at h
  next h0 =>
    split at h
    next p a hb =>
      obtain ⟨hunit, hd⟩ := List.mem_filter.mp (bestUnit_mem hb)
      cases h
      exact ⟨[p], batched_one hg (placeRun_putWorkgroup s gn g.nextG p _ a) (by simp [h0])
        ⟨by simpa using ⟨hunit, by simpa using hd⟩, fun hne => absurd h0 hne⟩⟩
    next => cases h
  next h0 =>
    split at h
    next l hl =>
      obtain ⟨cl, -, hgroup⟩ := List.exists_of_findSome?_eq_some hl
      obtain ⟨hlen, hdie⟩ := groupPlaces_onDie hgroup
      cases h
      have hrun := batched_one hg (placeRun_members gn g.nextG (needOf g.kernel g.lrec) l 0 s) (by simp [hlen]; omega) hdie
      rw [List.length_map, hlen] at hrun
      exact ⟨_, hrun⟩
    next => cases h

/-- Several, one after another. -/
theorem placeMany_batched (gn die : Nat) : ∀ (k : Nat) {s : State} {g : Grid}, s.grid? gn = some g → g.part ≠ 63 →
    ∃ ps, Batched gn g die (placeMany gn die k s).1 s (placeMany gn die k s).2 ps
  | 0, s, g, hg, _ => ⟨[], .nil gn _ s, ⟨g.placed, hg⟩, rfl, .nil ..⟩
  | k + 1, s, g, hg, hp => by
    unfold placeMany
    cases hone : placeOn s gn die with
    | none => exact ⟨[], .nil gn _ s, ⟨g.placed, hg⟩, rfl, .nil ..⟩
    | some t =>
      obtain ⟨ps, hrun, ⟨pl, ht⟩, hlen, hdie⟩ := placeOn_batched hg hone
      obtain ⟨qs, hrun', ⟨pl', hu⟩, hlen', hdie'⟩ := placeMany_batched gn die k ht hp
      refine ⟨ps ++ qs, hrun.append hrun', ⟨pl', ?_⟩, ?_, hdie.append hdie' (hrun.units g.part hp) ⟨1, hlen⟩⟩
      · rw [List.length_append, ← Nat.add_assoc]
        exact hu
      · change _ = max g.lrec.clw 1 * ((placeMany gn die k t).1 + 1)
        rw [List.length_append, hlen, hlen', Nat.mul_add, Nat.add_comm]

theorem placeMany_count (gn die : Nat) : ∀ {k m : Nat} (s : State), k ≤ m → (placeMany gn die k s).1 = min k (placeMany gn die m s).1
  | 0, m, s, _ => by simp [placeMany]
  | k + 1, m + 1, s, h => by
    unfold placeMany
    cases placeOn s gn die with
    | none => simp
    | some t =>
      have := placeMany_count gn die t (Nat.le_of_succ_le_succ h)
      dsimp only
      omega

/-- A batch of a grid (R273). -/
theorem placeBatch_batched {s t : State} {gn : Nat} {g : Grid} (hg : s.grid? gn = some g) (hp : g.part ≠ 63)
    (h : placeBatch s gn = some t) :
    ∃ m ps, m ≠ 0 ∧ m = min (freeSlots s gn (bestDie s gn)) (min 64 g.remaining) ∧ Batched gn g (bestDie s gn) m s t ps := by
  unfold placeBatch at h
  rw [hg] at h
  dsimp only at h
  split at h
  next => cases h
  next hne =>
    cases h
    obtain ⟨ps, hb⟩ := placeMany_batched gn (bestDie s gn) (min 64 g.remaining) hg hp
    exact ⟨_, ps, hne, by rw [placeMany_count gn _ s (Nat.min_le_left 64 _), Nat.min_comm]; rfl, hb⟩

/-- The grid that a partition serves is one of its own (R271). -/
theorem servedGrid_part {s : State} {part gn : Nat} (h : servedGrid s part = some gn) : ∃ g, s.grid? gn = some g ∧ g.part = part := by
  obtain ⟨⟨k, pr⟩, hfind, rfl⟩ := Option.map_eq_some_iff.mp h
  obtain ⟨j, -, hj⟩ := List.mem_filterMap.mp (List.mem_of_find?_eq_some hfind)
  obtain ⟨g, hg, hj⟩ := Option.bind_eq_some_iff.mp hj
  split at hj
  next hpart => cases hj; exact ⟨g, hg, by simpa using hpart⟩
  next => cases hj

/-- The partitions before one in the rotation (R271). -/
theorem rotation_before {s : State} {part p : Nat}
    (hp : p ∈ (List.range ((part + Config.numPartitions - s.turn % Config.numPartitions) % Config.numPartitions)).map
      (fun k => (s.turn + k) % Config.numPartitions)) :
    p < 40 ∧ (p + 40 - s.turn % 40) % 40 < (part + 40 - s.turn % 40) % 40 := by
  obtain ⟨k, hk, rfl⟩ := List.mem_map.mp hp
  have hk := List.mem_range.mp hk
  simp only [Config.numPartitions] at hk ⊢
  omega

/-- A batch of a partition whose turn it is (R271, R273). -/
theorem dispatchBatch_eq {s s' : State} {part gn : Nat} {g : Grid} (hb : batchOf s part = some s')
    (hturn : ∀ p < 40, (p + 40 - s.turn % 40) % 40 < (part + 40 - s.turn % 40) % 40 → batchOf s p = none)
    (hserved : servedGrid s part = some gn) (hg : s'.grid? gn = some g) :
    dispatchBatch part s = { s' with turn := (part + 1) % 40, lqueue := if g.lrec.total ≤ g.nextG then s'.lqueue.filter (· != gn) else s'.lqueue } := by
  have hnone : ((List.range ((part + Config.numPartitions - s.turn % Config.numPartitions) % Config.numPartitions)).map
      (fun k => (s.turn + k) % Config.numPartitions)).any (fun p => (batchOf s p).isSome) = false := by
    refine List.any_eq_false.mpr fun p hp => ?_
    obtain ⟨hlt, hbefore⟩ := rotation_before hp
    simp [hturn p hlt hbefore]
  unfold dispatchBatch
  dsimp only
  rw [hnone, hserved, hb]
  dsimp only
  rw [hg]
  simp [Config.numPartitions]

/-! ## The start of a workgroup (R45) -/

theorem Sheet.getS_setS (sh : Sheet) (r k : Nat) (x : W64) : (sh.setS r x).getS k = if k = r then x else sh.getS k := getD_setD ..

/-- The threads of a mask given by a property. -/
theorem Mask.has_ofFn (f : Nat → Bool) {t : Nat} (ht : t < 128) : (Mask.ofFn f).has t = f t := by
  have hfold : ∀ (l : List Nat) (m : Mask), (∀ k ∈ l, k < 128) →
      Mask.has (l.foldl (fun m t => if f t then m ||| BitVec.ofNat 128 (2 ^ t) else m) m) t = (m.has t || (decide (t ∈ l) && f t)) := by
    intro l
    induction l with
    | nil => simp
    | cons k l ih =>
      intro m hl
      rw [List.foldl_cons, ih _ (fun j hj => hl j (List.mem_cons_of_mem _ hj))]
      have hbit : (BitVec.ofNat 128 (2 ^ k)).getLsbD t = decide (k = t) := by
        rw [BitVec.getLsbD_ofNat, Nat.testBit_two_pow]
        simp [ht]
      generalize BitVec.ofNat 128 (2 ^ k) = b at hbit ⊢
      by_cases hkt : k = t
      · subst hkt
        cases hf : f k <;> simp [Mask.has, BitVec.getLsbD_or, hbit]
      · split <;> simp [Mask.has, BitVec.getLsbD_or, hbit, hkt, Ne.symm hkt]
  unfold Mask.ofFn
  rw [hfold _ _ (fun k hk => List.mem_range.mp hk)]
  simp [Mask.has, ht]

/-- Registers from s4 on, written in order, leave the lower ones. -/
theorem foldl_setS_high : ∀ (l : List (W64 × Nat)) (x : Sheet), ∃ S,
    l.foldl (fun (x : Sheet) (v, k) => x.setS (4 + k) v) x = { x with s := S } ∧ ∀ r < 4, getD S 0 r = x.getS r
  | [], x => ⟨x.s, rfl, fun _ _ => rfl⟩
  | (v, k) :: l, x => by
    obtain ⟨S, hS, hlow⟩ := foldl_setS_high l (x.setS (4 + k) v)
    refine ⟨S, hS, fun r hr => ?_⟩
    rw [hlow r hr, Sheet.getS_setS, if_neg (by omega)]

/-- Registers s2 and s3 at the start of a batch's workgroup. -/
def batchRegs (g : Grid) (sh : Sheet) : Sheet := match g.batch with
  | some b => (sh.setS 2 (w64 b.first)).setS 3 (w64 b.count)
  | none => sh
/-- The address and registers of a graph position at its restore (R292). -/
def restartRegs (g : Grid) (sh : Sheet) : Sheet := match g.restart with
  | some (pc, l) => { (l.zipIdx).foldl (fun (x : Sheet) (v, k) => x.setS (4 + k) v) sh with pc := pc }
  | none => sh

theorem batchRegs_eq (g : Grid) (sh : Sheet) : ∃ S, batchRegs g sh = { sh with s := S } ∧ (∀ r < 2, getD S 0 r = sh.getS r) ∧
    ∀ b, g.batch = some b → getD S 0 2 = w64 b.first ∧ getD S 0 3 = w64 b.count := by
  unfold batchRegs
  cases g.batch with
  | none => exact ⟨sh.s, rfl, fun _ _ => rfl, by simp⟩
  | some b =>
    refine ⟨_, rfl, fun r hr => ?_, fun b' hb' => ?_⟩
    · exact (Sheet.getS_setS ..).trans (by rw [if_neg (by omega), Sheet.getS_setS, if_neg (by omega)])
    · cases hb'
      exact ⟨(Sheet.getS_setS ..).trans (by rw [if_neg (by omega), Sheet.getS_setS, if_pos rfl]), (Sheet.getS_setS ..).trans (if_pos rfl)⟩

theorem restartRegs_eq (g : Grid) (sh : Sheet) : ∃ S pc, restartRegs g sh = { sh with s := S, pc := pc } ∧
    (∀ r < 4, getD S 0 r = sh.getS r) ∧ (g.restart = none → pc = sh.pc) := by
  unfold restartRegs
  cases g.restart with
  | none => exact ⟨sh.s, sh.pc, rfl, fun _ _ => rfl, fun _ => rfl⟩
  | some e =>
    obtain ⟨S, hS, hlow⟩ := foldl_setS_high e.2.zipIdx sh
    exact ⟨S, e.1, by dsimp only; rw [hS], hlow, by simp⟩

theorem startSheet_eq (wg : Nat) (g : Grid) (num cyc : Nat) :
    startSheet wg g num cyc = { restartRegs g (batchRegs g (((Sheet.fresh wg num g.kernel.width (w64 (g.kernel.base + g.kernel.entry))
        (Mask.ofFn (fun t => decide (t < g.kernel.width ∧ num * g.kernel.width + t < g.lrec.threads)))).setS 0 g.lrec.args).setS 1 g.record)) with
      xp := ((List.range 4).filter (fun n => bitAt g.kernel.patv n && xpNf (g.kernel.pats.getD n 0) != 0)).map (fun n => (n, g.kernel.pats.getD n 0))
      readySince := cyc, nextIssue := cyc } := rfl

theorem Sheet.fresh_active (wg num width : Nat) (pc : W64) (m : Mask) : (Sheet.fresh wg num width pc m).active = m := by
  change m &&& ~~~~~~m = m
  rw [BitVec.not_not, BitVec.and_self]

theorem startSheet_starts (wg : Nat) (g : Grid) (num cyc : Nat) : Starts wg g num (startSheet wg g num cyc) := by
  rw [startSheet_eq]
  generalize hx : ((Sheet.fresh wg num g.kernel.width (w64 (g.kernel.base + g.kernel.entry))
    (Mask.ofFn (fun t => decide (t < g.kernel.width ∧ num * g.kernel.width + t < g.lrec.threads)))).setS 0 g.lrec.args).setS 1 g.record = x
  have h0 : x.getS 0 = g.lrec.args := by rw [← hx, Sheet.getS_setS, if_neg (by omega), Sheet.getS_setS, if_pos rfl]
  have h1 : x.getS 1 = g.record := by rw [← hx, Sheet.getS_setS, if_pos rfl]
  obtain ⟨S, hS, hlow, hbatch⟩ := batchRegs_eq g x
  obtain ⟨S', pc, hS', hkeep, hpc⟩ := restartRegs_eq g (batchRegs g x)
  rw [hS', hS]
  rw [hS] at hkeep hpc
  subst hx
  refine ⟨rfl, rfl, rfl, (hkeep 0 (by omega)).trans ((hlow 0 (by omega)).trans h0), (hkeep 1 (by omega)).trans ((hlow 1 (by omega)).trans h1),
    rfl, rfl, rfl, rfl, hpc, fun th hth => ?_, fun b hb => ?_⟩
  · exact (congrArg (Mask.has · th) (Sheet.fresh_active wg num g.kernel.width (w64 (g.kernel.base + g.kernel.entry)) _)).trans (Mask.has_ofFn _ hth)
  · obtain ⟨h2, h3⟩ := hbatch b hb
    exact ⟨(hkeep 2 (by omega)).trans h2, (hkeep 3 (by omega)).trans h3⟩

/-- Sheets put one after another into contexts of a core. -/
theorem foldl_setSheet (base : Nat) (f : Nat → Sheet) : ∀ (l : List Nat) (n : Nat) (s : State), l.Nodup →
    let t := (l.zipIdx n).foldl (fun s (c, num) => s.setSheet (base + c) (f num)) s
    t = { s with sheets := t.sheets } ∧ (∀ i c, l[i]? = some c → t.sheet? (base + c) = some (f (n + i))) ∧
      ∀ sid, (∀ c ∈ l, sid ≠ base + c) → t.sheet? sid = s.sheet? sid
  | [], n, s, _ => ⟨rfl, by simp, fun _ _ => rfl⟩
  | c :: l, n, s, h => by
    obtain ⟨hc, hl⟩ := List.nodup_cons.mp h
    obtain ⟨honly, hin, hout⟩ := foldl_setSheet base f l (n + 1) (s.setSheet (base + c) (f n)) hl
    refine ⟨honly, fun i d hi => ?_, fun sid hsid => ?_⟩
    · cases i with
      | zero =>
        cases hi
        exact (hout _ (fun d hd he => hc (by rwa [show c = d by omega]))).trans (State.sheet?_setSheet ..)
      | succ i => exact (hin i d hi).trans (by rw [Nat.add_right_comm]; rfl)
    · exact (hout sid (fun d hd => hsid d (List.mem_cons_of_mem _ hd))).trans
        (State.sheet?_setSheet_ne _ _ _ _ (hsid c List.mem_cons_self))

/-- A workgroup marked started, on a unit that now serves its partition and whose L1 words are gone. -/
def startedOn (s : State) (wg : Nat) (w : Workgroup) (part : Nat) : State :=
  selfInvalidate ((s.setWg wg { w with started := true }).mapCore w.core (fun k => { k with served := put k.served w.col (part + 1) }))
    w.core w.col

theorem workgroupStart_eq {s : State} {wg : Nat} {w : Workgroup} {g : Grid} (hw : s.wg? wg = some w) (hg : s.grid? w.grid = some g)
    (hst : w.started = false) (hserv : servable s g.part = true) (hscrub : scrubbing s w.core w.col = false)
    (hdue : scrubDue s w.core w.col g.part = false) :
    workgroupStart wg s = (w.ctxs.zipIdx).foldl (fun t (c, num) => t.setSheet (w.core * 16 + c) (startSheet wg g num (s.cycle w.core)))
      (startedOn s wg w g.part) := by
  unfold workgroupStart
  rw [hw]
  dsimp only
  rw [hg]
  dsimp only
  rw [if_neg (by simp [hst, hserv, hscrub, hdue])]
  rfl

/-- What a partition's batch is (R271, R273). -/
theorem batchOf_batched {s t : State} {part : Nat} (hp : part ≠ 63) (h : batchOf s part = some t) : ∃ gn g m ps,
    servedGrid s part = some gn ∧ s.grid? gn = some g ∧ g.part = part ∧ m ≠ 0 ∧
      m = min (freeSlots s gn (bestDie s gn)) (min 64 g.remaining) ∧ Batched gn g (bestDie s gn) m s t ps := by
  unfold batchOf at h
  split at h
  next =>
    obtain ⟨gn, hserved, hplace⟩ := Option.bind_eq_some_iff.mp h
    obtain ⟨g, hg, rfl⟩ := servedGrid_part hserved
    obtain ⟨m, ps, hm, hcount, hrun⟩ := placeBatch_batched hg hp hplace
    exact ⟨gn, g, m, ps, hserved, hg, rfl, hm, hcount, hrun⟩
  next => cases h

/-- The workgroup of a batch at a number. -/
theorem Batched.at {gn : Nat} {g : Grid} {die m : Nat} {s t : State} {ps : List Place} (h : Batched gn g die m s t ps) {k : Nat}
    (hle : s.nextWg ≤ k) (hlt : k < t.nextWg) : ∃ w, t.wg? k = some w ∧ w.grid = gn ∧ w.started = false ∧
      w.g = g.nextG + (k - s.nextWg) ∧ dieOf w.core = die ∧ (∃ u ∈ unitsOf s g.part, u.core = w.core ∧ u.col = w.col) ∧
      (g.lrec.clw ≠ 0 → g.lrec.clw ≤ 8 → w.core % 8 = (k - s.nextWg) % max g.lrec.clw 1) := by
  have hk : k - s.nextWg < ps.length := by
    rw [h.run.next] at hlt
    omega
  obtain ⟨w, hw, hgn, hstarted, hpos, hcore, hcol⟩ := h.run.new _ _ (List.getElem?_eq_getElem hk)
  rw [Nat.add_sub_cancel' hle] at hw
  obtain ⟨hunit, hd⟩ := h.die.units _ (List.getElem_mem hk)
  exact ⟨w, hw, hgn, hstarted, hpos, hcore ▸ hd, ⟨_, hunit, hcore.symm, hcol.symm⟩,
    fun h0 h8 => hcore ▸ h.die.ranks h0 h8 _ _ (List.getElem?_eq_getElem hk)⟩

/-- Settles O49: a batch is a run of placements on one die, and a workgroup starts with a fresh sheet in each of its contexts. -/
theorem workgroupsStart : Obligations.WorkgroupsStart := by
  intro s
  refine ⟨fun part s' hpart hb hturn => ?_, fun wg w g hw hg hst hserv hscrub hdue hnd => ?_⟩
  · obtain ⟨gn, g, m, ps, hserved, hg, rfl, hm, hcount, hrun⟩ := batchOf_batched (by omega) hb
    obtain ⟨pl, ht⟩ := hrun.grid
    have hnext : s'.nextWg = s.nextWg + max g.lrec.clw 1 * m := by rw [hrun.run.next, hrun.len]
    have hsome : 0 < max g.lrec.clw 1 * m := Nat.mul_pos (by omega) (Nat.pos_of_ne_zero hm)
    have hdo := (runEvent_ok (i := .dispatchBatch g.part) (decide_eq_true hpart) _ s).trans
      (congrArg _ (dispatchBatch_eq hb hturn hserved ht))
    refine does_next hdo ⟨fun a => ?_, ?_, rfl, ?_, fun k x hk hlt => (hrun.run.old k hlt).trans hk, fun gn' g' hserved' hg' => ?_⟩
    · rw [hrun.run.only]; rfl
    · rw [hrun.run.only]
    · change s.nextWg < s'.nextWg
      omega
    · cases hserved.symm.trans hserved'
      cases hg.symm.trans hg'
      exact ⟨hnext.trans (by rw [hcount]; rfl), fun k => hrun.at⟩
  · have hdo := (runEvent_ok (i := .workgroupStart wg) rfl _ s).trans (congrArg _ (workgroupStart_eq hw hg hst hserv hscrub hdue))
    obtain ⟨honly, hin, hout⟩ := foldl_setSheet (w.core * 16) (fun num => startSheet wg g num (s.cycle w.core)) w.ctxs 0
      (startedOn s wg w g.part) hnd
    refine does_next hdo ⟨fun a => ?_, ?_, ?_, fun num c hc => ⟨_, hin num c hc, by simpa using startSheet_starts wg g num _⟩, hout⟩
    · rw [honly]; rfl
    · rw [honly]; exact State.wg?_setWg ..
    · rw [honly]
      change getD ((startedOn s wg w g.part).core w.core).served 0 w.col = g.part + 1
      rw [startedOn, selfInvalidate, State.core_mapCore, State.core_mapCore]
      simp [getD]

end Sys2Proof.Machine
end

section
/-! Writes of the device's own units (R42, R51, R349): STATUS of a record, a queue's header, a translation. They go out from no core, so
that no store on its way is performed before them; `DeviceWrote` says what they may change. -/

namespace Sys2Proof.Machine

/-! ## What a write of the device changes -/

/-- A sheet whose wait of a SYS operation is as given. -/
def Sheet.waits (sh : Sheet) (w : SysWait) : Sheet := { sh with sys := w }

/-- The use of an L2, memory, counters, and what sheets in LWAIT find. -/
structure DeviceWrote (s t : State) : Prop where
  only : t = { s with sheets := t.sheets, cores := t.cores, mem := t.mem, reg := t.reg, l2 := t.l2, channels := t.channels,
                      freeCtr := t.freeCtr, parts := t.parts, agenda := t.agenda }
  sheets : ∃ f : Sheet → SysWait, t.sheets = s.sheets.map (fun e => (e.1, e.2.waits (f e.2)))
  tracked : Untracked s → Untracked t

/-- Sheets that are as they were. -/
theorem sheets_sys_same (m : SMap Sheet) : ∃ f : Sheet → SysWait, m = m.map (fun e => (e.1, e.2.waits (f e.2))) :=
  ⟨fun sh => sh.sys, (List.map_id' m).symm⟩

theorem DeviceWrote.refl (s : State) : DeviceWrote s s := ⟨rfl, sheets_sys_same s.sheets, id⟩
theorem DeviceWrote.trans {s t u : State} (h : DeviceWrote s t) (k : DeviceWrote t u) : DeviceWrote s u where
  only := by rw [k.only, h.only]
  sheets := by
    obtain ⟨f, hf⟩ := h.sheets
    obtain ⟨g, hg⟩ := k.sheets
    exact ⟨fun sh => g (sh.waits (f sh)), by rw [hg, hf, List.map_map]; rfl⟩
  tracked hu := k.tracked (h.tracked hu)

/-- A sheet has but its wait changed. -/
theorem DeviceWrote.sheet? {s t : State} (h : DeviceWrote s t) {sid : Nat} {sh : Sheet} (hsh : s.sheet? sid = some sh) :
    ∃ y, t.sheet? sid = some (sh.waits y) := by
  obtain ⟨f, hf⟩ := h.sheets
  refine ⟨f sh, ?_⟩
  unfold State.sheet? at hsh ⊢
  rw [hf]
  exact (lookup_map_val s.sheets _ (fun sh => sh.waits (f sh)) (fun _ _ => rfl) sid).trans (by rw [hsh]; rfl)
theorem DeviceWrote.sheets_length {s t : State} (h : DeviceWrote s t) : t.sheets.length = s.sheets.length := by
  obtain ⟨f, hf⟩ := h.sheets
  rw [hf, List.length_map]

theorem L2Only.deviceWrote {s t : State} (h : L2Only s t) : DeviceWrote s t := by
  unfold L2Only at h
  rw [h]
  exact ⟨rfl, sheets_sys_same s.sheets, id⟩
theorem deviceWrote_event (x : Asker) (s : State) (ev n : Nat) : DeviceWrote s (x.event s ev n) := by
  have hu := fun h => untracked_event (s := s) h x ev n
  obtain ⟨p, a, h⟩ := asker_event_only x s ev n
  rw [h] at hu ⊢
  exact ⟨rfl, sheets_sys_same s.sheets, hu⟩
theorem deviceWrote_mapPart (s : State) (p : Nat) {f : Part → Part} (hf : (f (s.part p)).dirty = (s.part p).dirty) :
    DeviceWrote s (s.mapPart p f) := ⟨rfl, sheets_sys_same s.sheets, fun h => untracked_mapPart h hf⟩

/-! ## Writes at a home -/

theorem writeBytes_only (bs : List Byte) : ∀ (s : State) (pa : Nat), MemOnly s (s.writeBytes pa bs) := by
  induction bs with
  | nil => exact fun s _ => .refl s
  | cons b bs ih =>
    intro s pa
    unfold MemOnly
    rw [State.writeBytes, ih (s.writeByte pa b) (pa + 1)]
    rfl

theorem Sheet.waits_woken (s : State) (pa n : Nat) (sh : Sheet) : sh.waits (sh.woken s pa n).sys = sh.woken s pa n := by
  unfold Sheet.woken
  split
  · split <;> rfl
  · rfl

theorem wakeLwait_eq (s : State) (pa n : Nat) :
    wakeLwait s pa n = { s with sheets := s.sheets.map (fun e => (e.1, e.2.waits (e.2.woken s pa n).sys)) } := by
  unfold wakeLwait
  congr 1
  refine List.map_congr_left fun ⟨a, sh⟩ _ => ?_
  dsimp only
  rw [Sheet.waits_woken, Sheet.woken]
  cases sh.sys with
  | lwait _ q id => exact (apply_ite (Prod.mk a) ..).symm
  | _ => rfl

/-- What a write at a home changes: memory, and the sheets that it wakes. -/
theorem homeWrite_eq (s : State) (pa : Nat) (bs : List Byte) : ∃ (m : List Host.Cell) (f : Sheet → SysWait), homeWrite s pa bs =
    { s with mem := m, sheets := s.sheets.map (fun e => (e.1, e.2.waits (f e.2))) } := by
  have hw : MemOnly s ((markDirty s pa bs.length).writeBytes pa bs) := by
    unfold MemOnly
    rw [writeBytes_only bs _ pa, markDirty_only s pa bs.length]
  exact ⟨_, fun sh => (sh.woken { s with mem := ((markDirty s pa bs.length).writeBytes pa bs).mem } pa bs.length).sys,
    (congrArg (wakeLwait · pa bs.length) hw).trans (wakeLwait_eq _ pa bs.length)⟩

theorem deviceWrote_homeWrite (s : State) (pa : Nat) (bs : List Byte) : DeviceWrote s (homeWrite s pa bs) := by
  obtain ⟨m, f, h⟩ := homeWrite_eq s pa bs
  rw [h]
  exact ⟨rfl, ⟨f, rfl⟩, id⟩

/-- A write of the device: the use of an L2, the write, what it counts. -/
theorem engineWrite_device (s : State) (cls pa : Nat) (bs : List Byte) : ∃ t, L2Only s t ∧
    engineWrite s (Asker.device cls) pa bs = (Asker.device cls).event (homeWrite t pa bs) 7 (sectorsOf pa bs.length).length := by
  refine ⟨recallWords (l2Touch s (Asker.device cls) true pa bs.length) 0 (wordsOf pa bs.length),
    (l2Touch_only s _ _ _ _).trans (recallWords_only _ _ _), ?_⟩
  rw [engineWrite, engineStore, reachHome, if_neg (by simp [Asker.device])]

theorem deviceWrote_engineWrite (s : State) (cls pa : Nat) (bs : List Byte) : DeviceWrote s (engineWrite s (Asker.device cls) pa bs) := by
  obtain ⟨t, ht, h⟩ := engineWrite_device s cls pa bs
  rw [h]
  exact (ht.deviceWrote.trans (deviceWrote_homeWrite t pa bs)).trans (deviceWrote_event _ _ _ _)

theorem deviceWrote_storePieces (cls : Nat) : ∀ (l : List (Nat × Nat)) (bs : List Byte) (s : State),
    DeviceWrote s (storePieces s (Asker.device cls) l bs)
  | [], _, s => .refl s
  | (a, n) :: l, bs, s => (deviceWrote_engineWrite s cls a (bs.take n)).trans (deviceWrote_storePieces cls l (bs.drop n) _)

/-! ## What memory holds after it -/

/-- A run of bytes stays written while memory stays. -/
theorem WroteRun.of_mem {s t u : State} {pa : Nat} {bs : List Byte} (h : WroteRun s t pa bs) (e : u.mem = t.mem) : WroteRun s u pa bs := by
  have hread : ∀ a, u.readByte a = t.readByte a := fun a => by unfold State.readByte; rw [e]
  exact ⟨fun k hk => (hread _).trans (h.1 k hk), fun hu a ha => (hread a).trans (h.2 hu a ha)⟩
/-- The same over a state of the same memory, whose tracking is the same. -/
theorem WroteRun.from_mem {s s' t : State} {pa : Nat} {bs : List Byte} (h : WroteRun s' t pa bs) (e : s'.mem = s.mem)
    (hu : Untracked s → Untracked s') : WroteRun s t pa bs :=
  ⟨h.1, fun k a ha => (h.2 (hu k) a ha).trans (by unfold State.readByte; rw [e])⟩

theorem wroteRun_engineWrite_device (s : State) (cls pa : Nat) (bs : List Byte) :
    WroteRun s (engineWrite s (Asker.device cls) pa bs) pa bs := by
  obtain ⟨t, ht, h⟩ := engineWrite_device s cls pa bs
  have hmem : t.mem = s.mem := by rw [ht]
  have hevent : ((Asker.device cls).event (homeWrite t pa bs) 7 (sectorsOf pa bs.length).length).mem = (homeWrite t pa bs).mem := by
    obtain ⟨p, a, he⟩ := asker_event_only (Asker.device cls) (homeWrite t pa bs) 7 (sectorsOf pa bs.length).length
    rw [he]
  rw [h]
  exact ((wroteRun_homeWrite t pa bs).of_mem hevent).from_mem hmem ht.deviceWrote.tracked

end Sys2Proof.Machine
end

section
/-! The grids of the machine and those of its workgroups, which the end of a sheet leaves alone (R48, R353): the stores that it had committed
are performed, its commands and requests end, and no workgroup of another grid comes up. -/

namespace Sys2Proof.Machine

/-- The grids are `G`, and the grid of each workgroup satisfies `P`. -/
structure State.Over (G : SMap Grid) (P : Nat → Prop) (s : State) : Prop where
  grids : s.grids = G
  wgs : ∀ e ∈ s.wgs, P e.2.grid

section
variable {G : SMap Grid} {P : Nat → Prop} {s : State} {sid : Nat}

theorem State.Over.of_same {t : State} (h : s.Over G P) (hg : t.grids = s.grids) (hw : t.wgs = s.wgs) : t.Over G P :=
  ⟨hg.trans h.grids, hw ▸ h.wgs⟩
theorem over_ite {c : Prop} [Decidable c] {a b : State} (ha : a.Over G P) (hb : b.Over G P) : (if c then a else b).Over G P := by
  split
  · exact ha
  · exact hb
theorem foldl_over {α : Type} {f : State → α → State} (hf : ∀ s a, s.Over G P → (f s a).Over G P) :
    ∀ (l : List α) {s : State}, s.Over G P → (l.foldl f s).Over G P
  | [], _, h => h
  | a :: l, s, h => foldl_over hf l (hf s a h)

theorem mapSheet_over {f : Sheet → Sheet} (h : s.Over G P) : (s.mapSheet sid f).Over G P :=
  h.of_same (State.mapSheet_grids ..) (State.mapSheet_wgs ..)
/-- A workgroup is changed, and is of the grid that it was of. -/
theorem mapWg_over {w : Nat} {f : Workgroup → Workgroup} (hf : ∀ x, (f x).grid = x.grid) (h : s.Over G P) : (s.mapWg w f).Over G P := by
  unfold State.mapWg
  split
  next x hx =>
    refine ⟨h.grids, fun e he => ?_⟩
    rcases mem_insertAt he with rfl | he
    · exact (hf x).symm ▸ h.wgs _ (mem_of_lookup hx)
    · exact h.wgs e (List.mem_filter.mp he).1
  next => exact h
theorem askerEvent_over {x : Asker} {ev n : Nat} (h : s.Over G P) : (x.event s ev n).Over G P := by
  obtain ⟨p, a, e⟩ := asker_event_only x s ev n
  rw [e]
  exact ⟨h.grids, h.wgs⟩
theorem L2Only.over {t : State} (hl : L2Only s t) (h : s.Over G P) : t.Over G P := h.of_same (by rw [hl]) (by rw [hl])

/-! ### Stores at their homes and in an L1 -/

theorem homeWrite_over {pa : Nat} {bs : List Byte} (h : s.Over G P) : (homeWrite s pa bs).Over G P := by
  obtain ⟨m, f, e⟩ := homeWrite_eq s pa bs
  rw [e]
  exact ⟨h.grids, h.wgs⟩
theorem l2Use_over {x : Asker} {w : Bool} {pa n : Nat} (h : s.Over G P) : (l2Use s x w pa n).Over G P :=
  askerEvent_over ((l2Touch_only s x w pa n).over h)
theorem homePerform_over {x : HomeStore} (h : s.Over G P) : (homePerform s x).Over G P := by
  unfold homePerform
  refine over_ite h (homeWrite_over ?_)
  have hr : (recallWords (l2Use s ⟨x.part, x.core, x.sid, x.slot⟩ true x.pa x.bytes.length) (x.core + 1) (wordsOf x.pa x.bytes.length)).Over G P :=
    (recallWords_only _ _ _).over (l2Use_over h)
  exact hr.of_same rfl rfl
theorem drainHomes_over {p : HomeStore → Bool} (h : s.Over G P) : (drainHomes s p).Over G P := by
  unfold drainHomes
  exact foldl_over (fun _ _ => homePerform_over) _ (h.of_same rfl rfl)

theorem makeRoom_over {core half line : Nat} (h : s.Over G P) : (makeRoom s core half line).Over G P := by
  unfold makeRoom
  extract_lets lines inSet victim
  exact over_ite h (h.of_same rfl rfl)
theorem l1Put_over {core half word : Nat} {x : L1Word} (h : s.Over G P) : (l1Put s core half word x).Over G P := h.of_same rfl rfl
theorem l1StoreWord_over {core half word : Nat} {f : BitVec 32 → BitVec 32} {whole : Bool} (h : s.Over G P) :
    (l1StoreWord s core half word f whole).Over G P := by
  unfold l1StoreWord
  extract_lets t
  have ht : t.Over G P := by
    unfold t
    split
    · exact l1Put_over h
    · exact h
  split
  · exact l1Put_over ht
  · exact over_ite (l1Put_over (makeRoom_over ht)) ht
theorem globalStore_over {part slot mt pa : Nat} {bs : List Byte} (h : s.Over G P) : (globalStore s sid part slot mt pa bs).Over G P := by
  unfold globalStore
  exact over_ite ((homeWrite_over h).of_same rfl rfl) ((foldl_over (fun _ _ => l1StoreWord_over) _ h).of_same rfl rfl)
theorem globalStores_over {part slot mt : Nat} (l : List (Nat × Nat)) : ∀ {r : State × List Byte}, r.1.Over G P →
    (l.foldl (fun (r : State × List Byte) (p, n) => (globalStore r.1 sid part slot mt p (r.2.take n), r.2.drop n)) r).1.Over G P := by
  induction l with
  | nil => exact id
  | cons a l ih => exact fun h => ih (globalStore_over h)
theorem writeBuf_grid (w : Workgroup) (isA : Bool) (off : Nat) (bs : List Byte) : (w.writeBuf isA off bs).grid = w.grid := by
  unfold Workgroup.writeBuf
  split <;> rfl
theorem writeAccess_over {part : Nat} {a : Access} {bs : List Byte} (h : s.Over G P) : (writeAccess s sid part a bs).Over G P := by
  unfold writeAccess
  split
  · exact globalStores_over _ h
  · exact foldl_over (fun _ ⟨_, _⟩ => mapWg_over fun _ => writeBuf_grid ..) _ h

/-! ### Stores of a queue -/

theorem chargeAccess_over {part : Nat} {a : Access} (h : s.Over G P) : (chargeAccess s sid part a).Over G P := by
  unfold chargeAccess
  exact over_ite h (over_ite (askerEvent_over h) h)
theorem performEntry_over {part : Nat} {pre : List Access} {a : Access} {post : List Access} (hk : a.kind = .store) (h : s.Over G P) :
    (performEntry s sid part pre a post).Over G P := by
  unfold performEntry
  refine over_ite ((mapSheet_over h).of_same rfl rfl) ?_
  split
  extract_lets t stay u
  have hu : u.Over G P := chargeAccess_over (mapSheet_over (over_ite (h.of_same rfl rfl) h))
  rw [hk]
  exact over_ite (writeAccess_over hu) (mapSheet_over (writeAccess_over hu))
theorem drainStores_over : ∀ {n : Nat} {s : State}, s.Over G P → (drainStores n s sid).Over G P
  | 0, _, h => h
  | n + 1, s, h => by
    unfold drainStores
    split
    · exact h
    · split
      · exact h
      next a k hfind =>
        have hk := List.find?_some hfind
        simp only [Bool.and_eq_true, beq_iff_eq] at hk
        exact drainStores_over (performEntry_over hk.1 h)

/-! ### Sheets and grids that end -/

theorem removeSheet_over (h : s.Over G P) : (removeSheet s sid).Over G P := by
  unfold removeSheet
  extract_lets n s1 core s2 s3 gone s4 cl s5 drops s6
  have h2 : s2.Over G P := drainHomes_over (drainStores_over h)
  have h3 : s3.Over G P := by
    unfold s3
    split
    · exact h2.of_same rfl rfl
    · exact h2
  clear_value s3
  have h4 : s4.Over G P := h3.of_same rfl rfl
  have h5 : s5.Over G P := h4.of_same rfl rfl
  have h6 : s6.Over G P := h5.of_same rfl rfl
  exact h6.of_same rfl rfl
/-- A grid stopped has no workgroup left, and no other grid gets one. -/
theorem stopGrid_over {gn : Nat} (h : s.Over G P) : (stopGrid s gn).Over G (fun k => P k ∧ k ≠ gn) := by
  unfold stopGrid
  extract_lets ws t saved gone
  have ht : t.Over G P := foldl_over (fun _ _ => removeSheet_over) _ h
  refine ⟨ht.grids, fun e he => ?_⟩
  obtain ⟨he, hne⟩ := List.mem_filter.mp he
  exact ⟨ht.wgs e he, by simpa using hne⟩

end
end Sys2Proof.Machine
end

section
/-! O50: sheets, workgroups and grids end (R42, R47, R48), functions are reset (R353) and cores are scrubbed (R90, R196, R197). -/

namespace Sys2Proof.Machine

theorem sameMemory_of_mem {s t : State} (h : t.mem = s.mem) : SameMemory s t := fun a => by unfold State.readByte; rw [h]

/-! ## Exits (R47) -/

theorem mayExit_of {s : State} {sid : Nat} {sh : Sheet} (hleft : sh.left = true) (hpark : sh.park = .running) (hheld : sh.held = none)
    (hissuing : sh.issuing = none) (hqueue : sh.queue = []) (hlates : sh.lates = []) (hhome : ∀ h ∈ s.homeq, h.sid ≠ sid)
    (hcmds : ∀ c ∈ vals (s.core (coreOf sid)).cmds, c.sid ≠ sid) : mayExit s sid sh = true := by
  unfold mayExit
  simp only [hleft, hpark, hheld, hissuing, hqueue, hlates, Bool.and_eq_true, List.all_eq_true, bne_iff_ne]
  exact ⟨⟨by decide, hhome⟩, hcmds⟩

/-- The sheet that exits is gone from its context, and no other sheet and no memory changes. -/
theorem sheetExit_frame {s : State} {sid : Nat} {sh : Sheet} (hsh : s.sheet? sid = some sh) (hmay : mayExit s sid sh = true) :
    (sheetExit sid s).mem = s.mem ∧ (sheetExit sid s).sheets = drop s.sheets sid := by
  unfold sheetExit
  rw [hsh]
  dsimp only
  rw [if_pos hmay]
  split
  · exact ⟨State.mapWg_mem .., State.mapWg_sheets ..⟩
  · split
    · exact ⟨rfl, rfl⟩
    · split
      · exact ⟨rfl, rfl⟩
      · split <;> exact ⟨rfl, rfl⟩

/-- The last sheet of a workgroup ends it, and its grid counts it. -/
theorem sheetExit_last {s : State} {sid : Nat} {sh : Sheet} {w : Workgroup} {g : Grid} (hsh : s.sheet? sid = some sh)
    (hmay : mayExit s sid sh = true) (hw : s.wg? sh.wg = some w) (hg : s.grid? w.grid = some g)
    (hlast : ∀ e ∈ s.sheets, e.1 ≠ sid → e.2.wg ≠ sh.wg) :
    (sheetExit sid s).wg? sh.wg = none ∧ (sheetExit sid s).grid? w.grid = some { g with done := g.done + 1 } := by
  have hnone : (vals (s.dropSheet sid).sheets).any (fun o => o.wg == sh.wg) = false := by
    refine List.any_eq_false.mpr fun o ho => ?_
    obtain ⟨e, he, rfl⟩ := List.mem_map.mp ho
    obtain ⟨he, hne⟩ := List.mem_filter.mp he
    simpa using hlast e he (by simpa using hne)
  unfold sheetExit
  rw [hsh]
  dsimp -zeta only
  rw [if_pos hmay]
  extract_lets t
  rw [if_neg (by rw [hnone]; decide), show t.wg? sh.wg = some w from hw]
  dsimp -zeta only
  extract_lets u
  rw [show u.grid? w.grid = some g from hg]
  dsimp -zeta only
  extract_lets v
  have hwg : v.wg? sh.wg = none := lookup_drop_self ..
  have hgrid : v.grid? w.grid = some { g with done := g.done + 1 } := lookup_put_self ..
  split <;> exact ⟨hwg, hgrid⟩

/-! ## Final STATUS (R42, R47, R48) -/

/-- A grid whose record translates, at its end. -/
theorem gridFinal_final {s : State} {gn : Nat} {g : Grid} {pa : Nat} (code fdet : Nat) (hbatch : g.batch = none)
    (hrec : recordAt s g.vf g.record = .ok pa) (hnone : s.batches = []) :
    FinalStatus s (gridFinal s gn g code fdet) pa code fdet ∧ (gridFinal s gn g code fdet).grid? gn = none ∧
      (gridFinal s gn g code fdet).sheets.length = s.sheets.length := by
  have hwrote := deviceWrote_engineWrite s g.part (pa + 48) (leBytes 4 code ++ leBytes 4 fdet ++ leBytes 8 s.ts)
  have hrun := wroteRun_engineWrite_device s g.part (pa + 48) (leBytes 4 code ++ leBytes 4 fdet ++ leBytes 8 s.ts)
  unfold gridFinal
  rw [hbatch, hrec]
  extract_lets t u v x
  have ht : t = engineWrite s (Asker.device g.part) (pa + 48) (leBytes 4 code ++ leBytes 4 fdet ++ leBytes 8 s.ts) := rfl
  rw [← ht] at hwrote hrun
  have hirq : u.mem = t.mem ∧ u.sheets = t.sheets ∧ u.batches = t.batches := by
    unfold u
    split <;> exact ⟨rfl, rfl, rfl⟩
  obtain ⟨hmem, hsheets, hbatches⟩ := hirq
  have hv : x = v := by
    have hb : v.batches = [] := by
      change u.batches.map _ = []
      rw [hbatches, hwrote.only, hnone]
      rfl
    unfold x
    rw [hb]
    rfl
  have hend : x.mem = t.mem ∧ x.sheets = t.sheets ∧ x.grid? gn = none := by
    rw [hv]
    exact ⟨hmem, hsheets, lookup_drop_self ..⟩
  obtain ⟨hmem, hsheets, hgone⟩ := hend
  have hlen : x.sheets.length = s.sheets.length := by rw [hsheets, hwrote.sheets_length]
  split <;> exact ⟨hrun.of_mem hmem, hgone, hlen⟩

theorem gridRetire_eq {s : State} {gn : Nat} {g : Grid} (hg : s.grid? gn = some g) (hend : g.ending = none) (hdone : g.done = g.lrec.total)
    (hchild : childOf s gn = false) (hpend : launchPending s gn = false) : gridRetire gn s = gridFinal s gn g 2 0 := by
  unfold gridRetire
  rw [hg]
  exact if_pos ⟨by rw [hend]; rfl, hdone, hchild, hpend⟩

theorem gridTermination_eq {s : State} {gn core : Nat} {g : Grid} {c : Cause} (hg : s.grid? gn = some g) (hend : g.ending = some (c, core))
    (hchild : childOf s gn = false) :
    gridTermination gn s = if c = .none then gridFinal s gn g 4 0 else gridFinal s gn g 3 (fdetOf c core) := by
  unfold gridTermination
  rw [hg]
  dsimp only
  rw [hend]
  exact if_neg (by rw [hchild]; decide)

/-! ## Scrubs (R90, R196, R197) -/

theorem scrubStart_due {s : State} {core col wg : Nat} {w : Workgroup} {g : Grid} (hw : s.wg? wg = some w) (hg : s.grid? w.grid = some g)
    (hcore : w.core = core) (hcol : w.col = col) (hdue : scrubDue s core col g.part = true)
    (hrest : ∀ e ∈ s.wgs, e.2.core = core → e.2.col = col → e.2.started = false) (hscrub : scrubbing s core col = false)
    (hquiet : unitQuiet s core col = true) :
    scrubStart core col s = s.mapCore core (fun k => { k with scrub := put k.scrub col (s.cycle core + 2048) }) := by
  have hmem := mem_of_lookup hw
  have hhere : ∀ x ∈ (vals s.wgs).filter (fun w => w.core == core && w.col == col), x.started = false := by
    intro x hx
    obtain ⟨hx, hon⟩ := List.mem_filter.mp hx
    obtain ⟨e, he, rfl⟩ := List.mem_map.mp hx
    obtain ⟨hc, hl⟩ : e.2.core = core ∧ e.2.col = col := by simpa using hon
    exact hrest e he hc hl
  have hwhere : w ∈ (vals s.wgs).filter (fun w => w.core == core && w.col == col) :=
    List.mem_filter.mpr ⟨List.mem_map.mpr ⟨_, hmem, rfl⟩, by simp [hcore, hcol]⟩
  unfold scrubStart
  extract_lets here partOfWg
  have hpart : partOfWg w = g.part := by unfold partOfWg; rw [hg]
  refine if_pos ?_
  simp only [Bool.and_eq_true, List.any_eq_true, List.all_eq_true, hscrub, hquiet]
  exact ⟨⟨⟨⟨w, hwhere, by rw [hpart, hdue]; simp [hhere w hwhere]⟩, fun x hx => by simp [hhere x hx]⟩, rfl⟩, trivial⟩

theorem scrubComplete_due {s : State} {core col c : Nat} (h : lookup (s.core core).scrub col = some c) (hc : c ≤ s.cycle core) :
    scrubComplete core col s = scrubbed s core col := by
  unfold scrubComplete
  rw [h]
  exact if_pos hc

theorem clearReuse_core (s : State) (core col : Nat) : ∃ a b, (clearReuse s core col).core core =
      { s.core core with reuseA := a, reuseB := b } ∧ if col = 0 then a = none else b = none := by
  unfold clearReuse
  rw [State.core_mapCore]
  split
  · exact ⟨none, (s.core core).reuseB, rfl, rfl⟩
  · exact ⟨(s.core core).reuseA, none, rfl, rfl⟩

/-- The core as a scrub leaves it. -/
theorem scrubbed_core (s : State) (core col : Nat) : ∃ a b t, (scrubbed s core col).core core = { s.core core with
      reuseA := a, reuseB := b, scrub := drop (s.core core).scrub col, served := drop (s.core core).served col
      l1 := (s.core core).l1.filter (fun e => otherHalf (s.core core) col e.1)
      tlb := (s.core core).tlb.filter (fun e => otherContext (clearReuse s core col) (s.core core) col e.1)
      icache := (s.core core).icache.filter (fun x => (s.core core).split && x.half != col), lastTarget := t } ∧
    if col = 0 then a = none else b = none := by
  obtain ⟨a, b, hcore, hnone⟩ := clearReuse_core s core col
  have hmap := State.core_mapCore (clearReuse s core col) core (fun k =>
    { k with scrub := drop k.scrub col, served := drop k.served col
             l1 := k.l1.filter (fun e => otherHalf (s.core core) col e.1)
             tlb := k.tlb.filter (fun e => otherContext (clearReuse s core col) (s.core core) col e.1)
             icache := k.icache.filter (fun x => (s.core core).split && x.half != col)
             lastTarget := setD k.lastTarget 0 (100 + col) ((clearReuse s core col).cycle core) })
  rw [hcore] at hmap
  exact ⟨a, b, _, hmap, hnone⟩

theorem scrubbed_wg? (s : State) (core col k : Nat) : (scrubbed s core col).wg? k = (s.wg? k).map (fun w =>
    if w.core = core ∧ w.col = col then { w with abuf := [], wbuf := [], tiles := [], limbs := [], tags := [], banks := [] } else w) := by
  refine lookup_map_val s.wgs _ _ (fun e _ => ?_) k
  dsimp only
  split <;> rfl

/-- The registrations that a scrub leaves of a core: those of words in the other half's ways (log 43). -/
theorem scrubbed_reg {s : State} {core col w : Nat} (h : getD (scrubbed s core col).reg 0 w = core + 1) :
    (s.core core).split = true ∧ (l1Find s core (1 - col) w).isSome = true := by
  cases hv : lookup (scrubbed s core col).reg w with
  | none => rw [getD, hv] at h; cases h
  | some v =>
    rw [getD, hv] at h
    obtain ⟨-, hkeep⟩ := List.mem_filter.mp (mem_of_lookup hv)
    simpa [show v = core + 1 from h, l1Find] using hkeep

/-! ## Function-level resets (R48, R353) -/

/-- A grid that is there stays, under termination if it was, and gets no workgroup where it had none. -/
structure Still (k : Nat) (s t : State) : Prop where
  grid : ∀ g, s.grid? k = some g → ∃ g', t.grid? k = some g' ∧ (g.ending.isSome = true → g'.ending.isSome = true)
  wgs : (∀ e ∈ s.wgs, e.2.grid ≠ k) → ∀ e ∈ t.wgs, e.2.grid ≠ k

theorem Still.refl (k : Nat) (s : State) : Still k s s := ⟨fun g h => ⟨g, h, id⟩, id⟩
theorem Still.trans {k : Nat} {s t u : State} (h : Still k s t) (i : Still k t u) : Still k s u where
  grid g hg := by
    obtain ⟨g', hg', he⟩ := h.grid g hg
    obtain ⟨g'', hg'', he'⟩ := i.grid g' hg'
    exact ⟨g'', hg'', he' ∘ he⟩
  wgs := i.wgs ∘ h.wgs
theorem Still.foldl {α : Type} {k : Nat} {f : State → α → State} (hf : ∀ s a, Still k s (f s a)) :
    ∀ (l : List α) (s : State), Still k s (l.foldl f s)
  | [], s => .refl k s
  | a :: l, s => (hf s a).trans (Still.foldl hf l _)

/-- A grid under termination, without workgroups. -/
def Ended (k : Nat) (s : State) : Prop := (∃ g, s.grid? k = some g ∧ g.ending.isSome = true) ∧ ∀ e ∈ s.wgs, e.2.grid ≠ k
theorem Ended.still {k : Nat} {s t : State} (h : Ended k s) (i : Still k s t) : Ended k t := by
  obtain ⟨⟨g, hg, he⟩, hw⟩ := h
  obtain ⟨g', hg', he'⟩ := i.grid g hg
  exact ⟨⟨g', hg', he' he⟩, i.wgs hw⟩

theorem grid?_mapGrid_ne (s : State) {j k : Nat} (f : Grid → Grid) (h : k ≠ j) : (s.mapGrid j f).grid? k = s.grid? k := by
  unfold State.mapGrid
  split
  · exact State.grid?_setGrid_ne _ _ _ _ h
  · rfl

/-- A grid's termination is asked for (R48). -/
def markEnding (s : State) (k : Nat) (w : Cause × Nat) : State :=
  s.mapGrid k (fun g => if g.ending.isNone then { g with ending := some w } else g)

theorem markEnding_self {s : State} {k : Nat} {g : Grid} (w : Cause × Nat) (h : s.grid? k = some g) :
    ∃ g', (markEnding s k w).grid? k = some g' ∧ g'.ending.isSome = true := by
  refine ⟨_, by rw [markEnding, State.grid?_mapGrid, h]; rfl, ?_⟩
  dsimp only
  split
  · rfl
  next hsome => simpa [Option.isSome_iff_ne_none] using hsome
theorem markEnding_still (s : State) (j k : Nat) (w : Cause × Nat) : Still k s (markEnding s j w) where
  grid g hg := by
    by_cases hjk : k = j
    · subst hjk
      obtain ⟨g', hg', he⟩ := markEnding_self w hg
      exact ⟨g', hg', fun _ => he⟩
    · exact ⟨g, by rwa [markEnding, grid?_mapGrid_ne s _ hjk], id⟩
  wgs h := by rwa [markEnding, State.mapGrid_wgs]
theorem stopGrid_still (s : State) (j k : Nat) : Still k s (stopGrid s j) := by
  have hover : s.Over s.grids (fun x => (∀ e ∈ s.wgs, e.2.grid ≠ k) → x ≠ k) := ⟨rfl, fun e he h => h e he⟩
  obtain ⟨hg, hw⟩ := stopGrid_over (gn := j) hover
  exact ⟨fun g h => ⟨g, by rwa [State.grid?, hg], id⟩, fun h e he => (hw e he).1 h⟩

theorem endGrid_eq (s : State) (gn : Nat) (why : Cause × Nat) : ∃ desc : List Nat, endGrid s gn why =
    (gn :: desc).foldl stopGrid (desc.foldl (fun s k => markEnding s k (.none, 0)) (markEnding s gn why)) := ⟨_, rfl⟩
theorem endGrid_still (s : State) (gn k : Nat) (why : Cause × Nat) : Still k s (endGrid s gn why) := by
  obtain ⟨desc, h⟩ := endGrid_eq s gn why
  rw [h]
  exact ((markEnding_still s gn k why).trans (.foldl (fun s j => markEnding_still s j k _) desc _)).trans
    (.foldl (fun s j => stopGrid_still s j k) _ _)
theorem endGrid_ended {s : State} {gn : Nat} {g : Grid} (why : Cause × Nat) (hg : s.grid? gn = some g) : Ended gn (endGrid s gn why) := by
  obtain ⟨desc, h⟩ := endGrid_eq s gn why
  rw [h, List.foldl_cons]
  obtain ⟨g', hg', he'⟩ := markEnding_self why hg
  obtain ⟨g'', hg'', he''⟩ := (Still.foldl (fun s j => markEnding_still s j gn (.none, 0)) desc (markEnding s gn why)).grid g' hg'
  generalize desc.foldl (fun s k => markEnding s k (.none, 0)) (markEnding s gn why) = t at *
  obtain ⟨hgrids, hwgs⟩ := stopGrid_over (gn := gn) (G := t.grids) (P := fun _ => True) ⟨rfl, fun _ _ => trivial⟩
  have hstop : Ended gn (stopGrid t gn) := ⟨⟨g'', by rwa [State.grid?, hgrids], he'' he'⟩, fun e he => (hwgs e he).2⟩
  exact hstop.still (.foldl (fun s j => stopGrid_still s j gn) desc _)

/-- Every grid of a list that is there ends. -/
theorem endGrids_ended {gn : Nat} (why : Cause × Nat) {l : List Nat} : ∀ {s : State} {g : Grid}, gn ∈ l → s.grid? gn = some g →
    Ended gn (l.foldl (fun s g => endGrid s g why) s) := by
  induction l with
  | nil => exact fun h => absurd h List.not_mem_nil
  | cons k l ih =>
    intro s g h hg
    rw [List.foldl_cons]
    by_cases hk : gn = k
    · subst hk
      exact Ended.still (endGrid_ended why hg) (Still.foldl (fun s j => endGrid_still s j gn why) l (endGrid s gn why))
    · obtain ⟨g', hg', -⟩ := (endGrid_still s k gn why).grid g hg
      exact ih ((List.mem_cons.mp h).resolve_left hk) hg'

theorem functionLevelReset_ended {s : State} {vf gn : Nat} {g : Grid} (hg : s.grid? gn = some g) (hhost : g.host = true) (hvf : g.vf = vf) :
    ((functionLevelReset vf s).vf vf).resetting = true ∧ Ended gn (functionLevelReset vf s) := by
  unfold functionLevelReset
  extract_lets roots t
  have hroot : gn ∈ roots := List.mem_map.mpr ⟨(gn, g), List.mem_filter.mpr ⟨mem_of_lookup hg, by simp [hhost, hvf]⟩, rfl⟩
  have hne : ¬ roots.isEmpty = true := by
    rw [List.isEmpty_iff]
    exact List.ne_nil_of_mem hroot
  have ht : Ended gn t := endGrids_ended (.none, 0) hroot hg
  rw [if_neg hne]
  exact ⟨by rw [State.vf_setVf], ht⟩

/-- Settles O50: the last sheet ends its workgroup, a grid at its end writes its final STATUS, a reset ends each root grid of its
function, and a scrub leaves its unit empty. -/
theorem gridsEnd : Obligations.GridsEnd := by
  intro s
  refine ⟨?_, ?_, ?_, ?_, ?_⟩
  · intro sid sh hsid hsh hleft hpark hheld hissuing hqueue hlates hhome hcmds
    have hmay := mayExit_of hleft hpark hheld hissuing hqueue hlates hhome hcmds
    obtain ⟨hmem, hsheets⟩ := sheetExit_frame hsh hmay
    refine does_next (runEvent_ok (i := .sheetExit sid) (decide_eq_true hsid) _ s) ⟨sameMemory_of_mem hmem, ?_, fun k hk => ?_, fun w g hw hg hlast => ?_⟩
    · rw [State.sheet?, hsheets, lookup_drop_self]
    · rw [State.sheet?, hsheets, lookup_drop_ne _ _ _ hk]; rfl
    · obtain ⟨hwg, hgrid⟩ := sheetExit_last hsh hmay hw hg hlast
      exact ⟨hwg, _, hgrid, rfl⟩
  · intro gn g pa hg hchild hbatch hrec hnone
    refine ⟨fun hend hdone hpend => ?_, fun c core hend => ?_⟩
    · exact does_next ((runEvent_ok (i := .gridRetire gn) rfl _ s).trans (congrArg _ (gridRetire_eq hg hend hdone hchild hpend)))
        (gridFinal_final 2 0 hbatch hrec hnone)
    · refine does_next ((runEvent_ok (i := .gridTermination gn) rfl _ s).trans (congrArg _ (gridTermination_eq hg hend hchild))) ?_
      split
      · obtain ⟨hfinal, hgone, -⟩ := gridFinal_final 4 0 hbatch hrec hnone
        exact ⟨hgone, hfinal⟩
      · obtain ⟨hfinal, hgone, -⟩ := gridFinal_final 3 (fdetOf c core) hbatch hrec hnone
        exact ⟨hgone, hfinal⟩
  · intro vf gn g hvf hg hhost hgvf
    obtain ⟨hreset, hend, hwgs⟩ := functionLevelReset_ended hg hhost hgvf
    exact does_next (runEvent_ok (i := .functionLevelReset vf) (decide_eq_true hvf) _ s)
      ⟨hreset, hend, fun k w hk => hwgs _ (mem_of_lookup hk)⟩
  · intro core col wg w g hcore hcol hw hg hwcore hwcol hdue hrest hscrub hquiet
    have hdo := (runEvent_ok (i := .scrubStart core col) (by simp [Instr.wf, coreOk, hcore, hcol]) _ s).trans
      (congrArg _ (scrubStart_due hw hg hwcore hwcol hdue hrest hscrub hquiet))
    refine does_next hdo ⟨⟨rfl, fun k hk => State.core_mapCore_ne _ _ _ _ hk⟩, ?_⟩
    rw [State.core_mapCore]
    exact lookup_put_self ..
  · intro core col c hcore hcol hc hle
    have hdo := (runEvent_ok (i := .scrubComplete core col) (by simp [Instr.wf, coreOk, hcore, hcol]) _ s).trans
      (congrArg _ (scrubComplete_due hc hle))
    obtain ⟨a, b, t, hk, hreuse⟩ := scrubbed_core s core col
    refine does_next hdo ⟨sameMemory_of_mem rfl, rfl, ?_, ?_, fun k w hw hne => ?_, fun k w hw hwcore hwcol => ?_, ?_, ?_⟩
    · rw [hk]; exact lookup_drop_self ..
    · rw [hk]; exact lookup_drop_self ..
    · rw [scrubbed_wg?, hw, Option.map_some, if_neg hne]
    · rw [scrubbed_wg?, hw, Option.map_some, if_pos ⟨hwcore, hwcol⟩]
      exact ⟨_, rfl, rfl, rfl, rfl, rfl⟩
    · rw [hk]
      split
      next hsplit =>
        refine ⟨fun e he => ?_, fun x hx => ?_, fun w hw => (scrubbed_reg hw).2⟩
        · simpa [otherHalf, hsplit] using (List.mem_filter.mp he).2
        · simpa [hsplit] using (List.mem_filter.mp hx).2
      next hsplit =>
        refine ⟨?_, ?_, ?_, fun w hw => hsplit (scrubbed_reg hw).1⟩ <;>
          exact List.filter_eq_nil_iff.mpr fun e _ => by simp [otherHalf, otherContext, hsplit]
    · rw [hk]; exact hreuse

end Sys2Proof.Machine
end

section
/-! Launches (R38 to R42): the results that land at a launching sheet, and what the load of a kernel may change and answer (R105 to R111,
R349). -/

namespace Sys2Proof.Machine

/-! ## A result alone on its way to its latch (R70, R71) -/

theorem ofNum_num (u : FUnit) : FUnit.ofNum u.num = some u := by cases u <;> rfl
theorem unit_num_lt (u : FUnit) : u.num < 15 := by cases u <;> decide
theorem unit_num_inj {u v : FUnit} (h : u.num = v.num) : u = v :=
  Option.some.inj ((ofNum_num u).symm.trans (h ▸ ofNum_num v))

theorem Sheet.getQ_setQ_self (sh : Sheet) (u : FUnit) (k t : Nat) (x : W64) : (sh.setQ u k t x).getQ u k t = x := getD_setD_self ..
theorem Sheet.getQ_setQ_port (sh : Sheet) {u : FUnit} {k j t : Nat} (x : W64) (h : j ≠ k) : (sh.setQ u k t x).getQ u j t = sh.getQ u j t :=
  getD_setD_ne _ _ _ _ _ (by unfold tkey; omega)
/-- A latch of another unit or thread is left. -/
theorem Sheet.getQ_setQ_other (sh : Sheet) {u v : FUnit} {k j t r : Nat} (x : W64) (hk : k < 2) (hj : j < 2) (h : ¬ (v = u ∧ r = t)) :
    (sh.setQ u k t x).getQ v j r = sh.getQ v j r := by
  refine getD_setD_ne _ _ _ _ _ fun he => ?_
  have hu := unit_num_lt u
  have hv := unit_num_lt v
  unfold tkey at he
  exact h ⟨unit_num_inj (by omega), by omega⟩

theorem landed_deliver (sh : Sheet) (f : Flight) (q w : Option W64) : Landed (sh.deliver f.unit f.thread q w) f q w := by
  unfold Sheet.deliver
  refine ⟨fun v hv => ?_, fun v hv => ?_⟩
  · subst hv
    cases w with
    | none => exact Sheet.getQ_setQ_self ..
    | some x => exact (Sheet.getQ_setQ_port _ x (by decide)).trans (Sheet.getQ_setQ_self ..)
  · subst hv
    exact Sheet.getQ_setQ_self ..
/-- What lands at another latch leaves what has landed. -/
theorem landed_deliver_other {sh : Sheet} {f : Flight} {q w : Option W64} (h : Landed sh f q w) {u : FUnit} {t : Nat}
    (hne : ¬ (f.unit = u ∧ f.thread = t)) (q' w' : Option W64) : Landed (sh.deliver u t q' w') f q w := by
  have hkept : ∀ k < 2, (sh.deliver u t q' w').getQ f.unit k f.thread = sh.getQ f.unit k f.thread := by
    intro k hk
    unfold Sheet.deliver
    cases q' <;> cases w' <;> simp only [Sheet.getQ_setQ_other _ _ (by decide : 0 < 2) hk hne, Sheet.getQ_setQ_other _ _ (by decide : 1 < 2) hk hne]
  exact ⟨fun v hv => (hkept 0 (by decide)).trans (h.1 v hv), fun v hv => (hkept 1 (by decide)).trans (h.2 v hv)⟩

/-- A result that has a value and lands, the only one of its latch, is what the latch holds. -/
theorem landGo_landed {p : Flight → Bool} {f : Flight} (hp : p f = true) (hready : f.ready = true) :
    ∀ (l : List Flight) (b : List (FUnit × Nat)) (sh : Sheet) (k : List Flight),
      (∀ g ∈ l, g.unit = f.unit → g.thread = f.thread → g = f) → (f.unit, f.thread) ∉ b → f ∈ l ∨ Landed sh f f.q f.w →
        Landed (landGo p l b sh k) f f.q f.w
  | [], _, sh, _, _, _, h => h.resolve_left List.not_mem_nil
  | g :: r, b, sh, k, hl, hb, h => by
    have hr := fun g (hg : g ∈ r) => hl g (List.mem_cons_of_mem _ hg)
    unfold landGo
    by_cases hlatch : g.unit = f.unit ∧ g.thread = f.thread
    · rw [hl g List.mem_cons_self hlatch.1 hlatch.2, if_pos (by simp [hp, hready, hb])]
      exact landGo_landed hp hready r b _ k hr hb (.inr (landed_deliver sh f f.q f.w))
    · have hne : ¬ (f.unit = g.unit ∧ f.thread = g.thread) := fun ⟨hu, ht⟩ => hlatch ⟨hu.symm, ht.symm⟩
      have h' : f ∈ r ∨ Landed sh f f.q f.w := h.imp_left fun hf =>
        (List.mem_cons.mp hf).resolve_left fun he => hlatch ⟨congrArg Flight.unit he.symm, congrArg Flight.thread he.symm⟩
      split
      · exact landGo_landed hp hready r b _ k hr hb (h'.imp_right fun hd => landed_deliver_other hd hne g.q g.w)
      · refine landGo_landed hp hready r _ sh _ hr ?_ h'
        rw [List.mem_cons, not_or]
        exact ⟨fun he => hne ⟨congrArg Prod.fst he, congrArg Prod.snd he⟩, hb⟩

/-- The value of a stalling operation, the only one on its way to its latch, lands. -/
theorem fill_landed {sh : Sheet} {f : Flight} {id : Nat} (h : OnlyFlight sh f) (hid : f.id = id) (hst : f.stalling = true) (q w : Option W64) :
    Landed (sh.fill id q w) f q w := by
  obtain ⟨hmem, honly⟩ := h
  refine landGo_landed (p := fun f => f.stalling) (f := { f with q := q, w := w, ready := true }) hst rfl _ [] _ [] ?_ (by simp) (.inl ?_)
  · intro g hg hu ht
    obtain ⟨g0, hg0, rfl⟩ := List.mem_map.mp hg
    have hsame : g0 = f := by
      refine honly g0 hg0 ?_ ?_
      · split at hu <;> exact hu
      · split at ht <;> exact ht
    rw [hsame, if_pos hid]
  · exact List.mem_map.mpr ⟨f, hmem, if_pos hid⟩

/-! ## The load of a kernel (R105 to R111, R349) -/

/-- The refusals of a record and of a code object (R41, R42). -/
def KernelCode (c : Nat) : Prop := c = 0x10 ∨ c = 0x11

theorem loadAt_refuse {s : State} {who : Misser} {vf va n c : Nat} (h : loadAt s who vf va n = .error (.refuse c)) : c = 0x11 := by
  unfold loadAt at h
  split at h
  · cases h
  · unfold LoadStop.ofFlt at h
    split at h <;> cases h
    rfl

theorem nativeKernel_refuse {s : State} {who : Misser} {vf base x threads c : Nat}
    (h : nativeKernel s who vf base x threads = .error (.refuse c)) : KernelCode c := by
  unfold nativeKernel at h
  extract_lets codesz nrcv patv at h
  split at h
  · cases h; exact .inl rfl
  split at h
  · cases h; exact .inr (loadAt_refuse ‹_›)
  · cases h; exact .inr (loadAt_refuse ‹_›)
  · extract_lets rcv pats at h
    split at h <;> cases h
    exact .inr rfl

theorem placeTranslation_refuse {s : State} {who : Misser} {part vf digest : Nat} {half : Bool} {nat : List Byte} {c : Nat}
    (h : placeTranslation s who part vf digest half nat = .error (.refuse c)) : KernelCode c := by
  unfold placeTranslation at h
  extract_lets base cuts at h
  split at h
  · cases h; exact .inr rfl
  split at h
  · unfold LoadStop.ofFlt at h
    split at h <;> cases h
    exact .inr rfl
  · cases h; exact .inr rfl
  · cases h

theorem firmwareKernel_refuse {s : State} {who : Misser} {part vf kaddr x threads c : Nat}
    (h : firmwareKernel s who part vf kaddr x threads = .error (.refuse c)) : KernelCode c := by
  unfold firmwareKernel at h
  split at h
  · cases h; exact .inl rfl
  split at h
  · cases h; exact .inr (loadAt_refuse ‹_›)
  split at h
  · cases h; exact .inr rfl
  extract_lets half digest placed at h
  have hplaced : placed = .error (.refuse c) → KernelCode c := fun hp => by
    unfold placed at hp
    split at hp
    · cases hp
    · cases hp; exact .inr rfl
    · split at hp
      · exact placeTranslation_refuse hp
      · cases hp; exact .inr rfl
  clear_value placed
  split at h
  · cases h; exact hplaced rfl
  split at h
  · cases h; exact .inr (loadAt_refuse ‹_›)
  split at h
  · cases h; exact nativeKernel_refuse ‹_›
  · cases h

theorem loadKernel_refuse {s : State} {who : Misser} {vf part kaddr threads c : Nat}
    (h : loadKernel s who vf part kaddr threads = .error (.refuse c)) : KernelCode c := by
  unfold loadKernel at h
  split at h
  · cases h; exact .inr rfl
  split at h
  · cases h; exact .inr (loadAt_refuse ‹_›)
  extract_lets x base at h
  split at h
  · cases h; exact .inr rfl
  split at h
  · split at h <;> cases h
    exact nativeKernel_refuse ‹_›
  · split at h
    · exact firmwareKernel_refuse h
    · cases h; exact .inr rfl
  · split at h
    · cases h; exact .inr rfl
    split at h
    · cases h; exact .inr (loadAt_refuse ‹_›)
    split at h
    · cases h; exact .inr rfl
    split at h <;> cases h
    exact nativeKernel_refuse ‹_›

/-- A load writes at most a translation, which its partition then holds. -/
theorem placeTranslation_wrote {s : State} {who : Misser} {part vf digest : Nat} {half : Bool} {nat : List Byte} {r : XEntry × State}
    (h : placeTranslation s who part vf digest half nat = .ok r) : DeviceWrote s r.2 := by
  unfold placeTranslation at h
  extract_lets base cuts at h
  split at h
  · cases h
  split at h
  · cases h
  · cases h
  · cases h
    dsimp only
    exact (deviceWrote_storePieces part _ nat s).trans (deviceWrote_mapPart _ part rfl)

theorem firmwareKernel_wrote {s : State} {who : Misser} {part vf kaddr x threads : Nat} {r : Kernel × State}
    (h : firmwareKernel s who part vf kaddr x threads = .ok r) : DeviceWrote s r.2 := by
  unfold firmwareKernel at h
  split at h
  · cases h
  split at h
  · cases h
  split at h
  · cases h
  extract_lets half digest placed at h
  have hplaced : ∀ {p}, placed = .ok p → DeviceWrote s p.2 := fun {p} hp => by
    unfold placed at hp
    split at hp
    · cases hp; exact .refl s
    · cases hp
    · split at hp
      · exact placeTranslation_wrote hp
      · cases hp
  clear_value placed
  split at h
  · cases h
  have ht := hplaced rfl
  split at h
  · cases h
  split at h <;> cases h
  exact ht

theorem loadKernel_wrote {s : State} {who : Misser} {vf part kaddr threads : Nat} {r : Kernel × State}
    (h : loadKernel s who vf part kaddr threads = .ok r) : DeviceWrote s r.2 := by
  unfold loadKernel at h
  split at h
  · cases h
  split at h
  · cases h
  extract_lets x base at h
  split at h
  · cases h
  split at h
  · split at h <;> cases h
    exact .refl s
  · split at h
    · exact firmwareKernel_wrote h
    · cases h
  · split at h
    · cases h
    split at h
    · cases h
    split at h
    · cases h
    split at h <;> cases h
    exact .refl s

end Sys2Proof.Machine
end

section
/-! O48: launches asked for, decided and spawned (R38 to R42, R51, R52, R54, R351, R352). `acceptRecord_judged` says once what a decision by
the checks of R41 leaves; the launches of hosts and of moves follow from it. -/

namespace Sys2Proof.Machine

/-! ## Fields that are read back -/

/-- The first four bytes of a run, read as a number. -/
theorem WroteRun.readNat_first {s t : State} {pa c : Nat} {bs : List Byte} (h : WroteRun s t pa (leBytes 4 c ++ bs)) (hc : c < 2 ^ 32) :
    t.readNat pa 4 = c := by
  have hread : t.readBytes pa 4 = leBytes 4 c := by
    refine List.ext_getElem (by simp [State.readBytes]) fun k hk _ => ?_
    have hk : k < 4 := by simpa [State.readBytes] using hk
    have hlen : k < (leBytes 4 c).length := by simpa using hk
    simp [State.readBytes, h.1 k (by rw [List.length_append]; omega), List.getElem?_append_left hlen, List.getElem?_eq_getElem hlen]
  rw [State.readNat, hread, leNat_leBytes]
  exact Nat.mod_eq_of_lt hc
theorem WroteRun.readNat_field {s t : State} {pa c : Nat} (h : WroteRun s t pa (leBytes 4 c)) (hc : c < 2 ^ 32) : t.readNat pa 4 = c :=
  WroteRun.readNat_first (bs := []) (by rwa [List.append_nil]) hc
/-- A number that no written byte touches. -/
theorem WroteRun.readNat_apart {s t : State} {pa a n : Nat} {bs : List Byte} (h : WroteRun s t pa bs) (hu : Untracked s)
    (hapart : a + n ≤ pa ∨ pa + bs.length ≤ a) : t.readNat a n = s.readNat a n := by
  refine congrArg leNat (List.map_congr_left fun k hk => h.2 hu (a + k) ?_)
  have := List.mem_range.mp hk
  omega

theorem readNat_of_mem {s t : State} (h : t.mem = s.mem) (a n : Nat) : t.readNat a n = s.readNat a n := by
  unfold State.readNat State.readBytes State.readByte
  rw [h]

/-! ## What a write of the device leaves -/

section
variable {s t : State} (h : DeviceWrote s t)
include h
theorem DeviceWrote.launches : t.launches = s.launches := by rw [h.only]
theorem DeviceWrote.spawns : t.spawns = s.spawns := by rw [h.only]
theorem DeviceWrote.grids : t.grids = s.grids := by rw [h.only]
theorem DeviceWrote.nextGrid : t.nextGrid = s.nextGrid := by rw [h.only]
theorem DeviceWrote.lqueue : t.lqueue = s.lqueue := by rw [h.only]
theorem DeviceWrote.grid? (k : Nat) : t.grid? k = s.grid? k := congrArg (lookup · k) h.grids
end

/-! ## Submissions (R351, R352) -/

theorem launchError_fails (s : State) (vf code : Nat) (va : W64) : SubmissionFails s (launchError s vf code va) vf code va := by
  have hv : (launchError s vf code va).vf vf = { s.vf vf with
      lerrCount := min ((s.vf vf).lerrCount + 1) (2 ^ 32 - 1), lerrCode := code, leaddr := va.toNat, irqst := (s.vf vf).irqst ||| 2
      msix := (s.vf vf).msix + (if (s.vf vf).irqst ||| 2 = (s.vf vf).irqst then 0 else 1) } := by
    unfold launchError raiseIrq
    dsimp only
    rw [State.vf_setVf, State.vf_setVf]
  refine ⟨⟨rfl, fun k hk => ?_⟩, ?_⟩
  · unfold launchError raiseIrq
    dsimp only
    rw [State.vf_setVf_ne _ _ _ _ hk, State.vf_setVf_ne _ _ _ _ hk]
  · rw [hv]
    exact ⟨rfl, rfl, by simp, rfl, rfl, rfl, rfl⟩

theorem launchSubmission_eq (vf size : Nat) (v : W64) (s : State) : launchSubmission vf size v s =
    if (s.vf vf).resetting then failSubmission s vf 5 v else if size ≠ 8 then failSubmission s vf 4 v
    else if (s.vf vf).part.isNone then failSubmission s vf 3 v else if v.toNat % 64 ≠ 0 then failSubmission s vf 1 v
    else match recordAt s vf v with
      | .error _ => failSubmission s vf 2 v
      | .ok _ => { s with launches := s.launches ++ [.host vf v] } := rfl

/-- A submission that fails waits behind the older ones of its function, or is recorded. -/
theorem failSubmission_fails (s : State) (vf code : Nat) (va : W64) :
    if s.launches.any (LaunchReq.through vf) then failSubmission s vf code va = { s with launches := s.launches ++ [.failed vf va code] }
    else SubmissionFails s (failSubmission s vf code va) vf code va := by
  unfold failSubmission
  split
  · rfl
  · exact launchError_fails s vf code va

/-! ## Decisions by the checks of R41 -/

/-- A grid accepted, its number next, at the end of its launch queue. -/
def queued (s : State) (g : Grid) : State :=
  { s.setGrid s.nextGrid g with nextGrid := s.nextGrid + 1, lqueue := s.lqueue ++ [s.nextGrid] }

/-- What a record is judged is what the decision is. -/
theorem judge_judged {s : State} {who : Misser} {vf part raw v : Nat} {r : LRec} (h : Judged s who vf part raw r v)
    (parent : Option Nat) (depth : Nat) (record : W64) (host : Bool) (batch : Option Batch) :
    (v ∈ [0x10, 0x11, 0x12, 0x14] ∧ judge s who vf part parent depth record host batch raw r = .refuse v) ∨
    (v = 0 ∧ ∃ k u, DeviceWrote s u ∧ judge s who vf part parent depth record host batch raw r =
      .accept (queued u (newGrid vf part parent depth record host batch r k))) := by
  unfold Judged at h
  unfold judge
  split at h
  next hbad => exact .inl ⟨by simp [h], by rw [if_pos hbad, h]⟩
  next hbad =>
    rw [if_neg hbad]
    split at h
    next c hload =>
      rw [hload]
      subst h
      exact .inl ⟨by obtain rfl | rfl := loadKernel_refuse hload <;> decide, rfl⟩
    next => exact h.elim
    next k u hload =>
      rw [hload]
      dsimp only
      split at h
      next hfits =>
        rw [hfits]
        exact .inl ⟨by simp [h], by rw [h]; rfl⟩
      next hfits =>
        obtain ⟨hcoop, hv⟩ := h
        simp only [hcoop, eq_true_of_ne_false hfits, Bool.not_true, Bool.false_eq_true, if_false]
        by_cases hfull : 4096 ≤ (u.grids.filter (fun e => e.2.part == part)).length
        · rw [if_pos hfull] at hv ⊢
          exact .inl ⟨by simp [hv], by rw [hv]⟩
        · rw [if_neg hfull] at hv ⊢
          exact .inr ⟨hv, k, u, loadKernel_wrote hload, rfl⟩

/-- A record on which a decision has been written: its STATUS, and what else of the state stays. -/
structure Decided (s t : State) (pa code : Nat) : Prop where
  launches : t.launches = s.launches
  status : t.readNat (pa + 48) 4 = code
  sheets : ∀ sid sh, s.sheet? sid = some sh → ∃ y, t.sheet? sid = some (sh.waits y)

/-- A code written as a final STATUS, with the interrupt that the record asks for (R42). -/
theorem decided_final (s : State) (vf part pa : Nat) {c : Nat} (irq : Bool) (hc : c < 2 ^ 32) :
    let t := if irq then raiseIrq (writeFinal s part pa c 0) vf 1 else writeFinal s part pa c 0
    Decided s t pa c ∧ t.nextGrid = s.nextGrid := by
  have hwrote : DeviceWrote s (writeFinal s part pa c 0) := deviceWrote_engineWrite ..
  have hrun : WroteRun s (writeFinal s part pa c 0) (pa + 48) (leBytes 4 c ++ (leBytes 4 0 ++ leBytes 8 s.ts)) := by
    rw [← List.append_assoc]
    exact wroteRun_engineWrite_device ..
  have hstatus := hrun.readNat_first hc
  generalize writeFinal s part pa c 0 = t at *
  have hsheets := fun sid sh (h : s.sheet? sid = some sh) => hwrote.sheet? h
  dsimp only
  split <;> exact ⟨⟨hwrote.launches, hstatus, hsheets⟩, hwrote.nextGrid⟩

/-- A record refused: the code stands in it, and nothing else of the launches changes. -/
theorem acceptRecord_refused {s s0 : State} {q : LaunchReq} {vf part pa c : Nat} {va : W64} {host : Bool} {parent : Option Nat} {depth : Nat}
    (hst : recStatus s pa ≠ 1) (hc : c < 2 ^ 32)
    (h : judge s (.launch q) vf part parent depth va host none (s.readNat pa 64) (parseRec (s.readNat pa 64)) = .refuse c) :
    ∃ t, acceptRecord s q vf part parent depth va host pa s0 = answerLaunch t q c ∧ Decided s t pa c ∧ t.nextGrid = s.nextGrid := by
  unfold acceptRecord
  extract_lets raw r
  rw [if_neg hst, h]
  obtain ⟨⟨hlaunches, hstatus, hsheets⟩, hnext⟩ := decided_final (forgetRefusals s (.launch q)) vf part pa (host && r.irq) hc
  exact ⟨_, rfl, ⟨hlaunches, hstatus, hsheets⟩, hnext⟩

/-- A record accepted: its STATUS is 1. -/
theorem acceptRecord_accepted {s s0 u : State} {q : LaunchReq} {vf part pa : Nat} {va : W64} {host : Bool} {parent : Option Nat} {depth : Nat}
    (hst : recStatus s pa ≠ 1)
    (h : judge s (.launch q) vf part parent depth va host none (s.readNat pa 64) (parseRec (s.readNat pa 64)) = .accept u) :
    ∃ t, acceptRecord s q vf part parent depth va host pa s0 = answerLaunch t q 0 ∧ DeviceWrote (forgetRefusals u (.launch q)) t ∧
      t.readNat (pa + 48) 4 = 1 := by
  unfold acceptRecord
  extract_lets raw r
  rw [if_neg hst, h]
  exact ⟨_, rfl, deviceWrote_engineWrite .., (wroteRun_engineWrite_device ..).readNat_field (by decide)⟩

/-- A decision by the checks of R41: what it leaves, to which the code is answered. -/
theorem acceptRecord_judged {s s0 : State} {q : LaunchReq} {vf part pa c : Nat} {va : W64} {host : Bool} (parent : Option Nat) (depth : Nat)
    (hst : recStatus s pa ≠ 1) (h : Judged s (.launch q) vf part (s.readNat pa 64) (parseRec (s.readNat pa 64)) c) :
    ∃ t, acceptRecord s q vf part parent depth va host pa s0 = answerLaunch t q c ∧ c ≠ 0x13 ∧ Decided s t pa (if c = 0 then 1 else c) ∧
      (c = 0 → t.lqueue = s.lqueue ++ [s.nextGrid] ∧ t.nextGrid = s.nextGrid + 1 ∧
        ∃ k, t.grid? s.nextGrid = some (newGrid vf part parent depth va host none (parseRec (s.readNat pa 64)) k)) := by
  rcases judge_judged h parent depth va host none with ⟨hc, hj⟩ | ⟨rfl, k, u, hu, hj⟩
  · obtain ⟨hne, hlt, h13⟩ := (by decide : ∀ c ∈ [0x10, 0x11, 0x12, 0x14], c ≠ 0 ∧ c < 2 ^ 32 ∧ c ≠ 0x13) c hc
    obtain ⟨t, ht, hdec, -⟩ := acceptRecord_refused (s0 := s0) hst hlt hj
    exact ⟨t, ht, h13, by rwa [if_neg hne], fun h0 => absurd h0 hne⟩
  · obtain ⟨t, ht, hwrote, hstatus⟩ := acceptRecord_accepted (s0 := s0) hst hj
    generalize hg : newGrid vf part parent depth va host none (parseRec (s.readNat pa 64)) k = g at *
    refine ⟨t, ht, by decide, ⟨hwrote.launches.trans hu.launches, hstatus, fun sid sh hsh => ?_⟩, fun _ => ⟨?_, ?_, k, ?_⟩⟩
    · obtain ⟨y, hy⟩ := hu.sheet? hsh
      obtain ⟨z, hz⟩ := hwrote.sheet? (show (forgetRefusals (queued u g) (.launch q)).sheet? sid = some (sh.waits y) from hy)
      exact ⟨z, hz⟩
    · rw [hwrote.lqueue, ← hu.lqueue, ← hu.nextGrid]; rfl
    · rw [hwrote.nextGrid, ← hu.nextGrid]; rfl
    · rw [hwrote.grid?, ← hu.nextGrid, hg]
      exact lookup_put_self ..

theorem acceptRecord_waits {s s0 : State} {q : LaunchReq} {vf part pa : Nat} {va : W64} {host : Bool} {parent : Option Nat} {depth : Nat}
    {f : Flt} (hst : recStatus s pa ≠ 1)
    (h : judge s (.launch q) vf part parent depth va host none (s.readNat pa 64) (parseRec (s.readNat pa 64)) = .wait f) :
    acceptRecord s q vf part parent depth va host pa s0 = deviceMiss s0 (.launch q) part vf f := by
  unfold acceptRecord
  extract_lets raw r
  rw [if_neg hst, h]

/-! ### Missing pages and cooperative grids (R55, R479) -/

theorem judge_miss {s : State} {who : Misser} {vf part depth raw : Nat} {parent : Option Nat} {record : W64} {host : Bool}
    {batch : Option Batch} {r : LRec} {f : Flt} (hbad : recBad raw r = false)
    (h : loadKernel s who vf part r.kaddr.toNat r.threads = .error (.miss f)) :
    judge s who vf part parent depth record host batch raw r = .wait f := by
  unfold judge
  rw [if_neg (by rw [hbad]; decide), h]

theorem deviceMiss_only (s : State) (who : Misser) (part vf : Nat) (f : Flt) :
    deviceMiss s who part vf f = { s with dies := (deviceMiss s who part vf f).dies } := by
  unfold deviceMiss joinRequest
  dsimp only
  split
  · rfl
  · split
    · rfl
    · split
      · rfl
      · split <;> rfl

/-- A cooperative grid is refused where it is too large or does not fit whole. -/
theorem judge_coop_refused {s u : State} {who : Misser} {vf part raw : Nat} {va : W64} {r : LRec} {k : Kernel} (hbad : recBad raw r = false)
    (hload : loadKernel s who vf part r.kaddr.toNat r.threads = .ok (k, u)) (hcoop : r.coop = true)
    (hfits : fitsEmpty u part (needOf k r) r.clw = true)
    (h : 24576 < r.total ∨ placeAll u.nextGrid (r.total + 1) (coopGrid u vf part va r k) = none) :
    judge s who vf part none 0 va true none raw r = .refuse 0x12 := by
  unfold judge
  rw [if_neg (by rw [hbad]; decide), hload]
  dsimp -zeta only
  extract_lets n gn s0 s1 full
  have hs1 : s1 = coopGrid u vf part va r k := rfl
  have hgn : gn = u.nextGrid := rfl
  rw [hfits, hcoop, if_neg (by decide), if_pos rfl, hs1, hgn]
  split
  · rfl
  next hle => rw [h.resolve_left hle]

/-- One that fits is placed whole, where the partition has room for a grid. -/
theorem judge_coop_placed {s u t : State} {who : Misser} {vf part raw : Nat} {va : W64} {r : LRec} {k : Kernel} (hbad : recBad raw r = false)
    (hload : loadKernel s who vf part r.kaddr.toNat r.threads = .ok (k, u)) (hcoop : r.coop = true)
    (hfits : fitsEmpty u part (needOf k r) r.clw = true) (hle : r.total ≤ 24576)
    (h : placeAll u.nextGrid (r.total + 1) (coopGrid u vf part va r k) = some t) :
    judge s who vf part none 0 va true none raw r =
      if 4096 ≤ (u.grids.filter (fun e => e.2.part == part)).length then .refuse 0x14 else .accept t := by
  unfold judge
  rw [if_neg (by rw [hbad]; decide), hload]
  dsimp -zeta only
  extract_lets n gn s0 s1 full
  have hs1 : s1 = coopGrid u vf part va r k := rfl
  have hgn : gn = u.nextGrid := rfl
  rw [hfits, hcoop, if_neg (by decide), if_pos rfl, if_neg (by omega), hs1, hgn, h]

theorem placeMany_places (gn die : Nat) : ∀ (k : Nat) (s : State), Places gn s (placeMany gn die k s).2
  | 0, s => .refl gn s
  | k + 1, s => by
    unfold placeMany
    cases hone : placeOn s gn die with
    | none => exact .refl gn s
    | some t =>
      have hg : ∃ g, s.grid? gn = some g := by
        unfold placeOn at hone
        split at hone
        · cases hone
        next g hg => exact ⟨g, hg⟩
      obtain ⟨g, hg⟩ := hg
      obtain ⟨ps, hrun⟩ := placeOn_batched hg hone
      exact hrun.run.toPlaces.trans (placeMany_places gn die k t)

theorem placeBatch_places {s t : State} {gn : Nat} (h : placeBatch s gn = some t) : Places gn s t := by
  unfold placeBatch at h
  split at h
  · cases h
  · dsimp only at h
    split at h <;> cases h
    exact placeMany_places ..

/-- A grid placed whole has no workgroup left to place. -/
theorem placeAll_placed {gn : Nat} {t : State} : ∀ {k : Nat} {s : State}, placeAll gn k s = some t →
    Places gn s t ∧ ∃ g, t.grid? gn = some g ∧ g.lrec.total ≤ g.nextG
  | 0, _, h => by cases h
  | k + 1, s, h => by
    unfold placeAll at h
    split at h
    · cases h
    next g hg =>
      split at h
      next hle => cases h; exact ⟨.refl gn _, g, hg, hle⟩
      next =>
        obtain ⟨u, hu, h⟩ := Option.bind_eq_some_iff.mp h
        obtain ⟨hplaces, hdone⟩ := placeAll_placed h
        exact ⟨(placeBatch_places hu).trans hplaces, hdone⟩

/-! ## Launches (R41) -/

/-- The state without the launch that is decided. -/
def launchTaken (s : State) (k : Nat) : State := { s with launches := s.launches.eraseIdx k }

theorem launchTaken_eq (s : State) (k : Nat) : { s with launches := s.launches.take k ++ s.launches.drop (k + 1) } = launchTaken s k := by
  unfold launchTaken
  rw [List.eraseIdx_eq_take_drop_succ]

theorem launchAcceptance_host {s : State} {k vf part pa : Nat} {va : W64} (hk : s.launches[k]? = some (.host vf va))
    (hb : behindLaunch s k (.host vf va) = false) (hreset : (s.vf vf).resetting = false) (hpart : (s.vf vf).part = some part)
    (hrec : recordAt s vf va = .ok pa) :
    launchAcceptance k s = acceptRecord (launchTaken s k) (.host vf va) vf part none 0 va true pa s := by
  unfold launchAcceptance
  rw [hk]
  dsimp only
  rw [if_neg (by rw [hb]; decide), if_neg (by rw [hreset]; decide), hpart, hrec, launchTaken_eq]

theorem launchAcceptance_move {s : State} {k sid wg id gn pa : Nat} {va : W64} {g : Grid} (hk : s.launches[k]? = some (.move sid wg id gn va))
    (hb : behindLaunch s k (.move sid wg id gn va) = false) (hg : s.grid? gn = some g) (hend : g.ending = none)
    (hrec : recordAt s g.vf va = .ok pa) :
    launchAcceptance k s = acceptRecord (launchTaken s k) (.move sid wg id gn va) g.vf g.part (some gn) (g.depth + 1) va false pa s := by
  unfold launchAcceptance
  rw [hk]
  dsimp only
  rw [if_neg (by rw [hb]; decide), hg]
  dsimp only
  rw [if_neg (by rw [hend]; decide), hrec, launchTaken_eq]

/-- A failed submission is recorded in its turn. -/
theorem launchAcceptance_failed {s : State} {k vf code : Nat} {va : W64} (hk : s.launches[k]? = some (.failed vf va code))
    (hb : behindLaunch s k (.failed vf va code) = false) (hr : ∀ r ∈ s.refusedPages, r.1 ≠ .launch (.failed vf va code)) :
    launchAcceptance k s = launchError (launchTaken s k) vf code va := by
  unfold launchAcceptance
  rw [hk]
  dsimp only
  rw [if_neg (by rw [hb]; decide), launchTaken_eq, forgetRefusals]
  have hkept : (launchTaken s k).refusedPages.filter (fun r => r.1 != .launch (.failed vf va code)) = s.refusedPages :=
    List.filter_eq_self.mpr fun r hmem => by simpa using hr r hmem
  rw [hkept]
  rfl

/-- A record that is active refuses a host's launch with the code of R352. -/
theorem acceptRecord_active {s s0 : State} {vf part pa : Nat} {va : W64} (h : recStatus s pa = 1) :
    acceptRecord s (.host vf va) vf part none 0 va true pa s0 = launchError (forgetRefusals s (.launch (.host vf va))) vf 6 va := by
  unfold acceptRecord
  extract_lets raw r
  rw [if_pos h]
  rfl

theorem answerLaunch_host {s : State} {vf c : Nat} {va : W64} (h : c ≠ 0x13) : answerLaunch s (.host vf va) c = s := if_neg h

/-- The code of a LAUNCH lands at its sheet. -/
theorem answerLaunch_move {s : State} {sid id gn c : Nat} {va : W64} {sh : Sheet} {f : Flight} (hsh : s.sheet? sid = some sh)
    (hf : OnlyFlight sh f) (hid : f.id = id) (hst : f.stalling = true) :
    ∃ y, (answerLaunch s (.move sid sh.wg id gn va) c).sheet? sid = some y ∧ Landed y f (some (BitVec.ofNat 64 c)) none := by
  refine ⟨sh.fill id (some (w64 c)) none, ?_, fill_landed hf hid hst _ _⟩
  change (s.mapSheet sid _).sheet? sid = _
  rw [State.sheet?_mapSheet, hsh, Option.map_some, if_pos rfl]

/-- A host's cooperative grid that fits is refused for want of room in its partition, or placed whole (R55). -/
theorem acceptRecord_coop {s s0 u x : State} {vf part pa : Nat} {va : W64} {r : LRec} {ker : Kernel} (hr : parseRec (s.readNat pa 64) = r) (hst : recStatus s pa ≠ 1)
    (hbad : recBad (s.readNat pa 64) r = false)
    (hload : loadKernel s (.launch (.host vf va)) vf part r.kaddr.toNat r.threads = .ok (ker, u))
    (hcoop : r.coop = true)
    (hfits : fitsEmpty u part (needOf ker r) r.clw = true)
    (hle : r.total ≤ 24576)
    (hplaced : placeAll u.nextGrid (r.total + 1) (coopGrid u vf part va r ker) = some x) :
    ∃ t, acceptRecord s (.host vf va) vf part none 0 va true pa s0 = t ∧
      if 4096 ≤ (u.grids.filter (fun e => e.2.part == part)).length then t.readNat (pa + 48) 4 = 0x14
      else t.readNat (pa + 48) 4 = 1 ∧ t.lqueue = s.lqueue ∧
        ∃ g, t.grid? s.nextGrid = some g ∧ g.lrec = r ∧ r.total ≤ g.nextG := by
  subst hr
  have hj := judge_coop_placed hbad hload hcoop hfits hle hplaced
  split
  next hfull =>
    rw [if_pos hfull] at hj
    obtain ⟨t, ht, hdec, -⟩ := acceptRecord_refused (s0 := s0) (va := va) hst (by decide) hj
    exact ⟨t, ht, hdec.status⟩
  next hfull =>
    rw [if_neg hfull] at hj
    obtain ⟨t, ht, hwrote, hstatus⟩ := acceptRecord_accepted (s0 := s0) (va := va) hst hj
    have hu := loadKernel_wrote hload
    obtain ⟨hplaces, g, hg, hall⟩ := placeAll_placed hplaced
    obtain ⟨p, n, hgrid⟩ := hplaces.grid (newGrid vf part none 0 va true none (parseRec (s.readNat pa 64)) ker) (lookup_put_self ..)
    have hrec : g.lrec = parseRec (s.readNat pa 64) := by
      rw [hgrid] at hg
      cases hg
      rfl
    refine ⟨t, ht, hstatus, ?_, g, ?_, hrec, hrec ▸ hall⟩
    · rw [hwrote.lqueue]
      exact (congrArg State.lqueue hplaces.only).trans hu.lqueue
    · rw [hwrote.grid?, ← show u.nextGrid = s.nextGrid from hu.nextGrid]
      exact hg

/-! ## Portable objects (R105, R110, R111) -/

/-- A portable object is refused without a load-time translation, for its code or for its table. -/
theorem loadKernel_portable {s : State} {who : Misser} {vf part va n : Nat} {hb bs : List Byte} (hva : va % 256 = 0)
    (hn : n ≤ hField (leNat hb) 144 16) (hhead : loadAt s who vf va 256 = .ok hb) (hkind : hField (leNat hb) 48 2 = 1)
    (hbody : loadAt s who vf va (objectSize (leNat hb)) = .ok bs)
    (hbad : (s.part part).xlen = false ∨ kpfCode ((bs.drop 256).take (hField (leNat hb) 96 32)) = false ∨
      rcvOk (hField (leNat hb) 96 32) (rcvTable (bs.drop (hField (leNat hb) 256 32)) (hField (leNat hb) 240 8)) = false) :
    loadKernel s who vf part va n = .error (.refuse 0x11) := by
  unfold loadKernel
  rw [if_neg (by simpa using hva), hhead]
  dsimp only
  split
  · rfl
  · rw [hkind]
    change (if (s.part part).xlen = true then firmwareKernel s who part vf va (leNat hb) n else .error .badKernel) = _
    split
    next hx =>
      have hcode := hbad.resolve_left (by simp [hx])
      unfold firmwareKernel
      rw [if_neg (by simpa [overWg] using hn), hbody]
      dsimp only
      rw [if_pos (by simpa using hcode)]
      rfl
    next => rfl

/-! ## Spawned launches (R51, R52, R54) -/

/-- The state without the spawned launch that is decided. -/
def spawnTaken (s : State) (k : Nat) : State := { s with spawns := s.spawns.eraseIdx k }

theorem spawnedLaunch_eq {s : State} {k pa : Nat} {q : SpawnReq} {g : Grid} (hk : s.spawns[k]? = some q) (hg : s.grid? q.grid = some g)
    (hend : g.ending = none) (hrec : recordAt s g.vf q.queue = .ok pa) :
    spawnedLaunch k s = spawnFrom (spawnTaken s k) s q g pa := by
  unfold spawnedLaunch spawnTaken
  rw [hk]
  dsimp only
  rw [hg]
  dsimp only
  rw [hend, hrec, List.eraseIdx_eq_take_drop_succ]

/-- A queue with an error launches nothing. -/
theorem spawnFrom_failed {s s0 : State} {q : SpawnReq} {g : Grid} {pa : Nat} (h : qErr s pa ≠ 0) :
    spawnFrom s s0 q g pa = forgetRefusals s (.spawn q) := by
  unfold spawnFrom
  extract_lets gn queue who n lrec t
  exact if_pos (.inr (.inl h))

/-- A queue whose launch is due is held back by none of R51. -/
theorem not_heldBack {s : State} {q : SpawnReq} {pa : Nat} (herr : qErr s pa = 0) (hdue : SpawnDue s q pa) :
    ¬ (ixSub (qTail s pa) (qLnch s pa) = 0 ∨ qErr s pa ≠ 0 ∨ (q.atEnd = false ∧ ixSub (qTail s pa) (qLnch s pa) < qThresh s pa)) := by
  obtain ⟨hsome, hthresh⟩ := hdue
  rintro (hnone | herr' | ⟨hend, hlt⟩)
  · exact hsome hnone
  · exact herr' herr
  · rcases hthresh with hend' | hle
    · rw [hend] at hend'; cases hend'
    · omega

/-- A template that is not aligned is refused (R54). -/
theorem spawnFrom_misaligned {s s0 : State} {q : SpawnReq} {g : Grid} {pa : Nat} (herr : qErr s pa = 0) (hdue : SpawnDue s q pa)
    (h : qField s pa 0 8 % 64 ≠ 0) : spawnFrom s s0 q g pa = spawnRefused (forgetRefusals s (.spawn q)) g.part pa 0x10 := by
  unfold spawnFrom
  extract_lets gn queue who n lrec t
  exact (if_neg (not_heldBack herr hdue)).trans (if_pos h)

/-- The batch of a queue's launch. -/
def spawnBatch (s : State) (q : SpawnReq) (pa : Nat) : Batch :=
  ⟨q.queue, (qBase s pa + 16 * (qLnch s pa % max (qCap s pa) 1)) % 2 ^ 64, ixSub (qTail s pa) (qLnch s pa)⟩
/-- The record of a queue's launch: its template over the entries to launch. -/
def spawnRec (s : State) (pa : Nat) (r : LRec) : LRec :=
  { r with gx := ceilDiv (ixSub (qTail s pa) (qLnch s pa)) (max r.wx 1), gy := 1, gz := 1 }
/-- The state in which an accepted batch is known. -/
def spawnQueued (s u : State) (q : SpawnReq) (g : Grid) (pa : Nat) : State :=
  { forgetRefusals u (.spawn q) with
    batches := u.batches ++ [⟨g.vf, ⟨q.queue, (qLnch s pa + ixSub (qTail s pa) (qLnch s pa)) % 2 ^ 32,
      ixSub (qTail s pa) (qLnch s pa)⟩, s.nextGrid, false⟩] }
/-- What follows on the verdict of a spawned launch: its error, a wait for a page, or a batch. -/
def spawnDecided (s s0 : State) (q : SpawnReq) (g : Grid) (pa : Nat) : Verdict → State
  | .refuse c => spawnRefused (forgetRefusals s (.spawn q)) g.part pa c
  | .wait f => deviceMiss s0 (.spawn q) g.part g.vf f
  | .accept u => spawnMade (spawnQueued s u q g pa) g.part pa

/-- A template that may be launched is judged (R51). -/
theorem spawnFrom_judged {s s0 : State} {pa : Nat} {q : SpawnReq} {g : Grid} {bs : List Byte} (herr : qErr s pa = 0)
    (hdue : SpawnDue s q pa) (halign : qField s pa 0 8 % 64 = 0) (hload : loadAt s0 (.spawn q) g.vf (qField s pa 0 8) 64 = .ok bs)
    (hwy : (parseRec (leNat bs)).wy = 1) (hwz : (parseRec (leNat bs)).wz = 1) (hclw : (parseRec (leNat bs)).clw = 0)
    (hcoop : (parseRec (leNat bs)).coop = false) (hpages : s0.refusedPages = s.refusedPages) :
    spawnFrom s s0 q g pa = spawnDecided s s0 q g pa (judge s (.spawn q) g.vf g.part (some q.grid) (g.depth + 1)
      (w64 (qField s pa 0 8)) false (some (spawnBatch s q pa)) (leNat bs) (spawnRec s pa (parseRec (leNat bs)))) := by
  unfold spawnFrom
  extract_lets gn queue who n lrec t first b
  have hfield : ∀ a n, t.readNat a n = s.readNat a n := readNat_of_mem rfl
  have herr' : qErr t pa = qErr s pa := hfield ..
  have hthresh : qThresh t pa = qThresh s pa := hfield ..
  have hlnch : qLnch t pa = qLnch s pa := hfield ..
  have hb : b = spawnBatch s q pa := by
    unfold b first
    rw [show qBase t pa = qBase s pa from hfield .., hlnch, show qCap t pa = qCap s pa from hfield ..]
    rfl
  rw [herr', hthresh, hlnch, hb]
  refine (if_neg (not_heldBack herr hdue)).trans ((if_neg (not_not.mpr halign)).trans ?_)
  rw [show loadAt s0 who g.vf lrec 64 = .ok bs from hload]
  dsimp -zeta only
  extract_lets raw r r'
  have hplain : ¬ (r.wy ≠ 1 ∨ r.wz ≠ 1 ∨ r.clw ≠ 0 ∨ r.coop = true) := by
    rintro (h | h | h | h)
    · exact h hwy
    · exact h hwz
    · exact h hclw
    · exact absurd (hcoop.symm.trans h) (by decide)
  have ht : { t with refusedPages := s0.refusedPages } = s := by rw [hpages]; rfl
  have hrec : r' = spawnRec s pa (parseRec (leNat bs)) := rfl
  rw [if_neg hplain, ht, hrec]
  have hjudge : judge s who g.vf g.part (some gn) (g.depth + 1) (w64 lrec) false (some (spawnBatch s q pa)) raw
      (spawnRec s pa (parseRec (leNat bs))) = judge s (.spawn q) g.vf g.part (some q.grid) (g.depth + 1)
      (w64 (qField s pa 0 8)) false (some (spawnBatch s q pa)) (leNat bs) (spawnRec s pa (parseRec (leNat bs))) := rfl
  rw [hjudge]
  generalize judge s (.spawn q) g.vf g.part _ _ _ _ _ _ _ = verdict
  cases verdict <;> rfl

theorem readNat_lt (s : State) (a n : Nat) : s.readNat a n < 256 ^ n := by
  have h := leNat_lt (s.readBytes a n)
  rwa [State.readBytes, List.length_map, List.length_range] at h

/-- A launch made: LNCH stands at TAIL (R51). -/
theorem spawnMade_made {s : State} (part pa : Nat) (hu : Untracked s) :
    DeviceWrote s (spawnMade s part pa) ∧ qLnch (spawnMade s part pa) pa = qTail (spawnMade s part pa) pa := by
  unfold spawnMade
  extract_lets t
  have hw1 : DeviceWrote s t := deviceWrote_engineWrite ..
  have hr1 : WroteRun s t (pa + 28) (leBytes 4 (qTail s pa)) := wroteRun_engineWrite_device ..
  have hw2 := deviceWrote_engineWrite t part (pa + 40) (leBytes 8 ((qField t pa 40 8 + 1) % 2 ^ 64))
  have hr2 := wroteRun_engineWrite_device t part (pa + 40) (leBytes 8 ((qField t pa 40 8 + 1) % 2 ^ 64))
  have hut := hw1.tracked hu
  clear_value t
  generalize engineWrite t (Asker.device part) (pa + 40) (leBytes 8 ((qField t pa 40 8 + 1) % 2 ^ 64)) = u at *
  have hlnch : u.readNat (pa + 28) 4 = s.readNat (pa + 24) 4 :=
    (hr2.readNat_apart hut (.inl (by omega))).trans (hr1.readNat_field (readNat_lt s (pa + 24) 4))
  have htail : u.readNat (pa + 24) 4 = s.readNat (pa + 24) 4 :=
    (hr2.readNat_apart hut (.inl (by omega))).trans (hr1.readNat_apart hu (.inl (by omega)))
  exact ⟨hw1.trans hw2, hlnch.trans htail.symm⟩

/-- A queue's error recorded (R54). -/
theorem spawnRefused_refused {s : State} (part pa : Nat) {c : Nat} (hc : c < 2 ^ 32) :
    DeviceWrote s (spawnRefused s part pa c) ∧ WroteRun s (spawnRefused s part pa c) (pa + 36) (leBytes 4 c) ∧
      (spawnRefused s part pa c).readNat (pa + 36) 4 = c :=
  ⟨deviceWrote_engineWrite .., wroteRun_engineWrite_device .., (wroteRun_engineWrite_device ..).readNat_field hc⟩

/-- What the verdict on a spawned launch leaves: the launch made, or the error of its queue. -/
theorem spawnDecided_judged {s s0 : State} {q : SpawnReq} {g : Grid} {pa raw c : Nat} {r : LRec} {va : W64} (hu : Untracked s)
    (h : Judged s (.spawn q) g.vf g.part raw r c) :
    let t := spawnDecided s s0 q g pa (judge s (.spawn q) g.vf g.part (some q.grid) (g.depth + 1) va false (some (spawnBatch s q pa)) raw r)
    t.spawns = s.spawns ∧ if c = 0 then qLnch t pa = qTail t pa ∧ ∃ x b, t.grid? s.nextGrid = some x ∧ x.depth = g.depth + 1 ∧
      x.batch = some b ∧ b.count = ixSub (qTail s pa) (qLnch s pa) else t.readNat (pa + 36) 4 = c := by
  intro t
  rcases judge_judged h (some q.grid) (g.depth + 1) va false (some (spawnBatch s q pa)) with ⟨hc, hj⟩ | ⟨rfl, k, w, hw, hj⟩
  · obtain ⟨hne, hlt⟩ := (by decide : ∀ c ∈ [0x10, 0x11, 0x12, 0x14], c ≠ 0 ∧ c < 2 ^ 32) c hc
    have ht : t = spawnRefused (forgetRefusals s (.spawn q)) g.part pa c := by unfold t; rw [hj]; rfl
    obtain ⟨hwrote, -, hcode⟩ := spawnRefused_refused (s := forgetRefusals s (.spawn q)) g.part pa hlt
    rw [ht, if_neg hne]
    exact ⟨hwrote.spawns, hcode⟩
  · generalize hx : newGrid g.vf g.part (some q.grid) (g.depth + 1) va false (some (spawnBatch s q pa)) r k = x at hj
    have ht : t = spawnMade (spawnQueued s (queued w x) q g pa) g.part pa := by unfold t; rw [hj]; rfl
    have huq : Untracked (spawnQueued s (queued w x) q g pa) := hw.tracked hu
    obtain ⟨hwrote, hlnch⟩ := spawnMade_made g.part pa huq
    rw [ht, if_pos rfl]
    refine ⟨hwrote.spawns.trans hw.spawns, hlnch, x, spawnBatch s q pa, ?_, by rw [← hx]; rfl, by rw [← hx]; rfl, rfl⟩
    rw [hwrote.grid?, ← hw.nextGrid]
    exact lookup_put_self ..

theorem spawnDue_taken {s : State} {q : SpawnReq} {pa : Nat} (k : Nat) (h : SpawnDue s q pa) : SpawnDue (spawnTaken s k) q pa := by
  unfold SpawnDue at h ⊢
  rwa [show qTail (spawnTaken s k) pa = qTail s pa from readNat_of_mem rfl .., show qLnch (spawnTaken s k) pa = qLnch s pa from readNat_of_mem rfl ..,
    show qThresh (spawnTaken s k) pa = qThresh s pa from readNat_of_mem rfl ..]

/-- Settles O48: each launch is taken from its list and decided by `acceptRecord` or `spawnFrom`, whose outcomes the lemmas above give. -/
theorem launchesAreDecided : Obligations.LaunchesAreDecided := by
  intro s
  refine ⟨?_, ?_, ?_, ?_, ?_, ?_, ?_⟩
  · intro who vf part va n hb bs hva hn hhead hkind hbody hbad
    exact loadKernel_portable hva hn hhead hkind hbody hbad
  · intro vf size v hvf f fails
    have hdo := fun {t : State} (ht : launchSubmission vf size v s = t) =>
      (runEvent_ok (i := .launchSubmission vf size v) (decide_eq_true hvf) _ s).trans (congrArg _ ht)
    have hfails : ∀ {c}, launchSubmission vf size v s = failSubmission s vf c v → fails c := fun {c} h =>
      does_next (hdo h) (failSubmission_fails s vf c v)
    rw [launchSubmission_eq] at hdo hfails
    have hset : f.resetting = false → ¬ (s.vf vf).resetting = true := fun h => by rw [show (s.vf vf).resetting = false from h]; decide
    refine ⟨fun hreset => hfails (if_pos hreset), fun hreset hsize => hfails ?_, fun hreset hsize hpart => hfails ?_,
      fun hreset hsize hpart halign => hfails ?_, fun hreset hsize hpart halign => ?_⟩
    · rw [if_neg (hset hreset), if_pos hsize]
    · rw [if_neg (hset hreset), if_neg (not_not.mpr hsize), if_pos (Option.isNone_iff_eq_none.mpr hpart)]
    · rw [if_neg (hset hreset), if_neg (not_not.mpr hsize), if_neg (mt Option.isNone_iff_eq_none.mp hpart), if_pos halign]
    · rw [if_neg (hset hreset), if_neg (not_not.mpr hsize), if_neg (mt Option.isNone_iff_eq_none.mp hpart),
        if_neg (not_not.mpr halign)] at hdo hfails
      cases hrec : recordAt s vf v with
      | error e => exact hfails (by rw [hrec])
      | ok p => exact does_next (hdo (by rw [hrec])) rfl
  · intro k vf va code hk hb hr
    exact does_next ((runEvent_ok (i := .launchAcceptance k) rfl _ s).trans (congrArg _ (launchAcceptance_failed hk hb hr)))
      (launchError_fails (launchTaken s k) vf code va)
  · intro k vf va part pa code hk hb hreset hpart hrec
    have hdo := (runEvent_ok (i := .launchAcceptance k) rfl _ s).trans (congrArg _ (launchAcceptance_host hk hb hreset hpart hrec))
    refine ⟨fun hst => ?_, fun hst hj => ?_⟩
    · rw [acceptRecord_active (s := launchTaken s k) hst] at hdo
      obtain ⟨-, -, hcode, -⟩ := launchError_fails (forgetRefusals (launchTaken s k) (.launch (.host vf va))) vf 6 va
      exact does_next hdo ⟨sameMemory_of_mem rfl, rfl, hcode⟩
    · obtain ⟨t, ht, h13, hdec, hacc⟩ := acceptRecord_judged (s0 := s) (va := va) (host := true) none 0
        (show recStatus (launchTaken s k) pa ≠ 1 from hst) hj
      rw [ht, answerLaunch_host h13] at hdo
      refine does_next hdo ⟨hdec.launches, hdec.status, fun h0 => ?_⟩
      obtain ⟨hq, hnext, ker, hg⟩ := hacc h0
      exact ⟨hq, hnext, _, hg, rfl, rfl, rfl, rfl, rfl, rfl, rfl, rfl⟩
  · intro k vf va part pa r s0 s' hk hb hreset hpart hrec hst hr hbad hs0
    have hdo := (runEvent_ok (i := .launchAcceptance k) rfl _ s).trans (congrArg _ (launchAcceptance_host hk hb hreset hpart hrec))
    have hst : recStatus (launchTaken s k) pa ≠ 1 := hst
    subst hr hs0
    refine ⟨fun f hload => ?_, fun ker hload hcoop hfits => ⟨fun hno => ?_, fun s3 hle hplaced => ?_⟩⟩
    · rw [acceptRecord_waits hst (judge_miss hbad hload)] at hdo
      exact does_next hdo (deviceMiss_only ..)
    · obtain ⟨t, ht, hdec, hnext⟩ := acceptRecord_refused (s0 := s) (va := va) hst (by decide) (judge_coop_refused hbad hload hcoop hfits hno)
      rw [ht, answerLaunch_host (by decide)] at hdo
      exact does_next hdo ⟨hdec.status, hnext⟩
    · obtain ⟨t, ht, hdec⟩ := acceptRecord_coop (s0 := s) (va := va) rfl hst hbad hload hcoop hfits hle hplaced
      rw [ht] at hdo
      exact does_next hdo hdec
  · intro k sid id gn va g pa code sh f hk hb hg hend hrec hst hj hsh hf hid hstall
    have hdo := (runEvent_ok (i := .launchAcceptance k) rfl _ s).trans (congrArg _ (launchAcceptance_move hk hb hg hend hrec))
    obtain ⟨t, ht, -, hdec, hacc⟩ := acceptRecord_judged (s0 := s) (va := va) (host := false) (some gn) (g.depth + 1)
      (show recStatus (launchTaken s k) pa ≠ 1 from hst) hj
    obtain ⟨y, hy⟩ := hdec.sheets sid sh hsh
    obtain ⟨z, hz, hland⟩ := answerLaunch_move (c := code) (gn := gn) (id := id) (va := va) hy hf hid hstall
    rw [ht] at hdo
    refine does_next hdo ⟨?_, ?_, ⟨z, hz, hland⟩, fun h0 => ?_⟩
    · exact (State.mapSheet_launches ..).trans hdec.launches
    · exact (readNat_of_mem (State.mapSheet_mem ..) _ _).trans hdec.status
    · obtain ⟨-, -, ker, hc⟩ := hacc h0
      exact ⟨_, (congrArg (lookup · s.nextGrid) (State.mapSheet_grids ..)).trans hc, rfl, rfl⟩
  · intro k q g pa hk hg hend hrec hu
    have hdo := (runEvent_ok (i := .spawnedLaunch k) rfl _ s).trans (congrArg _ (spawnedLaunch_eq hk hg hend hrec))
    have hfield : ∀ a n, (spawnTaken s k).readNat a n = s.readNat a n := readNat_of_mem rfl
    refine ⟨fun herr => ?_, fun herr hdue halign => ?_, fun bs c r herr hdue halign hload hwy hwz hclw hcoop hr hj => ?_⟩
    · rw [spawnFrom_failed (s := spawnTaken s k) ((hfield ..).trans_ne herr)] at hdo
      exact does_next hdo rfl
    · rw [spawnFrom_misaligned ((hfield ..).trans herr) (spawnDue_taken k hdue) ((congrArg (· % 64) (hfield ..)).trans_ne halign)] at hdo
      obtain ⟨hwrote, hrun, -⟩ := spawnRefused_refused (s := forgetRefusals (spawnTaken s k) (.spawn q)) g.part pa (c := 0x10) (by decide)
      exact does_next hdo ⟨hwrote.nextGrid, hwrote.spawns, hrun.from_mem rfl id⟩
    · have hload' : loadAt s (.spawn q) g.vf (qField (spawnTaken s k) pa 0 8) 64 = .ok bs := by
        rw [show qField (spawnTaken s k) pa 0 8 = qField s pa 0 8 from hfield ..]
        exact hload
      have hrec' : spawnRec (spawnTaken s k) pa (parseRec (leNat bs)) = r := by
        unfold spawnRec
        rw [hr, show qTail (spawnTaken s k) pa = qTail s pa from hfield .., show qLnch (spawnTaken s k) pa = qLnch s pa from hfield ..]
      rw [spawnFrom_judged ((hfield ..).trans herr) (spawnDue_taken k hdue) ((congrArg (· % 64) (hfield ..)).trans halign) hload'
        hwy hwz hclw hcoop rfl, hrec'] at hdo
      have hdec := spawnDecided_judged (s := spawnTaken s k) (s0 := s) (pa := pa) (va := w64 (qField (spawnTaken s k) pa 0 8)) hu hj
      refine does_next hdo ⟨hdec.1, ?_⟩
      rw [show qTail (spawnTaken s k) pa = qTail s pa from hfield .., show qLnch (spawnTaken s k) pa = qLnch s pa from hfield ..] at hdec
      exact hdec.2

end Sys2Proof.Machine
end

section
/-! O31: IVSPAWN under CEXTV. The meaning of IVSPAWN reads the registers IREG and TREG at its trigger, and its bundle waits while an
extraction still writes one of them (R244), whether or not a thread is undecided. The statement's clause for an IVSPAWN without an undecided
thread does not ask that no extraction is under way. -/

namespace Sys2Proof.Machine

/-- A move of IVSPAWN whose operands are 0: the header's address, IREG, TREG and PRED. -/
def spawnZero : Head := ⟨.always, 0x0FE, false⟩
/-- The move that triggers it. -/
def spawnZeroMove : Move := ((Instr.ivspawn spawnZero).move).getD Move.empty
/-- CEXTV of the runner's sheet under way, which writes the vector register 0. -/
def extraction : Cmd :=
  { num := 0, sid := 0, wg := 0, unit := .cfe, op := .cextv spawnZero, flight := 0, trig := 0, x0 := 0, x1 := 0, shape := [], regs := [],
    fmts := [], tile := 0, reads := [.limb 0 1], writes := [.vreg 0 0], phase := .started, start := 0, outs := [], value := 0, cause := .none,
    info := 0, canc := false, at_ := 0, baddr := 0, slot := 0, ovf := false, used := false, paid := 0, wrote := 0, ended := 0 }
/-- The runner's sheet, 5 in `sys.q`, with an extraction under way. -/
def extracting : State :=
  ((State.reset.placeRunner []).mapSheet 0 (fun sh => sh.setQ .sys 0 0 5)).mapCore 0 (fun k => { k with cmds := [(0, extraction)] })
/-- The sheet. -/
def extractingSheet : Sheet := runnerSheet.setQ .sys 0 0 5

theorem extracting_sheet : extracting.sheet? extracting.focus = some extractingSheet := by decide +kernel

/-- The stage is free and the move legal: only what IVSPAWN reads holds it. -/
theorem extracting_canIssue : CanIssue extracting extractingSheet spawnZeroMove .sys where
  here := extracting_sheet
  opens := by decide +kernel
  whole := by decide +kernel
  slot := by decide +kernel
  form := by decide +kernel
  left := by decide +kernel
  clean := by decide +kernel
  quiet := by decide +kernel
  unit := by decide +kernel
  legal := by decide +kernel
  free := by decide +kernel

theorem extracting_drained : Drained extracting extractingSheet := by unfold Drained; decide +kernel

/-- IVSPAWN waits for the extraction: `sys.q` holds what it held. -/
theorem exec_ivspawn_extracting : ∃ t, exec (.ivspawn spawnZero) extracting = .next t ∧
    (t.sheet? extracting.focus).map (Sheet.getQ · .sys 0 0) = some 5 := ⟨_, rfl, by decide +kernel⟩

/-- Refutes O31: an IVSPAWN without an undecided thread whose IREG an extraction still writes waits (R244), and 0 does not land in
`sys.q`; the statement's third clause does not ask that IREG and TREG are at rest. -/
theorem not_launchingOperations : ¬ Obligations.LaunchingOperations := by
  unfold Obligations.LaunchingOperations
  intro h
  obtain ⟨-, -, hempty, -⟩ := h spawnZero ⟨0, 0⟩ []
  obtain ⟨t, y, ht, hy, -, hlands⟩ := hempty extracting extractingSheet spawnZeroMove rfl extracting_canIssue (by decide +kernel)
    (by unfold opRuns; decide +kernel)
    ⟨by decide +kernel, by decide +kernel, by decide +kernel, by decide +kernel, extracting_drained⟩
  obtain ⟨t', ht', hlatch⟩ := exec_ivspawn_extracting
  obtain rfl : t = t' := Host.Outcome.next.inj (ht.symm.trans ht')
  rw [hy, Option.map_some, hlands fun f hf => absurd hf List.not_mem_nil] at hlatch
  exact absurd (Option.some.inj hlatch) (by decide)

end Sys2Proof.Machine
end

section
/-! O36 and O35: an operation alone where a bundle of its sheet is under way. What an earlier pass of that bundle has read in slot 0 of a
uniform move stands in for the operation's own move (R71, R72), and neither statement asks that no bundle of the sheet is under way. -/

namespace Sys2Proof.Machine

/-- The runner's sheet with a bundle under way that has read a uniform move in slot 0. -/
def movedUnderWay (m : SavedMove) : State :=
  (State.reset.placeRunner []).mapSheet 0 (fun sh => { sh with issuing := some ⟨uniformAdd, [], [m]⟩ })

/-- A uniform move that has read 5 for the uniform register 0. -/
def registerMove : SavedMove := ⟨0, ⟨0, 0, 0x080, 0x0FE, 0, 0, true⟩, 1, [5]⟩

/-- The operation's bundle performs the write of the move that stands in for it. -/
theorem exec_uniformAdd_writes_register : ∃ t, exec uniformAdd (movedUnderWay registerMove) = .next t ∧
    (t.sheet? 0).map (·.s) = some [(0, 5)] := ⟨_, rfl, by decide +kernel⟩

/-- Refutes O36: ADD on SAL issues while its sheet has a bundle under way that has read a move of 5 to the uniform register 0 in slot 0;
the register holds 5 afterwards. -/
theorem not_operationsKeepRegisters : ¬ Obligations.OperationsKeepRegisters := by
  unfold Obligations.OperationsKeepRegisters
  intro h
  obtain ⟨t, ht, hwrote⟩ := exec_uniformAdd_writes_register
  obtain ⟨hsheets, -⟩ := h uniformAdd _ _ t rfl ht
  have hbefore : ((movedUnderWay registerMove).sheet? 0).map (·.s) = some [] := by decide +kernel
  obtain ⟨x, hx, hx0⟩ := Option.map_eq_some_iff.mp hbefore
  obtain ⟨y, hy, -, hs, -⟩ := hsheets 0 x hx
  rw [hy, Option.map_some, hs, hx0] at hwrote
  exact absurd (Option.some.inj hwrote) (by decide)

/-- The move of ADD on SAL. -/
def uniformAddMove : Move := (uniformAdd.move).getD Move.empty
/-- A uniform trigger of SUB on SAL that has read 5. -/
def subtraction : SavedMove := ⟨0, ((Instr.sub .sal ⟨.always, 0x0FE, false⟩ ⟨false, false⟩).move).getD Move.empty, 1, [5]⟩
/-- The values on their way to latches of the runner's sheet. -/
def valuesOnTheWay (o : Host.Outcome State Fault Refusal) : List (Option W64) :=
  match o with
  | .next t => ((t.sheet? 0).map (fun sh => sh.flights.map (·.q))).getD []
  | _ => []

/-- The operation's own row gives the trigger that stands in for it the meaning of ADD: 0 + 5. -/
theorem exec_uniformAdd_adds : valuesOnTheWay (exec uniformAdd (movedUnderWay subtraction)) = [some 5] := by decide +kernel
/-- The bundle decodes that trigger, and subtracts: 0 - 5. -/
theorem exec_bundle_subtracts : valuesOnTheWay (exec (.bundleIssue (oneMove uniformAddMove))
    (movedUnderWay subtraction)) = [some (-5)] := by decide +kernel

/-- Refutes O35: where a bundle under way has read a trigger of SUB in slot 0, the row of ADD adds and the bundle that holds ADD alone
subtracts. -/
theorem not_bundleOfOneOperation : ¬ Obligations.BundleOfOneOperation := by
  unfold Obligations.BundleOfOneOperation
  intro h
  have hbundle := exec_bundle_subtracts
  rw [h uniformAdd uniformAddMove _ rfl rfl, exec_uniformAdd_adds] at hbundle
  exact absurd hbundle (by decide)

end Sys2Proof.Machine
end

section
/-! O38 and O33: registers of a workgroup that two contexts write in one cycle (R86). Of two such writes the lower context's takes effect;
the statements give the value of the other one. -/

namespace Sys2Proof.Machine

/-! ## A bank format register (R180) -/

/-- A sheet at context 1 of core 0 whose write of 3 to the format register of A bank 0 waits; context 0 has written 0 to the
register in this cycle, cycle 0. -/
def bankTwice : State :=
  { State.reset with
    sheets := [(1, { runnerSheet with sys := .csr ⟨0x100, 3, 0, 0⟩ })]
    wgs := [(0, { runnerWg with banks := [(bankKey true 0, ⟨0, 0, 0, 0, []⟩)] })] }

/-- The write of the higher context is lost: the register reads 0. -/
theorem exec_bankFormatWrite_lost : ∃ t, exec (.bankFormatWrite 1) bankTwice = .next t ∧
    (t.wg? 0).map (bankRead · true 0) = some 0 := ⟨_, rfl, by decide +kernel⟩

/-- Refutes O38: a waiting write of a bank format register is lost to one of the same cycle by a lower context (R86). -/
theorem not_resultsLand : ¬ Obligations.ResultsLand := by
  unfold Obligations.ResultsLand
  intro h
  obtain ⟨t, ht, hlost⟩ := exec_bankFormatWrite_lost
  obtain ⟨-, -, -, hbank⟩ := h bankTwice 1 _ (by decide) rfl
  obtain ⟨t', ht', -, ⟨g, hg, hread, -⟩, -⟩ := hbank ⟨0x100, 3, 0, 0⟩ _ true 0 rfl rfl (by decide) (by decide +kernel) (by decide +kernel)
  obtain rfl : t = t' := Host.Outcome.next.inj (ht.symm.trans ht')
  rw [show t.wg? 0 = some g from hg, Option.map_some, hread] at hlost
  exact absurd (Option.some.inj hlost) (by decide)

/-! ## A workgroup register (R86) -/

/-- The move of 5 into the workgroup register 0. -/
def moveToW : Move := ⟨0, 0, 0x0C0, 0x205, 0, 0, false⟩
/-- A sheet of 16 threads at context 1 of core 0. -/
def narrowSheet : Sheet := Sheet.fresh 0 0 16 (w64 runnerPc) (Mask.firstN 16)
/-- The sheet at cycle 940; context 0 has written 0 to the workgroup register 0 in cycle 0. -/
def narrowState : State :=
  { State.reset with
    ts := 1000, focus := 1, sheets := [(1, narrowSheet)], grids := [(0, runnerGrid)]
    wgs := [(0, { runnerWg with w := [(0, ⟨0, 0, 0, 0, []⟩)] })] }

theorem narrow_canIssueMoves : CanIssueMoves narrowState narrowSheet (oneMove moveToW) where
  here := rfl
  opens := by decide +kernel
  whole := rfl
  slot := by decide +kernel
  form := by decide +kernel
  left := by decide +kernel
  clean := rfl
  quiet := rfl
  legal e he := by
    obtain rfl := List.mem_singleton.mp (liveSlots_one moveToW (by decide) ▸ he)
    exact ⟨by decide +kernel, fun u => by rw [show Dst.ofCode moveToW.dst.toNat = some (.w 0) from rfl]; nofun⟩
  apart e he e' he' hne := by
    obtain rfl := List.mem_singleton.mp (liveSlots_one moveToW (by decide) ▸ he)
    obtain rfl := List.mem_singleton.mp (liveSlots_one moveToW (by decide) ▸ he')
    exact absurd rfl hne
  free := by decide +kernel

/-- A sheet of fewer than 32 threads has no pass (R30): its bundle writes at cycle 0, and loses to context 0. -/
theorem exec_moveToW_lost : ∃ t, exec (.bundleIssue (oneMove moveToW)) narrowState = .next t ∧
    (t.wg? 0).map (fun w => (lookup w.w 0).map (·.val)) = some (some 0) := ⟨_, rfl, by decide +kernel⟩

/-- Refutes O33: the bundle of a sheet of 16 threads, whose passes are 16 / 32 = 0, writes its workgroup register at cycle 0, where the
write is lost to one that a lower context made at cycle 0, long before the present cycle. -/
theorem not_bundleOfMoves : ¬ Obligations.BundleOfMoves := by
  unfold Obligations.BundleOfMoves
  intro h
  obtain ⟨t, y, ht, -, -, -, -, -, -, -, -, -, -, huni, -⟩ := h _ _ _ narrow_canIssueMoves
  obtain ⟨t', ht', hlost⟩ := exec_moveToW_lost
  obtain rfl : t = t' := Host.Outcome.next.inj (ht.symm.trans ht')
  obtain ⟨-, -, -, -, -, hreg⟩ := huni (0, moveToW) (by rw [liveSlots_one moveToW (by decide)]; exact List.mem_singleton_self _)
    (.imm 5) 0 (by decide) (by decide) (by decide +kernel)
  obtain ⟨w', hw', hval⟩ := hreg 0 _ (by decide) rfl
  rw [if_pos (by decide)] at hval
  have hfive := hval fun x hx => by
    obtain rfl := Option.some.inj hx
    decide +kernel
  rw [show t.wg? 0 = some w' from hw', Option.map_some, hfive] at hlost
  exact absurd (Option.some.inj (Option.some.inj hlost)) (by decide)

end Sys2Proof.Machine
end

section
/-! Transfers of control (R76 to R83, R283, R379 to R381, R403, R425, R432, R467): what one finds as its bundle is done, and where its sheet
goes then. -/

namespace Sys2Proof.Machine

/-! ## The sheet past its bundle -/

/-- The sheet in focus as a transfer of control finds it: counted, and moved past the bundle. -/
def PastBundle (s : State) (sh : Sheet) (m : Move) (y : Sheet) : Prop :=
  ∃ i d n, y = ((opSheet s sh m).counted i d n sh.pc).past m sh.pc

section
variable {s : State} {sh y : Sheet} {m : Move}

theorem CanIssue.noSkip {u : FUnit} (h : CanIssue s sh m u) : sh.skip = 0 := by
  have hmay := h.mayIssue
  unfold Sheet.mayIssue at hmay
  simp only [Bool.and_eq_true, beq_iff_eq] at hmay
  exact hmay.1.1.1.2

theorem PastBundle.past (h : PastBundle s sh m y) : Past sh y := by
  obtain ⟨i, d, n, rfl⟩ := h
  obtain ⟨p, nest, hy⟩ := past_frame ((opSheet s sh m).counted i d n sh.pc) m sh.pc
  obtain ⟨-, -, -, -, hmask, hgone, hv, hs, hp, hent, -, hskip, -, hqueue, hfpsr, hfpcr, hid, -, hstack, hrcv⟩ := opSheet_fields s sh m
  rw [hy]
  exact ⟨hv, hs, hp, hent, hstack, hmask, hgone, hrcv, hqueue, hfpsr, hfpcr, rfl, rfl, hskip, hid⟩

theorem PastBundle.width (h : PastBundle s sh m y) : y.width = sh.width := by
  obtain ⟨i, d, n, rfl⟩ := h
  obtain ⟨p, nest, hy⟩ := past_frame ((opSheet s sh m).counted i d n sh.pc) m sh.pc
  obtain ⟨-, -, hwidth, -⟩ := opSheet_fields s sh m
  rw [hy]
  exact hwidth

theorem PastBundle.ready (h : PastBundle s sh m y) : y.readySince = y.nextIssue := by
  obtain ⟨i, d, n, rfl⟩ := h
  obtain ⟨p, nest, hy⟩ := past_frame ((opSheet s sh m).counted i d n sh.pc) m sh.pc
  rw [hy]
  rfl

theorem opSheet_nest (s : State) (sh : Sheet) (m : Move) : (opSheet s sh m).nest = sh.nest := by
  obtain ⟨-, -, -, -, -, -, -, -, -, -, hnest, -⟩ := opSheet_fields s sh m
  exact hnest

/-- What moving past a bundle does to the path, by the nest that runs (R83). -/
theorem PastBundle.eq_advance (h : PastBundle s sh m y) : ∃ z : Sheet, z.nest = sh.nest ∧ y = z.advance (.bundleIssue (oneMove m)) sh.pc 16 := by
  obtain ⟨i, d, n, rfl⟩ := h
  exact ⟨((opSheet s sh m).counted i d n sh.pc).returnFrom, opSheet_nest s sh m, rfl⟩

theorem PastBundle.straight (h : PastBundle s sh m y) (hn : sh.nest = none) : y.pc = sh.pc + 16 ∧ y.nest = none := by
  obtain ⟨z, hz, rfl⟩ := h.eq_advance
  unfold Sheet.advance
  rw [hz, hn]
  exact ⟨rfl, rfl⟩

/-- Past the last bundle of its body a nest has ended, or begins the body again. -/
theorem PastBundle.bodyEnd (h : PastBundle s sh m y) {n : Nest} (hn : sh.nest = some n) (hpos : n.pos + 1 = n.len) :
    (y.nest = none ∧ y.pc = sh.pc + 16) ∨ ∃ n', y.nest = some n' ∧ n'.pos = 0 := by
  obtain ⟨z, hz, rfl⟩ := h.eq_advance
  unfold Sheet.advance
  rw [hz, hn]
  dsimp only
  rw [if_neg (by omega)]
  cases nextIx n.counts n.ix with
  | none => exact .inl ⟨rfl, rfl⟩
  | some ix => exact .inr ⟨_, rfl, rfl⟩

/-- Within a body whose bundles have all been fetched the nest goes on to the next. -/
theorem PastBundle.inBody (h : PastBundle s sh m y) {n : Nest} (hn : sh.nest = some n) (hpos : n.pos + 1 < n.len) (hbuf : n.buf.length = n.len) :
    y.nest = some { n with pos := n.pos + 1 } := by
  obtain ⟨z, hz, rfl⟩ := h.eq_advance
  unfold Sheet.advance
  rw [hz, hn]
  dsimp only
  rw [if_pos hpos, if_pos (by omega)]

/-! ## After the transfer -/

theorem completeBar_sheets (s : State) (wg : Nat) (l : BarLevel) (n : Nat) : (completeBar s wg l n).sheets = s.sheets := by
  unfold completeBar setBar
  split
  · split
    · rfl
    · split
      · exact State.mapGrid_sheets ..
      · exact State.mapGrid_sheets ..
      · rfl
  · rfl

/-- A sheet that leaves its barriers changes none. -/
theorem leaveBarriers_sheet? (s : State) (sid k : Nat) : (leaveBarriers s sid).sheet? k = s.sheet? k := by
  have hlevel : ∀ (wg : Nat) (l : BarLevel) (s : State),
      ((List.range (levelCount l)).foldl (fun s n => completeBar s wg l n) s).sheets = s.sheets := fun wg l s =>
    foldl_keeps (fun s n => completeBar_sheets s wg l n) _ s
  unfold State.sheet? leaveBarriers
  split
  · rfl
  · split
    · dsimp only
      rw [hlevel, hlevel, hlevel]
    · rfl

theorem takeCause_sheet? {s : State} {sid : Nat} {sh : Sheet} (h : s.sheet? sid = some sh) (t : Trap) :
    (s.takeCause sid t).sheet? sid = some { sh with trap := some t, park := .raised } := by
  unfold State.takeCause
  rw [h]
  exact (congrArg (lookup · sid) (State.event_sheets ..)).trans (State.sheet?_setSheet ..)

theorem clearPoison_sheets (s : State) (core vf : Nat) (va : W64) : (clearPoison s core vf va).sheets = s.sheets := by
  unfold clearPoison
  dsimp only
  split <;> rfl

/-- The bundles of a skipped body pass without a nest, and no thread goes (R83). -/
theorem skipBody_keeps : ∀ (n : Nat) {s : State} {sid : Nat} {sh : Sheet}, s.sheet? sid = some sh →
    ∃ z, (skipBody n s sid).sheet? sid = some z ∧ z.nest = sh.nest ∧ z.gone = sh.gone
  | 0, _, _, _, h => ⟨_, h, rfl, rfl⟩
  | n + 1, s, sid, sh, h => by
    unfold skipBody
    rw [h]
    dsimp only
    split
    · exact ⟨_, h, rfl, rfl⟩
    · split
      · refine ⟨_, takeCause_sheet? (sh := sh) ?_ _, rfl, rfl⟩
        split
        · exact (congrArg (lookup · sid) (clearPoison_sheets ..)).trans h
        · exact h
      · obtain ⟨z, hz, hkeeps⟩ := skipBody_keeps n (State.sheet?_setSheet s sid _)
        exact ⟨z, hz, hkeeps⟩

theorem arriveAfter_keeps {s : State} {sid : Nat} {sh : Sheet} (h : s.sheet? sid = some sh) :
    ∃ z, (arriveAfter s sid).sheet? sid = some z ∧ z.nest = sh.nest ∧ z.gone = sh.gone := by
  obtain ⟨z, hz, hnest, hgone⟩ := skipBody_keeps 16 h
  obtain ⟨pc, k, r, st, ha⟩ := arrive_frame z
  refine ⟨z.arrive, ?_, by rw [ha]; exact hnest, by rw [ha]; exact hgone⟩
  unfold arriveAfter
  rw [leaveBarriers_sheet?, State.sheet?_mapSheet, hz]
  rfl

end

/-! ## A transfer of control alone -/

/-- The state as a transfer of control has acted. -/
def transferred (s : State) (sh : Sheet) (m : Move) (c : SMap Core) (p : SMap Part) (a : List Instr) (y : Sheet) : State :=
  (opBegun s sh m).drew.issued s.focus y c p a

theorem transferred_sheet? (s : State) (sh : Sheet) (m : Move) (c : SMap Core) (p : SMap Part) (a : List Instr) (y : Sheet) :
    (transferred s sh m c p a y).sheet? s.focus = some y := issued_sheet?_same ..

theorem transferred_readByte (s : State) (sh : Sheet) (m : Move) (c : SMap Core) (p : SMap Part) (a : List Instr) (y : Sheet) (k : Nat) :
    (transferred s sh m c p a y).readByte k = s.readByte k := by
  obtain ⟨l, hl⟩ := opBegun_rest s sh m
  unfold transferred
  rw [hl]
  rfl

section
variable {s : State} {sh : Sheet} {i : Instr} {m : Move} {check : TrigCtx → List (Nat × Flt)} {f : TrigCtx → Sheet → Sheet}

/-- A transfer of control that raises nothing acts on the sheet past its bundle; then a skipped body passes and the path may arrive. -/
theorem runOp_control (hi : i.move = some m) (h : CanIssue s sh m .bru) (hr : opRuns s sh m)
    (hc : ∀ e d, check { opCtx s sh m .bru with engines := e, droop0 := d } = []) : ∃ y c p a, PastBundle s sh m y ∧
      runOp i (controlOp check f) s = .next (arriveAfter (transferred s sh m c p a (f (opCtx s sh m .bru) y)) s.focus) := by
  obtain ⟨-, -, -, hpc, -, -, -, -, -, -, -, -, -, -, -, -, -, harm, -⟩ := opSheet_fields s sh m
  have hexec : ¬ (opMove s sh m).exec = 0 := hr
  have heff : opEffect s sh m .bru (controlOp check f) = (opBegun s sh m).drew := by
    unfold opEffect
    simp only [show (controlOp check f).control = true from rfl, or_true, if_true, hexec, if_false]
    exact List.foldl_fixed _
  obtain ⟨k, d, n, x, l, p, a, hset⟩ := settleIssue_frame (s0 := opBegun s sh m) (s := (opBegun s sh m).drew) (opBegun_sheet? s sh m)
    (harm.trans h.quiet) (harm.trans h.quiet) (opInfo' s sh m) [opMove s sh m] [opMove s sh m] (opTimes s sh m).1 (opTimes s sh m).2 [0]
  generalize setD (opBegun s sh m).drew.cores Core.reset _ _ = c at hset
  refine ⟨_, c, p, a, ⟨k, d, n, rfl⟩, ?_⟩
  rw [runOp_ok hi h rfl (fun _ => rfl) (fun _ => rfl) (fun _ => ⟨hc _ _, hc 0 0⟩), heff]
  unfold opTail
  dsimp only
  rw [hset, mapSheet_of (issued_sheet?_same ..), issued_setSheet, if_pos ⟨hexec, rfl⟩, hpc,
    show (opInfo' s sh m).pc = sh.pc from hpc, funext (loopSkip_runs hexec)]
  change Host.Outcome.next (arriveAfter ((((State.issued _ _ _ _ _ _).mapSheet s.focus (f (opCtx s sh m .bru))).mapSheet s.focus _)) s.focus) = _
  rw [mapSheet_of (issued_sheet?_same ..), issued_setSheet, mapSheet_of (issued_sheet?_same ..), issued_setSheet]
  rfl

/-- What a transfer of control leaves of a sheet that stays with threads and skips no body. -/
def Stays (y z : Sheet) : Prop := z.skip = y.skip ∧ z.width = y.width ∧ z.gone = y.gone

/-- A transfer of control that goes where it should. -/
theorem transfers_of {past : Sheet → Sheet → Prop} {legal : State → Sheet → Move → Prop} {go : State → Sheet → Move → Sheet → Sheet}
    (hexec : exec i = runOp i (controlOp check f))
    (hc : ∀ s sh m, CanIssue s sh m .bru → legal s sh m → ∀ e d, check { opCtx s sh m .bru with engines := e, droop0 := d } = [])
    (hpast : ∀ s sh m y, legal s sh m → PastBundle s sh m y → past sh y)
    (hgo : ∀ s sh m y, legal s sh m → PastBundle s sh m y → f (opCtx s sh m .bru) y = go s sh m y ∧ Stays y (go s sh m y)) :
    Transfers i past legal go := by
  intro s sh m hi h hr hl
  obtain ⟨y, c, p, a, hy, hrun⟩ := runOp_control (f := f) hi h hr (hc s sh m h hl)
  obtain ⟨hf, hskip, hwidth, hgone⟩ := hgo s sh m y hl hy
  obtain ⟨-, -, -, -, -, -, hgone', -, -, -, -, -, -, hskip', -⟩ := hy.past
  have hleft : (go s sh m y).left = false :=
    (left_of_fields (hwidth.trans hy.width) (hgone.trans hgone')).trans h.left
  rw [hf, arriveAfter_plain (transferred_sheet? ..) (hskip.trans (hskip'.trans h.noSkip)) hleft] at hrun
  refine ⟨_, y, (congrFun hexec s).trans hrun, hy.past, hpast s sh m y hl hy, State.sheet?_setSheet .., fun b => ?_⟩
  exact transferred_readByte s sh m c p a (go s sh m y) b

end

end Sys2Proof.Machine
end

section
/-! O20: branches by the codes of a predicate (R76, R78, R381). `PathsFrom` and `predFaults_nil` say once what a predicate branch finds. -/

namespace Sys2Proof.Machine

section
variable {s : State} {sh y : Sheet} {m : Move}

/-! ## What a branch reads (R379, R381) -/

theorem opCtx_kernel (s : State) (sh : Sheet) (m : Move) : (opCtx s sh m .bru).kernel = s.kernelOf sh := opBegun_kernelOf ..
theorem opCtx_target (s : State) (sh : Sheet) (m : Move) (off : W64) : (opCtx s sh m .bru).target off = codeAt s sh off :=
  congrArg (fun k : Kernel => BitVec.ofNat 64 k.base + off) (opCtx_kernel s sh m)
theorem opCtx_bpc (s : State) (sh : Sheet) (m : Move) : (opCtx s sh m .bru).bpc = sh.pc := by
  obtain ⟨-, -, -, hpc, -⟩ := opSheet_fields s sh m
  exact hpc
theorem opCtx_next (s : State) (sh : Sheet) (m : Move) : (opCtx s sh m .bru).next = sh.pc + 16 :=
  congrArg (· + 16) (opCtx_bpc s sh m)
theorem opCtx_x (s : State) (sh : Sheet) (m : Move) (p t : Nat) : (opCtx s sh m .bru).x p t = sh.getX .bru p 0 := by
  obtain ⟨-, -, -, -, -, -, -, -, -, hent, -⟩ := opSheet_fields s sh m
  exact congrArg (getD · 0 _) hent
theorem opCtx_active (s : State) (sh : Sheet) (m : Move) : (opCtx s sh m .bru).sh.active = sh.active := by
  obtain ⟨-, -, -, -, hmask, hgone, -⟩ := opSheet_fields s sh m
  exact congrArg₂ (fun a b : Mask => a &&& ~~~b) hmask hgone
theorem opCtx_stack (s : State) (sh : Sheet) (m : Move) : (opCtx s sh m .bru).sh.stack = sh.stack := by
  obtain ⟨-, -, -, -, -, -, -, -, -, -, -, -, -, -, -, -, -, -, hstack, -⟩ := opSheet_fields s sh m
  exact hstack

theorem triOf_eq_min (p : BitVec 2) : triOf p = min p.toNat 2 := by
  have := p.isLt
  unfold triOf
  split <;> omega
theorem opCtx_code (s : State) (sh : Sheet) (m : Move) (t : Nat) : (opCtx s sh m .bru).code t = branchCode sh t := by
  obtain ⟨-, -, -, -, -, -, -, -, hp, -⟩ := opSheet_fields s sh m
  unfold TrigCtx.code branchCode Sheet.getP
  rw [opCtx_x, triOf_eq_min, show (opCtx s sh m .bru).p0 = sh.p from hp]
theorem branchCode_le (sh : Sheet) (t : Nat) : branchCode sh t ≤ 2 := Nat.min_le_right ..

/-- The threads of a path by the codes that take it. -/
theorem opCtx_codeMask (s : State) (sh : Sheet) (m : Move) {p : Nat → Bool} {l : List Nat} (h : ∀ c ≤ 2, p c = l.contains c) :
    (opCtx s sh m .bru).codeMask p = codeThreads sh l := by
  unfold TrigCtx.codeMask codeThreads
  refine congrArg Mask.ofFn (funext fun t => ?_)
  rw [opCtx_active, opCtx_code, h _ (branchCode_le sh t)]

theorem taken_iff (r : ERule) : ∀ c ≤ 2, ERule.taken r c = (takenCodes r).contains c := by cases r <;> decide
theorem not_taken_iff (r : ERule) : ∀ c ≤ 2, (!ERule.taken r c) = (otherCodes r).contains c := by cases r <;> decide

/-! ## Faults (R80, R380, R381) -/

theorem offsetFaults_pass (s : State) (sh : Sheet) (m : Move) {off : W64} (h : OffsetOk s sh off) :
    ∀ p ∈ offsetFaults (opCtx s sh m .bru) off, p.1 = false := by
  obtain ⟨hsize, halign, hlow, hhigh⟩ := h
  unfold offsetFaults
  rw [opCtx_kernel]
  simp only [List.forall_mem_cons, List.not_mem_nil, false_implies, implies_true, and_true, decide_eq_false_iff_not, bne_eq_false_iff_eq]
  exact ⟨by omega, halign, by omega⟩

theorem length_paths (l : List (W64 × Mask)) :
    (paths l).length = ((l.map (fun e => ((0 : W64), e.2))).filter (fun e => e.2 != 0)).length := by
  rw [List.filter_map, List.length_map]
  rfl

/-- A predicate branch under the conditions of R381 raises nothing. -/
theorem predFaults_nil {offs : List W64} {ux : Bool} {l : List (W64 × Mask)}
    (h : BranchOk s sh offs ux (l.map (fun e => (0, e.2)))) : predFaults (opCtx s sh m .bru) offs ux (paths l) = [] := by
  obtain ⟨hpred, hoffs, hdecided, hroom⟩ := h
  have hfault : firstFault (opCtx s sh m .bru) (offs.flatMap (offsetFaults (opCtx s sh m .bru))) = [] :=
    firstFault_nil fun p hp => by
      obtain ⟨o, ho, hp⟩ := List.mem_flatMap.mp hp
      exact offsetFaults_pass s sh m (hoffs o ho) p hp
  have hundecided : (ux && !((opCtx s sh m .bru).activeThreads.filter (fun t => (opCtx s sh m .bru).code t == 2)).isEmpty) = false := by
    cases ux with
    | false => rfl
    | true =>
      rw [Bool.true_and, Bool.not_eq_false', List.isEmpty_iff, List.filter_eq_nil_iff]
      intro t ht
      rw [opCtx_code, beq_iff_eq]
      exact hdecided rfl t (by rwa [TrigCtx.activeThreads, opCtx_active] at ht)
  unfold predFaults
  rw [if_neg (by rw [opCtx_x]; omega), hfault]
  dsimp only
  rw [if_neg (by decide), hundecided, if_neg (by decide), if_neg]
  rw [length_paths, opCtx_stack]
  exact fun ⟨htwo, hfull⟩ => absurd (hroom htwo) (by omega)

/-! ## Where the paths go (R76, R78) -/

/-- A branch to its nonempty paths, as the statement describes it. -/
theorem diverge_eq_branchTo (h : PastBundle s sh m y) (l : List (W64 × Mask)) :
    diverge (opCtx s sh m .bru) (paths l) y = branchTo s sh l y := by
  obtain ⟨-, -, -, -, hstack, hmask, -, hrcv, -⟩ := h.past
  unfold diverge branchTo paths
  dsimp only
  generalize l.filter (fun e => e.2 != 0) = ps
  match ps with
  | [] => rfl
  | [_] => rfl
  | a :: b :: r =>
    dsimp only
    rw [hstack, hmask, hrcv, opCtx_kernel, opCtx_bpc]
    rfl

theorem branchTo_stays (s : State) (sh y : Sheet) (l : List (W64 × Mask)) : Stays y (branchTo s sh l y) := by
  unfold branchTo
  dsimp only
  split <;> exact ⟨rfl, rfl, rfl⟩

theorem codeThreads_has (sh : Sheet) (l : List Nat) {t : Nat} (ht : t < 128) :
    (codeThreads sh l).has t = (sh.active.has t && l.contains (branchCode sh t)) := Mask.has_ofFn _ ht

theorem mem_threads {k : Mask} {t : Nat} : t ∈ k.threads ↔ t < 128 ∧ k.has t = true := by
  unfold Mask.threads
  rw [List.mem_filter, List.mem_range]

/-- Some active thread has one of the codes, where the mask of those that have is not empty. -/
theorem any_code (s : State) (sh : Sheet) (m : Move) {p : Nat → Bool} {l : List Nat} (h : ∀ c ≤ 2, p c = l.contains c) :
    (opCtx s sh m .bru).activeThreads.any (fun t => p ((opCtx s sh m .bru).code t)) = true ↔ codeThreads sh l ≠ 0 := by
  rw [TrigCtx.activeThreads, opCtx_active, List.any_eq_true]
  simp only [opCtx_code, h _ (branchCode_le sh _)]
  constructor
  · rintro ⟨t, ht, hcode⟩ hzero
    obtain ⟨hlt, hact⟩ := mem_threads.mp ht
    have hhas := codeThreads_has sh l hlt
    rw [hzero, hact, hcode] at hhas
    simp [Mask.has] at hhas
  · intro hne
    by_contra hnone
    refine hne (BitVec.eq_of_getLsbD_eq fun t hlt => ?_)
    refine (codeThreads_has sh l hlt).trans (Eq.trans ?_ BitVec.getLsbD_zero.symm)
    by_contra hhas
    rw [Bool.not_eq_false, Bool.and_eq_true] at hhas
    exact hnone ⟨t, mem_threads.mpr ⟨hlt, hhas.1⟩, hhas.2⟩

/-- Every active thread has one of the codes, where the mask of those that have is that of the active threads. -/
theorem all_code (s : State) (sh : Sheet) (m : Move) {p : Nat → Bool} {l : List Nat} (h : ∀ c ≤ 2, p c = l.contains c) :
    (opCtx s sh m .bru).activeThreads.all (fun t => p ((opCtx s sh m .bru).code t)) = true ↔ codeThreads sh l = sh.active := by
  rw [TrigCtx.activeThreads, opCtx_active, List.all_eq_true]
  simp only [opCtx_code, h _ (branchCode_le sh _)]
  constructor
  · intro hall
    refine BitVec.eq_of_getLsbD_eq fun t hlt => (codeThreads_has sh l hlt).trans ?_
    cases hact : sh.active.has t with
    | false => exact hact.symm
    | true => exact (hall t (mem_threads.mpr ⟨hlt, hact⟩)).trans hact.symm
  · intro heq t ht
    obtain ⟨hlt, hact⟩ := mem_threads.mp ht
    have hhas := codeThreads_has sh l hlt
    rw [heq, hact, Bool.true_and] at hhas
    exact hhas.symm

end

/-! ## The four branches -/

/-- Past a predicate branch outside a nest, the next bundle. -/
theorem pastBundle_next (s : State) (sh : Sheet) (m : Move) (y : Sheet) (h : PastBundle s sh m y) (hn : sh.nest = none) : y.pc = sh.pc + 16 :=
  (h.straight hn).1

theorem brpPaths_eq (s : State) (sh : Sheet) (m : Move) (r : ERule) : brpPaths r (opCtx s sh m .bru) =
    paths [(sh.pc + 16, codeThreads sh (otherCodes r)), (codeAt s sh (opT s sh m), codeThreads sh (takenCodes r))] := by
  unfold brpPaths
  rw [opCtx_next, opCtx_target, opCtx_codeMask s sh m (not_taken_iff r), opCtx_codeMask s sh m (taken_iff r)]
  rfl

theorem brp3Paths_eq (s : State) (sh : Sheet) (m : Move) : brp3Paths (opCtx s sh m .bru) =
    paths [(sh.pc + 16, codeThreads sh [0]), (codeAt s sh (opT s sh m), codeThreads sh [1]),
      (codeAt s sh (sh.getX .bru 1 0), codeThreads sh [2])] := by
  unfold brp3Paths
  rw [opCtx_next, opCtx_target, opCtx_target, opCtx_x, opCtx_codeMask s sh m (l := [0]) (by decide),
    opCtx_codeMask s sh m (l := [1]) (by decide), opCtx_codeMask s sh m (l := [2]) (by decide)]
  rfl

/-- Settles O20: each branch raises nothing under its conditions, and goes where the codes of its predicate say. -/
theorem bruPredicateBranches : Obligations.BruPredicateBranches := by
  intro h r
  refine ⟨?_, ?_, ?_, ?_⟩
  · refine transfers_of (check := (brpMeaning r).check) (f := fun x => diverge x (brpPaths r x)) rfl ?_ (fun s sh m y _ => pastBundle_next s sh m y) ?_
    · intro s sh m _ hl e d
      change predFaults (opCtx s sh m .bru) [opT s sh m] (r == .ux) (brpPaths r (opCtx s sh m .bru)) = []
      rw [brpPaths_eq]
      exact predFaults_nil hl
    · intro s sh m y _ hy
      rw [brpPaths_eq, diverge_eq_branchTo hy]
      exact ⟨rfl, branchTo_stays ..⟩
  · refine transfers_of (check := brp3Meaning.check) (f := fun x => diverge x (brp3Paths x)) rfl ?_ (fun s sh m y _ => pastBundle_next s sh m y) ?_
    · intro s sh m _ hl e d
      change predFaults (opCtx s sh m .bru) [opT s sh m, (opCtx s sh m .bru).x 1 0] false (brp3Paths (opCtx s sh m .bru)) = []
      rw [brp3Paths_eq, opCtx_x]
      exact predFaults_nil hl
    · intro s sh m y _ hy
      rw [brp3Paths_eq, diverge_eq_branchTo hy]
      exact ⟨rfl, branchTo_stays ..⟩
  · refine transfers_of (check := (branyMeaning r).check)
      (f := fun x sh => if x.activeThreads.any (fun t => ERule.taken r (x.code t)) then jump (x.target x.tv) sh else sh) rfl
      (fun s sh m _ hl e d => predFaults_nil (l := []) hl) (fun s sh m y _ => pastBundle_next s sh m y) ?_
    intro s sh m y _ hy
    simp only [any_code s sh m (taken_iff r), opCtx_target, ne_eq, ite_not]
    exact ⟨rfl, by split <;> exact ⟨rfl, rfl, rfl⟩⟩
  · refine transfers_of (check := (brallMeaning r).check)
      (f := fun x sh => if x.activeThreads.all (fun t => ERule.taken r (x.code t)) then jump (x.target x.tv) sh else sh) rfl
      (fun s sh m _ hl e d => predFaults_nil (l := []) hl) (fun s sh m y _ => pastBundle_next s sh m y) ?_
    intro s sh m y _ hy
    simp only [all_code s sh m (taken_iff r), opCtx_target]
    exact ⟨rfl, by split <;> exact ⟨rfl, rfl, rfl⟩⟩

end Sys2Proof.Machine
end

section
/-! O21: LOOP, LBRK, EXIT and YIELD (R81, R83, R403, R425, R432, R467). -/

namespace Sys2Proof.Machine

section
variable {s : State} {sh y : Sheet} {m : Move}

/-! ## LOOP (R81, R432) -/

/-- The six trip counts that a LOOP captures. -/
def tripCounts (s : State) (sh : Sheet) (m : Move) : List Nat :=
  (List.range 6).map (fun k => (sh.getS ((opT s sh m).toNat % 64 + k)).toNat % 2 ^ 32)

/-- What LOOP does to the sheet past its bundle. -/
def startNest (x : TrigCtx) (sh : Sheet) : Sheet :=
  let counts := (List.range 6).map (fun k => (x.sh.getS (x.tv.toNat % 64 + k)).toNat % 2 ^ 32)
  if counts.contains 0 then { sh with skip := bodyLen x.tv }
  else { sh with nest := some ⟨[], bodyLen x.tv, counts, [0, 0, 0, 0, 0, 0], 0⟩ }

theorem startNest_eq (s : State) (sh : Sheet) (m : Move) (y : Sheet) : startNest (opCtx s sh m .bru) y =
    if (tripCounts s sh m).contains 0 then { y with skip := bodyLen (opT s sh m) }
    else { y with nest := some ⟨[], bodyLen (opT s sh m), tripCounts s sh m, [0, 0, 0, 0, 0, 0], 0⟩ } := by
  obtain ⟨-, -, -, -, -, -, -, hs, -⟩ := opSheet_fields s sh m
  have hcounts : (List.range 6).map (fun k =>
      ((opCtx s sh m .bru).sh.getS ((opCtx s sh m .bru).tv.toNat % 64 + k)).toNat % 2 ^ 32) = tripCounts s sh m :=
    List.map_congr_left fun k _ => congrArg (fun l : SMap W64 => (getD l 0 _).toNat % 2 ^ 32) hs
  unfold startNest
  rw [hcounts]
  rfl

/-- A trip count is 0 where the low 32 bits of its register are. -/
theorem tripCounts_zero (s : State) (sh : Sheet) (m : Move) : (tripCounts s sh m).contains 0 = true ↔
    ∃ k < 6, (sh.getS ((opT s sh m).toNat % 64 + k)).setWidth 32 = 0#32 := by
  have hword : ∀ w : W64, w.setWidth 32 = 0#32 ↔ w.toNat % 2 ^ 32 = 0 := fun w => by
    rw [← BitVec.toNat_inj, BitVec.toNat_setWidth]
    rfl
  simp only [tripCounts, List.contains_iff_mem, List.mem_map, List.mem_range, hword]

/-- A LOOP outside a nest whose trigger value keeps to R81 raises nothing. -/
theorem loop_check (hn : sh.nest = none) (hfirst : (opT s sh m).toNat % 64 ≤ 58) (hgap : (opT s sh m).toNat / 64 % 4 = 0)
    (hrest : (opT s sh m).toNat / 2 ^ 12 = 0) (e d : Nat) : loopMeaning.check { opCtx s sh m .bru with engines := e, droop0 := d } = [] := by
  refine firstFault_nil ?_
  simp only [List.forall_mem_cons, List.not_mem_nil, false_implies, implies_true, and_true]
  refine ⟨?_, ?_⟩
  · change loopBad (opT s sh m) = false
    unfold loopBad bits
    rw [hrest, show (opT s sh m).toNat / 2 ^ 6 % 2 ^ 2 = 0 from hgap, decide_eq_false (by omega)]
    rfl
  · change (opSheet s sh m).nest.isSome = false
    rw [opSheet_nest, hn]
    rfl

/-! ## LBRK (R425) -/

theorem lbrk_check {n : Nest} (hn : sh.nest = some n) (e d : Nat) : lbrkMeaning.check { opCtx s sh m .bru with engines := e, droop0 := d } = [] := by
  refine firstFault_nil ?_
  simp only [List.forall_mem_cons, List.not_mem_nil, false_implies, implies_true, and_true]
  change (opSheet s sh m).nest.isNone = false
  rw [opSheet_nest, hn]
  rfl

/-- In the last bundle of a body LBRK goes on behind it. -/
theorem breakNest_last (hy : PastBundle s sh m y) {n : Nest} (hn : sh.nest = some n) (hpos : n.pos + 1 = n.len) :
    breakNest (opCtx s sh m .bru) y = { y with nest := none, pc := sh.pc + 16 } := by
  unfold breakNest
  obtain ⟨hnest, hpc⟩ | ⟨n', hnest, hstart⟩ := hy.bodyEnd hn hpos
  · rw [hnest]
    dsimp only
    rw [← hnest, ← hpc]
  · rw [hnest]
    dsimp only
    rw [if_pos hstart, opCtx_next]

/-- Within a body whose bundles have all been fetched LBRK goes on behind the last of them. -/
theorem breakNest_within (hy : PastBundle s sh m y) {n : Nest} (hn : sh.nest = some n) (hpos : n.pos + 1 < n.len)
    (hbuf : n.buf.length = n.len) {pc : W64} {b : Bundle} (hlast : n.buf.getLast? = some (pc, .bundleIssue b)) :
    breakNest (opCtx s sh m .bru) y = { y with nest := none, pc := pc + BitVec.ofNat 64 (Format.size b.format) } := by
  unfold breakNest
  rw [hy.inBody hn hpos hbuf]
  dsimp only
  rw [if_neg (Nat.succ_ne_zero _), if_neg (by omega), hlast]
  rfl

/-! ## EXIT (R403) -/

/-- EXIT alone: the active threads are gone; where threads remain, their path arrives (R79). -/
theorem exit_goes {h : Head} (hi : (Instr.exit h).move = some m) (hc : CanIssue s sh m .bru) (hr : opRuns s sh m) :
    ∃ t y z, exec (.exit h) s = .next t ∧ Past sh y ∧ t.sheet? s.focus = some z ∧ z.gone = sh.gone ||| sh.active ∧
      (Mask.firstN sh.width &&& ~~~(sh.gone ||| sh.active) ≠ 0#128 → z = ({ y with gone := sh.gone ||| sh.active } : Sheet).arrive) := by
  obtain ⟨y, c, p, a, hy, hrun⟩ := runOp_control (check := noCheck) (f := fun x sh => { sh with gone := sh.gone ||| x.sh.active })
    hi hc hr (fun _ _ => rfl)
  obtain ⟨-, -, -, -, -, -, hgone, -, -, -, -, -, -, hskip, -⟩ := hy.past
  have hact : ({ y with gone := y.gone ||| (opCtx s sh m .bru).sh.active } : Sheet) = { y with gone := sh.gone ||| sh.active } := by
    rw [hgone, opCtx_active]
  rw [hact] at hrun
  have hhere := transferred_sheet? s sh m c p a { y with gone := sh.gone ||| sh.active }
  obtain ⟨z, hz, -, hzgone⟩ := arriveAfter_keeps hhere
  refine ⟨_, y, z, hrun, hy.past, hz, hzgone, fun hleft => ?_⟩
  have hstays : ({ y with gone := sh.gone ||| sh.active } : Sheet).left = false := by
    unfold Sheet.left
    rw [hy.width]
    exact beq_eq_false_iff_ne.mpr hleft
  rw [arriveAfter_plain hhere (hskip.trans hc.noSkip) hstays, State.sheet?_setSheet] at hz
  exact (Option.some.inj hz).symm

/-! ## YIELD (R467) -/

/-- What YIELD does to the sheet past its bundle. -/
def idle (x : TrigCtx) (sh : Sheet) : Sheet :=
  { sh with nextIssue := sh.nextIssue + x.tv.toNat % 256, readySince := sh.nextIssue + x.tv.toNat % 256 }

theorem idle_eq (s : State) (sh : Sheet) (m : Move) (y : Sheet) : idle (opCtx s sh m .bru) y =
    { y with nextIssue := y.nextIssue + ((opT s sh m).setWidth 8).toNat, readySince := y.nextIssue + ((opT s sh m).setWidth 8).toNat } := by
  rw [BitVec.toNat_setWidth]
  rfl

end

/-- Settles O21: what LOOP, LBRK and YIELD make of the sheet past their bundle, a LOOP with a count of 0, and EXIT. -/
theorem bruLoopsExitYield : Obligations.BruLoopsExitYield := by
  intro h
  refine ⟨?_, ?_, ?_, ?_, fun s sh m => exit_goes, ?_⟩
  · refine transfers_of (check := loopMeaning.check) (f := startNest) rfl ?_ ?_ ?_
    · rintro s sh m - ⟨hn, hfirst, hgap, hrest, -⟩
      exact loop_check hn hfirst hgap hrest
    · rintro s sh m y ⟨hn, -⟩ hy
      exact hy.straight hn
    · rintro s sh m y ⟨-, -, -, -, hcounts⟩ -
      rw [startNest_eq, if_neg fun hz => (let ⟨k, hk, h0⟩ := (tripCounts_zero s sh m).mp hz; hcounts k hk h0)]
      exact ⟨rfl, rfl, rfl, rfl⟩
  · intro s sh m hi hc hr hn hfirst hgap hrest hzero
    obtain ⟨y, c, p, a, hy, hrun⟩ := runOp_control (check := loopMeaning.check) (f := startNest) hi hc hr (loop_check hn hfirst hgap hrest)
    obtain ⟨z, hz, hnest, -⟩ := arriveAfter_keeps (transferred_sheet? s sh m c p a (startNest (opCtx s sh m .bru) y))
    refine ⟨_, z, hrun, hz, hnest.trans ?_⟩
    rw [startNest_eq, if_pos ((tripCounts_zero s sh m).mpr hzero)]
    exact (hy.straight hn).2
  · refine transfers_of (check := lbrkMeaning.check) (f := breakNest) rfl ?_ (fun _ _ _ _ _ _ => trivial) ?_
    · rintro s sh m - ⟨n, hn, -⟩
      exact lbrk_check hn
    · rintro s sh m y ⟨n, hn, hpos⟩ hy
      exact ⟨breakNest_last hy hn hpos, rfl, rfl, rfl⟩
  · intro pc b
    refine transfers_of (check := lbrkMeaning.check) (f := breakNest) rfl ?_ (fun _ _ _ _ _ _ => trivial) ?_
    · rintro s sh m - ⟨n, hn, -⟩
      exact lbrk_check hn
    · rintro s sh m y ⟨n, hn, hpos, hbuf, hlast⟩ hy
      exact ⟨breakNest_within hy hn hpos hbuf hlast, rfl, rfl, rfl⟩
  · refine transfers_of (check := noCheck) (f := idle) rfl (fun _ _ _ _ _ _ _ => rfl) ?_ ?_
    · exact fun s sh m y _ hy => ⟨hy.ready, fun hn => (hy.straight hn).1⟩
    · intro s sh m y _ _
      exact ⟨idle_eq s sh m y, rfl, rfl, rfl⟩

end Sys2Proof.Machine
end

section
/-! Memory and network shares (R88, R316 to R318): a controller's arrivals and services, a port's sectors, and its buckets. -/

namespace Sys2Proof.Machine

/-! ## A memory controller (R316) -/

theorem channelOk_of_lt {ch : Nat} (h : ch < 128) : channelOk ch = true := decide_eq_true h
theorem coreOk_of_lt {core : Nat} (h : core < 1536) : coreOk core = true := decide_eq_true h

theorem memWeight_eq (s : State) (cls : Nat) : memWeight s cls = if cls < 40 then max (s.part cls).memw 1 else 255 := rfl

/-- `memBefore` is the order of the tags and, at equal tags, of the classes. -/
theorem memBefore_iff (a b : MemReq) : memBefore a b = true ↔ a.start < b.start ∨ (a.start = b.start ∧ a.cls < b.cls) := by
  simp [memBefore]

theorem not_memBefore_iff (a b : MemReq) : memBefore a b = false ↔ b.start < a.start ∨ (a.start = b.start ∧ b.cls ≤ a.cls) := by
  rw [← Bool.not_eq_true, memBefore_iff]
  rcases lt_trichotomy a.start b.start with h | h | h
  · simp [h, h.ne, not_lt.2 h.le]
  · simp [h]
  · simp [h, h.ne', not_lt.2 h.le]

/-- One request of the scan that `memNext` makes: it replaces the best so far where it goes before it. -/
def scanNext (best : Option (MemReq × Nat)) (e : MemReq × Nat) : Option (MemReq × Nat) :=
  match best with
  | none => some e
  | some b => if memBefore e.1 b.1 then some e else best

/-- A request that no other of a list goes before, nor an older at its tag and class. -/
def Serves (l : List (MemReq × Nat)) (e : MemReq × Nat) : Prop :=
  ∀ e' ∈ l, e.1.start < e'.1.start ∨ (e.1.start = e'.1.start ∧ (e.1.cls < e'.1.cls ∨ (e.1.cls = e'.1.cls ∧ e.2 ≤ e'.2)))

theorem serves_append_of_before {l : List (MemReq × Nat)} {a b : MemReq × Nat} (hb : Serves l b) (h : memBefore a.1 b.1 = true) :
    Serves (l ++ [a]) a := by
  intro e he
  rcases List.mem_append.1 he with he | he
  · have h1 := hb e he
    rcases (memBefore_iff ..).1 h with h | ⟨h, h'⟩
    · rcases h1 with h1 | ⟨h1, -⟩
      · exact .inl (h.trans h1)
      · exact .inl (h1 ▸ h)
    · rcases h1 with h1 | ⟨h1, h2⟩
      · exact .inl (h ▸ h1)
      · exact .inr ⟨h.trans h1, .inl (by omega)⟩
  · obtain rfl := List.mem_singleton.1 he
    exact .inr ⟨rfl, .inr ⟨rfl, le_rfl⟩⟩

theorem serves_append_of_not_before {l : List (MemReq × Nat)} {a b : MemReq × Nat} (hb : Serves l b) (h : memBefore a.1 b.1 = false)
    (hk : b.2 ≤ a.2) : Serves (l ++ [a]) b := by
  intro e he
  rcases List.mem_append.1 he with he | he
  · exact hb e he
  · obtain rfl := List.mem_singleton.1 he
    rcases (not_memBefore_iff ..).1 h with h | ⟨h, h'⟩
    · exact .inl h
    · exact .inr ⟨h.symm, by omega⟩

/-- The scan of a list in the order of the places ends at the request to serve, if it has one to begin with. -/
theorem scanNext_serves : ∀ (l pre : List (MemReq × Nat)) (b : MemReq × Nat), b ∈ pre → Serves pre b →
    (pre ++ l).Pairwise (fun x y => x.2 ≤ y.2) → ∃ e ∈ pre ++ l, l.foldl scanNext (some b) = some e ∧ Serves (pre ++ l) e
  | [], pre, b, hb, hs, _ => ⟨b, by simpa using hb, rfl, by simpa using hs⟩
  | a :: l, pre, b, hb, hs, hp => by
    have hsplit : pre ++ a :: l = (pre ++ [a]) ++ l := by simp
    have hba : b.2 ≤ a.2 := (List.pairwise_append.1 hp).2.2 b hb a List.mem_cons_self
    rw [hsplit] at hp ⊢
    cases h : memBefore a.1 b.1 with
    | true => simpa [scanNext, h] using scanNext_serves l (pre ++ [a]) a (by simp) (serves_append_of_before hs h) hp
    | false => simpa [scanNext, h] using scanNext_serves l (pre ++ [a]) b (by simp [hb]) (serves_append_of_not_before hs h hba) hp

/-- The waiting requests that no older one to their sectors blocks, with their places. -/
def unblocked (c : Channel) : List (MemReq × Nat) := c.waiting.zipIdx.filter (fun e => !memBlocked c e.2 e.1)

theorem memNext_eq (c : Channel) : memNext c = (unblocked c).foldl scanNext none := rfl

theorem mem_unblocked {c : Channel} {r : MemReq} {k : Nat} :
    (r, k) ∈ unblocked c ↔ c.waiting[k]? = some r ∧ memBlocked c k r = false := by
  simp [unblocked, List.mem_zipIdx_iff_getElem?]

theorem unblocked_pairwise (c : Channel) : (unblocked c).Pairwise (fun x y => x.2 ≤ y.2) := by
  refine List.Pairwise.filter _ ?_
  have h : (c.waiting.zipIdx.map Prod.snd).Pairwise (· ≤ ·) := by
    rw [List.zipIdx_map_snd]; exact (List.pairwise_lt_range').imp le_of_lt
  exact List.pairwise_map.1 h

/-- The request that has waited longest is blocked by none. -/
theorem head_mem_unblocked {c : Channel} (h : c.waiting ≠ []) : ∃ r, (r, 0) ∈ unblocked c := by
  cases hw : c.waiting with
  | nil => exact absurd hw h
  | cons r l => exact ⟨r, mem_unblocked.2 ⟨by simp [hw], by simp [memBlocked]⟩⟩

theorem memNext_serves {c : Channel} (h : c.waiting ≠ []) : ∃ e ∈ unblocked c, memNext c = some e ∧ Serves (unblocked c) e := by
  obtain ⟨r, hr⟩ := head_mem_unblocked h
  rw [memNext_eq]
  have hp := unblocked_pairwise c
  generalize unblocked c = l at hr hp
  cases l with
  | nil => exact absurd hr List.not_mem_nil
  | cons a l =>
    have ha : Serves [a] a := fun e he => by
      obtain rfl := List.mem_singleton.1 he
      exact .inr ⟨rfl, .inr ⟨rfl, le_rfl⟩⟩
    simpa [scanNext] using scanNext_serves l [a] a (by simp) ha hp

/-- A request arrives at its controller: nothing else of the machine changes. -/
theorem memoryRequestArrival_does (s : State) {ch : Nat} (cls n sector : Nat) (hch : ch < 128) :
    Does (.memoryRequestArrival ch cls n sector) s (fun t => t = { s with channels := t.channels } ∧
    let c := s.channel ch
    let start := max c.v (getD c.finish 0 cls)
    let weight : Nat := if cls < 40 then max (s.part cls).memw 1 else 255
    (t.channel ch).waiting = c.waiting ++ [⟨cls, n, sector, start, false, 1536⟩] ∧
    getD (t.channel ch).finish 0 cls = start + (n : Rat) * 256 / (weight : Rat) ∧
    (t.channel ch).v = c.v ∧ (∀ k, k ≠ cls → getD (t.channel ch).finish 0 k = getD c.finish 0 k) ∧ ∀ k, k ≠ ch → t.channel k = s.channel k) := by
  refine does_next (runAt_ok (channelOk_of_lt hch) ..) ⟨rfl, ?_⟩
  simp only [memoryRequestArrival, memArrive, State.channel_setChannel, getD_setD_self, Asker.device, ← memWeight_eq]
  refine ⟨trivial, by push_cast; rfl, trivial, fun k hk => getD_setD_ne _ _ _ _ _ hk, fun k hk => State.channel_setChannel_ne _ _ _ _ hk⟩

/-- What a service leaves in the state, whether or not it counts as an event. -/
theorem memoryRequestServe_channel {s : State} {ch : Nat} {r : MemReq} {k : Nat} (h : memNext (s.channel ch) = some (r, k)) :
    (memoryRequestServe ch s).mem = s.mem ∧ (memoryRequestServe ch s).channel ch = { s.channel ch with
      v := if ((s.channel ch).waiting.eraseIdx k).isEmpty then (vals (s.channel ch).finish).foldl max 0 else r.start
      waiting := (s.channel ch).waiting.eraseIdx k } := by
  have hch : ∀ (t : State) a b c d e n, (t.event a b c d e n).channel ch = t.channel ch := fun t a b c d e n => by
    simp [State.channel]
  unfold memoryRequestServe
  simp only [h, List.eraseIdx_eq_take_drop_succ]
  split
  · exact ⟨State.event_mem .., (hch ..).trans (State.channel_setChannel ..)⟩
  · exact ⟨rfl, State.channel_setChannel ..⟩

theorem isEmpty_eraseIdx_iff {α : Type} {l : List α} {k : Nat} (h : k < l.length) : (l.eraseIdx k).isEmpty = true ↔ l.length = 1 := by
  rw [List.isEmpty_iff_length_eq_zero, List.length_eraseIdx_of_lt h]
  omega

/-- A controller serves the request with the least tag of those that are not blocked. -/
theorem memoryRequestServe_does (s : State) {ch : Nat} (hch : ch < 128) (hw : (s.channel ch).waiting ≠ []) :
    Does (.memoryRequestServe ch) s (fun t => SameMemory s t ∧ ∃ k r,
    (s.channel ch).waiting[k]? = some r ∧ memBlocked (s.channel ch) k r = false ∧ (t.channel ch).waiting = (s.channel ch).waiting.eraseIdx k ∧
    (t.channel ch).finish = (s.channel ch).finish ∧ (2 ≤ (s.channel ch).waiting.length → (t.channel ch).v = r.start) ∧
    ((s.channel ch).waiting.length = 1 → (t.channel ch).v = (vals (s.channel ch).finish).foldl max 0) ∧
    ∀ k' r', (s.channel ch).waiting[k']? = some r' → memBlocked (s.channel ch) k' r' = false →
      r.start < r'.start ∨ (r.start = r'.start ∧ (r.cls < r'.cls ∨ (r.cls = r'.cls ∧ k ≤ k')))) := by
  obtain ⟨⟨r, k⟩, hr, hnext, hleast⟩ := memNext_serves hw
  obtain ⟨hk, hfree⟩ := mem_unblocked.1 hr
  obtain ⟨hmem, hc⟩ := memoryRequestServe_channel hnext
  have hempty := isEmpty_eraseIdx_iff (List.getElem?_eq_some_iff.1 hk).1
  refine does_next (runAt_ok (channelOk_of_lt hch) ..) ⟨sameMemory_of_mem hmem, k, r, hk, hfree, ?_⟩
  rw [hc]
  refine ⟨rfl, rfl, fun h2 => if_neg (mt hempty.1 (by omega)), fun h1 => if_pos (hempty.2 h1), fun k' r' h' hf' => ?_⟩
  exact hleast (r', k') (mem_unblocked.2 ⟨h', hf'⟩)

/-! ## The end of a period (R318) -/

theorem sumList_eq_sum (l : List Nat) : sumList l = l.sum := List.sum_eq_foldl.symm

/-- The share of a partition that waits: no weight, no share, whatever the sum. -/
theorem share_max_one {pool w : Nat} {l : List Nat} (h : w ∈ l) : pool * w / max (sumList l) 1 = pool * w / sumList l := by
  rcases Nat.eq_zero_or_pos (sumList l) with h0 | h0
  · have hw : w = 0 := Nat.le_zero.1 (h0 ▸ sumList_eq_sum l ▸ List.le_sum_of_mem h)
    simp [h0, hw]
  · rw [max_eq_left h0]

theorem refilled_part (s : State) (k : Core) {p : Nat} (hp : p ∈ portParts k) :
    let waiting := (portParts k).filter (fun p => k.netQueue.any (fun r => r.part == p))
    getD (refilled s k) 0 p = (s.part p).rate + (if p ∈ waiting then
      (k.pool + sumList (vals k.buckets)) * (s.part p).memw / sumList (waiting.map (fun p => (s.part p).memw)) else 0) := by
  intro waiting
  have h := getD_foldl_setD (fun p => (s.part p).rate + if waiting.contains p then
      (k.pool + sumList (vals k.buckets)) * (s.part p).memw / max (sumList (waiting.map (fun p => (s.part p).memw))) 1 else 0)
    (portParts k) [] (.inl hp)
  refine Eq.trans h ?_
  simp only [List.contains_iff_mem]
  congr 1
  split
  · next hw => exact share_max_one (List.mem_map_of_mem hw)
  · rfl

/-- At the end of a period each bucket has its rate and its share. -/
theorem refillPeriodEnd_does (s : State) {core : Nat} (hcore : core < 1536) (h : (s.core core).refillAt ≤ s.cycle core) :
    Does (.refillPeriodEnd core) s (fun t => OnlyCore s t core ∧
    let k := s.core core
    let waiting := (portParts k).filter (fun p => k.netQueue.any (fun r => r.part == p))
    (t.core core).refillAt = k.refillAt + 1024 ∧ (t.core core).pool = 0 ∧ (t.core core).netQueue = k.netQueue ∧
    ∀ p ∈ portParts k, getD (t.core core).buckets 0 p = (s.part p).rate + (if p ∈ waiting then
      (k.pool + sumList (vals k.buckets)) * (s.part p).memw / sumList (waiting.map (fun p => (s.part p).memw)) else 0)) := by
  have hstep : refillPeriodEnd core s = s.setCore core { s.core core with
      refillAt := (s.core core).refillAt + 1024, buckets := refilled s (s.core core), pool := 0 } := if_pos h
  refine does_next (runAt_ok (coreOk_of_lt hcore) ..) ?_
  rw [hstep]
  refine ⟨⟨rfl, fun k hk => State.core_setCore_ne _ _ _ _ hk⟩, ?_⟩
  simp only [State.core_setCore, true_and]
  exact fun p hp => refilled_part s _ hp

end Sys2Proof.Machine
end

section
/-! A core's network port (R88, R317): what one sector's grant does, and the four of a cycle. -/

namespace Sys2Proof.Machine

/-! ## One sector -/

/-- The partitions in the order of the port's rotation. -/
def portOrder (k : Core) : List Nat := (List.range Config.numPartitions).map (fun n => (k.netTurn + n) % Config.numPartitions)
/-- Whether a partition has a request and a token. -/
def portAsks (k : Core) (p : Nat) : Bool := k.netQueue.any (·.part == p) && decide (0 < getD k.buckets 0 p)
/-- The partition that the port serves next. -/
def portNext (k : Core) : Option Nat := (portOrder k).find? (portAsks k)
/-- The port's queue after a sector of the request at a place. -/
def queueLess (l : List NetReq) (i : Nat) : List NetReq :=
  let r := l.getD i ⟨0, 0, .fetch 0⟩
  if r.sectors ≤ 1 then l.take i ++ l.drop (i + 1) else l.take i ++ [{ r with sectors := r.sectors - 1 }] ++ l.drop (i + 1)
/-- The port after a sector of a partition. -/
def portLess (k : Core) (p : Nat) : Core :=
  { k with netQueue := queueLess k.netQueue (k.netQueue.findIdx (·.part == p))
           buckets := setD k.buckets 0 p (getD k.buckets 0 p - 1), netTurn := (p + 1) % Config.numPartitions }
/-- For what the next sector of a partition is. -/
def portWho (k : Core) (p : Nat) : NetWho := (k.netQueue.getD (k.netQueue.findIdx (·.part == p)) ⟨0, 0, .fetch 0⟩).who

theorem grantSector_eq (k : Core) : grantSector k = (portNext k).map (fun p => (portLess k p, portWho k p)) := by
  change (match portNext k with | none => none | some p => some (portLess k p, portWho k p)) = _
  cases portNext k with
  | none => rfl
  | some p => rfl
theorem grantSector_of_none {k : Core} (h : portNext k = none) : grantSector k = none := by rw [grantSector_eq, h]; rfl
theorem grantSector_of_some {k : Core} {p : Nat} (h : portNext k = some p) : grantSector k = some (portLess k p, portWho k p) := by
  rw [grantSector_eq, h]; rfl

theorem grantSectors_of_none {k : Core} (h : portNext k = none) : ∀ n, grantSectors n k = (k, [])
  | 0 => rfl
  | n + 1 => by simp [grantSectors, grantSector_of_none h]
theorem grantSectors_of_some {k : Core} {p : Nat} (h : portNext k = some p) (n : Nat) :
    grantSectors (n + 1) k = ((grantSectors n (portLess k p)).1, portWho k p :: (grantSectors n (portLess k p)).2) := by
  simp [grantSectors, grantSector_of_some h]

/-- A step of the rotation carries what holds of the port along: an induction over the sectors granted. -/
theorem grantSectors_induct {P : Core → Prop} (hstep : ∀ k p, P k → P (portLess k p)) : ∀ n k, P k → P (grantSectors n k).1
  | 0, _, h => h
  | n + 1, k, h => by
    cases hp : portNext k with
    | none => rwa [grantSectors_of_none hp]
    | some p => rw [grantSectors_of_some hp]; exact grantSectors_induct hstep n _ (hstep k p h)

theorem grantSectors_cmds (n : Nat) (k : Core) : (grantSectors n k).1.cmds = k.cmds :=
  grantSectors_induct (P := fun k' => k'.cmds = k.cmds) (fun _ _ h => h) n k rfl

theorem portLess_bucket (k : Core) (p : Nat) : getD (portLess k p).buckets 0 p = getD k.buckets 0 p - 1 := getD_setD_self ..
theorem portLess_bucket_ne (k : Core) {p q : Nat} (h : q ≠ p) : getD (portLess k p).buckets 0 q = getD k.buckets 0 q :=
  getD_setD_ne _ _ _ _ _ h

theorem grantSectors_bucket_le (n : Nat) (k : Core) (q : Nat) : getD (grantSectors n k).1.buckets 0 q ≤ getD k.buckets 0 q := by
  refine grantSectors_induct (P := fun k' => getD k'.buckets 0 q ≤ getD k.buckets 0 q) (fun k' p h => ?_) n k le_rfl
  by_cases hq : q = p
  · subst hq; rw [portLess_bucket]; omega
  · rwa [portLess_bucket_ne _ hq]

/-! ## The rotation -/

/-- The rotation reaches every partition. -/
theorem mem_portOrder (k : Core) {p : Nat} (hp : p < 40) : p ∈ portOrder k := by
  refine List.mem_map.2 ⟨(p + 40 - k.netTurn % 40) % 40, List.mem_range.2 (Nat.mod_lt _ (by decide)), ?_⟩
  show (k.netTurn + (p + 40 - k.netTurn % 40) % 40) % 40 = p
  omega

theorem portNext_isSome {k : Core} {p : Nat} (hp : p < 40) (h : portAsks k p = true) : ∃ q, portNext k = some q ∧ portAsks k q = true := by
  cases hf : portNext k with
  | none => exact absurd h (List.find?_eq_none.1 hf p (mem_portOrder k hp))
  | some q => exact ⟨q, rfl, List.find?_some hf⟩

theorem find?_eq_of_only {α : Type} {f : α → Bool} {l : List α} {a : α} (ha : a ∈ l) (hf : f a = true)
    (h : ∀ b ∈ l, f b = true → b = a) : l.find? f = some a := by
  cases hb : l.find? f with
  | none => exact absurd hf (List.find?_eq_none.1 hb a ha)
  | some b => rw [h b (List.mem_of_find?_eq_some hb) (List.find?_some hb)]

/-- Behind the partition served last, the rotation reaches every other before it. -/
theorem portNext_after {k : Core} {p q : Nat} (hp : p < 40) (hq : q < 40) (hne : p ≠ q) (hturn : k.netTurn = (p + 1) % 40)
    (hasks : portAsks k q = true) (honly : ∀ x, portAsks k x = true → x = p ∨ x = q) : portNext k = some q := by
  have horder : portOrder k = (List.range 39).map (fun n => (k.netTurn + n) % 40) ++ [(k.netTurn + 39) % 40] := by
    rw [portOrder, show Config.numPartitions = 39 + 1 from rfl, List.range_succ, List.map_append]; rfl
  have hfirst : ((List.range 39).map (fun n => (k.netTurn + n) % 40)).find? (portAsks k) = some q := by
    refine find?_eq_of_only (List.mem_map.2 ⟨(q + 39 - p) % 40, List.mem_range.2 (by omega), by omega⟩) hasks fun x hx hxa => ?_
    obtain ⟨n, hn, rfl⟩ := List.mem_map.1 hx
    have := List.mem_range.1 hn
    exact (honly _ hxa).resolve_left (by omega)
  rw [portNext, horder, List.find?_append, hfirst]
  rfl

/-! ## One request at the port -/

/-- A port at which one partition has `n` sectors left to ask for, and a bucket of `b`. -/
def Lone (k : Core) (p n : Nat) (who : NetWho) (b : Nat) : Prop :=
  k.netQueue = (if n = 0 then [] else [⟨p, n, who⟩]) ∧ getD k.buckets 0 p = b

theorem Lone.asks {k : Core} {p n b : Nat} {who : NetWho} (h : Lone k p n who b) (x : Nat) :
    portAsks k x = true ↔ x = p ∧ 0 < n ∧ 0 < b := by
  obtain ⟨hq, rfl⟩ := h
  rw [portAsks, hq]
  by_cases hn : n = 0
  · simp [hn]
  · by_cases hx : x = p
    · simp [hn, hx, Nat.pos_of_ne_zero hn]
    · simp [hn, hx, Ne.symm hx]

theorem Lone.less {k : Core} {p n b : Nat} {who : NetWho} (h : Lone k p (n + 1) who (b + 1)) : Lone (portLess k p) p n who b := by
  obtain ⟨hq, hb⟩ := h
  refine ⟨?_, by rw [portLess_bucket, hb]; rfl⟩
  rw [if_neg (Nat.succ_ne_zero n)] at hq
  rcases Nat.eq_zero_or_pos n with rfl | hn
  · simp [portLess, hq, queueLess]
  · simp [portLess, hq, queueLess, hn.ne', Nat.not_le.2 hn]

theorem Lone.who {k : Core} {p n b : Nat} {who : NetWho} (h : Lone k p (n + 1) who b) : portWho k p = who := by
  simp [portWho, h.1]

/-- The sectors of a cycle at a port with one request: as many as it asks for and has tokens. -/
theorem Lone.grantSectors {p : Nat} {who : NetWho} (hp : p < 40) : ∀ (j : Nat) {k : Core} {n b : Nat}, Lone k p n who b →
    let got := min j (min n b)
    (grantSectors j k).2 = List.replicate got who ∧ Lone (grantSectors j k).1 p (n - got) who (b - got)
  | 0, k, n, b, h => by simpa [Machine.grantSectors] using h
  | j + 1, k, n, b, h => by
    rcases Nat.eq_zero_or_pos (min n b) with h0 | h0
    · have hnone : portNext k = none := List.find?_eq_none.2 fun x _ hx => by
        have := (h.asks x).1 hx
        omega
      rw [grantSectors_of_none hnone, h0]
      simpa using h
    · obtain ⟨n, rfl⟩ := Nat.exists_eq_add_of_lt (show 0 < n by omega)
      obtain ⟨b, rfl⟩ := Nat.exists_eq_add_of_lt (show 0 < b by omega)
      simp only [Nat.zero_add] at h h0 ⊢
      obtain ⟨q, hq, hqa⟩ := portNext_isSome hp ((h.asks p).2 ⟨rfl, by omega, by omega⟩)
      obtain rfl := ((h.asks q).1 hqa).1
      obtain ⟨hwho, hlone⟩ := Lone.grantSectors hp j h.less
      have hmin : min (j + 1) (min (n + 1) (b + 1)) = min j (min n b) + 1 := by omega
      rw [grantSectors_of_some hq, h.who, hmin]
      exact ⟨by rw [hwho, List.replicate_succ], by simpa using hlone⟩

/-! ## Two requests at the port -/

/-- A port at which two partitions have requests of `n` and `m` sectors, and buckets of `b` and `c`. -/
structure Pair (k : Core) (p q n m : Nat) (who who' : NetWho) (b c : Nat) : Prop where
  queue : k.netQueue = [⟨p, n, who⟩, ⟨q, m, who'⟩]
  fst : getD k.buckets 0 p = b
  snd : getD k.buckets 0 q = c

section
variable {k : Core} {p q n m b c : Nat} {who who' : NetWho}

theorem Pair.only (h : Pair k p q n m who who' b c) {x : Nat} (hx : portAsks k x = true) : x = p ∨ x = q := by
  rw [portAsks, h.queue] at hx
  simp only [List.any_cons, List.any_nil, Bool.and_eq_true, Bool.or_eq_true, beq_iff_eq, Bool.false_eq_true, or_false] at hx
  exact hx.1.imp Eq.symm Eq.symm

theorem Pair.asksFst (h : Pair k p q n m who who' b c) (hb : 0 < b) : portAsks k p = true := by
  simp [portAsks, h.queue, h.fst, hb]
theorem Pair.asksSnd (h : Pair k p q n m who who' b c) (hc : 0 < c) : portAsks k q = true := by
  simp [portAsks, h.queue, h.snd, hc]

theorem Pair.lessFst (h : Pair k p q (n + 2) m who who' b c) (hne : p ≠ q) : Pair (portLess k p) p q (n + 1) m who who' (b - 1) c where
  queue := by simp [portLess, h.queue, queueLess, List.findIdx_cons]
  fst := by rw [portLess_bucket, h.fst]
  snd := by rw [portLess_bucket_ne _ hne.symm, h.snd]

theorem Pair.lessSnd (h : Pair k p q n (m + 2) who who' b c) (hne : p ≠ q) : Pair (portLess k q) p q n (m + 1) who who' b (c - 1) where
  queue := by simp [portLess, h.queue, queueLess, beq_false_of_ne hne, List.findIdx_cons]
  fst := by rw [portLess_bucket_ne _ hne, h.fst]
  snd := by rw [portLess_bucket, h.snd]

/-- Behind a sector of the second, the first is served. -/
theorem Pair.nextFst (h : Pair k p q n m who who' b c) (hp : p < 40) (hq : q < 40) (hne : p ≠ q) (hb : 0 < b)
    (hturn : k.netTurn = (q + 1) % 40) : portNext k = some p :=
  portNext_after hq hp hne.symm hturn (h.asksFst hb) fun _ hx => (h.only hx).symm
/-- Behind a sector of the first, the second is served. -/
theorem Pair.nextSnd (h : Pair k p q n m who who' b c) (hp : p < 40) (hq : q < 40) (hne : p ≠ q) (hc : 0 < c)
    (hturn : k.netTurn = (p + 1) % 40) : portNext k = some q :=
  portNext_after hp hq hne hturn (h.asksSnd hc) fun _ hx => h.only hx

/-- Four sectors at a port with two requests: two of each, whichever the rotation begins with. -/
theorem Pair.grantSectors (h : Pair k p q (n + 3) (m + 3) who who' (b + 2) (c + 2)) (hp : p < 40) (hq : q < 40) (hne : p ≠ q) :
    Pair (grantSectors 4 k).1 p q (n + 1) (m + 1) who who' b c := by
  obtain ⟨x, hx, hxa⟩ := portNext_isSome hp (h.asksFst (by omega))
  rcases h.only hxa with rfl | rfl
  · have h1 := h.lessFst hne
    have h2 := h1.lessSnd hne
    have h3 := h2.lessFst hne
    rw [grantSectors_of_some hx, grantSectors_of_some (h1.nextSnd hp hq hne (by omega) rfl),
      grantSectors_of_some (h2.nextFst hp hq hne (by omega) rfl), grantSectors_of_some (h3.nextSnd hp hq hne (by omega) rfl)]
    exact h3.lessSnd hne
  · have h1 := h.lessSnd hne
    have h2 := h1.lessFst hne
    have h3 := h2.lessSnd hne
    rw [grantSectors_of_some hx, grantSectors_of_some (h1.nextFst hp hq hne (by omega) rfl),
      grantSectors_of_some (h2.nextSnd hp hq hne (by omega) rfl), grantSectors_of_some (h3.nextFst hp hq hne (by omega) rfl)]
    exact h3.lessFst hne

end

/-! ## What waited for the sectors -/

/-- A token paid changes no memory, and of its core the commands alone. -/
theorem netPay_frame (s : State) (core : Nat) (w : NetWho) :
    (netPay s core w).mem = s.mem ∧ ∃ l, (netPay s core w).core core = { s.core core with cmds := l } := by
  cases w with
  | access sid id => exact ⟨State.mapSheet_mem .., (s.core core).cmds, congrArg (getD · Core.reset core) (State.mapSheet_cores ..)⟩
  | fetch sid => exact ⟨State.mapSheet_mem .., (s.core core).cmds, congrArg (getD · Core.reset core) (State.mapSheet_cores ..)⟩
  | command e num =>
    refine ⟨rfl, ?_⟩
    simp only [netPay, State.core_mapCore]
    split
    · split
      · exact ⟨_, rfl⟩
      · exact ⟨_, rfl⟩
    · exact ⟨_, rfl⟩

theorem foldl_netPay_frame (core : Nat) : ∀ (l : List NetWho) (s : State),
    (l.foldl (fun s w => netPay s core w) s).mem = s.mem ∧
      ∃ c, (l.foldl (fun s w => netPay s core w) s).core core = { s.core core with cmds := c }
  | [], s => ⟨rfl, _, rfl⟩
  | w :: l, s => by
    obtain ⟨hmem, c, hc⟩ := netPay_frame s core w
    obtain ⟨hmem', c', hc'⟩ := foldl_netPay_frame core l (netPay s core w)
    exact ⟨hmem'.trans hmem, c', by rw [List.foldl_cons, hc', hc]⟩

/-- The tokens of one cycle, paid to one that waits. -/
def netPaid (s : State) (core g : Nat) (who : NetWho) : State := (List.replicate g who).foldl (fun s w => netPay s core w) s

theorem netPaid_succ (s : State) (core g : Nat) (who : NetWho) : netPaid s core (g + 1) who = netPaid (netPay s core who) core g who := rfl

/-- A fetch that has its tokens waits for so many fewer. -/
theorem netPaid_fetch (core sid : Nat) : ∀ (g : Nat) {s : State} {sh : Sheet} {f : W64 × Nat}, s.sheet? sid = some sh → sh.fetch = some f →
    (netPaid s core g (.fetch sid)).sheet? sid = some { sh with fetch := some (f.1, f.2 - g) }
  | 0, s, sh, f, h, hf => h.trans (by rw [Nat.sub_zero, ← hf])
  | g + 1, s, sh, f, h, hf => by
    have h1 : (netPay s core (.fetch sid)).sheet? sid = some { sh with fetch := some (f.1, f.2 - 1) } := by
      simp [netPay, State.sheet?_mapSheet, h, hf]
    rw [netPaid_succ, netPaid_fetch core sid g h1 rfl, Nat.sub_sub, Nat.add_comm 1 g]

/-- An access with more tokens paid. -/
def Access.tokens (id g : Nat) (a : Access) : Access := if a.id = id then { a with paid := a.paid + g } else a

theorem Access.tokens_tokens (id g h : Nat) (a : Access) : (a.tokens id g).tokens id h = a.tokens id (g + h) := by
  unfold Access.tokens
  by_cases ha : a.id = id
  · simp [ha, Nat.add_assoc]
  · simp [ha]

theorem netPaid_access (core sid id : Nat) : ∀ (g : Nat) {s : State} {sh : Sheet}, s.sheet? sid = some sh →
    (netPaid s core g (.access sid id)).sheet? sid = some { sh with queue := sh.queue.map (Access.tokens id g) }
  | 0, s, sh, h => h.trans (by
      have hsame : Access.tokens id 0 = fun a => a := funext fun a => by unfold Access.tokens; split <;> rfl
      rw [hsame, List.map_id'])
  | g + 1, s, sh, h => by
    have h1 : (netPay s core (.access sid id)).sheet? sid = some { sh with queue := sh.queue.map (Access.tokens id 1) } := by
      simp [netPay, State.sheet?_mapSheet, h, Access.tokens]
    rw [netPaid_succ, netPaid_access core sid id g h1]
    simp [Function.comp_def, Access.tokens_tokens, Nat.add_comm]

theorem netPaid_command (core e num : Nat) : ∀ (g : Nat) {s : State} {k : Cmd}, lookup (s.core core).cmds e = some k → k.num = num →
    lookup ((netPaid s core g (.command e num)).core core).cmds e = some { k with paid := k.paid + g }
  | 0, s, k, h, _ => h
  | g + 1, s, k, h, hk => by
    have h1 : lookup ((netPay s core (.command e num)).core core).cmds e = some { k with paid := k.paid + 1 } := by
      simp [netPay, h, hk]
    rw [netPaid_succ, netPaid_command core e num g h1 hk]
    simp only [Nat.add_assoc, Nat.add_comm 1]

/-! ## A cycle of the port -/

/-- The port as a cycle's rotation begins. -/
def portCycle (s : State) (core : Nat) : Core := { s.core core with netTurn := portTurn s core }

theorem networkSectorGrant_of_ready {s : State} {core : Nat} (h : portReady s core = true) : networkSectorGrant core s =
    (grantSectors 4 (portCycle s core)).2.foldl (fun s w => netPay s core w)
      (s.setCore core { (grantSectors 4 (portCycle s core)).1 with netAt := s.cycle core + 1 }) := if_pos h
theorem networkSectorGrant_of_not_ready {s : State} {core : Nat} (h : portReady s core = false) : networkSectorGrant core s = s :=
  if_neg (by simp [h])

theorem portReady_of {s : State} {core p : Nat} (hat : (s.core core).netAt ≠ s.cycle core + 1) (hp : p < 40)
    (h : portAsks (s.core core) p = true) : portReady s core = true := by
  obtain ⟨q, hq, -⟩ := portNext_isSome hp h
  simp [portReady, hat, grantSector_of_some hq]

/-- What a cycle leaves of memory, and of its port. -/
theorem networkSectorGrant_frame {s : State} {core : Nat} (h : portReady s core = true) : SameMemory s (networkSectorGrant core s) ∧
    ∃ c, (networkSectorGrant core s).core core =
      { (grantSectors 4 (portCycle s core)).1 with netAt := s.cycle core + 1, cmds := c } := by
  rw [networkSectorGrant_of_ready h]
  obtain ⟨hmem, c, hc⟩ := foldl_netPay_frame core (grantSectors 4 (portCycle s core)).2
    (s.setCore core { (grantSectors 4 (portCycle s core)).1 with netAt := s.cycle core + 1 })
  exact ⟨sameMemory_of_mem hmem, c, by rw [hc, State.core_setCore]⟩

/-- A cycle of a port takes tokens from buckets, and gives none. -/
theorem networkSectorGrant_bucket_le (s : State) (core p : Nat) :
    SameMemory s (networkSectorGrant core s) ∧ getD ((networkSectorGrant core s).core core).buckets 0 p ≤ getD (s.core core).buckets 0 p := by
  cases h : portReady s core with
  | false => rw [networkSectorGrant_of_not_ready h]; exact ⟨fun _ => rfl, le_rfl⟩
  | true =>
    obtain ⟨hmem, c, hc⟩ := networkSectorGrant_frame h
    exact ⟨hmem, by rw [hc]; exact grantSectors_bucket_le 4 (portCycle s core) p⟩

/-- Two partitions that wait with two tokens each have two sectors of a cycle each. -/
theorem networkSectorGrant_pair {s : State} {core p q n m : Nat} {who who' : NetWho} (hp : p < 40) (hq : q < 40) (hne : p ≠ q)
    (hn : 3 ≤ n) (hm : 3 ≤ m) (hqueue : (s.core core).netQueue = [⟨p, n, who⟩, ⟨q, m, who'⟩])
    (hbp : 2 ≤ getD (s.core core).buckets 0 p) (hbq : 2 ≤ getD (s.core core).buckets 0 q) (hat : (s.core core).netAt ≠ s.cycle core + 1) :
    let t := networkSectorGrant core s
    SameMemory s t ∧ (t.core core).netQueue = [⟨p, n - 2, who⟩, ⟨q, m - 2, who'⟩] ∧
      getD (t.core core).buckets 0 p = getD (s.core core).buckets 0 p - 2 ∧ getD (t.core core).buckets 0 q = getD (s.core core).buckets 0 q - 2 := by
  obtain ⟨n, rfl⟩ := Nat.exists_eq_add_of_le' hn
  obtain ⟨m, rfl⟩ := Nat.exists_eq_add_of_le' hm
  obtain ⟨b, hb⟩ := Nat.exists_eq_add_of_le' hbp
  obtain ⟨c, hc⟩ := Nat.exists_eq_add_of_le' hbq
  have hpair : Pair (portCycle s core) p q (n + 3) (m + 3) who who' (b + 2) (c + 2) := ⟨hqueue, hb, hc⟩
  have hasks : portAsks (s.core core) p = true := hpair.asksFst (by omega)
  obtain ⟨hmem, l, hl⟩ := networkSectorGrant_frame (portReady_of hat hp hasks)
  have hdone := hpair.grantSectors hp hq hne
  refine ⟨hmem, ?_⟩
  rw [hl, hb, hc]
  exact ⟨hdone.queue, hdone.fst, hdone.snd⟩

/-- One request alone has the sectors that it asks for and has tokens for, four at most. -/
theorem networkSectorGrant_lone {s : State} {core p n : Nat} {who : NetWho} (hp : p < 40) (hn : 1 ≤ n)
    (hqueue : (s.core core).netQueue = [⟨p, n, who⟩]) (hb : 1 ≤ getD (s.core core).buckets 0 p)
    (hat : (s.core core).netAt ≠ s.cycle core + 1) :
    let t := networkSectorGrant core s
    let got := min 4 (min n (getD (s.core core).buckets 0 p))
    SameMemory s t ∧ (t.core core).netAt = s.cycle core + 1 ∧ getD (t.core core).buckets 0 p = getD (s.core core).buckets 0 p - got ∧
    (t.core core).netQueue = (if got = n then [] else [⟨p, n - got, who⟩]) ∧
    ∃ s', t = netPaid s' core got who ∧ s'.sheets = s.sheets ∧ (s'.core core).cmds = (s.core core).cmds := by
  intro t got
  have hlone : Lone (portCycle s core) p n who (getD (s.core core).buckets 0 p) := ⟨by rw [if_neg (by omega)]; exact hqueue, rfl⟩
  have hready : portReady s core = true := portReady_of hat hp ((hlone.asks p).2 ⟨rfl, by omega, by omega⟩ :)
  obtain ⟨hmem, l, hl⟩ := networkSectorGrant_frame hready
  obtain ⟨hwho, hqueue', hbucket⟩ := hlone.grantSectors hp 4
  refine ⟨hmem, by rw [hl], by rw [hl]; exact hbucket, ?_, s.setCore core { (grantSectors 4 (portCycle s core)).1 with netAt := s.cycle core + 1 }, ?_, rfl, ?_⟩
  · rw [hl]
    refine hqueue'.trans (if_congr ?_ rfl rfl)
    show n - got = 0 ↔ got = n
    omega
  · rw [netPaid, ← hwho]
    exact networkSectorGrant_of_ready hready
  · rw [State.core_setCore]
    exact grantSectors_cmds 4 _

/-- Settles O55: a controller's least unblocked tag by the scan over the places in order, a port's cycle by the rotation behind each
sector, and the shares of a period's end key by key. -/
theorem bandwidthShares : Obligations.BandwidthShares := by
  unfold Obligations.BandwidthShares
  intro s
  refine ⟨fun ch cls n sector hch => memoryRequestArrival_does s cls n sector hch, fun ch hch hw => memoryRequestServe_does s hch hw,
    fun core hcore => ?_, fun core hcore h => refillPeriodEnd_does s hcore h⟩
  have hexec : exec (.networkSectorGrant core) s = .next (networkSectorGrant core s) := runAt_ok (coreOk_of_lt hcore) ..
  refine ⟨fun h => hexec.trans (by rw [networkSectorGrant_of_not_ready h]),
    does_next hexec ⟨(networkSectorGrant_bucket_le s core 0).1, fun p => (networkSectorGrant_bucket_le s core p).2⟩, ?_, ?_⟩
  · intro p q n m who who' hp hq hne hn hm hqueue hbp hbq hat
    exact does_next hexec (networkSectorGrant_pair hp hq hne hn hm hqueue hbp hbq hat)
  · intro p n who hp hn hqueue hb hat
    obtain ⟨hmem, hnetAt, hbucket, hqueue', s', ht, hsheets, hcmds⟩ := networkSectorGrant_lone hp hn hqueue hb hat
    have hsheet? : ∀ k, s'.sheet? k = s.sheet? k := fun k => by rw [State.sheet?, hsheets, State.sheet?]
    refine does_next hexec ⟨hmem, hnetAt, hbucket, hqueue', ?_, ?_, ?_⟩
    · rintro sid sh f rfl hsh hf
      rw [ht]
      exact netPaid_fetch core sid _ ((hsheet? sid).trans hsh) hf
    · rintro sid id sh rfl hsh
      rw [ht]
      exact netPaid_access core sid id _ ((hsheet? sid).trans hsh)
    · rintro e num k rfl hk hnum
      rw [ht]
      exact netPaid_command core e num _ (hcmds ▸ hk) hnum

end Sys2Proof.Machine
end

section
/-! What a command writes (R223, R317): its last write stands where it goes, whatever was written, and performed at homes, before it. -/

namespace Sys2Proof.Machine

/-! ## The words that homes take back from L1s -/

/-- Of the cores, words of L1s alone differ. -/
structure L1sOnly (s t : State) : Prop where
  core : ∀ c, ∃ l, t.core c = { s.core c with l1 := l }

theorem L1sOnly.of_cores {s t : State} (h : t.cores = s.cores) : L1sOnly s t := ⟨fun c => ⟨_, congrArg (getD · Core.reset c) h⟩⟩
theorem L1sOnly.refl (s : State) : L1sOnly s s := .of_cores rfl
theorem L1sOnly.trans {s t u : State} (h : L1sOnly s t) (k : L1sOnly t u) : L1sOnly s u := ⟨fun c => by
  obtain ⟨l, hl⟩ := h.core c
  obtain ⟨l', hl'⟩ := k.core c
  exact ⟨l', by rw [hl', hl]⟩⟩
theorem L1sOnly.foldl {α : Type} {f : State → α → State} (h : ∀ s a, L1sOnly s (f s a)) :
    ∀ (l : List α) (s : State), L1sOnly s (l.foldl f s)
  | [], s => .refl s
  | a :: l, s => (h s a).trans (L1sOnly.foldl h l (f s a))

theorem invalidateWord_l1sOnly (s : State) (core w : Nat) : L1sOnly s (invalidateWord s core w) := by
  refine L1sOnly.trans (t := s.mapCore core (fun c => { c with l1 := drop (drop c.l1 (l1Key 0 w)) (l1Key 1 w) })) ⟨fun c => ?_⟩
    (.of_cores (invalidateWord_cores ..))
  by_cases hc : c = core
  · subst hc; exact ⟨_, State.core_mapCore ..⟩
  · exact ⟨_, State.core_mapCore_ne _ _ _ _ hc⟩
theorem recallWords_l1sOnly (s : State) (keep : Nat) (ws : List Nat) : L1sOnly s (recallWords s keep ws) := by
  rw [recallWords_eq]
  refine L1sOnly.foldl (fun s w => ?_) ws s
  unfold recallWord
  split
  · exact invalidateWord_l1sOnly ..
  · exact .refl s
theorem evictLine_l1sOnly (s : State) (line : Nat) : L1sOnly s (evictLine s line) :=
  (recallWords_l1sOnly s 0 (lineWords line)).trans (.of_cores (evictLine_frame s line).1)
theorem l2Allocate_l1sOnly (s : State) (x : Asker) (line : Nat) : L1sOnly s (l2Allocate s x line) := by
  unfold l2Allocate
  split
  · exact .refl s
  · extract_lets full vs s1
    have hs1 : L1sOnly s s1 := by
      unfold s1
      split
      · have h := evictLine_l1sOnly s (vs.getD (s.free 1002 % max vs.length 1) line)
        generalize evictLine s (vs.getD (s.free 1002 % max vs.length 1) line) = t at h ⊢
        exact h.trans (.of_cores rfl)
      · exact .refl s
    exact hs1.trans (.of_cores rfl)
theorem l2Sector_l1sOnly (x : Asker) (write : Bool) (pa n : Nat) (s : State) (q : Nat) : L1sOnly s (l2Sector x write pa n s q) := by
  unfold l2Sector
  extract_lets line s1
  have hs1 : L1sOnly s s1 := l2Allocate_l1sOnly s x line
  split
  · exact hs1
  · refine hs1.trans (.of_cores ?_)
    obtain ⟨c, hc⟩ := memRequest_channels s1 x (32 * q) false
    split
    · rfl
    · rw [hc]
theorem l2Touch_l1sOnly (s : State) (x : Asker) (write : Bool) (pa n : Nat) : L1sOnly s (l2Touch s x write pa n) :=
  .foldl (l2Sector_l1sOnly x write pa n) _ s

/-! ## What the writes of a command leave for those behind them -/

/-- The workgroups and sheets are there, on their columns, and each core is under scrub as before. -/
structure Undisturbed (s t : State) : Prop where
  scrub : ∀ c, (t.core c).scrub = (s.core c).scrub
  wg : ∀ g x, s.wg? g = some x → ∃ x', t.wg? g = some x' ∧ x'.core = x.core ∧ x'.col = x.col
  sheet : ∀ k x, s.sheet? k = some x → ∃ x', t.sheet? k = some x'

theorem L1sOnly.scrub {s t : State} (h : L1sOnly s t) (c : Nat) : (t.core c).scrub = (s.core c).scrub := by
  obtain ⟨l, hl⟩ := h.core c
  rw [hl]

theorem Undisturbed.of_same {s t : State} (hc : L1sOnly s t) (hw : t.wgs = s.wgs) (hs : t.sheets = s.sheets) : Undisturbed s t where
  scrub := hc.scrub
  wg g x h := ⟨x, by rw [State.wg?, hw]; exact h, rfl, rfl⟩
  sheet k x h := ⟨x, by rw [State.sheet?, hs]; exact h⟩
theorem Undisturbed.refl (s : State) : Undisturbed s s := .of_same (.refl s) rfl rfl
theorem Undisturbed.trans {s t u : State} (h : Undisturbed s t) (k : Undisturbed t u) : Undisturbed s u where
  scrub c := (k.scrub c).trans (h.scrub c)
  wg g x hx := by
    obtain ⟨y, hy, hcore, hcol⟩ := h.wg g x hx
    obtain ⟨z, hz, hcore', hcol'⟩ := k.wg g y hy
    exact ⟨z, hz, hcore'.trans hcore, hcol'.trans hcol⟩
  sheet i x hx := by
    obtain ⟨y, hy⟩ := h.sheet i x hx
    exact k.sheet i y hy
theorem Undisturbed.foldl {α : Type} {f : State → α → State} (h : ∀ s a, Undisturbed s (f s a)) :
    ∀ (l : List α) (s : State), Undisturbed s (l.foldl f s)
  | [], s => .refl s
  | a :: l, s => (h s a).trans (Undisturbed.foldl h l (f s a))
theorem L2Only.undisturbed {s t : State} (h : L2Only s t) (hc : L1sOnly s t) : Undisturbed s t := .of_same hc (by rw [h]) (by rw [h])

theorem wg?_mapWg_ne (s : State) {g k : Nat} (f : Workgroup → Workgroup) (h : k ≠ g) : (s.mapWg g f).wg? k = s.wg? k := by
  unfold State.mapWg
  split
  · exact State.wg?_setWg_ne _ _ _ _ h
  · rfl
theorem mapWg_undisturbed (s : State) (g : Nat) {f : Workgroup → Workgroup} (hf : ∀ x, (f x).core = x.core ∧ (f x).col = x.col) :
    Undisturbed s (s.mapWg g f) where
  scrub c := by rw [State.core, State.mapWg_cores, ← State.core]
  wg k x hx := by
    by_cases hk : k = g
    · subst hk
      exact ⟨f x, by rw [State.wg?_mapWg, hx]; rfl, hf x⟩
    · exact ⟨x, by rw [wg?_mapWg_ne _ _ hk, hx], rfl, rfl⟩
  sheet k x hx := ⟨x, by rw [State.sheet?, State.mapWg_sheets]; exact hx⟩
theorem mapSheet_undisturbed (s : State) (k : Nat) (f : Sheet → Sheet) : Undisturbed s (s.mapSheet k f) where
  scrub c := by rw [State.core, State.mapSheet_cores, ← State.core]
  wg g x hx := ⟨x, by rw [State.wg?, State.mapSheet_wgs]; exact hx, rfl, rfl⟩
  sheet j x hx := by
    by_cases hj : j = k
    · subst hj
      exact ⟨f x, by rw [State.sheet?_mapSheet, hx]; rfl⟩
    · exact ⟨x, by rw [State.sheet?_mapSheet_ne _ _ _ _ hj, hx]⟩

theorem homeWrite_undisturbed (s : State) (pa : Nat) (bs : List Byte) : Undisturbed s (homeWrite s pa bs) := by
  obtain ⟨m, f, h⟩ := homeWrite_eq s pa bs
  rw [h]
  exact { scrub := fun c => rfl, wg := fun g x hx => ⟨x, hx, rfl, rfl⟩,
          sheet := fun k x hx => ⟨_, (lookup_map_val s.sheets (fun e => (e.1, e.2.waits (f e.2))) (fun x => x.waits (f x)) (fun _ _ => rfl) k).trans
            (congrArg (Option.map _) hx)⟩ }
theorem askerEvent_undisturbed (s : State) (x : Asker) (ev n : Nat) : Undisturbed s (x.event s ev n) := by
  obtain ⟨p, a, h⟩ := asker_event_only x s ev n
  rw [h]
  exact .of_same (.of_cores rfl) rfl rfl
theorem homePerform_undisturbed (s : State) (h : HomeStore) : Undisturbed s (homePerform s h) := by
  unfold homePerform
  split
  · exact .refl s
  · extract_lets ws
    have hUse : Undisturbed s (l2Use s ⟨h.part, h.core, h.sid, h.slot⟩ true h.pa h.bytes.length) :=
      ((l2Touch_only ..).undisturbed (l2Touch_l1sOnly ..)).trans (askerEvent_undisturbed ..)
    have hRecall := hUse.trans ((recallWords_only _ (h.core + 1) ws).undisturbed (recallWords_l1sOnly ..))
    generalize recallWords (l2Use s ⟨h.part, h.core, h.sid, h.slot⟩ true h.pa h.bytes.length) (h.core + 1) ws = t at hRecall ⊢
    have hRegister : Undisturbed t (registerWords t h.core ws) := .of_same (.of_cores rfl) rfl rfl
    exact (hRecall.trans hRegister).trans (homeWrite_undisturbed _ h.pa h.bytes)
theorem drainHomes_undisturbed (s : State) (p : HomeStore → Bool) : Undisturbed s (drainHomes s p) := by
  unfold drainHomes
  extract_lets r
  have hTaken : Undisturbed s { s with homeq := r.2 } := .of_same (.of_cores rfl) rfl rfl
  exact hTaken.trans (.foldl homePerform_undisturbed r.1 _)
theorem reachHome_undisturbed (s : State) (core pa : Nat) : Undisturbed s (reachHome s core pa) := by
  unfold reachHome
  split
  · exact drainHomes_undisturbed ..
  · exact .refl s
theorem engineStore_undisturbed (s : State) (x : Asker) (pa : Nat) (bs : List Byte) : Undisturbed s (engineStore s x pa bs) := by
  have hTouch := (reachHome_undisturbed s x.core pa).trans ((l2Touch_only _ x true pa bs.length).undisturbed (l2Touch_l1sOnly ..))
  have hRecall := hTouch.trans ((recallWords_only _ 0 (wordsOf pa bs.length)).undisturbed (recallWords_l1sOnly ..))
  exact hRecall.trans (homeWrite_undisturbed ..)

theorem writeBuf_place (w : Workgroup) (isA : Bool) (off : Nat) (bs : List Byte) :
    (w.writeBuf isA off bs).core = w.core ∧ (w.writeBuf isA off bs).col = w.col := by
  unfold Workgroup.writeBuf
  split
  · exact ⟨rfl, rfl⟩
  · exact ⟨rfl, rfl⟩
theorem applyWrite_undisturbed (x : Asker) (s : State) (w : CmdWrite) : Undisturbed s (applyWrite x s w) := by
  cases w with
  | abuf g off bs =>
    unfold applyWrite
    dsimp only
    split
    · exact mapWg_undisturbed _ _ fun _ => writeBuf_place ..
    · exact .of_same (.of_cores rfl) rfl rfl
  | wbuf g off bs => exact mapWg_undisturbed _ _ fun _ => writeBuf_place ..
  | glob pa bs => exact engineStore_undisturbed ..
  | tile g p row l => exact mapWg_undisturbed _ _ fun _ => ⟨rfl, rfl⟩
  | limb g k v => exact mapWg_undisturbed _ _ fun _ => ⟨rfl, rfl⟩
  | vreg sid key v => exact mapSheet_undisturbed ..

/-! ## One write stands -/

theorem getD_setRun_out : ∀ (bs : List Byte) (m : SMap Byte) (off : Nat) {c : Nat}, c < off ∨ off + bs.length ≤ c →
    getD (setRun m off bs) 0 c = getD m 0 c
  | [], _, _, _, _ => rfl
  | b :: bs, m, off, c, h => by
    rw [List.length_cons] at h
    rw [setRun, getD_setRun_out bs _ _ (by omega), getD_setD_ne _ _ _ _ _ (by omega)]
theorem getD_setRun : ∀ (bs : List Byte) (m : SMap Byte) (off : Nat) {k : Nat}, (hk : k < bs.length) →
    getD (setRun m off bs) 0 (off + k) = bs[k]
  | b :: bs, m, off, 0, _ => by
    rw [setRun, getD_setRun_out bs _ _ (by omega), Nat.add_zero, getD_setD_self]
    rfl
  | b :: bs, m, off, k + 1, hk => by
    have h := getD_setRun bs (setD m 0 off b) (off + 1) (k := k) (by simpa using hk)
    rwa [Nat.add_assoc, Nat.add_comm 1 k] at h
/-- A run written to a buffer reads as it was written. -/
theorem readBuf_writeBuf (w : Workgroup) (isA : Bool) (off : Nat) (bs : List Byte) :
    (w.writeBuf isA off bs).readBuf isA off bs.length = bs := by
  refine List.ext_getElem (by simp [Workgroup.readBuf]) fun k _ hk => ?_
  simp only [Workgroup.readBuf, List.getElem_map, List.getElem_range]
  cases isA with
  | false => exact getD_setRun bs w.wbuf off hk
  | true => exact getD_setRun bs w.abuf off hk

theorem tileKey_inj {t row i j : Nat} (h : tileKey t row i = tileKey t row j) : i = j := by
  unfold tileKey at h; omega
/-- A row written to a tile reads as it was written, the row's columns being places of their own. -/
theorem getD_setTileRow (w : Workgroup) (t row : Nat) (l : List (BitVec 32)) {j : Nat} (hj : j < l.length) :
    getD (w.setTileRow t row l).tiles 0 (tileKey t row j) = l.getD j 0 := by
  have hfold : ∀ (l : List (BitVec 32)) (i : Nat) (m : SMap (BitVec 32)) (j : Nat),
      getD ((l.zipIdx i).foldl (fun m (v, j) => setD m 0 (tileKey t row j) v) m) 0 (tileKey t row j) =
        if i ≤ j ∧ j < i + l.length then l.getD (j - i) 0 else getD m 0 (tileKey t row j) := by
    intro l
    induction l with
    | nil => intro i m j; rw [if_neg (by simp)]; rfl
    | cons v l ih =>
      intro i m j
      rw [List.zipIdx_cons, List.foldl_cons, ih, List.length_cons]
      by_cases hij : j = i
      · subst hij
        simp [getD_setD_self]
      · rw [getD_setD_ne _ _ _ _ _ (fun h => hij (tileKey_inj h))]
        by_cases hin : i + 1 ≤ j ∧ j < i + 1 + l.length
        · rw [if_pos hin, if_pos (by omega), show j - i = (j - (i + 1)) + 1 by omega, List.getD_cons_succ]
        · rw [if_neg hin, if_neg (by omega)]
  exact (hfold l 0 w.tiles j).trans (by rw [if_pos (by omega), Nat.sub_zero])

theorem scrubHolds_undisturbed {s t : State} (h : Undisturbed s t) {g : Nat} {x : Workgroup} (hx : s.wg? g = some x)
    (hs : scrubHolds s g = false) : scrubHolds t g = false := by
  obtain ⟨y, hy, hcore, hcol⟩ := h.wg g x hx
  unfold scrubHolds at hs ⊢
  rw [hx, Option.any_some] at hs
  rw [hy, Option.any_some, hcore, hcol, h.scrub, hs]

/-- A write that no scrub holds stands where it goes, behind the writes before it. -/
theorem applyWrite_made {s t : State} (h : Undisturbed s t) (x : Asker) {w : CmdWrite} (hw : outHeld s w = false) :
    OutMade s (applyWrite x t w) w := by
  cases w with
  | abuf g off bs =>
    intro y hy
    obtain ⟨z, hz, -⟩ := h.wg g y hy
    have hgo : (t.wg? g).isSome ∧ scrubHolds t g = false := ⟨by rw [hz]; rfl, scrubHolds_undisturbed h hy hw⟩
    refine ⟨z.writeBuf true off bs, ?_, readBuf_writeBuf ..⟩
    rw [applyWrite, if_pos hgo, State.wg?_mapWg, hz, Option.map_some]
  | wbuf g off bs =>
    intro y hy
    obtain ⟨z, hz, -⟩ := h.wg g y hy
    exact ⟨z.writeBuf false off bs, by rw [applyWrite, State.wg?_mapWg, hz, Option.map_some], readBuf_writeBuf ..⟩
  | glob pa bs => exact (wroteRun_homeWrite _ pa bs).1
  | tile g p row l =>
    intro _ y hy
    obtain ⟨z, hz, -⟩ := h.wg g y hy
    exact ⟨z.setTileRow p row l, by rw [applyWrite, State.wg?_mapWg, hz, Option.map_some], fun j hj => getD_setTileRow z p row l hj⟩
  | limb g k v =>
    intro y hy
    obtain ⟨z, hz, -⟩ := h.wg g y hy
    exact ⟨{ z with limbs := setD z.limbs 0 k v }, by rw [applyWrite, State.wg?_mapWg, hz, Option.map_some], getD_setD_self ..⟩
  | vreg sid key v =>
    intro y hy
    obtain ⟨z, hz⟩ := h.sheet sid y hy
    exact ⟨{ z with v := setD z.v 0 key v }, by rw [applyWrite, State.sheet?_mapSheet, hz, Option.map_some], getD_setD_self ..⟩

/-! ## What follows a command's writes -/

/-- Memory, sheets and what workgroups hold are as before, but for IOVF. -/
structure SameStores (s t : State) : Prop where
  mem : t.mem = s.mem
  sheets : t.sheets = s.sheets
  wg : ∀ g x, s.wg? g = some x → ∃ b, t.wg? g = some { x with iovf := b }

theorem SameStores.of_same {s t : State} (hm : t.mem = s.mem) (hs : t.sheets = s.sheets) (hw : t.wgs = s.wgs) : SameStores s t where
  mem := hm
  sheets := hs
  wg g x hx := ⟨x.iovf, by rw [State.wg?, hw]; exact hx⟩
theorem SameStores.refl (s : State) : SameStores s s := .of_same rfl rfl rfl
theorem SameStores.trans {s t u : State} (h : SameStores s t) (k : SameStores t u) : SameStores s u where
  mem := k.mem.trans h.mem
  sheets := k.sheets.trans h.sheets
  wg g x hx := by
    obtain ⟨b, hb⟩ := h.wg g x hx
    obtain ⟨b', hb'⟩ := k.wg g _ hb
    exact ⟨b', hb'⟩
theorem SameStores.foldl {α : Type} {f : State → α → State} (h : ∀ s a, SameStores s (f s a)) :
    ∀ (l : List α) (s : State), SameStores s (l.foldl f s)
  | [], s => .refl s
  | a :: l, s => (h s a).trans (SameStores.foldl h l (f s a))
theorem L2Only.sameStores {s t : State} (h : L2Only s t) : SameStores s t := .of_same (by rw [h]) (by rw [h]) (by rw [h])

/-- What stands goes on standing. -/
theorem OutMade.of_sameStores {s t u : State} {w : CmdWrite} (h : OutMade s t w) (k : SameStores t u) : OutMade s u w := by
  cases w with
  | abuf g off bs =>
    intro x hx
    obtain ⟨y, hy, hread⟩ := h x hx
    obtain ⟨b, hb⟩ := k.wg g y hy
    exact ⟨_, hb, hread⟩
  | wbuf g off bs =>
    intro x hx
    obtain ⟨y, hy, hread⟩ := h x hx
    obtain ⟨b, hb⟩ := k.wg g y hy
    exact ⟨_, hb, hread⟩
  | glob pa bs => exact fun j hj => (sameMemory_of_mem k.mem (pa + j)).trans (h j hj)
  | tile g p row l =>
    intro hl x hx
    obtain ⟨y, hy, hread⟩ := h hl x hx
    obtain ⟨b, hb⟩ := k.wg g y hy
    exact ⟨_, hb, hread⟩
  | limb g i v =>
    intro x hx
    obtain ⟨y, hy, hread⟩ := h x hx
    obtain ⟨b, hb⟩ := k.wg g y hy
    exact ⟨_, hb, hread⟩
  | vreg sid key v =>
    intro x hx
    obtain ⟨y, hy, hread⟩ := h x hx
    exact ⟨y, by rw [State.sheet?, k.sheets]; exact hy, hread⟩

theorem event_sameStores (s : State) (part core sid slot ev n : Nat) : SameStores s (s.event part core sid slot ev n) :=
  .of_same (State.event_mem ..) (State.event_sheets ..) (State.event_wgs ..)
theorem askerEvent_sameStores (x : Asker) (s : State) (ev n : Nat) : SameStores s (x.event s ev n) := by
  obtain ⟨p, a, h⟩ := asker_event_only x s ev n
  rw [h]
  exact .of_same rfl rfl rfl
theorem copyArrival_sameStores (s : State) (c : Cmd) (k : CopyShape) : SameStores s (copyArrival s c k) := by
  unfold copyArrival
  dsimp only
  split
  · exact .refl s
  · split
    · exact .refl s
    · exact .of_same rfl rfl rfl
theorem iovf_sameStores (s : State) (g : Nat) : SameStores s (s.mapWg g (fun w => { w with iovf := true })) where
  mem := State.mapWg_mem ..
  sheets := State.mapWg_sheets ..
  wg k x hx := by
    by_cases hk : k = g
    · subst hk
      exact ⟨true, by rw [State.wg?_mapWg, hx, Option.map_some]⟩
    · exact ⟨x.iovf, by rw [wg?_mapWg_ne _ _ hk, hx]⟩

/-- The last write of a command stands once all have taken place. -/
theorem applyWrites_made {s t : State} (h : Undisturbed s t) (core : Nat) (c : Cmd) {l : List CmdWrite} {w : CmdWrite}
    (hw : outHeld s w = false) : OutMade s (applyWrites t core c (l ++ [w])) w := by
  unfold applyWrites
  extract_lets x
  rw [List.foldl_append]
  exact (applyWrite_made (h.trans (.foldl (applyWrite_undisturbed _) l t)) _ hw).of_sameStores (askerEvent_sameStores ..)

end Sys2Proof.Machine
end

section
/-! A command's life (R221 to R225, R244, R253, R254): its issue, the grant of its units, its completion, its status, and its end or
resumption behind a cause. -/

namespace Sys2Proof.Machine

/-! ## Entries of the table -/

theorem entryOk_of_lt {core e : Nat} (hc : core < 1536) (he : e < 32) : entryOk core e = true := by
  simp only [entryOk, coreOk, Bool.and_eq_true, decide_eq_true_eq]
  exact ⟨hc, he⟩

@[simp] theorem State.cmd?_setCmd (s : State) (core e : Nat) (c : Cmd) : (s.setCmd core e c).cmd? core e = some c := by
  simp [State.cmd?, State.setCmd]
theorem State.cmd?_setCmd_ne (s : State) (core : Nat) {e k : Nat} (c : Cmd) (h : k ≠ e) :
    (s.setCmd core e c).cmd? core k = s.cmd? core k := by
  simp [State.cmd?, State.setCmd, lookup_put_ne _ _ _ _ h]
theorem State.cmd?_of_cmds {s t : State} {core : Nat} (h : (t.core core).cmds = (s.core core).cmds) (k : Nat) :
    t.cmd? core k = s.cmd? core k := congrArg (lookup · k) h
theorem State.core_of_cores {s t : State} (h : t.cores = s.cores) (c : Nat) : t.core c = s.core c := congrArg (getD · Core.reset c) h

/-- A request for sectors changes its core's port alone. -/
theorem askCmd_frame (s : State) (core e : Nat) (c : Cmd) (n : Nat) : (askCmd s core e c n).mem = s.mem ∧
    (askCmd s core e c n).sheets = s.sheets ∧ (askCmd s core e c n).clusters = s.clusters ∧
    ((askCmd s core e c n).core core).cmds = (s.core core).cmds := by
  unfold askCmd netAsk
  split
  · exact ⟨rfl, rfl, rfl, rfl⟩
  · split
    · exact ⟨rfl, rfl, rfl, rfl⟩
    · exact ⟨rfl, rfl, rfl, by rw [State.core_mapCore]⟩

/-! ## Start (R223) -/

/-- A command is started, and nothing changes in memory, sheets, clusters and the other entries. -/
structure Started (s t : State) (core e : Nat) (c : Cmd) : Prop where
  mem : t.mem = s.mem
  sheets : t.sheets = s.sheets
  clusters : t.clusters = s.clusters
  entry : t.cmd? core e = some { c with phase := .started, start := engineStart s core c }
  others : ∀ k, k ≠ e → t.cmd? core k = s.cmd? core k

theorem startCmd_started {s : State} {core e : Nat} {c : Cmd} (h : s.cmd? core e = some c) : Started s (startCmd s core e) core e c := by
  unfold startCmd
  rw [h]
  dsimp only
  generalize hs1 : (tally s (partOfCmd s c)).setCmd core e
    { c with phase := .started, start := engineStart (tally s (partOfCmd s c)) core c } = s1
  have h1 : Started s s1 core e c := by
    subst hs1
    exact { mem := rfl, sheets := rfl, clusters := rfl, entry := State.cmd?_setCmd .., others := fun k hk => State.cmd?_setCmd_ne _ _ _ hk }
  obtain ⟨hmem, hsheets, hclusters, hcmds⟩ := askCmd_frame s1 core e c (readSectors s1 core c)
  generalize askCmd s1 core e c (readSectors s1 core c) = s2 at hmem hsheets hclusters hcmds ⊢
  have h2 : Started s s2 core e c :=
    { mem := hmem.trans h1.mem, sheets := hsheets.trans h1.sheets, clusters := hclusters.trans h1.clusters,
      entry := (State.cmd?_of_cmds hcmds e).trans h1.entry, others := fun k hk => (State.cmd?_of_cmds hcmds k).trans (h1.others k hk) }
  split
  · have hcores (k : Nat) : (s2.event (partOfCmd s2 c) core c.sid c.slot 5 1).cmd? core k = s2.cmd? core k :=
      State.cmd?_of_cmds (congrArg Core.cmds (State.core_of_cores (State.event_cores ..) core)) k
    exact { mem := (State.event_mem ..).trans h2.mem, sheets := (State.event_sheets ..).trans h2.sheets,
            clusters := (State.event_clusters ..).trans h2.clusters, entry := (hcores e).trans h2.entry,
            others := fun k hk => (hcores k).trans (h2.others k hk) }
  · exact h2

/-! ## Issue and grant (R221, R222, R254) -/

/-- Whether a request goes before another of its cycle. -/
def ResvReq.before (q p : ResvReq) : Prop := p.at_ = q.at_ ∧ q.core * 32 + q.e < p.core * 32 + p.e

theorem enterResv_split (q : ResvReq) : ∀ l : List ResvReq, ∃ a b, l = a ++ b ∧ enterResv q l = a ++ [q] ++ b ∧
    (∀ p ∈ a, ¬ q.before p) ∧ ∀ p, b.head? = some p → q.before p
  | [] => ⟨[], [], rfl, rfl, by simp, by simp⟩
  | p :: l => by
    by_cases h : q.before p
    · exact ⟨[], p :: l, rfl, if_pos (h.imp_left Eq.symm), by simp, fun x hx => Option.some.inj hx ▸ h⟩
    · obtain ⟨a, b, hl, hq, ha, hb⟩ := enterResv_split q l
      exact ⟨p :: a, b, by rw [hl]; rfl, (if_neg (mt (And.imp_left Eq.symm) h)).trans (by rw [hq]; rfl), List.forall_mem_cons.2 ⟨h, ha⟩, hb⟩

theorem commandIssue_start {s : State} {core e : Nat} {c : Cmd} (h : s.cmd? core e = some c) (hi : canIssue s core e = true)
    (hu : c.units = 0) : commandIssue core e s = startCmd s core e := by
  unfold commandIssue
  rw [hi, h]
  exact if_pos hu
theorem commandIssue_request {s : State} {core e : Nat} {c : Cmd} (h : s.cmd? core e = some c) (hi : canIssue s core e = true)
    (hu : c.units ≠ 0) : commandIssue core e s = (s.setCmd core e { c with phase := .requested }).setCluster (clusterOf core)
      { s.cluster (clusterOf core) with resv := enterResv ⟨core, e, c.units, s.cycle core, false⟩ (s.cluster (clusterOf core)).resv } := by
  unfold commandIssue
  rw [hi, h]
  exact if_neg hu

/-- A request taken from a cluster's queue changes no start. -/
theorem engineStart_setResv (s : State) (cl : Nat) (r : List ResvReq) (core : Nat) (c : Cmd) :
    engineStart (s.setCluster cl { s.cluster cl with resv := r }) core c = engineStart s core c := by
  have hcycle : (s.setCluster cl { s.cluster cl with resv := r }).cycle core = s.cycle core := by
    unfold State.cycle
    by_cases h : clusterOf core = cl
    · rw [h, State.cluster_setCluster]; rfl
    · rw [State.cluster_setCluster_ne _ _ _ _ h]; rfl
  unfold engineStart
  rw [hcycle]
  rfl

theorem reservationGrant_start {s : State} {cl : Nat} {q : ResvReq} {r : List ResvReq} (hr : (s.cluster cl).resv = q :: r)
    (hdefer : (s.cluster cl).defer = false) (hat : q.at_ < s.cycle q.core) (hfit : heldUnits s cl + q.units ≤ (s.cluster cl).budget) :
    reservationGrant cl s = startCmd (s.setCluster cl { s.cluster cl with resv := r }) q.core q.e := by
  have hg : grantable s cl = true := by simp [grantable, hr, hdefer, hat, hfit]
  unfold reservationGrant
  dsimp only
  rw [hr]
  exact if_pos hg

/-! ## Completion (R223) -/

/-- A completion writes the results, and changes no store behind them. -/
theorem commandCompletion_eq {s : State} {core e : Nat} {c : Cmd} (h : s.cmd? core e = some c) (hp : c.phase = .consumed)
    (hdue : c.start + (c.cycles s).2 ≤ s.cycle core) (hpaid : writeSectors s core c ≤ c.paid) (hheld : c.outs.any (outHeld s) = false) :
    ∃ t n, SameStores (applyWrites (tally s (partOfCmd s c)) core c c.outs) t ∧ commandCompletion core e s =
      t.setCmd core e { c with phase := .completed, outs := [], value := cmdValue e c, ended := n } := by
  unfold commandCompletion
  split
  · next hnone => exact absurd (h.symm.trans hnone) (by simp)
  · next d hd =>
    obtain rfl : c = d := Option.some.inj (h.symm.trans hd)
    rw [if_pos ⟨hp, hdue, hpaid, hheld⟩]
    extract_lets part s1 s2 s3 s4 s5
    have h3 : SameStores s2 s3 := by
      unfold s3
      split
      · exact iovf_sameStores ..
      · exact .refl s2
    have h4 : SameStores s3 s4 := by
      unfold s4
      split
      · extract_lets t
        have ht : SameStores s3 t := by
          unfold t
          split
          · exact .foldl (fun s w => (invalidateWord_only s core w).sameStores) _ s3
          · exact .refl s3
        exact (ht.trans (event_sameStores ..)).trans (copyArrival_sameStores ..)
      · exact .refl s3
    have h5 : SameStores s4 s5 := by
      unfold s5
      split
      · exact event_sameStores ..
      · exact event_sameStores ..
      · exact event_sameStores ..
      · exact .refl s4
    exact ⟨s5, _, (h3.trans h4).trans h5, rfl⟩

/-- A command whose results are due completes: its last write stands. -/
theorem commandCompletion_made {s : State} {core e : Nat} {c : Cmd} (h : s.cmd? core e = some c) (hp : c.phase = .consumed)
    (hdue : c.start + (c.cycles s).2 ≤ s.cycle core) (hpaid : writeSectors s core c ≤ c.paid) (hheld : c.outs.any (outHeld s) = false) :
    (∃ c', (commandCompletion core e s).cmd? core e = some c' ∧ c'.phase = .completed ∧ c'.outs = [] ∧ c'.value = cmdValue e c) ∧
    ∀ l w, c.outs = l ++ [w] → OutMade s (commandCompletion core e s) w := by
  obtain ⟨t, n, ht, heq⟩ := commandCompletion_eq h hp hdue hpaid hheld
  rw [heq]
  refine ⟨⟨_, State.cmd?_setCmd .., rfl, rfl, rfl⟩, fun l w hw => ?_⟩
  have hfree : outHeld s w = false := by
    have hnone := List.any_eq_false.1 hheld w (by rw [hw]; simp)
    simpa using hnone
  have htally : Undisturbed s (tally s (partOfCmd s c)) := .of_same (.of_cores rfl) rfl rfl
  rw [hw] at ht
  exact ((applyWrites_made htally core c hfree).of_sameStores ht).of_sameStores (.of_same rfl rfl rfl)

/-! ## Status (R224) -/

/-- The status of a sheet's oldest command on a unit lands, and its entry is free. -/
theorem statusLanding_landed {s : State} {sid e : Nat} {u : FUnit} {c : Cmd} {sh : Sheet} {f : Flight} (ho : oldestOf s sid u = some (e, c))
    (hp : c.phase = .completed) (hend : c.ended < s.cycle (coreOf sid)) (harr : arrivalUnderWay s (coreOf sid) c.num = false)
    (hsh : s.sheet? sid = some sh) (hf : OnlyFlight sh f) (hid : f.id = c.flight) (hst : f.stalling = true) :
    let t := statusLanding sid u s
    SameMemory s t ∧ t.cmd? (coreOf sid) e = none ∧ (∀ k, k ≠ e → t.cmd? (coreOf sid) k = s.cmd? (coreOf sid) k) ∧
      ∃ y, t.sheet? sid = some y ∧ Landed y f (some c.value) none := by
  intro t
  have ht : t = bindTiles ((s.dropCmd (coreOf sid) e).mapSheet sid (fun sh => sh.fill c.flight (some c.value) none)) c.wg := by
    unfold t statusLanding
    rw [ho]
    exact if_pos ⟨hp, hend, harr⟩
  have hcmds : (t.core (coreOf sid)).cmds = drop (s.core (coreOf sid)).cmds e := by
    have hcores : t.cores = (s.dropCmd (coreOf sid) e).cores := by
      rw [ht, bindTiles, State.mapWg_cores, State.mapSheet_cores]
    rw [State.core_of_cores hcores, State.dropCmd, State.core_mapCore]
  have hmem : t.mem = s.mem := by rw [ht, bindTiles, State.mapWg_mem, State.mapSheet_mem]; rfl
  refine ⟨sameMemory_of_mem hmem, ?_, fun k hk => ?_, sh.fill c.flight (some c.value) none, ?_, fill_landed hf hid hst ..⟩
  · rw [State.cmd?, hcmds, lookup_drop_self]
  · rw [State.cmd?, hcmds, lookup_drop_ne _ _ _ hk, ← State.cmd?]
  · have hsheets : t.sheets = ((s.dropCmd (coreOf sid) e).mapSheet sid (fun sh => sh.fill c.flight (some c.value) none)).sheets := by
      rw [ht, bindTiles, State.mapWg_sheets]
    have hsh' : (s.dropCmd (coreOf sid) e).sheet? sid = some sh := hsh
    rw [State.sheet?, hsheets, ← State.sheet?, State.sheet?_mapSheet, hsh', Option.map_some]

/-! ## Causes after commit (R225, R244, R284) -/

theorem takeCause_mem (s : State) (sid : Nat) (r : Trap) : (s.takeCause sid r).mem = s.mem := by
  unfold State.takeCause
  split
  · rfl
  · exact State.event_mem ..

/-- A sheet that runs stops with the oldest of its late causes. -/
theorem lateCauseStop_eq {s : State} {sid : Nat} {sh : Sheet} {r : Trap} {l : List Trap} (h : s.sheet? sid = some sh)
    (hl : sh.lates = r :: l) (hp : sh.park = .running) :
    lateCauseStop sid s = (s.mapSheet sid (fun sh => { sh with lates := l })).takeCause sid { r with ts := s.ts } := by
  unfold lateCauseStop
  rw [h]
  dsimp only
  rw [hl]
  exact if_pos hp

/-- The fields of a status word do not meet. -/
theorem statusWord_fields {e : Nat} (he : e < 32) (c : Cmd) : (statusWord e c).toNat % 256 = c.cause.code ∧
    (statusWord e c).toNat / 256 % 256 = e ∧ (statusWord e c).getLsbD 17 = c.canc := by
  have hcode : c.cause.code < 256 := by cases c.cause <;> decide
  have hovf : ofBool c.ovf ≤ 1 := by cases c.ovf <;> decide
  have hword : (statusWord e c).toNat = c.cause.code + 2 ^ 8 * e + 2 ^ 16 * ofBool c.ovf + 2 ^ 17 * ofBool c.canc := by
    have hcanc : ofBool c.canc ≤ 1 := by cases c.canc <;> decide
    rw [statusWord, w64, BitVec.toNat_ofNat]
    omega
  refine ⟨by rw [hword]; omega, by rw [hword]; omega, ?_⟩
  have hbit : (statusWord e c).toNat / 2 ^ 17 % 2 = ofBool c.canc := by
    have hcanc : ofBool c.canc ≤ 1 := by cases c.canc <;> decide
    rw [hword]
    omega
  rw [← bitAt_toNat, bitAt, hbit]
  cases c.canc <;> rfl

theorem cancelCmd_eq {s : State} {core e : Nat} {c : Cmd} (h : s.cmd? core e = some c) (hp : c.phase = .stopped) :
    ∃ c', cancelCmd core e s = (tally s (partOfCmd s c)).setCmd core e c' ∧ c'.phase = .completed ∧ c'.canc = true ∧ c'.outs = [] ∧
      c'.cause = c.cause ∧ ∃ d : Cmd, d.cause = c.cause ∧ d.canc = true ∧ c'.value = statusWord e d := by
  unfold cancelCmd
  rw [h]
  dsimp only
  rw [if_pos hp]
  exact ⟨_, rfl, rfl, rfl, rfl, rfl, { c with canc := true }, rfl, rfl, rfl⟩

/-- What an extraction writes is a run of the A buffer or a register: memory, the table and what sheets wait for stay. -/
theorem applyWrite_extWrite (x : Asker) (s : State) (c : Cmd) (q : Nat) (v : Int) : (applyWrite x s (extWrite c q v)).mem = s.mem ∧
    ∀ k sh, s.sheet? k = some sh → ∃ y, (applyWrite x s (extWrite c q v)).sheet? k = some y ∧ y.park = sh.park ∧ y.trap = sh.trap := by
  have hbuf (g off : Nat) (bs : List Byte) : (applyWrite x s (.abuf g off bs)).mem = s.mem ∧
      (applyWrite x s (.abuf g off bs)).sheets = s.sheets := by
    unfold applyWrite
    dsimp only
    split
    · exact ⟨State.mapWg_mem .., State.mapWg_sheets ..⟩
    · exact ⟨rfl, rfl⟩
  have hreg (sid key : Nat) (v : W64) (k : Nat) (sh : Sheet) (h : s.sheet? k = some sh) :
      ∃ y, (applyWrite x s (.vreg sid key v)).sheet? k = some y ∧ y.park = sh.park ∧ y.trap = sh.trap := by
    by_cases hk : k = sid
    · subst hk
      exact ⟨{ sh with v := setD sh.v 0 key v }, by rw [applyWrite, State.sheet?_mapSheet, h, Option.map_some], rfl, rfl⟩
    · exact ⟨sh, by rw [applyWrite, State.sheet?_mapSheet_ne _ _ _ _ hk, h], rfl, rfl⟩
  unfold extWrite
  split
  · exact ⟨State.mapSheet_mem .., hreg _ _ _⟩
  · exact ⟨(hbuf ..).1, fun k sh h => ⟨sh, by rw [State.sheet?, (hbuf ..).2]; exact h, rfl, rfl⟩⟩

theorem commandResume_resumed {s : State} {core e : Nat} {c : Cmd} {w : Workgroup} {sh : Sheet} (h : s.cmd? core e = some c)
    (hp : c.phase = .stopped) (hcause : c.cause = .guardData) (hw : s.wg? c.wg = some w) (hsh : s.sheet? c.sid = some sh) :
    let t := commandResume core e s
    SameMemory s t ∧ (∃ c', t.cmd? core e = some c' ∧ c'.phase = .started ∧ c'.at_ = c.at_ + 1 ∧ c'.cause = .none) ∧
      ∀ r, sh.park = .service → sh.trap = some r → r.late = true → r.ent = e → ∃ y, t.sheet? c.sid = some y ∧ y.park = .resume := by
  intro t
  obtain ⟨v, ht⟩ : ∃ v, t = ((applyWrite (cmdAsker s core c) s (extWrite c c.at_ v)).setCmd core e
      { c with phase := .started, at_ := c.at_ + 1, cause := .none, info := 0 }).mapSheet c.sid (commandResume.serviceDone e) := by
    unfold t commandResume
    rw [h]
    dsimp only
    rw [if_pos ⟨hp, hcause⟩, hw]
    exact ⟨_, rfl⟩
  obtain ⟨hmem, hsheet⟩ := applyWrite_extWrite (cmdAsker s core c) s c c.at_ v
  generalize applyWrite (cmdAsker s core c) s (extWrite c c.at_ v) = s1 at ht hmem hsheet
  refine ⟨sameMemory_of_mem ?_, ⟨{ c with phase := .started, at_ := c.at_ + 1, cause := .none, info := 0 }, ?_, rfl, rfl, rfl⟩, fun r hservice htrap hlate hent => ?_⟩
  · rw [ht, State.mapSheet_mem]; exact hmem
  · rw [ht, State.cmd?, State.core_of_cores (State.mapSheet_cores ..), ← State.cmd?, State.cmd?_setCmd]
  · obtain ⟨y, hy, hpark, htr⟩ := hsheet c.sid sh hsh
    have hy' : (s1.setCmd core e { c with phase := .started, at_ := c.at_ + 1, cause := .none, info := 0 }).sheet? c.sid = some y := hy
    refine ⟨commandResume.serviceDone e y, by rw [ht, State.sheet?_mapSheet, hy', Option.map_some], ?_⟩
    unfold commandResume.serviceDone
    rw [htr, htrap]
    dsimp only
    rw [if_pos ⟨hpark.trans hservice, hlate, hent⟩]

/-- Settles O43: each step of a command is taken under its guard, the last write of a completion standing behind all that came before. -/
theorem commandsRunAndStop : Obligations.CommandsRunAndStop := by
  unfold Obligations.CommandsRunAndStop
  refine ⟨fun s core e c hcore he hc => ⟨fun hi hu => ?_, fun hi hu => ?_, fun cl q r hcl hr hqc hqe hdefer hat hfit => ?_,
    fun hp hdue hpaid hheld => ?_, fun sid u sh f hsid ho hcs hp hend harr hsh hf hid hst => ?_⟩,
    fun s => ⟨fun sid sh r l hsid hsh hl hp => ?_, fun core e c hcore he hc hp => ?_, fun core e c w sh hcore he hc hp hcause hw hsh => ?_⟩⟩
  · have h := startCmd_started hc
    refine does_next ((runEvent_ok (i := .commandIssue core e) (entryOk_of_lt hcore he) _ s).trans
      (congrArg _ (commandIssue_start hc hi hu))) ⟨sameMemory_of_mem h.mem, h.sheets, h.entry, h.others⟩
  · obtain ⟨a, b, hl, hq, ha, hb⟩ := enterResv_split ⟨core, e, c.units, s.cycle core, false⟩ (s.cluster (clusterOf core)).resv
    refine does_next ((runEvent_ok (i := .commandIssue core e) (entryOk_of_lt hcore he) _ s).trans
      (congrArg _ (commandIssue_request hc hi hu))) ⟨fun _ => rfl, rfl, State.cmd?_setCmd .., fun k hk => State.cmd?_setCmd_ne _ _ _ hk,
        a, b, hl, ?_, ha, hb⟩
    rw [State.cluster_setCluster, hq]
  · subst hqc hqe
    have h := startCmd_started (s := s.setCluster cl { s.cluster cl with resv := r }) hc
    refine does_next ((runEvent_ok (i := .reservationGrant cl) (decide_eq_true hcl) _ s).trans
      (congrArg _ (reservationGrant_start hr hdefer hat hfit))) ⟨sameMemory_of_mem h.mem, h.sheets, ?_, ?_⟩
    · rw [h.entry, engineStart_setResv]
    · rw [State.cluster, h.clusters, ← State.cluster, State.cluster_setCluster]
  · exact does_next (runEvent_ok (i := .commandCompletion core e) (entryOk_of_lt hcore he) _ s)
      (commandCompletion_made hc hp hdue hpaid hheld)
  · subst hcs
    exact does_next (runEvent_ok (i := .statusLanding sid u) (decide_eq_true hsid) _ s)
      (statusLanding_landed ho hp hend harr hsh hf hid hst)
  · have hs1 : (s.mapSheet sid (fun sh => { sh with lates := l })).sheet? sid = some { sh with lates := l } := by
      rw [State.sheet?_mapSheet, hsh, Option.map_some]
    refine does_next ((runEvent_ok (i := .lateCauseStop sid) (decide_eq_true hsid) _ s).trans (congrArg _ (lateCauseStop_eq hsh hl hp)))
      ⟨sameMemory_of_mem ((takeCause_mem ..).trans (State.mapSheet_mem ..)), _, takeCause_sheet? hs1 _, rfl, rfl, rfl, rfl, rfl, rfl, rfl⟩
  · obtain ⟨c', heq, hphase, hcanc, houts, -, d, hdcause, hdcanc, hvalue⟩ := cancelCmd_eq hc hp
    obtain ⟨hcode, hent, hbit⟩ := statusWord_fields he d
    refine does_next ((runEvent_ok (i := .commandCancel core e) (entryOk_of_lt hcore he) _ s).trans (congrArg _ heq))
      ⟨rfl, fun k hk => State.core_mapCore_ne _ _ _ _ hk, fun k hk => State.cmd?_setCmd_ne _ _ _ hk, c', State.cmd?_setCmd .., hphase, hcanc,
        houts, ?_, ?_, ?_⟩
    · rw [hvalue, hcode, hdcause]
    · rw [hvalue, hent]
    · rw [hvalue, hbit, hdcanc]
  · exact does_next (runEvent_ok (i := .commandResume core e) (entryOk_of_lt hcore he) _ s) (commandResume_resumed hc hp hcause hw hsh)

end Sys2Proof.Machine
end

section
/-! # The codec: what is encoded decodes (O3, O4) -/

namespace Sys2Proof
/-! ## An operation's move (R95, R117 to R135) -/

/-- The operation that a row of the encoding tables stands for: unit, head, opcode and modifier, cut to the fields of a move. -/
def decodeRow (a : FUnit × Head × Nat × Nat) : Except DecodeError Instr :=
  decodeOp a.1 a.2.1 (BitVec.ofNat 7 a.2.2.1).toNat (BitVec.ofNat 5 a.2.2.2).toNat

/-- What the encoding tables give an instruction decodes to it; they give an event nothing. -/
inductive RowDecodes (i : Instr) : Option (FUnit × Head × Nat × Nat) → Prop
  | row {u : FUnit} {h : Head} {opc mod : Nat} : decodeRow (u, h, opc, mod) = .ok i → RowDecodes i (some (u, h, opc, mod))
  | event : RowDecodes i none

/-- Each row of a catalogue decodes by that catalogue, its modifier by the modifier's own code. -/
theorem rowDecodes_aux {i : Instr} (hwf : i.wf = true) : RowDecodes i i.aux := by
  cases i with
  | add u h x | sub u h x | rsub u h x | and u h x | or u h x | xor u h x | andn u h x | shl u h x | shr u h x
  | sar u h x | rol u h x | min u h x | max u h x | minu u h x | maxu u h x | sel u h x | ceq u h x | cne u h x
  | clt u h x | cle u h x | cltu u h x | cleu u h x | bfi u h x =>
    exact .row ((decodeOp_alu ..).trans (withMod_some (X1M32.ofCode_code ..)))
  | abs u h x | popc u h x | clz u h x | ctz u h x | brev u h x =>
    exact .row ((decodeOp_alu ..).trans (withMod_some (flagOf_three _)))
  | bfx u h x =>
    exact .row ((decodeOp_alu ..).trans (withMod_some (BfxMod.ofCode_code ..)))
  | perm u h x | pand u h x | por u h x =>
    exact .row ((decodeOp_alu ..).trans (withMod_some (flagOf_four _)))
  | lea u h x =>
    exact .row ((decodeOp_alu ..).trans (withMod_some (LeaMod.ofCode_code ..)))
  | sext u h x | zext u h x =>
    exact .row ((decodeOp_alu ..).trans (withMod_some (ExtWidth.ofCode_code _)))
  | pnot u h | psure u h | poss u h | pass u h =>
    exact .row ((decodeOp_alu ..).trans (withMod_some rfl))
  | mul h x | mulh h x | mulhu h x | mulw h x | mulwu h x | div h x | divu h x | rem h x | remu h x =>
    exact .row (withMod_some (X1M32.ofCode_code ..))
  | mad h x | rdsum h x =>
    exact .row (withMod_some (flagOf_three _))
  | fadd u h x | fsub u h x | fmul u h x | ffma u h x | fcvt u h x | frnd u h x =>
    exact .row ((decodeOp_fpu ..).trans (withMod_some (FpRnd.ofCode_code _)))
  | fmin u h x | fmax u h x | fclass u h x =>
    exact .row ((decodeOp_fpu ..).trans (withMod_some (FType.ofModCode_modCode _)))
  | fcmp u h x =>
    exact .row ((decodeOp_fpu ..).trans (withMod_some (FpRel.ofCode_code _)))
  | fcvti u h x | icvtf u h x =>
    exact .row ((decodeOp_fpu ..).trans (withMod_some (FpInt.ofCode_code _)))
  | fsgn u h x =>
    exact .row ((decodeOp_fpu ..).trans (withMod_some (FpSgn.ofCode_code _)))
  | ivadd u h | ivsub u h | ivmul u h | ivfma u h | ivsqr u h | ivhull u h | ivmeet u h | ivmid u h | ivwid u h
  | ivmake u h | ivlo u h | ivhi u h | ivbis u h | ivabs u h | ivin u h =>
    exact .row ((decodeOp_fpu ..).trans (withMod_some rfl))
  | ivcmp u h x =>
    exact .row ((decodeOp_fpu ..).trans (withMod_some (Rel.ofModCode_modCode _)))
  | rcp h x | rsq h x | sqrt h x | exp2 h x | log2 h x | sin h x | cos h x | tanh h x =>
    exact .row (withMod_some (XType.ofCode_code _))
  | ivrcp h | ivsqrt h | ivexp2 h | ivlog2 h | shfi h | shxr h | ballot h | br h | bri h | call h | ret h | brp3 h
  | loop h | lbrk h | exit h | yield h | cext h | cextv h | cgw h | boinit h | boexp h | bowait h | boinv h | trap h
  | brk h | csrrd h | csrwr h | launch h | lwait h | ivspawn h | svc h | tstamp h | yields h =>
    exact .row (withMod_some rfl)
  | cvtn h x =>
    exact .row (withMod_some (CvtnMod.ofCode_code _ hwf))
  | cvtw h x =>
    exact .row (withMod_some (NFmt.ofCode_code _))
  | shup h x | shdn h x | boarr h x | botest h x =>
    exact .row (withMod_some (flagOf_zero _))
  | vote h x =>
    exact .row (withMod_some (VoteKind.ofCode_code _))
  | rdmax h x =>
    exact .row (withMod_some (MaxMod.ofCode_code _))
  | rdfsum h x =>
    exact .row (withMod_some (RdfMod.ofCode_code _))
  | ld u h x | lds u h x | st u h x =>
    exact .row ((decodeOp_lsu ..).trans (withMod_some (LdMod.ofCode_code _)))
  | ldp u h x | stp u h x | ldiv u h x | stiv u h x =>
    exact .row ((decodeOp_lsu ..).trans (withMod_some (LdpMod.ofCode_code _)))
  | ldx u h x =>
    exact .row ((decodeOp_lsu ..).trans (withMod_some (LdxMod.ofCode_code _)))
  | lda u h x | stl u h x =>
    exact .row ((decodeOp_lsu ..).trans (withMod_some (LdaMod.ofCode_code _)))
  | aadd u h x | amin u h x | amax u h x | aminu u h x | amaxu u h x | aand u h x | aor u h x | axor u h x | axchg u h x
  | acas u h x | afadd u h x =>
    exact .row ((decodeOp_lsu ..).trans (withMod_some (AtomMod.ofCode_code _)))
  | acas2 u h x =>
    exact .row ((decodeOp_lsu ..).trans (withMod_some (Acas2Mod.ofCode_code _)))
  | qsync u h =>
    exact .row ((decodeOp_lsu ..).trans (withMod_some rfl))
  | pref u h x =>
    exact .row ((decodeOp_lsu ..).trans (withMod_some (flagOf_four _)))
  | brp h x | brany h x | brall h x =>
    exact .row (withMod_some (ERule.ofCode_code _))
  | mma h x | mmab h x | mmai h x =>
    exact .row (withMod_some (MmaMod.ofCode_code ..))
  | mxzero h x | mxld h x =>
    exact .row (withMod_some (MxfMod.ofCode_code ..))
  | mxdrain h x | mxred h x | mxst h x | mxrel h x =>
    exact .row (withMod_some (tileOf_val _))
  | cpack h x | cpackv h x | cmul h x | cmac h x | csqr h x | cadd h x | csub h x | cshl h x | cclr h x | cbig h x =>
    exact .row (withMod_some (limbOf_val _))
  | dcopy h x | dfill h x | dgath h x | dscat h x =>
    exact .row (withMod_some (CpyMod.ofCode_code _))
  | dstat h x =>
    exact .row (withMod_some (flagOf_two _))
  | bar h x | bara h x | barw h x =>
    exact .row (withMod_some (BarLevel.ofCode_code _))
  | fence h x =>
    exact .row (withMod_some (FenceMod.ofCode_code _))
  | acq h x | rel h x =>
    exact .row (withMod_some (Scope.ofModCode_modCode _))
  | _ => exact .event

theorem decodeMove_move {i : Instr} {m : Move} (hwf : i.wf = true) (hm : i.move = some m) : decodeMove m = .ok i := by
  have hrow := rowDecodes_aux hwf
  unfold Instr.move at hm
  generalize i.aux = a at hrow hm
  cases hrow with
  | event => cases hm
  | @row u h opc mod hrow =>
    cases hm
    unfold decodeMove
    dsimp only
    rw [Guard.ofBits_code, unitOfT_tPort]
    exact hrow

/-! ## Fields of a number -/

theorem bits_add (x lo k n : Nat) : bits x (lo + k) n = bits (x / 2 ^ lo) k n := by
  rw [bits, bits, pow_add, Nat.div_div_eq_div_mul]
theorem bits_mod {lo n m : Nat} (h : lo + n ≤ m) (x : Nat) : bits (x % 2 ^ m) lo n = bits x lo n := by
  obtain ⟨k, rfl⟩ := Nat.exists_eq_add_of_le h
  rw [bits, bits, add_assoc, pow_add, Nat.mod_mul_right_div_self, pow_add, Nat.mod_mul_right_mod]
theorem bitAt_eq {x k : Nat} {b : Bool} (h : bits x k 1 = ofBool b) : bitAt x k = b := by
  have h' : x / 2 ^ k % 2 = ofBool b := h
  rw [bitAt, h']
  cases b <;> rfl
theorem ofNat_bits {x lo n : Nat} {v : BitVec n} (h : bits x lo n = v.toNat) : BitVec.ofNat n (bits x lo n) = v := by
  rw [h, BitVec.ofNat_toNat, BitVec.setWidth_eq]
theorem ofBool_lt (b : Bool) : ofBool b < 2 := by cases b <;> decide

/-! ## The words of moves (R95) -/

theorem Move.word_lt (m : Move) : m.word < 2 ^ 38 := by
  unfold Move.word
  omega

theorem Move.ofWord_word (m : Move) : Move.ofWord m.word m.uni = m := by
  obtain ⟨sense, pred, dst, src, opc, mod, uni⟩ := m
  simp only [Move.ofWord, Move.word, Move.mk.injEq, and_true]
  refine ⟨?_, ?_, ?_, ?_, ?_, ?_⟩ <;> exact BitVec.eq_of_toNat_eq (by rw [BitVec.toNat_ofNat]; omega)

theorem decodeTableWord_word (m : Move) : decodeTableWord 39 (m.word + 2 ^ 38 * ofBool m.uni) = (decodeMove m).toOption := by
  have hw := m.word_lt
  have hu := ofBool_lt m.uni
  have huni : bitAt (m.word + 2 ^ 38 * ofBool m.uni) 38 = m.uni := bitAt_eq (by unfold bits; omega)
  unfold decodeTableWord
  rw [if_pos (by decide), if_pos (by omega), huni, Nat.add_mul_mod_self_left, Nat.mod_eq_of_lt hw, Move.ofWord_word]

/-! ## The slots of a bundle (R94, R102) -/

theorem slotsWord_lt (ms : List Move) : slotsWord ms < 2 ^ (38 * ms.length) := by
  induction ms with
  | nil => exact Nat.zero_lt_one
  | cons m ms ih =>
    have hm := m.word_lt
    rw [List.length_cons, slotsWord, Nat.mul_succ, pow_add, mul_comm (2 ^ (38 * ms.length))]
    omega
theorem uniWord_lt (ms : List Move) : uniWord ms < 2 ^ ms.length := by
  induction ms with
  | nil => exact Nat.zero_lt_one
  | cons m ms ih =>
    have hm := ofBool_lt m.uni
    rw [List.length_cons, uniWord, pow_succ]
    omega

theorem bits_slotsWord (ms : List Move) (k : Nat) (hk : k < ms.length) : bits (slotsWord ms) (38 * k) 38 = ms[k].word := by
  induction ms generalizing k with
  | nil => cases hk
  | cons m ms ih =>
    have hm := m.word_lt
    rw [slotsWord]
    cases k with
    | zero =>
      rw [List.getElem_cons_zero]
      unfold bits
      omega
    | succ k =>
      rw [List.getElem_cons_succ, ← ih k (Nat.lt_of_succ_lt_succ hk), Nat.mul_succ, Nat.add_comm (38 * k), bits_add,
        Nat.add_mul_div_left _ _ (by decide), Nat.div_eq_of_lt hm, Nat.zero_add]
theorem bits_uniWord (ms : List Move) (k : Nat) (hk : k < ms.length) : bits (uniWord ms) k 1 = ofBool ms[k].uni := by
  induction ms generalizing k with
  | nil => cases hk
  | cons m ms ih =>
    have hm := ofBool_lt m.uni
    rw [uniWord]
    cases k with
    | zero =>
      rw [List.getElem_cons_zero]
      unfold bits
      omega
    | succ k =>
      rw [List.getElem_cons_succ, ← ih k (Nat.lt_of_succ_lt_succ hk), Nat.add_comm k, bits_add, pow_one,
        Nat.add_mul_div_left _ _ (by decide), Nat.div_eq_of_lt hm, Nat.zero_add]

/-- A number that holds the slots from bit `lo` on and the UNI bits from bit 3 on gives the slots back. -/
theorem slotsAt_eq {n lo : Nat} {ms : List Move} (hslots : bits n lo (38 * ms.length) = slotsWord ms)
    (huni : bits n 3 ms.length = uniWord ms) : (List.range ms.length).map (slotAt n lo) = ms := by
  refine List.ext_getElem (by simp) fun k hk hk' => ?_
  have hword : bits n (lo + 38 * k) 38 = ms[k].word := by
    rw [bits_add, ← bits_mod (m := 38 * ms.length) (by omega), ← bits, hslots, bits_slotsWord]
  have hbit : bitAt n (3 + k) = ms[k].uni := bitAt_eq (by
    rw [bits_add, ← bits_mod (m := ms.length) (by omega), ← bits, huni, bits_uniWord])
  rw [List.getElem_map, List.getElem_range, slotAt, hword, hbit, Move.ofWord_word]

/-! ## Bundles (R92, R94, R100, R102, R103) -/

theorem take_leBytes (w : Nat) (rest : List Byte) {k n : Nat} (h : k ≤ n) : (leBytes n w ++ rest).take k = leBytes k w := by
  induction k generalizing n w with
  | zero => rfl
  | succ k ih =>
    cases n with
    | zero => cases h
    | succ n => exact congrArg _ (ih (w / 256) (Nat.le_of_succ_le_succ h))

/-- A code stream that begins with the bytes of a number decodes as the number, where FMT says how many bytes it has. -/
theorem decode_leBytes {size w : Nat} (hsize : sizeOfFmt (w % 4) = size) (hw : w < 256 ^ size) (rest : List Byte) :
    decode (leBytes size w ++ rest) = decodeNat w := by
  have hpos : 1 ≤ size := by
    rw [← hsize]
    unfold sizeOfFmt
    split <;> decide
  have hfmt : sizeOfFmt (leNat ((leBytes size w ++ rest).take 1) % 4) = size := by
    rw [take_leBytes w rest hpos, leNat_leBytes, pow_one, Nat.mod_mod_of_dvd w (by decide), hsize]
  unfold decode
  dsimp only
  rw [hfmt, if_neg (by rw [List.length_append, leBytes_length]; omega), take_leBytes w rest le_rfl, leNat_leBytes,
    Nat.mod_eq_of_lt hw]

/-- A bundle's header and slots are where its format has them. -/
theorem decode_bundle {b : Bundle} (hwf : (Instr.bundleIssue b).wf = true) (rest : List Byte) :
    decode (leBytes b.format.size b.word ++ rest) = .ok (.bundleIssue b) := by
  obtain ⟨format, stall, le, dp, ms⟩ := b
  have hlen : ms.length = format.slots := eq_of_beq hwf
  have hdp := ofBool_lt dp
  have hle := ofBool_lt le
  have huni := uniWord_lt ms
  have hslots := slotsWord_lt ms
  generalize hn : Bundle.word ⟨format, stall, le, dp, ms⟩ = n
  unfold Bundle.word at hn
  cases format with
  | narrow =>
    have hlen : ms.length = 3 := hlen
    rw [hlen] at huni hslots
    dsimp only at hn
    have hms := slotsAt_eq (n := n) (lo := 14) (ms := ms) (by rw [hlen]; unfold bits; omega) (by rw [hlen]; unfold bits; omega)
    have hfmt : n % 4 = 3 := by omega
    refine (decode_leBytes (size := 16) (by rw [hfmt]; rfl) (by omega) rest).trans ?_
    rw [decodeNat, hfmt]
    change decodeNarrow n = _
    rw [decodeNarrow, if_neg (by unfold bits; omega), ofNat_bits (v := stall) (by unfold bits; omega),
      bitAt_eq (b := le) (by unfold bits; omega), bitAt_eq (b := dp) (by unfold bits; omega)]
    rw [hlen] at hms
    exact congrArg (fun l => Except.ok (Instr.bundleIssue ⟨.narrow, stall, le, dp, l⟩)) hms
  | wide =>
    have hlen : ms.length = 6 := hlen
    rw [hlen] at huni hslots
    dsimp only at hn
    have hms := slotsAt_eq (n := n) (lo := 28) (ms := ms) (by rw [hlen]; unfold bits; omega) (by rw [hlen]; unfold bits; omega)
    have hfmt : n % 4 = 0 := by omega
    refine (decode_leBytes (size := 32) (by rw [hfmt]; rfl) (by omega) rest).trans ?_
    rw [decodeNat, hfmt]
    change decodeWide n = _
    rw [decodeWide, if_neg (by unfold bits; omega), ofNat_bits (v := stall) (by unfold bits; omega),
      bitAt_eq (b := le) (by unfold bits; omega), bitAt_eq (b := dp) (by unfold bits; omega)]
    rw [hlen] at hms
    exact congrArg (fun l => Except.ok (Instr.bundleIssue ⟨.wide, stall, le, dp, l⟩)) hms
  | wideLimm mode c =>
    have hlen : ms.length = 5 := hlen
    rw [hlen] at huni hslots
    dsimp only at hn
    have hms := slotsAt_eq (n := n) (lo := 28) (ms := ms) (by rw [hlen]; unfold bits; omega) (by rw [hlen]; unfold bits; omega)
    have hfmt : n % 4 = 2 := by omega
    have hfive : bitAt n 8 = false := bitAt_eq (by change _ = 0; unfold bits; omega)
    refine (decode_leBytes (size := 32) (by rw [hfmt]; rfl) (by omega) rest).trans ?_
    rw [decodeNat, hfmt]
    change decodeLimm n = _
    rw [decodeLimm, if_neg (by unfold bits; omega), hfive, if_neg (by unfold bits; simp; omega),
      ofNat_bits (v := mode) (by unfold bits; omega), ofNat_bits (v := c) (by unfold bits; omega),
      ofNat_bits (v := stall) (by unfold bits; omega), bitAt_eq (b := le) (by unfold bits; omega),
      bitAt_eq (b := dp) (by unfold bits; omega)]
    rw [hlen] at hms
    exact congrArg (fun l => Except.ok (Instr.bundleIssue ⟨.wideLimm mode c, stall, le, dp, l⟩)) hms

theorem decode_marker (m : Marker) (rest : List Byte) : decode (leBytes 16 m.word ++ rest) = .ok (.markerBundle m) := by
  obtain ⟨thresh, mark, ecyc, stall, le, dp⟩ := m
  have hdp := ofBool_lt dp
  have hle := ofBool_lt le
  generalize hn : Marker.word ⟨thresh, mark, ecyc, stall, le, dp⟩ = n
  unfold Marker.word at hn
  dsimp only at hn
  have hfmt : n % 4 = 1 := by omega
  refine (decode_leBytes (by rw [hfmt]; rfl) (by omega) rest).trans ?_
  rw [decodeNat, hfmt]
  change decodeMarker n = _
  rw [decodeMarker, if_neg (by unfold bits; omega), ofNat_bits (v := thresh) (by unfold bits; omega),
    ofNat_bits (v := mark) (by unfold bits; omega), ofNat_bits (v := ecyc) (by unfold bits; omega),
    ofNat_bits (v := stall) (by unfold bits; omega), bitAt_eq (b := le) (by unfold bits; omega),
    bitAt_eq (b := dp) (by unfold bits; omega)]

/-- Settles O3: a move by its row of the tables, a bundle and a marker by the fields of their words. -/
theorem encodingRoundTrip : Obligations.EncodingRoundTrip := by
  unfold Obligations.EncodingRoundTrip
  refine ⟨fun i m hwf hm => ?_, fun b rest hwf => decode_bundle hwf rest, decode_marker⟩
  have hmove := decodeMove_move hwf hm
  exact ⟨hmove, by rw [decodeTableWord_word, hmove]; rfl⟩

/-- Settles O4: each word is run through the decoder. -/
theorem wordsDecode : Obligations.WordsDecode := by
  unfold Obligations.WordsDecode
  decide

end Sys2Proof
end

section
/-! # What a write at a home leaves of the sheets, and markers (O34) -/

namespace Sys2Proof.Machine

/-! ## Sheets but for what those in LWAIT find -/

/-- The sheets are as before, but for what their SYS operations wait on: what a write at a home may change of them (R433). -/
def Woke (s t : State) : Prop := ∃ f : Sheet → SysWait, t.sheets = s.sheets.map (fun e => (e.1, e.2.waits (f e.2)))

theorem Woke.of_same {s t : State} (h : t.sheets = s.sheets) : Woke s t := by
  obtain ⟨f, hf⟩ := sheets_sys_same s.sheets
  exact ⟨f, h.trans hf⟩
theorem Woke.refl (s : State) : Woke s s := .of_same rfl
theorem Woke.trans {s t u : State} (h : Woke s t) (k : Woke t u) : Woke s u := by
  obtain ⟨f, hf⟩ := h
  obtain ⟨g, hg⟩ := k
  exact ⟨fun sh => g (sh.waits (f sh)), by rw [hg, hf, List.map_map]; rfl⟩
theorem Woke.foldl {α : Type} {f : State → α → State} (h : ∀ s a, Woke s (f s a)) : ∀ (l : List α) (s : State), Woke s (l.foldl f s)
  | [], s => .refl s
  | a :: l, s => (h s a).trans (Woke.foldl h l (f s a))
theorem Woke.sheet? {s t : State} (h : Woke s t) {sid : Nat} {sh : Sheet} (hsh : s.sheet? sid = some sh) :
    ∃ w, t.sheet? sid = some (sh.waits w) := by
  obtain ⟨f, hf⟩ := h
  refine ⟨f sh, ?_⟩
  unfold State.sheet? at hsh ⊢
  rw [hf]
  exact (lookup_map_val s.sheets _ (fun sh => sh.waits (f sh)) (fun _ _ => rfl) sid).trans (by rw [hsh]; rfl)

theorem L2Only.woke {s t : State} (h : L2Only s t) : Woke s t := .of_same (by rw [h])
theorem askerEvent_woke (x : Asker) (s : State) (ev n : Nat) : Woke s (x.event s ev n) := by
  obtain ⟨p, a, h⟩ := asker_event_only x s ev n
  exact .of_same (by rw [h])
theorem homeWrite_woke (s : State) (pa : Nat) (bs : List Byte) : Woke s (homeWrite s pa bs) := by
  obtain ⟨m, f, h⟩ := homeWrite_eq s pa bs
  exact ⟨f, by rw [h]⟩
theorem homePerform_woke (s : State) (h : HomeStore) : Woke s (homePerform s h) := by
  unfold homePerform
  split
  · exact .refl s
  · have hrecall := (recallWords_only (l2Use s ⟨h.part, h.core, h.sid, h.slot⟩ true h.pa h.bytes.length) (h.core + 1)
      (wordsOf h.pa h.bytes.length)).woke
    have hregister : ∀ t : State, Woke t (registerWords t h.core (wordsOf h.pa h.bytes.length)) := fun _ => .of_same rfl
    exact (((Woke.of_same (l2Use_sheets ..)).trans hrecall).trans (hregister _)).trans (homeWrite_woke ..)
theorem drainHomes_woke (s : State) (p : HomeStore → Bool) : Woke s (drainHomes s p) :=
  (Woke.of_same rfl).trans (.foldl homePerform_woke _ _)
theorem reachHome_woke (s : State) (core pa : Nat) : Woke s (reachHome s core pa) := by
  unfold reachHome
  split
  · exact drainHomes_woke ..
  · exact .refl s
theorem engineWrite_woke (s : State) (x : Asker) (pa : Nat) (bs : List Byte) : Woke s (engineWrite s x pa bs) :=
  ((((reachHome_woke s x.core pa).trans (l2Touch_only ..).woke).trans (recallWords_only ..).woke).trans (homeWrite_woke ..)).trans
    (askerEvent_woke ..)

/-! ## Records -/

theorem mapPart_woke (s : State) (p : Nat) (f : Part → Part) : Woke s (s.mapPart p f) := .of_same rfl
theorem event_woke (s : State) (part core sid slot ev k : Nat) : Woke s (s.event part core sid slot ev k) := by
  obtain ⟨p, a, h⟩ := event_frame s part core sid slot ev k
  exact .of_same (by rw [h])
theorem putRecord_woke (s : State) (part core sid : Nat) (r : RingKind) (lostBit body : Nat) :
    Woke s (putRecord s part core sid r lostBit body) := by
  unfold putRecord
  extract_lets g set at_
  split
  · exact .refl s
  · split
    · exact (mapPart_woke ..).trans (event_woke ..)
    · exact (engineWrite_woke ..).trans (mapPart_woke ..)
theorem putBoth_woke (s : State) (part core sid cls lostBit : Nat) (trace : Bool) (body : Nat → Nat) :
    Woke s (putBoth s part core sid cls lostBit trace body) := by
  unfold putBoth
  extract_lets t pol ts
  have ht : Woke s t := putRecord_woke ..
  split
  · exact ht.trans (putRecord_woke ..)
  · have hn : Woke s (nextSeq t part cls).2 := ht.trans (mapPart_woke ..)
    dsimp only
    split
    · exact hn.trans (putRecord_woke ..)
    · exact hn
  · exact ht
theorem traceRecord_woke (s : State) (part sid cls src : Nat) (baddr : W64) (arg cause slot : Nat) :
    Woke s (traceRecord s part sid cls src baddr arg cause slot) := by
  unfold traceRecord
  exact putBoth_woke ..
theorem driftRecord_woke (s : State) (part sid mark : Nat) (drift : BitVec 24) (armed sat : Bool) :
    Woke s (driftRecord s part sid mark drift armed sat) := by
  unfold driftRecord
  exact putBoth_woke ..

/-! ## Markers -/

/-- The sheet behind a marker: its drift, and whether the trace is armed (R334). -/
def Sheet.marked (sh : Sheet) (m : Marker) (c : Nat) : Sheet :=
  { sh with drift := BitVec.ofInt 24 (driftSat c m.ecyc.toNat).1,
            armed := sh.markArm && m.thresh != 0 &&
              decide ((m.thresh.toNat : Int) < (driftSat c m.ecyc.toNat).1 - signed 24 sh.drift.toNat) }

theorem markAt_sheet? {s : State} {sid : Nat} {sh : Sheet} (h : s.sheet? sid = some sh) (m : Marker) (c : Nat) :
    ∃ w, (markAt s sid m c).sheet? sid = some ((sh.marked m c).waits w) := by
  unfold markAt
  rw [h]
  dsimp only
  have hset : ∀ y, (s.setSheet sid y).sheet? sid = some y := fun y => State.sheet?_setSheet ..
  split
  · exact (driftRecord_woke ..).sheet? (hset _)
  · exact (Woke.refl _).sheet? (hset _)

theorem driftSat_eq (c e : Nat) : (driftSat c e).1 = max (-(2 ^ 23)) (min ((c : Int) - e) (2 ^ 23 - 1)) := by
  unfold driftSat
  dsimp only
  split
  · dsimp only; omega
  · split <;> dsimp only <;> omega
theorem signed_toNat (d : BitVec 24) : signed 24 d.toNat = d.toInt := by
  have := d.isLt
  unfold signed
  rw [BitVec.toInt_eq_toNat_cond]
  omega

/-- A path with threads left that is not at its join goes on. -/
theorem arrive_of_active {y : Sheet} (ha : y.active ≠ 0) (hr : y.rcv ≠ some y.pc) : y.arrive = y := by
  unfold Sheet.arrive arriveGo
  rw [if_neg (by rintro (h | h); exacts [ha h, hr h])]

theorem stageOpen_runs {s : State} {sid : Nat} {sh : Sheet} (h : stageOpen s sid sh = true) : sh.skip = 0 ∧ sh.active ≠ 0 := by
  unfold stageOpen Sheet.mayIssue at h
  simp only [Bool.and_eq_true, beq_iff_eq, bne_iff_ne, ne_eq] at h
  obtain ⟨⟨⟨⟨⟨⟨-, hskip⟩, -⟩, -⟩, hactive⟩, -⟩, -⟩ := h
  exact ⟨hskip, hactive⟩

/-- What a marker leaves that its sheet issues outside a nest. -/
def markerIssued (s : State) (sid : Nat) (m : Marker) (sh : Sheet) : State :=
  let c := s.cycle (coreOf sid)
  let s := startCycles (s.setSheet sid (sh.atIssue (fun p => c + p))) sh.wg c
  let y := (s.sheet? sid).getD sh
  let s := interlockTrace s sid y y.pc [] c s
  let s := account s sid y.pc (c + y.passes) m.stall.toNat 0 [] []
  let s := markAt s sid m (y.cycleAt c)
  arriveAfter (s.mapSheet sid (fun z => { z.advance (.markerBundle m) y.pc 16 with corrupt := none })) sid

theorem issueMarker_eq {s : State} {sid : Nat} {sh : Sheet} (m : Marker) (hsh : s.sheet? sid = some sh)
    (hopen : stageOpen s sid sh = true) (hnest : sh.nest = none) : issueMarker s sid m = some (markerIssued s sid m sh) := by
  unfold issueMarker
  rw [hsh]
  dsimp only
  rw [hopen, hnest, if_neg (by decide), if_neg Bool.false_ne_true]
  rfl

/-- A sheet past a marker: marked, on its way behind the bundle, its registers and system registers as before. -/
def PastMarker (sh : Sheet) (m : Marker) (c : Nat) (y : Sheet) : Prop :=
  y.pc = sh.pc + 16 ∧ y.drift = (sh.marked m c).drift ∧ y.armed = (sh.marked m c).armed ∧ y.v = sh.v ∧ y.s = sh.s ∧ y.p = sh.p ∧
    y.ent = sh.ent ∧ y.fpsr = sh.fpsr ∧ sysWord y = sysWord sh

theorem markerIssued_past {s : State} {sid : Nat} {sh : Sheet} {m : Marker} {c0 : Nat}
    (hopen : stageOpen s sid sh = true) (hnest : sh.nest = none) (hleft : sh.left = false) (harmed : sh.armed = false)
    (hfrom : sh.cycFrom = some c0) (hrcv : sh.rcv ≠ some (sh.pc + 16)) :
    ∃ y, (markerIssued s sid m sh).sheet? sid = some y ∧ PastMarker sh m (sh.cycleAt (s.cycle (coreOf sid))) y := by
  obtain ⟨hskip, hactive⟩ := stageOpen_runs hopen
  unfold markerIssued
  extract_lets c s1 y s2 s3 s4
  obtain ⟨f, lat, hat⟩ := atIssue_frame sh (fun p => c + p)
  have hs1 : s1.sheet? sid = some { sh with flights := f, lat := lat, wait := .none, sys := .none } := by
    unfold s1
    rw [startCycles_sheet?, State.sheet?_setSheet, hat, Option.map_some, if_neg (by rw [hfrom]; simp)]
  have hy : y = { sh with flights := f, lat := lat, wait := .none, sys := .none } := by unfold y; rw [hs1]; rfl
  clear_value y
  subst hy
  have hs2 : s2.sheet? sid = _ := (congrArg (State.sheet? · sid) (if_neg (by rw [harmed]; decide))).trans hs1
  obtain ⟨b, l, p, a, hacc⟩ := account_frame hs2 (by exact harmed) sh.pc (c + sh.passes) m.stall.toNat 0 [] []
  have hs3 : s3.sheet? sid = _ := (congrArg (State.sheet? · sid) hacc).trans (issued_sheet?_same ..)
  obtain ⟨w, hs4⟩ := markAt_sheet? hs3 m (sh.cycleAt c)
  obtain ⟨z, hz, hpast, hrest⟩ : ∃ z, (s4.mapSheet sid fun z => { z.advance (.markerBundle m) sh.pc 16 with corrupt := none }).sheet? sid =
      some z ∧ PastMarker sh m (sh.cycleAt c) z ∧ z.skip = 0 ∧ z.left = false ∧ z.active ≠ 0 ∧ z.rcv ≠ some z.pc := by
    refine ⟨_, (State.sheet?_mapSheet ..).trans (congrArg _ hs4), ?_⟩
    unfold Sheet.advance
    dsimp only [Sheet.waits, Sheet.marked]
    rw [hnest]
    exact ⟨⟨rfl, rfl, rfl, rfl, rfl, rfl, rfl, rfl, rfl⟩, hskip, hleft, hactive, hrcv⟩
  obtain ⟨hzskip, hzleft, hzactive, hzrcv⟩ := hrest
  exact ⟨z, by rw [arriveAfter_plain hz hzskip hzleft, State.sheet?_setSheet, arrive_of_active hzactive hzrcv], hpast⟩

/-- Settles O34: what a marker leaves of its sheet, its drift in the words of R334. -/
theorem markerSetsDrift : Obligations.MarkerSetsDrift := by
  unfold Obligations.MarkerSetsDrift
  intro m s sh c0 hsh hopen hnest hleft harmed hfrom hrcv
  obtain ⟨y, hy, hpc, hdrift, harm, hregs⟩ := markerIssued_past (m := m) hopen hnest hleft harmed hfrom hrcv
  have hcyc : sh.cycleAt (s.cycle (coreOf s.focus)) = (sh.cycAcc + (s.now - c0)) % 2 ^ 64 := by
    unfold Sheet.cycleAt
    rw [hfrom]
    rfl
  refine ⟨_, y, congrArg Host.Outcome.next (by rw [issueMarker_eq m hsh hopen hnest]; rfl), hy, hpc, ?_, hregs⟩
  rw [hdrift, harm]
  dsimp only [Sheet.marked]
  rw [hcyc, driftSat_eq, signed_toNat]
  refine ⟨rfl, ?_⟩
  simp only [Bool.and_eq_true, bne_iff_ne, decide_eq_true_eq, and_assoc]

end Sys2Proof.Machine
end

section
/-! # A bundle of one move that raises a cause (R283, R284) -/

namespace Sys2Proof.Machine

/-! ## The stop -/

/-- The sheet in focus can try a move into a unit's trigger alone: what `CanIssue` asks, but for the legality of the move. -/
structure CanTry (s : State) (sh : Sheet) (m : Move) (u : FUnit) : Prop where
  here : s.sheet? s.focus = some sh
  opens : stageOpen s s.focus sh = true
  whole : sh.issuing = none
  slot : slotWaits s s.focus sh (oneMove m) = false
  form : bundleOk sh (s.core (coreOf s.focus)).split (oneMove m) = true
  clean : sh.corrupt = none
  quiet : sh.armed = false
  unit : Dst.ofCode m.dst.toNat = some (.t u)
  free : waitingPass (opBegun s sh m) s.focus (opSheet s sh m) (opCycle s sh m) [opMove s sh m] sh.passes 0 = none

/-- The bundle in hand where its one move does not commit. -/
def opStopInfo (s : State) (sh : Sheet) (m : Move) : BInfo :=
  { opBundle s sh m with engines := 0, droop0 := passLen (dcap s s.focus) [opMove s sh m] 0 - 1 }
/-- The state in which a move that does not commit leaves its cost and its counts. -/
def opSettled (s : State) (sh : Sheet) (m : Move) : State :=
  settleIssue (opBegun s sh m) s.focus (opSheet s sh m) (opStopInfo s sh m) [opMove s sh m] [] (opTimes s sh m).1 (opTimes s sh m).2 []
    (opBegun s sh m).drew
/-- The trap record of a move that raises `F`. -/
def opTrap (s : State) (sh : Sheet) (m : Move) (F : List (Nat × Flt)) : Trap :=
  formTrap (opBegun s sh m) (opStopInfo s sh m) (.bundleIssue (oneMove m)) [opMove s sh m] [(0, F)] [] [] []
/-- What the checks of an operation leave behind that raise `F`: nothing where its move is not legal. -/
def opLeft (s : State) (sh : Sheet) (m : Move) (u : FUnit) (o : OpMeaning) (F : List (Nat × Flt)) : State :=
  if moveOk m (s.kernelOf sh).regs (s.core (coreOf s.focus)).split then
    o.onFault { opCtx s sh m u with engines := 0 } F (opSettled s sh m)
  else opSettled s sh m

section
variable {s : State} {sh : Sheet} {m : Move} {u : FUnit}

theorem CanIssue.tries (h : CanIssue s sh m u) : CanTry s sh m u :=
  ⟨h.here, h.opens, h.whole, h.slot, h.form, h.clean, h.quiet, h.unit, h.free⟩

theorem CanTry.dst (h : CanTry s sh m u) : (opMove s sh m).dst = some (.t u) := by
  unfold SavedMove.dst
  rw [opMove_move, h.unit]
theorem CanTry.trig (h : CanTry s sh m u) : (opMove s sh m).trig = some u := by
  unfold SavedMove.trig
  rw [h.dst]
theorem CanTry.dst_ne (h : CanTry s sh m u) : m.dst ≠ 0x3FF#10 := by
  intro hd
  have hunit := h.unit
  rw [hd] at hunit
  simp [Dst.ofCode] at hunit
theorem opSheet_corrupt (s : State) (sh : Sheet) (m : Move) : (opSheet s sh m).corrupt = sh.corrupt := by
  obtain ⟨f, lat, cf, h⟩ := opSheet_frame s sh m
  rw [h]
theorem opSheet_armed (s : State) (sh : Sheet) (m : Move) : (opSheet s sh m).armed = sh.armed := by
  obtain ⟨f, lat, cf, h⟩ := opSheet_frame s sh m
  rw [h]

/-- The issue of a move alone is the commit of it. -/
theorem CanTry.issue (h : CanTry s sh m u) (mean : Meanings) : issueBundle s s.focus (oneMove m) (.bundleIssue (oneMove m)) mean =
    commitBundle (opBegun s sh m) s.focus (opSheet s sh m) (opBundle s sh m) (.bundleIssue (oneMove m)) [opMove s sh m]
      [opMove s sh m] [] [] [] mean (opTimes s sh m) := by
  have hnone : sh.issued? = [] := by unfold Sheet.issued?; rw [h.whole]; rfl
  have hpass : (opSheet s sh m).passes = sh.passes := by unfold Sheet.passes; rw [(opSheet_fields s sh m).2.2.1]
  have hread : readMoves (opBegun s sh m) s.focus (opSheet s sh m) (oneMove m) (opCycle s sh m 0) = [opMove s sh m] := by
    unfold readMoves
    rw [liveSlots_one m h.dst_ne]
    rfl
  have hfree := h.free
  rw [← hpass] at hfree
  unfold opBegun opSheet opCycle at hread hfree
  unfold issueBundle
  simp only [h.here, h.opens, h.slot, h.form, h.whole, hnone, Bool.not_true, Bool.false_eq_true, if_false, Bool.and_false,
    show (oneMove m).format = Format.narrow from rfl, hread, Option.map_none, Option.getD_none, mergeMoves, List.find?_nil,
    List.map_cons, List.map_nil, List.length_nil, Nat.sub_zero, hfree]
  rfl

/-- No move of a bundle commits whose one move raises something. -/
theorem commits_faulting {mean : Meanings} {mv : SavedMove} {F : List (Nat × Flt)} (hs : mv.slot = 0) (hF : F ≠ []) :
    commits mean [mv] [(0, F)] = [] := by
  have hfirst : ([mv].filter (fun m => !([(0, F)] : List (Nat × List (Nat × Flt))).any (fun e => e.1 == m.slot && !e.2.isEmpty))) = [] := by
    simp [hs, hF]
  unfold commits
  rw [hfirst]
  rfl

theorem runTriggers_none (sid : Nat) (b : BInfo) (mean : Meanings) (starts : List Nat) (sw : State) (ms : List SavedMove) :
    runTriggers sid b [] [] mean starts sw ms [] [] = sw.drew := by
  unfold runTriggers
  rw [List.filter_eq_nil_iff.mpr (by simp)]
  exact List.foldl_fixed starts.zipIdx

/-- What a move that does not commit leaves: the sheet is counted, its core's stage is held. -/
theorem opSettled_eq (hq : sh.armed = false) : ∃ i d n x l p a, opSettled s sh m =
    (opBegun s sh m).drew.issued s.focus ((opSheet s sh m).counted i d n sh.pc)
      (setD s.cores Core.reset (coreOf s.focus) { s.core (coreOf s.focus) with busy := x, lastTarget := l }) p a := by
  have hq0 : (opSheet s sh m).armed = false := (opSheet_armed s sh m).trans hq
  have hsh : (opBegun s sh m).drew.sheet? s.focus = some (opSheet s sh m) := opBegun_sheet? s sh m
  obtain ⟨i, d, n, x, l, p, a, he⟩ := settleIssue_frame (s0 := opBegun s sh m) hsh hq0 hq0 (opStopInfo s sh m) [opMove s sh m] []
    (opTimes s sh m).1 (opTimes s sh m).2 []
  obtain ⟨_, _, _, hpc, _⟩ := opSheet_fields s sh m
  obtain ⟨sheets, hrest⟩ := opBegun_rest s sh m
  have hbpc : (opStopInfo s sh m).pc = sh.pc := hpc
  have hcores : (opBegun s sh m).drew.cores = s.cores := by rw [hrest]; rfl
  have hcore : (opBegun s sh m).drew.core (coreOf s.focus) = s.core (coreOf s.focus) := by rw [hrest]; rfl
  rw [hbpc, hcores, hcore] at he
  exact ⟨i, d, n, x, l, p, a, he⟩

theorem opSettled_sheet? (hq : sh.armed = false) : ∃ i d n, (opSettled s sh m).sheet? s.focus = some ((opSheet s sh m).counted i d n sh.pc) := by
  obtain ⟨i, d, n, x, l, p, a, he⟩ := opSettled_eq (s := s) (m := m) hq
  exact ⟨i, d, n, by rw [he, issued_sheet?_same]⟩

/-- Which moves are legal is as before. -/
theorem opSettled_legal (hq : sh.armed = false) (mv : Move) :
    moveOk mv ((opSettled s sh m).kernelOf (opSheet s sh m)).regs ((opSettled s sh m).core (coreOf s.focus)).split =
      moveOk mv (s.kernelOf sh).regs (s.core (coreOf s.focus)).split := by
  obtain ⟨i, d, n, x, l, p, a, he⟩ := opSettled_eq (s := s) (m := m) hq
  have hkernel : (opSettled s sh m).kernelOf (opSheet s sh m) = s.kernelOf sh :=
    (by rw [he]; rfl : _ = (opBegun s sh m).kernelOf (opSheet s sh m)).trans (opBegun_kernelOf s sh m)
  have hsplit : ((opSettled s sh m).core (coreOf s.focus)).split = (s.core (coreOf s.focus)).split := by
    rw [he]
    exact (congrArg Core.split (getD_setD_self s.cores Core.reset (coreOf s.focus) _)).trans rfl
  rw [hkernel, hsplit]

/-- A move alone that raises something stops its sheet. -/
theorem CanTry.stops {i : Instr} {o : OpMeaning} {F : List (Nat × Flt)} (hi : i.move = some m) (h : CanTry s sh m u)
    (hF : moveFaults (opBegun s sh m) s.focus (opSheet s sh m) (opBundle s sh m) [] [] (fun _ => .ok o) (opMove s sh m) = F)
    (hne : F ≠ []) : runOp i o s = .next ((opLeft s sh m u o F).takeCause s.focus (opTrap s sh m F)) := by
  have hslot := opMove_slot s sh m
  have hw : ∀ x c, writeMove x s.focus c (opMove s sh m) = x := by
    intro x c
    unfold writeMove
    rw [h.dst]
    simp
  have htent : ∀ ms : List SavedMove, (∀ e ∈ ms, e = opMove s sh m) →
      ms.foldl (fun x e => writeMove x s.focus ((opTimes s sh m).1.getD 0 0) e) (opBegun s sh m) = opBegun s sh m := by
    intro ms hms
    exact (List.foldl_ext _ (fun x _ => x) _ fun x e he => by rw [hms e he, hw]).trans (List.foldl_fixed ms)
  have hleft : leaveFaults s.focus (opStopInfo s sh m) [] [] (fun _ => .ok o) (opBegun s sh m) (opSheet s sh m) [(0, F)] [opMove s sh m]
      (opSettled s sh m) = opLeft s sh m u o F := by
    unfold leaveFaults opLeft
    rw [List.foldl_cons, List.foldl_nil, h.trig, hslot, opSheet_corrupt, h.clean, opMove_move, opSettled_legal h.quiet, opBegun_sheet?]
    simp only [List.filter_cons, List.filter_nil, beq_self_eq_true, if_true, List.flatMap_cons, List.flatMap_nil, List.append_nil,
      List.isEmpty_eq_false_iff.mpr hne, Bool.false_or, Option.getD_some, show (none == some 0) = false from rfl]
    cases moveOk m (s.kernelOf sh).regs (s.core (coreOf s.focus)).split <;> rfl
  unfold runOp
  rw [hi]
  dsimp only
  unfold issueOrWait
  suffices hs : issueBundle s s.focus (oneMove m) (.bundleIssue (oneMove m)) (fun _ => .ok o) =
      some ((opLeft s sh m u o F).takeCause s.focus (opTrap s sh m F)) by rw [hs]; rfl
  rw [h.issue]
  unfold commitBundle
  simp only [List.map_cons, List.map_nil, skipWhole_nil]
  rw [htent _ (by intro e he; simpa using (List.mem_filter.mp he).1), hF, hslot, commits_faulting hslot hne]
  simp only [List.contains_nil, List.filter_false, List.any_nil, List.map_nil, List.foldl_nil, runTriggers_none, List.all_cons,
    Bool.false_and, Bool.false_eq_true, if_false, List.append_nil]
  rw [← hleft]
  rfl

/-! ## The trap record -/

theorem minList_eq {a : Nat} : ∀ {l : List Nat} {d : Nat}, a ∈ l ∨ a = d → (∀ b ∈ l, a ≤ b) → a ≤ d → minList d l = a
  | [], d, hmem, _, _ => (hmem.resolve_left (by simp)).symm
  | b :: l, d, hmem, hlow, hd => by
    have hb := hlow b (by simp)
    refine minList_eq (l := l) (d := Nat.min d b) ?_ (fun c hc => hlow c (by simp [hc])) (Nat.le_min.mpr ⟨hd, hb⟩)
    rcases hmem with hmem | rfl
    · rcases List.mem_cons.mp hmem with rfl | hmem
      · exact .inr (Nat.min_eq_right hd).symm
      · exact .inl hmem
    · exact .inr (Nat.min_eq_left hb).symm

/-- What a list of faults raises at its lowest thread. -/
def lowestFlt (F : List (Nat × Flt)) : Flt := ((F.find? (fun e => e.1 == minList 128 (F.map (·.1)))).map (·.2)).getD Cause.none.flt

theorem lowestFlt_eq {F : List (Nat × Flt)} {th : Nat} {f : Flt} (hth : th < 128) (hmem : (th, f) ∈ F) (hlow : ∀ e ∈ F, th ≤ e.1)
    (hone : ∀ e ∈ F, e.1 = th → e.2 = f) : lowestFlt F = f := by
  have hmin : minList 128 (F.map (·.1)) = th :=
    minList_eq (.inl (List.mem_map.mpr ⟨_, hmem, rfl⟩)) (by simpa using fun a b h => hlow (a, b) h) hth.le
  unfold lowestFlt
  rw [hmin]
  cases hfind : F.find? (fun e => e.1 == th) with
  | none => exact absurd (List.find?_eq_none.mp hfind _ hmem) (by simp)
  | some e => exact hone e (List.mem_of_find?_eq_some hfind) (by simpa using List.find?_some hfind)

/-- The trap record of a move alone: slot 0, its threads, and what is raised at the lowest of them. -/
theorem opTrap_eq {F : List (Nat × Flt)} (hne : F ≠ []) : (opTrap s sh m F).late = false ∧ (opTrap s sh m F).baddr = sh.pc ∧
    (opTrap s sh m F).done = [] ∧ (opTrap s sh m F).rslot = 0 ∧ (opTrap s sh m F).sfault = [0] ∧
    (opTrap s sh m F).fmask = Mask.ofFn (fun t => F.any (fun e => e.1 == t)) ∧ (opTrap s sh m F).cause = (lowestFlt F).cause ∧
    (opTrap s sh m F).info = (lowestFlt F).info ∧ (opTrap s sh m F).faddr = (lowestFlt F).addr := by
  obtain ⟨_, _, _, hpc, _⟩ := opSheet_fields s sh m
  have hfaulting : ([(0, F)] : List (Nat × List (Nat × Flt))).filter (fun e => !e.2.isEmpty) = [(0, F)] := by simp [hne]
  unfold opTrap formTrap
  dsimp only
  rw [hfaulting]
  exact ⟨rfl, hpc, rfl, rfl, rfl, rfl, rfl, rfl, rfl⟩

/-! ## The stopped sheet -/

/-- A move that raises `F` stops its sheet, with all that it holds but what its SYS operations wait on. -/
theorem stopsSlot_of {F : List (Nat × Flt)} {z : State} {who : Nat → Prop} {what : Trap → Prop} (hq : sh.armed = false)
    (hz : Woke (opSettled s sh m) z) (hne : F ≠ []) (hF : ∀ e ∈ F, e.1 < 128) (hwho : ∀ th, (∃ f, (th, f) ∈ F) ↔ who th)
    (hwhat : what (opTrap s sh m F)) : StopsSlot s (z.takeCause s.focus (opTrap s sh m F)) sh who what := by
  obtain ⟨i, d, n, hsettled⟩ := opSettled_sheet? (s := s) (m := m) hq
  obtain ⟨w, hw⟩ := hz.sheet? hsettled
  obtain ⟨_, _, _, hpc, _, _, hv, hs, hp, hent, _, _, _, hqueue, hfpsr, _⟩ := opSheet_fields s sh m
  obtain ⟨hlate, hbaddr, hdone, hrslot, hsfault, hfmask, -⟩ := opTrap_eq (s := s) (sh := sh) (m := m) hne
  generalize opSheet s sh m = x at hw hpc hv hs hp hent hqueue hfpsr
  refine ⟨_, _, takeCause_sheet? hw _, rfl, rfl, hlate, hbaddr, hdone, hpc, hv, hs, hp, hent, hfpsr, hqueue, hrslot, hsfault, fun th => ?_, hwhat⟩
  rw [hfmask, ← hwho]
  constructor
  · intro hth
    have hlt : th < 128 := by
      by_contra hge
      exact absurd hth (by simp [Mask.has, BitVec.getLsbD_of_ge _ _ (Nat.le_of_not_lt hge)])
    rw [Mask.has_ofFn _ hlt] at hth
    obtain ⟨e, he, heq⟩ := List.any_eq_true.mp hth
    exact ⟨e.2, by rwa [← eq_of_beq heq]⟩
  · rintro ⟨f, hf⟩
    rw [Mask.has_ofFn _ (hF _ hf)]
    exact List.any_eq_true.mpr ⟨_, hf, beq_self_eq_true th⟩

/-- What the issue of a move that does not commit leaves of memory. -/
theorem opSettled_mem (hq : sh.armed = false) : (opSettled s sh m).mem = s.mem := by
  obtain ⟨i, d, n, x, l, p, a, he⟩ := opSettled_eq (s := s) (m := m) hq
  obtain ⟨sheets, hrest⟩ := opBegun_rest s sh m
  rw [he, hrest]
  rfl

end

end Sys2Proof.Machine
end

section
/-! # Causes of single operations: the divides, TRAP and BRK (O32) -/

namespace Sys2Proof.Machine

section
variable {s : State} {sh : Sheet} {m : Move} {u : FUnit} {i : Instr} {o : OpMeaning} {F : List (Nat × Flt)}

/-- The trigger as the checks of its operation find it. -/
def checkCtx (s : State) (sh : Sheet) (m : Move) (u : FUnit) : TrigCtx := { opCtx s sh m u with engines := 0, droop0 := 0 }

theorem checkCtx_threads (s : State) (sh : Sheet) (m : Move) (u : FUnit) : (checkCtx s sh m u).threads = opThreads s sh m u :=
  opCtx_threads s sh m u

/-- A legal move that executes raises what the checks of its operation find. -/
theorem CanIssue.moveFaults_eq (h : CanIssue s sh m u) (hr : opRuns s sh m) :
    moveFaults (opBegun s sh m) s.focus (opSheet s sh m) (opBundle s sh m) [] [] (fun _ => .ok o) (opMove s sh m) =
      o.check (checkCtx s sh m u) := by
  unfold moveFaults
  rw [if_neg hr, opSheet_corrupt, h.clean, if_neg (by simp), opMove_move, h.legal', h.trig, opBegun_sheet?]
  rfl

/-- An operation whose checks find something stops its sheet. -/
theorem CanIssue.stops (h : CanIssue s sh m u) (hi : i.move = some m) (ho : meaningOf i = some o) (hr : opRuns s sh m)
    (hF : o.check (checkCtx s sh m u) = F) (hne : F ≠ []) :
    exec i s = .next ((o.onFault { opCtx s sh m u with engines := 0 } F (opSettled s sh m)).takeCause s.focus (opTrap s sh m F)) := by
  rw [exec_of_meaningOf ho, h.tries.stops hi ((h.moveFaults_eq hr).trans hF) hne, opLeft, if_pos h.legal]

theorem opThreads_lt {th : Nat} (h : th ∈ opThreads s sh m u) : th < 128 := (mem_threads.mp h).1
theorem opRuns_of_mem {th : Nat} (h : th ∈ opThreads s sh m u) : opRuns s sh m := by
  by_contra hr
  rw [threads_of_idle hr] at h
  cases h

/-- The cause and INFO that every fault of a list gives are those of its lowest thread. -/
theorem lowestFlt_const {f : Flt} (hne : F ≠ []) (hlt : ∀ e ∈ F, e.1 < 128) (hall : ∀ e ∈ F, e.2 = f) : lowestFlt F = f := by
  classical
  have hex : ∃ th, ∃ g, (th, g) ∈ F := by
    obtain ⟨e, he⟩ := List.exists_mem_of_ne_nil F hne
    exact ⟨e.1, e.2, he⟩
  obtain ⟨g, hg⟩ := Nat.find_spec hex
  exact lowestFlt_eq (hlt _ hg) (hall _ hg ▸ hg) (fun e he => Nat.find_min' hex ⟨e.2, he⟩) (fun e he _ => hall e he)

/-- A stop of an operation whose faults leave nothing behind. -/
theorem CanIssue.stopsSlot {who : Nat → Prop} {what : Trap → Prop} (h : CanIssue s sh m u) (hi : i.move = some m)
    (ho : meaningOf i = some o) (hr : opRuns s sh m) (hF : o.check (checkCtx s sh m u) = F) (hleave : ∀ x l z, o.onFault x l z = z)
    (hne : F ≠ []) (hlt : ∀ e ∈ F, e.1 < 128) (hwho : ∀ th, (∃ f, (th, f) ∈ F) ↔ who th) (hwhat : what (opTrap s sh m F)) :
    exec i s = .next ((opSettled s sh m).takeCause s.focus (opTrap s sh m F)) ∧
      SameMemory s ((opSettled s sh m).takeCause s.focus (opTrap s sh m F)) ∧
      StopsSlot s ((opSettled s sh m).takeCause s.focus (opTrap s sh m F)) sh who what := by
  refine ⟨by rw [h.stops hi ho hr hF hne, hleave], fun a => ?_, stopsSlot_of h.quiet (.refl _) hne hlt hwho hwhat⟩
  unfold State.readByte
  rw [takeCause_mem, opSettled_mem h.quiet]

theorem opTrap_const {f : Flt} (hne : F ≠ []) (hlt : ∀ e ∈ F, e.1 < 128) (hall : ∀ e ∈ F, e.2 = f) :
    (opTrap s sh m F).cause = f.cause ∧ (opTrap s sh m F).info = f.info := by
  obtain ⟨-, -, -, -, -, -, hcause, hinfo, -⟩ := opTrap_eq (s := s) (sh := sh) (m := m) hne
  rw [hcause, hinfo, lowestFlt_const hne hlt hall]
  exact ⟨rfl, rfl⟩

/-! ## Divides (R400) -/

theorem divideNat_zero (sgn : Bool) (n a b : Nat) : (divideNat sgn n a b).2.2 = decide (b = 0) := by
  unfold divideNat
  split
  · next h => simp [h]
  · next h => split <;> simp [h]

/-- A divide stops where the divisor of some thread is 0, which `f` says. -/
theorem CanIssue.divideStops {c : Nat} {f : LaneIn → W64 × W64 × Bool} {x : X1M32} (h : CanIssue s sh m .imu) (hi : i.move = some m)
    (ho : meaningOf i = some (divideOp c f)) (hf : ∀ l, (f l).2.2 = decide (l.t.toNat % 2 ^ widthOf x.m32 = 0))
    (hz : ∃ th ∈ opThreads s sh m .imu, ZeroDivisor s sh m x th) :
    ∃ t, exec i s = .next t ∧ SameMemory s t ∧
      Raises s t sh .intDivide 0 (fun th => th ∈ opThreads s sh m .imu ∧ ZeroDivisor s sh m x th) := by
  obtain ⟨th, hth, hzero⟩ := hz
  let F := ((opThreads s sh m .imu).filter (fun t => (f (opIn s sh m .imu t)).2.2)).map (fun t => (t, Cause.intDivide.flt))
  have hF : (divideOp c f).check (checkCtx s sh m .imu) = F := by
    rw [divideOp]
    dsimp only
    rw [checkCtx_threads]
    rfl
  have hmem : ∀ q g, (q, g) ∈ F ↔ (q ∈ opThreads s sh m .imu ∧ ZeroDivisor s sh m x q) ∧ g = Cause.intDivide.flt := by
    intro q g
    simp only [F, List.mem_map, List.mem_filter, hf, decide_eq_true_eq, Prod.mk.injEq]
    exact ⟨by rintro ⟨a, ha, rfl, rfl⟩; exact ⟨ha, rfl⟩, by rintro ⟨ha, rfl⟩; exact ⟨q, ha, rfl, rfl⟩⟩
  have hne : F ≠ [] := List.ne_nil_of_mem ((hmem th _).mpr ⟨⟨hth, hzero⟩, rfl⟩)
  have hlt : ∀ e ∈ F, e.1 < 128 := fun e he => opThreads_lt ((hmem e.1 e.2).mp he).1.1
  refine ⟨_, h.stopsSlot hi ho (opRuns_of_mem hth) hF (fun _ _ _ => rfl) hne hlt (fun q => ?_)
    (opTrap_const hne hlt fun e he => ((hmem e.1 e.2).mp he).2)⟩
  exact ⟨fun ⟨g, hg⟩ => ((hmem q g).mp hg).1, fun hq => ⟨_, (hmem q _).mpr ⟨hq, rfl⟩⟩⟩

/-! ## Faults of uniform operations (R284) -/

theorem lowest_of_ne {k : Mask} (h : k ≠ 0) : ∃ th, k.lowest = some th ∧ th < 128 := by
  cases hl : k.lowest with
  | some th => exact ⟨th, rfl, (mem_threads.mp (List.mem_of_head? hl)).1⟩
  | none =>
    refine absurd (BitVec.eq_of_getLsbD_eq fun t ht => ?_) h
    have hempty : k.threads = [] := List.head?_eq_none_iff.mp hl
    have hnot := mt (mem_threads (k := k) (t := t)).mpr (by rw [hempty]; simp)
    exact (by simpa [ht, Mask.has] using hnot : k.getLsbD t = false).trans BitVec.getLsbD_zero.symm

theorem CanIssue.lead (h : CanIssue s sh m u) : ∃ th, sh.active.lowest = some th ∧ th < 128 ∧ (checkCtx s sh m u).lead = th := by
  obtain ⟨th, hth, hlt⟩ := lowest_of_ne (stageOpen_runs h.opens).2
  refine ⟨th, hth, hlt, ?_⟩
  obtain ⟨_, _, _, _, hmask, hgone, _⟩ := opSheet_fields s sh m
  have hactive : (opSheet s sh m).active = sh.active := by
    unfold Sheet.active
    rw [hmask, hgone]
  show ((opSheet s sh m).active.lowest).getD 0 = th
  rw [hactive, hth]
  rfl

/-- A uniform operation that faults names the lowest active thread. -/
theorem CanIssue.uniformRaises {f : Flt} {z : State} (h : CanIssue s sh m u) (hi : i.move = some m) (ho : meaningOf i = some o)
    (hr : opRuns s sh m) (hF : o.check (checkCtx s sh m u) = (checkCtx s sh m u).fault f)
    (hz : z = o.onFault { opCtx s sh m u with engines := 0 } ((checkCtx s sh m u).fault f) (opSettled s sh m))
    (hwoke : Woke (opSettled s sh m) z) :
    ∃ r, exec i s = .next (z.takeCause s.focus r) ∧
      Raises s (z.takeCause s.focus r) sh f.cause f.info (fun th => sh.active.lowest = some th) := by
  obtain ⟨th, hlow, hlt, hlead⟩ := h.lead
  have hfault : (checkCtx s sh m u).fault f = [(th, f)] := by rw [TrigCtx.fault, hlead]
  rw [hfault] at hF hz
  have hone : ∀ e ∈ [(th, f)], e.1 < 128 := by simpa using hlt
  refine ⟨_, hz ▸ h.stops hi ho hr hF (by simp), stopsSlot_of h.quiet hwoke (by simp) hone (fun q => ?_)
    (opTrap_const (by simp) hone (by simp))⟩
  rw [hlow]
  simp [eq_comm]

theorem trapStops {h : Head} (hc : CanIssue s sh m .sys) (hr : opRuns s sh m) (hi : (Instr.trap h).move = some m) :
    ∃ t, exec (.trap h) s = .next t ∧ SameMemory s t ∧ Raises s t sh .softwareTrap 0 (fun th => sh.active.lowest = some th) := by
  obtain ⟨r, hexec, hraises⟩ := hc.uniformRaises (i := .trap h) hi rfl hr rfl rfl (.refl _)
  exact ⟨_, hexec, sameMemory_of_mem ((takeCause_mem ..).trans (opSettled_mem hc.quiet)), hraises⟩

theorem brk_onFault_woke (x : TrigCtx) (l : List (Nat × Flt)) (z : State) : Woke z (brkMeaning.onFault x l z) := by
  unfold brkMeaning
  dsimp only
  split
  · exact traceRecord_woke ..
  · exact .refl z
theorem brkStops {h : Head} (hc : CanIssue s sh m .sys) (hr : opRuns s sh m) (hi : (Instr.brk h).move = some m) :
    ∃ t, exec (.brk h) s = .next t ∧ Raises s t sh .breakpoint 0 (fun th => sh.active.lowest = some th) := by
  obtain ⟨r, hexec, hraises⟩ := hc.uniformRaises (i := .brk h) hi rfl hr rfl rfl (brk_onFault_woke ..)
  exact ⟨_, hexec, hraises⟩

end

end Sys2Proof.Machine
end

section
/-! # Flags that trap: operations of the FPU and XFU (O32; R153) -/

namespace Sys2Proof.Machine

section
variable {s : State} {sh : Sheet} {m : Move} {u : FUnit} {i : Instr}

theorem foldl_or_getLsbD {α : Type} (g : α → Flags) (b : Nat) : ∀ (l : List α) (a : Flags),
    (l.foldl (fun x e => x ||| g e) a).getLsbD b = (a.getLsbD b || l.any (fun e => (g e).getLsbD b))
  | [], a => by simp
  | e :: l, a => by
    rw [List.foldl_cons, foldl_or_getLsbD g b l, BitVec.getLsbD_or, List.any_cons, Bool.or_assoc]

/-- The flags of the threads that trap. -/
def trapping (s : State) (sh : Sheet) (m : Move) (u : FUnit) (f : LaneIn → LaneOut) : List (Nat × Flags) :=
  ((opThreads s sh m u).map (fun t => (t, (f (opIn s sh m u t)).flags))).filter (fun e => Flags.traps sh.fpcr e.2)
/-- INFO of their stop, and the fault of one of them. -/
def trapInfo (l : List (Nat × Flags)) : Nat := (l.foldl (fun f e => f ||| e.2) (0 : Flags)).toNat
def trapFlt (fpcr : BitVec 9) (info : Nat) (fl : Flags) : Flt :=
  ⟨if Flags.trapsEmpty fpcr fl then .intervalEmpty else .fpEnabled, info, 0⟩

theorem mem_trapping {f : LaneIn → LaneOut} {q : Nat} {fl : Flags} : (q, fl) ∈ trapping s sh m u f ↔
    q ∈ opThreads s sh m u ∧ fl = (f (opIn s sh m u q)).flags ∧ Flags.traps sh.fpcr (f (opIn s sh m u q)).flags = true := by
  simp only [trapping, List.mem_filter, List.mem_map, Prod.mk.injEq]
  constructor
  · rintro ⟨⟨a, ha, rfl, rfl⟩, ht⟩
    exact ⟨ha, rfl, ht⟩
  · rintro ⟨hq, rfl, ht⟩
    exact ⟨⟨q, hq, rfl, rfl⟩, ht⟩

/-- What the checks of an operation of the lanes find. -/
theorem laneOp_faults (cls : LaneIn → Nat) (f : LaneIn → LaneOut) (n : Nat) : (laneOp cls f n).check (checkCtx s sh m u) =
    (trapping s sh m u f).map (fun e => (e.1, trapFlt sh.fpcr (trapInfo (trapping s sh m u f)) e.2)) := by
  have hfpcr : (checkCtx s sh m u).sh.fpcr = sh.fpcr := by
    obtain ⟨fl, lat, cf, h⟩ := opSheet_frame s sh m
    show (opSheet s sh m).fpcr = sh.fpcr
    rw [h]
  unfold laneOp fpFaults
  dsimp only
  rw [checkCtx_threads, hfpcr]
  rfl

theorem trapInfo_testBit (f : LaneIn → LaneOut) (b : Nat) : (trapInfo (trapping s sh m u f)).testBit b =
    (opThreads s sh m u).any (fun q => Flags.traps sh.fpcr (f (opIn s sh m u q)).flags && (f (opIn s sh m u q)).flags.getLsbD b) := by
  have hfold := foldl_or_getLsbD (fun e : Nat × Flags => e.2) b (trapping s sh m u f) 0
  rw [BitVec.getLsbD, show (0 : Flags).getLsbD b = false from BitVec.getLsbD_zero, Bool.false_or] at hfold
  unfold trapInfo
  rw [hfold, trapping, List.any_filter, List.any_map]
  rfl

/-- An operation of the lanes stops its sheet where a flag that it would raise traps. -/
theorem fpStops_of {cls : LaneIn → Nat} {g f : LaneIn → LaneOut} {n : Nat} (ho : meaningOf i = some (laneOp cls g n))
    (hfg : ∀ l, (g l).flags = (f l).flags) : FpStops i u f := by
  intro s sh m hi h traps th hth htrap hlow
  have hsame : trapping s sh m u g = trapping s sh m u f := by simp only [trapping, hfg]
  have hF := laneOp_faults (s := s) (sh := sh) (m := m) (u := u) cls g n
  rw [hsame] at hF
  generalize hFe : (trapping s sh m u f).map (fun e => (e.1, trapFlt sh.fpcr (trapInfo (trapping s sh m u f)) e.2)) = F at hF
  have hmem : ∀ q x, (q, x) ∈ F ↔ (q ∈ opThreads s sh m u ∧ traps q = true) ∧
      x = trapFlt sh.fpcr (trapInfo (trapping s sh m u f)) (f (opIn s sh m u q)).flags := by
    intro q x
    rw [← hFe, List.mem_map]
    constructor
    · rintro ⟨⟨a, fl⟩, ha, heq⟩
      obtain ⟨hat, rfl, hatrap⟩ := mem_trapping.mp ha
      obtain ⟨rfl, rfl⟩ := Prod.mk.inj heq
      exact ⟨⟨hat, hatrap⟩, rfl⟩
    · rintro ⟨⟨hq, hqt⟩, rfl⟩
      exact ⟨_, mem_trapping.mpr ⟨hq, rfl, hqt⟩, rfl⟩
  have hthF := (hmem th _).mpr ⟨⟨hth, htrap⟩, rfl⟩
  have hne : F ≠ [] := List.ne_nil_of_mem hthF
  have hlt : ∀ e ∈ F, e.1 < 128 := fun e he => opThreads_lt ((hmem e.1 e.2).mp he).1.1
  have hfirst : lowestFlt F = trapFlt sh.fpcr (trapInfo (trapping s sh m u f)) (f (opIn s sh m u th)).flags := by
    refine lowestFlt_eq (hlt _ hthF) hthF (fun e he => ?_) fun e he heq => ?_
    · obtain ⟨⟨heth, hetrap⟩, -⟩ := (hmem e.1 e.2).mp he
      by_contra hlate
      exact absurd (hlow e.1 heth (Nat.lt_of_not_le hlate)) (by rw [hetrap]; decide)
    · rw [((hmem e.1 e.2).mp he).2, heq]
  obtain ⟨-, -, -, -, -, -, hcause, hinfo, -⟩ := opTrap_eq (s := s) (sh := sh) (m := m) hne
  refine ⟨_, h.stopsSlot hi ho (opRuns_of_mem hth) hF (fun _ _ _ => rfl) hne hlt (fun q => ?_) ⟨?_, fun b _ => ?_⟩⟩
  · exact ⟨fun ⟨x, hx⟩ => ((hmem q x).mp hx).1, fun hq => ⟨_, (hmem q _).mpr ⟨hq, rfl⟩⟩⟩
  · rw [hcause, hfirst]
    rfl
  · rw [hinfo, hfirst]
    exact trapInfo_testBit f b

end

/-! ## The operations -/

theorem fpStops_self {u : FUnit} {i : Instr} (cls : LaneIn → Nat) {f : LaneIn → LaneOut} (ho : meaningOf i = some (laneOp cls f 1)) :
    FpStops i u f := fpStops_of ho fun _ => rfl

theorem fpStops_fcmp (u : FpuUnit) (h : Head) (r : FpRel) :
    FpStops (.fcmp u h r) u.unit (fun i => fpCompare r.rel (fpRead r.ty i.ftz i.x0) (fpRead r.ty i.ftz i.t)) := by
  refine fpStops_of rfl fun l => ?_
  unfold fpCompare
  dsimp only
  generalize fpRead r.ty l.ftz l.x0 = a
  generalize fpRead r.ty l.ftz l.t = b
  cases a.isNan <;> cases b.isNan <;> rfl

end Sys2Proof.Machine
end

section
/-! # Tags that do not fit: the tagged operations of the CFE (O32; R242, R243) -/

namespace Sys2Proof.Machine

/-! ## Result tags -/

theorem withBound_eq (k : Nat) (t : LimbTag) : withBound k t = boundTag k t.sg t.s t.n t.b t.d := by
  unfold withBound boundTag
  by_cases hk : k = 0
  · rw [if_neg (not_not.mpr hk), if_pos hk]
    rfl
  · rw [if_pos hk, if_neg hk]
theorem tagFails_iff (t : LimbTag) : tagFails t = true ↔ ¬ TagFits t := by
  unfold tagFails TagFits
  rw [Bool.or_eq_true, decide_eq_true_iff, decide_eq_true_iff]
  omega

/-- A product has a tag where strides, sizes and the tag itself pass the checks of R243. -/
theorem mulTag_none (k : Nat) (a b : LimbTag) : mulTag k none a b = none ↔ ¬ (a.s = b.s ∧ a.n * a.s ≤ 512 ∧ b.n * b.s ≤ 512 ∧
    TagFits (boundTag k (a.sg || b.sg) a.s (a.n + b.n - 1) (productBound a b) (a.d || b.d))) := by
  unfold mulTag
  dsimp only
  rw [withBound_eq, Bool.and_true]
  simp only [ite_eq_left_iff, reduceCtorEq, imp_false, not_not, Bool.or_eq_true, tagFails_iff, Bool.not_eq_true', beq_eq_false_iff_ne,
    decide_eq_true_iff, not_and_or, not_le, ne_eq, or_assoc]
  exact Iff.rfl
/-- The same for a product that is added to a limb of tag `d`. -/
theorem macTag_none (k : Nat) (d a b : LimbTag) : mulTag k (some d) a b = none ↔
    ¬ (a.s = b.s ∧ d.s = a.s ∧ a.n * a.s ≤ 512 ∧ b.n * b.s ≤ 512 ∧
      TagFits (boundTag k (a.sg || b.sg || d.sg) a.s (max d.n (a.n + b.n - 1)) (d.b + productBound a b) (a.d || b.d || d.d))) := by
  unfold mulTag
  dsimp only
  rw [withBound_eq]
  simp only [ite_eq_left_iff, reduceCtorEq, imp_false, not_not, Bool.or_eq_true, tagFails_iff, Bool.not_eq_true', beq_eq_false_iff_ne,
    decide_eq_true_iff, not_and_or, not_le, ne_eq, or_assoc, Bool.and_eq_false_iff]
  exact Iff.rfl
theorem addTag_none (k : Nat) (sub : Bool) (a b : LimbTag) : addTag k sub a b = none ↔
    ¬ (a.s = b.s ∧ TagFits (boundTag k (a.sg || b.sg || sub) a.s (max a.n b.n) (a.b + b.b) (a.d || b.d))) := by
  unfold addTag
  dsimp only
  rw [withBound_eq]
  simp only [ite_eq_left_iff, reduceCtorEq, imp_false, not_not, Bool.or_eq_true, tagFails_iff, bne_iff_ne, not_and_or, ne_eq]
theorem shlTag_none (k m : Nat) (a : LimbTag) : shlTag k m a = none ↔ ¬ TagFits (boundTag k a.sg a.s (a.n + m) a.b a.d) := by
  unfold shlTag
  dsimp only
  rw [withBound_eq]
  simp only [ite_eq_left_iff, reduceCtorEq, imp_false, not_not, tagFails_iff]

theorem tagOr_of {x : TrigCtx} {k : Nat} {t : LimbTag} (h : x.tag k = some t) : x.tagOr k = t := by
  unfold TrigCtx.tagOr
  rw [h]
  rfl

/-! ## The stop -/

section
variable {s : State} {sh : Sheet} {m : Move} {i op : Instr} {d : Limb} {useA useB : Bool}

theorem takeCause_wgs (s : State) (sid : Nat) (r : Trap) : (s.takeCause sid r).wgs = s.wgs := by
  unfold State.takeCause
  split
  · rfl
  · exact State.event_wgs ..
theorem opSettled_wgs (hq : sh.armed = false) : (opSettled s sh m).wgs = s.wgs := by
  obtain ⟨i, d, n, x, l, p, a, he⟩ := opSettled_eq (s := s) (m := m) hq
  obtain ⟨sheets, hrest⟩ := opBegun_rest s sh m
  rw [he, hrest]
  rfl

/-- A trigger whose names R130 and R132 allow passes the checks of its value. -/
theorem cfeTrigger_passes {x : TrigCtx} (h : CfeNames x (some d) useA useB) : ∀ p ∈ cfeTrigger x (some d) useA useB, p.1 = false := by
  obtain ⟨htv, hA, hB, hd⟩ := h
  have hnamesA : (!useA && cfeA x.tv != 0) = false ∧ (useA && decide (x.kernel.limbs ≤ cfeA x.tv)) = false := by
    cases useA <;> simpa using hA
  have hnamesB : (!useB && cfeB x.tv != 0) = false ∧ (useB && decide (x.kernel.limbs ≤ cfeB x.tv)) = false := by
    cases useB <;> simpa using hB
  intro p hp
  rw [List.mem_singleton.mp hp]
  dsimp only
  rw [decide_eq_false (Nat.not_le.mpr htv), decide_eq_false (Nat.not_le.mpr (hd d rfl)), hnamesA.1, hnamesA.2, hnamesB.1, hnamesB.2]
  rfl

/-- A tagged operation whose tag the checks refuse stops its sheet, limbs and tags as they are. -/
theorem guardStops_of {pre : TrigCtx → List (Bool × Flt)} {reads : TrigCtx → List Nat} {tag : TrigCtx → Option (Option LimbTag)}
    {bad : TrigCtx → Prop} (ho : meaningOf i = some (taggedOp op d useA useB pre reads tag))
    (hbad : ∀ s sh m, bad (opCtx s sh m .cfe) →
      (∀ p ∈ pre (checkCtx s sh m .cfe), p.1 = false) ∧ tag (checkCtx s sh m .cfe) = none) : GuardStops i d useA useB bad := by
  intro s sh m hi h hr hnames hb
  obtain ⟨hpre, htag⟩ := hbad s sh m hb
  have hpass : ∀ p ∈ cfeTrigger (checkCtx s sh m .cfe) (some d) useA useB ++ pre (checkCtx s sh m .cfe), ¬ p.1 = true := by
    intro p hp
    rw [Bool.not_eq_true]
    exact (List.mem_append.mp hp).elim (cfeTrigger_passes (x := checkCtx s sh m .cfe) hnames p) (hpre p)
  have hF : (taggedOp op d useA useB pre reads tag).check (checkCtx s sh m .cfe) = (checkCtx s sh m .cfe).fault Cause.guardStatic.flt := by
    show firstFault _ _ = _
    unfold firstFault
    rw [List.find?_append, List.find?_eq_none.mpr hpass, htag]
    rfl
  obtain ⟨r, hexec, hraises⟩ := h.uniformRaises (z := opSettled s sh m) hi ho hr hF rfl (.refl _)
  have hwgs : ((opSettled s sh m).takeCause s.focus r).wgs = s.wgs := (takeCause_wgs ..).trans (opSettled_wgs h.quiet)
  exact ⟨_, hexec, sameMemory_of_mem ((takeCause_mem ..).trans (opSettled_mem h.quiet)),
    fun k w hw => ⟨w, by rw [State.wg?, hwgs]; exact hw, rfl, rfl⟩, hraises⟩

end

/-! ## The operations -/

/-- Two tags multiply only where R243 lets them. -/
theorem product_refused {x : TrigCtx} {k l : Nat} (hbad : ¬ (Factors x k l ∧ TagFits (boundTag (x.cf 6) ((x.tagOr k).sg || (x.tagOr l).sg)
    (x.tagOr k).s ((x.tagOr k).n + (x.tagOr l).n - 1) (productBound (x.tagOr k) (x.tagOr l)) ((x.tagOr k).d || (x.tagOr l).d))))
    {a b : LimbTag} (ha : x.tag k = some a) (hb : x.tag l = some b) : mulTag (x.cf 6) none a b = none := by
  rw [Factors, ha, hb, tagOr_of ha, tagOr_of hb] at hbad
  rw [mulTag_none]
  rintro ⟨hs, hna, hnb, hfits⟩
  rw [hs] at hna
  exact hbad ⟨⟨rfl, rfl, hs, hs ▸ hna, hnb⟩, hfits⟩

theorem cmul_refused {x : TrigCtx} (hbad : ¬ (Factors x (cfeA x.tv) (cfeB x.tv) ∧ TagFits (mulTagOf x (x.tagOr (cfeB x.tv))))) :
    ((tagAB x).bind (fun p => mulTag (x.cf 6) none p.1 p.2)).map some = none := by
  unfold tagAB
  cases ha : x.tag (cfeA x.tv) with
  | none => rfl
  | some a =>
    cases hb : x.tag (cfeB x.tv) with
    | none => rfl
    | some b => exact congrArg (Option.map some) (product_refused hbad ha hb)

theorem csqr_refused {x : TrigCtx} (hbad : ¬ (Factors x (cfeA x.tv) (cfeA x.tv) ∧ TagFits (mulTagOf x (x.tagOr (cfeA x.tv))))) :
    ((x.tag (cfeA x.tv)).bind (fun a => mulTag (x.cf 6) none a a)).map some = none := by
  cases ha : x.tag (cfeA x.tv) with
  | none => rfl
  | some a => exact congrArg (Option.map some) (product_refused hbad ha ha)

theorem cmac_refused {x : TrigCtx} {d : Limb} (hbad : ¬ (Factors x (cfeA x.tv) (cfeB x.tv) ∧ (x.tag d.val).isSome ∧
    (x.tagOr d.val).s = (x.tagOr (cfeA x.tv)).s ∧ TagFits (macTagOf x d))) :
    ((tagAB x).bind (fun p => (x.tag d.val).bind (fun t => mulTag (x.cf 6) (some t) p.1 p.2))).map some = none := by
  unfold tagAB
  cases ha : x.tag (cfeA x.tv) with
  | none => rfl
  | some a =>
    cases hb : x.tag (cfeB x.tv) with
    | none => rfl
    | some b =>
      cases hd : x.tag d.val with
      | none => rfl
      | some t =>
        refine congrArg (Option.map some) ((macTag_none ..).mpr ?_)
        rintro ⟨hs, hds, hna, hnb, hfits⟩
        refine hbad ⟨⟨by rw [ha]; rfl, by rw [hb]; rfl, ?_, ?_, ?_⟩, by rw [hd]; rfl, ?_, ?_⟩ <;>
          simp only [macTagOf, tagOr_of ha, tagOr_of hb, tagOr_of hd]
        exacts [hs, hna, hnb, hds, hfits]

theorem addSub_refused {x : TrigCtx} {sub : Bool} (hbad : ¬ SumOk x sub) : addSubTag sub x = none := by
  unfold addSubTag
  cases ha : x.tag (cfeA x.tv) with
  | none =>
    cases hb : x.tag (cfeB x.tv) with
    | none => exact absurd (.inl ⟨ha, hb⟩) hbad
    | some b => rfl
  | some a =>
    cases hb : x.tag (cfeB x.tv) with
    | none => rfl
    | some b =>
      refine congrArg (Option.map some) ((addTag_none ..).mpr ?_)
      rintro ⟨hs, hfits⟩
      refine hbad (.inr ⟨by rw [ha]; rfl, by rw [hb]; rfl, ?_, ?_⟩) <;> simp only [sumTagOf, tagOr_of ha, tagOr_of hb]
      exacts [hs, hfits]

theorem cshl_refused {x : TrigCtx} (hbad : ¬ ((x.tag (cfeA x.tv)).isSome ∧ TagFits (shiftTagOf x))) :
    ((x.tag (cfeA x.tv)).bind (fun a => shlTag (x.cf 6) (x.x 0 0).toNat a)).map some = none := by
  cases ha : x.tag (cfeA x.tv) with
  | none => rfl
  | some a =>
    refine congrArg (Option.map some) ((shlTag_none ..).mpr fun hfits => hbad ⟨by rw [ha]; rfl, ?_⟩)
    simp only [shiftTagOf, tagOr_of ha]
    exact hfits

/-- An operation with no check but those of its trigger and its tag. -/
theorem guardStops_plain {i op : Instr} {d : Limb} {useA useB : Bool} {reads : TrigCtx → List Nat}
    {tag : TrigCtx → Option (Option LimbTag)} {bad : TrigCtx → Prop}
    (ho : meaningOf i = some (taggedOp op d useA useB (fun _ => []) reads tag)) (hbad : ∀ x, bad x → tag x = none)
    (hctx : ∀ s sh m, bad (opCtx s sh m .cfe) → bad (checkCtx s sh m .cfe)) : GuardStops i d useA useB bad :=
  guardStops_of ho fun s sh m hb => ⟨fun _ hp => absurd hp (List.not_mem_nil), hbad _ (hctx s sh m hb)⟩

theorem guardStops_cshl (h : Head) (d : Limb) : GuardStops (.cshl h d) d true false
    (fun x => (x.x 0 0).toNat < 512 ∧ ¬ ((x.tag (cfeA x.tv)).isSome ∧ TagFits (shiftTagOf x))) := by
  refine guardStops_of rfl fun s sh m hb => ⟨fun p hp => ?_, cshl_refused (x := checkCtx s sh m .cfe) hb.2⟩
  rw [List.mem_singleton.mp hp]
  exact decide_eq_false (Nat.not_lt.mpr (Nat.le_of_lt_succ hb.1))

end Sys2Proof.Machine
end

section
/-! # Illegal moves and bundles (O32; R104) -/

namespace Sys2Proof.Machine

/-! ## Operations and their moves -/

theorem dst_tPort (u : FUnit) : Dst.ofCode (BitVec.ofNat 10 u.tPort).toNat = some (.t u) := by
  cases u <;> decide
/-- The move of an operation triggers a unit. -/
theorem move_unit {i : Instr} {m : Move} (h : i.move = some m) : ∃ u, Dst.ofCode m.dst.toNat = some (.t u) := by
  obtain ⟨⟨u, hd, opc, mod⟩, -, rfl⟩ := Option.map_eq_some_iff.mp h
  exact ⟨u, dst_tPort u⟩

/-- An instruction without a meaning of its own has no move. -/
theorem move_of_event {i : Instr} (h : meaningOf i = none) : i.move = none := by
  cases i <;> cases h <;> rfl

section
variable {s : State} {sh : Sheet} {m : Move} {u : FUnit} {i : Instr}

theorem faultThreads_lt (h : sh.active ≠ 0) (mv : SavedMove) : ∀ th ∈ faultThreads sh mv, th < 128 := by
  obtain ⟨th, hth, hlt⟩ := lowest_of_ne h
  unfold faultThreads
  split
  · rw [hth]
    simpa using hlt
  · exact fun q hq => (mem_threads.mp hq).1

/-- The threads of a fault of the whole move: the lowest active one of a uniform move, else those in which it executes. -/
theorem mem_faultThreads {mv : SavedMove} (h : sh.active ≠ 0) (th : Nat) : th ∈ faultThreads sh mv ↔
    (if Move.uniform mv.move then sh.active.lowest = some th else mv.exec.has th = true) := by
  obtain ⟨low, hlow, hlt⟩ := lowest_of_ne h
  unfold faultThreads
  split
  · rw [hlow]
    simp [eq_comm]
  · refine ⟨fun hq => (mem_threads.mp hq).2, fun hq => mem_threads.mpr ⟨?_, hq⟩⟩
    by_contra hge
    exact absurd hq (by simp [Mask.has, BitVec.getLsbD_of_ge _ _ (Nat.le_of_not_lt hge)])

theorem opSheet_active (s : State) (sh : Sheet) (m : Move) : (opSheet s sh m).active = sh.active := by
  obtain ⟨_, _, _, _, hmask, hgone, _⟩ := opSheet_fields s sh m
  unfold Sheet.active
  rw [hmask, hgone]

/-- A move that breaks a check of its own stops its sheet (R104). -/
theorem CanTry.illegalStops (h : CanTry s sh m u) (hi : i.move = some m) (hr : opRuns s sh m)
    (hbad : moveOk m (s.kernelOf sh).regs (s.core (coreOf s.focus)).split = false) : ∃ t, exec i s = .next t ∧ SameMemory s t ∧
      Raises s t sh .moveIllegal 0 (fun th => if Move.uniform m then sh.active.lowest = some th else (opMove s sh m).exec.has th = true) := by
  obtain ⟨o, ho⟩ : ∃ o, meaningOf i = some o := Option.ne_none_iff_exists'.mp fun hnone => by
    rw [move_of_event hnone] at hi
    cases hi
  let F := (faultThreads (opSheet s sh m) (opMove s sh m)).map (fun t => (t, Cause.moveIllegal.flt))
  have hactive : (opSheet s sh m).active ≠ 0 := opSheet_active s sh m ▸ (stageOpen_runs h.opens).2
  have hF : moveFaults (opBegun s sh m) s.focus (opSheet s sh m) (opBundle s sh m) [] [] (fun _ => .ok o) (opMove s sh m) = F := by
    unfold moveFaults
    rw [if_neg hr, opSheet_corrupt, h.clean, if_neg (by simp), opMove_move, opBegun_kernelOf, opBegun_core, hbad]
    rfl
  have hmem : ∀ q g, (q, g) ∈ F ↔ q ∈ faultThreads (opSheet s sh m) (opMove s sh m) ∧ g = Cause.moveIllegal.flt := by
    intro q g
    simp only [F, List.mem_map, Prod.mk.injEq]
    exact ⟨by rintro ⟨a, ha, rfl, rfl⟩; exact ⟨ha, rfl⟩, by rintro ⟨ha, rfl⟩; exact ⟨q, ha, rfl, rfl⟩⟩
  have hwho : ∀ th, (∃ f, (th, f) ∈ F) ↔
      (if Move.uniform m then sh.active.lowest = some th else (opMove s sh m).exec.has th = true) := by
    intro th
    have hthreads := mem_faultThreads (mv := opMove s sh m) hactive th
    rw [opMove_move, opSheet_active] at hthreads
    rw [← hthreads]
    exact ⟨fun ⟨g, hg⟩ => ((hmem th g).mp hg).1, fun hth => ⟨_, (hmem th _).mpr ⟨hth, rfl⟩⟩⟩
  have hne : F ≠ [] := by
    obtain ⟨th, hth⟩ : ∃ th, if Move.uniform m then sh.active.lowest = some th else (opMove s sh m).exec.has th = true := by
      split
      · exact (lowest_of_ne (stageOpen_runs h.opens).2).imp fun _ => And.left
      · obtain ⟨th, hth, -⟩ := lowest_of_ne hr
        exact ⟨th, (mem_threads.mp (List.mem_of_head? hth)).2⟩
    obtain ⟨f, hf⟩ := (hwho th).mpr hth
    exact List.ne_nil_of_mem hf
  have hlt : ∀ e ∈ F, e.1 < 128 := fun e he => faultThreads_lt hactive _ _ ((hmem e.1 e.2).mp he).1
  have hleft : opLeft s sh m u o F = opSettled s sh m := if_neg (by rw [hbad]; decide)
  refine ⟨_, by rw [exec_of_meaningOf ho, h.stops hi hF hne, hleft], sameMemory_of_mem ((takeCause_mem ..).trans (opSettled_mem h.quiet)),
    stopsSlot_of h.quiet (.refl _) hne hlt hwho (opTrap_const hne hlt fun e he => ((hmem e.1 e.2).mp he).2)⟩

/-- A bundle that breaks one of its checks stops its sheet before any move (R104). -/
theorem illegalBundle_stops {b : Bundle} (hsh : s.sheet? s.focus = some sh) (hopen : stageOpen s s.focus sh = true)
    (hwhole : sh.issuing = none) (hbad : bundleOk sh (s.core (coreOf s.focus)).split b = false) :
    ∃ t, exec (.bundleIssue b) s = .next t ∧ SameMemory s t ∧
      StopsAt s t sh (fun r => r.cause = .bundleIllegal ∧ r.info = 0 ∧ r.faddr = 0) := by
  have hissue : exec (.bundleIssue b) s = .next (s.takeCause s.focus
      (bundleTrap sh s.ts Cause.bundleIllegal.flt (readMoves s s.focus sh b (s.cycle (coreOf s.focus))))) := by
    show Host.Outcome.next (issueOrWait s s.focus b (.bundleIssue b) (sheetMeanings s s.focus)) = _
    unfold issueOrWait issueBundle
    rw [hsh]
    dsimp only
    rw [hopen, hwhole, hbad, if_neg (by decide), if_pos (by decide)]
    rfl
  exact ⟨_, hissue, sameMemory_of_mem (takeCause_mem ..), _, _, takeCause_sheet? hsh _,
    rfl, rfl, rfl, rfl, rfl, rfl, rfl, rfl, rfl, rfl, rfl, rfl, rfl, rfl, rfl⟩

end

end Sys2Proof.Machine
end

section
/-! # Page lookups and the stores that they find performed (R13, R305) -/

namespace Sys2Proof.Machine

/-! ## Stores performed at their homes -/

/-- Nothing but stores of a list may have been performed: memory outside them is as before where no partition tracks dirty pages. -/
structure Performed (L : List HomeStore) (s t : State) : Prop where
  woke : Woke s t
  tracked : Untracked s → Untracked t
  same : L = [] → t.mem = s.mem
  bytes : Untracked s → ∀ a, (∀ h ∈ L, ¬ (h.pa ≤ a ∧ a < h.pa + h.bytes.length)) → t.readByte a = s.readByte a

theorem Performed.of_same {L : List HomeStore} {s t : State} (hs : t.sheets = s.sheets) (hm : t.mem = s.mem)
    (hu : Untracked s → Untracked t) : Performed L s t :=
  ⟨.of_same hs, hu, fun _ => hm, fun _ a _ => by unfold State.readByte; rw [hm]⟩
theorem Performed.refl (L : List HomeStore) (s : State) : Performed L s s := .of_same rfl rfl id
theorem Performed.trans {L : List HomeStore} {s t u : State} (h : Performed L s t) (k : Performed L t u) : Performed L s u :=
  ⟨h.woke.trans k.woke, fun hu => k.tracked (h.tracked hu), fun hL => (k.same hL).trans (h.same hL),
    fun hu a ha => (k.bytes (h.tracked hu) a ha).trans (h.bytes hu a ha)⟩
theorem Performed.mono {L L' : List HomeStore} {s t : State} (h : Performed L s t) (hL : L ⊆ L') : Performed L' s t :=
  ⟨h.woke, h.tracked, fun he => h.same (List.subset_nil.mp (he ▸ hL)), fun hu a ha => h.bytes hu a fun x hx => ha x (hL hx)⟩

theorem homePerform_performed (s : State) (h : HomeStore) : Performed [h] s (homePerform s h) := by
  cases hf : h.flush with
  | true =>
    rw [homePerform_flush hf]
    exact .refl ..
  | false =>
    refine ⟨homePerform_woke s h, fun hu => ?_, fun he => absurd he (by simp), fun hu a ha => ?_⟩
    · rw [homePerform_store hf]
      unfold Untracked
      rw [homeWrite_parts]
      exact (storeRegistered_frame s h).2.2.2 hu
    · exact (homePerform_writes s hf).1.2 hu a (ha h (by simp))
theorem homePerform_homeq (s : State) (h : HomeStore) : (homePerform s h).homeq = s.homeq := by
  cases hf : h.flush with
  | true => rw [homePerform_flush hf]
  | false => exact (homePerform_writes s hf).2.1
theorem homePerforms_performed : ∀ (l : List HomeStore) (s : State), Performed l s (l.foldl homePerform s)
  | [], s => .refl [] s
  | h :: l, s => ((homePerform_performed s h).mono (by simp)).trans ((homePerforms_performed l _).mono (List.subset_cons_self h l))
theorem splitHomes_subset (p : HomeStore → Bool) : ∀ l : List HomeStore, (splitHomes p l).1 ⊆ l ∧ (splitHomes p l).2 ⊆ l
  | [] => ⟨List.Subset.refl _, List.Subset.refl _⟩
  | h :: l => by
    obtain ⟨hgo, hkeep⟩ := splitHomes_subset p l
    have hcons := List.subset_cons_self h l
    unfold splitHomes
    dsimp only
    split
    · exact ⟨List.cons_subset_cons h hgo, List.Subset.trans hkeep hcons⟩
    · exact ⟨List.Subset.trans hgo hcons, List.cons_subset_cons h hkeep⟩

/-! ## Requests that reach their homes -/

/-- What a request that reaches its home leaves: stores that were on their way may have been performed. -/
structure Reached (s t : State) : Prop where
  performed : Performed s.homeq s t
  homeq : t.homeq ⊆ s.homeq

theorem Reached.of_same {s t : State} (hs : t.sheets = s.sheets) (hm : t.mem = s.mem) (hu : Untracked s → Untracked t)
    (hq : t.homeq = s.homeq) : Reached s t := ⟨.of_same hs hm hu, by rw [hq]; exact List.Subset.refl _⟩
theorem Reached.refl (s : State) : Reached s s := .of_same rfl rfl id rfl
theorem Reached.trans {s t u : State} (h : Reached s t) (k : Reached t u) : Reached s u :=
  ⟨h.performed.trans (k.performed.mono h.homeq), List.Subset.trans k.homeq h.homeq⟩
theorem Reached.foldl {α : Type} {f : State → α → State} (h : ∀ s a, Reached s (f s a)) :
    ∀ (l : List α) (s : State), Reached s (l.foldl f s)
  | [], s => .refl s
  | a :: l, s => (h s a).trans (Reached.foldl h l (f s a))
theorem Reached.sameButHomes {s t : State} (h : Reached s t) : SameButHomes s t :=
  ⟨fun hq => sameMemory_of_mem (h.performed.same hq), h.performed.bytes⟩

theorem askerEvent_reached (x : Asker) (s : State) (ev n : Nat) : Reached s (x.event s ev n) := by
  have hu := fun h => untracked_event (s := s) h x ev n
  obtain ⟨p, a, h⟩ := asker_event_only x s ev n
  rw [h] at hu ⊢
  exact .of_same rfl rfl hu rfl
theorem drainHomes_reached (s : State) (p : HomeStore → Bool) : Reached s (drainHomes s p) := by
  obtain ⟨hgo, hkeep⟩ := splitHomes_subset p s.homeq
  unfold drainHomes
  extract_lets r
  have htaken : Performed s.homeq s { s with homeq := r.2 } := .of_same rfl rfl id
  refine ⟨htaken.trans ((homePerforms_performed r.1 _).mono hgo), ?_⟩
  rw [foldl_keeps (g := State.homeq) homePerform_homeq]
  exact hkeep
theorem reachHome_reached (s : State) (core pa : Nat) : Reached s (reachHome s core pa) := by
  unfold reachHome
  split
  · exact drainHomes_reached ..
  · exact .refl s
theorem engineRead_reached (s : State) (x : Asker) (pa n : Nat) : Reached s (engineRead s x pa n) :=
  (reachHome_reached s x.core pa).trans
    (.of_same (l2Use_sheets ..) (l2Use_mem ..) (fun hu => untracked_l2Use hu x false pa n) (l2Use_homeq ..))

/-! ## Lookups -/

theorem cacheCore_reached (s : State) (core key : Nat) (l : Leaf) : Reached s (cacheCore s core key l) :=
  .of_same (State.mapCore_sheets ..) (State.mapCore_mem ..) (fun h => by unfold Untracked; rw [cacheCore, State.mapCore_parts]; exact h)
    (State.mapCore_homeq ..)
theorem cacheCluster_reached (s : State) (core key : Nat) (l : Leaf) : Reached s (cacheCluster s core key l) := .of_same rfl rfl id rfl
theorem cacheDie_reached (s : State) (core key : Nat) (l : Leaf) : Reached s (cacheDie s core key l) := .of_same rfl rfl id rfl
theorem drew_reached (s : State) : Reached s s.drew := .of_same rfl rfl id rfl
theorem lookPage_reached (s : State) (vf core sid slot va : Nat) : Reached s (lookPage s vf core sid slot va) := by
  unfold lookPage
  extract_lets key x t r w
  split
  · exact .refl s
  · have ht : Reached s t := askerEvent_reached ..
    have hw : Reached s w := (ht.trans (askerEvent_reached ..)).trans (.foldl (fun _ _ => engineRead_reached ..) _ _)
    clear_value w t
    split
    · exact (ht.trans (cacheCore_reached ..)).trans (drew_reached _)
    · split
      · exact ((ht.trans (cacheCluster_reached ..)).trans (cacheCore_reached ..)).trans (drew_reached _)
      · cases r with
        | ok l =>
          exact (((hw.trans (cacheDie_reached ..)).trans (cacheCluster_reached ..)).trans (cacheCore_reached ..)).trans (drew_reached _)
        | error e => exact hw
theorem lookups_reached (f : MemForm) (x : TrigCtx) (ts : List Nat) (s : State) : Reached s (f.lookups x ts s) := by
  unfold MemForm.lookups
  split
  · exact .foldl (fun _ _ => lookPage_reached ..) _ s
  · exact .refl s

/-- What the faults of a memory operation leave: its pages are looked up, and the corrupted sectors that it met are reported. -/
theorem memOp_onFault_reached (f : MemForm) (x : TrigCtx) (l : List (Nat × Flt)) (s : State) : Reached s ((memOp f).onFault x l s) :=
  (lookups_reached f x x.threads s).trans (.of_same rfl rfl id rfl)

/-! ## The issue of a move that does not commit -/

theorem untracked_stateEvent {s : State} (h : Untracked s) (part core sid slot ev k : Nat) : Untracked (s.event part core sid slot ev k) := by
  unfold State.event
  extract_lets p
  split
  · exact h
  · exact untracked_mapPart (p := part) (f := fun p => { p with counters := _ }) h rfl
theorem foldl_untracked {α : Type} {f : State → α → State} (hf : ∀ s a, Untracked s → Untracked (f s a)) :
    ∀ (l : List α) {s : State}, Untracked s → Untracked (l.foldl f s)
  | [], _, h => h
  | a :: l, s, h => foldl_untracked hf l (hf s a h)
theorem account_untracked {s : State} (h : Untracked s) (sid : Nat) (pc : W64) (endc stall droop : Nat) (moves tg : List Nat) :
    Untracked (account s sid pc endc stall droop moves tg) := by
  unfold account
  extract_lets core col t
  have ht : Untracked t := h
  split
  · exact ht
  · extract_lets t1 t2 t3 t4
    have h3 : Untracked t3 := foldl_untracked (fun _ _ hs => untracked_stateEvent hs _ _ _ _ _ _) moves
      (untracked_stateEvent (s := t1) ht _ _ _ _ _ _)
    have h4 : Untracked t4 := by
      unfold t4
      split
      · exact untracked_stateEvent h3 _ _ _ _ _ _
      · exact h3
    split
    · exact h4
    · exact untracked_stateEvent h4 _ _ _ _ _ _

theorem opSettled_untracked {s : State} {sh : Sheet} {m : Move} (hq : sh.armed = false) (h : Untracked s) : Untracked (opSettled s sh m) := by
  obtain ⟨sheets, hrest⟩ := opBegun_rest s sh m
  have hbegun : Untracked (opBegun s sh m).drew := by
    unfold Untracked
    rw [hrest]
    exact h
  unfold opSettled settleIssue interlockTrace
  rw [if_neg (by rw [opSheet_armed, hq]; decide)]
  unfold Untracked
  rw [State.mapSheet_parts]
  exact account_untracked hbegun _ _ _ _ _ _ _
/-- A move that does not commit, and then requests that reach their homes. -/
theorem sameButHomes_settled {s z : State} {sh : Sheet} {m : Move} (hq : sh.armed = false) (h : Reached (opSettled s sh m) z) :
    SameButHomes s z := by
  have hmem := opSettled_mem (s := s) (m := m) hq
  have hhomeq : (opSettled s sh m).homeq = s.homeq := by
    obtain ⟨i, d, n, x, l, p, a, he⟩ := opSettled_eq (s := s) (m := m) hq
    obtain ⟨sheets, hrest⟩ := opBegun_rest s sh m
    rw [he, hrest]
    rfl
  obtain ⟨hsame, hbytes⟩ := h.sameButHomes
  rw [hhomeq] at hsame hbytes
  have hread : ∀ a, (opSettled s sh m).readByte a = s.readByte a := sameMemory_of_mem hmem
  exact ⟨fun he a => (hsame he a).trans (hread a), fun hu a ha => (hbytes (opSettled_untracked hq hu) a ha).trans (hread a)⟩

end Sys2Proof.Machine
end

section
/-! # Accesses that fail their checks (O32; R175, R213, R282) -/

namespace Sys2Proof.Machine

/-! ## The checks of one access -/

/-- Whether an access is refused at a host completer (R213, R214). -/
def MemForm.refused (f : MemForm) (s : State) (r : Reach) : Bool :=
  f.acc == .atomic && f.space == .g && atHost r.mt f.sys ((r.pieces.getD 0 (0, 0)).1) && (match f.hostOp with
    | none => true
    | some b => !(getD s.hpcap 0 (portOfPa ((r.pieces.getD 0 (0, 0)).1))).getLsbD b)

/-- A memory operation without a first check of its own accesses as `AccessStops` says. -/
structure MemForm.Fits (f : MemForm) (space : Space) (acc : AccKindT) (align : Nat) (span : LaneIn → Nat × Nat)
    (lacks : State → Reach → Bool) : Prop where
  space : f.space = space
  acc : f.acc = acc
  align : f.align = align
  first : ∀ x t, f.first x t = none
  span : ∀ s sh m u t, f.span (checkCtx s sh m u) t = span (opIn s sh m u t)
  refuses : ∀ s r, f.refused s r = lacks s r
  steady : ∀ s sh m r, lacks (opBegun s sh m) r = lacks s r

theorem MemForm.go_eq {f : MemForm} {x : TrigCtx} {t : Nat} (h : f.first x t = none) : f.go x t =
    if (f.span x t).1 % f.align ≠ 0 then .error ⟨.alignment, 0, w64 (f.span x t).1⟩
    else match reach x.s x.sid x.sh f.space f.acc (f.span x t).1 (f.span x t).2 with
      | .error e => .error e
      | .ok r =>
        if f.refused x.s r then .error Cause.atomicUnsupported.flt
        else if f.space = .g ∧ f.acc ≠ .store ∧ poisonOf x.s r.pieces ≠ [] then .error ⟨.uncorrectable, 0, w64 (f.span x t).1⟩
        else .ok r := by
  unfold MemForm.go
  dsimp only
  rw [h]
  rfl

theorem poisonOf_nil {s : State} {ps : List (Nat × Nat)} : poisonOf s ps = [] ↔
    ∀ q ∈ s.poisoned, ∀ p ∈ ps, runsMeet p.1 p.2 (q * 32) 32 = false := by
  unfold poisonOf
  simp [List.filter_eq_nil_iff]

section
variable {s : State} {sh : Sheet} {m : Move} {u : FUnit} {f : MemForm} {space : Space} {acc : AccKindT} {align : Nat}
  {span : LaneIn → Nat × Nat} {lacks : State → Reach → Bool} {th : Nat}

/-- The checks of a thread's access, in its words. -/
theorem MemForm.Fits.go (h : f.Fits space acc align span lacks) : f.go (checkCtx s sh m u) th =
    if (span (opIn s sh m u th)).1 % align ≠ 0 then .error ⟨.alignment, 0, w64 (span (opIn s sh m u th)).1⟩
    else match reach (opBegun s sh m) s.focus (opSheet s sh m) space acc (span (opIn s sh m u th)).1 (span (opIn s sh m u th)).2 with
      | .error e => .error e
      | .ok r =>
        if lacks (opBegun s sh m) r then .error Cause.atomicUnsupported.flt
        else if space = .g ∧ acc ≠ .store ∧ poisonOf (opBegun s sh m) r.pieces ≠ [] then
          .error ⟨.uncorrectable, 0, w64 (span (opIn s sh m u th)).1⟩
        else .ok r := by
  rw [MemForm.go_eq (h.first ..), h.span, h.space, h.acc, h.align]
  simp only [h.refuses]
  rfl

/-- A thread's access passes its checks where it goes through. -/
theorem MemForm.Fits.go_ok (h : f.Fits space acc align span lacks) (r : Reach) : f.go (checkCtx s sh m u) th = .ok r ↔
    Reaches s sh m space acc align (span (opIn s sh m u th)) r ∧ lacks s r = false := by
  have hpoison : (opBegun s sh m).poisoned = s.poisoned := by
    obtain ⟨l, hl⟩ := opBegun_rest s sh m
    rw [hl]
  rw [h.go, Reaches]
  by_cases halign : (span (opIn s sh m u th)).1 % align = 0
  · rw [if_neg (not_not.mpr halign)]
    cases hreach : reach (opBegun s sh m) s.focus (opSheet s sh m) space acc (span (opIn s sh m u th)).1 (span (opIn s sh m u th)).2 with
    | error e => simp
    | ok r' =>
      simp only [h.steady, Except.ok.injEq]
      by_cases hlacks : lacks s r' = true
      · rw [if_pos hlacks]
        refine ⟨fun he => (by cases he), ?_⟩
        rintro ⟨⟨-, rfl, -⟩, hno⟩
        rw [hlacks] at hno
        cases hno
      · rw [if_neg hlacks]
        by_cases hp : space = .g ∧ acc ≠ .store ∧ poisonOf (opBegun s sh m) r'.pieces ≠ []
        · rw [if_pos hp]
          refine ⟨fun he => (by cases he), ?_⟩
          rintro ⟨⟨-, rfl, hclean⟩, -⟩
          exact absurd (poisonOf_nil.mpr (hpoison.symm ▸ hclean ⟨hp.1, hp.2.1⟩)) hp.2.2
        · rw [if_neg hp]
          constructor
          · rintro ⟨rfl⟩
            refine ⟨⟨halign, rfl, fun hg => ?_⟩, by simpa using hlacks⟩
            rw [← hpoison]
            by_contra hdirty
            exact hp ⟨hg.1, hg.2, fun hnil => hdirty (poisonOf_nil.mp hnil)⟩
          · rintro ⟨⟨-, rfl, -⟩, -⟩
            rfl
  · rw [if_pos halign]
    simp [halign]

/-- An operation whose lowest failing thread fails with `e` stops with it. -/
theorem MemForm.Fits.stops {i : Instr} {e : Flt} (h : f.Fits space acc align span lacks) (hi : i.move = some m)
    (ho : meaningOf i = some (memOp f)) (hc : CanIssue s sh m u) (hth : th ∈ opThreads s sh m u)
    (hlow : ∀ q ∈ opThreads s sh m u, q < th → ∃ r, Reaches s sh m space acc align (span (opIn s sh m u q)) r ∧ lacks s r = false)
    (he : f.go (checkCtx s sh m u) th = .error e) : ∃ t, exec i s = .next t ∧ SameButHomes s t ∧
      StopsSlot s t sh (fun q => q ∈ opThreads s sh m u ∧
        ¬ ∃ r, Reaches s sh m space acc align (span (opIn s sh m u q)) r ∧ lacks s r = false)
        (fun r => r.cause = e.cause ∧ r.info = e.info ∧ r.faddr = e.addr) := by
  generalize hFe : (memOp f).check (checkCtx s sh m u) = F
  have hmem : ∀ q x, (q, x) ∈ F ↔ q ∈ opThreads s sh m u ∧ f.go (checkCtx s sh m u) q = .error x := by
    intro q x
    rw [← hFe, memOp]
    dsimp only
    rw [checkCtx_threads, List.mem_filterMap]
    constructor
    · rintro ⟨a, ha, hx⟩
      cases hgo : f.go (checkCtx s sh m u) a with
      | ok r => rw [hgo] at hx; cases hx
      | error y => rw [hgo] at hx; cases hx; exact ⟨ha, hgo⟩
    · rintro ⟨ha, hgo⟩
      exact ⟨q, ha, by rw [hgo]⟩
  have hpass : ∀ q, (∃ r, Reaches s sh m space acc align (span (opIn s sh m u q)) r ∧ lacks s r = false) ↔
      ∃ r, f.go (checkCtx s sh m u) q = .ok r := fun q => exists_congr fun r => (h.go_ok r).symm
  have hwho : ∀ q, (∃ x, (q, x) ∈ F) ↔ q ∈ opThreads s sh m u ∧
      ¬ ∃ r, Reaches s sh m space acc align (span (opIn s sh m u q)) r ∧ lacks s r = false := by
    intro q
    simp only [hmem, hpass, exists_and_left]
    refine and_congr_right fun _ => ?_
    cases f.go (checkCtx s sh m u) q <;> simp
  have hthF : (th, e) ∈ F := (hmem th e).mpr ⟨hth, he⟩
  have hne : F ≠ [] := List.ne_nil_of_mem hthF
  have hlt : ∀ x ∈ F, x.1 < 128 := fun x hx => opThreads_lt ((hmem x.1 x.2).mp hx).1
  have hfirst : lowestFlt F = e := by
    refine lowestFlt_eq (hlt _ hthF) hthF (fun x hx => ?_) fun x hx heq => ?_
    · by_contra hlate
      obtain ⟨hmemx, hfail⟩ := (hwho x.1).mp ⟨x.2, hx⟩
      exact hfail (hlow x.1 hmemx (Nat.lt_of_not_le hlate))
    · have hgo := ((hmem x.1 x.2).mp hx).2
      rw [heq, he] at hgo
      exact (Except.error.inj hgo).symm
  obtain ⟨-, -, -, -, -, -, hcause, hinfo, hfaddr⟩ := opTrap_eq (s := s) (sh := sh) (m := m) hne
  rw [hfirst] at hcause hinfo hfaddr
  have hreach := memOp_onFault_reached f { opCtx s sh m u with engines := 0 } F (opSettled s sh m)
  obtain ⟨hnone, hbytes⟩ := sameButHomes_settled hc.quiet hreach
  have htake : ∀ z, SameMemory z (z.takeCause s.focus (opTrap s sh m F)) := fun z => sameMemory_of_mem (takeCause_mem ..)
  exact ⟨_, hc.stops hi ho (opRuns_of_mem hth) hFe hne,
    ⟨fun hq a => (htake _ a).trans (hnone hq a), fun hu a ha => (htake _ a).trans (hbytes hu a ha)⟩,
    stopsSlot_of hc.quiet hreach.performed.woke hne hlt hwho ⟨hcause, hinfo, hfaddr⟩⟩

/-! ## The cause of one access -/

theorem opSheet_wg (s : State) (sh : Sheet) (m : Move) : (opSheet s sh m).wg = sh.wg := (opSheet_fields s sh m).1
theorem opBegun_reachPeer (s : State) (sh : Sheet) (m : Move) (a n : Nat) :
    reachPeer (opBegun s sh m) (opSheet s sh m) a n = reachPeer s sh a n := by
  obtain ⟨l, hl⟩ := opBegun_rest s sh m
  unfold reachPeer State.gridOf
  rw [opSheet_wg, hl]
  rfl
theorem opBegun_vfOf (s : State) (sh : Sheet) (m : Move) : (opBegun s sh m).vfOf (opSheet s sh m) = s.vfOf sh := by
  obtain ⟨l, hl⟩ := opBegun_rest s sh m
  unfold State.vfOf State.gridOf
  rw [opSheet_wg, hl]
  rfl
/-- A run within one page is translated once. -/
theorem translateRun_error {s : State} {core vf a n : Nat} {acc : AccKindT} {f : Flt} (hn : 0 < n) (hpage : a % 4096 + n ≤ 4096)
    (h : translate s core vf (w64 a) acc = .error f) : translateRun s core vf acc (pageCuts 2 a n) = .error f := by
  unfold pageCuts
  dsimp only
  rw [if_neg (by omega), if_pos (by omega)]
  unfold translateRun
  rw [h]

/-- The operations of a form that fits stop as R175 says. -/
theorem MemForm.Fits.accessStops {i : Instr} (h : f.Fits space acc align span lacks) (ho : meaningOf i = some (memOp f)) :
    AccessStops i u space acc align span lacks := by
  intro s sh m hi hc passes th hth hlow a n stops
  have hstop : ∀ e, f.go (checkCtx s sh m u) th = .error e → stops e.cause e.info e.addr := fun e he => h.stops hi ho hc hth hlow he
  have hgo : ∀ e, a % align = 0 → reach (opBegun s sh m) s.focus (opSheet s sh m) space acc a n = .error e →
      f.go (checkCtx s sh m u) th = .error e := by
    intro e halign hreach
    rw [h.go, if_neg (not_not.mpr halign), hreach]
  refine ⟨fun halign => hstop _ (h.go.trans (if_pos halign)), fun halign hg hbig => hstop ⟨.translation, trInfo acc 5 1, w64 a⟩ (hgo _ halign ?_),
    fun halign hg hsmall hn hpage e htr => hstop e (hgo e halign ?_), fun halign w hw hout => hstop ⟨.spaceBounds, 0, w64 a⟩ (hgo _ halign ?_),
    fun halign hpa hpeer => hstop ⟨.spaceBounds, 0, w64 a⟩ (hgo _ halign ?_)⟩
  · rw [hg, reach, if_pos hbig]
  · rw [hg, reach, if_neg (Nat.not_le.mpr hsmall), opBegun_vfOf, translateRun_error hn hpage htr]
  · have hwg : (opBegun s sh m).wg? (opSheet s sh m).wg = some w := by
      rw [opSheet_wg]
      exact (opBegun_wg? s sh m sh.wg).trans hw
    unfold reach
    rcases hout with ⟨hsp, hout⟩ | ⟨hsp, hout⟩ <;> subst hsp <;> dsimp only <;> rw [hwg]
    · exact if_pos hout
    · exact if_pos hout
  · rw [hpa, reach, opBegun_reachPeer, hpeer]

end

/-! ## The operations -/

/-- A load or a store of `n` bytes, with the orderings that it may carry. -/
theorem loadForm_fits {f : MemForm} {nox : Bool} {space : Space} {acc : AccKindT} {n : Nat} (hspace : f.space = space) (hacc : f.acc = acc)
    (hatomic : acc ≠ .atomic) (halign : f.align = n) (hfirst : ∀ x t, f.first x t = none) (hspan : f.span = fun x t => (addrOf nox x t, n)) :
    f.Fits space acc n (fun a => (addrIn nox a, n)) (fun _ _ => false) where
  space := hspace
  acc := hacc
  align := halign
  first := hfirst
  span s sh m u t := by
    rw [hspan]
    cases nox
    · rfl
    · exact congrArg (fun v : W64 => (v.toNat, n)) (BitVec.zero_add _)
  refuses s r := by
    unfold MemForm.refused
    rw [hacc, beq_eq_false_iff_ne.mpr hatomic]
    rfl
  steady _ _ _ _ := rfl

theorem lacksOp_steady (space : ASpace) (scope : AScope) (bit : Option Nat) (s : State) (sh : Sheet) (m : Move) (r : Reach) :
    lacksOp space scope bit (opBegun s sh m) r = lacksOp space scope bit s r := by
  obtain ⟨l, hl⟩ := opBegun_rest s sh m
  rw [hl]
  rfl
/-- The host completers that refuse an atomic. -/
theorem refused_eq {f : MemForm} {space : ASpace} {scope : AScope} (hacc : f.acc = .atomic) (hspace : f.space = ASpace.space space)
    (hsys : f.sys = (scope == .sys)) (s : State) (r : Reach) : f.refused s r = lacksOp space scope f.hostOp s r := by
  have hg : (ASpace.space space == Space.g) = (space == ASpace.g) := by cases space <;> rfl
  unfold MemForm.refused lacksOp atHost
  rw [hacc, hspace, hsys, hg]
  cases f.hostOp with
  | none => simp only [beq_self_eq_true, Bool.true_and, Bool.and_true, Bool.and_assoc]
  | some b => simp only [beq_self_eq_true, Bool.true_and, Bool.and_assoc]

theorem atomForm_fits (op : RmwOp) (m : AtomMod) (host : Bool) : (atomForm op m host).Fits (ASpace.space m.space) .atomic
    (if m.dbl then 8 else 4) (fun a => ((a.x0 + a.t).toNat, if m.dbl then 8 else 4))
    (lacksOp m.space m.scope (if host then some (if m.dbl then 1 else 0) else none)) where
  space := rfl
  acc := rfl
  align := rfl
  first _ _ := rfl
  span _ _ _ _ _ := rfl
  refuses := refused_eq rfl rfl rfl
  steady := lacksOp_steady _ _ _

theorem loadStops_of {i : Instr} {u : LsuUnit} {nox : Bool} {space : Space} {n : Nat} {form : LoadForm}
    (ho : meaningOf i = some (memOp (loadForm nox space n form))) : LoadStops i u nox space n :=
  (loadForm_fits (acc := .load) rfl rfl (by decide) rfl (fun _ _ => rfl) rfl).accessStops ho
theorem storeStops_of {i : Instr} {u : LsuUnit} {nox : Bool} {space : Space} {n : Nat} {data : TrigCtx → Nat → List Byte}
    (ho : meaningOf i = some (memOp (storeForm nox space n data))) : StoreStops i u nox space n :=
  (loadForm_fits (acc := .store) rfl rfl (by decide) rfl (fun _ _ => rfl) rfl).accessStops ho
theorem atomicStops_of {i : Instr} {u : LsuUnit} {op : RmwOp} {m : AtomMod} {host : Bool}
    (ho : meaningOf i = some (memOp (atomForm op m host))) : AtomicStops i u m host := (atomForm_fits op m host).accessStops ho

theorem ldaStops (u : LsuUnit) (h : Head) (a : LdaMod) : LoadStops (.lda u h a) u false a.space (if a.dbl then 8 else 4) :=
  (loadForm_fits (f := { loadForm false a.space (dblBytes a.dbl) .zext with acq := some a.scope }) (acc := .load) rfl rfl (by decide) rfl
    (fun _ _ => rfl) rfl).accessStops rfl
theorem stlStops (u : LsuUnit) (h : Head) (a : LdaMod) : StoreStops (.stl u h a) u false a.space (if a.dbl then 8 else 4) :=
  (loadForm_fits (f := { storeForm false a.space (dblBytes a.dbl) (fun x t => leBytes (dblBytes a.dbl) (x.x 1 t).toNat) with
    rel := some a.scope }) (acc := .store) rfl rfl (by decide) rfl (fun _ _ => rfl) rfl).accessStops rfl

/-- The form of ACAS2 (R372). -/
def acas2Form (m : Acas2Mod) : MemForm :=
  { loadForm false (ASpace.space m.space) 16 .pair with
    kind := .cas2, acc := .atomic, sys := m.scope == .sys, hostOp := some 2,
    span := fun x t => ((x.x 0 t).toNat, 16),
    data := fun x t => leBytes 8 (x.x 3 t).toNat ++ leBytes 8 (x.val t).toNat,
    cmp := fun x t => leBytes 8 (x.x 1 t).toNat ++ leBytes 8 (x.x 2 t).toNat }
theorem acas2Form_fits (m : Acas2Mod) : (acas2Form m).Fits (ASpace.space m.space) .atomic 16 (fun i => (i.x0.toNat, 16))
    (lacksOp m.space m.scope (some 2)) where
  space := rfl
  acc := rfl
  align := rfl
  first _ _ := rfl
  span _ _ _ _ _ := rfl
  refuses := refused_eq rfl rfl rfl
  steady := lacksOp_steady _ _ _

theorem sizeBytes_eq (z : LdSize) : sizeBytes z = LdSize.bytes z := by cases z <;> rfl

/-! ## All causes -/

/-- Settles O32: each cause by the lemma about what raises it. -/
theorem causesTaken : Obligations.CausesTaken := by
  unfold Obligations.CausesTaken
  refine ⟨?_, fun h s sh m hc hr => ⟨trapStops hc hr, brkStops hc hr⟩, fun u h m p a x c => ?_, fun u h m ty r k => ?_, fun h ty c => ?_,
    fun i b s sh m hsh hopen hwhole hclean hquiet => ⟨fun hi hslot hform hfree hbad hr => ?_, illegalBundle_stops hsh hopen hwhole⟩,
    fun h d => ?_⟩
  · rintro h x i (rfl | rfl | rfl | rfl) s sh m hi hc hz
    · exact hc.divideStops hi rfl (fun _ => divideNat_zero ..) hz
    · exact hc.divideStops hi rfl (fun _ => divideNat_zero ..) hz
    · exact hc.divideStops hi rfl (fun _ => divideNat_zero ..) hz
    · exact hc.divideStops hi rfl (fun _ => divideNat_zero ..) hz
  · rw [sizeBytes_eq]
    exact ⟨loadStops_of rfl, loadStops_of rfl, loadStops_of rfl, loadStops_of rfl, ldaStops u h a, storeStops_of rfl, storeStops_of rfl,
      storeStops_of rfl, stlStops u h a, atomicStops_of rfl, atomicStops_of rfl, atomicStops_of rfl, atomicStops_of rfl, atomicStops_of rfl,
      atomicStops_of rfl, atomicStops_of rfl, atomicStops_of rfl, atomicStops_of rfl, atomicStops_of rfl, atomicStops_of rfl,
      (acas2Form_fits c).accessStops rfl⟩
  · exact ⟨fpStops_self (fun _ => fpClass m.ty) rfl, fpStops_self (fun _ => fpClass m.ty) rfl, fpStops_self (fun _ => fpClass m.ty) rfl,
      fpStops_self (fun _ => fpClass m.ty) rfl, fpStops_self (fun _ => fpClass ty) rfl, fpStops_self (fun _ => fpClass ty) rfl,
      fpStops_fcmp u h r, fpStops_of rfl fun l => by rw [BitVec.toNat_setWidth], fpStops_self (fun _ => fpClass k.ty) rfl,
      fpStops_self (fun _ => fpClass m.ty) rfl, fpStops_self (fun _ => 5) rfl, fpStops_self (fun _ => 5) rfl,
      fpStops_self (fun _ => 5) rfl, fpStops_self (fun _ => 5) rfl⟩
  · exact ⟨fpStops_self (fun _ => 6) rfl, fpStops_self (fun _ => 6) rfl, fpStops_self (fun _ => 6) rfl, fpStops_self (fun _ => 6) rfl,
      fpStops_of rfl fun l => by rw [BitVec.toNat_setWidth], fpStops_self (fun _ => 6) rfl, fpStops_self (fun _ => 6) rfl⟩
  · obtain ⟨u, hu⟩ := move_unit hi
    exact (⟨hsh, hopen, hwhole, hslot, hform, hclean, hquiet, hu, hfree⟩ : CanTry s sh m u).illegalStops hi hr hbad
  · exact ⟨guardStops_plain rfl (fun _ => cmul_refused) fun _ _ _ => id, guardStops_plain rfl (fun _ => cmac_refused) fun _ _ _ => id,
      guardStops_plain rfl (fun _ => csqr_refused) fun _ _ _ => id, guardStops_plain rfl (fun _ => addSub_refused) fun _ _ _ => id,
      guardStops_plain rfl (fun _ => addSub_refused) fun _ _ _ => id, guardStops_cshl h d⟩

end Sys2Proof.Machine
end

section
/-! O25: DCOPY while an ordering operation of its sheet completes. The release of a copy enters the sheet's order, where whatever nothing holds
completes at once (log 11). An operation that delivers a value names its result by number, and the statement asks nothing of the numbers that
stand in the queue: an entry may name the number that the copy's own result takes. -/

namespace Sys2Proof.Machine

/-- DCOPY on the channel of its half, released at the workgroup; its trigger value is `limm`, 0. -/
def plainCopy : Instr := .dcopy ⟨.always, 0x0FE, false⟩ ⟨.wg, false⟩
/-- The move that triggers it. -/
def plainCopyMove : Move := plainCopy.move.getD Move.empty
/-- The runner's sheet, which has numbered no result, with an ordering operation that delivers 5 to result 0. -/
def deliveringSheet : Sheet := { runnerSheet with queue := [orderEntry 0 none none false false false (.deliver 0 5)] }
/-- The runner with that sheet. -/
def delivering : State := (State.reset.placeRunner []).mapSheet 0 (fun _ => deliveringSheet)

/-- The stage is free and the move legal, whatever stands in the queue. -/
theorem delivering_canIssue : CanIssue delivering deliveringSheet plainCopyMove .cpy where
  here := by decide +kernel
  opens := by decide +kernel
  whole := rfl
  slot := by decide +kernel
  form := by decide +kernel
  left := by decide +kernel
  clean := rfl
  quiet := rfl
  unit := by decide +kernel
  legal := by decide +kernel
  free := by decide +kernel

/-- A copy of no elements passes its checks (R399). -/
theorem delivering_mayCopy : copyCheck .copy ⟨.wg, false⟩ (opCtx delivering deliveringSheet plainCopyMove .cpy) = [] ∧
    (opCtx delivering deliveringSheet plainCopyMove .cpy).wgp.isSome := by decide +kernel

/-- The copy's result takes number 0, the older operation delivers 5 to it, and nothing is on its way any longer. -/
theorem exec_plainCopy_landed : ∃ t, exec plainCopy delivering = .next t ∧
    (t.sheet? delivering.focus).map (·.flights) = some [] := ⟨_, rfl, by decide +kernel⟩

/-- Refutes O25: an ordering operation in the queue that delivers to the sheet's next result number completes as the release of DCOPY
enters the order, and fills the result of DCOPY itself, which the statement has pending in `cpy.q`. The statement's `ok` does not ask that the
numbers in the queue are below `nextId`. -/
theorem not_copyCommands : ¬ Obligations.CopyCommands := by
  unfold Obligations.CopyCommands
  intro h
  obtain ⟨hcopy, -⟩ := h ⟨.always, 0x0FE, false⟩ ⟨.wg, false⟩ false
  obtain ⟨t, y, -, -, -, ht, hy, -, -, -, -, -, -, -, -, -, -, -, -, -, -, ⟨f, hf, -⟩, -⟩ :=
    hcopy delivering deliveringSheet plainCopyMove rfl delivering_canIssue (by decide +kernel) (by unfold opRuns; decide +kernel)
      delivering_mayCopy (by decide +kernel)
  obtain ⟨t', ht', hlanded⟩ := exec_plainCopy_landed
  obtain rfl : t = t' := Host.Outcome.next.inj (ht.symm.trans ht')
  rw [hy, Option.map_some] at hlanded
  rw [Option.some.inj hlanded] at hf
  exact absurd hf List.not_mem_nil

end Sys2Proof.Machine
end

section
/-! O29: CSRRD of a bank format register in the cycle of a write to it. The registers of a workgroup that two contexts use in one cycle are
read as each of them sees them (R86, R180): a context other than the writer's finds the value of before that cycle. -/

namespace Sys2Proof.Machine

/-- CSRRD of the register that `limm` names. -/
def readNamed : Instr := .csrrd ⟨.always, 0x0FE, false⟩
/-- The move that triggers it. -/
def readNamedMove : Move := readNamed.move.getD Move.empty
/-- The runner's sheet, with the number of W bank 0's format register in `limm`. -/
def bankReader : Sheet := { runnerSheet with limm := 0x110 }
/-- The runner with that sheet at context 0 of core 0, and one W bank, whose format register held 7 until context 1 wrote 5 to it in this
cycle, cycle 0. -/
def bankJustWritten : State :=
  { (State.reset.placeRunner []).mapSheet 0 (fun _ => bankReader) with
    wgs := [(0, { runnerWg with wSize := 16384, banks := [(bankKey false 0, ⟨5, 7, 0, 1, []⟩)] })] }

theorem bankJustWritten_canIssue : CanIssue bankJustWritten bankReader readNamedMove .sys where
  here := by decide +kernel
  opens := by decide +kernel
  whole := rfl
  slot := by decide +kernel
  form := by decide +kernel
  left := by decide +kernel
  clean := rfl
  quiet := rfl
  unit := by decide +kernel
  legal := by decide +kernel
  free := by decide +kernel

/-- A read in the cycle of another context's write finds the value of before it (R86, R180). -/
theorem exec_readNamed_old : ∃ t, exec readNamed bankJustWritten = .next t ∧
    (t.sheet? bankJustWritten.focus).map (·.getQ .sys 0 0) = some 7 := ⟨_, rfl, by decide +kernel⟩

/-- Refutes O29: a bank format register is read as the context sees it, the old value in the cycle in which another context writes it
(R86, R180), and the statement gives the value written. -/
theorem not_registerReads : ¬ Obligations.RegisterReads := by
  unfold Obligations.RegisterReads
  intro h
  obtain ⟨-, -, -, -, -, -, -, -, -, -, -, -, hbank, -⟩ := h ⟨.always, 0x0FE, false⟩ 0
  obtain ⟨t, y, ht, hy, hlands, -⟩ := hbank (by decide) bankJustWritten bankReader readNamedMove rfl bankJustWritten_canIssue
    (by decide) (by unfold opRuns; decide +kernel) (by decide +kernel) (by decide +kernel)
  obtain ⟨t', ht', hold⟩ := exec_readNamed_old
  obtain rfl : t = t' := Host.Outcome.next.inj (ht.symm.trans ht')
  rw [hy, Option.map_some, hlands (by decide)] at hold
  exact absurd (Option.some.inj hold) (by decide +kernel)

end Sys2Proof.Machine
end

section
/-! O24: CPACK, CPACKV, CEXT, CEXTV and CGW enter the dependency table. What an engine trigger alone leaves once its effect has entered a command
is said once, and then for the CFE's triggers, of which each operation is one. -/

namespace Sys2Proof.Machine

/-! ## Operations that read vector registers at their trigger (R229, R244, R390) -/

/-- An operation with other vector registers to read at its trigger. -/
def OpMeaning.reading (o : OpMeaning) (v : TrigCtx → List Nat) : OpMeaning := { o with vregs := v }
/-- The meaning that a bundle of one operation gives to its moves. -/
abbrev OpMeaning.only (o : OpMeaning) : Meanings := fun _ => .ok o

section
variable (o : OpMeaning) (v : TrigCtx → List Nat)

theorem moveFaults_reading {s : State} {sid : Nat} {sh : Sheet} {b : BInfo} {waive : List Nat} {skips : List (Nat × Mask)} :
    moveFaults s sid sh b waive skips (o.reading v).only = moveFaults s sid sh b waive skips o.only := by
  funext m
  unfold moveFaults
  rcases m.trig with _ | u <;> rfl
theorem isControl_reading : isControl (o.reading v).only = isControl o.only := by
  funext m
  unfold isControl
  rcases m.trig with _ | u <;> rfl
theorem waitsStep_reading : waitsStep (o.reading v).only = waitsStep o.only := by
  funext m
  unfold waitsStep
  rcases m.trig with _ | u <;> rfl
theorem commits_reading : commits (o.reading v).only = commits o.only := by
  funext ms fl
  unfold commits commitRound
  rw [isControl_reading]
theorem leaveFaults_reading {sid : Nat} {b : BInfo} {waive : List Nat} {skips : List (Nat × Mask)} :
    leaveFaults sid b waive skips (o.reading v).only = leaveFaults sid b waive skips o.only := by
  funext tent sh fl ms s
  unfold leaveFaults
  congr 1
  funext s m
  rcases m.trig with _ | u <;> rfl

section
variable {sid : Nat} {b : BInfo} {waive : List Nat} {skips : List (Nat × Mask)} {p c : Nat} {sw : State}

theorem runPass_reading : ∀ ms s, runPass sid b waive skips (o.reading v).only p c sw ms s = runPass sid b waive skips o.only p c sw ms s
  | [], _ => rfl
  | m :: ms, s => by
    unfold runPass
    rcases m.trig with _ | u <;> exact runPass_reading ms _
theorem runFinish_reading : ∀ ms s, runFinish sid b waive skips (o.reading v).only sw ms s = runFinish sid b waive skips o.only sw ms s
  | [], _ => rfl
  | m :: ms, s => by
    unfold runFinish
    rcases m.trig with _ | u <;> exact runFinish_reading ms _
theorem runControl_reading : ∀ ms s, runControl sid b waive skips (o.reading v).only c sw ms s = runControl sid b waive skips o.only c sw ms s
  | [], _ => rfl
  | m :: ms, s => by
    unfold runControl
    rcases m.trig with _ | u <;> exact runControl_reading ms _

theorem goOn_reading {i : Instr} : goOn sid b i waive skips (o.reading v).only = goOn sid b i waive skips o.only := by
  funext c sw ms go s
  unfold goOn
  simp only [runControl_reading]
theorem runTriggers_reading : runTriggers sid b waive [] (o.reading v).only = runTriggers sid b waive [] o.only := by
  funext starts sw ms go done
  unfold runTriggers
  simp only [runPass_reading, skipZeros_nil, runFinish_reading]
theorem finishHeld_reading : finishHeld sid (o.reading v).only = finishHeld sid o.only := by
  funext s
  unfold finishHeld
  simp only [commits_reading, waitsStep_reading, goOn_reading, leaveFaults_reading]

end

end

theorem opBegun_vregBusy (s : State) (sh : Sheet) (m : Move) : vregBusy (opBegun s sh m) = vregBusy s := by
  funext sid r
  unfold vregBusy
  rw [opBegun_core]

/-- An operation none of whose vector registers a CEXTV still writes issues as if it read none (R244). -/
theorem CanIssue.issue_reading {s : State} {sh : Sheet} {m : Move} {u : FUnit} {o : OpMeaning} (h : CanIssue s sh m u)
    (hv : (o.vregs (opCtx s sh m u)).any (vregBusy s s.focus) = false) :
    issueBundle s s.focus (oneMove m) (.bundleIssue (oneMove m)) o.only =
      issueBundle s s.focus (oneMove m) (.bundleIssue (oneMove m)) (o.reading (fun _ => [])).only := by
  have hw : ∀ x c, writeMove x s.focus c (opMove s sh m) = x := fun x c => by
    unfold writeMove
    rw [h.dst]
    simp
  rw [h.issue, h.issue]
  unfold commitBundle
  simp only [moveFaults_reading, commits_reading, waitsStep_reading, goOn_reading, leaveFaults_reading, runTriggers_reading,
    finishHeld_reading, skipWhole_nil, List.map_cons, List.map_nil, List.filter_cons, List.filter_nil]
  refine if_congr ?_ rfl rfl
  generalize List.contains _ (opMove s sh m).slot = goes
  cases goes
  · rfl
  · simp only [if_true, List.foldl_cons, List.foldl_nil, hw, List.any_cons, List.any_nil, Bool.or_false, h.trig, opBegun_sheet?,
      Option.getD_some, opBegun_vregBusy]
    show ((_ != 0 && (!_ || (o.vregs (opCtx s sh m u)).any (vregBusy s s.focus))) = true) ↔ _
    rw [hv]
    rfl


/-! ## Shape registers (R133, R226) -/

theorem shapeKey_inj {eng h f g : Nat} (hk : shapeKey eng h f = shapeKey eng h g) : f = g := by
  unfold shapeKey at hk
  omega

/-- The exchange of some fields of a shape register between its copies. -/
theorem swapFields (eng h : Nat) : ∀ (l : List Nat), l.Nodup → ∀ sh : Sheet, ∃ a b,
    l.foldl (fun (sh : Sheet) f =>
      { sh with shActive := setD sh.shActive 0 (shapeKey eng h f) (getD sh.shShadow 0 (shapeKey eng h f))
                shShadow := setD sh.shShadow 0 (shapeKey eng h f) (getD sh.shActive 0 (shapeKey eng h f)) }) sh =
      { sh with shActive := a, shShadow := b } ∧
    ∀ f, getD a 0 (shapeKey eng h f) = getD (if f ∈ l then sh.shShadow else sh.shActive) 0 (shapeKey eng h f) ∧
      getD b 0 (shapeKey eng h f) = getD (if f ∈ l then sh.shActive else sh.shShadow) 0 (shapeKey eng h f)
  | [], _, sh => ⟨_, _, rfl, fun _ => ⟨rfl, rfl⟩⟩
  | k :: l, hl, sh => by
    obtain ⟨hk, hl⟩ := List.nodup_cons.mp hl
    obtain ⟨a, b, hfold, hab⟩ := swapFields eng h l hl
      { sh with shActive := setD sh.shActive 0 (shapeKey eng h k) (getD sh.shShadow 0 (shapeKey eng h k))
                shShadow := setD sh.shShadow 0 (shapeKey eng h k) (getD sh.shActive 0 (shapeKey eng h k)) }
    refine ⟨a, b, hfold, fun f => ?_⟩
    obtain ⟨ha, hb⟩ := hab f
    rw [ha, hb]
    by_cases hf : f = k
    · subst hf
      simp [hk, getD_setD_self]
    · have hkey : shapeKey eng h f ≠ shapeKey eng h k := fun he => hf (shapeKey_inj he)
      by_cases hfl : f ∈ l <;> simp [hf, hfl, getD_setD_ne _ _ _ _ _ hkey]

/-- A swap exchanges the copies of the register, and nothing else of the sheet. -/
theorem swapShape_spec (sh : Sheet) (eng h : Nat) : ∃ a b, sh.swapShape eng h = { sh with shActive := a, shShadow := b } ∧
    ∀ f < 16, getD a 0 (shapeKey eng h f) = getD sh.shShadow 0 (shapeKey eng h f) ∧
      getD b 0 (shapeKey eng h f) = getD sh.shActive 0 (shapeKey eng h f) := by
  obtain ⟨a, b, hfold, hab⟩ := swapFields eng h (List.range 16) List.nodup_range sh
  refine ⟨a, b, hfold, fun f hf => ?_⟩
  have := hab f
  rwa [if_pos (List.mem_range.mpr hf), if_pos (List.mem_range.mpr hf)] at this

theorem TrigCtx.shape_getD (x : TrigCtx) (eng h : Nat) (swap : Bool) {f : Nat} (hf : f < 16) :
    (x.shape eng h swap).getD f 0 = getD (if swap then x.sh.shShadow else x.sh.shActive) 0 (shapeKey eng h f) := by
  unfold TrigCtx.shape
  simp [List.getD_eq_getElem?_getD, hf]

/-- The sheet once its trigger has swapped, if it does. -/
def Sheet.swapped (sh : Sheet) (eng h : Nat) (swap : Bool) : Sheet := if swap then sh.swapShape eng h else sh

theorem Sheet.swapped_frame (sh : Sheet) (eng h : Nat) (swap : Bool) :
    ∃ a b, sh.swapped eng h swap = { sh with shActive := a, shShadow := b } := by
  unfold Sheet.swapped
  split
  · obtain ⟨a, b, he, -⟩ := swapShape_spec sh eng h
    exact ⟨a, b, he⟩
  · exact ⟨_, _, rfl⟩

/-- A sheet with the shape registers that a swap leaves of the trigger's sheet has captured the selected one. -/
theorem captures_of {x : TrigCtx} {y : Sheet} {eng h : Nat} {swap : Bool} (ha : y.shActive = (x.sh.swapped eng h swap).shActive)
    (hs : y.shShadow = (x.sh.swapped eng h swap).shShadow) : Captures eng h swap x y (x.shape eng h swap) := by
  refine ⟨fun f hf => x.shape_getD eng h swap hf, ?_⟩
  rw [ha, hs]
  unfold Sheet.swapped
  cases swap
  · exact ⟨rfl, rfl⟩
  · obtain ⟨a, b, he, hab⟩ := swapShape_spec x.sh eng h
    simp only [if_true, he]
    exact hab

/-! ## A command enters the dependency table (R220) -/

section
variable {s : State} {sh : Sheet} {m : Move} {u : FUnit}

theorem opCtx_parts (s : State) (sh : Sheet) (m : Move) (u : FUnit) : (opCtx s sh m u).sh = opSheet s sh m ∧ (opCtx s sh m u).sid = s.focus ∧
    (opCtx s sh m u).unit = u ∧ (opCtx s sh m u).slot = 0 ∧ (opCtx s sh m u).bpc = sh.pc := by
  obtain ⟨-, -, -, hpc, -⟩ := opSheet_fields s sh m
  exact ⟨rfl, rfl, rfl, opMove_slot s sh m, hpc⟩

theorem opCtx_entry (s : State) (sh : Sheet) (m : Move) (p : Nat) : (opCtx s sh m u).x p 0 = sh.getX u p 0 := by
  obtain ⟨-, -, -, -, -, -, -, -, -, hent, -⟩ := opSheet_fields s sh m
  unfold TrigCtx.x Sheet.getX
  rw [show (opCtx s sh m u).sh.ent = sh.ent from hent]
  simp [show (opCtx s sh m u).unit = u from rfl]

theorem freeEntries_congr {t : State} (h : t.cores = s.cores) (sid : Nat) : freeEntries t sid = freeEntries s sid := by
  have hcore : t.core = s.core := funext (State.core_of_cores h)
  unfold freeEntries entrySlots State.colOf
  rw [hcore]

/-- A trigger alone needs one entry at most. -/
theorem opCtx_entryFree (hfree : freeEntries s s.focus ≠ []) : (opCtx s sh m u).entryFree = true := by
  have hone : (opCtx s sh m u).engines ≤ 1 := by
    show engineMoves [opMove s sh m] ≤ 1
    exact List.length_filter_le _ _
  have hpos := List.length_pos_iff.mpr hfree
  have hsame : freeEntries (opBegun s sh m) s.focus = freeEntries s s.focus := freeEntries_congr (opBegun_cores s sh m) _
  exact decide_eq_true (hone.trans (by rw [show (opCtx s sh m u).s = opBegun s sh m from rfl, show (opCtx s sh m u).sid = s.focus from rfl, hsame]; exact hpos))

/-- The command takes the lowest free entry and the next number, and its value is pending in the port of its engine. -/
theorem enterCmd_eq {e : State} {sid : Nat} {y : Sheet} (hy : e.sheet? sid = some y) (hfree : freeEntries e sid ≠ []) (k : Cmd) :
    ∃ n ∈ freeEntries e sid, enterCmd e sid k = (e.setSheet sid (y.addFlight k.unit 0 none none false true false 0)).setCore (coreOf sid)
      { e.core (coreOf sid) with
        cmds := put (e.core (coreOf sid)).cmds n { k with num := (e.core (coreOf sid)).nextCmd, flight := y.nextId }
        nextCmd := (e.core (coreOf sid)).nextCmd + 1 } := by
  obtain ⟨n, l, hl⟩ := List.exists_cons_of_ne_nil hfree
  refine ⟨n, hl ▸ List.mem_cons_self, ?_⟩
  have hpick : pickEntry e sid = some n := by unfold pickEntry; rw [hl]; rfl
  unfold enterCmd
  rw [hy, hpick]

/-- What an engine trigger alone leaves, once its effect has made `e` of the state and the sheet in focus `y`: its command in an
entry, its value on the way, and what follows every bundle. -/
theorem CanIssue.entered (h : CanIssue s sh m u) (hu : u ≠ .bru) {o : OpMeaning} (hctl : o.control = false)
    (hfree : freeEntries s s.focus ≠ []) {e : State} {y : Sheet} {k : Cmd} (heff : opEffect s sh m u o = enterCmd e s.focus k)
    (hy : e.sheet? s.focus = some y) (hcores : e.cores = s.cores) (hkept : sh.KeptBy y) :
    ∃ n ∈ freeEntries s s.focus, ∃ t z, opTail s sh m u o (opEffect s sh m u o) = t ∧ t.sheet? s.focus = some z ∧
      (y.addFlight k.unit 0 none none false true false 0).Issued z ∧
      (t.core (coreOf s.focus)).cmds =
        put (s.core (coreOf s.focus)).cmds n { k with num := (s.core (coreOf s.focus)).nextCmd, flight := y.nextId } ∧
      (t.core (coreOf s.focus)).nextCmd = (s.core (coreOf s.focus)).nextCmd + 1 ∧ t.mem = e.mem ∧ t.wgs = e.wgs := by
  obtain ⟨harmed, hskip, hwidth, hgone⟩ := hkept
  have hsame := freeEntries_congr hcores s.focus
  obtain ⟨n, hn, henter⟩ := enterCmd_eq hy (hsame ▸ hfree) k
  rw [State.core_of_cores hcores] at henter
  have he := heff.trans henter
  obtain ⟨i, d, c, x, l, p, a, htail⟩ := opTail_plain (e := opEffect s sh m u o) (y := y.addFlight k.unit 0 none none false true false 0) h hctl (.inl hu)
    (by rw [he]; exact State.sheet?_setSheet ..)
    ⟨harmed.trans h.quiet, hskip.trans h.noSkip, (left_of_fields hwidth hgone).trans h.left⟩
  refine ⟨n, hsame ▸ hn, _, _, htail, issued_sheet?_same .., issued_arrive .., ?_, ?_, ?_, ?_⟩
  · show (getD (setD _ Core.reset _ _) Core.reset _).cmds = _
    rw [getD_setD_self, he]
    exact congrArg Core.cmds (State.core_setCore ..)
  · show (getD (setD _ Core.reset _ _) Core.reset _).nextCmd = _
    rw [getD_setD_self, he]
    exact congrArg Core.nextCmd (State.core_setCore ..)
  · show (opEffect s sh m u o).mem = e.mem
    rw [he]
    rfl
  · show (opEffect s sh m u o).wgs = e.wgs
    rw [he]
    rfl

end

/-! ## An operation that reads vector registers, alone -/

section
variable {s : State} {sh : Sheet} {m : Move} {u : FUnit} {i : Instr}

theorem noteWait_reading (sid : Nat) (b : Bundle) (o : OpMeaning) (v : TrigCtx → List Nat) :
    noteWait s sid b (o.reading v).only = noteWait s sid b o.only := by
  have hbundle : ∀ sh, bundleWait s sid sh b (o.reading v).only = bundleWait s sid sh b o.only := by
    intro sh
    unfold bundleWait
    dsimp only
    congr! 5
    rename_i m _
    rcases m.trig with _ | u <;> rfl
  unfold noteWait waitReason
  simp only [hbundle]

theorem CanIssue.runOp_reading {o : OpMeaning} (h : CanIssue s sh m u) (hi : i.move = some m)
    (hv : (o.vregs (opCtx s sh m u)).any (vregBusy s s.focus) = false) : runOp i o s = runOp i (o.reading (fun _ => [])) s := by
  unfold runOp
  rw [hi]
  dsimp only
  refine congrArg _ ?_
  show issueOrWait s s.focus (oneMove m) _ o.only = issueOrWait s s.focus (oneMove m) _ (o.reading (fun _ => [])).only
  unfold issueOrWait
  rw [h.issue_reading hv, noteWait_reading]

end

/-! ## A CFE trigger (R132, R239, R241) -/

/-- The state in which a CFE trigger's command enters: the registers swapped, the destination tagged anew. -/
def cfeBefore (x : TrigCtx) (d : Option Limb) (tag : Option LimbTag) (e : State) : State :=
  let e := if cfeSwap x.tv then e.mapSheet x.sid (fun sh => sh.swapShape 1 (cfeH x.tv)) else e
  match d with
  | none => e
  | some k => e.mapWg x.sh.wg (fun w => { w with tags := match tag with
      | some t => put w.tags k.val t
      | none => drop w.tags k.val })

section
variable {x : TrigCtx} {d : Option Limb} {tag : Option LimbTag} {e : State}

theorem cfeBefore_frame : (cfeBefore x d tag e).cores = e.cores ∧ (cfeBefore x d tag e).mem = e.mem := by
  unfold cfeBefore
  dsimp only
  cases d <;> cases cfeSwap x.tv <;> simp [State.mapSheet_cores, State.mapSheet_mem]

theorem cfeBefore_sheet? {y : Sheet} (hy : e.sheet? x.sid = some y) :
    (cfeBefore x d tag e).sheet? x.sid = some (y.swapped 1 (cfeH x.tv) (cfeSwap x.tv)) := by
  have hswap : (if cfeSwap x.tv then e.mapSheet x.sid (fun sh => sh.swapShape 1 (cfeH x.tv)) else e).sheet? x.sid =
      some (y.swapped 1 (cfeH x.tv) (cfeSwap x.tv)) := by
    unfold Sheet.swapped
    cases cfeSwap x.tv
    · exact hy
    · exact (State.sheet?_mapSheet ..).trans (congrArg _ hy)
  cases d with
  | none => exact hswap
  | some k => exact (congrArg (lookup · x.sid) (State.mapWg_sheets ..)).trans hswap

/-- The destination's tag is the one given. -/
theorem cfeBefore_tag {k : Limb} {t : LimbTag} {w : Workgroup} (hw : e.wg? x.sh.wg = some w) :
    ∃ w', (cfeBefore x (some k) (some t) e).wg? x.sh.wg = some w' ∧ lookup w'.tags k.val = some t := by
  have hswap : (if cfeSwap x.tv then e.mapSheet x.sid (fun sh => sh.swapShape 1 (cfeH x.tv)) else e).wg? x.sh.wg = some w := by
    split
    · exact (congrArg (lookup · x.sh.wg) (State.mapSheet_wgs ..)).trans hw
    · exact hw
  exact ⟨_, (State.wg?_mapWg ..).trans (congrArg _ hswap), lookup_put_self ..⟩

end

section
variable {i op : Instr} {d : Option Limb} {tag : TrigCtx → Option LimbTag} {check : TrigCtx → List (Nat × Flt)} {v : TrigCtx → List Nat}
  {regs : TrigCtx → List W64} {reads writes : TrigCtx → List Res} {val : TrigCtx → W64}

/-- The command of a CFE trigger, with its value. -/
def cfeCommand (x : TrigCtx) (op : Instr) (regs : List W64) (reads writes : List Res) (val : W64) : Cmd :=
  { cfeCmd x op regs reads writes with value := val }

/-- A CFE operation: its checks, its destination's tag, its command, and the vector registers that it reads at the trigger. -/
def cfeOp (op : Instr) (d : Option Limb) (tag : TrigCtx → Option LimbTag) (check : TrigCtx → List (Nat × Flt)) (v : TrigCtx → List Nat)
    (regs : TrigCtx → List W64) (reads writes : TrigCtx → List Res) (val : TrigCtx → W64) : OpMeaning :=
  (engineOp (fun _ => true) check (fun x e =>
    cfeEnter x d (tag x) (cfeCommand x op (regs x) (reads x) (writes x) (val x)) e)).reading v

/-- The effect of a CFE operation alone. -/
theorem CanIssue.cfeEffect {s : State} {sh : Sheet} {m : Move} (h : CanIssue s sh m .cfe) (hp : 0 < sh.passes) (hr : opRuns s sh m)
    {x : TrigCtx} (hx : opCtx s sh m .cfe = x) :
    opEffect s sh m .cfe ((cfeOp op d tag check v regs reads writes val).reading (fun _ => [])) =
      enterCmd (cfeBefore x d (tag x) (opBegun s sh m).drew) s.focus (cfeCommand x op (regs x) (reads x) (writes x) (val x)) := by
  subst hx
  exact opEffect_once (f := fun x _ e => cfeEnter x d (tag x) (cfeCommand x op (regs x) (reads x) (writes x) (val x)) e)
    h.whole hp hr rfl (fun _ _ _ _ => rfl)

/-- What a CFE operation leaves: its command, the capture and the destination's tag. -/
structure CfeEntered (s : State) (x : TrigCtx) (d : Option Limb) (tag : Option LimbTag) (regs : List W64) (reads writes : List Res) (val : W64)
    (t : State) (y : Sheet) (c : Cmd) : Prop where
  mem : SameMemory s t
  captures : Captures 1 (cfeH x.tv) (cfeSwap x.tv) x y c.shape
  regs : c.regs = regs
  reads : c.reads = reads
  writes : c.writes = writes
  value : c.value = val
  tagged : ∀ k g, d = some k → tag = some g → x.wgp.isSome → (t.wg? x.sh.wg).bind (fun w => lookup w.tags k.val) = some g

/-- A CFE operation that passes its checks enters its command. -/
theorem cfe_enters {ok : State → TrigCtx → Prop} {after : State → TrigCtx → State → Sheet → Cmd → Prop}
    (hexec : ∀ s, exec i s = runOp i (cfeOp op d tag check v regs reads writes val) s)
    (hok : ∀ s x, ok s x → check x = [] ∧ check { x with engines := 0, droop0 := 0 } = [] ∧ (v x).any (vregBusy s s.focus) = false)
    (hafter : ∀ s x t y c, ok s x → x.sid = s.focus → CfeEntered s x d (tag x) (regs x) (reads x) (writes x) (val x) t y c → after s x t y c) :
    Enters i .cfe ok after := by
  intro s sh m hi h hp hr hokx hfree
  obtain ⟨hcheck, hcheck0, hv⟩ := hok s _ hokx
  have hrun := (h.runOp_reading hi (o := cfeOp op d tag check v regs reads writes val) hv).trans
    (runOp_ok hi h rfl (fun _ => rfl) (fun _ => (congrArg (· && true) (opCtx_entryFree hfree)).trans rfl) (fun _ => ⟨hcheck, hcheck0⟩))
  obtain ⟨hsh, hsid, hunit, hslot, hbpc⟩ := opCtx_parts s sh m .cfe
  have hwg := opCtx_wg s sh m .cfe
  have hx0 := opCtx_entry (u := .cfe) s sh m 0
  have hx1 := opCtx_entry (u := .cfe) s sh m 1
  have hbegun : (opBegun s sh m).drew.wg? (opCtx s sh m .cfe).sh.wg = (opCtx s sh m .cfe).s.wg? (opCtx s sh m .cfe).sh.wg := rfl
  have hhere := opCtx_here (u := .cfe) (s := s) (sh := sh) (m := m)
  generalize hx : opCtx s sh m .cfe = x at *
  have heff := h.cfeEffect (op := op) (d := d) (tag := tag) (check := check) (v := v) (regs := regs) (reads := reads) (writes := writes)
    (val := val) hp hr hx
  have hy := cfeBefore_sheet? (d := d) (tag := tag x) hhere
  obtain ⟨hcores, hmem⟩ := cfeBefore_frame (x := x) (d := d) (tag := tag x) (e := (opBegun s sh m).drew)
  obtain ⟨a, b, hswapped⟩ := (opSheet s sh m).swapped_frame 1 (cfeH x.tv) (cfeSwap x.tv)
  have hkept : sh.KeptBy ((opSheet s sh m).swapped 1 (cfeH x.tv) (cfeSwap x.tv)) := by
    rw [hswapped]
    exact opSheet_kept s sh m
  have hnext : ((opSheet s sh m).swapped 1 (cfeH x.tv) (cfeSwap x.tv)).nextId = sh.nextId := by
    rw [hswapped]
    obtain ⟨f, lat, cf, ho⟩ := opSheet_frame s sh m
    rw [ho]
  rw [hsid] at hy
  obtain ⟨n, hn, t, z, ht, hz, hissued, hcmds, hnum, htmem, htwgs⟩ := h.entered (by decide) rfl hfree heff hy
    (hcores.trans (opBegun_cores s sh m)) hkept
  obtain ⟨i, dr, nx, lp, pc, nest, mk, rc, st, hlike⟩ := hissued
  refine ⟨t, z, _, n, hn, (hexec s).trans (hrun.trans (congrArg _ ht)), hz, by rw [hcmds]; exact lookup_put_self .., rfl, hnum,
    fun k hk => by rw [hcmds]; exact lookup_put_ne _ _ _ _ hk, hsid, hwg, hunit, rfl, rfl, hx0, hx1, hbpc, hslot, rfl, ?_, ?_⟩
  · refine ⟨⟨x.unit, 0, ((opSheet s sh m).swapped 1 (cfeH x.tv) (cfeSwap x.tv)).nextId, none, none, false, true, false, 0⟩, ?_, rfl, hnext.ge, hunit, rfl, rfl, rfl⟩
    rw [hlike]
    exact List.mem_append_right _ (List.mem_singleton_self _)
  · refine hafter s x t z _ hokx hsid ⟨sameMemory_of_mem (htmem.trans (hmem.trans (opBegun_mem s sh m))), captures_of ?_ ?_, rfl, rfl, rfl, rfl, ?_⟩
    · rw [hlike, hsh]
      rfl
    · rw [hlike, hsh]
      rfl
    · rintro k g rfl hg hwgp
      obtain ⟨w, hw⟩ := Option.isSome_iff_exists.mp ((Option.isSome_map).symm.trans hwgp)
      obtain ⟨w', hw', ht'⟩ := cfeBefore_tag (k := k) (t := g) (hbegun.trans hw)
      rw [wg?_of_wgs htwgs, hg, hw']
      exact ht'

end

/-! ## The checks of a CFE trigger -/

/-- Nothing that a trigger checks fails exactly where it raises nothing. -/
theorem firstFault_eq_nil_iff {x : TrigCtx} {l : List (Bool × Flt)} : firstFault x l = [] ↔ ∀ p ∈ l, p.1 = false := by
  refine ⟨fun h p hp => ?_, firstFault_nil⟩
  unfold firstFault at h
  cases hf : l.find? (fun p => p.1) with
  | none => simpa using List.find?_eq_none.mp hf p hp
  | some q =>
    rw [hf] at h
    cases h

section
variable {x : TrigCtx} {d : Limb} {v : Bool}

theorem packCheck_engines (h : packCheck d v x = []) : packCheck d v { x with engines := 0, droop0 := 0 } = [] :=
  firstFault_nil (firstFault_eq_nil_iff.mp h)
theorem extCheck_engines (h : extCheck v x = []) : extCheck v { x with engines := 0, droop0 := 0 } = [] :=
  firstFault_nil (firstFault_eq_nil_iff.mp h)

/-- A trigger that a kernel lets name a limb belongs to a workgroup. -/
theorem wgp_of_limbs (h : 0 < x.kernel.limbs) : x.wgp.isSome := by
  unfold TrigCtx.kernel State.kernelOf State.gridOf at h
  unfold TrigCtx.wgp
  cases hw : x.s.wg? x.sh.wg with
  | none => rw [hw] at h; exact absurd h (Nat.lt_irrefl 0)
  | some w => rfl

/-- Packing that passes its checks has a destination limb of its workgroup. -/
theorem packCheck_wgp (h : packCheck d v x = []) : x.wgp.isSome := by
  have hnames := firstFault_eq_nil_iff.mp h _ (List.mem_append_left _ (List.mem_singleton_self _))
  simp only [Bool.or_eq_false_iff, decide_eq_false_iff_not] at hnames
  obtain ⟨-, hd⟩ := hnames
  exact wgp_of_limbs (by omega)

/-- A trigger without a destination whose names R130 and R132 allow passes the checks of its value. -/
theorem cfeTrigger_free {x : TrigCtx} (h : CfeNames x none false false) : ∀ p ∈ cfeTrigger x none false false, p.1 = false := by
  obtain ⟨htv, hA, hB, -⟩ := h
  simp only [Bool.false_eq_true, if_false] at hA hB
  intro p hp
  rw [List.mem_singleton.mp hp]
  simpa [hA, hB] using htv

end

/-- CGW's fields in their ranges (R239). -/
def CgwFits (x : TrigCtx) : Prop :=
  CfeNames x none false false ∧ x.cf 1 < 32 ∧ 1 ≤ ewWidth (x.cf 1) ∧ ewWidth (x.cf 1) ≤ 8 ∧ 1 ≤ x.cf 2 ∧ x.cf 2 ≤ 64

/-- CGW's checks. -/
def cgwCheck (x : TrigCtx) : List (Nat × Flt) :=
  firstFault x (cfeTrigger x none false false ++ [(!ewOk (x.cf 1) || !cntOk (x.cf 2), Cause.engineError.flt)])
theorem cgwCheck_passes {x : TrigCtx} (h : CgwFits x) : cgwCheck x = [] := by
  obtain ⟨hnames, hew, hlow, hhigh, hcnt, hcnt'⟩ := h
  refine firstFault_nil (fun p hp => (List.mem_append.mp hp).elim (cfeTrigger_free hnames p) (fun hp => ?_))
  rw [List.mem_singleton.mp hp]
  simp [ewOk, cntOk, *]

/-! ## The operations of R240, R244 and R245 -/

theorem enters_cpack (h : Head) (d : Limb) : Enters (.cpack h d) .cfe (fun _ x => packCheck d false x = []) (fun s x t y c => SameMemory s t ∧
    Captures 1 (cfeH x.tv) (cfeSwap x.tv) x y c.shape ∧ c.writes = [.limb x.sh.wg d.val] ∧
    ((t.wg? x.sh.wg).bind (fun w => lookup w.tags d.val)) =
      some ⟨ewSigned (x.cf 1), x.cf 3, x.cf 2, if ewSigned (x.cf 1) then 2 ^ (ewWidth (x.cf 1) - 1) else 2 ^ ewWidth (x.cf 1) - 1, false⟩) :=
  cfe_enters (op := .cpack noHead d) (d := some d) (tag := fun x => some (packTag x)) (check := packCheck d false) (v := fun _ => [])
    (regs := fun _ => []) (reads := fun x => blocksOf true x.sh.wg (x.cf 0) (ceilDiv (packBits x) 8)) (writes := fun x => [.limb x.sh.wg d.val])
    (val := fun _ => 0) (fun _ => rfl) (fun _ _ hc => ⟨hc, packCheck_engines hc, rfl⟩)
    (fun _ _ _ _ _ hc _ he => ⟨he.mem, he.captures, he.writes, he.tagged d _ rfl rfl (packCheck_wgp hc)⟩)

theorem enters_cpackv (h : Head) (d : Limb) : Enters (.cpackv h d) .cfe (fun s x => packCheck d true x = [] ∧ vregBusy s s.focus (x.cf 0) = false)
    (fun s x t y c => SameMemory s t ∧
    Captures 1 (cfeH x.tv) (cfeSwap x.tv) x y c.shape ∧ c.reads = [] ∧ c.writes = [.limb x.sh.wg d.val] ∧
    c.regs = (List.range 32).map (fun th => x.sh.getV (x.cf 0) th) ∧
    ((t.wg? x.sh.wg).bind (fun w => lookup w.tags d.val)) =
      some ⟨ewSigned (x.cf 1), x.cf 3, x.cf 2, if ewSigned (x.cf 1) then 2 ^ (ewWidth (x.cf 1) - 1) else 2 ^ ewWidth (x.cf 1) - 1, false⟩) :=
  cfe_enters (op := .cpackv noHead d) (d := some d) (tag := fun x => some (packTag x)) (check := packCheck d true) (v := fun x => [x.cf 0])
    (regs := fun x => collect x.sh [x.cf 0]) (reads := fun _ => []) (writes := fun x => [.limb x.sh.wg d.val])
    (val := fun _ => 0) (fun _ => rfl)
    (fun _ _ ⟨hc, hv⟩ => ⟨hc, packCheck_engines hc, by simpa using hv⟩)
    (fun _ x _ _ _ ⟨hc, _⟩ _ he => ⟨he.mem, he.captures, he.reads, he.writes, he.regs.trans (List.append_nil _),
      he.tagged d _ rfl rfl (packCheck_wgp hc)⟩)

/-- An extraction captures the stride and the bound of its limb's tag. -/
theorem tagWords_extTag {x : TrigCtx} {g : LimbTag} (hg : x.tag (cfeA x.tv) = some g) :
    (tagWords (extTag x)).getD 0 0 = BitVec.ofNat 64 g.s ∧ (tagWords (extTag x)).getD 3 0 = BitVec.ofNat 64 g.b := by
  unfold extTag
  rw [hg]
  exact ⟨rfl, rfl⟩

theorem enters_cext (h : Head) : Enters (.cext h) .cfe (fun _ x => extCheck false x = []) (fun s x t y c => SameMemory s t ∧
    Captures 1 (cfeH x.tv) (cfeSwap x.tv) x y c.shape ∧ c.reads = [.limb x.sh.wg (cfeA x.tv)] ∧ c.regs.length = 4 ∧
    (∀ g, x.tag (cfeA x.tv) = some g → c.regs.getD 0 0 = BitVec.ofNat 64 g.s ∧ c.regs.getD 3 0 = BitVec.ofNat 64 g.b)) :=
  cfe_enters (op := .cext noHead) (d := none) (tag := fun _ => none) (check := extCheck false) (v := fun _ => [])
    (regs := fun x => tagWords (extTag x)) (reads := fun x => [.limb x.sh.wg (cfeA x.tv)])
    (writes := fun x => extBlocks x.sh.wg (x.cf 0) (x.cf 8) (outBytes (x.cf 7)) (x.cf 10)) (val := fun _ => 0) (fun _ => rfl)
    (fun _ _ hc => ⟨hc, extCheck_engines hc, rfl⟩)
    (fun _ _ _ _ _ _ _ he => ⟨he.mem, he.captures, he.reads, he.regs ▸ rfl, fun _ hg => he.regs ▸ tagWords_extTag hg⟩)

theorem enters_cextv (h : Head) : Enters (.cextv h) .cfe (fun _ x => extCheck true x = []) (fun s x t y c => SameMemory s t ∧
    Captures 1 (cfeH x.tv) (cfeSwap x.tv) x y c.shape ∧ c.reads = [.limb x.sh.wg (cfeA x.tv)] ∧ c.writes = [.vreg s.focus (x.cf 0)] ∧
    (∀ g, x.tag (cfeA x.tv) = some g → c.regs.getD 0 0 = BitVec.ofNat 64 g.s ∧ c.regs.getD 3 0 = BitVec.ofNat 64 g.b)) :=
  cfe_enters (op := .cextv noHead) (d := none) (tag := fun _ => none) (check := extCheck true) (v := fun _ => [])
    (regs := fun x => tagWords (extTag x)) (reads := fun x => [.limb x.sh.wg (cfeA x.tv)]) (writes := fun x => [.vreg x.sid (x.cf 0)])
    (val := fun _ => 0) (fun _ => rfl)
    (fun _ _ hc => ⟨hc, extCheck_engines hc, rfl⟩)
    (fun _ _ _ _ _ _ hsid he => ⟨he.mem, he.captures, he.reads, hsid ▸ he.writes, fun _ hg => he.regs ▸ tagWords_extTag hg⟩)

theorem enters_cgw (h : Head) : Enters (.cgw h) .cfe (fun _ x => CgwFits x) (fun s x t y c => SameMemory s t ∧
    Captures 1 (cfeH x.tv) (cfeSwap x.tv) x y c.shape ∧ c.value = BitVec.ofNat 64 (safeStride (x.cf 1) (x.cf 2) (x.cf 6))) :=
  cfe_enters (op := .cgw noHead) (d := none) (tag := fun _ => none) (check := cgwCheck) (v := fun _ => []) (regs := fun _ => [])
    (reads := fun _ => []) (writes := fun _ => []) (val := fun x => w64 (safeStride (x.cf 1) (x.cf 2) (x.cf 6))) (fun _ => rfl)
    (fun _ _ hc => ⟨cgwCheck_passes hc, cgwCheck_passes hc, rfl⟩)
    (fun _ _ _ _ _ _ _ he => ⟨he.mem, he.captures, he.value⟩)

/-- Settles O24: every CFE operation that passes its checks enters its command as `cfe_enters` says. -/
theorem cfePackingCommands : Obligations.CfePackingCommands := fun h d =>
  ⟨enters_cpack h d, enters_cpackv h d, enters_cext h, enters_cextv h, enters_cgw h⟩

end Sys2Proof.Machine
end

section
/-! What the CFE's commands compute when their operands are consumed (R223, R240, R244): the limbs of the arithmetic and of packing, and the
coefficients of an extraction, which stops at the first beyond its bound. -/

namespace Sys2Proof.Machine

/-! ## Two's complement (R171, R384) -/

/-- The word of `k` bits read as an integer. -/
theorem signed_eq_toInt {k : Nat} (hk : 0 < k) (x : BitVec k) : signed k x.toNat = x.toInt := by
  have hx := x.isLt
  have hpow : 2 ^ k = 2 * 2 ^ (k - 1) := by rw [← Nat.pow_succ']; congr 1; omega
  unfold signed
  rw [BitVec.toInt_eq_toNat_cond, Nat.mod_eq_of_lt hx]
  by_cases h : 2 ^ (k - 1) ≤ x.toNat
  · rw [if_pos h, if_neg (by omega)]
  · rw [if_neg h, if_pos (by omega)]

theorem ofInt_sub {n : Nat} (x y : Int) : BitVec.ofInt n (x - y) = BitVec.ofInt n x - BitVec.ofInt n y := by
  rw [Int.sub_eq_add_neg, BitVec.ofInt_add, BitVec.ofInt_neg, BitVec.sub_eq_add_neg]

/-- A limb as an integer (R241). -/
theorem limb_eq_toInt (w : Workgroup) (k : Nat) : w.limb k = (limbWord w k).toInt := signed_eq_toInt (by decide) _

theorem limbOf_toInt (x : BitVec 1024) : limbOf x.toInt = x := BitVec.ofInt_toInt
theorem limbOf_zero : limbOf 0 = 0 := (BitVec.ofInt_natCast 1024 0).trans BitVec.ofNat_eq_ofNat
theorem limbOf_add (a b : Int) : limbOf (a + b) = limbOf a + limbOf b := BitVec.ofInt_add ..
theorem limbOf_sub (a b : Int) : limbOf (a - b) = limbOf a - limbOf b := ofInt_sub ..
theorem limbOf_mul (a b : Int) : limbOf (a * b) = limbOf a * limbOf b := BitVec.ofInt_mul ..
theorem ofNat_two_pow {n : Nat} (i : Nat) : BitVec.ofNat n (2 ^ i) = BitVec.twoPow n i := by
  apply BitVec.eq_of_toNat_eq
  rw [BitVec.toNat_ofNat, BitVec.toNat_twoPow]
theorem limbOf_shift (x : BitVec 1024) (n : Nat) : limbOf (x.toInt * (2 ^ n : Nat)) = x <<< n := by
  rw [limbOf_mul, limbOf_toInt, BitVec.shiftLeft_eq_mul_twoPow, ← ofNat_two_pow]
  exact congrArg (x * ·) (BitVec.ofInt_natCast _ _)

theorem toInt_emod_two_pow {n m : Nat} (hm : m ≤ n) (x : BitVec n) : x.toInt % (2 ^ m : Nat) = ((x.toNat % 2 ^ m : Nat) : Int) := by
  rw [BitVec.toInt_eq_toNat_cond, Int.natCast_emod]
  split
  · rfl
  · obtain ⟨k, rfl⟩ := Nat.exists_eq_add_of_le hm
    rw [Nat.pow_add, Int.natCast_mul, Int.sub_mul_emod_self_left]
theorem ofInt_emod_two_pow {n m : Nat} (hm : m ≤ n) (x : BitVec n) :
    BitVec.ofInt n (x.toInt % (2 ^ m : Nat)) = (x.setWidth m).setWidth n := by
  rw [toInt_emod_two_pow hm, BitVec.ofInt_natCast, ← BitVec.toNat_setWidth, BitVec.ofNat_toNat]
/-- The low half of a limb as an unsigned number (R246). -/
theorem limbOf_low (x : BitVec 1024) : limbOf (x.toInt % (2 ^ 512 : Nat)) = (x.setWidth 512).setWidth 1024 :=
  ofInt_emod_two_pow (by decide) x

/-! ## Operands consumed (R223) -/

/-- A command whose operands are due, with the sectors that it reads across its port, is consumed. -/
theorem exec_consumed {s : State} {core e : Nat} {c : Cmd} (h : DueToConsume s core e c) (hp : readSectors s core c ≤ c.paid) :
    exec (.operandsConsumed core e) s = .next (consumeCmd s core e c) := by
  obtain ⟨hcore, he, hc, hphase, hdue⟩ := h
  refine (runEvent_ok (i := .operandsConsumed core e) (entryOk_of_lt hcore he) _ s).trans (congrArg _ ?_)
  unfold operandsConsumed
  rw [hc]
  dsimp only
  rw [if_pos ⟨hphase, hdue⟩, if_pos hp]

/-- A command once its operands are consumed. -/
def Cmd.consumedWith (c : Cmd) (outs : List CmdWrite) (ovf : Bool) : Cmd := { c with phase := .consumed, used := true, outs := outs, ovf := ovf }

/-- A command that reads no sector of memory and whose results are known is consumed with them. -/
theorem does_consume {s : State} {core e : Nat} {c : Cmd} {Q : State → Prop} (h : DueToConsume s core e c) (hr : readSectors s core c = 0)
    {outs : List CmdWrite} {ovf : Bool} (hq : consumeCmd s core e c = s.setCmd core e (c.consumedWith outs ovf))
    (hQ : Q (s.setCmd core e (c.consumedWith outs ovf))) : Does (.operandsConsumed core e) s Q :=
  ⟨_, (exec_consumed h (hr.le.trans (Nat.zero_le _))).trans (congrArg _ hq), hQ⟩

/-! ## Limbs (R240, R384, R385) -/

/-- The CFE operations that write a limb. -/
def writesLimb : Instr → Bool
  | .cmul _ _ | .cmac _ _ | .csqr _ _ | .cadd _ _ | .csub _ _ | .cshl _ _ | .cclr _ _ | .cbig _ _ | .cpack _ _ | .cpackv _ _ => true
  | _ => false

theorem consume_limb {s : State} {core e : Nat} {c : Cmd} (hop : writesLimb c.op = true) (hu : c.unit = .cfe) :
    readSectors s core c = 0 ∧ consumeCmd s core e c = s.setCmd core e (c.consumedWith (limbOuts s c) c.ovf) := by
  have hu' : ¬ c.unit = .mxe := by rw [hu]; decide
  unfold writesLimb at hop
  split at hop
  case h_11 => cases hop
  all_goals
    rename_i h
    refine ⟨by unfold readSectors Cmd.copy?; rw [h], ?_⟩
    unfold consumeCmd Cmd.copy?
    rw [h]
    dsimp only
    rw [if_neg hu', ← h]
    rfl

/-- A limb result is what `limbOuts` says of the operation. -/
theorem limbResult_of {s : State} {core e : Nat} {c : Cmd} {op : Instr} {d : Limb} {f : Workgroup → BitVec 1024} (hop : writesLimb op = true)
    (hf : ∀ w, c.op = op → s.wg? c.wg = some w → limbOuts s c = [.limb c.wg d.val (f w)]) : LimbResult s core e c op d f := by
  intro w hdue ho hu hw
  obtain ⟨hread, hcons⟩ := consume_limb (s := s) (core := core) (e := e) (ho.symm ▸ hop) hu
  exact does_consume hdue hread hcons ⟨fun _ => rfl, _, State.cmd?_setCmd .., rfl, hf w ho hw⟩

/-- The packed value of R171. -/
theorem packValue_eq (c : Cmd) (str : Nat) : packValue str (c.f 1) (c.f 2) (c.f 3) (c.f 4) (c.f 5) = packed c str := by
  unfold packValue packed
  rw [List.sum_eq_foldl, List.foldl_map]

section
variable (s : State) (core e : Nat) (c : Cmd) (h : Head) (d : Limb)

theorem limbResult_cmul : LimbResult s core e c (.cmul h d) d (fun w => limbWord w (cfeA c.trig) * limbWord w (cfeB c.trig)) :=
  limbResult_of rfl fun w ho hw => by
    unfold limbOuts
    rw [hw, ho]
    simp only [limb_eq_toInt, limbOf_mul, limbOf_toInt]
theorem limbResult_cmac :
    LimbResult s core e c (.cmac h d) d (fun w => limbWord w d.val + limbWord w (cfeA c.trig) * limbWord w (cfeB c.trig)) :=
  limbResult_of rfl fun w ho hw => by
    unfold limbOuts
    rw [hw, ho]
    simp only [limb_eq_toInt, limbOf_add, limbOf_mul, limbOf_toInt]
theorem limbResult_csqr : LimbResult s core e c (.csqr h d) d (fun w => limbWord w (cfeA c.trig) * limbWord w (cfeA c.trig)) :=
  limbResult_of rfl fun w ho hw => by
    unfold limbOuts
    rw [hw, ho]
    simp only [limb_eq_toInt, limbOf_mul, limbOf_toInt]
theorem limbResult_cadd : LimbResult s core e c (.cadd h d) d (fun w => limbWord w (cfeA c.trig) + limbWord w (cfeB c.trig)) :=
  limbResult_of rfl fun w ho hw => by
    unfold limbOuts
    rw [hw, ho]
    simp only [limb_eq_toInt, limbOf_add, limbOf_toInt]
theorem limbResult_csub : LimbResult s core e c (.csub h d) d (fun w => limbWord w (cfeA c.trig) - limbWord w (cfeB c.trig)) :=
  limbResult_of rfl fun w ho hw => by
    unfold limbOuts
    rw [hw, ho]
    simp only [limb_eq_toInt, limbOf_sub, limbOf_toInt]
theorem limbResult_cshl :
    LimbResult s core e c (.cshl h d) d (fun w => limbWord w (cfeA c.trig) <<< ((c.regs.getD 0 0).toNat * c.x0.toNat)) :=
  limbResult_of rfl fun w ho hw => by
    unfold limbOuts
    rw [hw, ho]
    simp only [limb_eq_toInt, limbOf_shift]
theorem limbResult_cclr : LimbResult s core e c (.cclr h d) d (fun _ => 0) :=
  limbResult_of rfl fun w ho hw => by
    unfold limbOuts
    rw [hw, ho]
    exact congrArg (fun v => [CmdWrite.limb c.wg d.val v]) limbOf_zero
theorem limbResult_cbig : LimbResult s core e c (.cbig h d) d (fun w =>
    ((limbWord w (cfeA c.trig)).setWidth 512).setWidth 1024 * ((limbWord w (cfeB c.trig)).setWidth 512).setWidth 1024) :=
  limbResult_of rfl fun w ho hw => by
    unfold limbOuts
    rw [hw, ho]
    simp only [limb_eq_toInt, limbOf_mul, limbOf_low]
theorem limbResult_cpack : LimbResult s core e c (.cpack h d) d (fun w =>
    BitVec.ofInt 1024 (packed c (leNat (w.readBuf true (c.f 0) ((c.f 4 * (c.f 2 - 1) + ewWidth (c.f 1) + 7) / 8))))) :=
  limbResult_of rfl fun w ho hw => by
    unfold limbOuts
    rw [hw, ho]
    simp only [packValue_eq]
    rfl
theorem limbResult_cpackv : LimbResult s core e c (.cpackv h d) d (fun _ =>
    BitVec.ofInt 1024 (packed c (leNat (c.regs.flatMap (fun v => leBytes 8 v.toNat))))) :=
  limbResult_of rfl fun w ho hw => by
    unfold limbOuts
    rw [hw, ho]
    simp only [packValue_eq]
    rfl

end

/-! ## Coefficients (R173) -/

/-- The field of a value that a coefficient is, read with its sign. -/
theorem coefOf_eq (s : Nat) (sg : Bool) (v : Int) :
    (if sg then signed s (v % (2 ^ s : Nat)).toNat else (((v % (2 ^ s : Nat)).toNat : Nat) : Int)) = coefOf s sg v := by
  have hpos : (0 : Int) < (2 ^ s : Nat) := by exact_mod_cast Nat.two_pow_pos s
  have hlow := Int.emod_nonneg v hpos.ne'
  have hhigh := Int.emod_lt_of_pos v hpos
  unfold coefOf signed
  generalize v % (2 ^ s : Nat) = f at hlow hhigh
  obtain ⟨n, rfl⟩ := Int.eq_ofNat_of_zero_le hlow
  have hn : n < 2 ^ s := by exact_mod_cast hhigh
  cases sg
  · simp
  · simp only [Int.toNat_natCast, if_true, true_and, Nat.mod_eq_of_lt hn, Nat.cast_le]

/-- Going on from the rest behind the first coefficient. -/
theorem remAt_succ (s : Nat) (sg : Bool) (v : Int) : ∀ m, remAt s sg ((v - coefOf s sg v) / (2 ^ s : Nat)) m = remAt s sg v (m + 1)
  | 0 => rfl
  | m + 1 => by
    unfold remAt
    rw [remAt_succ s sg v m]

theorem coefficients_getD (s : Nat) (sg : Bool) : ∀ (n m : Nat) (v : Int), m < n → (coefficients s sg n v).getD m 0 = coefOf s sg (remAt s sg v m)
  | n + 1, 0, v, _ => by
    unfold coefficients
    exact coefOf_eq s sg v
  | n + 1, m + 1, v, h => by
    unfold coefficients
    dsimp only
    rw [List.getD_cons_succ, coefOf_eq, coefficients_getD s sg n m _ (by omega), remAt_succ]

/-- The check of an extraction (R244). -/
theorem coefBad_iff (c : Cmd) (w : Workgroup) (q : Nat) : coefBad c (extracted c w q) = true ↔ guardFails c w q := by
  unfold coefBad guardFails
  by_cases h6 : c.f 6 = 0
  · by_cases h2 : c.regs.getD 2 0 = 1
    · simp only [h6, h2, ne_eq, not_true_eq_false, if_false, beq_self_eq_true, if_true, decide_eq_true_eq, beq_iff_eq, false_and, false_or, true_and]
    · simp only [h6, h2, ne_eq, not_true_eq_false, if_false, beq_iff_eq, false_and, and_false, or_self, Bool.false_eq_true]
  · simp only [h6, ne_eq, not_false_eq_true, if_true, decide_eq_true_eq, beq_iff_eq, true_and, false_and, or_false]

/-! ## Extraction (R244) -/

/-- The operation of an extraction into vector registers, or into A. -/
def IsExt (op : Instr) (toV : Bool) : Prop := ∃ h, op = if toV then .cextv h else .cext h

section
variable {s : State} {core e : Nat} {c : Cmd} {toV : Bool} {w : Workgroup} {sh : Sheet}

theorem extWrite_eq (hop : IsExt c.op toV) (q : Nat) : extWrite c q (extracted c w q) = extracts toV c w q := by
  obtain ⟨h, hop⟩ := hop
  unfold extWrite extracts
  rw [hop]
  cases toV <;> rfl

theorem IsExt.copy? (hop : IsExt c.op toV) : c.copy? = none := by
  obtain ⟨h, hop⟩ := hop
  unfold Cmd.copy?
  rw [hop]
  cases toV <;> rfl

theorem consume_ext (hop : IsExt c.op toV) (hu : c.unit = .cfe) :
    readSectors s core c = 0 ∧ consumeCmd s core e c = consumeCmd.consumeExt s core e c := by
  have hu' : ¬ c.unit = .mxe := by rw [hu]; decide
  obtain ⟨h, hop⟩ := hop
  cases toV
  all_goals
    simp only [Bool.false_eq_true, if_false, if_true] at hop
    refine ⟨by unfold readSectors Cmd.copy?; rw [hop], ?_⟩
    unfold consumeCmd Cmd.copy?
    rw [hop]
    exact if_neg hu'

/-- Coefficient FIRST + q in the list that an extraction computes. -/
def coefRead (c : Cmd) (w : Workgroup) (q : Nat) : Int :=
  (coefficients (c.regs.getD 0 0).toNat (c.regs.getD 1 0 == 1) (c.f 9 + c.f 10) (w.limb (cfeA c.trig))).getD (c.f 9 + q) 0
theorem coefRead_eq {q : Nat} (hq : q < c.f 10) : coefRead c w q = extracted c w q := by
  unfold coefRead
  rw [coefficients_getD _ _ _ _ _ (by omega), limb_eq_toInt]
  rfl
theorem coefRead_bad {q : Nat} (hq : q < c.f 10) : coefBad c (coefRead c w q) = true ↔ guardFails c w q := by
  rw [coefRead_eq hq, coefBad_iff]
theorem extWrites_eq (hop : IsExt c.op toV) {n : Nat} (hn : n ≤ c.f 10) :
    (List.range n).map (fun k => extWrite c k (coefRead c w k)) = (List.range n).map (extracts toV c w) :=
  List.map_congr_left fun q hq => by rw [coefRead_eq (Nat.lt_of_lt_of_le (List.mem_range.mp hq) hn), extWrite_eq hop]

theorem extOuts_eq (hat : c.at_ = 0) (hw : s.wg? c.wg = some w) (hsh : s.sheet? c.sid = some sh) :
    extOuts s c = match (if sh.cfeSoft then none else (List.range (c.f 10)).find? (fun q => coefBad c (coefRead c w q))) with
      | some q => (((List.range (c.f 10)).filter (fun k => decide (k < q))).map (fun k => extWrite c k (coefRead c w k)), some q, false)
      | none => ((List.range (c.f 10)).map (fun k => extWrite c k (coefRead c w k)), none,
          sh.cfeSoft && (List.range (c.f 10)).any (fun q => coefBad c (coefRead c w q))) := by
  have htodo : (List.range (c.f 10)).filter (fun q => decide (c.at_ ≤ q)) = List.range (c.f 10) :=
    List.filter_eq_self.mpr fun q _ => by rw [hat]; rfl
  unfold extOuts
  simp only [hw, hsh, htodo]
  rfl

/-- No coefficient stops the extraction: all its elements are written; one let through sets GDX. -/
theorem extOuts_all (hop : IsExt c.op toV) (hat : c.at_ = 0) (hw : s.wg? c.wg = some w) (hsh : s.sheet? c.sid = some sh)
    (hgo : sh.cfeSoft = true ∨ ∀ q < c.f 10, ¬ guardFails c w q) :
    ∃ b, extOuts s c = ((List.range (c.f 10)).map (extracts toV c w), none, b) ∧ (b = true ↔ ∃ q < c.f 10, guardFails c w q) := by
  have hany : (List.range (c.f 10)).any (fun q => coefBad c (coefRead c w q)) = true ↔ ∃ q < c.f 10, guardFails c w q := by
    simp only [List.any_eq_true, List.mem_range]
    exact exists_congr fun q => and_congr_right fun hq => coefRead_bad hq
  rw [extOuts_eq hat hw hsh, extWrites_eq hop le_rfl]
  cases hsoft : sh.cfeSoft with
  | true => exact ⟨_, rfl, hany⟩
  | false =>
    have hnone := hgo.resolve_left (by rw [hsoft]; decide)
    have hfind : (List.range (c.f 10)).find? (fun q => coefBad c (coefRead c w q)) = none :=
      List.find?_eq_none.mpr fun q hq hbad => hnone q (List.mem_range.mp hq) ((coefRead_bad (List.mem_range.mp hq)).mp hbad)
    rw [hfind]
    exact ⟨false, rfl, by simpa using hnone⟩

/-- The first coefficient beyond its bound stops the extraction; those before it are written. -/
theorem extOuts_stop (hop : IsExt c.op toV) (hat : c.at_ = 0) (hw : s.wg? c.wg = some w) (hsh : s.sheet? c.sid = some sh)
    (hsoft : sh.cfeSoft = false) {q : Nat} (hq : q < c.f 10) (hbad : guardFails c w q) (hfirst : ∀ p < q, ¬ guardFails c w p) :
    extOuts s c = ((List.range q).map (extracts toV c w), some q, false) := by
  have hfind : (List.range (c.f 10)).find? (fun q => coefBad c (coefRead c w q)) = some q :=
    List.find?_range_eq_some.mpr ⟨(coefRead_bad hq).mpr hbad, List.mem_range.mpr hq,
      fun p hp => by
      rw [Bool.not_eq_true', ← Bool.not_eq_true, coefRead_bad (hp.trans hq)]
      exact hfirst p hp⟩
  have hfilter : (List.range (c.f 10)).filter (fun k => decide (k < q)) = List.range q := by
    obtain ⟨n, hn⟩ := Nat.exists_eq_add_of_le hq.le
    rw [hn, List.range_add, List.filter_append, List.filter_eq_self.mpr (by simp), List.filter_eq_nil_iff.mpr (by simp), List.append_nil]
  rw [extOuts_eq hat hw hsh, hsoft, hfind, if_neg Bool.false_ne_true]
  dsimp only
  rw [hfilter, extWrites_eq hop hq.le]

end

/-- What writes of registers and buffers leave: memory, and sheets but for their vector registers. -/
structure RegsOnly (s t : State) : Prop where
  mem : t.mem = s.mem
  cores : t.cores = s.cores
  sheet : ∀ k sh, s.sheet? k = some sh → ∃ v, t.sheet? k = some { sh with v := v }

theorem RegsOnly.of_same {s t : State} (hm : t.mem = s.mem) (hc : t.cores = s.cores) (hs : t.sheets = s.sheets) : RegsOnly s t :=
  ⟨hm, hc, fun _ sh h => ⟨sh.v, by rw [State.sheet?, hs]; exact h⟩⟩
theorem RegsOnly.trans {s t u : State} (h : RegsOnly s t) (k : RegsOnly t u) : RegsOnly s u where
  mem := k.mem.trans h.mem
  cores := k.cores.trans h.cores
  sheet j sh hsh := by
    obtain ⟨v, hv⟩ := h.sheet j sh hsh
    obtain ⟨v', hv'⟩ := k.sheet j _ hv
    exact ⟨v', hv'⟩

section
variable {s : State} {core e : Nat} {c : Cmd} {toV : Bool} {w : Workgroup} {sh : Sheet}

theorem applyWrite_extracts (x : Asker) (s : State) (q : Nat) : RegsOnly s (applyWrite x s (extracts toV c w q)) := by
  unfold extracts
  cases toV
  · simp only [Bool.false_eq_true, if_false, applyWrite]
    split
    · exact .of_same (State.mapWg_mem ..) (State.mapWg_cores ..) (State.mapWg_sheets ..)
    · exact .of_same rfl rfl rfl
  · simp only [if_true, applyWrite]
    refine ⟨State.mapSheet_mem .., State.mapSheet_cores .., fun k y hy => ?_⟩
    by_cases hk : k = c.sid
    · subst hk
      exact ⟨_, (State.sheet?_mapSheet ..).trans (congrArg _ hy)⟩
    · exact ⟨y.v, (State.sheet?_mapSheet_ne _ _ _ _ hk).trans hy⟩

theorem applyWrites_extracts (d : Cmd) : ∀ (l : List Nat) (s : State), RegsOnly s (applyWrites s core d (l.map (extracts toV c w))) := by
  intro l s
  obtain ⟨p, a, hev⟩ := asker_event_only (cmdAsker s core d) ((l.map (extracts toV c w)).foldl (applyWrite (cmdAsker s core d)) s) 7
    (globSectors (l.map (extracts toV c w))).length
  have hfold : ∀ (l : List Nat) (s : State) (x : Asker), RegsOnly s ((l.map (extracts toV c w)).foldl (applyWrite x) s) := by
    intro l
    induction l with
    | nil => exact fun s x => .of_same rfl rfl rfl
    | cons q l ih => exact fun s x => (applyWrite_extracts x s q).trans (ih _ x)
  unfold applyWrites
  exact (hfold l s _).trans (by rw [hev]; exact .of_same rfl rfl rfl)

/-- A write of an extraction stands whatever sheets record besides. -/
theorem outMade_extracts {t u : State} {q : Nat} (h : OutMade s t (extracts toV c w q)) (hw : u.wgs = t.wgs)
    (hs : ∀ k y, t.sheet? k = some y → ∃ y', u.sheet? k = some y' ∧ y'.v = y.v) : OutMade s u (extracts toV c w q) := by
  unfold extracts at h ⊢
  cases toV
  · intro x hx
    obtain ⟨x', hx', hread⟩ := h x hx
    exact ⟨x', (wg?_of_wgs hw _).trans hx', hread⟩
  · intro x hx
    obtain ⟨y, hy, hread⟩ := h x hx
    obtain ⟨y', hy', hv⟩ := hs _ y hy
    exact ⟨y', hy', by rw [hv]; exact hread⟩

/-- The record that a late cause leaves at its sheet. -/
def lateRecord (s : State) (e : Nat) (c : Cmd) (f : Flt) : Trap :=
  { Trap.blank c.baddr s.ts with
    cause := f.cause, late := true, rslot := c.slot, done := [0, 1, 2, 3, 4, 5], ent := e, info := f.info, faddr := f.addr }
/-- A late cause of a command that is no copy stops it, and its sheet will stop. -/
theorem lateCause_plain {f : Flt} (h : c.copy? = none) : ∃ p a, lateCause s core e c f =
    (({ s with parts := p, agenda := a } : State).setCmd core e { c with phase := .stopped, cause := f.cause, info := f.info }).mapSheet c.sid
      (fun sh => { sh with lates := sh.lates ++ [lateRecord s e c f] }) := by
  obtain ⟨p, a, hev⟩ := asker_event_only (cmdAsker s core c) s 7 (globSectors []).length
  obtain ⟨p', a', hev'⟩ := asker_event_only (cmdAsker s core c) (applyWrites s core c []) 6 0
  have hw : writtenAt s core c = ([], 0, s) := by unfold writtenAt; rw [h]
  refine ⟨p', a', ?_⟩
  unfold lateCause
  rw [hw]
  dsimp only
  rw [hev', show applyWrites s core c [] = _ from hev]
  rfl

/-- GDX is set where the extraction lets a coefficient through. -/
def setGdx (b : Bool) (sid : Nat) (s : State) : State := if b then s.mapSheet sid (fun sh => { sh with cfeGdx := true }) else s

theorem setGdx_frame (b : Bool) (sid : Nat) (hsh : s.sheet? sid = some sh) : (setGdx b sid s).mem = s.mem ∧
    ∃ y, (setGdx b sid s).sheet? sid = some y ∧ (y.cfeGdx = true ↔ sh.cfeGdx = true ∨ b = true) := by
  unfold setGdx
  cases b
  · exact ⟨rfl, sh, hsh, by simp⟩
  · exact ⟨State.mapSheet_mem .., _, (State.sheet?_mapSheet ..).trans (congrArg _ hsh), by simp⟩

theorem consumeExt_all {outs : List CmdWrite} {b : Bool} (h : extOuts s c = (outs, none, b)) :
    consumeCmd.consumeExt s core e c = (setGdx b c.sid s).setCmd core e (c.consumedWith outs c.ovf) := by
  unfold consumeCmd.consumeExt
  rw [h]
  rfl
theorem consumeExt_stop {outs : List CmdWrite} {q : Nat} (h : extOuts s c = (outs, some q, false)) :
    consumeCmd.consumeExt s core e c = lateCause (applyWrites s core c outs) core e { c with at_ := q } ⟨.guardData, c.f 9 + q, 0⟩ := by
  unfold consumeCmd.consumeExt
  rw [h]
  rfl

theorem does_ext {Q : State → Prop} (hdue : DueToConsume s core e c) (hop : IsExt c.op toV) (hu : c.unit = .cfe)
    (hQ : Q (consumeCmd.consumeExt s core e c)) : Does (.operandsConsumed core e) s Q := by
  obtain ⟨hread, hcons⟩ := consume_ext (s := s) (core := core) (e := e) hop hu
  exact ⟨_, (exec_consumed hdue (hread.le.trans (Nat.zero_le _))).trans (congrArg _ hcons), hQ⟩

end

/-- An extraction writes what it extracts, or stops at the first coefficient beyond its bound. -/
theorem extracts_of (s : State) (core e : Nat) (c : Cmd) {op : Instr} {toV : Bool} (hop : IsExt op toV) : Extracts s core e c op toV := by
  rintro w sh hdue rfl hu hat hw hsh hscrub
  refine ⟨fun hgo => ?_, fun q hq hsoft hbad hfirst => ?_⟩
  · obtain ⟨b, houts, hb⟩ := extOuts_all hop hat hw hsh hgo
    obtain ⟨hmem, y, hy, hgdx⟩ := setGdx_frame b c.sid hsh
    refine does_ext hdue hop hu ?_
    rw [consumeExt_all houts]
    exact ⟨sameMemory_of_mem hmem, ⟨_, State.cmd?_setCmd .., rfl, rfl⟩, y, hy, hgdx.trans (or_congr_right hb)⟩
  · have houts := extOuts_stop hop hat hw hsh hsoft hq hbad hfirst
    have hregs := applyWrites_extracts (core := core) (toV := toV) (c := c) (w := w) c (List.range q) s
    refine does_ext hdue hop hu ?_
    rw [consumeExt_stop houts]
    have hmade : ∀ p, p + 1 = q → OutMade s (applyWrites s core c ((List.range q).map (extracts toV c w))) (extracts toV c w p) := by
      rintro p rfl
      rw [List.range_succ, List.map_append]
      exact applyWrites_made (.refl s) core c (by unfold extracts; cases toV; exacts [hscrub, rfl])
    generalize applyWrites s core c ((List.range q).map (extracts toV c w)) = u at hregs hmade
    obtain ⟨v, hv⟩ := hregs.sheet c.sid sh hsh
    obtain ⟨p, a, hlate⟩ := lateCause_plain (s := u) (core := core) (e := e) (c := { c with at_ := q }) (f := ⟨.guardData, c.f 9 + q, 0⟩) hop.copy?
    rw [hlate]
    refine ⟨sameMemory_of_mem ((State.mapSheet_mem ..).trans hregs.mem), ⟨⟨{ c with at_ := q, phase := .stopped, cause := .guardData, info := c.f 9 + q }, ?_,
      rfl, rfl, rfl, rfl, rfl⟩, _, _,
      (State.sheet?_mapSheet ..).trans (congrArg _ hv), rfl, rfl, rfl, rfl, rfl⟩, fun p hp => outMade_extracts (hmade p hp) (State.mapSheet_wgs ..) ?_⟩
    · rw [State.cmd?, State.core_of_cores (State.mapSheet_cores ..), ← State.cmd?]
      exact State.cmd?_setCmd ..
    · intro k y hy
      by_cases hk : k = c.sid
      · subst hk
        exact ⟨_, (State.sheet?_mapSheet ..).trans (congrArg _ hy), rfl⟩
      · exact ⟨y, (State.sheet?_mapSheet_ne _ _ _ _ hk).trans hy, rfl⟩

end Sys2Proof.Machine
end

section
/-! What the MXE's commands compute (R165 to R167, R232, R234, R237): the rows of products, drains, stores and loads, and the contribution of
an MXRED to its round. -/

namespace Sys2Proof.Machine

/-! ## Steps in order -/

theorem inOrder_congr {α : Type} {f g : Nat → α → α} : ∀ {n : Nat} (x : α), (∀ b < n, ∀ x, f b x = g b x) → inOrder f n x = inOrder g n x
  | 0, _, _ => rfl
  | n + 1, x, h => by
    unfold inOrder
    rw [inOrder_congr x fun b hb => h b (Nat.lt_succ_of_lt hb), h n (Nat.lt_succ_self n)]

/-- A relation that every step keeps holds behind them all. -/
theorem inOrder_rel {α β : Type} {f : Nat → α → α} {g : Nat → β → β} {r : α → β → Prop} (h : ∀ b x y, r x y → r (f b x) (g b y)) :
    ∀ (n : Nat) {x : α} {y : β}, r x y → r (inOrder f n x) (inOrder g n y)
  | 0, _, _, hr => hr
  | n + 1, _, _, hr => h n _ _ (inOrder_rel h n hr)

theorem foldl_range_inOrder {α : Type} (f : Nat → α → α) (x : α) : ∀ n, (List.range n).foldl (fun y b => f b y) x = inOrder f n x
  | 0 => rfl
  | n + 1 => by
    rw [List.range_succ, List.foldl_append, foldl_range_inOrder f x n]
    rfl

theorem foldl_zipIdx_inOrder {α β : Type} (g : β → Nat → α → α) (d : β) (x : α) (l : List β) :
    (l.zipIdx).foldl (fun y e => g e.1 e.2 y) x = inOrder (fun b y => g (l.getD b d) b y) l.length x := by
  induction l using List.reverseRecOn with
  | nil => rfl
  | append_singleton l a ih =>
    have hlow : ∀ b < l.length, ∀ y, g ((l ++ [a]).getD b d) b y = g (l.getD b d) b y := fun b hb y => by
      rw [List.getD_append _ _ _ _ hb]
    rw [List.zipIdx_append, List.foldl_append, ih, List.length_append, List.length_singleton]
    show _ = g ((l ++ [a]).getD l.length d) l.length (inOrder _ l.length x)
    rw [inOrder_congr x hlow, List.getD_append_right _ _ _ _ le_rfl, Nat.sub_self, Nat.zero_add]
    rfl

/-! ## Matrix products (R165 to R167, R438) -/

/-- The operands of block `b` of a product: its tile, its format and its scale. -/
def blockOf (k : MmaKind) (c : Cmd) (w : Workgroup) (b : Nat) : Array Nat × Nat × Nat :=
  (tileOf w (c.f 3 + k.banks * b) (blockFmt c b), blockFmt c b, blockScale c b)

/-- One block of a product over one element. -/
def blockStep (k : MmaKind) (c : Cmd) (w : Workgroup) (i j b : Nat) (r : Nat × Bool) : Nat × Bool :=
  if k.int then
    let (v, o) := int8Elem c.regs.toArray (blockOf k c w b).1 (blockFmt c b) b i j r.1
    (v, r.2 || o)
  else if k.banks = 2 then (bf16Elem c.regs.toArray (blockOf k c w b).1 b i j r.1, false)
  else (fp8Elem c.regs.toArray (c.f 2) (blockOf k c w b).1 (blockFmt c b) (blockScale c b) b i j r.1, false)

/-- The operands of the blocks as the command lists them. -/
def blocksList (k : MmaKind) (c : Cmd) (w : Workgroup) : List (Array Nat × Nat × Nat) :=
  ((mmaBanks k (c.f 3) (c.f 2)).zip c.fmts).map (fun (bank, f) =>
    let fmt := f.toNat % 16
    (tileOf w bank fmt, fmt, f.toNat / 2 ^ 32))

section
variable {k : MmaKind} {c : Cmd} {w : Workgroup}

theorem blocksList_length (h : c.fmts.length = c.f 2) : (blocksList k c w).length = c.f 2 := by
  simp [blocksList, mmaBanks, h]
theorem blocksList_getD (h : c.fmts.length = c.f 2) {b : Nat} (hb : b < c.f 2) (d : Array Nat × Nat × Nat) :
    (blocksList k c w).getD b d = blockOf k c w b := by
  have hf : b < c.fmts.length := h.symm ▸ hb
  simp [blocksList, mmaBanks, blockOf, blockFmt, blockScale, List.getD_eq_getElem?_getD, hb, hf]

/-- The blocks run over an element in order. -/
theorem chainElem_inOrder (h : c.fmts.length = c.f 2) (i j x : Nat) :
    chainElem k c.regs.toArray (c.f 2) (blocksList k c w) i j x = inOrder (blockStep k c w i j) (c.f 2) (x, false) := by
  unfold chainElem
  rw [foldl_zipIdx_inOrder (fun (o : Array Nat × Nat × Nat) b (r : Nat × Bool) =>
    if k.int then
      let (v, f) := int8Elem c.regs.toArray o.1 o.2.1 b i j r.1
      (v, r.2 || f)
    else if k.banks = 2 then (bf16Elem c.regs.toArray o.1 b i j r.1, false)
    else (fp8Elem c.regs.toArray (c.f 2) o.1 o.2.1 o.2.2 b i j r.1, false)) (#[], 0, 0) _ _, blocksList_length h]
  exact inOrder_congr _ fun b hb r => by rw [blocksList_getD h hb]; rfl

/-- A sum with its two scales, added to C (R165). -/
theorem scaled_accum (x sa sb : FVal) (acc : Nat) :
    (match mulVal x sa with
      | none => Fmt.nan .f32
      | some y => match mulVal y sb with
        | none => Fmt.nan .f32
        | some (.fin n m e) => accum acc (.fin (n && m != 0) m e)
        | some z => accum acc z) =
    match (mulVal x sa).bind (fun y => mulVal y sb) with
      | none => 0x7FC00000
      | some (.fin n m e) => (fpAdd .f32 .rne false (unpack .f32 false acc) (.fin (n && m != 0) m e)).1
      | some z => (fpAdd .f32 .rne false (unpack .f32 false acc) z).1 := by
  cases mulVal x sa with
  | none => rfl
  | some y =>
    simp only [Option.bind_some]
    cases mulVal y sb with
    | none => rfl
    | some z => cases z <;> rfl

theorem fp8Elem_eq (i j b acc : Nat) : fp8Elem c.regs.toArray (c.f 2) (tileOf w (c.f 3 + 1 * b) (blockFmt c b)) (blockFmt c b) (blockScale c b) b i j acc =
    fp8Block c w i j b acc := by
  unfold fp8Elem fp8Block weightAt
  simp only [Bool.or_eq_true, List.any_eq_true]
  exact if_congr Iff.rfl rfl (scaled_accum ..)
/-- An element through one FP8 block (R165). -/
theorem blockStep_fp8 (i j b : Nat) (r : Nat × Bool) : (blockStep mmaKind c w i j b r).1 = fp8Block c w i j b r.1 :=
  fp8Elem_eq i j b r.1

/-- An element through one BF16 block (R166). -/
theorem blockStep_bf16 (i j b : Nat) (r : Nat × Bool) : (blockStep mmabKind c w i j b r).1 = bf16Block c w i j b r.1 := by
  unfold blockStep
  simp only [mmabKind, Bool.false_eq_true, if_false, if_true]
  unfold bf16Elem bf16Block
  exact foldl_range_inOrder _ _ 8

/-- An element of a product of floating-point formats. -/
theorem chainElem_float {f : Nat → Nat → Nat → Nat → Nat} (h : c.fmts.length = c.f 2)
    (hf : ∀ i j b r, (blockStep k c w i j b r).1 = f i j b r.1) (i j x : Nat) :
    (chainElem k c.regs.toArray (c.f 2) (blocksList k c w) i j x).1 = inOrder (f i j) (c.f 2) x := by
  rw [chainElem_inOrder h]
  exact inOrder_rel (r := fun (a : Nat × Bool) b => a.1 = b) (fun b a y ha => (hf i j b a).trans (congrArg _ ha)) _ rfl

/-- An element through one INT8 block (R167). -/
theorem blockStep_int8 (i j b : Nat) {r : Nat × Bool} {y : BitVec 32 × Bool} (h : r = (y.1.toNat, y.2)) :
    blockStep mmaiKind c w i j b r = ((int8Block c w i j b y).1.toNat, (int8Block c w i j b y).2) := by
  subst h
  have hsum : signed 32 y.1.toNat + sum128 (fun k => signed 8 (aElem c.regs.toArray 8 8 b i k) *
      signed (fmtBits (blockFmt c b)) (packedAt (blockOf mmaiKind c w b).1 (fmtBits (blockFmt c b)) (128 * k + j))) =
      y.1.toInt + int8Sum c w i j b := by
    rw [signed_eq_toInt (by decide)]
    rfl
  unfold blockStep int8Block int8Elem
  simp only [mmaiKind, if_true] at hsum ⊢
  simp only [hsum, BitVec.toNat_ofInt, Bool.decide_or, Bool.or_assoc]
  rfl

/-- An element of an integer product, with its overflow. -/
theorem chainElem_int (h : c.fmts.length = c.f 2) (i j : Nat) (x : BitVec 32) :
    chainElem mmaiKind c.regs.toArray (c.f 2) (blocksList mmaiKind c w) i j x.toNat =
      ((inOrder (int8Block c w i j) (c.f 2) (x, false)).1.toNat, (inOrder (int8Block c w i j) (c.f 2) (x, false)).2) := by
  rw [chainElem_inOrder h]
  exact inOrder_rel (r := fun (a : Nat × Bool) (y : BitVec 32 × Bool) => a = (y.1.toNat, y.2)) (fun b a y ha => blockStep_int8 i j b ha) _ rfl

end

/-! ## The rows of a product (R232) -/

/-- The elements that a product makes of row `i`. -/
def productRow (k : MmaKind) (m : MmaMod) (c : Cmd) (w : Workgroup) (i : Nat) : List (Nat × Bool) :=
  ((if m.fresh then List.replicate 128 0 else w.tileRow (getD w.tileBind 0 c.tile) i).zipIdx).map (fun (v, j) =>
    chainElem k c.regs.toArray (c.f 2) (blocksList k c w) i j v.toNat)

section
variable (k : MmaKind) (m : MmaMod) (c : Cmd) (w : Workgroup)

theorem tileRow_getElem (t i j : Nat) (hj : j < 128) : (w.tileRow t i)[j]? = some (getD w.tiles 0 (tileKey t i j)) := by
  simp [Workgroup.tileRow, hj]

theorem productRow_length (i : Nat) : (productRow k m c w i).length = 128 := by
  unfold productRow
  split <;> simp [Workgroup.tileRow]

theorem productRow_getElem (i j : Nat) (hj : j < 128) :
    (productRow k m c w i)[j]? = some (chainElem k c.regs.toArray (c.f 2) (blocksList k c w) i j (cellOf m w c i j)) := by
  have hcell : (if m.fresh then List.replicate 128 0 else w.tileRow (getD w.tileBind 0 c.tile) i)[j]? =
      some (if m.fresh then 0 else getD w.tiles 0 (tileKey (getD w.tileBind 0 c.tile) i j)) := by
    split
    · exact List.getElem?_replicate_of_lt hj
    · exact tileRow_getElem w _ i j hj
  unfold productRow cellOf
  rw [List.getElem?_map, List.getElem?_zipIdx, hcell]
  simp only [Option.map_some, Nat.zero_add]
  cases m.fresh <;> rfl

theorem mmaOuts_eq : mmaOuts k m c w (getD w.tileBind 0 c.tile) =
    (((List.range 16).map (productRow k m c w)).zipIdx.map (fun (r, i) =>
      .tile c.wg (getD w.tileBind 0 c.tile) i (r.map (fun e => BitVec.ofNat 32 e.1))),
     ((List.range 16).map (productRow k m c w)).any (fun r => r.any (·.2))) := rfl

theorem mmaOuts_row (i : Nat) (hi : i < 16) : (mmaOuts k m c w (getD w.tileBind 0 c.tile)).1[i]? =
    some (.tile c.wg (getD w.tileBind 0 c.tile) i ((productRow k m c w i).map (fun e => BitVec.ofNat 32 e.1))) := by
  rw [mmaOuts_eq]
  simp [hi]

/-- A product writes its 16 rows. -/
theorem mmaOuts_writes {f : Nat → Nat → Nat}
    (hf : ∀ i j, (chainElem k c.regs.toArray (c.f 2) (blocksList k c w) i j (cellOf m w c i j)).1 = f i j) :
    WritesTile w c (mmaOuts k m c w (getD w.tileBind 0 c.tile)).1 f := by
  refine fun i hi => ⟨_, mmaOuts_row k m c w i hi, fun j hj => ?_⟩
  rw [List.getD_eq_getElem?_getD, List.getElem?_map, productRow_getElem k m c w i j hj, ← hf]
  exact BitVec.toNat_ofNat ..

theorem mmaOuts_ovf : (mmaOuts k m c w (getD w.tileBind 0 c.tile)).2 = true ↔ ∃ i < 16, ∃ j < 128,
    (chainElem k c.regs.toArray (c.f 2) (blocksList k c w) i j (cellOf m w c i j)).2 = true := by
  have hrow : ∀ i, (productRow k m c w i).any (·.2) = true ↔ ∃ j < 128,
      (chainElem k c.regs.toArray (c.f 2) (blocksList k c w) i j (cellOf m w c i j)).2 = true := by
    intro i
    rw [List.any_eq_true]
    constructor
    · rintro ⟨r, hr, ho⟩
      obtain ⟨j, hj, rfl⟩ := List.mem_iff_getElem.mp hr
      have hj' : j < 128 := productRow_length k m c w i ▸ hj
      have := productRow_getElem k m c w i j hj'
      rw [List.getElem?_eq_getElem hj] at this
      exact ⟨j, hj', Option.some.inj this ▸ ho⟩
    · rintro ⟨j, hj, ho⟩
      exact ⟨_, List.mem_of_getElem? (productRow_getElem k m c w i j hj), ho⟩
  rw [mmaOuts_eq]
  simp only [List.any_map, List.any_eq_true, List.mem_range, Function.comp_apply]
  exact exists_congr fun i => and_congr_right fun _ => by rw [← List.any_eq_true]; exact hrow i

end

/-! ## Rows as bytes (R234, R441) -/

theorem rowBytes_length (z : Nat) (l : List Nat) : (rowBytes z l).length = z * l.length := by
  induction l with
  | nil => rfl
  | cons a l ih =>
    have hcons : rowBytes z (a :: l) = leBytes z a ++ rowBytes z l := rfl
    rw [hcons, List.length_append, leBytes_length, ih, List.length_cons, Nat.mul_succ, Nat.add_comm]

/-- The bytes of one element of a row. -/
theorem rowBytes_slice (z : Nat) : ∀ (l : List Nat) (j : Nat), j < l.length → ((rowBytes z l).drop (z * j)).take z = leBytes z (l.getD j 0)
  | a :: l, 0, _ => by
    show ((leBytes z a ++ rowBytes z l).drop (z * 0)).take z = _
    rw [Nat.mul_zero, List.drop_zero, List.take_left' (leBytes_length z a)]
    rfl
  | a :: l, j + 1, h => by
    show ((leBytes z a ++ rowBytes z l).drop (z * (j + 1))).take z = _
    rw [List.drop_append, leBytes_length, List.drop_of_length_le (by rw [leBytes_length]; exact Nat.le_mul_of_pos_right _ (Nat.succ_pos j)),
      List.nil_append, Nat.mul_succ, Nat.add_sub_cancel, rowBytes_slice z l j (by simpa using h)]
    rfl

theorem leNat_rowBytes (z : Nat) {l : List Nat} {j : Nat} (h : j < l.length) :
    leNat (((rowBytes z l).drop (z * j)).take z) = l.getD j 0 % 2 ^ (8 * z) := by
  rw [rowBytes_slice z l j h, leNat_leBytes, Nat.pow_mul]

/-- The words of a row of bytes. -/
theorem wordsFrom_length : ∀ (n : Nat) (bs : List Byte), (wordsFrom n bs).length = n
  | 0, _ => rfl
  | n + 1, _ => congrArg Nat.succ (wordsFrom_length n _)
theorem wordsFrom_getD : ∀ (n j : Nat) (bs : List Byte), j < n → (wordsFrom n bs).getD j 0 = BitVec.ofNat 32 (leNat ((bs.drop (4 * j)).take 4))
  | n + 1, 0, _, _ => rfl
  | n + 1, j + 1, bs, h => by
    show (wordsFrom n (bs.drop 4)).getD j 0 = _
    rw [wordsFrom_getD n j _ (by omega), List.drop_drop, Nat.mul_succ, Nat.add_comm]

/-- Part of a run of a buffer. -/
theorem readBuf_slice (w : Workgroup) (isA : Bool) {off n i m : Nat} (h : i + m ≤ n) :
    ((w.readBuf isA off n).drop i).take m = w.readBuf isA (off + i) m := by
  refine List.ext_getElem ?_ fun k _ _ => ?_
  · simp [Workgroup.readBuf]
    omega
  · simp [Workgroup.readBuf, Nat.add_assoc]

theorem leNat_word_lt (w : Workgroup) (isA : Bool) (off : Nat) : leNat (w.readBuf isA off 4) < 2 ^ 32 :=
  lt_of_lt_of_eq (leNat_lt _) (by simp [Workgroup.readBuf])

/-- A word of a row as MXLD reads it. -/
theorem wordsFrom_readBuf (w : Workgroup) (off : Nat) {j : Nat} (hj : j < 128) :
    ((wordsFrom 128 (w.readBuf true off 512)).getD j 0).toNat = leNat (w.readBuf true (off + 4 * j) 4) := by
  rw [wordsFrom_getD _ _ _ hj, readBuf_slice w true (by omega), BitVec.toNat_ofNat, Nat.mod_eq_of_lt (leNat_word_lt ..)]

/-! ## The element that MXDRAIN writes (R234) -/

/-- A product with a value that is no NaN rounds as the exact product does. -/
theorem fpMul_of_number (x sc : FVal) (hx : x.isNan = false) : (fpMul .f32 .rne false x sc).1 = match mulVal x sc with
    | some v => (deliverVal .f32 .rne false v).1
    | none => Fmt.nan .f32 := by
  unfold fpMul
  rw [hx, Bool.false_or]
  cases sc with
  | nan q => cases x with
    | nan _ => cases hx
    | inf _ => rfl
    | fin _ _ _ => rfl
  | inf n => cases mulVal x (.inf n) <;> rfl
  | fin n m e => cases mulVal x (.fin n m e) <;> rfl

theorem drainCode_eq {int : Bool} {dfmt scale : Nat} {v : BitVec 32} (h : if int then dfmt ∈ [0, 4, 5] else dfmt ∈ [0, 1, 2, 3]) :
    drainCode int dfmt scale v.toNat = drained int dfmt scale v := by
  unfold drainCode drained
  rw [signed_eq_toInt (by decide)]
  cases int
  · simp only [Bool.false_eq_true, if_false, List.mem_cons, List.not_mem_nil, or_false] at h
    rcases h with rfl | rfl | rfl | rfl <;> rfl
  · simp only [if_true, List.mem_cons, List.not_mem_nil, or_false] at h
    rcases h with rfl | rfl | rfl
    · exact (fpMul_of_number (ofInt v.toInt) (f32v scale) rfl).symm
    · rfl
    · rfl

/-! ## MXE results -/

/-- The MXE operations that write at completion. -/
def writesRows : Instr → Bool
  | .mma _ _ | .mmab _ _ | .mmai _ _ | .mxzero _ _ | .mxdrain _ _ | .mxst _ _ | .mxld _ _ => true
  | _ => false

theorem consume_rows {s : State} {core e : Nat} {c : Cmd} (hop : writesRows c.op = true) (hu : c.unit = .mxe) :
    readSectors s core c = 0 ∧ consumeCmd s core e c = s.setCmd core e (c.consumedWith (mxeOuts s c).1 (mxeOuts s c).2) := by
  unfold writesRows at hop
  split at hop
  case h_8 => cases hop
  all_goals
    rename_i h
    refine ⟨by unfold readSectors Cmd.copy?; rw [h], ?_⟩
    unfold consumeCmd Cmd.copy?
    rw [h]
    dsimp only
    rw [if_pos hu, ← h]
    rfl

/-- An MXE command leaves what `mxeOuts` says of its operation. -/
theorem mxeResult_of {s : State} {core e : Nat} {c : Cmd} {op : Instr} {what : Workgroup → Cmd → Prop} (hop : writesRows op = true)
    (hwhat : ∀ w, c.op = op → s.wg? c.wg = some w → what w (c.consumedWith (mxeOuts s c).1 (mxeOuts s c).2)) : MxeResult s core e c op what := by
  intro w hdue ho hu hw
  obtain ⟨hread, hcons⟩ := consume_rows (s := s) (core := core) (e := e) (ho.symm ▸ hop) hu
  exact does_consume hdue hread hcons ⟨fun _ => rfl, _, State.cmd?_setCmd .., rfl, hwhat w ho hw⟩

section
variable (s : State) (core e : Nat) (c : Cmd) (h : Head)

theorem mxeResult_mma (m : MmaMod) (hl : c.fmts.length = c.f 2) : MxeResult s core e c (.mma h m) (fun w k => WritesTile w c k.outs (fun i j =>
    inOrder (fp8Block c w i j) (c.f 2) (cellOf m w c i j))) :=
  mxeResult_of rfl fun w ho hw => by
    unfold mxeOuts
    rw [hw, ho]
    exact mmaOuts_writes mmaKind m c w fun i j => chainElem_float hl blockStep_fp8 i j _

theorem mxeResult_mmab (m : MmaMod) (hl : c.fmts.length = c.f 2) : MxeResult s core e c (.mmab h m) (fun w k => WritesTile w c k.outs (fun i j =>
    inOrder (bf16Block c w i j) (c.f 2) (cellOf m w c i j))) :=
  mxeResult_of rfl fun w ho hw => by
    unfold mxeOuts
    rw [hw, ho]
    exact mmaOuts_writes mmabKind m c w fun i j => chainElem_float hl blockStep_bf16 i j _

theorem cellOf_lt (m : MmaMod) (c : Cmd) (w : Workgroup) (i j : Nat) : cellOf m w c i j < 2 ^ 32 := by
  unfold cellOf
  split
  · decide
  · exact BitVec.isLt _

theorem mxeResult_mmai (m : MmaMod) (hl : c.fmts.length = c.f 2) : MxeResult s core e c (.mmai h m) (fun w k =>
    WritesTile w c k.outs (fun i j => (inOrder (int8Block c w i j) (c.f 2) (BitVec.ofNat 32 (cellOf m w c i j), false)).1.toNat) ∧
    (k.ovf = true ↔ ∃ i < 16, ∃ j < 128, (inOrder (int8Block c w i j) (c.f 2) (BitVec.ofNat 32 (cellOf m w c i j), false)).2 = true)) :=
  mxeResult_of rfl fun w ho hw => by
    have hchain : ∀ i j, chainElem mmaiKind c.regs.toArray (c.f 2) (blocksList mmaiKind c w) i j (cellOf m w c i j) =
        ((inOrder (int8Block c w i j) (c.f 2) (BitVec.ofNat 32 (cellOf m w c i j), false)).1.toNat,
          (inOrder (int8Block c w i j) (c.f 2) (BitVec.ofNat 32 (cellOf m w c i j), false)).2) := fun i j => by
      rw [← chainElem_int hl i j, BitVec.toNat_ofNat, Nat.mod_eq_of_lt (cellOf_lt m c w i j)]
    unfold mxeOuts
    rw [hw, ho]
    refine ⟨mmaOuts_writes mmaiKind m c w fun i j => congrArg Prod.fst (hchain i j), (mmaOuts_ovf mmaiKind m c w).trans ?_⟩
    simp only [hchain]

theorem mxeResult_mxzero (m : MxfMod) : MxeResult s core e c (.mxzero h m) (fun w k => ∀ i < 16,
    k.outs[i]? = some (.tile c.wg (getD w.tileBind 0 c.tile) i (List.replicate 128 0))) :=
  mxeResult_of rfl fun w ho hw i hi => by
    unfold mxeOuts
    rw [hw, ho]
    exact (List.getElem?_map ..).trans (by rw [List.getElem?_range hi]; rfl)

theorem mxeResult_mxdrain (m : Tile) : MxeResult s core e c (.mxdrain h m) (fun w k => ∀ i < c.f 9, ∃ bs,
    k.outs[i]? = some (.abuf c.wg (c.f 4 + 128 * i * dfmtBytes (c.f 5)) bs) ∧ bs.length = 128 * dfmtBytes (c.f 5) ∧
    ((if getD w.tileInt false c.tile then c.f 5 ∈ [0, 4, 5] else c.f 5 ∈ [0, 1, 2, 3]) →
      ∀ j < 128, leNat ((bs.drop (j * dfmtBytes (c.f 5))).take (dfmtBytes (c.f 5))) =
        drained (getD w.tileInt false c.tile) (c.f 5) (c.f 6) (getD w.tiles 0 (tileKey (getD w.tileBind 0 c.tile) i j)) %
          2 ^ (8 * dfmtBytes (c.f 5)))) :=
  mxeResult_of rfl fun w ho hw i hi => by
    unfold mxeOuts
    rw [hw, ho]
    refine ⟨_, (List.getElem?_map ..).trans (by rw [List.getElem?_range hi]; rfl), ?_, fun hpair j hj => ?_⟩
    · rw [rowBytes_length, List.length_map, Workgroup.tileRow, List.length_map, List.length_range, Nat.mul_comm]
    · rw [Nat.mul_comm j, leNat_rowBytes _ (by simpa [Workgroup.tileRow] using hj), List.getD_eq_getElem?_getD, List.getElem?_map,
        tileRow_getElem w _ i j hj]
      exact congrArg (· % _) (drainCode_eq hpair)

theorem mxeResult_mxst (m : Tile) : MxeResult s core e c (.mxst h m) (fun w k => ∀ i < c.f 9, ∃ bs,
    k.outs[i]? = some (.abuf c.wg (c.f 4 + 512 * i) bs) ∧ bs.length = 512 ∧
    ∀ j < 128, leNat ((bs.drop (4 * j)).take 4) = (getD w.tiles 0 (tileKey (getD w.tileBind 0 c.tile) i j)).toNat) :=
  mxeResult_of rfl fun w ho hw i hi => by
    unfold mxeOuts
    rw [hw, ho]
    refine ⟨_, (List.getElem?_map ..).trans (by rw [List.getElem?_range hi]; rfl), ?_, fun j hj => ?_⟩
    · rw [rowBytes_length, List.length_map, Workgroup.tileRow, List.length_map, List.length_range]
    · rw [leNat_rowBytes _ (by simpa [Workgroup.tileRow] using hj), List.getD_eq_getElem?_getD, List.getElem?_map, tileRow_getElem w _ i j hj]
      exact Nat.mod_eq_of_lt (BitVec.isLt _)

end

section
variable (s : State) (core e : Nat) (c : Cmd) (h : Head)

/-- The first `k` places of a list of places. -/
theorem range_filterMap_lt {α : Type} (f : Nat → α) (n k : Nat) :
    (List.range n).filterMap (fun i => if i < k then some (f i) else none) = (List.range (min n k)).map f := by
  obtain ⟨d, hd⟩ := Nat.exists_eq_add_of_le (Nat.min_le_left n k)
  have hlow : (List.range (min n k)).filterMap (fun i => if i < k then some (f i) else none) = (List.range (min n k)).map f := by
    rw [← List.filterMap_eq_map]
    refine List.filterMap_congr fun i hi => if_pos ?_
    have := List.mem_range.mp hi
    omega
  have hhigh : ((List.range d).map (min n k + ·)).filterMap (fun i => if i < k then some (f i) else none) = [] := by
    refine List.filterMap_eq_nil_iff.mpr fun i hi => ?_
    obtain ⟨j, hj, rfl⟩ := List.mem_map.mp hi
    have := List.mem_range.mp hj
    have hout : ¬ min n k + j < k := by omega
    exact if_neg hout
  rw [(congrArg List.range hd).trans List.range_add, List.filterMap_append, hlow, hhigh, List.append_nil]

/-- The rows that MXLD writes: those that it reads, and under `.fresh` zeros in the others. -/
def loadedRow (m : MxfMod) (c : Cmd) (w : Workgroup) (i : Nat) : Option CmdWrite :=
  if i < c.f 9 then some (.tile c.wg (getD w.tileBind 0 c.tile) i (wordsFrom 128 (w.readBuf true (c.f 4 + 512 * i) 512)))
  else if m.fresh then some (.tile c.wg (getD w.tileBind 0 c.tile) i (List.replicate 128 0)) else none

theorem loadedRows_fresh {m : MxfMod} {w : Workgroup} (hm : m.fresh = true) {i : Nat} (hi : i < 16) :
    ((List.range 16).filterMap (loadedRow m c w))[i]? = loadedRow m c w i := by
  have hsome : ∀ i, loadedRow m c w i = some ((loadedRow m c w i).getD (.limb 0 0 0)) := fun i => by
    unfold loadedRow
    rw [hm]
    split <;> rfl
  rw [show loadedRow m c w = fun i => some ((loadedRow m c w i).getD (.limb 0 0 0)) from funext hsome, List.filterMap_eq_map',
    List.getElem?_map, List.getElem?_range hi]
  rfl

theorem loadedRows_kept {m : MxfMod} {w : Workgroup} (hm : m.fresh = false) : (List.range 16).filterMap (loadedRow m c w) =
    (List.range (min 16 (c.f 9))).map (fun i =>
      .tile c.wg (getD w.tileBind 0 c.tile) i (wordsFrom 128 (w.readBuf true (c.f 4 + 512 * i) 512))) := by
  have hrow : loadedRow m c w = fun i => if i < c.f 9 then
      some (.tile c.wg (getD w.tileBind 0 c.tile) i (wordsFrom 128 (w.readBuf true (c.f 4 + 512 * i) 512))) else none := by
    unfold loadedRow
    rw [hm]
    rfl
  rw [hrow]
  exact range_filterMap_lt _ 16 (c.f 9)

theorem mxeResult_mxld (m : MxfMod) : MxeResult s core e c (.mxld h m) (fun w k =>
    (∀ i < min 16 (c.f 9), ∃ l, k.outs[i]? = some (.tile c.wg (getD w.tileBind 0 c.tile) i l) ∧
      l.length = 128 ∧ ∀ j < 128, (l.getD j 0).toNat = leNat (w.readBuf true (c.f 4 + 512 * i + 4 * j) 4)) ∧
    (m.fresh = true → ∀ i < 16, c.f 9 ≤ i → k.outs[i]? = some (.tile c.wg (getD w.tileBind 0 c.tile) i (List.replicate 128 0))) ∧
    (m.fresh = false → k.outs.length = min 16 (c.f 9))) :=
  mxeResult_of rfl fun w ho hw => by
    have houts : (mxeOuts s c).1 = (List.range 16).filterMap (loadedRow m c w) := by
      unfold mxeOuts
      rw [hw, ho]
      rfl
    have hread : ∀ i < min 16 (c.f 9), (mxeOuts s c).1[i]? =
        some (.tile c.wg (getD w.tileBind 0 c.tile) i (wordsFrom 128 (w.readBuf true (c.f 4 + 512 * i) 512))) := by
      intro i hi
      rw [houts]
      cases hm : m.fresh
      · rw [loadedRows_kept c hm, List.getElem?_map, List.getElem?_range hi]
        rfl
      · rw [loadedRows_fresh c hm (by omega)]
        exact if_pos (by omega)
    refine ⟨fun i hi => ⟨_, hread i hi, wordsFrom_length .., fun j hj => wordsFrom_readBuf w _ hj⟩, fun hm i hi hle => ?_, fun hm => ?_⟩
    · show (mxeOuts s c).1[i]? = _
      rw [houts, loadedRows_fresh c hm hi, loadedRow, if_neg (by omega), if_pos hm]
    · show (mxeOuts s c).1.length = _
      rw [houts, loadedRows_kept c hm, List.length_map, List.length_range]

end

/-! ## Contributions to a round (R237, R442) -/

theorem flatMap_rows_length {α : Type} {f : Nat → List α} (hf : ∀ i, (f i).length = 128) (n : Nat) :
    ((List.range n).flatMap f).length = 128 * n := by
  induction n with
  | zero => rfl
  | succ n ih => rw [List.range_succ, List.flatMap_append, List.length_append, ih, List.flatMap_singleton, hf, Nat.mul_succ]

/-- An element of rows one behind the other. -/
theorem flatMap_rows_getD {α : Type} {f : Nat → List α} (hf : ∀ i, (f i).length = 128) (d : α) {n i j : Nat} (hi : i < n) (hj : j < 128) :
    ((List.range n).flatMap f).getD (128 * i + j) d = (f i).getD j d := by
  induction n with
  | zero => omega
  | succ n ih =>
    rw [List.range_succ, List.flatMap_append, List.flatMap_singleton]
    by_cases hin : i < n
    · rw [List.getD_append _ _ _ _ (by rw [flatMap_rows_length hf]; omega), ih hin]
    · obtain rfl : i = n := by omega
      rw [List.getD_append_right _ _ _ _ (by rw [flatMap_rows_length hf]; omega), flatMap_rows_length hf, Nat.add_sub_cancel_left]

/-- The round of a group and ROFF. -/
def isRound (part g roff : Nat) (r : Round) : Bool := r.part == part && r.group == g && r.roff == roff
theorem isRound_iff {part g roff : Nat} {r : Round} : isRound part g roff r = true ↔ r.part = part ∧ r.group = g ∧ r.roff = roff := by
  simp [isRound, and_assoc]

/-- A round with one contribution more. -/
def Round.joined (k : Contrib) (r : Round) : Round := { r with contribs := r.contribs ++ [k] }

/-- Rounds once a contribution has joined its own, which it opens if it is the first. -/
def joinRounds (part g roff : Nat) (k : Contrib) (l : List Round) : List Round :=
  if l.any (isRound part g roff) then l.map (fun r => if isRound part g roff r then r.joined k else r)
  else l ++ [⟨part, g, roff, [k], 0⟩]

/-- The contribution of an MXRED (R237). -/
def contribOf (s : State) (c : Cmd) (w : Workgroup) (m : Nat) : Contrib :=
  ⟨m, c.sid, c.wg, coreOf c.sid, c.num, (List.range (redRows s c)).flatMap (fun i => w.tileRow (getD w.tileBind 0 c.tile) i)⟩

section
variable {s : State} {core e : Nat} {c : Cmd} {w : Workgroup} {sh : Sheet} {m : Nat}

theorem contribute_eq (hsh : s.sheet? c.sid = some sh) (hw : s.wg? c.wg = some w) (hm : redMember s c = some m) :
    contribute s c = { s with rounds := joinRounds (s.partOf sh) (c.f 7) (c.f 8) (contribOf s c w m) s.rounds } := by
  have hround : ∀ r, (if isRound (s.partOf sh) (c.f 7) (c.f 8) r then r.joined (contribOf s c w m) else r) =
      if r.part = s.partOf sh ∧ r.group = c.f 7 ∧ r.roff = c.f 8 then r.joined (contribOf s c w m) else r := fun r =>
    if_congr isRound_iff rfl rfl
  unfold contribute joinRounds
  rw [hsh, hw, hm]
  simp only [hround]
  exact (apply_ite (fun l => ({ s with rounds := l } : State)) _ _ _).symm

/-- The contribution stands last in its round. -/
theorem contribute_round (hsh : s.sheet? c.sid = some sh) (hw : s.wg? c.wg = some w) (hm : redMember s c = some m) :
    ∃ r, getRound (contribute s c) (s.partOf sh) (c.f 7) (c.f 8) = some r ∧
      r.contribs = ((getRound s (s.partOf sh) (c.f 7) (c.f 8)).map (·.contribs)).getD [] ++ [contribOf s c w m] := by
  have hget : ∀ t : State, getRound t (s.partOf sh) (c.f 7) (c.f 8) = t.rounds.find? (isRound (s.partOf sh) (c.f 7) (c.f 8)) := fun _ => rfl
  rw [contribute_eq hsh hw hm, hget, hget]
  unfold joinRounds
  dsimp only
  split
  · rename_i hany
    obtain ⟨r, hr⟩ := Option.isSome_iff_exists.mp (List.find?_isSome.mpr (List.any_eq_true.mp hany))
    have hkeep : isRound (s.partOf sh) (c.f 7) (c.f 8) ∘ (fun r =>
        if isRound (s.partOf sh) (c.f 7) (c.f 8) r then r.joined (contribOf s c w m) else r) = isRound (s.partOf sh) (c.f 7) (c.f 8) := by
      funext r
      show isRound _ _ _ (if _ then _ else _) = _
      split <;> rfl
    rw [List.find?_map, hkeep, hr, Option.map_some, if_pos (List.find?_some hr)]
    exact ⟨_, rfl, rfl⟩
  · rename_i hany
    have hnone : s.rounds.find? (isRound (s.partOf sh) (c.f 7) (c.f 8)) = none :=
      List.find?_eq_none.mpr fun r hr hp => hany (List.any_eq_true.mpr ⟨r, hr, hp⟩)
    rw [List.find?_append, hnone, Option.none_or, List.find?_singleton]
    exact ⟨_, if_pos (isRound_iff.mpr ⟨rfl, rfl, rfl⟩), rfl⟩

theorem contribute_mem : (contribute s c).mem = s.mem := by
  unfold contribute
  split
  · dsimp only
    split <;> rfl
  · rfl

end

theorem contributes_mxred (s : State) (core e : Nat) (c : Cmd) (h : Head) (d : Tile) : Contributes s core e c (.mxred h d) := by
  intro w sh g m hdue hpaid ho hw hsh hg hm
  have hmember : redMember s c = some m := by unfold redMember; rw [hsh]; dsimp only; rw [hg]; exact hm
  have hrows : redRows s c = Group.rows g := by unfold redRows; rw [hsh]; dsimp only; rw [hg]
  have hcons : consumeCmd s core e c = (contribute s c).setCmd core e (c.consumedWith c.outs c.ovf) := by
    unfold consumeCmd
    rw [ho]
    dsimp only
    rw [← ho]
    rfl
  obtain ⟨r, hr, hcontribs⟩ := contribute_round hsh hw hmember
  have hrow : ∀ i, (w.tileRow (getD w.tileBind 0 c.tile) i).length = 128 := fun i => by simp [Workgroup.tileRow]
  refine ⟨_, (exec_consumed hdue hpaid).trans (congrArg _ hcons), sameMemory_of_mem contribute_mem, ⟨_, State.cmd?_setCmd .., rfl, rfl⟩,
    r, _, hr, hcontribs, rfl, rfl, rfl, rfl, ?_, fun i hi j hj => ?_⟩
  · exact (flatMap_rows_length hrow _).trans (congrArg _ hrows)
  · refine (flatMap_rows_getD hrow 0 (hrows ▸ hi) hj).trans ?_
    rw [List.getD_eq_getElem?_getD, tileRow_getElem w _ i j hj]
    rfl

end Sys2Proof.Machine
end

section
/-! What a copy moves (R249, R398): its reads leave memory and the translations of its core as they are, so that each element is read and put
as the first one is. -/

namespace Sys2Proof.Machine

/-! ## Bytes by place (R249) -/

/-- A byte of the little-endian bytes of a number. -/
theorem leBytes_getElem? : ∀ (k n b : Nat), b < k → (leBytes k n)[b]? = some (BitVec.ofNat 8 (n / 2 ^ (8 * b)))
  | k + 1, n, 0, _ => by simp [leBytes]
  | k + 1, n, b + 1, h => by
    show (leBytes k (n / 256))[b]? = _
    rw [leBytes_getElem? k _ b (by omega), Nat.div_div_eq_div_mul, Nat.mul_succ, Nat.pow_add, Nat.mul_comm]

theorem leBytes_leNat (bs : List Byte) : leBytes bs.length (leNat bs) = bs := by
  induction bs with
  | nil => rfl
  | cons b bs ih =>
    have hb := b.isLt
    have hdiv : (b.toNat + 256 * leNat bs) / 256 = leNat bs := by omega
    have hmod : BitVec.ofNat 8 (b.toNat + 256 * leNat bs) = b := BitVec.eq_of_toNat_eq (by rw [BitVec.toNat_ofNat]; omega)
    show BitVec.ofNat 8 (b.toNat + 256 * leNat bs) :: leBytes bs.length ((b.toNat + 256 * leNat bs) / 256) = _
    rw [hdiv, hmod, ih]

/-- The bytes of a number that lie below a bound do not see what the bound cuts off. -/
theorem ofNat_mod_div (f : Nat) {b z : Nat} (h : b < z) : BitVec.ofNat 8 (f % 2 ^ (8 * z) / 2 ^ (8 * b)) = BitVec.ofNat 8 (f / 2 ^ (8 * b)) := by
  obtain ⟨d, rfl⟩ := Nat.exists_eq_add_of_lt h
  have hpow : 2 ^ (8 * (b + d + 1)) = 2 ^ (8 * b) * 2 ^ (8 * d + 8) := by rw [← Nat.pow_add]; congr 1; omega
  apply BitVec.eq_of_toNat_eq
  rw [BitVec.toNat_ofNat, BitVec.toNat_ofNat, hpow, Nat.mod_mul_right_div_self, Nat.mod_mod_of_dvd _ (Nat.pow_dvd_pow 2 (by omega))]

/-- Bytes put at a run of places. -/
theorem lookup_putRun : ∀ (bs : List Byte) (p : Nat) (m : SMap Byte) (q : Nat),
    lookup (((List.range' p bs.length).zip bs).foldl (fun m (e : Nat × Byte) => put m e.1 e.2) m) q =
      if p ≤ q ∧ q < p + bs.length then bs[q - p]? else lookup m q
  | [], p, m, q => by
    rw [if_neg (by simp)]
    rfl
  | b :: bs, p, m, q => by
    rw [List.length_cons, List.range'_succ, List.zip_cons_cons, List.foldl_cons, lookup_putRun bs (p + 1)]
    by_cases hq : q = p
    · subst hq
      rw [if_neg (by omega), if_pos (by omega), lookup_put_self, Nat.sub_self]
      rfl
    · rw [lookup_put_ne _ _ _ _ hq]
      by_cases hin : p + 1 ≤ q ∧ q < p + 1 + bs.length
      · rw [if_pos hin, if_pos (by omega), show q - p = q - (p + 1) + 1 by omega, List.getElem?_cons_succ]
      · rw [if_neg hin, if_neg (by omega)]

/-- The byte that a run has at a place. -/
def runByte (e : Nat × List Byte) (p : Nat) : Option Byte := if e.1 ≤ p then e.2[p - e.1]? else none

theorem runByte_nil (q p : Nat) : runByte (q, []) p = none := by simp [runByte]
theorem runByte_cons (q : Nat) (b : Byte) (bs : List Byte) (p : Nat) : runByte (q, b :: bs) p = if q = p then some b else runByte (q + 1, bs) p := by
  unfold runByte
  by_cases hq : q = p
  · subst hq
    simp
  · rw [if_neg hq]
    by_cases hle : q ≤ p
    · rw [if_pos hle, if_pos (show q + 1 ≤ p by omega), show p - q = p - (q + 1) + 1 by omega, List.getElem?_cons_succ]
    · rw [if_neg hle, if_neg (show ¬ q + 1 ≤ p by omega)]

/-- Runs of consecutive places hold what the places hold. -/
theorem runsOf_byte : ∀ (m : SMap Byte) (p : Nat), (runsOf m).findSome? (runByte · p) = lookup m p
  | [], _ => rfl
  | (q, b) :: m, p => by
    have ih := runsOf_byte m p
    have hfirst (r : List (Nat × List Byte)) (bs : List Byte) (h : ((q + 1, bs) :: r).findSome? (runByte · p) = lookup m p) :
        ((q, b :: bs) :: r).findSome? (runByte · p) = lookup ((q, b) :: m) p := by
      rw [List.findSome?_cons, runByte_cons]
      unfold lookup
      by_cases hq : q = p
      · rw [if_pos hq, if_pos hq]
      · rw [if_neg hq, if_neg hq, ← h, List.findSome?_cons]
    have halone (r : List (Nat × List Byte)) (h : r.findSome? (runByte · p) = lookup m p) :
        ((q, [b]) :: r).findSome? (runByte · p) = lookup ((q, b) :: m) p :=
      hfirst r [] (by rw [List.findSome?_cons, runByte_nil]; exact h)
    unfold runsOf
    cases hm : runsOf m with
    | nil => exact halone [] (hm ▸ ih)
    | cons e t =>
      obtain ⟨q', bs⟩ := e
      rw [hm] at ih
      dsimp only
      split
      · rename_i hq
        exact hfirst t bs (hq ▸ ih)
      · exact halone _ ih

/-- The byte that the writes of a copy put at a place of its destination. -/
theorem outByte_putWrites {c : CopyShape} (hs : c.dstSpace ≠ .pa) (wg : Nat) (m : SMap Byte) (p : Nat) :
    outByte (putWrites c wg m) c.dstSpace wg p = lookup m p := by
  rw [← runsOf_byte m p]
  unfold outByte putWrites
  rw [List.findSome?_map]
  refine congrArg (List.findSome? · _) (funext fun e => ?_)
  show (match runWrite c wg e.1 e.2 with
    | .glob a bs => if c.dstSpace = .g ∧ a ≤ p then bs[p - a]? else none
    | .abuf g a bs => if c.dstSpace = .a ∧ g = wg ∧ a ≤ p then bs[p - a]? else none
    | .wbuf g a bs => if c.dstSpace = .w ∧ g = wg ∧ a ≤ p then bs[p - a]? else none
    | _ => none) = runByte e p
  unfold runWrite runByte
  cases hd : c.dstSpace
  · simp
  · simp
  · simp
  · exact absurd hd hs

/-! ## What a copy's reads leave (R217, R249) -/

/-- What a copy's reads leave as it was: memory, workgroups and sheets, and what its core's translations rest on. -/
structure CopyKept (core : Nat) (s t : State) : Prop where
  mem : t.mem = s.mem
  wgs : t.wgs = s.wgs
  sheets : t.sheets = s.sheets
  homeq : t.homeq = s.homeq
  poisoned : t.poisoned = s.poisoned
  hpcap : t.hpcap = s.hpcap
  routes : t.routes = s.routes
  linksDown : t.linksDown = s.linksDown
  tlb : (t.core core).tlb = (s.core core).tlb

section
variable {core : Nat} {s t u : State}

theorem CopyKept.refl (core : Nat) (s : State) : CopyKept core s s := ⟨rfl, rfl, rfl, rfl, rfl, rfl, rfl, rfl, rfl⟩
theorem CopyKept.trans (h : CopyKept core s t) (k : CopyKept core t u) : CopyKept core s u where
  mem := k.mem.trans h.mem
  wgs := k.wgs.trans h.wgs
  sheets := k.sheets.trans h.sheets
  homeq := k.homeq.trans h.homeq
  poisoned := k.poisoned.trans h.poisoned
  hpcap := k.hpcap.trans h.hpcap
  routes := k.routes.trans h.routes
  linksDown := k.linksDown.trans h.linksDown
  tlb := k.tlb.trans h.tlb

theorem CopyKept.wg? (h : CopyKept core s t) (g : Nat) : t.wg? g = s.wg? g := wg?_of_wgs h.wgs g
theorem CopyKept.readByte (h : CopyKept core s t) (a : Nat) : t.readByte a = s.readByte a := sameMemory_of_mem h.mem a

theorem engineRead_kept (h : s.homeq = []) (x : Asker) (pa n : Nat) : CopyKept core s (engineRead s x pa n) := by
  obtain ⟨l, hl⟩ := (l2Touch_l1sOnly s x false pa n).core core
  obtain ⟨p, a, hev⟩ := asker_event_only x (l2Touch s x false pa n) 7 (sectorsOf pa n).length
  have hcores : (x.event (l2Touch s x false pa n) 7 (sectorsOf pa n).length).core core = (l2Touch s x false pa n).core core := by
    rw [hev]
    rfl
  unfold engineRead
  rw [reachHome_none _ _ _ h, l2Use]
  refine ⟨?_, ?_, ?_, ?_, ?_, ?_, ?_, ?_, by rw [hcores, hl]⟩
  all_goals rw [hev, l2Touch_only s x false pa n]

theorem engineReads_kept (x : Asker) : ∀ (l : List Nat) (s : State), s.homeq = [] →
    CopyKept core s (l.foldl (fun s q => engineRead s x (32 * q) 32) s)
  | [], _, _ => .refl ..
  | q :: l, _, h =>
    have hq := engineRead_kept h x (32 * q) 32
    hq.trans (engineReads_kept x l _ (hq.homeq.trans h))

/-- A translation that the core's cache holds is the same behind a copy's reads. -/
theorem CopyKept.translate (h : CopyKept core s t) {vf : Nat} {va : W64} (acc : AccKindT)
    (hit : (lookup (s.core core).tlb (tlbKey vf va.toNat)).isSome) : translate t core vf va acc = translate s core vf va acc := by
  obtain ⟨l, hl⟩ := Option.isSome_iff_exists.mp hit
  have hs : findLeaf s core vf va.toNat = .ok l := by unfold findLeaf; rw [hl]
  have ht : findLeaf t core vf va.toNat = .ok l := by unfold findLeaf; rw [h.tlb, hl]
  unfold Machine.translate coherentOk noRoute routed
  rw [hs, ht, h.hpcap, h.routes, h.linksDown]

theorem Steady.here {α : Type} {f : State → α} {r : α} (h : Steady f s r) : f s = r := h s.freeCtr

end

/-! ## The places of an element (R250) -/

/-- A run within one page is one piece. -/
theorem pageCuts_within {va n : Nat} (hn : 0 < n) (h : va % 4096 + n ≤ 4096) : pageCuts 2 va n = [(va, n)] := by
  unfold pageCuts
  dsimp only
  rw [if_neg (by omega), if_pos (by omega)]

section
variable {s t : State} {core vf : Nat} {space : Space} {size : Nat} {acc : AccKindT} {a : Int} {n p : Nat}

/-- An address of global memory that a place names. -/
theorem PlaceAt.address (h : PlaceAt s core vf .g size acc a n p) (hn : 0 < n) :
    (a % (2 ^ 64 : Nat)).toNat = a.toNat ∧ a.toNat < 2 ^ 48 := by
  obtain ⟨hpos, hg⟩ := h
  rw [if_pos rfl] at hg
  obtain ⟨htop, -⟩ := hg
  have hlt : a.toNat < 2 ^ 48 := by omega
  refine ⟨?_, hlt⟩
  rw [Int.emod_eq_of_lt hpos (by omega)]

/-- The page of a place is in the core's cache, so that its lookup changes nothing but the copy's own list. -/
theorem copyLook_place {e : CopyEnv} {r : CopyRun} (hx : e.x.core = core) (hvf : e.vf = vf) (hk : CopyKept core s r.s) (hn : 0 < n)
    (h : PlaceAt s core vf space size acc a n p) : ∃ l, copyLook e space a n r = { r with pages := l } := by
  unfold copyLook
  by_cases hg : space = .g
  · subst hg
    obtain ⟨ha, htop⟩ := h.address hn
    obtain ⟨-, hg⟩ := h
    rw [if_pos rfl] at hg
    obtain ⟨-, hpage, hit, -⟩ := hg
    have hkey : tlbKey vf (a.toNat / 4096 * 4096) = tlbKey vf a.toNat := by unfold tlbKey; omega
    have hlook : lookPage r.s vf core e.x.sid e.x.slot (a.toNat / 4096 * 4096) = r.s := by
      unfold lookPage
      rw [hkey, hk.tlb]
      exact if_pos (.inr hit)
    rw [if_pos rfl, ha, pageCuts_within hn hpage, hx, hvf]
    simp only [List.map_cons, List.map_nil, List.filter_cons, List.filter_nil]
    split
    · exact ⟨_, by rw [List.foldl_cons, List.foldl_nil, hlook]⟩
    · exact ⟨_, by rw [List.foldl_nil]⟩
  · rw [if_neg hg]
    exact ⟨_, rfl⟩

/-- The places of an element are those that the statement names. -/
theorem copyPlaces_place (hk : CopyKept core s t) (hn : 0 < n) (hs : space ≠ .pa) (h : PlaceAt s core vf space size acc a n p) :
    ∃ mt, copyPlaces t core vf space size acc a n = .ok (List.range' p n, mt) := by
  rw [List.range'_eq_map_range]
  by_cases hg : space = .g
  · subst hg
    obtain ⟨ha, htop⟩ := h.address hn
    obtain ⟨-, hg⟩ := h
    rw [if_pos rfl] at hg
    obtain ⟨-, hpage, hit, ⟨mt, hsteady⟩, hpoison⟩ := hg
    have hva : (BitVec.ofNat 64 a.toNat).toNat = a.toNat := by rw [BitVec.toNat_ofNat]; omega
    have htrans : translate t core vf (w64 a.toNat) acc = .ok ⟨p, mt⟩ :=
      (hk.translate acc (by rw [w64, hva]; exact hit)).trans hsteady.here
    have hclean : poisonOf t [(p, n)] = [] := by
      unfold poisonOf
      rw [hk.poisoned]
      exact List.filter_eq_nil_iff.mpr fun q hq => by simp [hpoison q hq]
    refine ⟨mt, ?_⟩
    unfold copyPlaces
    dsimp only
    rw [ha, if_neg (by omega), pageCuts_within hn hpage]
    unfold translateRun
    rw [htrans]
    simp only [translateRun, hclean, ne_eq, not_true_eq_false, and_false, if_false, List.flatMap_cons, List.flatMap_nil, List.append_nil]
  · obtain ⟨hpos, hb⟩ := h
    rw [if_neg hg] at hb
    obtain ⟨hend, rfl⟩ := hb
    have hin : ¬ (a < 0 ∨ (size : Int) < a + n) := by omega
    refine ⟨0, ?_⟩
    cases space
    · exact absurd rfl hg
    · exact if_neg hin
    · exact if_neg hin
    · exact absurd rfl hs

end

/-! ## The bytes of an element (R217, R249) -/

/-- A copy under way has read only, from `s` on, and put the bytes `m` so far. -/
structure RunHas (core : Nat) (s : State) (m : SMap Byte) (r : CopyRun) : Prop where
  kept : CopyKept core s r.s
  put : r.put = m

section
variable {core : Nat} {s : State} {m : SMap Byte} {r : CopyRun} {c : CopyShape} {e : CopyEnv} {w : Workgroup}

theorem copyRead_bytes (hr : RunHas core s m r) (hq : s.homeq = []) (hscope : c.scope ≠ .wg) (mt : Nat) (ps : List Nat) :
    ∃ r', copyRead c e mt r ps = (ps.map s.readByte, r') ∧ RunHas core s m r' := by
  have hreads := engineReads_kept (core := core) e.x ((ps.map (· / 32)).dedup.filter (fun q => !r.got.contains q)) r.s (hr.kept.homeq.trans hq)
  have hkept : CopyKept core s (if mt = 2 then r.s else ((ps.map (· / 32)).dedup.filter (fun q => !r.got.contains q)).foldl
      (fun s q => engineRead s e.x (32 * q) 32) r.s) := by
    split
    · exact hr.kept
    · exact hr.kept.trans hreads
  unfold copyRead
  rw [if_neg (fun h => hscope h.1)]
  exact ⟨_, Prod.ext (List.map_congr_left fun a _ => hkept.readByte a) rfl, hkept, hr.put⟩

/-- A byte of a buffer, read alone. -/
theorem readBuf_byte (w : Workgroup) (isA : Bool) (p : Nat) : (w.readBuf isA p 1).getD 0 0 = getD (if isA then w.abuf else w.wbuf) 0 p := rfl

theorem copyByte_source (hr : RunHas core s m r) (hq : s.homeq = []) (hscope : c.scope ≠ .wg) (hs : c.srcSpace ≠ .pa)
    (hw : s.wg? e.wg = some w) {p : Nat} (hfree : c.srcSpace = c.dstSpace → lookup m p = none) (mt k : Nat) :
    ∃ r', copyByte c e mt r p k = (spaceByte s w c.srcSpace p, r') ∧ RunHas core s m r' := by
  have hold : ∃ r', (if c.srcSpace = .g then
      let (b, r) := copyRead c e mt r [p]
      (b.getD 0 0, r)
    else (((r.s.wg? e.wg).map (fun w => (w.readBuf (c.srcSpace == .a) p 1).getD 0 0)).getD 0, r) : Byte × CopyRun) =
      (spaceByte s w c.srcSpace p, r') ∧ RunHas core s m r' := by
    unfold spaceByte
    by_cases hg : c.srcSpace = .g
    · obtain ⟨r', hread, hr'⟩ := copyRead_bytes (e := e) hr hq hscope mt [p]
      rw [if_pos hg, if_pos hg, hread]
      exact ⟨r', rfl, hr'⟩
    · rw [if_neg hg, if_neg hg, hr.kept.wg?, hw, Option.map_some, Option.getD_some, readBuf_byte]
      refine ⟨r, ?_, hr⟩
      cases hsp : c.srcSpace
      · exact absurd hsp hg
      · rfl
      · rfl
      · exact absurd hsp hs
  obtain ⟨r', hold, hr'⟩ := hold
  refine ⟨r', ?_, hr'⟩
  unfold copyByte
  rw [hold]
  dsimp only
  rw [hr'.put]
  cases hl : lookup m p with
  | none => rfl
  | some new => exact if_neg fun h => by rw [hfree h.1] at hl; cases hl

theorem copyBytes_source (hq : s.homeq = []) (hscope : c.scope ≠ .wg) (hs : c.srcSpace ≠ .pa) (hw : s.wg? e.wg = some w) (mt : Nat) :
    ∀ (ps : List Nat) (k : Nat) (r : CopyRun), RunHas core s m r → (c.srcSpace = c.dstSpace → ∀ p ∈ ps, lookup m p = none) →
      ∃ r', copyBytes c e mt k ps r = (ps.map (spaceByte s w c.srcSpace), r') ∧ RunHas core s m r'
  | [], _, r, hr, _ => ⟨r, rfl, hr⟩
  | p :: ps, k, r, hr, hfree => by
    obtain ⟨r1, hb, hr1⟩ := copyByte_source hr hq hscope hs hw (fun h => hfree h p List.mem_cons_self) mt k
    obtain ⟨r2, hbs, hr2⟩ := copyBytes_source hq hscope hs hw mt ps (k + 1) r1 hr1 (fun h q hmem => hfree h q (List.mem_cons_of_mem _ hmem))
    refine ⟨r2, ?_, hr2⟩
    unfold copyBytes
    rw [hb]
    dsimp only
    rw [hbs]
    rfl

end

/-! ## One element (R249, R398) -/

/-- The byte place, the bit within it and the bytes of an element of whole bytes. -/
theorem bitPlace (a d : Int) {z : Nat} (hz : 0 < z) : (8 * a + d * ((8 * z : Nat) : Int)) / 8 = a + d * z ∧
    ((8 * a + d * ((8 * z : Nat) : Int)) % 8).toNat = 0 ∧
    ((8 * a + d * ((8 * z : Nat) : Int) + ((8 * z : Nat) : Int) - 1) / 8 - (8 * a + d * ((8 * z : Nat) : Int)) / 8 + 1).toNat = z := by
  have hmul : d * ((8 * z : Nat) : Int) = 8 * (d * z) := by push_cast; ring
  rw [hmul]
  generalize d * (z : Int) = x
  omega

/-- Bytes of an element. -/
def CopyShape.size (k : CopyShape) : Nat := 2 ^ k.w 5
theorem CopyShape.size_pos (k : CopyShape) : 0 < k.size := Nat.two_pow_pos _

theorem CopyShape.bits_of_plain {k : CopyShape} (hconv : k.conv = none) (hz : k.w 5 ≤ 4) : k.srcBits = 8 * k.size ∧ k.dstBits = 8 * k.size := by
  have he : k.esize = k.w 5 := Nat.min_eq_left (by omega)
  unfold CopyShape.srcBits CopyShape.dstBits CopyShape.size
  rw [hconv, he]
  exact ⟨rfl, rfl⟩

theorem CopyShape.counts_length (k : CopyShape) : k.counts.length = 6 := by simp [CopyShape.counts]
theorem CopyShape.total_eq_prod (k : CopyShape) : k.total = k.counts.prod := by
  unfold CopyShape.total
  rw [List.prod_eq_foldl]

/-- The loop indices of an iteration. -/
theorem unravel_getD : ∀ (l : List Nat) (n j : Nat), (∀ x ∈ l, 0 < x) → j < l.length →
    (unravel l n).getD j 0 = n / (l.take j).prod % l.getD j 0
  | a :: l, n, 0, hpos, _ => by
    have ha := hpos a List.mem_cons_self
    show n % max a 1 = n / 1 % a
    rw [Nat.max_eq_left ha, Nat.div_one]
  | a :: l, n, j + 1, hpos, hj => by
    have ha := hpos a List.mem_cons_self
    show (unravel l (n / max a 1)).getD j 0 = n / (a * (l.take j).prod) % l.getD j 0
    rw [unravel_getD l _ j (fun x hx => hpos x (List.mem_cons_of_mem _ hx)) (by simpa using hj), Nat.max_eq_left ha, Nat.div_div_eq_div_mul]

theorem unravel_loopAt {k : CopyShape} {n j : Nat} (hn : n < k.total) (hj : j < 6) : (unravel k.counts n).getD j 0 = loopAt k n j := by
  have hpos : ∀ x ∈ k.counts, 0 < x := fun x hx => by
    refine Nat.pos_of_ne_zero fun h0 => ?_
    rw [k.total_eq_prod, List.prod_eq_zero (h0 ▸ hx)] at hn
    exact absurd hn (Nat.not_lt_zero n)
  rw [unravel_getD _ _ _ hpos (by rw [k.counts_length]; exact hj)]
  unfold CopyShape.counts loopAt
  rw [← List.map_take, List.take_range, Nat.min_eq_left hj.le]
  simp [List.getD_eq_getElem?_getD, hj]

/-! ## A copy whose places are known -/

/-- A byte that a copy moves, of an element whose source is at `p`, and the bytes of the element. -/
def movedByte (s : State) (w : Workgroup) (k : CopyShape) (p b : Nat) : Byte :=
  if k.kind = .fill then BitVec.ofNat 8 (k.fillVal / 2 ^ (8 * b)) else spaceByte s w k.srcSpace (p + b)
def movedBytes (s : State) (w : Workgroup) (k : CopyShape) (p : Nat) : List Byte := (List.range k.size).map (movedByte s w k p)

/-- A copy without conversion whose places are known: those of its indices, its sources and its destinations, no destination twice and
none of them a source. -/
structure CopySites (s : State) (core : Nat) (c : Cmd) (k : CopyShape) (w : Workgroup) (sh : Sheet) (sp dp : Nat → Nat) (x : Nat → Int)
    (ip : Nat → Nat) : Prop where
  conv : k.conv = none
  width : k.w 5 ≤ 4
  scope : k.scope ≠ .wg
  dst : k.dstSpace ≠ .pa
  src : k.srcSpace ≠ .pa
  quiet : s.homeq = []
  wg : s.wg? c.wg = some w
  home : sh.wg = c.wg
  index : ∀ n < k.total, k.indexed = true →
    PlaceAt s core (s.vfOf sh) .g 0 .engine (k.idx + indexNo k n * k.idxBytes) k.idxBytes (ip n) ∧
      x n = signed (8 * k.idxBytes) (s.readNat (ip n) k.idxBytes)
  source : ∀ n < k.total, k.kind ≠ .fill →
    PlaceAt s core (s.vfOf sh) k.srcSpace (spaceSize w k.srcSpace) .engine (k.src + srcElem k n (x n) * k.size) k.size (sp n)
  dest : ∀ n < k.total,
    PlaceAt s core (s.vfOf sh) k.dstSpace (spaceSize w k.dstSpace) .engineStore (k.dst + dstElem k n (x n) * k.size) k.size (dp n)
  apart : ∀ n < k.total, ∀ l < k.total, n ≠ l → runsMeet (dp n) k.size (dp l) k.size = false
  fresh : k.kind ≠ .fill → k.srcSpace = k.dstSpace → ∀ n < k.total, ∀ l < k.total, runsMeet (sp n) k.size (dp l) k.size = false

/-- The bytes that the first `n` elements have put. -/
structure PutSoFar (s : State) (k : CopyShape) (w : Workgroup) (sp dp : Nat → Nat) (n : Nat) (m : SMap Byte) : Prop where
  there : ∀ l < n, ∀ b < k.size, lookup m (dp l + b) = some (movedByte s w k (sp l) b)
  only : ∀ p, (∀ l < n, runsMeet p 1 (dp l) k.size = false) → lookup m p = none

theorem runsMeet_false {a n b m : Nat} : runsMeet a n b m = false ↔ b + m ≤ a ∨ a + n ≤ b := by
  simp only [runsMeet, Bool.and_eq_false_iff, decide_eq_false_iff_not, Nat.not_lt]

theorem movedBytes_getElem {s : State} {w : Workgroup} {k : CopyShape} {p b : Nat} (hb : b < k.size) :
    (movedBytes s w k p)[b]? = some (movedByte s w k p b) := by
  simp [movedBytes, hb]
theorem movedBytes_length (s : State) (w : Workgroup) (k : CopyShape) (p : Nat) : (movedBytes s w k p).length = k.size := by
  simp [movedBytes]

/-- The low bytes of FILL (R398). -/
theorem leBytes_fill {s : State} {w : Workgroup} {k : CopyShape} (hk : k.kind = .fill) (p : Nat) :
    leBytes k.size (k.fillVal % 2 ^ (8 * k.size)) = movedBytes s w k p := by
  refine List.ext_getElem (by rw [leBytes_length, movedBytes_length]) fun b hb _ => ?_
  rw [leBytes_length] at hb
  apply Option.some.inj
  rw [← List.getElem?_eq_getElem, ← List.getElem?_eq_getElem, leBytes_getElem? _ _ _ hb, movedBytes_getElem hb, ofNat_mod_div _ hb, movedByte, if_pos hk]

section
variable {s : State} {core : Nat} {c : Cmd} {k : CopyShape} {w : Workgroup} {sh : Sheet} {sp dp : Nat → Nat} {x : Nat → Int} {ip : Nat → Nat}
  {m : SMap Byte} {r : CopyRun} {n : Nat}

theorem CopyShape.idxBytes_pos (k : CopyShape) : 0 < k.idxBytes := by
  unfold CopyShape.idxBytes
  split <;> decide

/-- The index of an element is read where it stands. -/
theorem CopySites.readIndex (h : CopySites s core c k w sh sp dp x ip) (hn : n < k.total) (hr : RunHas core s m r) :
    ∃ y r', copyIndex k (copyEnv s core c k sh w) (indexNo k n) r = .ok (y, r') ∧ (k.indexed = true → y = x n) ∧ RunHas core s m r' := by
  unfold copyIndex
  cases hix : k.indexed with
  | false => exact ⟨0, r, rfl, fun h => by simp at h, hr⟩
  | true =>
    obtain ⟨hplace, hx⟩ := h.index n hn hix
    have hat : ((k.idx + indexNo k n * k.idxBytes : Nat) : Int) = k.idx + indexNo k n * k.idxBytes := by push_cast; rfl
    obtain ⟨l, hlook⟩ := copyLook_place (e := copyEnv s core c k sh w) rfl rfl hr.kept k.idxBytes_pos hplace
    have hr1 : RunHas core s m { r with pages := l } := ⟨hr.kept, hr.put⟩
    obtain ⟨mt, hplaces⟩ := copyPlaces_place hr.kept k.idxBytes_pos (by decide) hplace
    obtain ⟨r2, hread, hr2⟩ := copyRead_bytes (e := copyEnv s core c k sh w) hr1 h.quiet h.scope mt (List.range' (ip n) k.idxBytes)
    refine ⟨x n, r2, ?_, fun _ => rfl, hr2⟩
    dsimp only
    rw [if_neg (show ¬ (!true) = true by decide), hat, hlook]
    dsimp only
    rw [show copyPlaces r.s (copyEnv s core c k sh w).x.core (copyEnv s core c k sh w).vf .g 0 .engine _ _ = _ from hplaces]
    dsimp only
    rw [hread, hx, List.range'_eq_map_range, List.map_map]
    rfl

/-- The value of an element, of which nothing has been put where it is read. -/
theorem CopySites.readValue (h : CopySites s core c k w sh sp dp x ip) (hn : n < k.total) (hr : RunHas core s m r)
    (hfree : k.kind ≠ .fill → k.srcSpace = k.dstSpace → ∀ b < k.size, lookup m (sp n + b) = none) :
    ∃ v r', copyValue k (copyEnv s core c k sh w) n (8 * (k.src : Int) + srcElem k n (x n) * (k.srcBits : Int)) r = .ok (v, r') ∧
      leBytes k.size v = movedBytes s w k (sp n) ∧ RunHas core s m r' := by
  obtain ⟨hsb, hdb⟩ := k.bits_of_plain h.conv h.width
  unfold copyValue CopyShape.readsSrc
  by_cases hk : k.kind = .fill
  · refine ⟨_, r, if_pos (by rw [hk]; rfl), ?_, hr⟩
    rw [hdb]
    exact leBytes_fill hk _
  · obtain ⟨hdiv, hmod, hlen⟩ := bitPlace k.src (srcElem k n (x n)) k.size_pos
    have hplace := h.source n hn hk
    obtain ⟨l, hlook⟩ := copyLook_place (e := copyEnv s core c k sh w) rfl rfl hr.kept k.size_pos hplace
    have hr1 : RunHas core s m { r with pages := l } := ⟨hr.kept, hr.put⟩
    obtain ⟨mt, hplaces⟩ := copyPlaces_place hr.kept k.size_pos h.src hplace
    obtain ⟨r2, hread, hr2⟩ := copyBytes_source (e := copyEnv s core c k sh w) h.quiet h.scope h.src h.wg mt (List.range' (sp n) k.size) (n * 64)
      { r with pages := l } hr1 (fun hsd p hp => by
        obtain ⟨b, hb, rfl⟩ := List.mem_range'.mp hp
        rw [Nat.one_mul]
        exact hfree hk hsd b hb)
    have hbytes : (List.range' (sp n) k.size).map (spaceByte s w k.srcSpace) = movedBytes s w k (sp n) := by
      rw [List.range'_eq_map_range, List.map_map]
      exact List.map_congr_left fun b _ => (if_neg hk).symm
    have hlt : leNat (movedBytes s w k (sp n)) < 2 ^ (8 * k.size) := by
      refine lt_of_lt_of_eq (leNat_lt _) ?_
      rw [movedBytes_length, Nat.pow_mul]
    have hval : leNat (movedBytes s w k (sp n)) / 2 ^ 0 % 2 ^ (8 * k.size) = leNat (movedBytes s w k (sp n)) := by
      rw [Nat.pow_zero, Nat.div_one, Nat.mod_eq_of_lt hlt]
    have hback := leBytes_leNat (movedBytes s w k (sp n))
    rw [movedBytes_length] at hback
    refine ⟨leNat (movedBytes s w k (sp n)), r2, ?_, hback, hr2⟩
    rw [if_neg (by simpa using hk), hsb, hlen, hdiv]
    dsimp only
    rw [hlook]
    dsimp only
    rw [show copyPlaces r.s (copyEnv s core c k sh w).x.core (copyEnv s core c k sh w).vf k.srcSpace
      (spaceSize (copyEnv s core c k sh w).w k.srcSpace) .engine _ _ = _ from hplaces]
    dsimp only
    rw [hread, hbytes, hmod, hval]

end

/-! ## All elements of a copy -/

section
variable {s : State} {core : Nat} {c : Cmd} {k : CopyShape} {w : Workgroup} {sh : Sheet} {sp dp : Nat → Nat} {x : Nat → Int} {ip : Nat → Nat}
  {m : SMap Byte} {r : CopyRun} {n : Nat}

/-- The bytes put once an element has been written too. -/
def putElem (s : State) (w : Workgroup) (k : CopyShape) (sp dp : Nat → Nat) (n : Nat) (m : SMap Byte) : SMap Byte :=
  ((List.range' (dp n) k.size).zip (movedBytes s w k (sp n))).foldl (fun m (e : Nat × Byte) => put m e.1 e.2) m

theorem lookup_putElem (q : Nat) : lookup (putElem s w k sp dp n m) q =
    if dp n ≤ q ∧ q < dp n + k.size then (movedBytes s w k (sp n))[q - dp n]? else lookup m q := by
  have h := lookup_putRun (movedBytes s w k (sp n)) (dp n) m q
  rw [movedBytes_length] at h
  exact h

/-- An element apart from those before it joins what has been put. -/
theorem PutSoFar.step (h : PutSoFar s k w sp dp n m) (hapart : ∀ l < n, runsMeet (dp n) k.size (dp l) k.size = false) :
    PutSoFar s k w sp dp (n + 1) (putElem s w k sp dp n m) where
  there l hl b hb := by
    rw [lookup_putElem]
    by_cases hln : l = n
    · subst hln
      rw [if_pos (by omega), Nat.add_sub_cancel_left, movedBytes_getElem hb]
    · have hl' : l < n := by omega
      have := runsMeet_false.mp (hapart l hl')
      rw [if_neg (by omega), h.there l hl' b hb]
  only p hp := by
    have := runsMeet_false.mp (hp n (Nat.lt_succ_self n))
    rw [lookup_putElem, if_neg (by omega), h.only p fun l hl => hp l (Nat.lt_succ_of_lt hl)]

/-- An index that the copy reads where it has one. -/
theorem srcElem_congr {y z : Int} (h : k.indexed = true → y = z) : srcElem k n y = srcElem k n z := by
  unfold srcElem
  split
  · rename_i hk
    rw [h (by unfold CopyShape.indexed; rw [hk]; rfl)]
  · rfl
theorem dstElem_congr {y z : Int} (h : k.indexed = true → y = z) : dstElem k n y = dstElem k n z := by
  unfold dstElem
  split
  · rename_i hk
    rw [h (by unfold CopyShape.indexed; rw [hk]; rfl)]
  · rfl

/-- Element offsets along the loops. -/
theorem linear_eq (hn : n < k.total) (str : Nat → Int) :
    (List.range 6).foldl (fun (a : Int) j => a + (((unravel k.counts n).getD j 0 : Nat) : Int) * str j) 0 =
      ((List.range 6).map (fun j => (loopAt k n j : Int) * str j)).sum := by
  rw [List.sum_eq_foldl, List.foldl_map]
  refine List.foldl_ext _ _ _ fun a j hj => ?_
  rw [unravel_loopAt hn (List.mem_range.mp hj)]

theorem indexNo_eq (hn : n < k.total) : (unravel k.counts n).getD 1 0 + k.w 7 * ((unravel k.counts n).getD 2 0 + k.w 8 *
    ((unravel k.counts n).getD 3 0 + k.w 9 * ((unravel k.counts n).getD 4 0 + k.w 10 * (unravel k.counts n).getD 5 0))) = indexNo k n := by
  simp only [unravel_loopAt hn (show 1 < 6 by decide), unravel_loopAt hn (show 2 < 6 by decide), unravel_loopAt hn (show 3 < 6 by decide),
    unravel_loopAt hn (show 4 < 6 by decide), unravel_loopAt hn (show 5 < 6 by decide)]
  rfl

/-- An element without conversion: its index, its value, the lookup of its destination and its places there. -/
theorem copyElem_steps {e : CopyEnv} {y : Int} {v : Nat} {r1 r2 r3 : CopyRun} {mt : Nat} (hn : n < k.total) (hconv : k.conv = none) (hz : k.w 5 ≤ 4)
    (hd : k.dstSpace ≠ .pa) (hi : copyIndex k e (indexNo k n) r = .ok (y, r1))
    (hv : copyValue k e n (8 * (k.src : Int) + srcElem k n y * (k.srcBits : Int)) r1 = .ok (v, r2))
    (hl : copyLook e k.dstSpace (k.dst + dstElem k n y * k.size) k.size r2 = r3)
    (hp : copyPlaces r3.s e.x.core e.vf k.dstSpace (spaceSize e.w k.dstSpace) .engineStore (k.dst + dstElem k n y * k.size) k.size =
      .ok (List.range' (dp n) k.size, mt)) :
    copyElem k e n r = .ok { r3 with
      put := ((List.range' (dp n) k.size).zip (leBytes k.size v)).foldl (fun m (e : Nat × Byte) => put m e.1 e.2) r3.put } := by
  obtain ⟨-, hdb⟩ := k.bits_of_plain hconv hz
  obtain ⟨hdiv, hmod, hlen⟩ := bitPlace k.dst (dstElem k n y) k.size_pos
  have hbase : k.dstBase = k.dst := if_neg hd
  have hloop : (unravel k.counts n).getD 0 0 = loopAt k n 0 := unravel_loopAt hn (by decide)
  have hold : ∀ f : Nat → Byte, leNat ((List.range' (dp n) k.size).map f) - bits (leNat ((List.range' (dp n) k.size).map f)) 0 (8 * k.size) * 2 ^ 0 +
      v * 2 ^ 0 = v := by
    intro f
    have hlt := leNat_lt ((List.range' (dp n) k.size).map f)
    rw [List.length_map, List.length_range', show (256 : Nat) = 2 ^ 8 from rfl, ← Nat.pow_mul] at hlt
    unfold bits
    rw [Nat.pow_zero, Nat.div_one, Nat.mod_eq_of_lt hlt, Nat.mul_one, Nat.mul_one, Nat.sub_self, Nat.zero_add]
  have hs : (if k.kind = .gath then (((unravel k.counts n).getD 0 0 : Nat) : Int) * k.sstr 0 + y * k.sstr 1 else
      (List.range 6).foldl (fun (a : Int) j => a + (((unravel k.counts n).getD j 0 : Nat) : Int) * k.sstr j) 0) = srcElem k n y := by
    rw [linear_eq hn, hloop]
    rfl
  have hdst : (if k.kind = .scat then (((unravel k.counts n).getD 0 0 : Nat) : Int) * k.dstr 0 + y * k.dstr 1 else
      (List.range 6).foldl (fun (a : Int) j => a + (((unravel k.counts n).getD j 0 : Nat) : Int) * k.dstr j) 0) = dstElem k n y := by
    rw [linear_eq hn, hloop]
    rfl
  unfold copyElem
  dsimp only
  rw [indexNo_eq hn, hi]
  dsimp only
  rw [hs, hdst, hv]
  dsimp only
  rw [hdb, hbase, hlen, hdiv, hl, hp]
  dsimp only
  rw [hmod, hconv, hold]

/-- One element more is moved. -/
theorem CopySites.element (h : CopySites s core c k w sh sp dp x ip) (hn : n < k.total) (hr : RunHas core s m r) (hm : PutSoFar s k w sp dp n m) :
    ∃ r' m', copyElem k (copyEnv s core c k sh w) n r = .ok r' ∧ RunHas core s m' r' ∧ PutSoFar s k w sp dp (n + 1) m' := by
  have hfree : k.kind ≠ .fill → k.srcSpace = k.dstSpace → ∀ b < k.size, lookup m (sp n + b) = none := fun hk hsd b hb => by
    refine hm.only _ fun l hl => ?_
    have := runsMeet_false.mp (h.fresh hk hsd n hn l (hl.trans hn))
    exact runsMeet_false.mpr (by omega)
  obtain ⟨y, r1, hi, hy, hr1⟩ := h.readIndex hn hr
  obtain ⟨v, r2, hv, hbytes, hr2⟩ := h.readValue hn hr1 hfree
  rw [← srcElem_congr hy] at hv
  have hplace := h.dest n hn
  rw [← dstElem_congr hy] at hplace
  obtain ⟨l, hl⟩ := copyLook_place (e := copyEnv s core c k sh w) rfl rfl hr2.kept k.size_pos hplace
  obtain ⟨mt, hp⟩ := copyPlaces_place hr2.kept k.size_pos h.dst hplace
  refine ⟨_, putElem s w k sp dp n m, copyElem_steps hn h.conv h.width h.dst hi hv hl hp, ⟨hr2.kept, ?_⟩,
    hm.step fun l hl => h.apart n hn l (hl.trans hn) (by omega)⟩
  dsimp only
  rw [hbytes, hr2.put]
  rfl

/-- The elements of a copy from `n` on. -/
theorem CopySites.elements (h : CopySites s core c k w sh sp dp x ip) : ∀ (d n : Nat) (r : CopyRun) (m : SMap Byte), n + d = k.total →
    RunHas core s m r → PutSoFar s k w sp dp n m →
    ∃ r' m', copyAll k (copyEnv s core c k sh w) (List.range' n d) r = .ok r' ∧ RunHas core s m' r' ∧ PutSoFar s k w sp dp k.total m'
  | 0, n, r, m, hd, hr, hm => ⟨r, m, rfl, hr, by rw [← hd]; exact hm⟩
  | d + 1, n, r, m, hd, hr, hm => by
    obtain ⟨r1, m1, helem, hr1, hm1⟩ := h.element (by omega) hr hm
    obtain ⟨r2, m2, hall, hr2, hm2⟩ := h.elements d (n + 1) r1 m1 (by omega) hr1 hm1
    refine ⟨r2, m2, ?_, hr2, hm2⟩
    rw [List.range'_succ]
    unfold copyAll
    rw [helem]
    exact hall

/-- What the copy writes, and the state behind its reads. -/
theorem CopySites.outs (h : CopySites s core c k w sh sp dp x ip) (hsh : s.sheet? c.sid = some sh) :
    ∃ m t n, copyOuts s core c k = .ok (putWrites k c.wg m, t, n) ∧ CopyKept core s t ∧ PutSoFar s k w sp dp k.total m := by
  obtain ⟨r, m, hall, hr, hm⟩ := h.elements k.total 0 ⟨s, [], [], [], 0⟩ [] (Nat.zero_add _) ⟨.refl .., rfl⟩
    ⟨fun l hl => absurd hl (Nat.not_lt_zero l), fun _ _ => rfl⟩
  have hdwg : (copyEnv s core c k sh w).dwg = c.wg := (if_neg h.dst).trans h.home
  refine ⟨m, r.s, r.cost, ?_, hr.kept, hm⟩
  unfold copyOuts
  rw [h.wg, hsh]
  dsimp only
  rw [List.range_eq_range', hall]
  dsimp only
  rw [hdwg, hr.put]

end

/-- A copy's command is consumed with what the copy writes. -/
theorem consume_copy {s t : State} {core e : Nat} {c : Cmd} {k : CopyShape} {outs : List CmdWrite} {n : Nat} (hk : c.copy? = some k)
    (h : copyOuts s core c k = .ok (outs, t, n)) : ∃ d, consumeCmd s core e c =
      askCmd (t.drew.setCmd core e { c with phase := .consumed, used := true, outs := outs, paid := 0 }) core e
        { c with phase := .consumed, used := true, outs := outs, paid := 0 } d := by
  unfold Cmd.copy? at hk
  unfold consumeCmd
  split at hk
  case h_5 => cases hk
  all_goals
    rename_i hop
    rw [hop]
    dsimp only
    rw [← hop]
    have hcopy : c.copy? = some k := by unfold Cmd.copy?; rw [hop]; exact hk
    rw [hcopy]
    dsimp only
    rw [h]
    exact ⟨_, rfl⟩

theorem moves_copy (s : State) (core e : Nat) (c : Cmd) : Moves s core e c := by
  intro k w sh sp dp x ip hdue hpaid hk hconv hz hscope hdst hsrc hquiet hw hsh hwg z hplaces hapart hfresh
  have hsites : CopySites s core c k w sh sp dp x ip :=
    { conv := hconv, width := hz, scope := hscope, dst := hdst, src := hsrc, quiet := hquiet, wg := hw, home := hwg,
      index := fun n hn => (hplaces n hn).1, source := fun n hn => (hplaces n hn).2.1, dest := fun n hn => (hplaces n hn).2.2,
      apart := hapart, fresh := hfresh }
  obtain ⟨m, t, n, houts, hkept, hput⟩ := hsites.outs hsh
  obtain ⟨d, hcons⟩ := consume_copy (e := e) hk houts
  obtain ⟨hmem, -, -, hcmds⟩ := askCmd_frame (t.drew.setCmd core e { c with phase := .consumed, used := true, outs := putWrites k c.wg m, paid := 0 })
    core e { c with phase := .consumed, used := true, outs := putWrites k c.wg m, paid := 0 } d
  refine ⟨_, (exec_consumed hdue hpaid).trans (congrArg _ hcons), sameMemory_of_mem (hmem.trans hkept.mem), _,
    (State.cmd?_of_cmds hcmds e).trans (State.cmd?_setCmd ..), rfl, fun n hn b hb => ?_⟩
  rw [outByte_putWrites hdst]
  exact hput.there n hn b hb

end Sys2Proof.Machine
end

section
/-! O44: the results of all engine commands. -/

namespace Sys2Proof.Machine

/-- Settles O44: the steps of `operandsConsumed` by the command's kind, each with the lemma that says what its operation computes. -/
theorem engineResults : Obligations.EngineResults := fun s core e c h d =>
  ⟨limbResult_cmul s core e c h d, limbResult_cmac s core e c h d, limbResult_csqr s core e c h d, limbResult_cadd s core e c h d,
    limbResult_csub s core e c h d, limbResult_cshl s core e c h d, limbResult_cclr s core e c h d, limbResult_cbig s core e c h d,
    limbResult_cpack s core e c h d, limbResult_cpackv s core e c h d, extracts_of s core e c ⟨h, rfl⟩, extracts_of s core e c ⟨h, rfl⟩,
    fun m hl => mxeResult_mma s core e c h m hl, fun m hl => mxeResult_mmab s core e c h m hl, fun m hl => mxeResult_mmai s core e c h m hl,
    fun m => mxeResult_mxzero s core e c h m, fun m _ => mxeResult_mxdrain s core e c h m, fun m => mxeResult_mxst s core e c h m,
    fun m => mxeResult_mxld s core e c h m, fun m => contributes_mxred s core e c h m, moves_copy s core e c⟩

end Sys2Proof.Machine
end
